-- ==== Sys2Proof/Word.lean ====
section
/-! DEFINITION. The word types of the block and the place of a register field (spec/00_scope.md R4, R8). -/
namespace Sys2Proof

/-- A byte. -/
abbrev Byte := BitVec 8

/-- A BAR0 register word: 32 bits at a 4-byte-aligned offset (R8). -/
abbrev Word := BitVec 32

/-- A 64-bit register or a 64-bit instruction word (R9). -/
abbrev DWord := BitVec 64

/-- A field NAME[hi:lo] of one 32-bit register word: its BAR0 offset, its low bit and its width (R4). -/
structure Field where
  off   : Nat
  lo    : Nat
  width : Nat
  deriving DecidableEq, Repr

end Sys2Proof
end

