-- ==== Sys2Proof/Syntax.lean ====
section
/-! DEFINITION. The commands of the RZ64 as a block (spec/opcode_table.json) and the types of their operands. -/
namespace Sys2Proof

/-- Who writes a register or reads it: a PCIe function of the host (0 is PF0, 1–7 the VFs), or the management port,
whose WRITE_REG counts as a PF0 write by the port (R241). -/
inductive Writer where
  | host (fn : Fin 8)
  | port
  deriving DecidableEq, Repr

/-- What resets a function (R223). -/
inductive FnReset where
  | flr
  | d3Return
  | vfEnableClear
  deriving DecidableEq, Repr

/-- What a completion TLP for a device read of host memory carries (R209). -/
inductive HostResult where
  | data (bytes : List Byte)
  | unsupportedRequest
  | completerAbort
  | poisoned
  deriving DecidableEq, Repr

/-- The access kinds of a translated access (Table 11.4 ACCESS). -/
inductive Access where
  | read
  | write
  | fetch
  deriving DecidableEq, Repr

/-- The streams that can stall on a fault (R286): what the fault record's SOURCE, UNIT and SQ_ID name. -/
inductive Stream where
  /-- a hose channel -/
  | hose (engine channel : Nat)
  /-- a work order or program tile on a bed, by the entry's number -/
  | order (uid bed wave : Nat)
  /-- the descriptor fetch of an SQ -/
  | sqFetch (sq : Nat)
  /-- a ring in device memory -/
  | ring (cq : Bool) (r : Nat)
  /-- a stream slot -/
  | slot (s : Nat)
  /-- a placement group -/
  | group (g : Nat)
  /-- a rake job -/
  | rake (uid : Nat)
  /-- a furrow job -/
  | furrow (uid : Nat)
  /-- an evidence request -/
  | evidence (uid : Nat)
  /-- the display's scan-out -/
  | display
  deriving DecidableEq, Repr

/-- What a configuration request of a function names: the items of Table 8.1 that the spec gives a value or an effect,
whatever their offsets in the capabilities, and `other` for any other register of the base specification. -/
inductive ConfigItem where
  /-- vendor and device ID -/
  | ids
  /-- revision ID and class code -/
  | revClass
  /-- subsystem vendor ID and subsystem ID -/
  | subsystem
  /-- Interrupt Pin -/
  | interruptPin
  /-- Interrupt Disable -/
  | interruptDisable
  /-- Bus Master Enable -/
  | busMaster
  /-- PowerState: 0 D0, 3 D3hot -/
  | powerState
  /-- Initiate Function Level Reset -/
  | flr
  /-- Enable Relaxed Ordering -/
  | relaxedOrdering
  /-- Max_Payload_Size and Max_Read_Request_Size, as codes -/
  | maxPayload
  | maxReadRequest
  /-- ASPM Control: bit 0 L0s, bit 1 L1 -/
  | aspm
  /-- ASPM L1.2 Enable -/
  | aspmL12
  /-- Current Link Speed in bits 3:0 and Negotiated Link Width in bits 9:4 -/
  | linkStatus
  /-- MSI-X Enable and Function Mask -/
  | msixEnable
  | msixMask
  /-- Device Serial Number, 64 bits -/
  | serialNumber
  /-- BAR Size of BAR4 in Resizable BAR: 256 MiB × 2^code -/
  | bar4Size
  /-- TotalVFs -/
  | totalVfs
  /-- VF Enable -/
  | vfEnable
  | other (reg : BitVec 12)
  deriving DecidableEq, Repr

/-- A host access in the front end's receive buffer (R139). -/
inductive Tlp where
  | write (fn : Fin 8) (off : BitVec 24) (value : Word)
  | read (fn : Fin 8) (off : BitVec 24) (size : Nat)
  | bar4 (off : BitVec 34) (len : Nat) (data : Option (List Byte))
  | doorbell (fn : Fin 8) (cq : Bool) (ring : Fin 64) (value : BitVec 16)
  | msix (fn : Fin 8) (vector : Fin 64) (addr : DWord) (data : Word) (mask : Bool)
  | config (fn : Fin 8) (item : ConfigItem) (value : Option Nat)
  deriving DecidableEq, Repr

/-- What the probe of the boot flash finds at BOOT_DIR (R108). -/
inductive FlashProbe where
  | ok
  | noResponse
  | tooSmall
  deriving DecidableEq, Repr

/-- How a training of DRAM ends: a failure with its INFO (channel and byte lane), or the devices' identity (Table 10.3),
ranks and capacity in GiB per channel, and the trained delays. -/
inductive Training where
  | failed (info : Nat)
  | trained (identity : List Byte) (ranks capGib : Nat) (data : List Byte)
  deriving DecidableEq, Repr

/-- Who sends a request to the management port: its SMBus address, its MCTP EID and the message tag (R233). -/
structure Requester where
  addr : BitVec 7
  eid  : BitVec 8
  tag  : BitVec 3
  deriving DecidableEq, Repr

/-- A DisplayPort sink: its maximum lanes and link rate code, and the (lanes, rate) pairs at which training works. -/
structure Sink where
  lanes : Nat
  rate  : Nat
  works : List (Nat × Nat)
  deriving DecidableEq, Repr

/-- How a DisplayPort AUX transaction ends: an ACK with what was read, NACK, the DEFER limit, the timeout. -/
inductive AuxReply where
  | ack (data : List Byte)
  | nack
  | deferLimit
  | timeout
  deriving DecidableEq, Repr

/-- A decoded picture after its cropping window (R447, R451): size, 10-bit samples, chroma (0 4:0:0, 1 4:2:0, 2 4:2:2,
3 4:4:4), VUI matrix and range, and the samples of each plane row by row. -/
structure Picture where
  width  : Nat
  height : Nat
  tenBit : Bool
  chroma : Nat
  matrix : Nat
  fullRange : Bool
  y  : List Nat
  cb : List Nat
  cr : List Nat
  deriving DecidableEq, Repr

/-- What a parameter set or JPEG header that activates says (R448): inside Table 18.7 but for the size and TENBIT, its
picture size, and whether it is Main 10. -/
structure StreamInfo where
  supported : Bool
  width  : Nat
  height : Nat
  main10 : Bool
  deriving DecidableEq, Repr

/-- How the decoding of an access unit ends (R442, R447, R448). The coding standards decide which. -/
inductive Decoded where
  | frame (info : Option StreamInfo) (pic : Picture)
  /-- corrupt: with the picture that concealment makes -/
  | corrupt (info : Option StreamInfo) (pic : Picture)
  | noSlice (info : Option StreamInfo)
  deriving DecidableEq, Repr

/-- A time protocol message after its standard's processing (R434): a Sync with the offset that it measures, a message
from which a master is heard, or any other. -/
inductive TimeMsg where
  | sync (offsetNs : Int)
  | announce
  | other
  deriving DecidableEq, Repr

/-- How a codeword read from NAND climbs the decode ladder (Table 20.2): hard decode with the bits corrected, read retry
with the option that succeeded, soft decode, uncorrectable. -/
inductive CwRead where
  | hard (corrected : Nat)
  | retry (option : Nat)
  | soft
  | uncorrectable
  deriving DecidableEq, Repr


/-- The commands of the block: one constructor for each row of spec/opcode_table.json, in the table's order. -/
inductive Instr where
  /-- An ISLAND_CTRL write with ACTION 1 and a valid KEY passes its conditions and closes the target island's hedge with cause 7 for a reset (R44). -/
  | resetTarget (w : Writer) (key : BitVec 16) (target : BitVec 7)
  /-- An ISLAND_CTRL write with ACTION 2 clears the counters of the target island (R44). -/
  | clearTargetCounters (w : Writer) (key : BitVec 16) (target : BitVec 7)
  /-- An ISLAND_CTRL write with ACTION 3 clears the counters of every island (R44). -/
  | clearAllCounters (w : Writer) (key : BitVec 16)
  /-- After its reset, clearing or reload ends and 4 µs have passed, a CLOSED hedge passes through OPENING to OPEN and raises its epoch by one (R21). -/
  | hedgeOpen (island : Fin 72)
  /-- A powered trellis stop updates its epoch view from a broadcast, at most 1 µs after the opening (R29). -/
  | epochViewUpdate (stop island : Fin 72)
  /-- A request arriving at a hedge is accepted, held, or answered with STALE_EPOCH or ISLAND_RESET, according to the hedge state and epoch (R23). -/
  | hedgeRequest (src dst : Fin 72)
  /-- A reply arriving at a hedge is delivered if its epoch matches, and otherwise discarded and counted in ISLAND_DISCARD (R25). -/
  | hedgeReply (src : Fin 72) (tag : Fin 64)
  /-- A trellis stop drops a packet that has been in the trellis for more than 50 µs and counts it (R28). -/
  | trellisAged
  /-- A tracking tag frees at a stop, and a request that was waiting in the requester's crossing is issued (R20). -/
  | requestTagFree (src : Fin 72)
  /-- A requester stop's 100 µs response timer expires for a tracked request (R30). -/
  | responseTimeout (src : Fin 72) (tag : Fin 64) (hung : Bool)
  /-- A host access to a register of a DARK or CLOSED island reads all ones or discards the write, and records DARK_ACCESS and the island (R41). -/
  | darkAccess (w : Writer) (off : BitVec 24) (write : Bool)
  /-- A misaligned access, or an access to an offset without a register, is refused and sets GLOBAL_STATUS.BAD_ACCESS (R555). -/
  | badAccess (w : Writer) (off : BitVec 24) (size : Nat) (write : Bool)
  /-- A write to a register without a row of its own takes effect according to its field types (R11). -/
  | registerWrite (w : Writer) (off : BitVec 24) (lo : Word) (hi : Option Word)
  /-- PLAN_CMD LOAD copies, checks and replans with a full plan image (R57). -/
  | load (w : Writer) (key : BitVec 16) (drain : BitVec 1)
  /-- PLAN_CMD GRAFT copies and checks a graft, then applies it live to its named islands (R59). -/
  | graft (w : Writer) (key : BitVec 16) (drain : BitVec 1)
  /-- PLAN_CMD STORE writes the active chain into the older plan area of the boot flash (R64). -/
  | store (w : Writer) (key : BitVec 16)
  /-- The STORE flash write and read-back end, and the area is valid if its CHAIN_DIGEST matches (R64). -/
  | storeDone (readBackOk : Bool)
  /-- PLAN_CMD FALLBACK applies the ROM fallback plan as a run-time LOAD (R61). -/
  | fallback (w : Writer) (key : BitVec 16) (drain : BitVec 1)
  /-- PLAN_CMD BURN_FLOOR raises the fused plan floor to the active plan's SECURITY_VERSION (R50). -/
  | planBurnFloor (w : Writer) (key : BitVec 16)
  /-- PLAN_CMD REVOKE_KEY burns the revoked bit of a plan key slot (R50). -/
  | revokeKey (w : Writer) (key : BitVec 16) (slot : BitVec 2)
  /-- PLAN_CMD ABORT ends a plan command in COPY, CHECK or DRAIN with ABORTED, and is ignored in COMMIT or STORE (R67). -/
  | abort (w : Writer) (key : BitVec 16)
  /-- The copy of the image into the staging buffer ends, and PHASE moves to CHECK (R53). -/
  | planCopyDone
  /-- The CHECK phase ends, and the plan is refused or moves on to its drain or replan (R51). -/
  | planCheckDone
  /-- PLAN_DRAIN.TIMEOUT_US expires during a FINISH drain, and the remaining orders are cut (R59). -/
  | planDrainTimeout
  /-- The graft drain ends, PHASE moves to COMMIT, and the named islands close with cause 4 (R59). -/
  | planDrainDone
  /-- The named islands have opened, and the graft is appended to the chain and reported OK (R59). -/
  | planCommitDone
  /-- RESET_N held low for at least 1 µs puts the device in reset and abandons any start (R122). -/
  | resetNAssert
  /-- RESET_N rises with PWR_OK high, and a cold start begins with POWER_GOOD (R537). -/
  | resetNDeassert
  /-- PWR_OK rises with every rail valid, and the device leaves reset and starts when RESET_N is high (R543). -/
  | pwrOkRise
  /-- PWR_OK falls: within 1 µs NAND and flash selects are made safe and the device enters reset (R544). -/
  | pwrOkFall
  /-- A monitored rail reads below 85 % for 10 µs, and the device acts as if PWR_OK fell (R544). -/
  | railUndervoltage
  /-- Rails are valid, the starting islands are switched on and the clocks are stable, so the start proceeds (R102). -/
  | powerGood
  /-- Fuses are shadowed into island 1, and islands 1 and 2 open (R102). -/
  | fuseLoad (eccOk : Bool) (strap1 strap0 : Fin 3) (testMode : Bool)
  /-- The ROM digest is compared with the fused digest (R102). -/
  | romCheck (digestOk : Bool)
  /-- The xSPI device is identified, the directory and boot record log are read, and a slot or safe mode is chosen (R111). -/
  | bootDir (probe : FlashProbe)
  /-- The Groundskeeper image is read and its signature checked (R110). -/
  | gkVerify
  /-- Island 0 opens with the verified Groundskeeper image (R102). -/
  | gkRun
  /-- 1 ms after GK_RUN, or at LINKS_UP from Dormant, the PCIe controller begins link training (R106). -/
  | pcieTrainingStart
  /-- Full LPDDR5X training of both channels ends, and the record is written to the TRAIN sector (R104). -/
  | memTrain (result : Training)
  /-- The stored training record is applied and read back, or MEM_TRAIN is run in its place (R104). -/
  | memRestore (identity : List Byte) (ranks capGib : Nat) (readBack : Bool)
  /-- The Gardener and Seedkeeper images are checked by signature or digest and loaded (R173). -/
  | imagesVerify (copiesOk : Bool)
  /-- The calibration table is read, checked and applied (R165). -/
  | calLoad
  /-- The plot plan chain is checked in full or by digest (R65). -/
  | planVerify (shadowOk : Bool)
  /-- The chain is applied: islands are powered and configured, and grafts are applied in order (R56). -/
  | planApply
  /-- The evidence-store journal is replayed from the newer checkpoint (R501). -/
  | nandReplay
  /-- PCIe, the switch ports and the display are brought up, waiting at most 1 ms for PCIe L0 (R106). -/
  | linksUp
  /-- The device accepts work, and lease 5 is granted under Table 8.10 (R102). -/
  | ready
  /-- The start timer of 2 s or 500 ms expires, and the start fails with TIMEOUT (R112). -/
  | startTimerExpiry
  /-- The zero-clearing of DRAM with ECC after READY reaches a region, releasing accesses that waited for it (R121). -/
  | dramClearDone
  /-- BOOT_CMD WRITE_SLOT erases an image region, writes it from BAR4 and reads it back (R127). -/
  | writeSlot (w : Writer) (key : BitVec 16) (slot : BitVec 1) (image : BitVec 2)
  /-- BOOT_CMD VERIFY_SLOT checks all four images of a slot (R127). -/
  | verifySlot (w : Writer) (key : BitVec 16) (slot : BitVec 1)
  /-- BOOT_CMD SET_PREFERRED verifies a slot and writes the boot directory (R127). -/
  | setPreferred (w : Writer) (key : BitVec 16) (slot : BitVec 1)
  /-- BOOT_CMD CLEAR_ATTEMPTS appends a CLEAR record (R127). -/
  | clearAttempts (w : Writer) (key : BitVec 16)
  /-- BOOT_CMD BURN_FLOOR raises the fused image floor if the other slot is not older (R118). -/
  | bootBurnFloor (w : Writer) (key : BitVec 16)
  /-- BOOT_CMD RESTART_COLD forces a cold start with START_KIND 2 (R127). -/
  | restartCold (w : Writer) (key : BitVec 16)
  /-- An accepted PWR_REQUEST begins settle for a target power state (R131). -/
  | pwrRequest (w : Writer) (key : BitVec 16) (target : BitVec 3) (drain : BitVec 1)
  /-- A PWR_REQUEST with TARGET 0 written in Shade exits Shade (R130). -/
  | softwareShadeExit (w : Writer) (key : BitVec 16)
  /-- A firmware processor executes WAIT with its mode bits, and the sequence starts when all four wait with matching bits (R174). -/
  | processorWait (proc : Fin 4) (mode : BitVec 3)
  /-- The entry sequence ends, DRAM is in self-refresh or off, and STATE is set (R128). -/
  | sequenceDone
  /-- Half of PWR_SETTLE.TIMEOUT_MS passes in a FINISH settle, and running orders are cut (R131). -/
  | settleHalfTimeout
  /-- The settle limit expires, and the entry is abandoned with SETTLE_TIMEOUT (R133). -/
  | settleTimeout
  /-- After 1 s in LINK_WAIT, island 60 is powered off with the link up (R135). -/
  | linkWaitTimeout
  /-- WAKE_N held low for 20 µs is a wake event (R538). -/
  | wakeNFall
  /-- The RTC reaches PWR_ALARM, and the alarm fires as a wake source and clears (R136). -/
  | rtcAlarm
  /-- The Groundskeeper's PWR_TIMER_MS expires as a software wake source (R136). -/
  | pwrTimerExpiry
  /-- PCIe activity, an L1.2 exit or training activity acts as a wake source (R136). -/
  | pcieWake
  /-- A TLP arriving in Shade is served by island 1 or held as an exit event in the front end buffer (R139). -/
  | shadeTlpArrival (tlp : Tlp)
  /-- A TLP held in Shade is served once the islands on its path are OPEN (R139). -/
  | heldTlpServe
  /-- An Ethernet frame in Shade is held in the port buffer as an exit event, or dropped and counted (R140). -/
  | shadeFrameArrival (port : Fin 4) (frame : List Byte)
  /-- The fence samples the thermal sensors, filters them and updates TEMP_MAX (R147). -/
  | sensorSample (raw : List (Option Int)) (rails : List Int)
  /-- A soft threshold's dwell count completes, and WARN or THROTTLE changes state (R150). -/
  | softDwellExpiry (throttle : Bool)
  /-- After 4 samples at the rising value, beds are clamped to 400 MHz and THERM_N is driven low (R153). -/
  | hwThrottle
  /-- After 100 ms at or below the release value, HW_THROTTLE is released (R153). -/
  | hwThrottleRelease
  /-- After 4 samples at the trip value, the fence runs the trip sequence to Frost (R154). -/
  | hwTrip
  /-- After a trip, 100 ms below the release value lets THERM_N rise and a latched wake start (R155). -/
  | tripWakeRelease
  /-- Every 1 ms the Groundskeeper lowers or raises the bed clock ceiling by 25 MHz against the soft power limit (R152). -/
  | powerCapStep (mw : Nat)
  /-- The current limiter samples core power and steps the bed clock ratio down above 18 W (R157). -/
  | currentLimitSample (mw : Nat)
  /-- Power above 15 W for 10 ms makes the limiter step the ratio down (R157). -/
  | sustainedPowerExpiry
  /-- Each 100 µs at or below 14 W raises the ratio by one eighth (R157). -/
  | limitRatioRaise
  /-- VDD_CORE above 0.90 V for 100 µs runs the trip sequence with cause OVERVOLT (R158). -/
  | overvolt
  /-- VDD_CORE more than 50 mV below target for 5 µs sets LIMIT_RATIO to 2/8 (R548). -/
  | undervolt
  /-- After 100 µs near the target, the held ratio is allowed to rise (R548). -/
  | undervoltRelease
  /-- The crystal clock absent for 10 µs runs the trip sequence with cause CLOCK_LOSS (R550). -/
  | crystalLoss
  /-- Loss of PCIE_REFCLK or ETH_REFCLK takes the PCIe link or the external port links down (R550). -/
  | refclkLoss (eth inL12 : Bool)
  /-- CAL_CMD READ copies the calibration table to the BAR4 window (R166). -/
  | calRead (w : Writer) (key : BitVec 16)
  /-- CAL_CMD WRITE checks a user table, erases and writes the CAL sector, and applies it (R167). -/
  | calWrite (w : Writer) (key : BitVec 16)
  /-- CAL_CMD RELOAD applies the table in the CAL sector at the next sample (R170). -/
  | calReload (w : Writer) (key : BitVec 16)
  /-- CAL_CMD MEASURE records raw sensor values or a microphone level (R166). -/
  | calMeasure (w : Writer) (key : BitVec 16) (arg : BitVec 1) (mic : BitVec 3) (readings : List Int)
  /-- A processor's firmware restarts its watchdog (R175). -/
  | watchdogRestart (proc : Fin 4)
  /-- A processor watchdog expires, and the fence closes its island with cause 3 (R176). -/
  | watchdogExpiry (proc : Fin 4)
  /-- A firmware exception closes the processor's island with cause 3 (R176). -/
  | firmwareException (proc : Fin 4)
  /-- A processor image is read through the ROM port, checked against the held digest and the island is opened (R178). -/
  | processorReload (proc : Fin 4) (readOk : Bool)
  /-- The flash is still busy after 3 s, and the reload does not succeed (R180). -/
  | romPortFlashTimeout (proc : Fin 4)
  /-- BOOT_FW_CMD HOT_SWAP checks an image from BAR4, settles the processor and runs the new image (R182). -/
  | hotSwap (w : Writer) (key : BitVec 16) (proc : BitVec 2)
  /-- The processor does not settle in time, and the swap is abandoned (R182). -/
  | hotSwapSettleTimeout
  /-- BOOT_FW_CMD RELOAD closes a processor with cause 5 and reloads its slot image (R183). -/
  | firmwareReload (w : Writer) (key : BitVec 16) (proc : BitVec 2)
  /-- A holder requests a lease, which is granted or queued (R184). -/
  | leaseRequest (lease : Fin 5) (island : Fin 72) (epoch : BitVec 8) (recovery : Bool)
  /-- A holder renews a lease, or completes an operation on it, which restarts its timer (R187). -/
  | leaseRenew (lease : Fin 5) (island : Fin 72) (epoch : BitVec 8)
  /-- A holder releases a lease with its current epoch, and the next waiter is granted it (R184). -/
  | leaseRelease (lease : Fin 5) (island : Fin 72) (epoch : BitVec 8)
  /-- The NAND bus keeper has reset the busy dies, they report ready, and lease 1 is released (R185). -/
  | nandSafePointDone
  /-- The Groundskeeper revokes island 58's lease past its limit by closing the island with cause 6 (R186). -/
  | leaseRevocation (lease : Fin 5)
  /-- The 100 ms hardware timer of a Groundskeeper lease expires, and the fence releases it (R187). -/
  | leaseTimerExpiry (lease : Fin 5)
  /-- BOOT_KEYMB_CMD LOAD loads a key slot in both memory channels and commits it (R190). -/
  | keymbLoad (w : Writer) (key : BitVec 16) (slot : BitVec 4)
  /-- BOOT_KEYMB_CMD CLEAR empties one key slot (R190). -/
  | keymbClear (w : Writer) (key : BitVec 16) (slot : BitVec 4)
  /-- BOOT_KEYMB_CMD CLEAR_ALL empties slots 1–15 (R190). -/
  | keymbClearAll (w : Writer) (key : BitVec 16)
  /-- An SQ tail doorbell write makes new entries available or halts the ring when invalid (R211). -/
  | sqDoorbell (fn : Fin 8) (ring : Fin 64) (tail : BitVec 16)
  /-- A CQ head doorbell write hands back consumed slots, and waiting completions are written (R211). -/
  | cqDoorbell (fn : Fin 8) (ring : Fin 64) (head : BitVec 16)
  /-- Writing ENABLE 1 to a DISABLED ring enables it if its configuration is valid (R209). -/
  | ringEnable (fn : Fin 8) (cq : Bool) (ring : Fin 64)
  /-- Writing ENABLE 0 stops an SQ, which drains to DISABLED (R224). -/
  | ringDisable (fn : Fin 8) (cq : Bool) (ring : Fin 64)
  /-- Gardener 0 reads a ring head entry, checks it and dispatches it by class (R213). -/
  | entryFetch (ring : Fin 64)
  /-- A NOP submission entry completes with OK (R210). -/
  | nop (uid : Nat)
  /-- A HOSE submission entry starts a transfer on a host channel (R305). -/
  | hose (uid : Nat)
  /-- A RESUME entry answers a fault batch, retrying or aborting each stalled stream (R290). -/
  | resume (uid : Nat)
  /-- The CQ's TIME coalescing interval passes, and its MSI-X vector is sent (R218). -/
  | cqCoalesceTimer (ring : Fin 64)
  /-- Unmasking an MSI-X vector sends a message pending in the PBA (R218). -/
  | msixUnmask (fn : Fin 8) (vector : Fin 64) (addr : DWord) (data : Word) (mask : Bool)
  /-- Writing BEAT restarts and arms the heartbeat timer (R220). -/
  | heartbeatBeat (fn : Fin 8)
  /-- The heartbeat timer passes HEARTBEAT_TIMEOUT, and the token moves to the management port (R220). -/
  | heartbeatLapse
  /-- HOSTQ_TOKEN GRANT moves the control token from the host to the management port (R222). -/
  | grant (w : Writer) (key : BitVec 16)
  /-- HOSTQ_TOKEN RECLAIM returns the control token to the host after a lapse or link-down (R222). -/
  | reclaim (w : Writer) (key : BitVec 16)
  /-- FLR, a D3hot return or a VF Enable clear resets a function's rings and running entries (R223). -/
  | functionReset (fn : Fin 8) (cause : FnReset)
  /-- A function enters D3hot and stops issuing requests and fetching its rings (R199). -/
  | d3hotEntry (fn : Fin 8)
  /-- A change of Bus Master Enable stops or resumes a function's requests and held MSI-X messages (R201). -/
  | busMasterEnable (fn : Fin 8) (value : Bool)
  /-- The PCIe link goes down, all functions reset and the token moves to the management port (R221). -/
  | pcieLinkDown
  /-- The PCIe link reaches L0, and LINK_PENDING clears (R106). -/
  | pcieLinkUp (speed : BitVec 4) (width : BitVec 6)
  /-- A HOSTQ_FN_f write sets a function's allotment range if the checks pass (R206). -/
  | fnWrite (w : Writer) (fn : Fin 8) (base : BitVec 6) (count : BitVec 7)
  /-- A HOSTQ_RING_OWNER_r write changes the owning functions of disabled rings (R207). -/
  | ringOwnerWrite (w : Writer) (ring : Fin 64) (sqFn cqFn : Fin 8)
  /-- A BAR4 access is performed through the shed and a memory channel, or is denied (R203). -/
  | bar4Access (off : BitVec 34) (len : Nat) (data : Option (List Byte))
  /-- An SMBus packet to the device's address is checked for PEC and reassembled into an MCTP message (R229). -/
  | smbusPacket (bytes : List Byte)
  /-- The next packet of a message does not arrive within 100 ms, and the message is dropped (R233). -/
  | mctpReassemblyTimeout (who : Requester)
  /-- MCTP Set Endpoint ID sets or gets the EID (R234). -/
  | setEndpointId (who : Requester) (inst : Byte) (body : List Byte)
  /-- MCTP Get Endpoint ID returns the EID and endpoint type (R234). -/
  | getEndpointId (who : Requester) (inst : Byte) (body : List Byte)
  /-- MCTP Get Endpoint UUID returns the fused UUID (R234). -/
  | getEndpointUuid (who : Requester) (inst : Byte) (body : List Byte)
  /-- MCTP Get MCTP Version Support returns the supported versions (R234). -/
  | getMctpVersionSupport (who : Requester) (inst : Byte) (body : List Byte)
  /-- MCTP Get Message Type Support returns types 0x00, 0x01 and 0x7E (R234). -/
  | getMessageTypeSupport (who : Requester) (inst : Byte) (body : List Byte)
  /-- MCTP Get Vendor Defined Message Support returns the vendor ID and command set version (R234). -/
  | getVendorDefinedMessageSupport (who : Requester) (inst : Byte) (body : List Byte)
  /-- PLDM SetTID sets the terminus ID (R236). -/
  | setTid (who : Requester) (inst : Byte) (body : List Byte)
  /-- PLDM GetTID returns the terminus ID (R236). -/
  | getTid (who : Requester) (inst : Byte) (body : List Byte)
  /-- PLDM GetPLDMVersion returns the supported versions (R236). -/
  | getPldmVersion (who : Requester) (inst : Byte) (body : List Byte)
  /-- PLDM GetPLDMTypes returns types 0 and 2 (R236). -/
  | getPldmTypes (who : Requester) (inst : Byte) (body : List Byte)
  /-- PLDM GetPLDMCommands returns the supported commands (R236). -/
  | getPldmCommands (who : Requester) (inst : Byte) (body : List Byte)
  /-- PLDM GetSensorReading returns a numeric sensor from island 1 (R237). -/
  | getSensorReading (who : Requester) (inst : Byte) (body : List Byte)
  /-- PLDM GetStateSensorReadings returns a state sensor (R237). -/
  | getStateSensorReadings (who : Requester) (inst : Byte) (body : List Byte)
  /-- PLDM GetPDRRepositoryInfo describes the fixed PDR repository (R237). -/
  | getPdrRepositoryInfo (who : Requester) (inst : Byte) (body : List Byte)
  /-- PLDM GetPDR returns a PDR record (R237). -/
  | getPdr (who : Requester) (inst : Byte) (body : List Byte)
  /-- Vendor GET_STATUS returns six status registers (R238). -/
  | getStatus (who : Requester) (flags : Word) (body : List Byte)
  /-- Vendor GET_BOOT_FAIL returns the failure record mirrored in island 2 (R238). -/
  | getBootFail (who : Requester) (flags : Word) (body : List Byte)
  /-- Vendor READ_REG reads up to 16 registers, stopping at a dark island (R240). -/
  | readReg (who : Requester) (flags : Word) (body : List Byte)
  /-- Vendor WRITE_REG writes up to 16 registers as a PF0 write by the management port (R241). -/
  | writeReg (who : Requester) (flags : Word) (body : List Byte)
  /-- Vendor STAGE_WRITE writes bytes into the management staging buffer (R242). -/
  | stageWrite (who : Requester) (flags : Word) (body : List Byte)
  /-- Vendor TOKEN QUERY returns HOSTQ_TOKEN from the island 1 mirror (R238). -/
  | tokenQuery (who : Requester) (flags : Word) (body : List Byte)
  /-- Vendor TOKEN YIELD moves the control token from the port to the host (R245). -/
  | tokenYield (who : Requester) (flags : Word) (body : List Byte)
  /-- Vendor WAKE is a software wake event under bit 5 (R243). -/
  | wake (who : Requester) (flags : Word) (body : List Byte)
  /-- After lost arbitration and 50 µs of bus idle, the device retries sending a response (R231). -/
  | arbitrationRetry
  /-- A read of the SMBus Alert Response Address is answered with the device's address (R232). -/
  | alertResponse
  /-- A Send Byte or Write Byte with command 0xA5 to the device is a wake source (R244). -/
  | addressMatch
  /-- A request reaches its shed slice and hits, or misses and allocates (R265). -/
  | shedAccess (src : Fin 72) (channel : BitVec 4) (pa : BitVec 40) (keySel : BitVec 4) (noAlloc : Bool) (len : Nat) (data : Option (List Byte))
  /-- DRAM data for a miss returns, is decrypted and ECC-checked, and fills the line (R265). -/
  | shedFillDone (pa : BitVec 40) (corrected uncorrectable : Bool)
  /-- The daily ECC scrub of usable DRAM runs in class 2 (R254). -/
  | eccScrub (corrected uncorrectable : List Nat)
  /-- A 100 µs QoS window ends, and class budgets restart (R261). -/
  | qosWindow (channel : Fin 2)
  /-- MR4 reports a DRAM temperature needing doubled refresh, and REFRESH_X2 changes (R261). -/
  | refreshRateChange (channel : Fin 2) (doubled : Bool)
  /-- SHED_CMD FILL fetches every invalid line of a lock entry (R274). -/
  | shedFill (w : Writer) (key : BitVec 16) (slice : Fin 4) (entry : BitVec 4)
  /-- SHED_CMD WRITEBACK writes back a lock entry's dirty lines and keeps them locked (R274). -/
  | shedWriteback (w : Writer) (key : BitVec 16) (slice : Fin 4) (entry : BitVec 4)
  /-- SHED_CMD FLUSH writes back every dirty unlocked line of all slices (R274). -/
  | shedFlush (w : Writer) (key : BitVec 16)
  /-- A translated access misses its cache and the page table walk reads the levels (R277). -/
  | translationWalk (island : Fin 72) (allot : Fin 64) (va : DWord) (access : Access) (stream : Stream)
  /-- BATCH_TIME_US passes since a batch's first record, and the batch closes (R288). -/
  | batchTimeout (fn : Fin 8)
  /-- A closed batch waiting for ring slots is written once they are free, and vector 1 is sent (R289). -/
  | batchWrite (fn : Fin 8)
  /-- A stream stalled for 100 ms ends with FAULT_TIMEOUT (R291). -/
  | faultTimeout (stream : Stream)
  /-- MMU_INVAL ALL removes every cached translation (R283). -/
  | invalAll (fn : Fin 8) (key : BitVec 16)
  /-- MMU_INVAL ALLOT removes the translations of one allotment (R283). -/
  | invalAllot (fn : Fin 8) (key : BitVec 16) (allot : Fin 64)
  /-- MMU_INVAL RANGE removes the translations of a page range (R283). -/
  | invalRange (fn : Fin 8) (key : BitVec 16) (allot : Fin 64)
  /-- No cache holds a matching translation and older accesses are done, so DONE sets (R283). -/
  | invalidationDone
  /-- Writing FR_CFG ENABLE 1 starts the fault ring afresh if its configuration is valid (R299). -/
  | faultRingEnable (fn ring : Fin 8)
  /-- The last write of a slab is performed and the slab's credit is delivered (R307). -/
  | slabCredit (engine : Fin 2) (channel : Fin 16)
  /-- A write of HOSEn_RELEASE_ADD_c raises a channel's release count (R309). -/
  | releaseAdd (w : Writer) (engine : Fin 2) (channel : Fin 16) (add : BitVec 16)
  /-- A HOSEn_CFG_c write sets a channel's owner and chaining if its conditions hold (R318). -/
  | hoseCfgWrite (w : Writer) (engine : Fin 2) (channel : Fin 16) (value : Word)
  /-- The bed NOP instruction does nothing (R329). -/
  | bedNop (bed slot : Fin 48)
  /-- A wave ends, freeing its registers, and a PROGRAM tile ends with its last wave (R329). -/
  | endWave (bed slot : Fin 48)
  /-- The BR instruction branches by its offset (R329). -/
  | br (bed slot : Fin 48)
  /-- The BRP instruction branches if its predicate test holds (R329). -/
  | brp (bed slot : Fin 48)
  /-- The CALL instruction pushes a return address and branches (R330). -/
  | call (bed slot : Fin 48)
  /-- The RET instruction pops and branches (R330). -/
  | ret (bed slot : Fin 48)
  /-- The BRK instruction traps with BED_BREAK (R346). -/
  | brk (bed slot : Fin 48)
  /-- The SLEEP instruction makes the wave not ready for a number of clocks (R329). -/
  | sleep (bed slot : Fin 48)
  /-- A wave's SLEEP count ends and the wave is ready again (R329). -/
  | sleepExpiry (bed slot : Fin 48)
  /-- The EXECP instruction saves EXEC and masks it with a predicate (R329). -/
  | execp (bed slot : Fin 48)
  /-- The MOV instruction copies a (R331). -/
  | mov (bed slot : Fin 48)
  /-- The ADD instruction adds a and b (R331). -/
  | add (bed slot : Fin 48)
  /-- The SUB instruction subtracts b from a (R331). -/
  | sub (bed slot : Fin 48)
  /-- The MUL instruction multiplies a and b (R331). -/
  | mul (bed slot : Fin 48)
  /-- The FMA instruction computes a × b + c with one rounding (R331). -/
  | fma (bed slot : Fin 48)
  /-- The MAD instruction computes the low 32 bits of a × b + c (R331). -/
  | mad (bed slot : Fin 48)
  /-- The MULHI instruction gives the high 32 bits of a × b (R331). -/
  | mulhi (bed slot : Fin 48)
  /-- The MIN instruction gives the minimum of a and b (R331). -/
  | min (bed slot : Fin 48)
  /-- The MAX instruction gives the maximum of a and b (R331). -/
  | max (bed slot : Fin 48)
  /-- The AND instruction gives the bitwise AND (R331). -/
  | and (bed slot : Fin 48)
  /-- The OR instruction gives the bitwise OR (R331). -/
  | or (bed slot : Fin 48)
  /-- The XOR instruction gives the bitwise XOR (R331). -/
  | xor (bed slot : Fin 48)
  /-- The NOT instruction gives the bitwise complement (R331). -/
  | not (bed slot : Fin 48)
  /-- The SHL instruction shifts left (R331). -/
  | shl (bed slot : Fin 48)
  /-- The SHR instruction shifts right logically (R331). -/
  | shr (bed slot : Fin 48)
  /-- The SAR instruction shifts right arithmetically (R331). -/
  | sar (bed slot : Fin 48)
  /-- The SEL instruction selects a or b by a predicate (R331). -/
  | sel (bed slot : Fin 48)
  /-- The CLAMP instruction clamps a between b and c (R331). -/
  | clamp (bed slot : Fin 48)
  /-- The FLOOR instruction rounds down to an integral value (R331). -/
  | floor (bed slot : Fin 48)
  /-- The CEIL instruction rounds up to an integral value (R331). -/
  | ceil (bed slot : Fin 48)
  /-- The RNDNE instruction rounds to nearest even integral value (R331). -/
  | rndne (bed slot : Fin 48)
  /-- The FRACT instruction gives a − floor(a) (R331). -/
  | fract (bed slot : Fin 48)
  /-- The RCP instruction gives the reciprocal (R331). -/
  | rcp (bed slot : Fin 48)
  /-- The RSQ instruction gives the reciprocal square root (R331). -/
  | rsq (bed slot : Fin 48)
  /-- The SQRT instruction gives the correctly rounded square root (R331). -/
  | sqrt (bed slot : Fin 48)
  /-- The EXP2 instruction gives 2 to the power a (R331). -/
  | exp2 (bed slot : Fin 48)
  /-- The LOG2 instruction gives the base-2 logarithm (R331). -/
  | log2 (bed slot : Fin 48)
  /-- The SIN instruction gives the sine of a in turns (R331). -/
  | sin (bed slot : Fin 48)
  /-- The COS instruction gives the cosine of a in turns (R331). -/
  | cos (bed slot : Fin 48)
  /-- The DOT4 instruction adds a 4-element 8-bit dot product to c in INT32 (R331). -/
  | dot4 (bed slot : Fin 48)
  /-- The DOT2 instruction adds a 2-element 16-bit dot product to c in FP32 (R331). -/
  | dot2 (bed slot : Fin 48)
  /-- The POPC instruction counts set bits (R331). -/
  | popc (bed slot : Fin 48)
  /-- The CLZ instruction counts leading zeros (R331). -/
  | clz (bed slot : Fin 48)
  /-- The BFE instruction extracts a bit field (R331). -/
  | bfe (bed slot : Fin 48)
  /-- The BFI instruction inserts a bit field (R331). -/
  | bfi (bed slot : Fin 48)
  /-- The EQ compare writes a predicate of a equal to b (R332). -/
  | eq (bed slot : Fin 48)
  /-- The NE compare writes a predicate of a not equal to b (R332). -/
  | ne (bed slot : Fin 48)
  /-- The LT compare writes a predicate of a less than b (R332). -/
  | lt (bed slot : Fin 48)
  /-- The LE compare writes a predicate of a at most b (R332). -/
  | le (bed slot : Fin 48)
  /-- The GT compare writes a predicate of a greater than b (R332). -/
  | gt (bed slot : Fin 48)
  /-- The GE compare writes a predicate of a at least b (R332). -/
  | ge (bed slot : Fin 48)
  /-- The ORD compare writes a predicate that neither operand is NaN (R332). -/
  | ord (bed slot : Fin 48)
  /-- The UNORD compare writes a predicate that either operand is NaN (R332). -/
  | unord (bed slot : Fin 48)
  /-- The TEST compare writes a predicate that a AND b is nonzero (R332). -/
  | test (bed slot : Fin 48)
  /-- The PAND instruction ANDs predicates (R332). -/
  | pand (bed slot : Fin 48)
  /-- The POR instruction ORs predicates (R332). -/
  | por (bed slot : Fin 48)
  /-- The PXOR instruction XORs predicates (R332). -/
  | pxor (bed slot : Fin 48)
  /-- The PNOT instruction inverts a predicate (R332). -/
  | pnot (bed slot : Fin 48)
  /-- The CVT instruction converts one element between types (R332). -/
  | cvt (bed slot : Fin 48)
  /-- The LDB instruction loads from bed memory (R334). -/
  | ldb (bed slot : Fin 48)
  /-- The STB instruction stores to bed memory (R334). -/
  | stb (bed slot : Fin 48)
  /-- The ATOMB instruction performs an atomic on bed memory (R334). -/
  | atomb (bed slot : Fin 48)
  /-- The LDG instruction loads through translation (R336). -/
  | ldg (bed slot : Fin 48)
  /-- The STG instruction stores through translation (R336). -/
  | stg (bed slot : Fin 48)
  /-- The ATOMG instruction performs an atomic at the owning shed slice (R336). -/
  | atomg (bed slot : Fin 48)
  /-- The PREFETCH instruction fills a line into the shed without a report (R336). -/
  | prefetch (bed slot : Fin 48)
  /-- The SAMPLE instruction performs a filtered image fetch (R338). -/
  | sample (bed slot : Fin 48)
  /-- The GATHER4 instruction returns the four texels of the bilinear footprint (R338). -/
  | gather4 (bed slot : Fin 48)
  /-- The LOADTEX instruction performs an unfiltered image fetch (R338). -/
  | loadtex (bed slot : Fin 48)
  /-- Data for an outstanding load arrives and unlocks its registers, or an error completion ends the order (R337). -/
  | loadDataArrival (bed : Fin 48) (index : Nat)
  /-- The BAR instruction waits until every live wave of the group reaches a BAR (R340). -/
  | bar (bed slot : Fin 48)
  /-- The FENCE instruction makes earlier accesses visible at its scope (R339). -/
  | fence (bed slot : Fin 48)
  /-- The SEM_WAIT instruction waits until a semaphore reaches a value (R340). -/
  | semWait (bed slot : Fin 48)
  /-- The SEM_TAKE instruction waits for and subtracts a count from a semaphore (R340). -/
  | semTake (bed slot : Fin 48)
  /-- The SEM_ADD instruction posts an increment to a semaphore of a bed (R340). -/
  | semAdd (bed slot : Fin 48)
  /-- The SEM_SET instruction sets a semaphore of the own bed (R340). -/
  | semSet (bed slot : Fin 48)
  /-- The HRELEASE instruction posts a release count to a hose channel (R340). -/
  | hrelease (bed slot : Fin 48)
  /-- In a clock a semaphore takes arriving increments and sets, then grants waiting waits and takes (R341). -/
  | semaphoreUpdate (bed : Fin 48)
  /-- A wave waiting longer than WAIT_MS traps with BED_WAIT_TIMEOUT (R348). -/
  | waitTimeout (bed slot : Fin 48)
  /-- The TMMA instruction queues a dense matrix multiply-accumulate for the tiller (R343). -/
  | tmma (bed slot : Fin 48)
  /-- The TSPARSE instruction queues a sparse matrix multiply-accumulate for the sieve (R392). -/
  | tsparse (bed slot : Fin 48)
  /-- The TACC_STORE instruction queues a scaled, converted store of an accumulator bank (R361). -/
  | taccStore (bed slot : Fin 48)
  /-- The TACC_READ instruction queues a read of a bank into vector registers (R343). -/
  | taccRead (bed slot : Fin 48)
  /-- The TACC_WRITE instruction queues a write of vector registers into a bank (R343). -/
  | taccWrite (bed slot : Fin 48)
  /-- The TWAIT instruction waits until few enough of the wave's queue entries are unfinished (R343). -/
  | twait (bed slot : Fin 48)
  /-- A tensor-queue entry finishes executing, freeing its entry and unlocking its destinations (R345). -/
  | tensorEntryDone (bed : Fin 48)
  /-- The SHFL instruction reads a from an indexed lane (R333). -/
  | shfl (bed slot : Fin 48)
  /-- The SHFLX instruction reads a from the lane XOR a scalar (R333). -/
  | shflx (bed slot : Fin 48)
  /-- The READLANE instruction copies one lane into a scalar (R333). -/
  | readlane (bed slot : Fin 48)
  /-- The WRITELANE instruction writes a scalar into one lane (R333). -/
  | writelane (bed slot : Fin 48)
  /-- The RADD instruction sums acting lanes in a fixed tree (R333). -/
  | radd (bed slot : Fin 48)
  /-- The RMIN instruction reduces acting lanes to their minimum (R333). -/
  | rmin (bed slot : Fin 48)
  /-- The RMAX instruction reduces acting lanes to their maximum (R333). -/
  | rmax (bed slot : Fin 48)
  /-- The BALLOT instruction gives a predicate AND EXEC as a scalar (R333). -/
  | ballot (bed slot : Fin 48)
  /-- The SCAN instruction gives the prefix sum over acting lanes below each lane (R333). -/
  | scan (bed slot : Fin 48)
  /-- Writing 1 to BEDn_TRAP.VALID clears the trap record (R346). -/
  | trapClear (w : Writer) (bed : Fin 48)
  /-- A NUMX_CLEAR write empties the guard or NaN records of a bed or of all beds (R371). -/
  | numxClear (w : Writer) (bed : BitVec 6) (what : BitVec 2) (all : Bool)
  /-- A GEMM work order computes A · B by tiles on the tiller or sieve (R373). -/
  | gemm (uid : Nat)
  /-- A CONV work order computes a convolution by tiles (R373). -/
  | conv (uid : Nat)
  /-- A DWCONV work order computes a depthwise convolution on the lanes (R373). -/
  | dwconv (uid : Nat)
  /-- A POOL work order computes MAX or AVG pooling (R373). -/
  | pool (uid : Nat)
  /-- An ELTWISE work order combines A and B element by element (R373). -/
  | eltwise (uid : Nat)
  /-- A REDUCE work order reduces each row to one element (R373). -/
  | reduce (uid : Nat)
  /-- A GATHER work order copies table rows by INT32 index (R377). -/
  | gather (uid : Nat)
  /-- An EMBED_MATCH work order writes the top-K gallery matches of each query (R376). -/
  | embedMatch (uid : Nat)
  /-- A PROGRAM work order launches one group of waves per tile (R382). -/
  | program (uid : Nat)
  /-- A free eligible bed takes the next unstarted tile of the oldest highest-class order (R381). -/
  | tileStart (bed : Fin 48)
  /-- A tile's output writes are performed and the order's completed-tile count advances (R383). -/
  | tileComplete (bed : Fin 48)
  /-- MAX_TILE_TIME passes after a yield request, and the bed saves itself in mid-tile (R385). -/
  | maxTileTimeExpiry (bed : Fin 48)
  /-- A preempted bed restores its state from the spill ways once no class-0 tile needs it (R527). -/
  | bedRestore (bed : Fin 48)
  /-- A RAKE entry in RASTER mode bins screen-space records and shades tiles (R405). -/
  | rakeRaster (uid : Nat)
  /-- A RAKE entry in FUSION mode projects detections onto the floor grid, bins and shades them (R417). -/
  | rakeFusion (uid : Nat)
  /-- A rake job's binning ends and its shading pass begins (R407). -/
  | binningDone
  /-- A tile's resolve to the render targets ends and COUNT advances (R413). -/
  | resolveDone (uid : Nat)
  /-- DP_HPD rises, and the display reads the sink capabilities and trains the link (R420). -/
  | hpdRise (sink : Sink)
  /-- DP_HPD low for 2 ms takes the link down (R420). -/
  | hpdLow
  /-- An IRQ_HPD pulse makes the display read link status and retrain if lock is lost (R420). -/
  | irqHpd (sink : Sink)
  /-- DISP_CTRL RETRAIN retrains the DisplayPort link (R420). -/
  | retrain (w : Writer) (enable : Bool)
  /-- A write of DISP_FB_NEXT's high half arms a flip (R421). -/
  | flipArm (w : Writer) (high : Word)
  /-- Vertical blank starts, and an armed flip takes effect (R421). -/
  | vblankStart
  /-- DISP_AUX_CMD native read performs an AUX read (R427). -/
  | auxNativeRead (w : Writer) (addr : BitVec 20) (len : BitVec 4)
  /-- DISP_AUX_CMD native write performs an AUX write (R427). -/
  | auxNativeWrite (w : Writer) (addr : BitVec 20) (len : BitVec 4)
  /-- DISP_AUX_CMD I2C-over-AUX read reads at address 0x50 (R427). -/
  | auxI2cRead (w : Writer) (addr : BitVec 20) (len : BitVec 4)
  /-- A frame received on a port is forwarded, sent to the intake or time engine, or dropped (R430). -/
  | frameReceive (port : Fin 4) (sub : Fin 4) (frame : List Byte)
  /-- An egress queue sends its next frame by strict priority and shaping (R431). -/
  | frameTransmit (dest : Fin 17)
  /-- A MAC table entry without traffic for AGE_S seconds ages out (R431). -/
  | macAgeOut (vid : BitVec 12) (mac : BitVec 48)
  /-- An external port's link comes up or goes down after autonegotiation (R428). -/
  | portLinkChange (port : Fin 4) (sub : Fin 4) (up : Bool)
  /-- A host virtual NIC receive tail doorbell posts receive buffers (R433). -/
  | vnicRxTail (w : Writer) (tail : BitVec 16)
  /-- A host virtual NIC transmit tail doorbell queues frames to send (R433). -/
  | vnicTxTail (w : Writer) (tail : BitVec 16)
  /-- A time protocol message is handled by the time engine on Gardener 1 (R434). -/
  | ptpMessage (msg : TimeMsg)
  /-- Three Sync intervals pass without a Sync while LOCKED, and time enters HOLDOVER (R435). -/
  | syncTimeout
  /-- Writing RUN 1 starts a stream slot if its checks pass (R437). -/
  | slotStart (w : Writer) (slot : Fin 64) (cfg : Word)
  /-- Writing RUN 0 stops a slot at the next packet boundary (R456). -/
  | slotStop (w : Writer) (slot : Fin 64) (cfg : Word)
  /-- A stopping slot's last write is performed and the slot becomes IDLE (R456). -/
  | slotStopDone (slot : Fin 64)
  /-- A matched RTP packet is decrypted, checked and reordered (R439). -/
  | rtpPacket
  /-- REORDER_US passes without the missing packet, which is declared lost (R441). -/
  | reorderTimeout (slot : Fin 64)
  /-- After 2 s of another SSRC alone, that SSRC is locked and the slot waits for a random-access AU (R439). -/
  | ssrcSwitch (slot : Fin 64)
  /-- The write of KEY_7 commits the SRTP key, restarts the replay window and loads the ROC (R440). -/
  | srtpKeyCommit (w : Writer) (slot : Fin 64) (key7 : Word)
  /-- An RTCP packet is delivered to I1 and a sender report sets the capture-time pair (R443). -/
  | rtcpPacket
  /-- A FEED_TAIL write makes feed entries available to a feed slot (R444). -/
  | feedDoorbell (w : Writer) (slot : Fin 64) (tail : BitVec 16)
  /-- A feed entry's bytes are copied into the CPB as one AU and FEED_HEAD advances (R444). -/
  | feedCopyDone (slot : Fin 64)
  /-- A decoder finishes decoding an access unit (R449). -/
  | auDecoded (engine : Fin 2) (result : Decoded)
  /-- A RELEASE_ADD write raises a slot's released frame count (R452). -/
  | frameReleaseAdd (w : Writer) (slot : Fin 64) (add : BitVec 16)
  /-- Writing a placement group's EN starts or stops it (R453). -/
  | groupEnable (w : Writer) (group : Fin 8) (cfg : Word)
  /-- A FURROW COMPRESS job codes raw elements into a stream chunk (R467). -/
  | compress (uid : Nat)
  /-- A FURROW DECOMPRESS job decodes a stream chunk into raw elements (R479). -/
  | decompress (uid : Nat)
  /-- A furrow job ends with OK, OUTPUT_FULL, INPUT_EXHAUSTED or an error, writing its resume state (R474). -/
  | furrowJobDone
  /-- An evidence QUERY writes a clip record (R488). -/
  | query (uid : Nat)
  /-- An evidence CREATE makes a new unsealed clip (R488). -/
  | create (uid : Nat)
  /-- An evidence APPEND_MEM appends bytes from memory to a clip (R492). -/
  | appendMem (uid : Nat)
  /-- An evidence APPEND_PKT appends a slot's packet ring records in a time window (R493). -/
  | appendPkt (uid : Nat)
  /-- An evidence SEAL makes a clip accept no further append (R488). -/
  | sealClip (uid : Nat)
  /-- An evidence READ copies clip bytes to memory (R488). -/
  | evidenceRead (uid : Nat)
  /-- An evidence DELETE removes a clip (R488). -/
  | delete (uid : Nat)
  /-- An evidence VOLUME_CREATE makes a volume with a quota and policy (R487). -/
  | volumeCreate (uid : Nat)
  /-- An evidence VOLUME_DELETE removes a volume and its clips (R488). -/
  | volumeDelete (uid : Nat)
  /-- An evidence FORMAT erases the store and writes a new superblock (R500). -/
  | format (uid : Nat)
  /-- A NAND program completes, its journal record follows, and the unit is acknowledged (R492). -/
  | nandProgramDone (ce : Fin 4) (ok : Bool)
  /-- A NAND read returns and each codeword climbs the decode ladder (R485). -/
  | nandReadDone (ce : Fin 4) (words : List CwRead)
  /-- A NAND erase completes, or fails and retires the block (R497). -/
  | nandEraseDone (ce : Fin 4) (ok : Bool)
  /-- With no request waiting, the Seedkeeper levels wear, refreshes or reclaims a block (R495). -/
  | upkeep
  /-- SCRUB_DAYS pass and the Seedkeeper reads every live unit (R496). -/
  | scrubDue
  /-- A 16 ms acoustic frame ends, and the noise floor, the gate and the detectors are evaluated (R509). -/
  | acousticFrame (pcm : List (List Int))
  /-- 20 ms after a PDM_CLK change, settling ends and the detectors resume (R508). -/
  | settlingEnd
  /-- ACOU_CMD READ writes the pre-roll header and samples, or zeros if LOCKED (R517). -/
  | prerollRead (w : Writer) (key : BitVec 16)
  /-- ACOU_CMD RELEASE zeroes the buffer and returns it to LOCKED at the next frame (R518). -/
  | prerollRelease (w : Writer) (key : BitVec 16)
  /-- Writing 1 to ACOU_STATUS.FIRED clears it and releases ALERT_N (R512). -/
  | firedClear (w : Writer)
  /-- The VDD_CORE monitor reaches a raised target, and clocks are raised (R546). -/
  | voltageSettled
  /-- An AVSBus response arrives, or a missing or bad one is retried (R547). -/
  | avsResponse (good : Bool)
  /-- The AVS fails three times or misses a target within 1 ms, and clocks are capped (R547). -/
  | avsFault
  /-- The JTAG BYPASS instruction selects the bypass register (R540). -/
  | bypass (tdi : List Bool)
  /-- The JTAG SAMPLE/PRELOAD instruction captures and loads the boundary-scan register (R540). -/
  | samplePreload (balls : BitVec 49) (tdi : List Bool)
  /-- The JTAG EXTEST instruction drives the balls from the boundary-scan register (R540). -/
  | extest (balls : BitVec 49) (tdi : List Bool)
  /-- A PCIe configuration request reaches a function and is answered with Request Retry Status before LINKS_UP ends, or is served against configuration space (R106). -/
  | configurationRequest (fn : Fin 8) (item : ConfigItem) (value : Option Nat)
  /-- A completion TLP for a device read of host memory arrives, with data or with Unsupported Request, Completer Abort or poison (R209). -/
  | hostCompletion (id : Nat) (result : HostResult)
  /-- The completion timeout of a device read of host memory expires, and the read ends with HOST_ABORT (R209). -/
  | completionTimeout (id : Nat)
  /-- The 1 ms for which ALERT_N is driven low after a watchdog expiry or an evidence-store status change ends, and ALERT_N is released (R176). -/
  | alertNPulseEnd
  /-- The display sends a scan line at its time, sending black for pixels that have not arrived and counting the line in DISP_UNDERFLOW (R422). -/
  | scanoutLine (late : List Nat)
  /-- The sink's reply to a DisplayPort AUX transaction arrives, or the AUX timeout or DEFER limit is reached, and DISP_AUX_STATUS leaves BUSY with its RESULT (R427). -/
  | auxReply (reply : AuxReply)
  /-- Device time passes TO_NS of a running APPEND_PKT, which then programs its last unit padded and completes once that unit is acknowledged (R493). -/
  | appendPktToNs (clip : Word)
  /-- The internal power-on detector finds VDD_AON below 0.68 V or VDDIO_33 below 2.9 V and holds the device in reset (R537). -/
  | powerOnDetect
  /-- The power-on detector releases when VDD_AON and VDDIO_33 return, and with PWR_OK and RESET_N high a cold start with START_KIND 0 begins (R537). -/
  | powerOnRelease
  deriving DecidableEq, Repr

end Sys2Proof
end

