-- ==== Sys2Proof/Decode.lean ====
section
/-! DEFINITION. The command that a word spells by the bits of spec/opcode_table.json. The table gives no row any bits
(every row's fields are empty), so no word spells a command. -/
namespace Sys2Proof

/-- The command that the bits of the opcode table spell: none, for the table gives no row a pattern. -/
def decodeTableWord (_nbits _w : Nat) : Option Instr := none

end Sys2Proof
end

