-- ==== Sys2Proof/Machine/Bits.lean ====
section
/-! DEFINITION. Bit-field, byte-order and small number helpers shared by every unit (spec/00_scope.md R4, R5). -/
namespace Sys2Proof.Machine

/-- The value of bits lo … lo + width − 1 of a word (R4). -/
def getBits (w : Word) (lo width : Nat) : Nat :=
  w.toNat / 2 ^ lo % 2 ^ width

/-- The word with bits lo … lo + width − 1 replaced by `v` (modulo 2^width). -/
def setBits (w : Word) (lo width v : Nat) : Word :=
  BitVec.ofNat 32
    (w.toNat % 2 ^ lo + 2 ^ lo * (v % 2 ^ width) + 2 ^ (lo + width) * (w.toNat / 2 ^ (lo + width)))

/-- Bit `i` of a natural number. -/
def bit (v i : Nat) : Bool := v / 2 ^ i % 2 = 1

/-- A truth value as 0 or 1. -/
def b2n (b : Bool) : Nat := if b then 1 else 0

/-- Bits lo … lo + width − 1 of a natural number. -/
def slice (v lo width : Nat) : Nat := v / 2 ^ lo % 2 ^ width

/-- A sum that stops at the all-ones value of `width` bits. -/
def satAdd (width a b : Nat) : Nat := min (a + b) (2 ^ width - 1)

/-- The little-endian value of a list of bytes (R5). -/
def leNat : List Byte → Nat
  | [] => 0
  | b :: bs => b.toNat + 256 * leNat bs

/-- `n` bytes of a value, little-endian (R5). -/
def leBytes : Nat → Nat → List Byte
  | 0, _ => []
  | n + 1, v => BitVec.ofNat 8 v :: leBytes n (v / 256)

/-- The big-endian value of a list of bytes (network byte order). -/
def beNat (bs : List Byte) : Nat := leNat bs.reverse

/-- `n` bytes of a value, most significant first. -/
def beBytes (n v : Nat) : List Byte := (leBytes n v).reverse

/-- The two's-complement value of a `width`-bit pattern. -/
def sext (width v : Nat) : Int :=
  let m := v % 2 ^ width
  if 2 * m < 2 ^ width then (m : Int) else (m : Int) - 2 ^ width

/-- The `width`-bit pattern of an integer. -/
def ofInt (width : Nat) (i : Int) : Nat := (i % (2 ^ width : Int)).toNat

/-- An integer clamped to the signed range of `width` bits. -/
def clampInt (width : Nat) (i : Int) : Int :=
  max (-(2 ^ (width - 1) : Int)) (min i ((2 ^ (width - 1) : Int) - 1))

/-- The quotient rounded up. -/
def ceilDiv (a b : Nat) : Nat := (a + b - 1) / b

/-- The quotient rounded to nearest, halves up. -/
def nearDiv (a : Int) (b : Nat) : Int := (2 * a + b) / (2 * b)

/-- The little-endian value of `n` bytes at an offset of a byte list. -/
def bytesAt (bs : List Byte) (off n : Nat) : Nat := leNat ((bs.drop off).take n)

/-- The numbers 0 … n − 1 whose bit is set in a mask. -/
def maskList (n m : Nat) : List Nat := (List.range n).filter (bit m)

/-- The mask with exactly the listed bits. -/
def listMask : List Nat → Nat
  | [] => 0
  | i :: is => let m := listMask is; if bit m i then m else m + 2 ^ i

/-- How many of the `n` low bits of a number are 1. -/
def popCount (n m : Nat) : Nat := (maskList n m).length

/-- Insert into a sorted list of numbers, keeping one copy of each. -/
def insertNat (n : Nat) : List Nat → List Nat
  | [] => [n]
  | m :: ms => if n < m then n :: m :: ms else if n = m then m :: ms else m :: insertNat n ms

/-- Replace the element at index `i`; nothing changes beyond the end. -/
def setAt {α : Type} (i : Nat) (x : α) : List α → List α
  | [] => []
  | y :: ys => match i with
    | 0 => x :: ys
    | j + 1 => y :: setAt j x ys

end Sys2Proof.Machine
end

