-- ==== Sys2Proof/Machine/Crypto.lean ====
section
/-! DEFINITION. The published functions that the spec names by standard (spec/00_scope.md Table 0.6): SHA-384
(FIPS 180-4), ECDSA P-384 (FIPS 186-5), AES-256-XTS (IEEE 1619), AES-CM and HMAC-SHA1-80 (RFC 3711), CRC-32
(IEEE 802.3). PRESUMED: their content is taken from those standards, which the spec names and does not repeat
(log entry 6). -/
namespace Sys2Proof.Machine

/-- The SHA-512 round constants (FIPS 180-4): 64 bits of the fractional parts of the cube roots of the first 80 primes. -/
def shaK : List Nat :=
  [0x428a2f98d728ae22, 0x7137449123ef65cd, 0xb5c0fbcfec4d3b2f, 0xe9b5dba58189dbbc,
   0x3956c25bf348b538, 0x59f111f1b605d019, 0x923f82a4af194f9b, 0xab1c5ed5da6d8118,
   0xd807aa98a3030242, 0x12835b0145706fbe, 0x243185be4ee4b28c, 0x550c7dc3d5ffb4e2,
   0x72be5d74f27b896f, 0x80deb1fe3b1696b1, 0x9bdc06a725c71235, 0xc19bf174cf692694,
   0xe49b69c19ef14ad2, 0xefbe4786384f25e3, 0x0fc19dc68b8cd5b5, 0x240ca1cc77ac9c65] ++
  [0x2de92c6f592b0275, 0x4a7484aa6ea6e483, 0x5cb0a9dcbd41fbd4, 0x76f988da831153b5,
   0x983e5152ee66dfab, 0xa831c66d2db43210, 0xb00327c898fb213f, 0xbf597fc7beef0ee4,
   0xc6e00bf33da88fc2, 0xd5a79147930aa725, 0x06ca6351e003826f, 0x142929670a0e6e70,
   0x27b70a8546d22ffc, 0x2e1b21385c26c926, 0x4d2c6dfc5ac42aed, 0x53380d139d95b3df,
   0x650a73548baf63de, 0x766a0abb3c77b2a8, 0x81c2c92e47edaee6, 0x92722c851482353b] ++
  [0xa2bfe8a14cf10364, 0xa81a664bbc423001, 0xc24b8b70d0f89791, 0xc76c51a30654be30,
   0xd192e819d6ef5218, 0xd69906245565a910, 0xf40e35855771202a, 0x106aa07032bbd1b8,
   0x19a4c116b8d2d0c8, 0x1e376c085141ab53, 0x2748774cdf8eeb99, 0x34b0bcb5e19b48a8,
   0x391c0cb3c5c95a63, 0x4ed8aa4ae3418acb, 0x5b9cca4f7763e373, 0x682e6ff3d6b2b8a3,
   0x748f82ee5defb2fc, 0x78a5636f43172f60, 0x84c87814a1f0ab72, 0x8cc702081a6439ec] ++
  [0x90befffa23631e28, 0xa4506cebde82bde9, 0xbef9a3f7b2c67915, 0xc67178f2e372532b,
   0xca273eceea26619c, 0xd186b8c721c0c207, 0xeada7dd6cde0eb1e, 0xf57d4f7fee6ed178,
   0x06f067aa72176fba, 0x0a637dc5a2c898a6, 0x113f9804bef90dae, 0x1b710b35131c471b,
   0x28db77f523047d84, 0x32caab7b40c72493, 0x3c9ebe0a15c9bebc, 0x431d67c49c100d4c,
   0x4cc5d4becb3e42b6, 0x597f299cfc657e2a, 0x5fcb6fab3ad6faec, 0x6c44198c4a475817]

/-- The SHA-384 initial value (FIPS 180-4): 64 bits of the fractional parts of the square roots of the 9th to 16th primes. -/
def sha384Init : List Nat :=
  [0xcbbb9d5dc1059ed8, 0x629a292a367cd507, 0x9159015a3070dd17, 0x152fecd8f70e5939,
   0x67332667ffc00b31, 0x8eb44a8768581511, 0xdb0c2e0d64f98fa7, 0x47b5481dbefa4fa4]

/-- Rotate right in 64 bits. -/
def ror64 (x n : Nat) : Nat := x / 2 ^ n + x % 2 ^ n * 2 ^ (64 - n)

/-- Rotate left in 32 bits. -/
def rol32 (x n : Nat) : Nat := x * 2 ^ n % 2 ^ 32 + x / 2 ^ (32 - n)

/-- Cut a list into blocks of `n`; `fuel` bounds the number of blocks. -/
def chunks {α : Type} (n : Nat) : Nat → List α → List (List α)
  | 0, _ => []
  | f + 1, l => if l.isEmpty then [] else l.take n :: chunks n f (l.drop n)

/-- One more word of the SHA-512 message schedule, newest first. -/
def shaWord (ws : List Nat) : Nat :=
  let w2 := ws.getD 1 0; let w7 := ws.getD 6 0; let w15 := ws.getD 14 0; let w16 := ws.getD 15 0
  let s0 := Nat.xor (Nat.xor (ror64 w15 1) (ror64 w15 8)) (w15 / 2 ^ 7)
  let s1 := Nat.xor (Nat.xor (ror64 w2 19) (ror64 w2 61)) (w2 / 2 ^ 6)
  (s1 + w7 + s0 + w16) % 2 ^ 64

/-- Extend the schedule by `n` words. -/
def shaExtend : Nat → List Nat → List Nat
  | 0, ws => ws
  | n + 1, ws => shaExtend n (shaWord ws :: ws)

/-- One SHA-512 round on the working list a … h. -/
def shaRound (v : List Nat) (kw : Nat × Nat) : List Nat :=
  match v with
  | [a, b, c, d, e, f, g, h] =>
    let s1 := Nat.xor (Nat.xor (ror64 e 14) (ror64 e 18)) (ror64 e 41)
    let ch := Nat.xor (Nat.land e f) (Nat.land (2 ^ 64 - 1 - e) g)
    let t1 := h + s1 + ch + kw.1 + kw.2
    let s0 := Nat.xor (Nat.xor (ror64 a 28) (ror64 a 34)) (ror64 a 39)
    let mj := Nat.xor (Nat.xor (Nat.land a b) (Nat.land a c)) (Nat.land b c)
    [(t1 + s0 + mj) % 2 ^ 64, a, b, c, (d + t1) % 2 ^ 64, e, f, g]
  | _ => v

/-- One SHA-512 block. -/
def shaBlock (h : List Nat) (blk : List Byte) : List Nat :=
  let w0 := (chunks 8 16 blk).map beNat
  let ws := (shaExtend 64 w0.reverse).reverse
  let v := (shaK.zip ws).foldl shaRound h
  List.zipWith (fun a b => (a + b) % 2 ^ 64) h v

/-- SHA-384 of a byte string, as a number (most significant byte first). -/
def sha384 (msg : List Byte) : Nat :=
  let l := msg.length
  let pad := (128 - (l + 17) % 128) % 128
  let m := msg ++ [0x80] ++ List.replicate pad 0 ++ beBytes 16 (8 * l)
  let h := (chunks 128 (m.length / 128) m).foldl shaBlock sha384Init
  (h.take 6).foldl (fun a x => a * 2 ^ 64 + x) 0

/-- One more word of the SHA-1 message schedule, newest first. -/
def sha1Extend : Nat → List Nat → List Nat
  | 0, ws => ws
  | n + 1, ws =>
    let x := Nat.xor (Nat.xor (ws.getD 2 0) (ws.getD 7 0)) (Nat.xor (ws.getD 13 0) (ws.getD 15 0))
    sha1Extend n (rol32 x 1 :: ws)

/-- One SHA-1 round; the pair is the round number and the schedule word. -/
def sha1Round (v : List Nat) (tw : Nat × Nat) : List Nat :=
  match v with
  | [a, b, c, d, e] =>
    let t := tw.1
    let maj := Nat.xor (Nat.xor (Nat.land b c) (Nat.land b d)) (Nat.land c d)
    let par := Nat.xor (Nat.xor b c) d
    let fk := if t < 20 then (Nat.xor (Nat.land b c) (Nat.land (2 ^ 32 - 1 - b) d), 0x5A827999)
      else if t < 40 then (par, 0x6ED9EBA1)
      else if t < 60 then (maj, 0x8F1BBCDC) else (par, 0xCA62C1D6)
    [(rol32 a 5 + fk.1 + e + fk.2 + tw.2) % 2 ^ 32, a, rol32 b 30, c, d]
  | _ => v

/-- SHA-1 of a byte string: 20 bytes. -/
def sha1 (msg : List Byte) : List Byte :=
  let l := msg.length
  let pad := (64 - (l + 9) % 64) % 64
  let m := msg ++ [0x80] ++ List.replicate pad 0 ++ beBytes 8 (8 * l)
  let h := (chunks 64 (m.length / 64) m).foldl (fun h blk =>
      let ws := (sha1Extend 64 ((chunks 4 16 blk).map beNat).reverse).reverse
      List.zipWith (fun a b => (a + b) % 2 ^ 32) h ((List.range 80 |>.zip ws).foldl sha1Round h))
    [0x67452301, 0xEFCDAB89, 0x98BADCFE, 0x10325476, 0xC3D2E1F0]
  h.flatMap (beBytes 4)

/-- Bytewise exclusive or. -/
def xorBytes (a b : List Byte) : List Byte := List.zipWith (fun x y => x ^^^ y) a b

/-- HMAC-SHA1 with a key of at most 64 bytes (RFC 3711, section 4.2). -/
def hmacSha1 (key msg : List Byte) : List Byte :=
  let k := key ++ List.replicate (64 - key.length) 0
  let inner := sha1 (k.map (fun b => b ^^^ 0x36) ++ msg)
  sha1 (k.map (fun b => b ^^^ 0x5C) ++ inner)

/-- Multiplication by x in GF(2^8) of AES. -/
def xtime (b : Byte) : Byte := (b <<< 1) ^^^ (if b.getLsbD 7 then 0x1B else 0)

/-- Multiplication in GF(2^8) by a factor of n bits, one step for each bit of the second factor. -/
def gmul : Nat → Byte → Byte → Byte
  | 0, _, _ => 0
  | n + 1, a, b => (if b.getLsbD 0 then a else 0) ^^^ gmul n (xtime a) (b >>> 1)

/-- The AES substitution table (FIPS 197). -/
def sboxTable : List Byte :=
  [0x63, 0x7c, 0x77, 0x7b, 0xf2, 0x6b, 0x6f, 0xc5, 0x30, 0x01, 0x67, 0x2b, 0xfe, 0xd7, 0xab, 0x76,
   0xca, 0x82, 0xc9, 0x7d, 0xfa, 0x59, 0x47, 0xf0, 0xad, 0xd4, 0xa2, 0xaf, 0x9c, 0xa4, 0x72, 0xc0,
   0xb7, 0xfd, 0x93, 0x26, 0x36, 0x3f, 0xf7, 0xcc, 0x34, 0xa5, 0xe5, 0xf1, 0x71, 0xd8, 0x31, 0x15,
   0x04, 0xc7, 0x23, 0xc3, 0x18, 0x96, 0x05, 0x9a, 0x07, 0x12, 0x80, 0xe2, 0xeb, 0x27, 0xb2, 0x75] ++
  [0x09, 0x83, 0x2c, 0x1a, 0x1b, 0x6e, 0x5a, 0xa0, 0x52, 0x3b, 0xd6, 0xb3, 0x29, 0xe3, 0x2f, 0x84,
   0x53, 0xd1, 0x00, 0xed, 0x20, 0xfc, 0xb1, 0x5b, 0x6a, 0xcb, 0xbe, 0x39, 0x4a, 0x4c, 0x58, 0xcf,
   0xd0, 0xef, 0xaa, 0xfb, 0x43, 0x4d, 0x33, 0x85, 0x45, 0xf9, 0x02, 0x7f, 0x50, 0x3c, 0x9f, 0xa8,
   0x51, 0xa3, 0x40, 0x8f, 0x92, 0x9d, 0x38, 0xf5, 0xbc, 0xb6, 0xda, 0x21, 0x10, 0xff, 0xf3, 0xd2] ++
  [0xcd, 0x0c, 0x13, 0xec, 0x5f, 0x97, 0x44, 0x17, 0xc4, 0xa7, 0x7e, 0x3d, 0x64, 0x5d, 0x19, 0x73,
   0x60, 0x81, 0x4f, 0xdc, 0x22, 0x2a, 0x90, 0x88, 0x46, 0xee, 0xb8, 0x14, 0xde, 0x5e, 0x0b, 0xdb,
   0xe0, 0x32, 0x3a, 0x0a, 0x49, 0x06, 0x24, 0x5c, 0xc2, 0xd3, 0xac, 0x62, 0x91, 0x95, 0xe4, 0x79,
   0xe7, 0xc8, 0x37, 0x6d, 0x8d, 0xd5, 0x4e, 0xa9, 0x6c, 0x56, 0xf4, 0xea, 0x65, 0x7a, 0xae, 0x08] ++
  [0xba, 0x78, 0x25, 0x2e, 0x1c, 0xa6, 0xb4, 0xc6, 0xe8, 0xdd, 0x74, 0x1f, 0x4b, 0xbd, 0x8b, 0x8a,
   0x70, 0x3e, 0xb5, 0x66, 0x48, 0x03, 0xf6, 0x0e, 0x61, 0x35, 0x57, 0xb9, 0x86, 0xc1, 0x1d, 0x9e,
   0xe1, 0xf8, 0x98, 0x11, 0x69, 0xd9, 0x8e, 0x94, 0x9b, 0x1e, 0x87, 0xe9, 0xce, 0x55, 0x28, 0xdf,
   0x8c, 0xa1, 0x89, 0x0d, 0xbf, 0xe6, 0x42, 0x68, 0x41, 0x99, 0x2d, 0x0f, 0xb0, 0x54, 0xbb, 0x16]

/-- The AES substitution. -/
def sbox (a : Byte) : Byte := sboxTable.getD a.toNat 0

/-- The inverse AES substitution. -/
def invSbox (a : Byte) : Byte := BitVec.ofNat 8 (sboxTable.findIdx (fun x => x == a))

/-- Key expansion: words newest first, `nk` words of key, `n` more words wanted, at index `i`. -/
def aesExpand (nk : Nat) : Nat → Nat → Byte → List (List Byte) → List (List Byte)
  | 0, _, _, ws => ws
  | n + 1, i, rc, ws =>
    let t := ws.headD []
    let t' := if i % nk = 0 then
        (match t.map sbox with | a :: r => xorBytes (r ++ [a]) [rc, 0, 0, 0] | [] => [])
      else if nk > 6 ∧ i % nk = 4 then t.map sbox else t
    aesExpand nk n (i + 1) (if i % nk = 0 then xtime rc else rc) (xorBytes (ws.getD (nk - 1) []) t' :: ws)

/-- The round keys of an AES key of 16 or 32 bytes. -/
def aesKeys (key : List Byte) : List (List Byte) :=
  let nk := key.length / 4
  let total := 4 * (nk + 7)
  let ws := aesExpand nk (total - nk) nk 0x01 (chunks 4 nk key).reverse
  (chunks 4 (nk + 7) ws.reverse).map (fun r => r.flatten)

/-- ShiftRows: byte r + 4c comes from column c + r. -/
def shiftRows (s : List Byte) : List Byte :=
  (List.range 16).map (fun i => s.getD ((i % 4) + 4 * ((i / 4 + i % 4) % 4)) 0)

/-- The inverse of ShiftRows. -/
def invShiftRows (s : List Byte) : List Byte :=
  (List.range 16).map (fun i => s.getD ((i % 4) + 4 * ((i / 4 + 4 - i % 4) % 4)) 0)

/-- MixColumns with the coefficient row k0 k1 k2 k3 of the first output byte. -/
def mixCols (k : List Byte) (s : List Byte) : List Byte :=
  (List.range 16).map (fun i =>
    let c := i / 4 * 4; let r := i % 4
    (List.range 4).foldl (fun a j => a ^^^ gmul 4 (s.getD (c + j) 0) (k.getD ((j + 4 - r) % 4) 0)) 0)

/-- AES encryption of one 16-byte block (FIPS 197). -/
def aesEnc (key : List Byte) (blk : List Byte) : List Byte :=
  match aesKeys key with
  | [] => blk
  | k0 :: ks =>
    let s := (ks.dropLast).foldl (fun s k => xorBytes (mixCols [2, 3, 1, 1] (shiftRows (s.map sbox))) k) (xorBytes blk k0)
    xorBytes (shiftRows (s.map sbox)) (ks.getLastD [])

/-- AES decryption of one 16-byte block. -/
def aesDec (key : List Byte) (blk : List Byte) : List Byte :=
  match aesKeys key with
  | [] => blk
  | k0 :: ks =>
    let s := (ks.dropLast).reverse.foldl
      (fun s k => mixCols [14, 11, 13, 9] (xorBytes ((invShiftRows s).map invSbox) k)) (xorBytes blk (ks.getLastD []))
    xorBytes ((invShiftRows s).map invSbox) k0

/-- Multiplication of an XTS tweak by x (IEEE 1619), the tweak as a 128-bit little-endian number. -/
def xtsNext (t : Nat) : Nat :=
  let d := 2 * t
  if d < 2 ^ 128 then d else Nat.xor (d % 2 ^ 128) 0x87

/-- The XTS tweaks of `n` consecutive blocks. -/
def xtsTweaks : Nat → Nat → List Nat
  | 0, _ => []
  | n + 1, t => t :: xtsTweaks n (xtsNext t)

/-- AES-256-XTS over one 64-byte data unit whose tweak is the unit's address (R257). -/
def xtsUnit (encrypt : Bool) (dataKey tweakKey : List Byte) (pa : Nat) (d : List Byte) : List Byte :=
  let t0 := leNat (aesEnc tweakKey (leBytes 16 pa))
  (List.zipWith (fun t blk =>
      let tb := leBytes 16 t
      xorBytes ((if encrypt then aesEnc dataKey else aesDec dataKey) (xorBytes blk tb)) tb)
    (xtsTweaks 4 t0) (chunks 16 4 d)).flatten

/-- CRC-32 of IEEE 802.3 of a byte string that follows bytes with the CRC-32 `crc`. -/
def crc32From (crc : Nat) (bs : List Byte) : Nat :=
  let step := fun (c : Nat) => if c % 2 = 1 then Nat.xor (c / 2) 0xEDB88320 else c / 2
  let r := bs.foldl (fun c b =>
      let c0 := Nat.xor c b.toNat
      (List.range 8).foldl (fun c _ => step c) c0) (Nat.xor crc 0xFFFFFFFF)
  Nat.xor r 0xFFFFFFFF

/-- CRC-32 of IEEE 802.3 over a byte string. -/
def crc32 (bs : List Byte) : Nat := crc32From 0 bs

/-- The P-384 field prime. -/
def p384 : Nat := 2 ^ 384 - 2 ^ 128 - 2 ^ 96 + 2 ^ 32 - 1
/-- The P-384 coefficient b. -/
def p384b : Nat := 0xb3312fa7e23ee7e4988e056be3f82d19181d9c6efe8141120314088f5013875ac656398d8a2ed19d2a85c8edd3ec2aef
/-- The P-384 group order. -/
def p384n : Nat := 0xffffffffffffffffffffffffffffffffffffffffffffffffc7634d81f4372ddf581a0db248b0a77aecec196accc52973
/-- The P-384 base point. -/
def p384g : Nat × Nat :=
  (0xaa87ca22be8b05378eb1c71ef320ad746e1d3b628ba79b9859f741e082542a385502f25dbf55296c3a545e3872760ab7,
   0x3617de4a96262c6f5d9e98bf9292dc29f8f41dbd289a147ce9da3113b5f0b8c00a60b1ce1d7e819d7a431d7c90ea0e5f)

/-- b^e modulo m, one squaring for each bit. -/
def powMod (m : Nat) : Nat → Nat → Nat → Nat
  | 0, _, _ => 1 % m
  | bits + 1, b, e =>
    let r := powMod m bits (b * b % m) (e / 2)
    if e % 2 = 1 then r * b % m else r

/-- The inverse modulo a prime. -/
def invMod (m a : Nat) : Nat := powMod m 384 a (m - 2)

/-- A point of P-384 in Jacobian coordinates: (X, Y, Z) is (X / Z², Y / Z³), and Z = 0 the point at infinity. -/
abbrev EcPoint := Nat × Nat × Nat

/-- Difference modulo the field prime of numbers below it. -/
def subP (a b : Nat) : Nat := (a + p384 - b) % p384

/-- Twice a point. -/
def ecDouble (p : EcPoint) : EcPoint :=
  let x := p.1; let y := p.2.1; let z := p.2.2
  let d := z * z % p384
  let g := y * y % p384
  let b := x * g % p384
  let a := 3 * subP x d * (x + d) % p384
  let x3 := subP (a * a % p384) (8 * b % p384)
  (x3, subP (a * subP (4 * b % p384) x3 % p384) (8 * g * g % p384), 2 * y * z % p384)

/-- The sum of two points. -/
def ecAdd (p q : EcPoint) : EcPoint :=
  if p.2.2 = 0 then q
  else if q.2.2 = 0 then p
  else
    let zz1 := p.2.2 * p.2.2 % p384
    let zz2 := q.2.2 * q.2.2 % p384
    let u1 := p.1 * zz2 % p384
    let s1 := p.2.1 * zz2 * q.2.2 % p384
    let h := subP (q.1 * zz1 % p384) u1
    let r := subP (q.2.1 * zz1 * p.2.2 % p384) s1
    if h = 0 then (if r = 0 then ecDouble p else (1, 1, 0))
    else
      let hh := h * h % p384
      let v := u1 * hh % p384
      let x3 := (r * r + 3 * p384 * p384 - h * hh - 2 * v) % p384
      (x3, subP (r * subP v x3 % p384) (s1 * hh * h % p384), p.2.2 * q.2.2 * h % p384)

/-- A multiple of a point, one doubling for each bit. -/
def ecMul : Nat → Nat → EcPoint → EcPoint
  | 0, _, _ => (1, 1, 0)
  | bits + 1, k, p =>
    let r := ecDouble (ecMul bits (k / 2) p)
    if k % 2 = 1 then ecAdd r p else r

/-- ECDSA P-384 verification of a SHA-384 digest (FIPS 186-5): key x‖y and signature r‖s, 96 bytes each, most
significant byte first. -/
def ecdsaVerify (key : List Byte) (digest : Nat) (sig : List Byte) : Bool :=
  let qx := beNat (key.take 48); let qy := beNat ((key.drop 48).take 48)
  let r := beNat (sig.take 48); let s := beNat ((sig.drop 48).take 48)
  let onCurve := qx < p384 && qy < p384 && (qy * qy) % p384 == (qx * qx * qx + (p384 - 3) * qx + p384b) % p384
  if !(onCurve && 0 < r && r < p384n && 0 < s && s < p384n) then false else
  let w := invMod p384n s
  let t := ecAdd (ecMul 384 (digest * w % p384n) (p384g.1, p384g.2, 1)) (ecMul 384 (r * w % p384n) (qx, qy, 1))
  if t.2.2 = 0 then false
  else
    let i := invMod p384 t.2.2
    t.1 * i * i % p384 % p384n == r

end Sys2Proof.Machine
end

