-- ==== Sys2Proof/Config.lean ====
section
/-! DEFINITION. What an implementation fixes and what the spec leaves open: constants without a body, so that no proof
can see their value. -/
namespace Sys2Proof.Config

/-- A free value: the step reads it at the counter `State.fresh` and advances the counter (log entry 1). -/
opaque freeNat : Nat → Nat

/-- The fused V_LO and V_HI points of this part in millivolts (R546). -/
opaque vLoMv : Nat
opaque vHiMv : Nat

/-- The Device Serial Number, 64 bits from fuses (Table 8.1). -/
opaque serialNumber : Nat

/-- The FP32 value that an 8- or 10-bit texel component reads as (R338 gives the range of U and V alone; log entry 17). -/
opaque texelValue : Nat → Nat

/-- The furrow compressor's code lengths for a block of 32 symbol counts; R468 says only that they depend on the counts
and lie between 1 and 15 (log entry 24). -/
opaque codeLengths : List Nat → List Nat

/-- The body of a PDR: its length and its bytes. Table 9.4 gives each record's kind, sensor and source alone (log
entry 31). -/
opaque pdrLength : Nat → Nat
opaque pdrByte : Nat → Nat → Byte

/-- An element of a decoder output that is scaled or converted: parameters, samples, plane, row, column. The filter's
coefficients and the arithmetic of the conversion are not in the spec, which says only that the output depends on the
stream (R451; log entry 34). -/
opaque outElement : List Nat → List Nat → Nat → Nat → Nat → Nat

/-- The VID that an untagged frame of the host virtual NIC takes; no register gives I1 a PVID (Table 18.2, log entry
35). -/
opaque vnicPvid : Nat

/-- The parity bytes of an LDPC codeword: code (0 A, 1 B), data and metadata. The spec gives their number alone (Table
20.1; log entry 37). -/
opaque ldpcParity : Nat → List Byte → Nat → Byte

/-- VALID_BYTES of a codeword that is padding throughout; Table 20.3 allows 1–4,096 and names none (log entry 37). -/
opaque padValid : Nat

/-- The bytes of a journal record, by its kind; the spec gives no layout of the journal (R501; log entry 37). -/
opaque journalBytes : Nat → Nat

/-- The draw under SR for an output element of a built-in lane operation: SEED, tile, element in row order. The spec
does not state which lane finishes an element (R358, R375; log entry 1). -/
opaque builtinDraw : Nat → Nat → Nat → Nat

end Sys2Proof.Config
end

