-- ==== Sys2Proof/Machine/RegMap.lean ====
section
/-! DEFINITION. The BAR0 register map (spec/24_register_and_status_index.md Table 24.2 and the register tables of
the chapters): the offset of every register, the place of every field, and one table with each register's owner
island, field types and reset columns (spec/00_scope.md R11, R13). -/
namespace Sys2Proof.Machine

/-- The register field types of Table 0.4 that the chapters use. -/
inductive FieldKind where
  /-- RO: constant, writes ignored -/
  | ro
  /-- RO-H: maintained by hardware, writes ignored -/
  | roH
  /-- RW: reads the last value written -/
  | rw
  /-- W1C: writing 1 clears the bit -/
  | w1c
  /-- WO: reads 0, a write triggers the stated action -/
  | wo
  deriving DecidableEq, Repr

/-- What the Warm or the Wake column says of a field (Table 0.5): it survives, it is restored from the save area (R226), or it takes its Cold value
(a value that a start step writes afterwards counts as taking the Cold value first). -/
inductive ResetAct where
  | kept
  | saved
  | cold
  deriving DecidableEq, Repr

/-- One field line of a register table. -/
structure FieldRow where
  name : String
  hi   : Nat
  lo   : Nat
  kind : FieldKind
  cold : Nat
  warm : ResetAct
  wake : ResetAct
  deriving DecidableEq, Repr

/-- One register, or an array of registers of one or two dimensions, `words` dwords each, served by island
`island + islandStep · (first index)`. -/
structure RegRow where
  name  : String
  base  : Nat
  words : Nat
  n1    : Nat
  s1    : Nat
  n2    : Nat
  s2    : Nat
  island     : Nat
  islandStep : Nat
  fields : List FieldRow
  deriving DecidableEq, Repr

/-- GLOBAL_ID (spec/00 Table 0.7). -/
def R.globalId : Nat := 0x000000
/-- GLOBAL_ID.PART[31:16]. -/
def F.globalIdPart : Field := ⟨R.globalId, 16, 16⟩
/-- GLOBAL_ID.VARIANT[15:8]. -/
def F.globalIdVariant : Field := ⟨R.globalId, 8, 8⟩
/-- GLOBAL_ID.REVISION[7:0]. -/
def F.globalIdRevision : Field := ⟨R.globalId, 0, 8⟩
/-- GLOBAL_STATUS (spec/24 Table 24.7). -/
def R.globalStatus : Nat := 0x000004
/-- GLOBAL_STATUS.BAD_ACCESS[0:0]. -/
def F.globalStatusBadAccess : Field := ⟨R.globalStatus, 0, 1⟩
/-- GLOBAL_STATUS.DARK_ACCESS[1:1]. -/
def F.globalStatusDarkAccess : Field := ⟨R.globalStatus, 1, 1⟩
/-- GLOBAL_STATUS.UNCALIBRATED[2:2]. -/
def F.globalStatusUncalibrated : Field := ⟨R.globalStatus, 2, 1⟩
/-- GLOBAL_STATUS.SHED_LOST[3:3]. -/
def F.globalStatusShedLost : Field := ⟨R.globalStatus, 3, 1⟩
/-- GLOBAL_STATUS.TRELLIS_AGED[31:16]. -/
def F.globalStatusTrellisAged : Field := ⟨R.globalStatus, 16, 16⟩
/-- GLOBAL_DARK_ISLAND (spec/24 Table 24.7). -/
def R.globalDarkIsland : Nat := 0x000008
/-- GLOBAL_DARK_ISLAND.ISLAND[6:0]. -/
def F.globalDarkIslandIsland : Field := ⟨R.globalDarkIsland, 0, 7⟩
/-- GLOBAL_SIEVE_CH (spec/16 Table 16.6). -/
def R.globalSieveCh (i : Nat) : Nat := 0x000100 + 4 * i
/-- GLOBAL_SIEVE_CH.MODE[0:0]. -/
def F.globalSieveChMode (i : Nat) : Field := ⟨(R.globalSieveCh i), 0, 1⟩
/-- GLOBAL_SIEVE_CH.STEAL_MIN[7:4]. -/
def F.globalSieveChStealMin (i : Nat) : Field := ⟨(R.globalSieveCh i), 4, 4⟩
/-- FENCE_TEMP_MAX (spec/06 Table 6.5). -/
def R.fenceTempMax : Nat := 0x010000
/-- FENCE_TEMP_MAX.TEMP[15:0]. -/
def F.fenceTempMaxTemp : Field := ⟨R.fenceTempMax, 0, 16⟩
/-- FENCE_TEMP_MAX.SENSOR[19:16]. -/
def F.fenceTempMaxSensor : Field := ⟨R.fenceTempMax, 16, 4⟩
/-- FENCE_STATE (spec/06 Table 6.6). -/
def R.fenceState : Nat := 0x010004
/-- FENCE_STATE.WARN[0:0]. -/
def F.fenceStateWarn : Field := ⟨R.fenceState, 0, 1⟩
/-- FENCE_STATE.SOFT_THROTTLE[1:1]. -/
def F.fenceStateSoftThrottle : Field := ⟨R.fenceState, 1, 1⟩
/-- FENCE_STATE.POWER_CAP[2:2]. -/
def F.fenceStatePowerCap : Field := ⟨R.fenceState, 2, 1⟩
/-- FENCE_STATE.HW_THROTTLE[3:3]. -/
def F.fenceStateHwThrottle : Field := ⟨R.fenceState, 3, 1⟩
/-- FENCE_STATE.TRIP_LATCHED[4:4]. -/
def F.fenceStateTripLatched : Field := ⟨R.fenceState, 4, 1⟩
/-- FENCE_STATE.LIMIT_RATIO[11:8]. -/
def F.fenceStateLimitRatio : Field := ⟨R.fenceState, 8, 4⟩
/-- FENCE_STATE.BED_CEILING[26:16]. -/
def F.fenceStateBedCeiling : Field := ⟨R.fenceState, 16, 11⟩
/-- FENCE_THRESH (spec/06 Table 6.5). -/
def R.fenceThresh : Nat := 0x010008
/-- FENCE_THRESH.WARN[7:0]. -/
def F.fenceThreshWarn : Field := ⟨R.fenceThresh, 0, 8⟩
/-- FENCE_THRESH.THROTTLE[15:8]. -/
def F.fenceThreshThrottle : Field := ⟨R.fenceThresh, 8, 8⟩
/-- FENCE_THRESH.HW_THROTTLE[23:16]. -/
def F.fenceThreshHwThrottle : Field := ⟨R.fenceThresh, 16, 8⟩
/-- FENCE_THRESH.HW_TRIP[31:24]. -/
def F.fenceThreshHwTrip : Field := ⟨R.fenceThresh, 24, 8⟩
/-- FENCE_SENSOR_FAIL (spec/06 Table 6.5). -/
def R.fenceSensorFail : Nat := 0x01000C
/-- FENCE_SENSOR_FAIL.FAIL[11:0]. -/
def F.fenceSensorFailFail : Field := ⟨R.fenceSensorFail, 0, 12⟩
/-- FENCE_THRESH_CROSSINGS_0 (spec/06 Table 6.7). -/
def R.fenceThreshCrossings0 : Nat := 0x010010
/-- FENCE_THRESH_CROSSINGS_0.WARN[15:0]. -/
def F.fenceThreshCrossings0Warn : Field := ⟨R.fenceThreshCrossings0, 0, 16⟩
/-- FENCE_THRESH_CROSSINGS_0.THROTTLE[31:16]. -/
def F.fenceThreshCrossings0Throttle : Field := ⟨R.fenceThreshCrossings0, 16, 16⟩
/-- FENCE_THRESH_CROSSINGS_1 (spec/06 Table 6.7). -/
def R.fenceThreshCrossings1 : Nat := 0x010014
/-- FENCE_THRESH_CROSSINGS_1.HW_THROTTLE[15:0]. -/
def F.fenceThreshCrossings1HwThrottle : Field := ⟨R.fenceThreshCrossings1, 0, 16⟩
/-- FENCE_THRESH_CROSSINGS_1.HW_TRIP[31:16]. -/
def F.fenceThreshCrossings1HwTrip : Field := ⟨R.fenceThreshCrossings1, 16, 16⟩
/-- FENCE_CLAMPS (spec/06 Table 6.5). -/
def R.fenceClamps : Nat := 0x010018
/-- FENCE_CLAMPS.VOLT[15:0]. -/
def F.fenceClampsVolt : Field := ⟨R.fenceClamps, 0, 16⟩
/-- FENCE_CLAMPS.FREQ[31:16]. -/
def F.fenceClampsFreq : Field := ⟨R.fenceClamps, 16, 16⟩
/-- FENCE_POWER_MW (spec/06 Table 6.5). -/
def R.fencePowerMw : Nat := 0x01001C
/-- FENCE_LIMIT_EVENTS (spec/06 Table 6.5). -/
def R.fenceLimitEvents : Nat := 0x010020
/-- FENCE_TRIP (spec/06 Table 6.8). -/
def R.fenceTrip : Nat := 0x010024
/-- FENCE_TRIP.TEMP[15:0]. -/
def F.fenceTripTemp : Field := ⟨R.fenceTrip, 0, 16⟩
/-- FENCE_TRIP.SENSOR[19:16]. -/
def F.fenceTripSensor : Field := ⟨R.fenceTrip, 16, 4⟩
/-- FENCE_TRIP.CAUSE[21:20]. -/
def F.fenceTripCause : Field := ⟨R.fenceTrip, 20, 2⟩
/-- FENCE_TRIP.COUNT[29:22]. -/
def F.fenceTripCount : Field := ⟨R.fenceTrip, 22, 8⟩
/-- FENCE_TEMP (spec/06 Table 6.5). -/
def R.fenceTemp (i : Nat) : Nat := 0x010040 + 4 * i
/-- FENCE_TEMP.TEMP[15:0]. -/
def F.fenceTempTemp (i : Nat) : Field := ⟨(R.fenceTemp i), 0, 16⟩
/-- FENCE_LEASE (spec/07 Table 7.9). -/
def R.fenceLease (i : Nat) : Nat := 0x010080 + 4 * i
/-- FENCE_LEASE.HOLDER[6:0]. -/
def F.fenceLeaseHolder (i : Nat) : Field := ⟨(R.fenceLease i), 0, 7⟩
/-- FENCE_LEASE.EPOCH[15:8]. -/
def F.fenceLeaseEpoch (i : Nat) : Field := ⟨(R.fenceLease i), 8, 8⟩
/-- FENCE_LEASE.WAITERS[19:16]. -/
def F.fenceLeaseWaiters (i : Nat) : Field := ⟨(R.fenceLease i), 16, 4⟩
/-- FENCE_LEASE.AGE_MS[31:20]. -/
def F.fenceLeaseAgeMs (i : Nat) : Field := ⟨(R.fenceLease i), 20, 12⟩
/-- FENCE_LEASE_EVENTS (spec/07 Table 7.9). -/
def R.fenceLeaseEvents : Nat := 0x0100A0
/-- FENCE_LEASE_EVENTS.ON_CLOSE[7:0]. -/
def F.fenceLeaseEventsOnClose : Field := ⟨R.fenceLeaseEvents, 0, 8⟩
/-- FENCE_LEASE_EVENTS.REVOKED[15:8]. -/
def F.fenceLeaseEventsRevoked : Field := ⟨R.fenceLeaseEvents, 8, 8⟩
/-- FENCE_LEASE_EVENTS.TIMER[23:16]. -/
def F.fenceLeaseEventsTimer : Field := ⟨R.fenceLeaseEvents, 16, 8⟩
/-- FENCE_AVS (spec/23 Table 23.13). -/
def R.fenceAvs : Nat := 0x0100C0
/-- FENCE_AVS.TARGET_MV[9:0]. -/
def F.fenceAvsTargetMv : Field := ⟨R.fenceAvs, 0, 10⟩
/-- FENCE_AVS.FAULT[10:10]. -/
def F.fenceAvsFault : Field := ⟨R.fenceAvs, 10, 1⟩
/-- FENCE_AVS.SETTLED[11:11]. -/
def F.fenceAvsSettled : Field := ⟨R.fenceAvs, 11, 1⟩
/-- FENCE_AVS.UV_EVENTS[23:16]. -/
def F.fenceAvsUvEvents : Field := ⟨R.fenceAvs, 16, 8⟩
/-- FENCE_AVS.AVS_ERRORS[31:24]. -/
def F.fenceAvsAvsErrors : Field := ⟨R.fenceAvs, 24, 8⟩
/-- FENCE_RAIL (spec/23 Table 23.13). -/
def R.fenceRail (i : Nat) : Nat := 0x0100E0 + 4 * i
/-- FENCE_RAIL.MV[15:0]. -/
def F.fenceRailMv (i : Nat) : Field := ⟨(R.fenceRail i), 0, 16⟩
/-- PWR_REQUEST (spec/05 Table 5.6). -/
def R.pwrRequest : Nat := 0x020000
/-- PWR_REQUEST.TARGET[2:0]. -/
def F.pwrRequestTarget : Field := ⟨R.pwrRequest, 0, 3⟩
/-- PWR_REQUEST.DRAIN[4:4]. -/
def F.pwrRequestDrain : Field := ⟨R.pwrRequest, 4, 1⟩
/-- PWR_REQUEST.KEY[31:16]. -/
def F.pwrRequestKey : Field := ⟨R.pwrRequest, 16, 16⟩
/-- PWR_STATUS (spec/05 Table 5.7). -/
def R.pwrStatus : Nat := 0x020004
/-- PWR_STATUS.STATE[2:0]. -/
def F.pwrStatusState : Field := ⟨R.pwrStatus, 0, 3⟩
/-- PWR_STATUS.PHASE[5:3]. -/
def F.pwrStatusPhase : Field := ⟨R.pwrStatus, 3, 3⟩
/-- PWR_STATUS.DONE[6:6]. -/
def F.pwrStatusDone : Field := ⟨R.pwrStatus, 6, 1⟩
/-- PWR_STATUS.RESULT[10:8]. -/
def F.pwrStatusResult : Field := ⟨R.pwrStatus, 8, 3⟩
/-- PWR_STATUS.LAST_TARGET[18:16]. -/
def F.pwrStatusLastTarget : Field := ⟨R.pwrStatus, 16, 3⟩
/-- PWR_MODE (spec/05 Table 5.8). -/
def R.pwrMode : Nat := 0x020008
/-- PWR_MODE.TARGET[2:0]. -/
def F.pwrModeTarget : Field := ⟨R.pwrMode, 0, 3⟩
/-- PWR_MODE.GK_WAIT[3:3]. -/
def F.pwrModeGkWait : Field := ⟨R.pwrMode, 3, 1⟩
/-- PWR_MODE.G0_MODE[6:4]. -/
def F.pwrModeG0Mode : Field := ⟨R.pwrMode, 4, 3⟩
/-- PWR_MODE.G0_WAIT[7:7]. -/
def F.pwrModeG0Wait : Field := ⟨R.pwrMode, 7, 1⟩
/-- PWR_MODE.G1_MODE[10:8]. -/
def F.pwrModeG1Mode : Field := ⟨R.pwrMode, 8, 3⟩
/-- PWR_MODE.G1_WAIT[11:11]. -/
def F.pwrModeG1Wait : Field := ⟨R.pwrMode, 11, 1⟩
/-- PWR_MODE.SK_MODE[14:12]. -/
def F.pwrModeSkMode : Field := ⟨R.pwrMode, 12, 3⟩
/-- PWR_MODE.SK_WAIT[15:15]. -/
def F.pwrModeSkWait : Field := ⟨R.pwrMode, 15, 1⟩
/-- PWR_SETTLE (spec/05 Table 5.9). -/
def R.pwrSettle : Nat := 0x02000C
/-- PWR_SETTLE.TIMEOUT_MS[13:0]. -/
def F.pwrSettleTimeoutMs : Field := ⟨R.pwrSettle, 0, 14⟩
/-- PWR_WAKE_EN (spec/05 Table 5.9). -/
def R.pwrWakeEn : Nat := 0x020010
/-- PWR_WAKE_EN.WAKE_N[0:0]. -/
def F.pwrWakeEnWakeN : Field := ⟨R.pwrWakeEn, 0, 1⟩
/-- PWR_WAKE_EN.SOURCES[6:1]. -/
def F.pwrWakeEnSources : Field := ⟨R.pwrWakeEn, 1, 6⟩
/-- PWR_ALARM (spec/05 Table 5.9). -/
def R.pwrAlarm : Nat := 0x020014
/-- PWR_TIMER_MS (spec/05 Table 5.9). -/
def R.pwrTimerMs : Nat := 0x020018
/-- PWR_LAST_EXIT (spec/05 Table 5.10). -/
def R.pwrLastExit : Nat := 0x02001C
/-- PWR_LAST_EXIT.CAUSE[6:0]. -/
def F.pwrLastExitCause : Field := ⟨R.pwrLastExit, 0, 7⟩
/-- PWR_LAST_EXIT.FIRST[10:8]. -/
def F.pwrLastExitFirst : Field := ⟨R.pwrLastExit, 8, 3⟩
/-- PWR_LAST_EXIT.FROM[14:12]. -/
def F.pwrLastExitFrom : Field := ⟨R.pwrLastExit, 12, 3⟩
/-- PWR_LAST_EXIT.EXIT_US[31:16]. -/
def F.pwrLastExitExitUs : Field := ⟨R.pwrLastExit, 16, 16⟩
/-- PWR_COUNT (spec/05 Table 5.10). -/
def R.pwrCount : Nat := 0x020020
/-- PWR_COUNT.SHADE[15:0]. -/
def F.pwrCountShade : Field := ⟨R.pwrCount, 0, 16⟩
/-- PWR_COUNT.DEEP[31:16]. -/
def F.pwrCountDeep : Field := ⟨R.pwrCount, 16, 16⟩
/-- PWR_SHADE_DROP (spec/05 Table 5.10). -/
def R.pwrShadeDrop : Nat := 0x020024
/-- BOOT_STATUS (spec/04 Table 4.11). -/
def R.bootStatus : Nat := 0x030000
/-- BOOT_STATUS.STEP[3:0]. -/
def F.bootStatusStep : Field := ⟨R.bootStatus, 0, 4⟩
/-- BOOT_STATUS.READY[4:4]. -/
def F.bootStatusReady : Field := ⟨R.bootStatus, 4, 1⟩
/-- BOOT_STATUS.SAFE[5:5]. -/
def F.bootStatusSafe : Field := ⟨R.bootStatus, 5, 1⟩
/-- BOOT_STATUS.LINK_PENDING[6:6]. -/
def F.bootStatusLinkPending : Field := ⟨R.bootStatus, 6, 1⟩
/-- BOOT_STATUS.SLOT_SWITCHED[7:7]. -/
def F.bootStatusSlotSwitched : Field := ⟨R.bootStatus, 7, 1⟩
/-- BOOT_STATUS.MEM_TRAINED[8:8]. -/
def F.bootStatusMemTrained : Field := ⟨R.bootStatus, 8, 1⟩
/-- BOOT_STATUS.FORCED[9:9]. -/
def F.bootStatusForced : Field := ⟨R.bootStatus, 9, 1⟩
/-- BOOT_STATUS.DIR_DEFAULT[10:10]. -/
def F.bootStatusDirDefault : Field := ⟨R.bootStatus, 10, 1⟩
/-- BOOT_STATUS.LAST_STATUS[23:16]. -/
def F.bootStatusLastStatus : Field := ⟨R.bootStatus, 16, 8⟩
/-- BOOT_STATUS.LAST_DETAIL[31:24]. -/
def F.bootStatusLastDetail : Field := ⟨R.bootStatus, 24, 8⟩
/-- BOOT_KIND (spec/04 Table 4.12). -/
def R.bootKind : Nat := 0x030004
/-- BOOT_KIND.START_KIND[2:0]. -/
def F.bootKindStartKind : Field := ⟨R.bootKind, 0, 3⟩
/-- BOOT_KIND.WAKE_CAUSE[13:8]. -/
def F.bootKindWakeCause : Field := ⟨R.bootKind, 8, 6⟩
/-- BOOT_KIND.FIRST_CAUSE[18:16]. -/
def F.bootKindFirstCause : Field := ⟨R.bootKind, 16, 3⟩
/-- BOOT_SLOT (spec/04 Table 4.12). -/
def R.bootSlot : Nat := 0x030008
/-- BOOT_SLOT.RUNNING[0:0]. -/
def F.bootSlotRunning : Field := ⟨R.bootSlot, 0, 1⟩
/-- BOOT_SLOT.PREFERRED[1:1]. -/
def F.bootSlotPreferred : Field := ⟨R.bootSlot, 1, 1⟩
/-- BOOT_SLOT.FAILS_A[3:2]. -/
def F.bootSlotFailsA : Field := ⟨R.bootSlot, 2, 2⟩
/-- BOOT_SLOT.FAILS_B[5:4]. -/
def F.bootSlotFailsB : Field := ⟨R.bootSlot, 4, 2⟩
/-- BOOT_SLOT.RUN_VERSION[13:8]. -/
def F.bootSlotRunVersion : Field := ⟨R.bootSlot, 8, 6⟩
/-- BOOT_SLOT.OTHER_VERSION[21:16]. -/
def F.bootSlotOtherVersion : Field := ⟨R.bootSlot, 16, 6⟩
/-- BOOT_SLOT.FLOOR[29:24]. -/
def F.bootSlotFloor : Field := ⟨R.bootSlot, 24, 6⟩
/-- BOOT_ELAPSED (spec/04 Table 4.12). -/
def R.bootElapsed : Nat := 0x03000C
/-- BOOT_CMD (spec/04 Table 4.13). -/
def R.bootCmd : Nat := 0x030010
/-- BOOT_CMD.OP[3:0]. -/
def F.bootCmdOp : Field := ⟨R.bootCmd, 0, 4⟩
/-- BOOT_CMD.SLOT[4:4]. -/
def F.bootCmdSlot : Field := ⟨R.bootCmd, 4, 1⟩
/-- BOOT_CMD.IMAGE[6:5]. -/
def F.bootCmdImage : Field := ⟨R.bootCmd, 5, 2⟩
/-- BOOT_CMD.KEY[31:16]. -/
def F.bootCmdKey : Field := ⟨R.bootCmd, 16, 16⟩
/-- BOOT_CMD_STATUS (spec/04 Table 4.14). -/
def R.bootCmdStatus : Nat := 0x030014
/-- BOOT_CMD_STATUS.BUSY[0:0]. -/
def F.bootCmdStatusBusy : Field := ⟨R.bootCmdStatus, 0, 1⟩
/-- BOOT_CMD_STATUS.DONE[1:1]. -/
def F.bootCmdStatusDone : Field := ⟨R.bootCmdStatus, 1, 1⟩
/-- BOOT_CMD_STATUS.RESULT[10:8]. -/
def F.bootCmdStatusResult : Field := ⟨R.bootCmdStatus, 8, 3⟩
/-- BOOT_CMD_STATUS.STATUS[23:16]. -/
def F.bootCmdStatusStatus : Field := ⟨R.bootCmdStatus, 16, 8⟩
/-- BOOT_CMD_STATUS.DETAIL[31:24]. -/
def F.bootCmdStatusDetail : Field := ⟨R.bootCmdStatus, 24, 8⟩
/-- BOOT_SRC_ADDR (spec/04 R127). -/
def R.bootSrcAddr : Nat := 0x030018
/-- BOOT_SRC_LEN (spec/04 R127). -/
def R.bootSrcLen : Nat := 0x030020
/-- BOOT_TIME (spec/04 Table 4.10). -/
def R.bootTime (i : Nat) : Nat := 0x030040 + 4 * i
/-- BOOT_FAIL (spec/04 Table 4.10). -/
def R.bootFail (i : Nat) : Nat := 0x030080 + 4 * i
/-- BOOT_FW_CMD (spec/07 Table 7.6). -/
def R.bootFwCmd : Nat := 0x030100
/-- BOOT_FW_CMD.OP[2:0]. -/
def F.bootFwCmdOp : Field := ⟨R.bootFwCmd, 0, 3⟩
/-- BOOT_FW_CMD.PROC[5:4]. -/
def F.bootFwCmdProc : Field := ⟨R.bootFwCmd, 4, 2⟩
/-- BOOT_FW_CMD.KEY[31:16]. -/
def F.bootFwCmdKey : Field := ⟨R.bootFwCmd, 16, 16⟩
/-- BOOT_FW_CMD_STATUS (spec/07 Table 7.6). -/
def R.bootFwCmdStatus : Nat := 0x030104
/-- BOOT_FW_CMD_STATUS.BUSY[0:0]. -/
def F.bootFwCmdStatusBusy : Field := ⟨R.bootFwCmdStatus, 0, 1⟩
/-- BOOT_FW_CMD_STATUS.DONE[1:1]. -/
def F.bootFwCmdStatusDone : Field := ⟨R.bootFwCmdStatus, 1, 1⟩
/-- BOOT_FW_CMD_STATUS.RESULT[10:8]. -/
def F.bootFwCmdStatusResult : Field := ⟨R.bootFwCmdStatus, 8, 3⟩
/-- BOOT_FW_CMD_STATUS.STATUS[23:16]. -/
def F.bootFwCmdStatusStatus : Field := ⟨R.bootFwCmdStatus, 16, 8⟩
/-- BOOT_FW_CMD_STATUS.DETAIL[31:24]. -/
def F.bootFwCmdStatusDetail : Field := ⟨R.bootFwCmdStatus, 24, 8⟩
/-- BOOT_FW_STATUS (spec/07 Table 7.6). -/
def R.bootFwStatus : Nat := 0x030108
/-- BOOT_FW_STATUS.HOT[3:0]. -/
def F.bootFwStatusHot : Field := ⟨R.bootFwStatus, 0, 4⟩
/-- BOOT_FW_STATUS.REVERTED[7:4]. -/
def F.bootFwStatusReverted : Field := ⟨R.bootFwStatus, 4, 4⟩
/-- BOOT_FW_STATUS.PENDING[11:8]. -/
def F.bootFwStatusPending : Field := ⟨R.bootFwStatus, 8, 4⟩
/-- BOOT_FW_VERSION (spec/07 Table 7.5). -/
def R.bootFwVersion (i : Nat) : Nat := 0x030120 + 4 * i
/-- BOOT_WDOG (spec/07 Table 7.7). -/
def R.bootWdog (i : Nat) : Nat := 0x030130 + 4 * i
/-- BOOT_WDOG.TIMEOUT_MS[9:0]. -/
def F.bootWdogTimeoutMs (i : Nat) : Field := ⟨(R.bootWdog i), 0, 10⟩
/-- BOOT_WDOG.EXPIRIES[23:16]. -/
def F.bootWdogExpiries (i : Nat) : Field := ⟨(R.bootWdog i), 16, 8⟩
/-- BOOT_WDOG.EXCEPTIONS[31:24]. -/
def F.bootWdogExceptions (i : Nat) : Field := ⟨(R.bootWdog i), 24, 8⟩
/-- BOOT_WDOG_EVENT (spec/07 Table 7.7). -/
def R.bootWdogEvent : Nat := 0x030140
/-- BOOT_WDOG_EVENT.TIME_US[31:0]. -/
def F.bootWdogEventTimeUs : Field := ⟨R.bootWdogEvent, 0, 32⟩
/-- BOOT_WDOG_EVENT.PROCESSOR[33:32]. -/
def F.bootWdogEventProcessor : Field := ⟨(R.bootWdogEvent + 4), 0, 2⟩
/-- BOOT_WDOG_EVENT.KIND[36:34]. -/
def F.bootWdogEventKind : Field := ⟨(R.bootWdogEvent + 4), 2, 3⟩
/-- BOOT_WDOG_EVENT.OUTCOME[38:37]. -/
def F.bootWdogEventOutcome : Field := ⟨(R.bootWdogEvent + 4), 5, 2⟩
/-- BOOT_KEYMB_CMD (spec/07 Table 7.8). -/
def R.bootKeymbCmd : Nat := 0x030180
/-- BOOT_KEYMB_CMD.OP[1:0]. -/
def F.bootKeymbCmdOp : Field := ⟨R.bootKeymbCmd, 0, 2⟩
/-- BOOT_KEYMB_CMD.SLOT[7:4]. -/
def F.bootKeymbCmdSlot : Field := ⟨R.bootKeymbCmd, 4, 4⟩
/-- BOOT_KEYMB_CMD.KEY[31:16]. -/
def F.bootKeymbCmdKey : Field := ⟨R.bootKeymbCmd, 16, 16⟩
/-- BOOT_KEYMB_STATUS (spec/07 Table 7.8). -/
def R.bootKeymbStatus : Nat := 0x030184
/-- BOOT_KEYMB_STATUS.BUSY[0:0]. -/
def F.bootKeymbStatusBusy : Field := ⟨R.bootKeymbStatus, 0, 1⟩
/-- BOOT_KEYMB_STATUS.DONE[1:1]. -/
def F.bootKeymbStatusDone : Field := ⟨R.bootKeymbStatus, 1, 1⟩
/-- BOOT_KEYMB_STATUS.RESULT[10:8]. -/
def F.bootKeymbStatusResult : Field := ⟨R.bootKeymbStatus, 8, 3⟩
/-- BOOT_KEYMB_STATUS.LOADED[31:17]. -/
def F.bootKeymbStatusLoaded : Field := ⟨R.bootKeymbStatus, 17, 15⟩
/-- BOOT_KEYMB_ADDR (spec/07 Table 7.5). -/
def R.bootKeymbAddr : Nat := 0x030188
/-- BOOT_KEYMB_KCV (spec/07 Table 7.5). -/
def R.bootKeymbKcv : Nat := 0x030190
/-- BOOT_KEYMB_EMPTY (spec/07 Table 7.5). -/
def R.bootKeymbEmpty : Nat := 0x030194
/-- PLAN_CMD (spec/02 Table 2.9). -/
def R.planCmd : Nat := 0x040000
/-- PLAN_CMD.OP[3:0]. -/
def F.planCmdOp : Field := ⟨R.planCmd, 0, 4⟩
/-- PLAN_CMD.ARG[5:4]. -/
def F.planCmdArg : Field := ⟨R.planCmd, 4, 2⟩
/-- PLAN_CMD.DRAIN[6:6]. -/
def F.planCmdDrain : Field := ⟨R.planCmd, 6, 1⟩
/-- PLAN_CMD.KEY[31:16]. -/
def F.planCmdKey : Field := ⟨R.planCmd, 16, 16⟩
/-- PLAN_STATUS (spec/02 Table 2.10). -/
def R.planStatus : Nat := 0x040004
/-- PLAN_STATUS.PHASE[2:0]. -/
def F.planStatusPhase : Field := ⟨R.planStatus, 0, 3⟩
/-- PLAN_STATUS.DONE[3:3]. -/
def F.planStatusDone : Field := ⟨R.planStatus, 3, 1⟩
/-- PLAN_STATUS.FALLBACK[4:4]. -/
def F.planStatusFallback : Field := ⟨R.planStatus, 4, 1⟩
/-- PLAN_STATUS.REVERTED[5:5]. -/
def F.planStatusReverted : Field := ⟨R.planStatus, 5, 1⟩
/-- PLAN_STATUS.UNSTORED[6:6]. -/
def F.planStatusUnstored : Field := ⟨R.planStatus, 6, 1⟩
/-- PLAN_STATUS.RESULT[15:8]. -/
def F.planStatusResult : Field := ⟨R.planStatus, 8, 8⟩
/-- PLAN_STATUS.DETAIL[23:16]. -/
def F.planStatusDetail : Field := ⟨R.planStatus, 16, 8⟩
/-- PLAN_STATUS.SKIPPED[27:24]. -/
def F.planStatusSkipped : Field := ⟨R.planStatus, 24, 4⟩
/-- PLAN_SRC_ADDR (spec/02 Table 2.11). -/
def R.planSrcAddr : Nat := 0x040008
/-- PLAN_SRC_LEN (spec/02 Table 2.11). -/
def R.planSrcLen : Nat := 0x040010
/-- PLAN_DRAIN (spec/02 Table 2.11). -/
def R.planDrain : Nat := 0x040014
/-- PLAN_DRAIN.TIMEOUT_US[19:0]. -/
def F.planDrainTimeoutUs : Field := ⟨R.planDrain, 0, 20⟩
/-- PLAN_ERROR (spec/02 Table 2.12). -/
def R.planError : Nat := 0x040018
/-- PLAN_ERROR.RECORD[15:0]. -/
def F.planErrorRecord : Field := ⟨R.planError, 0, 16⟩
/-- PLAN_ERROR.WORD[31:16]. -/
def F.planErrorWord : Field := ⟨R.planError, 16, 16⟩
/-- PLAN_ERROR.IMAGE[35:32]. -/
def F.planErrorImage : Field := ⟨(R.planError + 4), 0, 4⟩
/-- PLAN_ERROR.AREA[36:36]. -/
def F.planErrorArea : Field := ⟨(R.planError + 4), 4, 1⟩
/-- PLAN_ACTIVE_ID (spec/02 Table 2.8). -/
def R.planActiveId : Nat := 0x040020
/-- PLAN_ACTIVE_GEN (spec/02 Table 2.8). -/
def R.planActiveGen : Nat := 0x040028
/-- PLAN_ACTIVE_INFO (spec/02 Table 2.13). -/
def R.planActiveInfo : Nat := 0x04002C
/-- PLAN_ACTIVE_INFO.SECURITY_VERSION[7:0]. -/
def F.planActiveInfoSecurityVersion : Field := ⟨R.planActiveInfo, 0, 8⟩
/-- PLAN_ACTIVE_INFO.KEY_INDEX[9:8]. -/
def F.planActiveInfoKeyIndex : Field := ⟨R.planActiveInfo, 8, 2⟩
/-- PLAN_ACTIVE_INFO.GRAFTS[13:10]. -/
def F.planActiveInfoGrafts : Field := ⟨R.planActiveInfo, 10, 4⟩
/-- PLAN_KEYS (spec/02 Table 2.13). -/
def R.planKeys : Nat := 0x040030
/-- PLAN_KEYS.PROVISIONED[3:0]. -/
def F.planKeysProvisioned : Field := ⟨R.planKeys, 0, 4⟩
/-- PLAN_KEYS.REVOKED[7:4]. -/
def F.planKeysRevoked : Field := ⟨R.planKeys, 4, 4⟩
/-- PLAN_KEYS.FLOOR[13:8]. -/
def F.planKeysFloor : Field := ⟨R.planKeys, 8, 6⟩
/-- PLAN_CLAMPS (spec/02 Table 2.8). -/
def R.planClamps : Nat := 0x040034
/-- PLAN_DIGEST (spec/02 Table 2.8). -/
def R.planDigest (i : Nat) : Nat := 0x040040 + 4 * i
/-- ISLAND_STATE (spec/01 Table 1.6). -/
def R.islandState (i : Nat) : Nat := 0x050000 + 4 * i
/-- ISLAND_STATE.STATE[2:0]. -/
def F.islandStateState (i : Nat) : Field := ⟨(R.islandState i), 0, 3⟩
/-- ISLAND_STATE.EPOCH[15:8]. -/
def F.islandStateEpoch (i : Nat) : Field := ⟨(R.islandState i), 8, 8⟩
/-- ISLAND_STATE.LAST_CAUSE[19:16]. -/
def F.islandStateLastCause (i : Nat) : Field := ⟨(R.islandState i), 16, 4⟩
/-- ISLAND_STATE.CLOSE_COUNT[31:24]. -/
def F.islandStateCloseCount (i : Nat) : Field := ⟨(R.islandState i), 24, 8⟩
/-- ISLAND_CLOCK (spec/01 Table 1.7). -/
def R.islandClock (i : Nat) : Nat := 0x050200 + 4 * i
/-- ISLAND_CLOCK.FREQ_MHZ[10:0]. -/
def F.islandClockFreqMhz (i : Nat) : Field := ⟨(R.islandClock i), 0, 11⟩
/-- ISLAND_CLOCK.SOURCE[18:16]. -/
def F.islandClockSource (i : Nat) : Field := ⟨(R.islandClock i), 16, 3⟩
/-- ISLAND_COUNT (spec/01 Table 1.8). -/
def R.islandCount (i : Nat) : Nat := 0x050400 + 4 * i
/-- ISLAND_COUNT.STALE_SENT[15:0]. -/
def F.islandCountStaleSent (i : Nat) : Field := ⟨(R.islandCount i), 0, 16⟩
/-- ISLAND_COUNT.RESET_SENT[31:16]. -/
def F.islandCountResetSent (i : Nat) : Field := ⟨(R.islandCount i), 16, 16⟩
/-- ISLAND_DISCARD (spec/01 Table 1.9). -/
def R.islandDiscard (i : Nat) : Nat := 0x050600 + 4 * i
/-- ISLAND_CTRL (spec/01 Table 1.10). -/
def R.islandCtrl : Nat := 0x050800
/-- ISLAND_CTRL.TARGET[6:0]. -/
def F.islandCtrlTarget : Field := ⟨R.islandCtrl, 0, 7⟩
/-- ISLAND_CTRL.ACTION[9:8]. -/
def F.islandCtrlAction : Field := ⟨R.islandCtrl, 8, 2⟩
/-- ISLAND_CTRL.KEY[31:16]. -/
def F.islandCtrlKey : Field := ⟨R.islandCtrl, 16, 16⟩
/-- ISLAND_CTRL_STATUS (spec/01 Table 1.11). -/
def R.islandCtrlStatus : Nat := 0x050804
/-- ISLAND_CTRL_STATUS.BUSY[0:0]. -/
def F.islandCtrlStatusBusy : Field := ⟨R.islandCtrlStatus, 0, 1⟩
/-- ISLAND_CTRL_STATUS.RESULT[3:1]. -/
def F.islandCtrlStatusResult : Field := ⟨R.islandCtrlStatus, 1, 3⟩
/-- ISLAND_EVENT (spec/01 Table 1.12). -/
def R.islandEvent : Nat := 0x050808
/-- ISLAND_EVENT.TIME_US[31:0]. -/
def F.islandEventTimeUs : Field := ⟨R.islandEvent, 0, 32⟩
/-- ISLAND_EVENT.ISLAND[38:32]. -/
def F.islandEventIsland : Field := ⟨(R.islandEvent + 4), 0, 7⟩
/-- ISLAND_EVENT.CAUSE[43:40]. -/
def F.islandEventCause : Field := ⟨(R.islandEvent + 4), 8, 4⟩
/-- ISLAND_EVENT.OLD_EPOCH[51:44]. -/
def F.islandEventOldEpoch : Field := ⟨(R.islandEvent + 4), 12, 8⟩
/-- HOSTQ_TOKEN (spec/08 Table 8.12). -/
def R.hostqToken : Nat := 0x060000
/-- HOSTQ_TOKEN.HOLDER[1:0]. -/
def F.hostqTokenHolder : Field := ⟨R.hostqToken, 0, 2⟩
/-- HOSTQ_TOKEN.HOW[3:2]. -/
def F.hostqTokenHow : Field := ⟨R.hostqToken, 2, 2⟩
/-- HOSTQ_TOKEN.RESULT[6:4]. -/
def F.hostqTokenResult : Field := ⟨R.hostqToken, 4, 3⟩
/-- HOSTQ_TOKEN.OP[9:8]. -/
def F.hostqTokenOp : Field := ⟨R.hostqToken, 8, 2⟩
/-- HOSTQ_TOKEN.KEY[31:16]. -/
def F.hostqTokenKey : Field := ⟨R.hostqToken, 16, 16⟩
/-- HOSTQ_HEARTBEAT (spec/08 Table 8.12). -/
def R.hostqHeartbeat : Nat := 0x060004
/-- HOSTQ_HEARTBEAT.AGE_MS[15:0]. -/
def F.hostqHeartbeatAgeMs : Field := ⟨R.hostqHeartbeat, 0, 16⟩
/-- HOSTQ_HEARTBEAT.ARMED[16:16]. -/
def F.hostqHeartbeatArmed : Field := ⟨R.hostqHeartbeat, 16, 1⟩
/-- HOSTQ_HEARTBEAT.BEAT[31:31]. -/
def F.hostqHeartbeatBeat : Field := ⟨R.hostqHeartbeat, 31, 1⟩
/-- HOSTQ_EVENT_CAUSE (spec/08 Table 8.11, 8.9). -/
def R.hostqEventCause : Nat := 0x060010
/-- HOSTQ_EVENT_CAUSE.CAUSE[13:0]. -/
def F.hostqEventCauseCause : Field := ⟨R.hostqEventCause, 0, 14⟩
/-- HOSTQ_EVENT_MASK (spec/08 Table 8.11). -/
def R.hostqEventMask : Nat := 0x060014
/-- HOSTQ_EVENT_MASK.MASK[13:0]. -/
def F.hostqEventMaskMask : Field := ⟨R.hostqEventMask, 0, 14⟩
/-- HOSTQ_BAR4_BASE (spec/08 Table 8.11). -/
def R.hostqBar4Base : Nat := 0x060020
/-- HOSTQ_BAR4_CTRL (spec/08 Table 8.11). -/
def R.hostqBar4Ctrl : Nat := 0x060028
/-- HOSTQ_BAR4_CTRL.KEY_SEL[3:0]. -/
def F.hostqBar4CtrlKeySel : Field := ⟨R.hostqBar4Ctrl, 0, 4⟩
/-- HOSTQ_BAR4_CTRL.DENIED[31:16]. -/
def F.hostqBar4CtrlDenied : Field := ⟨R.hostqBar4Ctrl, 16, 16⟩
/-- HOSTQ_LINK (spec/08 Table 8.12). -/
def R.hostqLink : Nat := 0x060030
/-- HOSTQ_LINK.SPEED[3:0]. -/
def F.hostqLinkSpeed : Field := ⟨R.hostqLink, 0, 4⟩
/-- HOSTQ_LINK.WIDTH[9:4]. -/
def F.hostqLinkWidth : Field := ⟨R.hostqLink, 4, 6⟩
/-- HOSTQ_LINK.DOWN_COUNT[23:16]. -/
def F.hostqLinkDownCount : Field := ⟨R.hostqLink, 16, 8⟩
/-- HOSTQ_LINK.ASPM_L1[24:24]. -/
def F.hostqLinkAspmL1 : Field := ⟨R.hostqLink, 24, 1⟩
/-- HOSTQ_LINK.L12[25:25]. -/
def F.hostqLinkL12 : Field := ⟨R.hostqLink, 25, 1⟩
/-- HOSTQ_DROPPED (spec/08 Table 8.11). -/
def R.hostqDropped : Nat := 0x060034
/-- HOSTQ_ERROR (spec/08 Table 8.11). -/
def R.hostqError : Nat := 0x060038
/-- HOSTQ_URGENT_CFG (spec/22 Table 22.4). -/
def R.hostqUrgentCfg : Nat := 0x060040
/-- HOSTQ_URGENT_CFG.RESERVE_PLOT[3:0]. -/
def F.hostqUrgentCfgReservePlot : Field := ⟨R.hostqUrgentCfg, 0, 4⟩
/-- HOSTQ_URGENT_CFG.HAS_RESERVE[4:4]. -/
def F.hostqUrgentCfgHasReserve : Field := ⟨R.hostqUrgentCfg, 4, 1⟩
/-- HOSTQ_URGENT_CFG.SPILL_WAYS[10:8]. -/
def F.hostqUrgentCfgSpillWays : Field := ⟨R.hostqUrgentCfg, 8, 3⟩
/-- HOSTQ_URGENT_CFG.MAX_TILE_TIME_US[23:16]. -/
def F.hostqUrgentCfgMaxTileTimeUs : Field := ⟨R.hostqUrgentCfg, 16, 8⟩
/-- HOSTQ_URGENT_STATUS (spec/22 Table 22.4). -/
def R.hostqUrgentStatus : Nat := 0x060044
/-- HOSTQ_URGENT_STATUS.ASPM_L1[0:0]. -/
def F.hostqUrgentStatusAspmL1 : Field := ⟨R.hostqUrgentStatus, 0, 1⟩
/-- HOSTQ_URGENT_STATUS.SLOW_CLOCK[1:1]. -/
def F.hostqUrgentStatusSlowClock : Field := ⟨R.hostqUrgentStatus, 1, 1⟩
/-- HOSTQ_URGENT_STATUS.NO_CLASS0_HOSE[2:2]. -/
def F.hostqUrgentStatusNoClass0Hose : Field := ⟨R.hostqUrgentStatus, 2, 1⟩
/-- HOSTQ_URGENT_STATUS.PREEMPTED[7:4]. -/
def F.hostqUrgentStatusPreempted : Field := ⟨R.hostqUrgentStatus, 4, 4⟩
/-- HOSTQ_URGENT_LAST (spec/22 Table 22.4). -/
def R.hostqUrgentLast : Nat := 0x060048
/-- HOSTQ_URGENT_LAST.TO_START[15:0]. -/
def F.hostqUrgentLastToStart : Field := ⟨R.hostqUrgentLast, 0, 16⟩
/-- HOSTQ_URGENT_LAST.REASON[19:16]. -/
def F.hostqUrgentLastReason : Field := ⟨R.hostqUrgentLast, 16, 4⟩
/-- HOSTQ_URGENT_LAST.QUEUED[20:20]. -/
def F.hostqUrgentLastQueued : Field := ⟨R.hostqUrgentLast, 20, 1⟩
/-- HOSTQ_URGENT_LAST.SHADE[21:21]. -/
def F.hostqUrgentLastShade : Field := ⟨R.hostqUrgentLast, 21, 1⟩
/-- HOSTQ_URGENT_LAST.PREEMPTED[27:24]. -/
def F.hostqUrgentLastPreempted : Field := ⟨R.hostqUrgentLast, 24, 4⟩
/-- HOSTQ_URGENT_LAST_END (spec/22 Table 22.4). -/
def R.hostqUrgentLastEnd : Nat := 0x06004C
/-- HOSTQ_URGENT_LAST_END.TO_END[23:0]. -/
def F.hostqUrgentLastEndToEnd : Field := ⟨R.hostqUrgentLastEnd, 0, 24⟩
/-- HOSTQ_URGENT_MAX (spec/22 Table 22.4). -/
def R.hostqUrgentMax : Nat := 0x060050
/-- HOSTQ_URGENT_MAX.TO_START[15:0]. -/
def F.hostqUrgentMaxToStart : Field := ⟨R.hostqUrgentMax, 0, 16⟩
/-- HOSTQ_URGENT_COUNT (spec/22 Table 22.4). -/
def R.hostqUrgentCount : Nat := 0x060054
/-- HOSTQ_URGENT_COUNT.ORDERS[15:0]. -/
def F.hostqUrgentCountOrders : Field := ⟨R.hostqUrgentCount, 0, 16⟩
/-- HOSTQ_URGENT_COUNT.UNCOVERED[31:16]. -/
def F.hostqUrgentCountUncovered : Field := ⟨R.hostqUrgentCount, 16, 16⟩
/-- HOSTQ_FN (spec/08 Table 8.11). -/
def R.hostqFn (i : Nat) : Nat := 0x060100 + 4 * i
/-- HOSTQ_FN.ALLOT_BASE[5:0]. -/
def F.hostqFnAllotBase (i : Nat) : Field := ⟨(R.hostqFn i), 0, 6⟩
/-- HOSTQ_FN.ALLOT_COUNT[14:8]. -/
def F.hostqFnAllotCount (i : Nat) : Field := ⟨(R.hostqFn i), 8, 7⟩
/-- HOSTQ_RING_OWNER (spec/08 Table 8.11). -/
def R.hostqRingOwner (i : Nat) : Nat := 0x060200 + 4 * i
/-- HOSTQ_RING_OWNER.SQ_FN[2:0]. -/
def F.hostqRingOwnerSqFn (i : Nat) : Field := ⟨(R.hostqRingOwner i), 0, 3⟩
/-- HOSTQ_RING_OWNER.CQ_FN[10:8]. -/
def F.hostqRingOwnerCqFn (i : Nat) : Field := ⟨(R.hostqRingOwner i), 8, 3⟩
/-- SQ_BASE (spec/08 Table 8.13). -/
def R.sqBase (i : Nat) : Nat := 0x061000 + 32 * i
/-- SQ_CFG (spec/08 Table 8.13). -/
def R.sqCfg (i : Nat) : Nat := 0x061008 + 32 * i
/-- SQ_CFG.SIZE_LOG2[3:0]. -/
def F.sqCfgSizeLog2 (i : Nat) : Field := ⟨(R.sqCfg i), 0, 4⟩
/-- SQ_CFG.CQ[13:8]. -/
def F.sqCfgCq (i : Nat) : Field := ⟨(R.sqCfg i), 8, 6⟩
/-- SQ_CFG.ALLOT[21:16]. -/
def F.sqCfgAllot (i : Nat) : Field := ⟨(R.sqCfg i), 16, 6⟩
/-- SQ_CFG.WEIGHT[27:24]. -/
def F.sqCfgWeight (i : Nat) : Field := ⟨(R.sqCfg i), 24, 4⟩
/-- SQ_CFG.SPACE[28:28]. -/
def F.sqCfgSpace (i : Nat) : Field := ⟨(R.sqCfg i), 28, 1⟩
/-- SQ_CTRL (spec/08 Table 8.13). -/
def R.sqCtrl (i : Nat) : Nat := 0x06100C + 32 * i
/-- SQ_CTRL.ENABLE[0:0]. -/
def F.sqCtrlEnable (i : Nat) : Field := ⟨(R.sqCtrl i), 0, 1⟩
/-- SQ_STATUS (spec/08 Table 8.13). -/
def R.sqStatus (i : Nat) : Nat := 0x061010 + 32 * i
/-- SQ_STATUS.STATE[1:0]. -/
def F.sqStatusState (i : Nat) : Field := ⟨(R.sqStatus i), 0, 2⟩
/-- SQ_STATUS.HALT_REASON[7:4]. -/
def F.sqStatusHaltReason (i : Nat) : Field := ⟨(R.sqStatus i), 4, 4⟩
/-- SQ_STATUS.HEAD[31:16]. -/
def F.sqStatusHead (i : Nat) : Field := ⟨(R.sqStatus i), 16, 16⟩
/-- SQ_TAIL (spec/08 Table 8.13). -/
def R.sqTail (i : Nat) : Nat := 0x061014 + 32 * i
/-- SQ_TAIL.VALUE[15:0]. -/
def F.sqTailValue (i : Nat) : Field := ⟨(R.sqTail i), 0, 16⟩
/-- SQ_TAIL.DISCARDED[31:16]. -/
def F.sqTailDiscarded (i : Nat) : Field := ⟨(R.sqTail i), 16, 16⟩
/-- CQ_BASE (spec/08 Table 8.13). -/
def R.cqBase (i : Nat) : Nat := 0x062000 + 32 * i
/-- CQ_CFG (spec/08 Table 8.13). -/
def R.cqCfg (i : Nat) : Nat := 0x062008 + 32 * i
/-- CQ_CFG.SIZE_LOG2[3:0]. -/
def F.cqCfgSizeLog2 (i : Nat) : Field := ⟨(R.cqCfg i), 0, 4⟩
/-- CQ_CFG.VECTOR[13:8]. -/
def F.cqCfgVector (i : Nat) : Field := ⟨(R.cqCfg i), 8, 6⟩
/-- CQ_CFG.IEN[14:14]. -/
def F.cqCfgIen (i : Nat) : Field := ⟨(R.cqCfg i), 14, 1⟩
/-- CQ_CFG.SPACE[15:15]. -/
def F.cqCfgSpace (i : Nat) : Field := ⟨(R.cqCfg i), 15, 1⟩
/-- CQ_CFG.ALLOT[21:16]. -/
def F.cqCfgAllot (i : Nat) : Field := ⟨(R.cqCfg i), 16, 6⟩
/-- CQ_CFG.COUNT[27:24]. -/
def F.cqCfgCount (i : Nat) : Field := ⟨(R.cqCfg i), 24, 4⟩
/-- CQ_CFG.TIME[31:28]. -/
def F.cqCfgTime (i : Nat) : Field := ⟨(R.cqCfg i), 28, 4⟩
/-- CQ_CTRL (spec/08 Table 8.13). -/
def R.cqCtrl (i : Nat) : Nat := 0x06200C + 32 * i
/-- CQ_CTRL.ENABLE[0:0]. -/
def F.cqCtrlEnable (i : Nat) : Field := ⟨(R.cqCtrl i), 0, 1⟩
/-- CQ_STATUS (spec/08 Table 8.13). -/
def R.cqStatus (i : Nat) : Nat := 0x062010 + 32 * i
/-- CQ_STATUS.STATE[1:0]. -/
def F.cqStatusState (i : Nat) : Field := ⟨(R.cqStatus i), 0, 2⟩
/-- CQ_STATUS.PHASE[2:2]. -/
def F.cqStatusPhase (i : Nat) : Field := ⟨(R.cqStatus i), 2, 1⟩
/-- CQ_STATUS.HALT_REASON[7:4]. -/
def F.cqStatusHaltReason (i : Nat) : Field := ⟨(R.cqStatus i), 4, 4⟩
/-- CQ_STATUS.TAIL[31:16]. -/
def F.cqStatusTail (i : Nat) : Field := ⟨(R.cqStatus i), 16, 16⟩
/-- CQ_HEAD (spec/08 Table 8.13). -/
def R.cqHead (i : Nat) : Nat := 0x062014 + 32 * i
/-- CQ_HEAD.VALUE[15:0]. -/
def F.cqHeadValue (i : Nat) : Field := ⟨(R.cqHead i), 0, 16⟩
/-- CQ_HEAD.DISCARDED[31:16]. -/
def F.cqHeadDiscarded (i : Nat) : Field := ⟨(R.cqHead i), 16, 16⟩
/-- CQ_COUNT (spec/08 Table 8.13). -/
def R.cqCount (i : Nat) : Nat := 0x062018 + 32 * i
/-- CQ_COUNT.CQ_FULL[15:0]. -/
def F.cqCountCqFull (i : Nat) : Field := ⟨(R.cqCount i), 0, 16⟩
/-- CQ_COUNT.CQ_LOST[31:16]. -/
def F.cqCountCqLost (i : Nat) : Field := ⟨(R.cqCount i), 16, 16⟩
/-- MMU_INVAL (spec/11 Table 11.7). -/
def R.mmuInval : Nat := 0x070000
/-- MMU_INVAL.OP[1:0]. -/
def F.mmuInvalOp : Field := ⟨R.mmuInval, 0, 2⟩
/-- MMU_INVAL.ALLOT[13:8]. -/
def F.mmuInvalAllot : Field := ⟨R.mmuInval, 8, 6⟩
/-- MMU_INVAL.KEY[31:16]. -/
def F.mmuInvalKey : Field := ⟨R.mmuInval, 16, 16⟩
/-- MMU_INVAL_STATUS (spec/11 Table 11.7). -/
def R.mmuInvalStatus : Nat := 0x070004
/-- MMU_INVAL_STATUS.BUSY[0:0]. -/
def F.mmuInvalStatusBusy : Field := ⟨R.mmuInvalStatus, 0, 1⟩
/-- MMU_INVAL_STATUS.DONE[1:1]. -/
def F.mmuInvalStatusDone : Field := ⟨R.mmuInvalStatus, 1, 1⟩
/-- MMU_INVAL_STATUS.RESULT[10:8]. -/
def F.mmuInvalStatusResult : Field := ⟨R.mmuInvalStatus, 8, 3⟩
/-- MMU_INVAL_VA (spec/11 Table 11.6). -/
def R.mmuInvalVa : Nat := 0x070008
/-- MMU_INVAL_PAGES (spec/11 Table 11.6). -/
def R.mmuInvalPages : Nat := 0x070010
/-- MMU_INVAL_PAGES.PAGES[19:0]. -/
def F.mmuInvalPagesPages : Field := ⟨R.mmuInvalPages, 0, 20⟩
/-- MMU_WALKS (spec/11 Table 11.6). -/
def R.mmuWalks : Nat := 0x070020
/-- MMU_FAULTS (spec/11 Table 11.6). -/
def R.mmuFaults : Nat := 0x070024
/-- MMU_ALLOT_ROOT (spec/11 Table 11.8). -/
def R.mmuAllotRoot (i : Nat) : Nat := 0x070100 + 16 * i
/-- MMU_ALLOT_ROOT.EN[0:0]. -/
def F.mmuAllotRootEn (i : Nat) : Field := ⟨(R.mmuAllotRoot i), 0, 1⟩
/-- MMU_ALLOT_ROOT.ROOT_SPACE[1:1]. -/
def F.mmuAllotRootRootSpace (i : Nat) : Field := ⟨(R.mmuAllotRoot i), 1, 1⟩
/-- MMU_ALLOT_STAT (spec/11 Table 11.8). -/
def R.mmuAllotStat (i : Nat) : Nat := 0x070108 + 16 * i
/-- MMU_ALLOT_STAT.FAULTS[15:0]. -/
def F.mmuAllotStatFaults (i : Nat) : Field := ⟨(R.mmuAllotStat i), 0, 16⟩
/-- MMU_ALLOT_STAT.TIMEOUTS[31:16]. -/
def F.mmuAllotStatTimeouts (i : Nat) : Field := ⟨(R.mmuAllotStat i), 16, 16⟩
/-- MMU_FR_BASE (spec/11 Table 11.9). -/
def R.mmuFrBase (i : Nat) : Nat := 0x070800 + 32 * i
/-- MMU_FR_CFG (spec/11 Table 11.9). -/
def R.mmuFrCfg (i : Nat) : Nat := 0x070808 + 32 * i
/-- MMU_FR_CFG.SIZE_LOG2[3:0]. -/
def F.mmuFrCfgSizeLog2 (i : Nat) : Field := ⟨(R.mmuFrCfg i), 0, 4⟩
/-- MMU_FR_CFG.BATCH_MAX[15:8]. -/
def F.mmuFrCfgBatchMax (i : Nat) : Field := ⟨(R.mmuFrCfg i), 8, 8⟩
/-- MMU_FR_CFG.BATCH_TIME_US[25:16]. -/
def F.mmuFrCfgBatchTimeUs (i : Nat) : Field := ⟨(R.mmuFrCfg i), 16, 10⟩
/-- MMU_FR_CFG.ENABLE[31:31]. -/
def F.mmuFrCfgEnable (i : Nat) : Field := ⟨(R.mmuFrCfg i), 31, 1⟩
/-- MMU_FR_STATUS (spec/11 Table 11.9). -/
def R.mmuFrStatus (i : Nat) : Nat := 0x07080C + 32 * i
/-- MMU_FR_STATUS.FREE[11:0]. -/
def F.mmuFrStatusFree (i : Nat) : Field := ⟨(R.mmuFrStatus i), 0, 12⟩
/-- MMU_FR_STATUS.PHASE[12:12]. -/
def F.mmuFrStatusPhase (i : Nat) : Field := ⟨(R.mmuFrStatus i), 12, 1⟩
/-- MMU_FR_STATUS.RING_WAIT[13:13]. -/
def F.mmuFrStatusRingWait (i : Nat) : Field := ⟨(R.mmuFrStatus i), 13, 1⟩
/-- MMU_FR_STATUS.LAST_BATCH[31:16]. -/
def F.mmuFrStatusLastBatch (i : Nat) : Field := ⟨(R.mmuFrStatus i), 16, 16⟩
/-- MMU_FR_COUNT (spec/11 Table 11.9). -/
def R.mmuFrCount (i : Nat) : Nat := 0x070810 + 32 * i
/-- MMU_FR_COUNT.LATE[15:0]. -/
def F.mmuFrCountLate (i : Nat) : Field := ⟨(R.mmuFrCount i), 0, 16⟩
/-- MMU_FR_COUNT.UNREPORTED[31:16]. -/
def F.mmuFrCountUnreported (i : Nat) : Field := ⟨(R.mmuFrCount i), 16, 16⟩
/-- HOSE_CFG (spec/12 Table 12.8). -/
def R.hoseCfg (i : Nat) (j : Nat) : Nat := 0x080000 + 65536 * i + 256 * j
/-- HOSE_CFG.OWNER[1:0]. -/
def F.hoseCfgOwner (i : Nat) (j : Nat) : Field := ⟨(R.hoseCfg i j), 0, 2⟩
/-- HOSE_CFG.FN[6:4]. -/
def F.hoseCfgFn (i : Nat) (j : Nat) : Field := ⟨(R.hoseCfg i j), 4, 3⟩
/-- HOSE_CFG.UP_EN[8:8]. -/
def F.hoseCfgUpEn (i : Nat) (j : Nat) : Field := ⟨(R.hoseCfg i j), 8, 1⟩
/-- HOSE_CFG.UP_ENGINE[9:9]. -/
def F.hoseCfgUpEngine (i : Nat) (j : Nat) : Field := ⟨(R.hoseCfg i j), 9, 1⟩
/-- HOSE_CFG.UP_CHANNEL[15:12]. -/
def F.hoseCfgUpChannel (i : Nat) (j : Nat) : Field := ⟨(R.hoseCfg i j), 12, 4⟩
/-- HOSE_STATE (spec/12 Table 12.9). -/
def R.hoseState (i : Nat) (j : Nat) : Nat := 0x080004 + 65536 * i + 256 * j
/-- HOSE_STATE.STATE[2:0]. -/
def F.hoseStateState (i : Nat) (j : Nat) : Field := ⟨(R.hoseState i j), 0, 3⟩
/-- HOSE_STATE.QUEUED[6:4]. -/
def F.hoseStateQueued (i : Nat) (j : Nat) : Field := ⟨(R.hoseState i j), 4, 3⟩
/-- HOSE_STATE.CLASS[9:8]. -/
def F.hoseStateClass (i : Nat) (j : Nat) : Field := ⟨(R.hoseState i j), 8, 2⟩
/-- HOSE_STATE.LAST_STATUS[23:16]. -/
def F.hoseStateLastStatus (i : Nat) (j : Nat) : Field := ⟨(R.hoseState i j), 16, 8⟩
/-- HOSE_CURSOR (spec/12 Table 12.7). -/
def R.hoseCursor (i : Nat) (j : Nat) : Nat := 0x080008 + 65536 * i + 256 * j
/-- HOSE_STALL (spec/12 Table 12.7). -/
def R.hoseStall (i : Nat) (j : Nat) : Nat := 0x08000C + 65536 * i + 256 * j
/-- HOSE_RELEASE (spec/12 Table 12.7). -/
def R.hoseRelease (i : Nat) (j : Nat) : Nat := 0x080010 + 65536 * i + 256 * j
/-- HOSE_IN_CREDITS (spec/12 Table 12.7). -/
def R.hoseInCredits (i : Nat) (j : Nat) : Nat := 0x080014 + 65536 * i + 256 * j
/-- HOSE_ERR (spec/12 Table 12.7). -/
def R.hoseErr (i : Nat) (j : Nat) : Nat := 0x080018 + 65536 * i + 256 * j
/-- HOSE_ERR.OVER_RELEASE[15:0]. -/
def F.hoseErrOverRelease (i : Nat) (j : Nat) : Field := ⟨(R.hoseErr i j), 0, 16⟩
/-- HOSE_ERR.CFG_REFUSED[31:16]. -/
def F.hoseErrCfgRefused (i : Nat) (j : Nat) : Field := ⟨(R.hoseErr i j), 16, 16⟩
/-- HOSE_RELEASE_ADD (spec/12 Table 12.7). -/
def R.hoseReleaseAdd (i : Nat) (j : Nat) : Nat := 0x08001C + 65536 * i + 256 * j
/-- HOSE_RELEASE_ADD.ADD[15:0]. -/
def F.hoseReleaseAddAdd (i : Nat) (j : Nat) : Field := ⟨(R.hoseReleaseAdd i j), 0, 16⟩
/-- HOSE_BYTES (spec/12 Table 12.7). -/
def R.hoseBytes (i : Nat) : Nat := 0x081000 + 65536 * i
/-- SHED_CTRL (spec/10 Table 10.6). -/
def R.shedCtrl (i : Nat) : Nat := 0x0A0000 + 4096 * i
/-- SHED_CTRL.PREFETCH[0:0]. -/
def F.shedCtrlPrefetch (i : Nat) : Field := ⟨(R.shedCtrl i), 0, 1⟩
/-- SHED_STATUS (spec/10 Table 10.6). -/
def R.shedStatus (i : Nat) : Nat := 0x0A0004 + 4096 * i
/-- SHED_STATUS.LOCKED_WAYS[3:0]. -/
def F.shedStatusLockedWays (i : Nat) : Field := ⟨(R.shedStatus i), 0, 4⟩
/-- SHED_STATUS.SPILL_WAYS[6:4]. -/
def F.shedStatusSpillWays (i : Nat) : Field := ⟨(R.shedStatus i), 4, 3⟩
/-- SHED_STATUS.WRITE_THROUGH[8:8]. -/
def F.shedStatusWriteThrough (i : Nat) : Field := ⟨(R.shedStatus i), 8, 1⟩
/-- SHED_STATUS.DIRTY_LINES[31:16]. -/
def F.shedStatusDirtyLines (i : Nat) : Field := ⟨(R.shedStatus i), 16, 16⟩
/-- SHED_HITS (spec/10 Table 10.5). -/
def R.shedHits (i : Nat) : Nat := 0x0A0008 + 4096 * i
/-- SHED_MISSES (spec/10 Table 10.5). -/
def R.shedMisses (i : Nat) : Nat := 0x0A000C + 4096 * i
/-- SHED_PREFETCH (spec/10 Table 10.5). -/
def R.shedPrefetch (i : Nat) : Nat := 0x0A0010 + 4096 * i
/-- SHED_PREFETCH.ISSUED[15:0]. -/
def F.shedPrefetchIssued (i : Nat) : Field := ⟨(R.shedPrefetch i), 0, 16⟩
/-- SHED_PREFETCH.USED[31:16]. -/
def F.shedPrefetchUsed (i : Nat) : Field := ⟨(R.shedPrefetch i), 16, 16⟩
/-- SHED_KEY_CONFLICT (spec/10 Table 10.5). -/
def R.shedKeyConflict (i : Nat) : Nat := 0x0A0014 + 4096 * i
/-- SHED_LOST (spec/10 Table 10.5, R272). -/
def R.shedLost (i : Nat) : Nat := 0x0A0018 + 4096 * i
/-- SHED_LOCK (spec/10 Table 10.7). -/
def R.shedLock (i : Nat) (j : Nat) : Nat := 0x0A0100 + 4096 * i + 16 * j
/-- SHED_LOCK.PAGES[79:64]. -/
def F.shedLockPages (i : Nat) (j : Nat) : Field := ⟨(R.shedLock i j + 8), 0, 16⟩
/-- SHED_LOCK.WAYS[83:80]. -/
def F.shedLockWays (i : Nat) (j : Nat) : Field := ⟨(R.shedLock i j + 8), 16, 4⟩
/-- SHED_LOCK.KEY_SEL[87:84]. -/
def F.shedLockKeySel (i : Nat) (j : Nat) : Field := ⟨(R.shedLock i j + 8), 20, 4⟩
/-- SHED_LOCK.FIRST_WAY[91:88]. -/
def F.shedLockFirstWay (i : Nat) (j : Nat) : Field := ⟨(R.shedLock i j + 8), 24, 4⟩
/-- SHED_LOCK.STATE[97:96]. -/
def F.shedLockState (i : Nat) (j : Nat) : Field := ⟨(R.shedLock i j + 12), 0, 2⟩
/-- SHED_LOCK.EMPTY[127:112]. -/
def F.shedLockEmpty (i : Nat) (j : Nat) : Field := ⟨(R.shedLock i j + 12), 16, 16⟩
/-- SHED_CMD (spec/10 Table 10.8). -/
def R.shedCmd : Nat := 0x0A4000
/-- SHED_CMD.OP[1:0]. -/
def F.shedCmdOp : Field := ⟨R.shedCmd, 0, 2⟩
/-- SHED_CMD.SLICE[5:4]. -/
def F.shedCmdSlice : Field := ⟨R.shedCmd, 4, 2⟩
/-- SHED_CMD.ENTRY[11:8]. -/
def F.shedCmdEntry : Field := ⟨R.shedCmd, 8, 4⟩
/-- SHED_CMD.KEY[31:16]. -/
def F.shedCmdKey : Field := ⟨R.shedCmd, 16, 16⟩
/-- SHED_CMD_STATUS (spec/10 Table 10.8). -/
def R.shedCmdStatus : Nat := 0x0A4004
/-- SHED_CMD_STATUS.BUSY[0:0]. -/
def F.shedCmdStatusBusy : Field := ⟨R.shedCmdStatus, 0, 1⟩
/-- SHED_CMD_STATUS.DONE[1:1]. -/
def F.shedCmdStatusDone : Field := ⟨R.shedCmdStatus, 1, 1⟩
/-- SHED_CMD_STATUS.RESULT[10:8]. -/
def F.shedCmdStatusResult : Field := ⟨R.shedCmdStatus, 8, 3⟩
/-- MEMC_CFG (spec/10 Table 10.6). -/
def R.memcCfg (i : Nat) : Nat := 0x0B0000 + 256 * i
/-- MEMC_CFG.RATE[3:0]. -/
def F.memcCfgRate (i : Nat) : Field := ⟨(R.memcCfg i), 0, 4⟩
/-- MEMC_CFG.ECC[4:4]. -/
def F.memcCfgEcc (i : Nat) : Field := ⟨(R.memcCfg i), 4, 1⟩
/-- MEMC_CFG.RANKS[6:5]. -/
def F.memcCfgRanks (i : Nat) : Field := ⟨(R.memcCfg i), 5, 2⟩
/-- MEMC_CFG.CAP_GIB[12:8]. -/
def F.memcCfgCapGib (i : Nat) : Field := ⟨(R.memcCfg i), 8, 5⟩
/-- MEMC_CFG.STATE[17:16]. -/
def F.memcCfgState (i : Nat) : Field := ⟨(R.memcCfg i), 16, 2⟩
/-- MEMC_CFG.REFRESH_X2[18:18]. -/
def F.memcCfgRefreshX2 (i : Nat) : Field := ⟨(R.memcCfg i), 18, 1⟩
/-- MEMC_ECC (spec/10 Table 10.5). -/
def R.memcEcc (i : Nat) : Nat := 0x0B0004 + 256 * i
/-- MEMC_ECC.CORRECTED[15:0]. -/
def F.memcEccCorrected (i : Nat) : Field := ⟨(R.memcEcc i), 0, 16⟩
/-- MEMC_ECC.UNCORRECTABLE[31:16]. -/
def F.memcEccUncorrectable (i : Nat) : Field := ⟨(R.memcEcc i), 16, 16⟩
/-- MEMC_ECC_ADDR (spec/10 Table 10.5). -/
def R.memcEccAddr (i : Nat) : Nat := 0x0B0008 + 256 * i
/-- MEMC_BYTES (spec/10 Table 10.5). -/
def R.memcBytes (i : Nat) (j : Nat) : Nat := 0x0B0010 + 256 * i + 4 * j
/-- MEMC_QOS (spec/10 Table 10.5). -/
def R.memcQos (i : Nat) : Nat := 0x0B001C + 256 * i
/-- MEMC_QOS.CAP_HITS[15:0]. -/
def F.memcQosCapHits (i : Nat) : Field := ⟨(R.memcQos i), 0, 16⟩
/-- MEMC_DENIED (spec/10 Table 10.5). -/
def R.memcDenied (i : Nat) : Nat := 0x0B0020 + 256 * i
/-- MEMC_USABLE (spec/10 Table 10.5). -/
def R.memcUsable : Nat := 0x0B0200
/-- MEMC_PKT (spec/10 Table 10.5). -/
def R.memcPkt : Nat := 0x0B0208
/-- MEMC_PKT.PKT_MIB[8:0]. -/
def F.memcPktPktMib : Field := ⟨R.memcPkt, 0, 9⟩
/-- MEMC_QOS_CFG (spec/10 Table 10.5). -/
def R.memcQosCfg : Nat := 0x0B020C
/-- MEMC_QOS_CFG.CLASS0_CAP[7:0]. -/
def F.memcQosCfgClass0Cap : Field := ⟨R.memcQosCfg, 0, 8⟩
/-- MEMC_QOS_CFG.CLASS2_MIN[15:8]. -/
def F.memcQosCfgClass2Min : Field := ⟨R.memcQosCfg, 8, 8⟩
/-- RAKE_STATUS (spec/17 Table 17.10). -/
def R.rakeStatus : Nat := 0x0C0000
/-- RAKE_STATUS.PHASE[1:0]. -/
def F.rakeStatusPhase : Field := ⟨R.rakeStatus, 0, 2⟩
/-- RAKE_STATUS.JOBS[7:4]. -/
def F.rakeStatusJobs : Field := ⟨R.rakeStatus, 4, 4⟩
/-- RAKE_NEXT_RESOLVE (spec/17 Table 17.10). -/
def R.rakeNextResolve : Nat := 0x0C0004
/-- RAKE_ENTRIES (spec/17 Table 17.10). -/
def R.rakeEntries : Nat := 0x0C0008
/-- RAKE_REJECT_0 (spec/17 Table 17.10). -/
def R.rakeReject0 : Nat := 0x0C000C
/-- RAKE_REJECT_0.CULLED[15:0]. -/
def F.rakeReject0Culled : Field := ⟨R.rakeReject0, 0, 16⟩
/-- RAKE_REJECT_0.SCORE_CLASS[31:16]. -/
def F.rakeReject0ScoreClass : Field := ⟨R.rakeReject0, 16, 16⟩
/-- RAKE_REJECT_1 (spec/17 Table 17.10). -/
def R.rakeReject1 : Nat := 0x0C0010
/-- RAKE_REJECT_1.NO_HOMOG[15:0]. -/
def F.rakeReject1NoHomog : Field := ⟨R.rakeReject1, 0, 16⟩
/-- RAKE_REJECT_1.BEHIND[31:16]. -/
def F.rakeReject1Behind : Field := ⟨R.rakeReject1, 16, 16⟩
/-- RAKE_REJECT_2 (spec/17 Table 17.10). -/
def R.rakeReject2 : Nat := 0x0C0014
/-- RAKE_REJECT_2.OUTSIDE[15:0]. -/
def F.rakeReject2Outside : Field := ⟨R.rakeReject2, 0, 16⟩
/-- INTAKE_MAC (spec/18 Table 18.11). -/
def R.intakeMac : Nat := 0x0D0000
/-- INTAKE_IP4 (spec/18 Table 18.11). -/
def R.intakeIp4 : Nat := 0x0D0008
/-- INTAKE_SW_CFG (spec/18 Table 18.11). -/
def R.intakeSwCfg : Nat := 0x0D0010
/-- INTAKE_SW_CFG.AGE_S[15:0]. -/
def F.intakeSwCfgAgeS : Field := ⟨R.intakeSwCfg, 0, 16⟩
/-- INTAKE_MAC_FULL (spec/18 Table 18.11). -/
def R.intakeMacFull : Nat := 0x0D0014
/-- INTAKE_PORT_CFG (spec/18 Table 18.11). -/
def R.intakePortCfg (i : Nat) : Nat := 0x0D0100 + 64 * i
/-- INTAKE_PORT_CFG.MODE[2:0]. -/
def F.intakePortCfgMode (i : Nat) : Field := ⟨(R.intakePortCfg i), 0, 3⟩
/-- INTAKE_PORT_CFG.AN[3:3]. -/
def F.intakePortCfgAn (i : Nat) : Field := ⟨(R.intakePortCfg i), 3, 1⟩
/-- INTAKE_PORT_CFG.PVID[27:16]. -/
def F.intakePortCfgPvid (i : Nat) : Field := ⟨(R.intakePortCfg i), 16, 12⟩
/-- INTAKE_PORT_STATUS (spec/18 Table 18.11). -/
def R.intakePortStatus (i : Nat) : Nat := 0x0D0104 + 64 * i
/-- INTAKE_PORT_STATUS.LINK[3:0]. -/
def F.intakePortStatusLink (i : Nat) : Field := ⟨(R.intakePortStatus i), 0, 4⟩
/-- INTAKE_PORT_COUNT (spec/18 Table 18.11). -/
def R.intakePortCount (i : Nat) (j : Nat) : Nat := 0x0D0108 + 64 * i + 4 * j
/-- INTAKE_CBS (spec/18 Table 18.11). -/
def R.intakeCbs (i : Nat) : Nat := 0x0D0300 + 4 * i
/-- INTAKE_CBS.IDLE_MBPS[15:0]. -/
def F.intakeCbsIdleMbps (i : Nat) : Field := ⟨(R.intakeCbs i), 0, 16⟩
/-- INTAKE_CBS.EN[31:31]. -/
def F.intakeCbsEn (i : Nat) : Field := ⟨(R.intakeCbs i), 31, 1⟩
/-- INTAKE_VLAN (spec/18 Table 18.11). -/
def R.intakeVlan (i : Nat) : Nat := 0x0D0400 + 4 * i
/-- INTAKE_VLAN.VID[11:0]. -/
def F.intakeVlanVid (i : Nat) : Field := ⟨(R.intakeVlan i), 0, 12⟩
/-- INTAKE_VLAN.MEMBER[21:16]. -/
def F.intakeVlanMember (i : Nat) : Field := ⟨(R.intakeVlan i), 16, 6⟩
/-- INTAKE_VLAN.UNTAG[29:24]. -/
def F.intakeVlanUntag (i : Nat) : Field := ⟨(R.intakeVlan i), 24, 6⟩
/-- INTAKE_VLAN.VALID[31:31]. -/
def F.intakeVlanValid (i : Nat) : Field := ⟨(R.intakeVlan i), 31, 1⟩
/-- INTAKE_TIME_NOW (spec/18 Table 18.11). -/
def R.intakeTimeNow : Nat := 0x0D0800
/-- INTAKE_TIME_CFG (spec/18 Table 18.11). -/
def R.intakeTimeCfg : Nat := 0x0D0808
/-- INTAKE_TIME_CFG.UTC_OFFSET[7:0]. -/
def F.intakeTimeCfgUtcOffset : Field := ⟨R.intakeTimeCfg, 0, 8⟩
/-- INTAKE_TIME_CFG.PTP_PORT[10:8]. -/
def F.intakeTimeCfgPtpPort : Field := ⟨R.intakeTimeCfg, 8, 3⟩
/-- INTAKE_TIME_STATUS (spec/18 Table 18.11). -/
def R.intakeTimeStatus : Nat := 0x0D080C
/-- INTAKE_TIME_STATUS.STATE[1:0]. -/
def F.intakeTimeStatusState : Field := ⟨R.intakeTimeStatus, 0, 2⟩
/-- INTAKE_TIME_STATUS.OFFSET_NS[31:16]. -/
def F.intakeTimeStatusOffsetNs : Field := ⟨R.intakeTimeStatus, 16, 16⟩
/-- INTAKE_VNIC_RX_BASE (spec/18 Table 18.11). -/
def R.intakeVnicRxBase : Nat := 0x0D0900
/-- INTAKE_VNIC_TX_BASE (spec/18 Table 18.11). -/
def R.intakeVnicTxBase : Nat := 0x0D0908
/-- INTAKE_VNIC_CFG (spec/18 Table 18.11). -/
def R.intakeVnicCfg : Nat := 0x0D0910
/-- INTAKE_VNIC_CFG.SIZE_LOG2[3:0]. -/
def F.intakeVnicCfgSizeLog2 : Field := ⟨R.intakeVnicCfg, 0, 4⟩
/-- INTAKE_VNIC_CFG.VECTOR[13:8]. -/
def F.intakeVnicCfgVector : Field := ⟨R.intakeVnicCfg, 8, 6⟩
/-- INTAKE_VNIC_CFG.EN[31:31]. -/
def F.intakeVnicCfgEn : Field := ⟨R.intakeVnicCfg, 31, 1⟩
/-- INTAKE_VNIC_RX_TAIL (spec/18 Table 18.11). -/
def R.intakeVnicRxTail : Nat := 0x0D0914
/-- INTAKE_VNIC_RX_TAIL.TAIL[15:0]. -/
def F.intakeVnicRxTailTail : Field := ⟨R.intakeVnicRxTail, 0, 16⟩
/-- INTAKE_VNIC_TX_TAIL (spec/18 Table 18.11). -/
def R.intakeVnicTxTail : Nat := 0x0D0918
/-- INTAKE_VNIC_TX_TAIL.TAIL[15:0]. -/
def F.intakeVnicTxTailTail : Field := ⟨R.intakeVnicTxTail, 0, 16⟩
/-- INTAKE_VNIC_DROP (spec/18 Table 18.11). -/
def R.intakeVnicDrop : Nat := 0x0D091C
/-- INTAKE_PKT_HEAD (spec/18 Table 18.11). -/
def R.intakePktHead : Nat := 0x0D0A00
/-- INTAKE_PKT_HEAD.OFFSET[31:0]. -/
def F.intakePktHeadOffset : Field := ⟨R.intakePktHead, 0, 32⟩
/-- INTAKE_PKT_HEAD.COUNT[63:32]. -/
def F.intakePktHeadCount : Field := ⟨(R.intakePktHead + 4), 0, 32⟩
/-- INTAKE_EVENT_SLOTS (spec/18 Table 18.11). -/
def R.intakeEventSlots : Nat := 0x0D0A10
/-- INTAKE_EVENT_GROUPS (spec/18 Table 18.11). -/
def R.intakeEventGroups : Nat := 0x0D0A18
/-- INTAKE_EVENT_GROUPS.MASK[7:0]. -/
def F.intakeEventGroupsMask : Field := ⟨R.intakeEventGroups, 0, 8⟩
/-- INTAKE_SLOT_CFG (spec/18 Table 18.12). -/
def R.intakeSlotCfg (i : Nat) : Nat := 0x0D4000 + 256 * i
/-- INTAKE_SLOT_CFG.RUN[0:0]. -/
def F.intakeSlotCfgRun (i : Nat) : Field := ⟨(R.intakeSlotCfg i), 0, 1⟩
/-- INTAKE_SLOT_CFG.SOURCE[1:1]. -/
def F.intakeSlotCfgSource (i : Nat) : Field := ⟨(R.intakeSlotCfg i), 1, 1⟩
/-- INTAKE_SLOT_CFG.IPV6[2:2]. -/
def F.intakeSlotCfgIpv6 (i : Nat) : Field := ⟨(R.intakeSlotCfg i), 2, 1⟩
/-- INTAKE_SLOT_CFG.LOSS[3:3]. -/
def F.intakeSlotCfgLoss (i : Nat) : Field := ⟨(R.intakeSlotCfg i), 3, 1⟩
/-- INTAKE_SLOT_CFG.TENBIT[4:4]. -/
def F.intakeSlotCfgTenbit (i : Nat) : Field := ⟨(R.intakeSlotCfg i), 4, 1⟩
/-- INTAKE_SLOT_CFG.RING_MODE[5:5]. -/
def F.intakeSlotCfgRingMode (i : Nat) : Field := ⟨(R.intakeSlotCfg i), 5, 1⟩
/-- INTAKE_SLOT_CFG.PT[14:8]. -/
def F.intakeSlotCfgPt (i : Nat) : Field := ⟨(R.intakeSlotCfg i), 8, 7⟩
/-- INTAKE_SLOT_CFG.VID[27:16]. -/
def F.intakeSlotCfgVid (i : Nat) : Field := ⟨(R.intakeSlotCfg i), 16, 12⟩
/-- INTAKE_SLOT_STATE (spec/18 Table 18.12). -/
def R.intakeSlotState (i : Nat) : Nat := 0x0D4004 + 256 * i
/-- INTAKE_SLOT_STATE.STATE[2:0]. -/
def F.intakeSlotStateState (i : Nat) : Field := ⟨(R.intakeSlotState i), 0, 3⟩
/-- INTAKE_SLOT_STATE.KEYED[3:3]. -/
def F.intakeSlotStateKeyed (i : Nat) : Field := ⟨(R.intakeSlotState i), 3, 1⟩
/-- INTAKE_SLOT_STATE.RESULT[7:4]. -/
def F.intakeSlotStateResult (i : Nat) : Field := ⟨(R.intakeSlotState i), 4, 4⟩
/-- INTAKE_SLOT_STATE.ERROR_STATUS[15:8]. -/
def F.intakeSlotStateErrorStatus (i : Nat) : Field := ⟨(R.intakeSlotState i), 8, 8⟩
/-- INTAKE_SLOT_STATE.DETAIL[23:16]. -/
def F.intakeSlotStateDetail (i : Nat) : Field := ⟨(R.intakeSlotState i), 16, 8⟩
/-- INTAKE_MATCH_PORTS (spec/18 Table 18.11). -/
def R.intakeMatchPorts (i : Nat) : Nat := 0x0D4008 + 256 * i
/-- INTAKE_MATCH_PORTS.SRC_UDP[15:0]. -/
def F.intakeMatchPortsSrcUdp (i : Nat) : Field := ⟨(R.intakeMatchPorts i), 0, 16⟩
/-- INTAKE_MATCH_PORTS.DST_UDP[31:16]. -/
def F.intakeMatchPortsDstUdp (i : Nat) : Field := ⟨(R.intakeMatchPorts i), 16, 16⟩
/-- INTAKE_MATCH_RTCP (spec/18 Table 18.11). -/
def R.intakeMatchRtcp (i : Nat) : Nat := 0x0D400C + 256 * i
/-- INTAKE_MATCH_RTCP.RTCP_DST[15:0]. -/
def F.intakeMatchRtcpRtcpDst (i : Nat) : Field := ⟨(R.intakeMatchRtcp i), 0, 16⟩
/-- INTAKE_MATCH_RTCP.RTCP_SRC[31:16]. -/
def F.intakeMatchRtcpRtcpSrc (i : Nat) : Field := ⟨(R.intakeMatchRtcp i), 16, 16⟩
/-- INTAKE_MATCH_SRC_IP (spec/18 Table 18.11). -/
def R.intakeMatchSrcIp (i : Nat) (j : Nat) : Nat := 0x0D4010 + 256 * i + 4 * j
/-- INTAKE_MATCH_DST_IP (spec/18 Table 18.11). -/
def R.intakeMatchDstIp (i : Nat) (j : Nat) : Nat := 0x0D4020 + 256 * i + 4 * j
/-- INTAKE_ALLOT (spec/18 Table 18.11). -/
def R.intakeAllot (i : Nat) : Nat := 0x0D4030 + 256 * i
/-- INTAKE_ALLOT.ALLOT[5:0]. -/
def F.intakeAllotAllot (i : Nat) : Field := ⟨(R.intakeAllot i), 0, 6⟩
/-- INTAKE_CPB_VA (spec/18 Table 18.11). -/
def R.intakeCpbVa (i : Nat) : Nat := 0x0D4038 + 256 * i
/-- INTAKE_CPB_KIB (spec/18 Table 18.11). -/
def R.intakeCpbKib (i : Nat) : Nat := 0x0D4040 + 256 * i
/-- INTAKE_DPB_VA (spec/18 Table 18.11). -/
def R.intakeDpbVa (i : Nat) : Nat := 0x0D4048 + 256 * i
/-- INTAKE_DPB_KIB (spec/18 Table 18.11). -/
def R.intakeDpbKib (i : Nat) : Nat := 0x0D4050 + 256 * i
/-- INTAKE_FEED_BASE (spec/18 Table 18.11). -/
def R.intakeFeedBase (i : Nat) : Nat := 0x0D4058 + 256 * i
/-- INTAKE_FEED_SIZE (spec/18 Table 18.11). -/
def R.intakeFeedSize (i : Nat) : Nat := 0x0D4060 + 256 * i
/-- INTAKE_FEED_SIZE.SIZE_LOG2[3:0]. -/
def F.intakeFeedSizeSizeLog2 (i : Nat) : Field := ⟨(R.intakeFeedSize i), 0, 4⟩
/-- INTAKE_FEED_TAIL (spec/18 Table 18.11). -/
def R.intakeFeedTail (i : Nat) : Nat := 0x0D4064 + 256 * i
/-- INTAKE_FEED_TAIL.TAIL[15:0]. -/
def F.intakeFeedTailTail (i : Nat) : Field := ⟨(R.intakeFeedTail i), 0, 16⟩
/-- INTAKE_FEED_HEAD (spec/18 Table 18.11). -/
def R.intakeFeedHead (i : Nat) : Nat := 0x0D4068 + 256 * i
/-- INTAKE_FEED_HEAD.HEAD[15:0]. -/
def F.intakeFeedHeadHead (i : Nat) : Field := ⟨(R.intakeFeedHead i), 0, 16⟩
/-- INTAKE_KEY (spec/18 Table 18.11). -/
def R.intakeKey (i : Nat) (j : Nat) : Nat := 0x0D4070 + 256 * i + 4 * j
/-- INTAKE_ROC (spec/18 Table 18.11). -/
def R.intakeRoc (i : Nat) : Nat := 0x0D4090 + 256 * i
/-- INTAKE_SSRC (spec/18 Table 18.11). -/
def R.intakeSsrc (i : Nat) : Nat := 0x0D4094 + 256 * i
/-- INTAKE_SLOT_COUNT (spec/18 Table 18.11). -/
def R.intakeSlotCount (i : Nat) (j : Nat) : Nat := 0x0D4098 + 256 * i + 4 * j
/-- DECODE_REC_VA (spec/18 Table 18.13). -/
def R.decodeRecVa (i : Nat) : Nat := 0x0E0000 + 512 * i
/-- DECODE_NOTIFY_VA (spec/18 Table 18.13). -/
def R.decodeNotifyVa (i : Nat) : Nat := 0x0E0008 + 512 * i
/-- DECODE_WRITTEN (spec/18 Table 18.13). -/
def R.decodeWritten (i : Nat) : Nat := 0x0E0010 + 512 * i
/-- DECODE_RELEASED (spec/18 Table 18.13). -/
def R.decodeReleased (i : Nat) : Nat := 0x0E0014 + 512 * i
/-- DECODE_RELEASE_ADD (spec/18 Table 18.13). -/
def R.decodeReleaseAdd (i : Nat) : Nat := 0x0E0018 + 512 * i
/-- DECODE_RELEASE_ADD.ADD[15:0]. -/
def F.decodeReleaseAddAdd (i : Nat) : Field := ⟨(R.decodeReleaseAdd i), 0, 16⟩
/-- DECODE_FRAMES (spec/18 Table 18.13). -/
def R.decodeFrames (i : Nat) : Nat := 0x0E001C + 512 * i
/-- DECODE_DROPPED (spec/18 Table 18.13). -/
def R.decodeDropped (i : Nat) : Nat := 0x0E0020 + 512 * i
/-- DECODE_DROPPED.RING[15:0]. -/
def F.decodeDroppedRing (i : Nat) : Field := ⟨(R.decodeDropped i), 0, 16⟩
/-- DECODE_DROPPED.SKIPS[31:16]. -/
def F.decodeDroppedSkips (i : Nat) : Field := ⟨(R.decodeDropped i), 16, 16⟩
/-- DECODE_PICTURE (spec/18 Table 18.13). -/
def R.decodePicture (i : Nat) : Nat := 0x0E0024 + 512 * i
/-- DECODE_PICTURE.WIDTH[15:0]. -/
def F.decodePictureWidth (i : Nat) : Field := ⟨(R.decodePicture i), 0, 16⟩
/-- DECODE_PICTURE.HEIGHT[31:16]. -/
def F.decodePictureHeight (i : Nat) : Field := ⟨(R.decodePicture i), 16, 16⟩
/-- DECODE_OUT_CFG (spec/18 Table 18.13). -/
def R.decodeOutCfg (i : Nat) (j : Nat) : Nat := 0x0E0080 + 512 * i + 64 * j
/-- DECODE_OUT_CFG.EN[0:0]. -/
def F.decodeOutCfgEn (i : Nat) (j : Nat) : Field := ⟨(R.decodeOutCfg i j), 0, 1⟩
/-- DECODE_OUT_CFG.FORMAT[6:4]. -/
def F.decodeOutCfgFormat (i : Nat) (j : Nat) : Field := ⟨(R.decodeOutCfg i j), 4, 3⟩
/-- DECODE_OUT_CFG.DEST[8:8]. -/
def F.decodeOutCfgDest (i : Nat) (j : Nat) : Field := ⟨(R.decodeOutCfg i j), 8, 1⟩
/-- DECODE_OUT_CFG.GROUP[14:12]. -/
def F.decodeOutCfgGroup (i : Nat) (j : Nat) : Field := ⟨(R.decodeOutCfg i j), 12, 3⟩
/-- DECODE_OUT_CROP_XY (spec/18 Table 18.13). -/
def R.decodeOutCropXy (i : Nat) (j : Nat) : Nat := 0x0E0084 + 512 * i + 64 * j
/-- DECODE_OUT_CROP_XY.X[15:0]. -/
def F.decodeOutCropXyX (i : Nat) (j : Nat) : Field := ⟨(R.decodeOutCropXy i j), 0, 16⟩
/-- DECODE_OUT_CROP_XY.Y[31:16]. -/
def F.decodeOutCropXyY (i : Nat) (j : Nat) : Field := ⟨(R.decodeOutCropXy i j), 16, 16⟩
/-- DECODE_OUT_CROP_WH (spec/18 Table 18.13). -/
def R.decodeOutCropWh (i : Nat) (j : Nat) : Nat := 0x0E0088 + 512 * i + 64 * j
/-- DECODE_OUT_CROP_WH.W[15:0]. -/
def F.decodeOutCropWhW (i : Nat) (j : Nat) : Field := ⟨(R.decodeOutCropWh i j), 0, 16⟩
/-- DECODE_OUT_CROP_WH.H[31:16]. -/
def F.decodeOutCropWhH (i : Nat) (j : Nat) : Field := ⟨(R.decodeOutCropWh i j), 16, 16⟩
/-- DECODE_OUT_SIZE (spec/18 Table 18.13). -/
def R.decodeOutSize (i : Nat) (j : Nat) : Nat := 0x0E008C + 512 * i + 64 * j
/-- DECODE_OUT_SIZE.W[15:0]. -/
def F.decodeOutSizeW (i : Nat) (j : Nat) : Field := ⟨(R.decodeOutSize i j), 0, 16⟩
/-- DECODE_OUT_SIZE.H[31:16]. -/
def F.decodeOutSizeH (i : Nat) (j : Nat) : Field := ⟨(R.decodeOutSize i j), 16, 16⟩
/-- DECODE_OUT_BASE (spec/18 Table 18.13). -/
def R.decodeOutBase (i : Nat) (j : Nat) : Nat := 0x0E0090 + 512 * i + 64 * j
/-- DECODE_OUT_PITCH (spec/18 Table 18.13). -/
def R.decodeOutPitch (i : Nat) (j : Nat) : Nat := 0x0E0098 + 512 * i + 64 * j
/-- DECODE_OUT_PLANE (spec/18 Table 18.13). -/
def R.decodeOutPlane (i : Nat) (j : Nat) : Nat := 0x0E009C + 512 * i + 64 * j
/-- DECODE_OUT_STRIDE (spec/18 Table 18.13). -/
def R.decodeOutStride (i : Nat) (j : Nat) : Nat := 0x0E00A0 + 512 * i + 64 * j
/-- DECODE_GROUP_CFG (spec/18 Table 18.13). -/
def R.decodeGroupCfg (i : Nat) : Nat := 0x0E8000 + 64 * i
/-- DECODE_GROUP_CFG.EN[0:0]. -/
def F.decodeGroupCfgEn (i : Nat) : Field := ⟨(R.decodeGroupCfg i), 0, 1⟩
/-- DECODE_GROUP_CFG.STATE[2:1]. -/
def F.decodeGroupCfgState (i : Nat) : Field := ⟨(R.decodeGroupCfg i), 1, 2⟩
/-- DECODE_GROUP_CFG.ALLOT[13:8]. -/
def F.decodeGroupCfgAllot (i : Nat) : Field := ⟨(R.decodeGroupCfg i), 8, 6⟩
/-- DECODE_GROUP_CFG.BANDS[23:16]. -/
def F.decodeGroupCfgBands (i : Nat) : Field := ⟨(R.decodeGroupCfg i), 16, 8⟩
/-- DECODE_GROUP_CFG.FORMAT[26:24]. -/
def F.decodeGroupCfgFormat (i : Nat) : Field := ⟨(R.decodeGroupCfg i), 24, 3⟩
/-- DECODE_GROUP_SIZE (spec/18 Table 18.13). -/
def R.decodeGroupSize (i : Nat) : Nat := 0x0E8004 + 64 * i
/-- DECODE_GROUP_SIZE.OUT_W[15:0]. -/
def F.decodeGroupSizeOutW (i : Nat) : Field := ⟨(R.decodeGroupSize i), 0, 16⟩
/-- DECODE_GROUP_SIZE.OUT_H[31:16]. -/
def F.decodeGroupSizeOutH (i : Nat) : Field := ⟨(R.decodeGroupSize i), 16, 16⟩
/-- DECODE_GROUP_STAGE_VA (spec/18 Table 18.13). -/
def R.decodeGroupStageVa (i : Nat) : Nat := 0x0E8008 + 64 * i
/-- DECODE_GROUP_DST_VA (spec/18 Table 18.13). -/
def R.decodeGroupDstVa (i : Nat) : Nat := 0x0E8010 + 64 * i
/-- DECODE_GROUP_ROW_STRIDE (spec/18 Table 18.13). -/
def R.decodeGroupRowStride (i : Nat) : Nat := 0x0E8018 + 64 * i
/-- DECODE_GROUP_PLANE_STRIDE (spec/18 Table 18.13). -/
def R.decodeGroupPlaneStride (i : Nat) : Nat := 0x0E801C + 64 * i
/-- DECODE_GROUP_SLAB_STRIDE (spec/18 Table 18.13). -/
def R.decodeGroupSlabStride (i : Nat) : Nat := 0x0E8020 + 64 * i
/-- DECODE_GROUP_RING_SLABS (spec/18 Table 18.13). -/
def R.decodeGroupRingSlabs (i : Nat) : Nat := 0x0E8024 + 64 * i
/-- DECODE_GROUP_RING_SLABS.COUNT[15:0]. -/
def F.decodeGroupRingSlabsCount (i : Nat) : Field := ⟨(R.decodeGroupRingSlabs i), 0, 16⟩
/-- DECODE_GROUP_CREDIT (spec/18 Table 18.13). -/
def R.decodeGroupCredit (i : Nat) : Nat := 0x0E8028 + 64 * i
/-- DECODE_GROUP_CREDIT.MODE[1:0]. -/
def F.decodeGroupCreditMode (i : Nat) : Field := ⟨(R.decodeGroupCredit i), 0, 2⟩
/-- DECODE_GROUP_SLABS (spec/18 Table 18.13). -/
def R.decodeGroupSlabs (i : Nat) : Nat := 0x0E8038 + 64 * i
/-- DECODE_ENG_LOAD (spec/18 Table 18.13). -/
def R.decodeEngLoad (i : Nat) : Nat := 0x0EA000 + 64 * i
/-- FURROW_STATUS (spec/19 Table 19.9). -/
def R.furrowStatus : Nat := 0x0F0000
/-- FURROW_STATUS.BUSY[0:0]. -/
def F.furrowStatusBusy : Field := ⟨R.furrowStatus, 0, 1⟩
/-- FURROW_STATUS.QUEUED[3:1]. -/
def F.furrowStatusQueued : Field := ⟨R.furrowStatus, 1, 3⟩
/-- FURROW_STATUS.OP[4:4]. -/
def F.furrowStatusOp : Field := ⟨R.furrowStatus, 4, 1⟩
/-- FURROW_RAW_TOTAL (spec/19 Table 19.9). -/
def R.furrowRawTotal : Nat := 0x0F0008
/-- FURROW_CODED_TOTAL (spec/19 Table 19.9). -/
def R.furrowCodedTotal : Nat := 0x0F0010
/-- FURROW_JOBS (spec/19 Table 19.9). -/
def R.furrowJobs : Nat := 0x0F0018
/-- FURROW_JOBS.OK[15:0]. -/
def F.furrowJobsOk : Field := ⟨R.furrowJobs, 0, 16⟩
/-- FURROW_JOBS.OTHER[31:16]. -/
def F.furrowJobsOther : Field := ⟨R.furrowJobs, 16, 16⟩
/-- FURROW_LAST_ERROR (spec/19 Table 19.9). -/
def R.furrowLastError : Nat := 0x0F001C
/-- FURROW_LAST_ERROR.STATUS[7:0]. -/
def F.furrowLastErrorStatus : Field := ⟨R.furrowLastError, 0, 8⟩
/-- FURROW_LAST_ERROR.DETAIL[15:8]. -/
def F.furrowLastErrorDetail : Field := ⟨R.furrowLastError, 8, 8⟩
/-- NAND_STATUS (spec/20 Table 20.9). -/
def R.nandStatus : Nat := 0x100000
/-- NAND_STATUS.STATE[2:0]. -/
def F.nandStatusState : Field := ⟨R.nandStatus, 0, 3⟩
/-- NAND_STATUS.RO_REASON[4:3]. -/
def F.nandStatusRoReason : Field := ⟨R.nandStatus, 3, 2⟩
/-- NAND_STATUS.SPARES_LOW[5:5]. -/
def F.nandStatusSparesLow : Field := ⟨R.nandStatus, 5, 1⟩
/-- NAND_STATUS.SCRUBBING[6:6]. -/
def F.nandStatusScrubbing : Field := ⟨R.nandStatus, 6, 1⟩
/-- NAND_STATUS.CUT_FOUND[7:7]. -/
def F.nandStatusCutFound : Field := ⟨R.nandStatus, 7, 1⟩
/-- NAND_STATUS.REASON[11:8]. -/
def F.nandStatusReason : Field := ⟨R.nandStatus, 8, 4⟩
/-- NAND_STATUS.QUEUED[27:12]. -/
def F.nandStatusQueued : Field := ⟨R.nandStatus, 12, 16⟩
/-- NAND_GEOMETRY (spec/20 Table 20.8). -/
def R.nandGeometry : Nat := 0x100004
/-- NAND_GEOMETRY.CES[3:0]. -/
def F.nandGeometryCes : Field := ⟨R.nandGeometry, 0, 4⟩
/-- NAND_GEOMETRY.LUNS[5:4]. -/
def F.nandGeometryLuns : Field := ⟨R.nandGeometry, 4, 2⟩
/-- NAND_GEOMETRY.PAGE_KIB[10:8]. -/
def F.nandGeometryPageKib : Field := ⟨R.nandGeometry, 8, 3⟩
/-- NAND_GEOMETRY.BITS[13:12]. -/
def F.nandGeometryBits : Field := ⟨R.nandGeometry, 12, 2⟩
/-- NAND_GEOMETRY.CODE[14:14]. -/
def F.nandGeometryCode : Field := ⟨R.nandGeometry, 14, 1⟩
/-- NAND_GEOMETRY.PAGES_PER_BLOCK[31:16]. -/
def F.nandGeometryPagesPerBlock : Field := ⟨R.nandGeometry, 16, 16⟩
/-- NAND_CAPACITY (spec/20 Table 20.8). -/
def R.nandCapacity : Nat := 0x100008
/-- NAND_FREE (spec/20 Table 20.8). -/
def R.nandFree : Nat := 0x100010
/-- NAND_SPARES (spec/20 Table 20.8). -/
def R.nandSpares : Nat := 0x100018
/-- NAND_SPARES.TOTAL[15:0]. -/
def F.nandSparesTotal : Field := ⟨R.nandSpares, 0, 16⟩
/-- NAND_SPARES.LEFT[31:16]. -/
def F.nandSparesLeft : Field := ⟨R.nandSpares, 16, 16⟩
/-- NAND_BAD (spec/20 Table 20.8). -/
def R.nandBad : Nat := 0x10001C
/-- NAND_BAD.FACTORY[15:0]. -/
def F.nandBadFactory : Field := ⟨R.nandBad, 0, 16⟩
/-- NAND_BAD.GROWN[31:16]. -/
def F.nandBadGrown : Field := ⟨R.nandBad, 16, 16⟩
/-- NAND_WEAR (spec/20 Table 20.8). -/
def R.nandWear : Nat := 0x100020
/-- NAND_WEAR.MAX_PE[15:0]. -/
def F.nandWearMaxPe : Field := ⟨R.nandWear, 0, 16⟩
/-- NAND_WEAR.RATED[31:16]. -/
def F.nandWearRated : Field := ⟨R.nandWear, 16, 16⟩
/-- NAND_ECC_0 (spec/20 Table 20.8). -/
def R.nandEcc0 : Nat := 0x100024
/-- NAND_ECC_0.RETRIES[15:0]. -/
def F.nandEcc0Retries : Field := ⟨R.nandEcc0, 0, 16⟩
/-- NAND_ECC_0.SOFT[31:16]. -/
def F.nandEcc0Soft : Field := ⟨R.nandEcc0, 16, 16⟩
/-- NAND_ECC_1 (spec/20 Table 20.8). -/
def R.nandEcc1 : Nat := 0x100028
/-- NAND_ECC_1.UNCORRECTABLE[15:0]. -/
def F.nandEcc1Uncorrectable : Field := ⟨R.nandEcc1, 0, 16⟩
/-- NAND_ECC_1.REFRESHED[31:16]. -/
def F.nandEcc1Refreshed : Field := ⟨R.nandEcc1, 16, 16⟩
/-- NAND_SCRUB (spec/20 Table 20.8). -/
def R.nandScrub : Nat := 0x10002C
/-- NAND_MTS (spec/20 Table 20.8). -/
def R.nandMts : Nat := 0x100030
/-- NAND_STAGE (spec/20 Table 20.8). -/
def R.nandStage : Nat := 0x100040
/-- NAND_STAGE.EN[0:0]. -/
def F.nandStageEn : Field := ⟨R.nandStage, 0, 1⟩
/-- NAND_STAGE.ALLOT[9:4]. -/
def F.nandStageAllot : Field := ⟨R.nandStage, 4, 6⟩
/-- NAND_VOL (spec/20 Table 20.8). -/
def R.nandVol (i : Nat) : Nat := 0x100100 + 8 * i
/-- NAND_VOL.QUOTA_MIB[31:0]. -/
def F.nandVolQuotaMib (i : Nat) : Field := ⟨(R.nandVol i), 0, 32⟩
/-- NAND_VOL.USED_MIB[63:32]. -/
def F.nandVolUsedMib (i : Nat) : Field := ⟨(R.nandVol i + 4), 0, 32⟩
/-- ACOU_STATUS (spec/21 Table 21.5). -/
def R.acouStatus : Nat := 0x110000
/-- ACOU_STATUS.MODE[1:0]. -/
def F.acouStatusMode : Field := ⟨R.acouStatus, 0, 2⟩
/-- ACOU_STATUS.FROZEN[2:2]. -/
def F.acouStatusFrozen : Field := ⟨R.acouStatus, 2, 1⟩
/-- ACOU_STATUS.FIRED[3:3]. -/
def F.acouStatusFired : Field := ⟨R.acouStatus, 3, 1⟩
/-- ACOU_STATUS.BUSY[4:4]. -/
def F.acouStatusBusy : Field := ⟨R.acouStatus, 4, 1⟩
/-- ACOU_STATUS.RESULT[10:8]. -/
def F.acouStatusResult : Field := ⟨R.acouStatus, 8, 3⟩
/-- ACOU_STATUS.STATUS[23:16]. -/
def F.acouStatusStatus : Field := ⟨R.acouStatus, 16, 8⟩
/-- ACOU_CMD (spec/21 Table 21.4). -/
def R.acouCmd : Nat := 0x110004
/-- ACOU_CMD.OP[1:0]. -/
def F.acouCmdOp : Field := ⟨R.acouCmd, 0, 2⟩
/-- ACOU_CMD.KEY[31:16]. -/
def F.acouCmdKey : Field := ⟨R.acouCmd, 16, 16⟩
/-- ACOU_DST_ADDR (spec/21 Table 21.4). -/
def R.acouDstAddr : Nat := 0x110008
/-- ACOU_EVENT (spec/21 Table 21.4). -/
def R.acouEvent : Nat := 0x110010
/-- ACOU_EVENT.RTC_S[31:0]. -/
def F.acouEventRtcS : Field := ⟨R.acouEvent, 0, 32⟩
/-- ACOU_EVENT.DETECTORS[33:32]. -/
def F.acouEventDetectors : Field := ⟨(R.acouEvent + 4), 0, 2⟩
/-- ACOU_EVENT.MIC[38:36]. -/
def F.acouEventMic : Field := ⟨(R.acouEvent + 4), 4, 3⟩
/-- ACOU_EVENT.SCORE[47:40]. -/
def F.acouEventScore : Field := ⟨(R.acouEvent + 4), 8, 8⟩
/-- ACOU_EVENT.FROM_STATE[50:48]. -/
def F.acouEventFromState : Field := ⟨(R.acouEvent + 4), 16, 3⟩
/-- ACOU_LEVEL (spec/21 Table 21.4). -/
def R.acouLevel : Nat := 0x110018
/-- ACOU_LEVEL.FLOOR[15:0]. -/
def F.acouLevelFloor : Field := ⟨R.acouLevel, 0, 16⟩
/-- ACOU_LEVEL.ENERGY[31:16]. -/
def F.acouLevelEnergy : Field := ⟨R.acouLevel, 16, 16⟩
/-- ACOU_COUNT_0 (spec/21 Table 21.4). -/
def R.acouCount0 : Nat := 0x11001C
/-- ACOU_COUNT_0.GLASS[15:0]. -/
def F.acouCount0Glass : Field := ⟨R.acouCount0, 0, 16⟩
/-- ACOU_COUNT_0.ALARM[31:16]. -/
def F.acouCount0Alarm : Field := ⟨R.acouCount0, 16, 16⟩
/-- ACOU_COUNT_1 (spec/21 Table 21.4). -/
def R.acouCount1 : Nat := 0x110020
/-- ACOU_COUNT_1.SAT[15:0]. -/
def F.acouCount1Sat : Field := ⟨R.acouCount1, 0, 16⟩
/-- ACOU_COUNT_1.MISSED[31:16]. -/
def F.acouCount1Missed : Field := ⟨R.acouCount1, 16, 16⟩
/-- DISP_CTRL (spec/17 Table 17.10). -/
def R.dispCtrl : Nat := 0x120000
/-- DISP_CTRL.ENABLE[0:0]. -/
def F.dispCtrlEnable : Field := ⟨R.dispCtrl, 0, 1⟩
/-- DISP_CTRL.RETRAIN[1:1]. -/
def F.dispCtrlRetrain : Field := ⟨R.dispCtrl, 1, 1⟩
/-- DISP_STATUS (spec/17 Table 17.11). -/
def R.dispStatus : Nat := 0x120004
/-- DISP_STATUS.SINK[0:0]. -/
def F.dispStatusSink : Field := ⟨R.dispStatus, 0, 1⟩
/-- DISP_STATUS.LINK[3:1]. -/
def F.dispStatusLink : Field := ⟨R.dispStatus, 1, 3⟩
/-- DISP_STATUS.LANES[6:4]. -/
def F.dispStatusLanes : Field := ⟨R.dispStatus, 4, 3⟩
/-- DISP_STATUS.RATE[9:8]. -/
def F.dispStatusRate : Field := ⟨R.dispStatus, 8, 2⟩
/-- DISP_STATUS.FLIP_PENDING[10:10]. -/
def F.dispStatusFlipPending : Field := ⟨R.dispStatus, 10, 1⟩
/-- DISP_STATUS.FB_ERROR[11:11]. -/
def F.dispStatusFbError : Field := ⟨R.dispStatus, 11, 1⟩
/-- DISP_STATUS.VBLANK[12:12]. -/
def F.dispStatusVblank : Field := ⟨R.dispStatus, 12, 1⟩
/-- DISP_FB_CFG (spec/17 Table 17.10). -/
def R.dispFbCfg : Nat := 0x120008
/-- DISP_FB_CFG.ALLOT[5:0]. -/
def F.dispFbCfgAllot : Field := ⟨R.dispFbCfg, 0, 6⟩
/-- DISP_FB_CFG.FORMAT[8:8]. -/
def F.dispFbCfgFormat : Field := ⟨R.dispFbCfg, 8, 1⟩
/-- DISP_FB_CFG.PITCH[31:16]. -/
def F.dispFbCfgPitch : Field := ⟨R.dispFbCfg, 16, 16⟩
/-- DISP_FB_NEXT (spec/17 Table 17.10). -/
def R.dispFbNext : Nat := 0x120010
/-- DISP_FB_CUR (spec/17 Table 17.10). -/
def R.dispFbCur : Nat := 0x120018
/-- DISP_FRAME (spec/17 Table 17.10). -/
def R.dispFrame : Nat := 0x120020
/-- DISP_UNDERFLOW (spec/17 Table 17.10). -/
def R.dispUnderflow : Nat := 0x120024
/-- DISP_AUX_CMD (spec/17 Table 17.10). -/
def R.dispAuxCmd : Nat := 0x120030
/-- DISP_AUX_CMD.ADDR[19:0]. -/
def F.dispAuxCmdAddr : Field := ⟨R.dispAuxCmd, 0, 20⟩
/-- DISP_AUX_CMD.LEN[23:20]. -/
def F.dispAuxCmdLen : Field := ⟨R.dispAuxCmd, 20, 4⟩
/-- DISP_AUX_CMD.OP[25:24]. -/
def F.dispAuxCmdOp : Field := ⟨R.dispAuxCmd, 24, 2⟩
/-- DISP_AUX_STATUS (spec/17 Table 17.10). -/
def R.dispAuxStatus : Nat := 0x120034
/-- DISP_AUX_STATUS.BUSY[0:0]. -/
def F.dispAuxStatusBusy : Field := ⟨R.dispAuxStatus, 0, 1⟩
/-- DISP_AUX_STATUS.RESULT[3:1]. -/
def F.dispAuxStatusResult : Field := ⟨R.dispAuxStatus, 1, 3⟩
/-- DISP_AUX_DATA (spec/17 Table 17.10). -/
def R.dispAuxData (i : Nat) : Nat := 0x120040 + 4 * i
/-- MGMT_CFG (spec/09 Table 9.9). -/
def R.mgmtCfg : Nat := 0x130000
/-- MGMT_CFG.SPEED[1:0]. -/
def F.mgmtCfgSpeed : Field := ⟨R.mgmtCfg, 0, 2⟩
/-- MGMT_CFG.ADDR[14:8]. -/
def F.mgmtCfgAddr : Field := ⟨R.mgmtCfg, 8, 7⟩
/-- MGMT_CFG.STRAP0[17:16]. -/
def F.mgmtCfgStrap0 : Field := ⟨R.mgmtCfg, 16, 2⟩
/-- MGMT_CFG.STRAP1[19:18]. -/
def F.mgmtCfgStrap1 : Field := ⟨R.mgmtCfg, 18, 2⟩
/-- MGMT_CFG.EID[31:24]. -/
def F.mgmtCfgEid : Field := ⟨R.mgmtCfg, 24, 8⟩
/-- MGMT_STATUS (spec/09 Table 9.9). -/
def R.mgmtStatus : Nat := 0x130004
/-- MGMT_STATUS.GK_SERVING[0:0]. -/
def F.mgmtStatusGkServing : Field := ⟨R.mgmtStatus, 0, 1⟩
/-- MGMT_STATUS.QUEUED[3:1]. -/
def F.mgmtStatusQueued : Field := ⟨R.mgmtStatus, 1, 3⟩
/-- MGMT_COUNT_0 (spec/09 Table 9.9). -/
def R.mgmtCount0 : Nat := 0x130008
/-- MGMT_COUNT_0.PEC_ERR[15:0]. -/
def F.mgmtCount0PecErr : Field := ⟨R.mgmtCount0, 0, 16⟩
/-- MGMT_COUNT_0.DROPPED[31:16]. -/
def F.mgmtCount0Dropped : Field := ⟨R.mgmtCount0, 16, 16⟩
/-- MGMT_COUNT_1 (spec/09 Table 9.9). -/
def R.mgmtCount1 : Nat := 0x13000C
/-- MGMT_COUNT_1.ARB_LOST[15:0]. -/
def F.mgmtCount1ArbLost : Field := ⟨R.mgmtCount1, 0, 16⟩
/-- MGMT_COUNT_1.MESSAGES[31:16]. -/
def F.mgmtCount1Messages : Field := ⟨R.mgmtCount1, 16, 16⟩
/-- MGMT_CMD_ORIGIN (spec/09 Table 9.9). -/
def R.mgmtCmdOrigin : Nat := 0x130010
/-- MGMT_CMD_ORIGIN.PORT[6:0]. -/
def F.mgmtCmdOriginPort : Field := ⟨R.mgmtCmdOrigin, 0, 7⟩
/-- CAL_CMD (spec/06 Table 6.9). -/
def R.calCmd : Nat := 0x140000
/-- CAL_CMD.OP[2:0]. -/
def F.calCmdOp : Field := ⟨R.calCmd, 0, 3⟩
/-- CAL_CMD.ARG[3:3]. -/
def F.calCmdArg : Field := ⟨R.calCmd, 3, 1⟩
/-- CAL_CMD.MIC[6:4]. -/
def F.calCmdMic : Field := ⟨R.calCmd, 4, 3⟩
/-- CAL_CMD.KEY[31:16]. -/
def F.calCmdKey : Field := ⟨R.calCmd, 16, 16⟩
/-- CAL_STATUS (spec/06 Table 6.10). -/
def R.calStatus : Nat := 0x140004
/-- CAL_STATUS.BUSY[0:0]. -/
def F.calStatusBusy : Field := ⟨R.calStatus, 0, 1⟩
/-- CAL_STATUS.DONE[1:1]. -/
def F.calStatusDone : Field := ⟨R.calStatus, 1, 1⟩
/-- CAL_STATUS.APPLIED_VALID[2:2]. -/
def F.calStatusAppliedValid : Field := ⟨R.calStatus, 2, 1⟩
/-- CAL_STATUS.FACTORY[3:3]. -/
def F.calStatusFactory : Field := ⟨R.calStatus, 3, 1⟩
/-- CAL_STATUS.SECTOR_VALID[4:4]. -/
def F.calStatusSectorValid : Field := ⟨R.calStatus, 4, 1⟩
/-- CAL_STATUS.RESULT[10:8]. -/
def F.calStatusResult : Field := ⟨R.calStatus, 8, 3⟩
/-- CAL_STATUS.REASON[19:16]. -/
def F.calStatusReason : Field := ⟨R.calStatus, 16, 4⟩
/-- CAL_BUF_ADDR (spec/06 Table 6.5). -/
def R.calBufAddr : Nat := 0x140008
/-- CAL_RAW (spec/06 Table 6.5). -/
def R.calRaw (i : Nat) : Nat := 0x140040 + 4 * i
/-- CAL_RAW.RAW[15:0]. -/
def F.calRawRaw (i : Nat) : Field := ⟨(R.calRaw i), 0, 16⟩
/-- CAL_MIC_LEVEL (spec/06 Table 6.5). -/
def R.calMicLevel : Nat := 0x140080
/-- CAL_MIC_LEVEL.LEVEL[15:0]. -/
def F.calMicLevelLevel : Field := ⟨R.calMicLevel, 0, 16⟩
/-- NUMX_SUMMARY (spec/14 Table 14.7). -/
def R.numxSummary : Nat := 0x150000
/-- NUMX_SUMMARY.ANY[7:0]. -/
def F.numxSummaryAny : Field := ⟨R.numxSummary, 0, 8⟩
/-- NUMX_GUARD_MASK (spec/14 Table 14.7). -/
def R.numxGuardMask : Nat := 0x150008
/-- NUMX_NAN_MASK (spec/14 Table 14.7). -/
def R.numxNanMask : Nat := 0x150010
/-- NUMX_FLAGS (spec/14 Table 14.8). -/
def R.numxFlags (i : Nat) : Nat := 0x150100 + 4 * i
/-- NUMX_FLAGS.LANES[7:0]. -/
def F.numxFlagsLanes (i : Nat) : Field := ⟨(R.numxFlags i), 0, 8⟩
/-- NUMX_FLAGS.TILLER[15:8]. -/
def F.numxFlagsTiller (i : Nat) : Field := ⟨(R.numxFlags i), 8, 8⟩
/-- NUMX_GUARD (spec/14 Table 14.7, 14.6). -/
def R.numxGuard (i : Nat) (j : Nat) : Nat := 0x150400 + 32 * i + 4 * j
/-- NUMX_NAN (spec/14 Table 14.7, 14.6). -/
def R.numxNan (i : Nat) (j : Nat) : Nat := 0x150C00 + 32 * i + 4 * j
/-- NUMX_CLEAR (spec/14 Table 14.8). -/
def R.numxClear : Nat := 0x151800
/-- NUMX_CLEAR.BED[5:0]. -/
def F.numxClearBed : Field := ⟨R.numxClear, 0, 6⟩
/-- NUMX_CLEAR.WHAT[9:8]. -/
def F.numxClearWhat : Field := ⟨R.numxClear, 8, 2⟩
/-- NUMX_CLEAR.ALL[10:10]. -/
def F.numxClearAll : Field := ⟨R.numxClear, 10, 1⟩
/-- BED_STATUS (spec/13 Table 13.19). -/
def R.bedStatus (i : Nat) : Nat := 0x200000 + 16384 * i
/-- BED_STATUS.RESIDENT[5:0]. -/
def F.bedStatusResident (i : Nat) : Field := ⟨(R.bedStatus i), 0, 6⟩
/-- BED_STATUS.GROUPS[9:6]. -/
def F.bedStatusGroups (i : Nat) : Field := ⟨(R.bedStatus i), 6, 4⟩
/-- BED_STATUS.TQ[13:10]. -/
def F.bedStatusTq (i : Nat) : Field := ⟨(R.bedStatus i), 10, 4⟩
/-- BED_STATUS.SAVED[14:14]. -/
def F.bedStatusSaved (i : Nat) : Field := ⟨(R.bedStatus i), 14, 1⟩
/-- BED_STATUS.SEM_OVF[15:15]. -/
def F.bedStatusSemOvf (i : Nat) : Field := ⟨(R.bedStatus i), 15, 1⟩
/-- BED_STATUS.LOST[23:16]. -/
def F.bedStatusLost (i : Nat) : Field := ⟨(R.bedStatus i), 16, 8⟩
/-- BED_CTRL (spec/13 Table 13.19). -/
def R.bedCtrl (i : Nat) : Nat := 0x200004 + 16384 * i
/-- BED_CTRL.WAIT_MS[9:0]. -/
def F.bedCtrlWaitMs (i : Nat) : Field := ⟨(R.bedCtrl i), 0, 10⟩
/-- BED_SPLIT (spec/13 Table 13.19). -/
def R.bedSplit (i : Nat) : Nat := 0x200008 + 16384 * i
/-- BED_SPLIT.TILE[4:0]. -/
def F.bedSplitTile (i : Nat) : Field := ⟨(R.bedSplit i), 0, 5⟩
/-- BED_SPLIT.SCRATCH[12:8]. -/
def F.bedSplitScratch (i : Nat) : Field := ⟨(R.bedSplit i), 8, 5⟩
/-- BED_SPLIT.SPILL[20:16]. -/
def F.bedSplitSpill (i : Nat) : Field := ⟨(R.bedSplit i), 16, 5⟩
/-- BED_SPLIT.PLOT[27:24]. -/
def F.bedSplitPlot (i : Nat) : Field := ⟨(R.bedSplit i), 24, 4⟩
/-- BED_SPLIT.ROLE[29:28]. -/
def F.bedSplitRole (i : Nat) : Field := ⟨(R.bedSplit i), 28, 2⟩
/-- BED_TRAP (spec/13 Table 13.19). -/
def R.bedTrap (i : Nat) : Nat := 0x200010 + 16384 * i
/-- BED_TRAP.VALID[0:0]. -/
def F.bedTrapValid (i : Nat) : Field := ⟨(R.bedTrap i), 0, 1⟩
/-- BED_TRAP.KIND[4:1]. -/
def F.bedTrapKind (i : Nat) : Field := ⟨(R.bedTrap i), 1, 4⟩
/-- BED_TRAP.WAVE[13:8]. -/
def F.bedTrapWave (i : Nat) : Field := ⟨(R.bedTrap i), 8, 6⟩
/-- BED_TRAP.STATUS[23:16]. -/
def F.bedTrapStatus (i : Nat) : Field := ⟨(R.bedTrap i), 16, 8⟩
/-- BED_TRAP.DETAIL[31:24]. -/
def F.bedTrapDetail (i : Nat) : Field := ⟨(R.bedTrap i), 24, 8⟩
/-- BED_TRAP.TAG[63:32]. -/
def F.bedTrapTag (i : Nat) : Field := ⟨(R.bedTrap i + 4), 0, 32⟩
/-- BED_TRAP_PC (spec/13 Table 13.18). -/
def R.bedTrapPc (i : Nat) : Nat := 0x200018 + 16384 * i
/-- BED_TRAP_WORD (spec/13 Table 13.18). -/
def R.bedTrapWord (i : Nat) : Nat := 0x200020 + 16384 * i
/-- BED_SEM (spec/13 Table 13.18). -/
def R.bedSem (i : Nat) (j : Nat) : Nat := 0x200040 + 16384 * i + 4 * j
/-- BED_ISSUED (spec/13 Table 13.18). -/
def R.bedIssued (i : Nat) : Nat := 0x200080 + 16384 * i
/-- BED_TILLER_BUSY (spec/13 Table 13.18). -/
def R.bedTillerBusy (i : Nat) : Nat := 0x200088 + 16384 * i
/-- BED_SIEVE_PRODUCTS (spec/16 Table 16.5). -/
def R.bedSieveProducts (i : Nat) : Nat := 0x2000C0 + 16384 * i
/-- BED_SIEVE_PROBES (spec/16 Table 16.5). -/
def R.bedSieveProbes (i : Nat) : Nat := 0x2000C8 + 16384 * i
/-- BED_SIEVE_PASSES (spec/16 Table 16.5). -/
def R.bedSievePasses (i : Nat) : Nat := 0x2000D0 + 16384 * i
/-- BED_SIEVE_STEALS (spec/16 Table 16.5). -/
def R.bedSieveSteals (i : Nat) : Nat := 0x2000D4 + 16384 * i
/-- BED_SIEVE_IDLE (spec/16 Table 16.5). -/
def R.bedSieveIdle (i : Nat) : Nat := 0x2000D8 + 16384 * i
/-- The registers of the BAR0 block at 0x00_0000. -/
def regRows00 : List RegRow := [
  ⟨"GLOBAL_ID", 0x000000, 1, 1, 0, 1, 0, 1, 0,
    [⟨"PART", 31, 16, .ro, 0x6400, .kept, .kept⟩,
     ⟨"VARIANT", 15, 8, .ro, 0, .kept, .kept⟩,
     ⟨"REVISION", 7, 0, .ro, 0xB0, .kept, .kept⟩]⟩,
  ⟨"GLOBAL_STATUS", 0x000004, 1, 1, 0, 1, 0, 1, 0,
    [⟨"BAD_ACCESS", 0, 0, .w1c, 0, .kept, .kept⟩,
     ⟨"DARK_ACCESS", 1, 1, .w1c, 0, .kept, .kept⟩,
     ⟨"UNCALIBRATED", 2, 2, .roH, 1, .kept, .kept⟩,
     ⟨"SHED_LOST", 3, 3, .w1c, 0, .kept, .kept⟩,
     ⟨"TRELLIS_AGED", 31, 16, .roH, 0, .kept, .kept⟩]⟩,
  ⟨"GLOBAL_DARK_ISLAND", 0x000008, 1, 1, 0, 1, 0, 1, 0,
    [⟨"ISLAND", 6, 0, .roH, 0, .kept, .kept⟩]⟩,
  ⟨"GLOBAL_SIEVE_CH", 0x000100, 1, 8, 4, 1, 0, 1, 0,
    [⟨"MODE", 0, 0, .rw, 0, .kept, .kept⟩,
     ⟨"STEAL_MIN", 7, 4, .rw, 0, .kept, .kept⟩]⟩]
/-- The registers of the BAR0 block at 0x01_0000. -/
def regRows01 : List RegRow := [
  ⟨"FENCE_TEMP_MAX", 0x010000, 1, 1, 0, 1, 0, 1, 0,
    [⟨"TEMP", 15, 0, .roH, 0, .kept, .kept⟩,
     ⟨"SENSOR", 19, 16, .roH, 0, .kept, .kept⟩]⟩,
  ⟨"FENCE_STATE", 0x010004, 1, 1, 0, 1, 0, 1, 0,
    [⟨"WARN", 0, 0, .roH, 0, .kept, .kept⟩,
     ⟨"SOFT_THROTTLE", 1, 1, .roH, 0, .kept, .kept⟩,
     ⟨"POWER_CAP", 2, 2, .roH, 0, .kept, .kept⟩,
     ⟨"HW_THROTTLE", 3, 3, .roH, 0, .kept, .kept⟩,
     ⟨"TRIP_LATCHED", 4, 4, .roH, 0, .kept, .kept⟩,
     ⟨"LIMIT_RATIO", 11, 8, .roH, 8, .kept, .kept⟩,
     ⟨"BED_CEILING", 26, 16, .roH, 0, .kept, .kept⟩]⟩,
  ⟨"FENCE_THRESH", 0x010008, 1, 1, 0, 1, 0, 1, 0,
    [⟨"WARN", 7, 0, .roH, 87, .kept, .kept⟩,
     ⟨"THROTTLE", 15, 8, .roH, 92, .kept, .kept⟩,
     ⟨"HW_THROTTLE", 23, 16, .roH, 100, .kept, .kept⟩,
     ⟨"HW_TRIP", 31, 24, .roH, 110, .kept, .kept⟩]⟩,
  ⟨"FENCE_SENSOR_FAIL", 0x01000C, 1, 1, 0, 1, 0, 1, 0,
    [⟨"FAIL", 11, 0, .roH, 0, .kept, .kept⟩]⟩,
  ⟨"FENCE_THRESH_CROSSINGS_0", 0x010010, 1, 1, 0, 1, 0, 1, 0,
    [⟨"WARN", 15, 0, .roH, 0, .kept, .kept⟩,
     ⟨"THROTTLE", 31, 16, .roH, 0, .kept, .kept⟩]⟩,
  ⟨"FENCE_THRESH_CROSSINGS_1", 0x010014, 1, 1, 0, 1, 0, 1, 0,
    [⟨"HW_THROTTLE", 15, 0, .roH, 0, .kept, .kept⟩,
     ⟨"HW_TRIP", 31, 16, .roH, 0, .kept, .kept⟩]⟩,
  ⟨"FENCE_CLAMPS", 0x010018, 1, 1, 0, 1, 0, 1, 0,
    [⟨"VOLT", 15, 0, .roH, 0, .kept, .kept⟩,
     ⟨"FREQ", 31, 16, .roH, 0, .kept, .kept⟩]⟩,
  ⟨"FENCE_POWER_MW", 0x01001C, 1, 1, 0, 1, 0, 1, 0,
    [⟨"MW", 31, 0, .roH, 0, .kept, .kept⟩]⟩,
  ⟨"FENCE_LIMIT_EVENTS", 0x010020, 1, 1, 0, 1, 0, 1, 0,
    [⟨"COUNT", 31, 0, .roH, 0, .kept, .kept⟩]⟩,
  ⟨"FENCE_TRIP", 0x010024, 1, 1, 0, 1, 0, 1, 0,
    [⟨"TEMP", 15, 0, .roH, 0, .kept, .kept⟩,
     ⟨"SENSOR", 19, 16, .roH, 0, .kept, .kept⟩,
     ⟨"CAUSE", 21, 20, .roH, 0, .kept, .kept⟩,
     ⟨"COUNT", 29, 22, .roH, 0, .kept, .kept⟩]⟩,
  ⟨"FENCE_TEMP", 0x010040, 1, 12, 4, 1, 0, 1, 0,
    [⟨"TEMP", 15, 0, .roH, 0, .kept, .kept⟩]⟩,
  ⟨"FENCE_LEASE", 0x010080, 1, 6, 4, 1, 0, 1, 0,
    [⟨"HOLDER", 6, 0, .roH, 0x7F, .cold, .kept⟩,
     ⟨"EPOCH", 15, 8, .roH, 0, .cold, .kept⟩,
     ⟨"WAITERS", 19, 16, .roH, 0, .cold, .kept⟩,
     ⟨"AGE_MS", 31, 20, .roH, 0, .cold, .kept⟩]⟩,
  ⟨"FENCE_LEASE_EVENTS", 0x0100A0, 1, 1, 0, 1, 0, 1, 0,
    [⟨"ON_CLOSE", 7, 0, .roH, 0, .kept, .kept⟩,
     ⟨"REVOKED", 15, 8, .roH, 0, .kept, .kept⟩,
     ⟨"TIMER", 23, 16, .roH, 0, .kept, .kept⟩]⟩,
  ⟨"FENCE_AVS", 0x0100C0, 1, 1, 0, 1, 0, 1, 0,
    [⟨"TARGET_MV", 9, 0, .roH, 750, .kept, .kept⟩,
     ⟨"FAULT", 10, 10, .w1c, 0, .kept, .kept⟩,
     ⟨"SETTLED", 11, 11, .roH, 0, .kept, .kept⟩,
     ⟨"UV_EVENTS", 23, 16, .roH, 0, .kept, .kept⟩,
     ⟨"AVS_ERRORS", 31, 24, .roH, 0, .kept, .kept⟩]⟩,
  ⟨"FENCE_RAIL", 0x0100E0, 1, 7, 4, 1, 0, 1, 0,
    [⟨"MV", 15, 0, .roH, 0, .kept, .kept⟩]⟩]
/-- The registers of the BAR0 block at 0x02_0000. -/
def regRows02 : List RegRow := [
  ⟨"PWR_REQUEST", 0x020000, 1, 1, 0, 1, 0, 1, 0,
    [⟨"TARGET", 2, 0, .wo, 0, .cold, .cold⟩,
     ⟨"DRAIN", 4, 4, .wo, 0, .cold, .cold⟩,
     ⟨"KEY", 31, 16, .wo, 0, .cold, .cold⟩]⟩,
  ⟨"PWR_STATUS", 0x020004, 1, 1, 0, 1, 0, 1, 0,
    [⟨"STATE", 2, 0, .roH, 0, .cold, .kept⟩,
     ⟨"PHASE", 5, 3, .roH, 0, .cold, .kept⟩,
     ⟨"DONE", 6, 6, .w1c, 0, .cold, .kept⟩,
     ⟨"RESULT", 10, 8, .roH, 0, .kept, .kept⟩,
     ⟨"LAST_TARGET", 18, 16, .roH, 0, .kept, .kept⟩]⟩,
  ⟨"PWR_MODE", 0x020008, 1, 1, 0, 1, 0, 1, 0,
    [⟨"TARGET", 2, 0, .roH, 0, .cold, .kept⟩,
     ⟨"GK_WAIT", 3, 3, .roH, 0, .cold, .kept⟩,
     ⟨"G0_MODE", 6, 4, .roH, 0, .cold, .kept⟩,
     ⟨"G0_WAIT", 7, 7, .roH, 0, .cold, .kept⟩,
     ⟨"G1_MODE", 10, 8, .roH, 0, .cold, .kept⟩,
     ⟨"G1_WAIT", 11, 11, .roH, 0, .cold, .kept⟩,
     ⟨"SK_MODE", 14, 12, .roH, 0, .cold, .kept⟩,
     ⟨"SK_WAIT", 15, 15, .roH, 0, .cold, .kept⟩]⟩,
  ⟨"PWR_SETTLE", 0x02000C, 1, 1, 0, 1, 0, 1, 0,
    [⟨"TIMEOUT_MS", 13, 0, .rw, 100, .kept, .kept⟩]⟩,
  ⟨"PWR_WAKE_EN", 0x020010, 1, 1, 0, 1, 0, 1, 0,
    [⟨"WAKE_N", 0, 0, .ro, 1, .kept, .kept⟩,
     ⟨"SOURCES", 6, 1, .rw, 0, .kept, .kept⟩]⟩,
  ⟨"PWR_ALARM", 0x020014, 1, 1, 0, 1, 0, 1, 0,
    [⟨"RTC_S", 31, 0, .rw, 0, .kept, .kept⟩]⟩,
  ⟨"PWR_TIMER_MS", 0x020018, 1, 1, 0, 1, 0, 1, 0,
    [⟨"MS", 31, 0, .rw, 0, .cold, .kept⟩]⟩,
  ⟨"PWR_LAST_EXIT", 0x02001C, 1, 1, 0, 1, 0, 1, 0,
    [⟨"CAUSE", 6, 0, .roH, 0, .cold, .kept⟩,
     ⟨"FIRST", 10, 8, .roH, 0, .cold, .kept⟩,
     ⟨"FROM", 14, 12, .roH, 0, .cold, .kept⟩,
     ⟨"EXIT_US", 31, 16, .roH, 0, .cold, .kept⟩]⟩,
  ⟨"PWR_COUNT", 0x020020, 1, 1, 0, 1, 0, 1, 0,
    [⟨"SHADE", 15, 0, .roH, 0, .kept, .kept⟩,
     ⟨"DEEP", 31, 16, .roH, 0, .kept, .kept⟩]⟩,
  ⟨"PWR_SHADE_DROP", 0x020024, 1, 1, 0, 1, 0, 1, 0,
    [⟨"FRAMES", 31, 0, .roH, 0, .kept, .kept⟩]⟩]
/-- The registers of the BAR0 block at 0x03_0000. -/
def regRows03 : List RegRow := [
  ⟨"BOOT_STATUS", 0x030000, 1, 1, 0, 1, 0, 1, 0,
    [⟨"STEP", 3, 0, .roH, 0, .cold, .kept⟩,
     ⟨"READY", 4, 4, .roH, 0, .cold, .kept⟩,
     ⟨"SAFE", 5, 5, .roH, 0, .cold, .kept⟩,
     ⟨"LINK_PENDING", 6, 6, .roH, 0, .cold, .kept⟩,
     ⟨"SLOT_SWITCHED", 7, 7, .roH, 0, .cold, .kept⟩,
     ⟨"MEM_TRAINED", 8, 8, .roH, 0, .cold, .kept⟩,
     ⟨"FORCED", 9, 9, .roH, 0, .cold, .kept⟩,
     ⟨"DIR_DEFAULT", 10, 10, .roH, 0, .kept, .kept⟩,
     ⟨"LAST_STATUS", 23, 16, .roH, 0, .kept, .kept⟩,
     ⟨"LAST_DETAIL", 31, 24, .roH, 0, .kept, .kept⟩]⟩,
  ⟨"BOOT_KIND", 0x030004, 1, 1, 0, 1, 0, 1, 0,
    [⟨"START_KIND", 2, 0, .roH, 0, .cold, .kept⟩,
     ⟨"WAKE_CAUSE", 13, 8, .roH, 0, .cold, .kept⟩,
     ⟨"FIRST_CAUSE", 18, 16, .roH, 0, .cold, .kept⟩]⟩,
  ⟨"BOOT_SLOT", 0x030008, 1, 1, 0, 1, 0, 1, 0,
    [⟨"RUNNING", 0, 0, .roH, 0, .kept, .kept⟩,
     ⟨"PREFERRED", 1, 1, .roH, 0, .kept, .kept⟩,
     ⟨"FAILS_A", 3, 2, .roH, 0, .kept, .kept⟩,
     ⟨"FAILS_B", 5, 4, .roH, 0, .kept, .kept⟩,
     ⟨"RUN_VERSION", 13, 8, .roH, 0, .kept, .kept⟩,
     ⟨"OTHER_VERSION", 21, 16, .roH, 0, .kept, .kept⟩,
     ⟨"FLOOR", 29, 24, .roH, 0, .kept, .kept⟩]⟩,
  ⟨"BOOT_ELAPSED", 0x03000C, 1, 1, 0, 1, 0, 1, 0,
    [⟨"US", 31, 0, .roH, 0, .cold, .kept⟩]⟩,
  ⟨"BOOT_CMD", 0x030010, 1, 1, 0, 1, 0, 1, 0,
    [⟨"OP", 3, 0, .wo, 0, .cold, .cold⟩,
     ⟨"SLOT", 4, 4, .wo, 0, .cold, .cold⟩,
     ⟨"IMAGE", 6, 5, .wo, 0, .cold, .cold⟩,
     ⟨"KEY", 31, 16, .wo, 0, .cold, .cold⟩]⟩,
  ⟨"BOOT_CMD_STATUS", 0x030014, 1, 1, 0, 1, 0, 1, 0,
    [⟨"BUSY", 0, 0, .roH, 0, .cold, .kept⟩,
     ⟨"DONE", 1, 1, .w1c, 0, .cold, .kept⟩,
     ⟨"RESULT", 10, 8, .roH, 0, .kept, .kept⟩,
     ⟨"STATUS", 23, 16, .roH, 0, .kept, .kept⟩,
     ⟨"DETAIL", 31, 24, .roH, 0, .kept, .kept⟩]⟩,
  ⟨"BOOT_SRC_ADDR", 0x030018, 2, 1, 0, 1, 0, 1, 0,
    [⟨"OFFSET", 63, 0, .rw, 0, .kept, .kept⟩]⟩,
  ⟨"BOOT_SRC_LEN", 0x030020, 1, 1, 0, 1, 0, 1, 0,
    [⟨"BYTES", 31, 0, .rw, 0, .kept, .kept⟩]⟩,
  ⟨"BOOT_TIME", 0x030040, 1, 15, 4, 1, 0, 1, 0,
    [⟨"US", 31, 0, .roH, 0, .cold, .kept⟩]⟩,
  ⟨"BOOT_FAIL", 0x030080, 1, 8, 4, 1, 0, 1, 0,
    [⟨"BYTES", 31, 0, .roH, 0, .kept, .kept⟩]⟩,
  ⟨"BOOT_FW_CMD", 0x030100, 1, 1, 0, 1, 0, 1, 0,
    [⟨"OP", 2, 0, .wo, 0, .cold, .cold⟩,
     ⟨"PROC", 5, 4, .wo, 0, .cold, .cold⟩,
     ⟨"KEY", 31, 16, .wo, 0, .cold, .cold⟩]⟩,
  ⟨"BOOT_FW_CMD_STATUS", 0x030104, 1, 1, 0, 1, 0, 1, 0,
    [⟨"BUSY", 0, 0, .roH, 0, .cold, .kept⟩,
     ⟨"DONE", 1, 1, .w1c, 0, .cold, .kept⟩,
     ⟨"RESULT", 10, 8, .roH, 0, .kept, .kept⟩,
     ⟨"STATUS", 23, 16, .roH, 0, .kept, .kept⟩,
     ⟨"DETAIL", 31, 24, .roH, 0, .kept, .kept⟩]⟩,
  ⟨"BOOT_FW_STATUS", 0x030108, 1, 1, 0, 1, 0, 1, 0,
    [⟨"HOT", 3, 0, .roH, 0, .cold, .kept⟩,
     ⟨"REVERTED", 7, 4, .w1c, 0, .cold, .kept⟩,
     ⟨"PENDING", 11, 8, .roH, 0, .cold, .kept⟩]⟩,
  ⟨"BOOT_FW_VERSION", 0x030120, 1, 4, 4, 1, 0, 1, 0,
    [⟨"VERSION", 31, 0, .roH, 0, .cold, .kept⟩]⟩,
  ⟨"BOOT_WDOG", 0x030130, 1, 4, 4, 1, 0, 1, 0,
    [⟨"TIMEOUT_MS", 9, 0, .roH, 100, .cold, .kept⟩,
     ⟨"EXPIRIES", 23, 16, .roH, 0, .kept, .kept⟩,
     ⟨"EXCEPTIONS", 31, 24, .roH, 0, .kept, .kept⟩]⟩,
  ⟨"BOOT_WDOG_EVENT", 0x030140, 2, 1, 0, 1, 0, 1, 0,
    [⟨"TIME_US", 31, 0, .roH, 0, .kept, .kept⟩,
     ⟨"PROCESSOR", 33, 32, .roH, 0, .kept, .kept⟩,
     ⟨"KIND", 36, 34, .roH, 0, .kept, .kept⟩,
     ⟨"OUTCOME", 38, 37, .roH, 0, .kept, .kept⟩]⟩,
  ⟨"BOOT_KEYMB_CMD", 0x030180, 1, 1, 0, 1, 0, 1, 0,
    [⟨"OP", 1, 0, .wo, 0, .cold, .cold⟩,
     ⟨"SLOT", 7, 4, .wo, 0, .cold, .cold⟩,
     ⟨"KEY", 31, 16, .wo, 0, .cold, .cold⟩]⟩,
  ⟨"BOOT_KEYMB_STATUS", 0x030184, 1, 1, 0, 1, 0, 1, 0,
    [⟨"BUSY", 0, 0, .roH, 0, .cold, .kept⟩,
     ⟨"DONE", 1, 1, .w1c, 0, .cold, .kept⟩,
     ⟨"RESULT", 10, 8, .roH, 0, .kept, .kept⟩,
     ⟨"LOADED", 31, 17, .roH, 0, .cold, .kept⟩]⟩,
  ⟨"BOOT_KEYMB_ADDR", 0x030188, 2, 1, 0, 1, 0, 1, 0,
    [⟨"OFFSET", 63, 0, .rw, 0, .kept, .kept⟩]⟩,
  ⟨"BOOT_KEYMB_KCV", 0x030190, 1, 1, 0, 1, 0, 1, 0,
    [⟨"KCV", 31, 0, .roH, 0, .kept, .kept⟩]⟩,
  ⟨"BOOT_KEYMB_EMPTY", 0x030194, 1, 1, 0, 1, 0, 1, 0,
    [⟨"COUNT", 31, 0, .roH, 0, .kept, .kept⟩]⟩]
/-- The registers of the BAR0 block at 0x04_0000. -/
def regRows04 : List RegRow := [
  ⟨"PLAN_CMD", 0x040000, 1, 1, 0, 1, 0, 1, 0,
    [⟨"OP", 3, 0, .wo, 0, .cold, .cold⟩,
     ⟨"ARG", 5, 4, .wo, 0, .cold, .cold⟩,
     ⟨"DRAIN", 6, 6, .wo, 0, .cold, .cold⟩,
     ⟨"KEY", 31, 16, .wo, 0, .cold, .cold⟩]⟩,
  ⟨"PLAN_STATUS", 0x040004, 1, 1, 0, 1, 0, 1, 0,
    [⟨"PHASE", 2, 0, .roH, 0, .cold, .kept⟩,
     ⟨"DONE", 3, 3, .w1c, 0, .cold, .kept⟩,
     ⟨"FALLBACK", 4, 4, .roH, 0, .kept, .kept⟩,
     ⟨"REVERTED", 5, 5, .w1c, 0, .kept, .kept⟩,
     ⟨"UNSTORED", 6, 6, .roH, 0, .kept, .kept⟩,
     ⟨"RESULT", 15, 8, .roH, 0, .kept, .kept⟩,
     ⟨"DETAIL", 23, 16, .roH, 0, .kept, .kept⟩,
     ⟨"SKIPPED", 27, 24, .roH, 0, .kept, .kept⟩]⟩,
  ⟨"PLAN_SRC_ADDR", 0x040008, 2, 1, 0, 1, 0, 1, 0,
    [⟨"OFFSET", 63, 0, .rw, 0, .kept, .kept⟩]⟩,
  ⟨"PLAN_SRC_LEN", 0x040010, 1, 1, 0, 1, 0, 1, 0,
    [⟨"BYTES", 31, 0, .rw, 0, .kept, .kept⟩]⟩,
  ⟨"PLAN_DRAIN", 0x040014, 1, 1, 0, 1, 0, 1, 0,
    [⟨"TIMEOUT_US", 19, 0, .rw, 10000, .kept, .kept⟩]⟩,
  ⟨"PLAN_ERROR", 0x040018, 2, 1, 0, 1, 0, 1, 0,
    [⟨"RECORD", 15, 0, .roH, 0, .kept, .kept⟩,
     ⟨"WORD", 31, 16, .roH, 0, .kept, .kept⟩,
     ⟨"IMAGE", 35, 32, .roH, 0, .kept, .kept⟩,
     ⟨"AREA", 36, 36, .roH, 0, .kept, .kept⟩]⟩,
  ⟨"PLAN_ACTIVE_ID", 0x040020, 2, 1, 0, 1, 0, 1, 0,
    [⟨"ID", 63, 0, .roH, 0, .kept, .kept⟩]⟩,
  ⟨"PLAN_ACTIVE_GEN", 0x040028, 1, 1, 0, 1, 0, 1, 0,
    [⟨"GEN", 31, 0, .roH, 0, .kept, .kept⟩]⟩,
  ⟨"PLAN_ACTIVE_INFO", 0x04002C, 1, 1, 0, 1, 0, 1, 0,
    [⟨"SECURITY_VERSION", 7, 0, .roH, 0, .kept, .kept⟩,
     ⟨"KEY_INDEX", 9, 8, .roH, 0, .kept, .kept⟩,
     ⟨"GRAFTS", 13, 10, .roH, 0, .kept, .kept⟩]⟩,
  ⟨"PLAN_KEYS", 0x040030, 1, 1, 0, 1, 0, 1, 0,
    [⟨"PROVISIONED", 3, 0, .ro, 0, .kept, .kept⟩,
     ⟨"REVOKED", 7, 4, .roH, 0, .kept, .kept⟩,
     ⟨"FLOOR", 13, 8, .roH, 0, .kept, .kept⟩]⟩,
  ⟨"PLAN_CLAMPS", 0x040034, 1, 1, 0, 1, 0, 1, 0,
    [⟨"COUNT", 31, 0, .roH, 0, .kept, .kept⟩]⟩,
  ⟨"PLAN_DIGEST", 0x040040, 1, 12, 4, 1, 0, 1, 0,
    [⟨"BYTES", 31, 0, .roH, 0, .kept, .kept⟩]⟩]
/-- The registers of the BAR0 block at 0x05_0000. -/
def regRows05 : List RegRow := [
  ⟨"ISLAND_STATE", 0x050000, 1, 72, 4, 1, 0, 1, 0,
    [⟨"STATE", 2, 0, .roH, 0, .kept, .kept⟩,
     ⟨"EPOCH", 15, 8, .roH, 0, .kept, .kept⟩,
     ⟨"LAST_CAUSE", 19, 16, .roH, 0, .kept, .kept⟩,
     ⟨"CLOSE_COUNT", 31, 24, .roH, 0, .kept, .kept⟩]⟩,
  ⟨"ISLAND_CLOCK", 0x050200, 1, 72, 4, 1, 0, 1, 0,
    [⟨"FREQ_MHZ", 10, 0, .roH, 0, .kept, .kept⟩,
     ⟨"SOURCE", 18, 16, .roH, 0, .kept, .kept⟩]⟩,
  ⟨"ISLAND_COUNT", 0x050400, 1, 72, 4, 1, 0, 1, 0,
    [⟨"STALE_SENT", 15, 0, .roH, 0, .kept, .kept⟩,
     ⟨"RESET_SENT", 31, 16, .roH, 0, .kept, .kept⟩]⟩,
  ⟨"ISLAND_DISCARD", 0x050600, 1, 72, 4, 1, 0, 1, 0,
    [⟨"DISCARDS", 31, 0, .roH, 0, .kept, .kept⟩]⟩,
  ⟨"ISLAND_CTRL", 0x050800, 1, 1, 0, 1, 0, 1, 0,
    [⟨"TARGET", 6, 0, .wo, 0, .cold, .cold⟩,
     ⟨"ACTION", 9, 8, .wo, 0, .cold, .cold⟩,
     ⟨"KEY", 31, 16, .wo, 0, .cold, .cold⟩]⟩,
  ⟨"ISLAND_CTRL_STATUS", 0x050804, 1, 1, 0, 1, 0, 1, 0,
    [⟨"BUSY", 0, 0, .roH, 0, .kept, .kept⟩,
     ⟨"RESULT", 3, 1, .roH, 0, .kept, .kept⟩]⟩,
  ⟨"ISLAND_EVENT", 0x050808, 2, 1, 0, 1, 0, 1, 0,
    [⟨"TIME_US", 31, 0, .roH, 0, .kept, .kept⟩,
     ⟨"ISLAND", 38, 32, .roH, 0, .kept, .kept⟩,
     ⟨"CAUSE", 43, 40, .roH, 0, .kept, .kept⟩,
     ⟨"OLD_EPOCH", 51, 44, .roH, 0, .kept, .kept⟩]⟩]
/-- The registers of the BAR0 block at 0x06_0000. -/
def regRows06 : List RegRow := [
  ⟨"HOSTQ_TOKEN", 0x060000, 1, 1, 0, 1, 0, 60, 0,
    [⟨"HOLDER", 1, 0, .roH, 3, .cold, .kept⟩,
     ⟨"HOW", 3, 2, .roH, 0, .cold, .kept⟩,
     ⟨"RESULT", 6, 4, .roH, 0, .cold, .kept⟩,
     ⟨"OP", 9, 8, .wo, 0, .cold, .cold⟩,
     ⟨"KEY", 31, 16, .wo, 0, .cold, .cold⟩]⟩,
  ⟨"HOSTQ_HEARTBEAT", 0x060004, 1, 1, 0, 1, 0, 60, 0,
    [⟨"AGE_MS", 15, 0, .roH, 0, .cold, .kept⟩,
     ⟨"ARMED", 16, 16, .roH, 0, .cold, .kept⟩,
     ⟨"BEAT", 31, 31, .wo, 0, .cold, .cold⟩]⟩,
  ⟨"HOSTQ_EVENT_CAUSE", 0x060010, 1, 1, 0, 1, 0, 60, 0,
    [⟨"CAUSE", 13, 0, .w1c, 0, .cold, .kept⟩]⟩,
  ⟨"HOSTQ_EVENT_MASK", 0x060014, 1, 1, 0, 1, 0, 60, 0,
    [⟨"MASK", 13, 0, .rw, 0x1FFF, .saved, .kept⟩]⟩,
  ⟨"HOSTQ_BAR4_BASE", 0x060020, 2, 1, 0, 1, 0, 60, 0,
    [⟨"BASE", 63, 0, .rw, 0, .saved, .kept⟩]⟩,
  ⟨"HOSTQ_BAR4_CTRL", 0x060028, 1, 1, 0, 1, 0, 60, 0,
    [⟨"KEY_SEL", 3, 0, .rw, 0, .saved, .kept⟩,
     ⟨"DENIED", 31, 16, .roH, 0, .cold, .kept⟩]⟩,
  ⟨"HOSTQ_LINK", 0x060030, 1, 1, 0, 1, 0, 60, 0,
    [⟨"SPEED", 3, 0, .roH, 0, .cold, .kept⟩,
     ⟨"WIDTH", 9, 4, .roH, 0, .cold, .kept⟩,
     ⟨"DOWN_COUNT", 23, 16, .roH, 0, .kept, .kept⟩,
     ⟨"ASPM_L1", 24, 24, .roH, 0, .cold, .kept⟩,
     ⟨"L12", 25, 25, .roH, 0, .cold, .kept⟩]⟩,
  ⟨"HOSTQ_DROPPED", 0x060034, 1, 1, 0, 1, 0, 60, 0,
    [⟨"COUNT", 31, 0, .roH, 0, .cold, .kept⟩]⟩,
  ⟨"HOSTQ_ERROR", 0x060038, 1, 1, 0, 1, 0, 60, 0,
    [⟨"CODE", 31, 0, .roH, 0, .cold, .kept⟩]⟩,
  ⟨"HOSTQ_URGENT_CFG", 0x060040, 1, 1, 0, 1, 0, 60, 0,
    [⟨"RESERVE_PLOT", 3, 0, .roH, 0, .cold, .cold⟩,
     ⟨"HAS_RESERVE", 4, 4, .roH, 0, .cold, .cold⟩,
     ⟨"SPILL_WAYS", 10, 8, .roH, 0, .cold, .cold⟩,
     ⟨"MAX_TILE_TIME_US", 23, 16, .roH, 0, .cold, .cold⟩]⟩,
  ⟨"HOSTQ_URGENT_STATUS", 0x060044, 1, 1, 0, 1, 0, 60, 0,
    [⟨"ASPM_L1", 0, 0, .roH, 0, .cold, .cold⟩,
     ⟨"SLOW_CLOCK", 1, 1, .roH, 0, .cold, .cold⟩,
     ⟨"NO_CLASS0_HOSE", 2, 2, .roH, 0, .cold, .cold⟩,
     ⟨"PREEMPTED", 7, 4, .roH, 0, .cold, .cold⟩]⟩,
  ⟨"HOSTQ_URGENT_LAST", 0x060048, 1, 1, 0, 1, 0, 60, 0,
    [⟨"TO_START", 15, 0, .roH, 0, .cold, .cold⟩,
     ⟨"REASON", 19, 16, .roH, 0, .cold, .cold⟩,
     ⟨"QUEUED", 20, 20, .roH, 0, .cold, .cold⟩,
     ⟨"SHADE", 21, 21, .roH, 0, .cold, .cold⟩,
     ⟨"PREEMPTED", 27, 24, .roH, 0, .cold, .cold⟩]⟩,
  ⟨"HOSTQ_URGENT_LAST_END", 0x06004C, 1, 1, 0, 1, 0, 60, 0,
    [⟨"TO_END", 23, 0, .roH, 0, .cold, .cold⟩]⟩,
  ⟨"HOSTQ_URGENT_MAX", 0x060050, 1, 1, 0, 1, 0, 60, 0,
    [⟨"TO_START", 15, 0, .w1c, 0, .cold, .cold⟩]⟩,
  ⟨"HOSTQ_URGENT_COUNT", 0x060054, 1, 1, 0, 1, 0, 60, 0,
    [⟨"ORDERS", 15, 0, .roH, 0, .cold, .cold⟩,
     ⟨"UNCOVERED", 31, 16, .roH, 0, .cold, .cold⟩]⟩,
  ⟨"HOSTQ_FN", 0x060100, 1, 8, 4, 1, 0, 60, 0,
    [⟨"ALLOT_BASE", 5, 0, .rw, 0, .kept, .kept⟩,
     ⟨"ALLOT_COUNT", 14, 8, .rw, 0, .kept, .kept⟩]⟩,
  ⟨"HOSTQ_RING_OWNER", 0x060200, 1, 64, 4, 1, 0, 60, 0,
    [⟨"SQ_FN", 2, 0, .rw, 0, .kept, .kept⟩,
     ⟨"CQ_FN", 10, 8, .rw, 0, .kept, .kept⟩]⟩,
  ⟨"SQ_BASE", 0x061000, 2, 64, 32, 1, 0, 60, 0,
    [⟨"ADDR", 63, 0, .rw, 0, .saved, .kept⟩]⟩,
  ⟨"SQ_CFG", 0x061008, 1, 64, 32, 1, 0, 60, 0,
    [⟨"SIZE_LOG2", 3, 0, .rw, 0, .saved, .kept⟩,
     ⟨"CQ", 13, 8, .rw, 0, .saved, .kept⟩,
     ⟨"ALLOT", 21, 16, .rw, 0, .saved, .kept⟩,
     ⟨"WEIGHT", 27, 24, .rw, 0, .saved, .kept⟩,
     ⟨"SPACE", 28, 28, .rw, 0, .saved, .kept⟩]⟩,
  ⟨"SQ_CTRL", 0x06100C, 1, 64, 32, 1, 0, 60, 0,
    [⟨"ENABLE", 0, 0, .rw, 0, .saved, .kept⟩]⟩,
  ⟨"SQ_STATUS", 0x061010, 1, 64, 32, 1, 0, 60, 0,
    [⟨"STATE", 1, 0, .roH, 0, .saved, .kept⟩,
     ⟨"HALT_REASON", 7, 4, .roH, 0, .saved, .kept⟩,
     ⟨"HEAD", 31, 16, .roH, 0, .saved, .kept⟩]⟩,
  ⟨"SQ_TAIL", 0x061014, 1, 64, 32, 1, 0, 60, 0,
    [⟨"VALUE", 15, 0, .roH, 0, .saved, .kept⟩,
     ⟨"DISCARDED", 31, 16, .roH, 0, .cold, .kept⟩]⟩,
  ⟨"CQ_BASE", 0x062000, 2, 64, 32, 1, 0, 60, 0,
    [⟨"ADDR", 63, 0, .rw, 0, .saved, .kept⟩]⟩,
  ⟨"CQ_CFG", 0x062008, 1, 64, 32, 1, 0, 60, 0,
    [⟨"SIZE_LOG2", 3, 0, .rw, 0, .saved, .kept⟩,
     ⟨"VECTOR", 13, 8, .rw, 0, .saved, .kept⟩,
     ⟨"IEN", 14, 14, .rw, 0, .saved, .kept⟩,
     ⟨"SPACE", 15, 15, .rw, 0, .saved, .kept⟩,
     ⟨"ALLOT", 21, 16, .rw, 0, .saved, .kept⟩,
     ⟨"COUNT", 27, 24, .rw, 0, .saved, .kept⟩,
     ⟨"TIME", 31, 28, .rw, 0, .saved, .kept⟩]⟩,
  ⟨"CQ_CTRL", 0x06200C, 1, 64, 32, 1, 0, 60, 0,
    [⟨"ENABLE", 0, 0, .rw, 0, .saved, .kept⟩]⟩,
  ⟨"CQ_STATUS", 0x062010, 1, 64, 32, 1, 0, 60, 0,
    [⟨"STATE", 1, 0, .roH, 0, .saved, .kept⟩,
     ⟨"PHASE", 2, 2, .roH, 1, .saved, .kept⟩,
     ⟨"HALT_REASON", 7, 4, .roH, 0, .saved, .kept⟩,
     ⟨"TAIL", 31, 16, .roH, 0, .saved, .kept⟩]⟩,
  ⟨"CQ_HEAD", 0x062014, 1, 64, 32, 1, 0, 60, 0,
    [⟨"VALUE", 15, 0, .roH, 0, .saved, .kept⟩,
     ⟨"DISCARDED", 31, 16, .roH, 0, .cold, .kept⟩]⟩,
  ⟨"CQ_COUNT", 0x062018, 1, 64, 32, 1, 0, 60, 0,
    [⟨"CQ_FULL", 15, 0, .roH, 0, .cold, .kept⟩,
     ⟨"CQ_LOST", 31, 16, .roH, 0, .cold, .kept⟩]⟩]
/-- The registers of the BAR0 block at 0x07_0000. -/
def regRows07 : List RegRow := [
  ⟨"MMU_INVAL", 0x070000, 1, 1, 0, 1, 0, 60, 0,
    [⟨"OP", 1, 0, .wo, 0, .cold, .cold⟩,
     ⟨"ALLOT", 13, 8, .wo, 0, .cold, .cold⟩,
     ⟨"KEY", 31, 16, .wo, 0, .cold, .cold⟩]⟩,
  ⟨"MMU_INVAL_STATUS", 0x070004, 1, 1, 0, 1, 0, 60, 0,
    [⟨"BUSY", 0, 0, .roH, 0, .cold, .kept⟩,
     ⟨"DONE", 1, 1, .w1c, 0, .cold, .kept⟩,
     ⟨"RESULT", 10, 8, .roH, 0, .kept, .kept⟩]⟩,
  ⟨"MMU_INVAL_VA", 0x070008, 2, 1, 0, 1, 0, 60, 0,
    [⟨"VA", 63, 0, .rw, 0, .cold, .kept⟩]⟩,
  ⟨"MMU_INVAL_PAGES", 0x070010, 1, 1, 0, 1, 0, 60, 0,
    [⟨"PAGES", 19, 0, .rw, 0, .cold, .kept⟩]⟩,
  ⟨"MMU_WALKS", 0x070020, 1, 1, 0, 1, 0, 60, 0,
    [⟨"COUNT", 31, 0, .roH, 0, .cold, .kept⟩]⟩,
  ⟨"MMU_FAULTS", 0x070024, 1, 1, 0, 1, 0, 60, 0,
    [⟨"COUNT", 31, 0, .roH, 0, .cold, .kept⟩]⟩,
  ⟨"MMU_ALLOT_ROOT", 0x070100, 2, 64, 16, 1, 0, 60, 0,
    [⟨"EN", 0, 0, .rw, 0, .saved, .kept⟩,
     ⟨"ROOT_SPACE", 1, 1, .rw, 0, .saved, .kept⟩,
     ⟨"ROOT", 51, 12, .rw, 0, .saved, .kept⟩]⟩,
  ⟨"MMU_ALLOT_STAT", 0x070108, 1, 64, 16, 1, 0, 60, 0,
    [⟨"FAULTS", 15, 0, .roH, 0, .cold, .kept⟩,
     ⟨"TIMEOUTS", 31, 16, .roH, 0, .cold, .kept⟩]⟩,
  ⟨"MMU_FR_BASE", 0x070800, 2, 8, 32, 1, 0, 60, 0,
    [⟨"ADDR", 63, 0, .rw, 0, .saved, .kept⟩]⟩,
  ⟨"MMU_FR_CFG", 0x070808, 1, 8, 32, 1, 0, 60, 0,
    [⟨"SIZE_LOG2", 3, 0, .rw, 0, .saved, .kept⟩,
     ⟨"BATCH_MAX", 15, 8, .rw, 0, .saved, .kept⟩,
     ⟨"BATCH_TIME_US", 25, 16, .rw, 0, .saved, .kept⟩,
     ⟨"ENABLE", 31, 31, .rw, 0, .saved, .kept⟩]⟩,
  ⟨"MMU_FR_STATUS", 0x07080C, 1, 8, 32, 1, 0, 60, 0,
    [⟨"FREE", 11, 0, .roH, 0, .saved, .kept⟩,
     ⟨"PHASE", 12, 12, .roH, 1, .saved, .kept⟩,
     ⟨"RING_WAIT", 13, 13, .roH, 0, .cold, .kept⟩,
     ⟨"LAST_BATCH", 31, 16, .roH, 0, .saved, .kept⟩]⟩,
  ⟨"MMU_FR_COUNT", 0x070810, 1, 8, 32, 1, 0, 60, 0,
    [⟨"LATE", 15, 0, .roH, 0, .cold, .kept⟩,
     ⟨"UNREPORTED", 31, 16, .roH, 0, .cold, .kept⟩]⟩]
/-- The registers of the BAR0 block at 0x08_0000. -/
def regRows08 : List RegRow := [
  ⟨"HOSE_CFG", 0x080000, 1, 2, 65536, 16, 256, 67, 1,
    [⟨"OWNER", 1, 0, .rw, 0, .saved, .kept⟩,
     ⟨"FN", 6, 4, .rw, 0, .saved, .kept⟩,
     ⟨"UP_EN", 8, 8, .rw, 0, .saved, .kept⟩,
     ⟨"UP_ENGINE", 9, 9, .rw, 0, .saved, .kept⟩,
     ⟨"UP_CHANNEL", 15, 12, .rw, 0, .saved, .kept⟩]⟩,
  ⟨"HOSE_STATE", 0x080004, 1, 2, 65536, 16, 256, 67, 1,
    [⟨"STATE", 2, 0, .roH, 0, .cold, .cold⟩,
     ⟨"QUEUED", 6, 4, .roH, 0, .cold, .cold⟩,
     ⟨"CLASS", 9, 8, .roH, 0, .cold, .cold⟩,
     ⟨"LAST_STATUS", 23, 16, .roH, 0, .cold, .cold⟩]⟩,
  ⟨"HOSE_CURSOR", 0x080008, 1, 2, 65536, 16, 256, 67, 1,
    [⟨"SLAB", 31, 0, .roH, 0, .cold, .kept⟩]⟩,
  ⟨"HOSE_STALL", 0x08000C, 1, 2, 65536, 16, 256, 67, 1,
    [⟨"ELEM", 31, 0, .roH, 0, .cold, .cold⟩]⟩,
  ⟨"HOSE_RELEASE", 0x080010, 1, 2, 65536, 16, 256, 67, 1,
    [⟨"COUNT", 31, 0, .roH, 0, .cold, .cold⟩]⟩,
  ⟨"HOSE_IN_CREDITS", 0x080014, 1, 2, 65536, 16, 256, 67, 1,
    [⟨"COUNT", 31, 0, .rw, 0, .cold, .cold⟩]⟩,
  ⟨"HOSE_ERR", 0x080018, 1, 2, 65536, 16, 256, 67, 1,
    [⟨"OVER_RELEASE", 15, 0, .roH, 0, .cold, .kept⟩,
     ⟨"CFG_REFUSED", 31, 16, .roH, 0, .cold, .kept⟩]⟩,
  ⟨"HOSE_RELEASE_ADD", 0x08001C, 1, 2, 65536, 16, 256, 67, 1,
    [⟨"ADD", 15, 0, .wo, 0, .cold, .cold⟩]⟩,
  ⟨"HOSE_BYTES", 0x081000, 2, 2, 65536, 1, 0, 67, 1,
    [⟨"BYTES", 63, 0, .roH, 0, .cold, .cold⟩]⟩]
/-- The registers of the BAR0 block at 0x0A_0000. -/
def regRows0A : List RegRow := [
  ⟨"SHED_CTRL", 0x0A0000, 1, 4, 4096, 1, 0, 52, 1,
    [⟨"PREFETCH", 0, 0, .rw, 1, .cold, .cold⟩]⟩,
  ⟨"SHED_STATUS", 0x0A0004, 1, 4, 4096, 1, 0, 52, 1,
    [⟨"LOCKED_WAYS", 3, 0, .roH, 0, .cold, .cold⟩,
     ⟨"SPILL_WAYS", 6, 4, .roH, 0, .cold, .cold⟩,
     ⟨"WRITE_THROUGH", 8, 8, .roH, 0, .cold, .cold⟩,
     ⟨"DIRTY_LINES", 31, 16, .roH, 0, .cold, .cold⟩]⟩,
  ⟨"SHED_HITS", 0x0A0008, 1, 4, 4096, 1, 0, 52, 1,
    [⟨"COUNT", 31, 0, .roH, 0, .cold, .cold⟩]⟩,
  ⟨"SHED_MISSES", 0x0A000C, 1, 4, 4096, 1, 0, 52, 1,
    [⟨"COUNT", 31, 0, .roH, 0, .cold, .cold⟩]⟩,
  ⟨"SHED_PREFETCH", 0x0A0010, 1, 4, 4096, 1, 0, 52, 1,
    [⟨"ISSUED", 15, 0, .roH, 0, .cold, .cold⟩,
     ⟨"USED", 31, 16, .roH, 0, .cold, .cold⟩]⟩,
  ⟨"SHED_KEY_CONFLICT", 0x0A0014, 1, 4, 4096, 1, 0, 52, 1,
    [⟨"COUNT", 31, 0, .roH, 0, .cold, .cold⟩]⟩,
  ⟨"SHED_LOST", 0x0A0018, 1, 4, 4096, 1, 0, 52, 1,
    [⟨"COUNT", 31, 0, .roH, 0, .cold, .cold⟩]⟩,
  ⟨"SHED_LOCK", 0x0A0100, 4, 4, 4096, 12, 16, 52, 1,
    [⟨"BASE", 39, 0, .roH, 0, .cold, .cold⟩,
     ⟨"PAGES", 79, 64, .roH, 0, .cold, .cold⟩,
     ⟨"WAYS", 83, 80, .roH, 0, .cold, .cold⟩,
     ⟨"KEY_SEL", 87, 84, .roH, 0, .cold, .cold⟩,
     ⟨"FIRST_WAY", 91, 88, .roH, 0, .cold, .cold⟩,
     ⟨"STATE", 97, 96, .roH, 0, .cold, .cold⟩,
     ⟨"EMPTY", 127, 112, .roH, 0, .cold, .cold⟩]⟩,
  ⟨"SHED_CMD", 0x0A4000, 1, 1, 0, 1, 0, 1, 0,
    [⟨"OP", 1, 0, .wo, 0, .cold, .cold⟩,
     ⟨"SLICE", 5, 4, .wo, 0, .cold, .cold⟩,
     ⟨"ENTRY", 11, 8, .wo, 0, .cold, .cold⟩,
     ⟨"KEY", 31, 16, .wo, 0, .cold, .cold⟩]⟩,
  ⟨"SHED_CMD_STATUS", 0x0A4004, 1, 1, 0, 1, 0, 1, 0,
    [⟨"BUSY", 0, 0, .roH, 0, .cold, .kept⟩,
     ⟨"DONE", 1, 1, .w1c, 0, .cold, .kept⟩,
     ⟨"RESULT", 10, 8, .roH, 0, .kept, .kept⟩]⟩]
/-- The registers of the BAR0 block at 0x0B_0000. -/
def regRows0B : List RegRow := [
  ⟨"MEMC_CFG", 0x0B0000, 1, 2, 256, 1, 0, 69, 1,
    [⟨"RATE", 3, 0, .roH, 0, .cold, .cold⟩,
     ⟨"ECC", 4, 4, .roH, 0, .cold, .cold⟩,
     ⟨"RANKS", 6, 5, .roH, 0, .cold, .cold⟩,
     ⟨"CAP_GIB", 12, 8, .roH, 0, .cold, .cold⟩,
     ⟨"STATE", 17, 16, .roH, 0, .cold, .cold⟩,
     ⟨"REFRESH_X2", 18, 18, .roH, 0, .cold, .cold⟩]⟩,
  ⟨"MEMC_ECC", 0x0B0004, 1, 2, 256, 1, 0, 69, 1,
    [⟨"CORRECTED", 15, 0, .roH, 0, .cold, .cold⟩,
     ⟨"UNCORRECTABLE", 31, 16, .roH, 0, .cold, .cold⟩]⟩,
  ⟨"MEMC_ECC_ADDR", 0x0B0008, 2, 2, 256, 1, 0, 69, 1,
    [⟨"PA", 63, 0, .roH, 0, .cold, .cold⟩]⟩,
  ⟨"MEMC_BYTES", 0x0B0010, 1, 2, 256, 3, 4, 69, 1,
    [⟨"UNITS", 31, 0, .roH, 0, .cold, .cold⟩]⟩,
  ⟨"MEMC_QOS", 0x0B001C, 1, 2, 256, 1, 0, 69, 1,
    [⟨"CAP_HITS", 15, 0, .roH, 0, .cold, .cold⟩]⟩,
  ⟨"MEMC_DENIED", 0x0B0020, 1, 2, 256, 1, 0, 69, 1,
    [⟨"COUNT", 31, 0, .roH, 0, .cold, .cold⟩]⟩,
  ⟨"MEMC_USABLE", 0x0B0200, 2, 1, 0, 1, 0, 1, 0,
    [⟨"BYTES", 63, 0, .roH, 0, .kept, .kept⟩]⟩,
  ⟨"MEMC_PKT", 0x0B0208, 1, 1, 0, 1, 0, 1, 0,
    [⟨"PKT_MIB", 8, 0, .roH, 0, .kept, .kept⟩]⟩,
  ⟨"MEMC_QOS_CFG", 0x0B020C, 1, 1, 0, 1, 0, 1, 0,
    [⟨"CLASS0_CAP", 7, 0, .roH, 0, .kept, .kept⟩,
     ⟨"CLASS2_MIN", 15, 8, .roH, 0, .kept, .kept⟩]⟩]
/-- The registers of the BAR0 block at 0x0C_0000. -/
def regRows0C : List RegRow := [
  ⟨"RAKE_STATUS", 0x0C0000, 1, 1, 0, 1, 0, 65, 0,
    [⟨"PHASE", 1, 0, .roH, 0, .cold, .cold⟩,
     ⟨"JOBS", 7, 4, .roH, 0, .cold, .cold⟩]⟩,
  ⟨"RAKE_NEXT_RESOLVE", 0x0C0004, 1, 1, 0, 1, 0, 65, 0,
    [⟨"TILE", 31, 0, .roH, 0, .cold, .cold⟩]⟩,
  ⟨"RAKE_ENTRIES", 0x0C0008, 1, 1, 0, 1, 0, 65, 0,
    [⟨"COUNT", 31, 0, .roH, 0, .cold, .cold⟩]⟩,
  ⟨"RAKE_REJECT_0", 0x0C000C, 1, 1, 0, 1, 0, 65, 0,
    [⟨"CULLED", 15, 0, .roH, 0, .cold, .cold⟩,
     ⟨"SCORE_CLASS", 31, 16, .roH, 0, .cold, .cold⟩]⟩,
  ⟨"RAKE_REJECT_1", 0x0C0010, 1, 1, 0, 1, 0, 65, 0,
    [⟨"NO_HOMOG", 15, 0, .roH, 0, .cold, .cold⟩,
     ⟨"BEHIND", 31, 16, .roH, 0, .cold, .cold⟩]⟩,
  ⟨"RAKE_REJECT_2", 0x0C0014, 1, 1, 0, 1, 0, 65, 0,
    [⟨"OUTSIDE", 15, 0, .roH, 0, .cold, .cold⟩]⟩]
/-- The registers of the BAR0 block at 0x0D_0000. -/
def regRows0D : List RegRow := [
  ⟨"INTAKE_MAC", 0x0D0000, 2, 1, 0, 1, 0, 61, 0,
    [⟨"MAC", 47, 0, .rw, 0, .cold, .cold⟩]⟩,
  ⟨"INTAKE_IP4", 0x0D0008, 1, 1, 0, 1, 0, 61, 0,
    [⟨"ADDR", 31, 0, .rw, 0, .cold, .cold⟩]⟩,
  ⟨"INTAKE_SW_CFG", 0x0D0010, 1, 1, 0, 1, 0, 61, 0,
    [⟨"AGE_S", 15, 0, .rw, 300, .cold, .cold⟩]⟩,
  ⟨"INTAKE_MAC_FULL", 0x0D0014, 1, 1, 0, 1, 0, 61, 0,
    [⟨"COUNT", 31, 0, .roH, 0, .cold, .cold⟩]⟩,
  ⟨"INTAKE_PORT_CFG", 0x0D0100, 1, 4, 64, 1, 0, 61, 0,
    [⟨"MODE", 2, 0, .rw, 0, .cold, .cold⟩,
     ⟨"AN", 3, 3, .rw, 0, .cold, .cold⟩,
     ⟨"PVID", 27, 16, .rw, 1, .cold, .cold⟩]⟩,
  ⟨"INTAKE_PORT_STATUS", 0x0D0104, 1, 4, 64, 1, 0, 61, 0,
    [⟨"LINK", 3, 0, .roH, 0, .cold, .cold⟩]⟩,
  ⟨"INTAKE_PORT_COUNT", 0x0D0108, 1, 4, 64, 6, 4, 61, 0,
    [⟨"COUNT", 31, 0, .roH, 0, .cold, .cold⟩]⟩,
  ⟨"INTAKE_CBS", 0x0D0300, 1, 32, 4, 1, 0, 61, 0,
    [⟨"IDLE_MBPS", 15, 0, .rw, 0, .cold, .cold⟩,
     ⟨"EN", 31, 31, .rw, 0, .cold, .cold⟩]⟩,
  ⟨"INTAKE_VLAN", 0x0D0400, 1, 256, 4, 1, 0, 61, 0,
    [⟨"VID", 11, 0, .rw, 0, .cold, .cold⟩,
     ⟨"MEMBER", 21, 16, .rw, 0, .cold, .cold⟩,
     ⟨"UNTAG", 29, 24, .rw, 0, .cold, .cold⟩,
     ⟨"VALID", 31, 31, .rw, 0, .cold, .cold⟩]⟩,
  ⟨"INTAKE_TIME_NOW", 0x0D0800, 2, 1, 0, 1, 0, 61, 0,
    [⟨"NS", 63, 0, .roH, 0, .cold, .cold⟩]⟩,
  ⟨"INTAKE_TIME_CFG", 0x0D0808, 1, 1, 0, 1, 0, 61, 0,
    [⟨"UTC_OFFSET", 7, 0, .rw, 37, .cold, .cold⟩,
     ⟨"PTP_PORT", 10, 8, .rw, 0, .cold, .cold⟩]⟩,
  ⟨"INTAKE_TIME_STATUS", 0x0D080C, 1, 1, 0, 1, 0, 61, 0,
    [⟨"STATE", 1, 0, .roH, 0, .cold, .cold⟩,
     ⟨"OFFSET_NS", 31, 16, .roH, 0, .cold, .cold⟩]⟩,
  ⟨"INTAKE_VNIC_RX_BASE", 0x0D0900, 2, 1, 0, 1, 0, 61, 0,
    [⟨"ADDR", 63, 0, .rw, 0, .cold, .cold⟩]⟩,
  ⟨"INTAKE_VNIC_TX_BASE", 0x0D0908, 2, 1, 0, 1, 0, 61, 0,
    [⟨"ADDR", 63, 0, .rw, 0, .cold, .cold⟩]⟩,
  ⟨"INTAKE_VNIC_CFG", 0x0D0910, 1, 1, 0, 1, 0, 61, 0,
    [⟨"SIZE_LOG2", 3, 0, .rw, 0, .cold, .cold⟩,
     ⟨"VECTOR", 13, 8, .rw, 0, .cold, .cold⟩,
     ⟨"EN", 31, 31, .rw, 0, .cold, .cold⟩]⟩,
  ⟨"INTAKE_VNIC_RX_TAIL", 0x0D0914, 1, 1, 0, 1, 0, 61, 0,
    [⟨"TAIL", 15, 0, .wo, 0, .cold, .cold⟩]⟩,
  ⟨"INTAKE_VNIC_TX_TAIL", 0x0D0918, 1, 1, 0, 1, 0, 61, 0,
    [⟨"TAIL", 15, 0, .wo, 0, .cold, .cold⟩]⟩,
  ⟨"INTAKE_VNIC_DROP", 0x0D091C, 1, 1, 0, 1, 0, 61, 0,
    [⟨"COUNT", 31, 0, .roH, 0, .cold, .cold⟩]⟩,
  ⟨"INTAKE_PKT_HEAD", 0x0D0A00, 2, 1, 0, 1, 0, 61, 0,
    [⟨"OFFSET", 31, 0, .roH, 0, .cold, .cold⟩,
     ⟨"COUNT", 63, 32, .roH, 0, .cold, .cold⟩]⟩,
  ⟨"INTAKE_EVENT_SLOTS", 0x0D0A10, 2, 1, 0, 1, 0, 61, 0,
    [⟨"MASK", 63, 0, .w1c, 0, .cold, .cold⟩]⟩,
  ⟨"INTAKE_EVENT_GROUPS", 0x0D0A18, 1, 1, 0, 1, 0, 61, 0,
    [⟨"MASK", 7, 0, .w1c, 0, .cold, .cold⟩]⟩,
  ⟨"INTAKE_SLOT_CFG", 0x0D4000, 1, 64, 256, 1, 0, 62, 0,
    [⟨"RUN", 0, 0, .rw, 0, .cold, .cold⟩,
     ⟨"SOURCE", 1, 1, .rw, 0, .cold, .cold⟩,
     ⟨"IPV6", 2, 2, .rw, 0, .cold, .cold⟩,
     ⟨"LOSS", 3, 3, .rw, 0, .cold, .cold⟩,
     ⟨"TENBIT", 4, 4, .rw, 0, .cold, .cold⟩,
     ⟨"RING_MODE", 5, 5, .rw, 0, .cold, .cold⟩,
     ⟨"PT", 14, 8, .rw, 0, .cold, .cold⟩,
     ⟨"VID", 27, 16, .rw, 0, .cold, .cold⟩]⟩,
  ⟨"INTAKE_SLOT_STATE", 0x0D4004, 1, 64, 256, 1, 0, 62, 0,
    [⟨"STATE", 2, 0, .roH, 0, .cold, .cold⟩,
     ⟨"KEYED", 3, 3, .roH, 0, .cold, .cold⟩,
     ⟨"RESULT", 7, 4, .roH, 0, .cold, .cold⟩,
     ⟨"ERROR_STATUS", 15, 8, .roH, 0, .cold, .cold⟩,
     ⟨"DETAIL", 23, 16, .roH, 0, .cold, .cold⟩]⟩,
  ⟨"INTAKE_MATCH_PORTS", 0x0D4008, 1, 64, 256, 1, 0, 62, 0,
    [⟨"SRC_UDP", 15, 0, .rw, 0, .cold, .cold⟩,
     ⟨"DST_UDP", 31, 16, .rw, 0, .cold, .cold⟩]⟩,
  ⟨"INTAKE_MATCH_RTCP", 0x0D400C, 1, 64, 256, 1, 0, 62, 0,
    [⟨"RTCP_DST", 15, 0, .rw, 0, .cold, .cold⟩,
     ⟨"RTCP_SRC", 31, 16, .rw, 0, .cold, .cold⟩]⟩,
  ⟨"INTAKE_MATCH_SRC_IP", 0x0D4010, 1, 64, 256, 4, 4, 62, 0,
    [⟨"BYTES", 31, 0, .rw, 0, .cold, .cold⟩]⟩,
  ⟨"INTAKE_MATCH_DST_IP", 0x0D4020, 1, 64, 256, 4, 4, 62, 0,
    [⟨"BYTES", 31, 0, .rw, 0, .cold, .cold⟩]⟩,
  ⟨"INTAKE_ALLOT", 0x0D4030, 1, 64, 256, 1, 0, 62, 0,
    [⟨"ALLOT", 5, 0, .rw, 0, .cold, .cold⟩]⟩,
  ⟨"INTAKE_CPB_VA", 0x0D4038, 2, 64, 256, 1, 0, 62, 0,
    [⟨"VA", 63, 0, .rw, 0, .cold, .cold⟩]⟩,
  ⟨"INTAKE_CPB_KIB", 0x0D4040, 1, 64, 256, 1, 0, 62, 0,
    [⟨"KIB", 31, 0, .rw, 0, .cold, .cold⟩]⟩,
  ⟨"INTAKE_DPB_VA", 0x0D4048, 2, 64, 256, 1, 0, 62, 0,
    [⟨"VA", 63, 0, .rw, 0, .cold, .cold⟩]⟩,
  ⟨"INTAKE_DPB_KIB", 0x0D4050, 1, 64, 256, 1, 0, 62, 0,
    [⟨"KIB", 31, 0, .rw, 0, .cold, .cold⟩]⟩,
  ⟨"INTAKE_FEED_BASE", 0x0D4058, 2, 64, 256, 1, 0, 62, 0,
    [⟨"VA", 63, 0, .rw, 0, .cold, .cold⟩]⟩,
  ⟨"INTAKE_FEED_SIZE", 0x0D4060, 1, 64, 256, 1, 0, 62, 0,
    [⟨"SIZE_LOG2", 3, 0, .rw, 0, .cold, .cold⟩]⟩,
  ⟨"INTAKE_FEED_TAIL", 0x0D4064, 1, 64, 256, 1, 0, 62, 0,
    [⟨"TAIL", 15, 0, .wo, 0, .cold, .cold⟩]⟩,
  ⟨"INTAKE_FEED_HEAD", 0x0D4068, 1, 64, 256, 1, 0, 62, 0,
    [⟨"HEAD", 15, 0, .roH, 0, .cold, .cold⟩]⟩,
  ⟨"INTAKE_KEY", 0x0D4070, 1, 64, 256, 8, 4, 62, 0,
    [⟨"BYTES", 31, 0, .wo, 0, .cold, .cold⟩]⟩,
  ⟨"INTAKE_ROC", 0x0D4090, 1, 64, 256, 1, 0, 62, 0,
    [⟨"ROC", 31, 0, .rw, 0, .cold, .cold⟩]⟩,
  ⟨"INTAKE_SSRC", 0x0D4094, 1, 64, 256, 1, 0, 62, 0,
    [⟨"SSRC", 31, 0, .roH, 0, .cold, .cold⟩]⟩,
  ⟨"INTAKE_SLOT_COUNT", 0x0D4098, 1, 64, 256, 8, 4, 62, 0,
    [⟨"COUNT", 31, 0, .roH, 0, .cold, .cold⟩]⟩]
/-- The registers of the BAR0 block at 0x0E_0000. -/
def regRows0E : List RegRow := [
  ⟨"DECODE_REC_VA", 0x0E0000, 2, 64, 512, 1, 0, 62, 0,
    [⟨"VA", 63, 0, .rw, 0, .cold, .cold⟩]⟩,
  ⟨"DECODE_NOTIFY_VA", 0x0E0008, 2, 64, 512, 1, 0, 62, 0,
    [⟨"VA", 63, 0, .rw, 0, .cold, .cold⟩]⟩,
  ⟨"DECODE_WRITTEN", 0x0E0010, 1, 64, 512, 1, 0, 62, 0,
    [⟨"COUNT", 31, 0, .roH, 0, .cold, .cold⟩]⟩,
  ⟨"DECODE_RELEASED", 0x0E0014, 1, 64, 512, 1, 0, 62, 0,
    [⟨"COUNT", 31, 0, .roH, 0, .cold, .cold⟩]⟩,
  ⟨"DECODE_RELEASE_ADD", 0x0E0018, 1, 64, 512, 1, 0, 62, 0,
    [⟨"ADD", 15, 0, .wo, 0, .cold, .cold⟩]⟩,
  ⟨"DECODE_FRAMES", 0x0E001C, 1, 64, 512, 1, 0, 62, 0,
    [⟨"COUNT", 31, 0, .roH, 0, .cold, .cold⟩]⟩,
  ⟨"DECODE_DROPPED", 0x0E0020, 1, 64, 512, 1, 0, 62, 0,
    [⟨"RING", 15, 0, .roH, 0, .cold, .cold⟩,
     ⟨"SKIPS", 31, 16, .roH, 0, .cold, .cold⟩]⟩,
  ⟨"DECODE_PICTURE", 0x0E0024, 1, 64, 512, 1, 0, 62, 0,
    [⟨"WIDTH", 15, 0, .roH, 0, .cold, .cold⟩,
     ⟨"HEIGHT", 31, 16, .roH, 0, .cold, .cold⟩]⟩,
  ⟨"DECODE_OUT_CFG", 0x0E0080, 1, 64, 512, 4, 64, 62, 0,
    [⟨"EN", 0, 0, .rw, 0, .cold, .cold⟩,
     ⟨"FORMAT", 6, 4, .rw, 0, .cold, .cold⟩,
     ⟨"DEST", 8, 8, .rw, 0, .cold, .cold⟩,
     ⟨"GROUP", 14, 12, .rw, 0, .cold, .cold⟩]⟩,
  ⟨"DECODE_OUT_CROP_XY", 0x0E0084, 1, 64, 512, 4, 64, 62, 0,
    [⟨"X", 15, 0, .rw, 0, .cold, .cold⟩,
     ⟨"Y", 31, 16, .rw, 0, .cold, .cold⟩]⟩,
  ⟨"DECODE_OUT_CROP_WH", 0x0E0088, 1, 64, 512, 4, 64, 62, 0,
    [⟨"W", 15, 0, .rw, 0, .cold, .cold⟩,
     ⟨"H", 31, 16, .rw, 0, .cold, .cold⟩]⟩,
  ⟨"DECODE_OUT_SIZE", 0x0E008C, 1, 64, 512, 4, 64, 62, 0,
    [⟨"W", 15, 0, .rw, 0, .cold, .cold⟩,
     ⟨"H", 31, 16, .rw, 0, .cold, .cold⟩]⟩,
  ⟨"DECODE_OUT_BASE", 0x0E0090, 2, 64, 512, 4, 64, 62, 0,
    [⟨"VA", 63, 0, .rw, 0, .cold, .cold⟩]⟩,
  ⟨"DECODE_OUT_PITCH", 0x0E0098, 1, 64, 512, 4, 64, 62, 0,
    [⟨"PITCH", 31, 0, .rw, 0, .cold, .cold⟩]⟩,
  ⟨"DECODE_OUT_PLANE", 0x0E009C, 1, 64, 512, 4, 64, 62, 0,
    [⟨"PLANE", 31, 0, .rw, 0, .cold, .cold⟩]⟩,
  ⟨"DECODE_OUT_STRIDE", 0x0E00A0, 1, 64, 512, 4, 64, 62, 0,
    [⟨"STRIDE", 31, 0, .rw, 0, .cold, .cold⟩]⟩,
  ⟨"DECODE_GROUP_CFG", 0x0E8000, 1, 8, 64, 1, 0, 62, 0,
    [⟨"EN", 0, 0, .rw, 0, .cold, .cold⟩,
     ⟨"STATE", 2, 1, .roH, 0, .cold, .cold⟩,
     ⟨"ALLOT", 13, 8, .rw, 0, .cold, .cold⟩,
     ⟨"BANDS", 23, 16, .rw, 0, .cold, .cold⟩,
     ⟨"FORMAT", 26, 24, .rw, 0, .cold, .cold⟩]⟩,
  ⟨"DECODE_GROUP_SIZE", 0x0E8004, 1, 8, 64, 1, 0, 62, 0,
    [⟨"OUT_W", 15, 0, .rw, 0, .cold, .cold⟩,
     ⟨"OUT_H", 31, 16, .rw, 0, .cold, .cold⟩]⟩,
  ⟨"DECODE_GROUP_STAGE_VA", 0x0E8008, 2, 8, 64, 1, 0, 62, 0,
    [⟨"VA", 63, 0, .rw, 0, .cold, .cold⟩]⟩,
  ⟨"DECODE_GROUP_DST_VA", 0x0E8010, 2, 8, 64, 1, 0, 62, 0,
    [⟨"VA", 63, 0, .rw, 0, .cold, .cold⟩]⟩,
  ⟨"DECODE_GROUP_ROW_STRIDE", 0x0E8018, 1, 8, 64, 1, 0, 62, 0,
    [⟨"BYTES", 31, 0, .rw, 0, .cold, .cold⟩]⟩,
  ⟨"DECODE_GROUP_PLANE_STRIDE", 0x0E801C, 1, 8, 64, 1, 0, 62, 0,
    [⟨"BYTES", 31, 0, .rw, 0, .cold, .cold⟩]⟩,
  ⟨"DECODE_GROUP_SLAB_STRIDE", 0x0E8020, 1, 8, 64, 1, 0, 62, 0,
    [⟨"BYTES", 31, 0, .rw, 0, .cold, .cold⟩]⟩,
  ⟨"DECODE_GROUP_RING_SLABS", 0x0E8024, 1, 8, 64, 1, 0, 62, 0,
    [⟨"COUNT", 15, 0, .rw, 0, .cold, .cold⟩]⟩,
  ⟨"DECODE_GROUP_CREDIT", 0x0E8028, 2, 8, 64, 1, 0, 62, 0,
    [⟨"MODE", 1, 0, .rw, 0, .cold, .cold⟩,
     ⟨"FIELD", 63, 16, .rw, 0, .cold, .cold⟩]⟩,
  ⟨"DECODE_GROUP_SLABS", 0x0E8038, 1, 8, 64, 1, 0, 62, 0,
    [⟨"COUNT", 31, 0, .roH, 0, .cold, .cold⟩]⟩,
  ⟨"DECODE_ENG_LOAD", 0x0EA000, 1, 2, 64, 1, 0, 63, 1,
    [⟨"MSPS", 31, 0, .roH, 0, .cold, .cold⟩]⟩]
/-- The registers of the BAR0 block at 0x0F_0000. -/
def regRows0F : List RegRow := [
  ⟨"FURROW_STATUS", 0x0F0000, 1, 1, 0, 1, 0, 66, 0,
    [⟨"BUSY", 0, 0, .roH, 0, .cold, .cold⟩,
     ⟨"QUEUED", 3, 1, .roH, 0, .cold, .cold⟩,
     ⟨"OP", 4, 4, .roH, 0, .cold, .cold⟩]⟩,
  ⟨"FURROW_RAW_TOTAL", 0x0F0008, 2, 1, 0, 1, 0, 66, 0,
    [⟨"BYTES", 63, 0, .roH, 0, .cold, .cold⟩]⟩,
  ⟨"FURROW_CODED_TOTAL", 0x0F0010, 2, 1, 0, 1, 0, 66, 0,
    [⟨"BYTES", 63, 0, .roH, 0, .cold, .cold⟩]⟩,
  ⟨"FURROW_JOBS", 0x0F0018, 1, 1, 0, 1, 0, 66, 0,
    [⟨"OK", 15, 0, .roH, 0, .cold, .cold⟩,
     ⟨"OTHER", 31, 16, .roH, 0, .cold, .cold⟩]⟩,
  ⟨"FURROW_LAST_ERROR", 0x0F001C, 1, 1, 0, 1, 0, 66, 0,
    [⟨"STATUS", 7, 0, .roH, 0, .cold, .cold⟩,
     ⟨"DETAIL", 15, 8, .roH, 0, .cold, .cold⟩]⟩]
/-- The registers of the BAR0 block at 0x10_0000. -/
def regRows10 : List RegRow := [
  ⟨"NAND_STATUS", 0x100000, 1, 1, 0, 1, 0, 58, 0,
    [⟨"STATE", 2, 0, .roH, 0, .cold, .cold⟩,
     ⟨"RO_REASON", 4, 3, .roH, 0, .cold, .cold⟩,
     ⟨"SPARES_LOW", 5, 5, .roH, 0, .cold, .cold⟩,
     ⟨"SCRUBBING", 6, 6, .roH, 0, .cold, .cold⟩,
     ⟨"CUT_FOUND", 7, 7, .roH, 0, .cold, .cold⟩,
     ⟨"REASON", 11, 8, .roH, 0, .cold, .cold⟩,
     ⟨"QUEUED", 27, 12, .roH, 0, .cold, .cold⟩]⟩,
  ⟨"NAND_GEOMETRY", 0x100004, 1, 1, 0, 1, 0, 58, 0,
    [⟨"CES", 3, 0, .roH, 0, .cold, .cold⟩,
     ⟨"LUNS", 5, 4, .roH, 0, .cold, .cold⟩,
     ⟨"PAGE_KIB", 10, 8, .roH, 0, .cold, .cold⟩,
     ⟨"BITS", 13, 12, .roH, 0, .cold, .cold⟩,
     ⟨"CODE", 14, 14, .roH, 0, .cold, .cold⟩,
     ⟨"PAGES_PER_BLOCK", 31, 16, .roH, 0, .cold, .cold⟩]⟩,
  ⟨"NAND_CAPACITY", 0x100008, 2, 1, 0, 1, 0, 58, 0,
    [⟨"BYTES", 63, 0, .roH, 0, .cold, .cold⟩]⟩,
  ⟨"NAND_FREE", 0x100010, 2, 1, 0, 1, 0, 58, 0,
    [⟨"BYTES", 63, 0, .roH, 0, .cold, .cold⟩]⟩,
  ⟨"NAND_SPARES", 0x100018, 1, 1, 0, 1, 0, 58, 0,
    [⟨"TOTAL", 15, 0, .roH, 0, .cold, .cold⟩,
     ⟨"LEFT", 31, 16, .roH, 0, .cold, .cold⟩]⟩,
  ⟨"NAND_BAD", 0x10001C, 1, 1, 0, 1, 0, 58, 0,
    [⟨"FACTORY", 15, 0, .roH, 0, .cold, .cold⟩,
     ⟨"GROWN", 31, 16, .roH, 0, .cold, .cold⟩]⟩,
  ⟨"NAND_WEAR", 0x100020, 1, 1, 0, 1, 0, 58, 0,
    [⟨"MAX_PE", 15, 0, .roH, 0, .cold, .cold⟩,
     ⟨"RATED", 31, 16, .roH, 0, .cold, .cold⟩]⟩,
  ⟨"NAND_ECC_0", 0x100024, 1, 1, 0, 1, 0, 58, 0,
    [⟨"RETRIES", 15, 0, .roH, 0, .cold, .cold⟩,
     ⟨"SOFT", 31, 16, .roH, 0, .cold, .cold⟩]⟩,
  ⟨"NAND_ECC_1", 0x100028, 1, 1, 0, 1, 0, 58, 0,
    [⟨"UNCORRECTABLE", 15, 0, .roH, 0, .cold, .cold⟩,
     ⟨"REFRESHED", 31, 16, .roH, 0, .cold, .cold⟩]⟩,
  ⟨"NAND_SCRUB", 0x10002C, 1, 1, 0, 1, 0, 58, 0,
    [⟨"LAST_S", 31, 0, .roH, 0, .cold, .cold⟩]⟩,
  ⟨"NAND_MTS", 0x100030, 1, 1, 0, 1, 0, 58, 0,
    [⟨"MTS", 31, 0, .roH, 0, .cold, .cold⟩]⟩,
  ⟨"NAND_STAGE", 0x100040, 2, 1, 0, 1, 0, 58, 0,
    [⟨"EN", 0, 0, .rw, 0, .cold, .cold⟩,
     ⟨"ALLOT", 9, 4, .rw, 0, .cold, .cold⟩,
     ⟨"VA", 47, 12, .rw, 0, .cold, .cold⟩]⟩,
  ⟨"NAND_VOL", 0x100100, 2, 16, 8, 1, 0, 58, 0,
    [⟨"QUOTA_MIB", 31, 0, .roH, 0, .cold, .cold⟩,
     ⟨"USED_MIB", 63, 32, .roH, 0, .cold, .cold⟩]⟩]
/-- The registers of the BAR0 block at 0x11_0000. -/
def regRows11 : List RegRow := [
  ⟨"ACOU_STATUS", 0x110000, 1, 1, 0, 1, 0, 3, 0,
    [⟨"MODE", 1, 0, .roH, 0, .kept, .cold⟩,
     ⟨"FROZEN", 2, 2, .roH, 0, .kept, .cold⟩,
     ⟨"FIRED", 3, 3, .w1c, 0, .kept, .cold⟩,
     ⟨"BUSY", 4, 4, .roH, 0, .cold, .cold⟩,
     ⟨"RESULT", 10, 8, .roH, 0, .kept, .cold⟩,
     ⟨"STATUS", 23, 16, .roH, 0, .kept, .cold⟩]⟩,
  ⟨"ACOU_CMD", 0x110004, 1, 1, 0, 1, 0, 3, 0,
    [⟨"OP", 1, 0, .wo, 0, .cold, .cold⟩,
     ⟨"KEY", 31, 16, .wo, 0, .cold, .cold⟩]⟩,
  ⟨"ACOU_DST_ADDR", 0x110008, 2, 1, 0, 1, 0, 3, 0,
    [⟨"OFFSET", 63, 0, .rw, 0, .kept, .cold⟩]⟩,
  ⟨"ACOU_EVENT", 0x110010, 2, 1, 0, 1, 0, 3, 0,
    [⟨"RTC_S", 31, 0, .roH, 0, .kept, .cold⟩,
     ⟨"DETECTORS", 33, 32, .roH, 0, .kept, .cold⟩,
     ⟨"MIC", 38, 36, .roH, 0, .kept, .cold⟩,
     ⟨"SCORE", 47, 40, .roH, 0, .kept, .cold⟩,
     ⟨"FROM_STATE", 50, 48, .roH, 0, .kept, .cold⟩]⟩,
  ⟨"ACOU_LEVEL", 0x110018, 1, 1, 0, 1, 0, 3, 0,
    [⟨"FLOOR", 15, 0, .roH, 0, .kept, .cold⟩,
     ⟨"ENERGY", 31, 16, .roH, 0, .kept, .cold⟩]⟩,
  ⟨"ACOU_COUNT_0", 0x11001C, 1, 1, 0, 1, 0, 3, 0,
    [⟨"GLASS", 15, 0, .roH, 0, .kept, .cold⟩,
     ⟨"ALARM", 31, 16, .roH, 0, .kept, .cold⟩]⟩,
  ⟨"ACOU_COUNT_1", 0x110020, 1, 1, 0, 1, 0, 3, 0,
    [⟨"SAT", 15, 0, .roH, 0, .kept, .cold⟩,
     ⟨"MISSED", 31, 16, .roH, 0, .kept, .cold⟩]⟩]
/-- The registers of the BAR0 block at 0x12_0000. -/
def regRows12 : List RegRow := [
  ⟨"DISP_CTRL", 0x120000, 1, 1, 0, 1, 0, 71, 0,
    [⟨"ENABLE", 0, 0, .rw, 0, .cold, .cold⟩,
     ⟨"RETRAIN", 1, 1, .wo, 0, .cold, .cold⟩]⟩,
  ⟨"DISP_STATUS", 0x120004, 1, 1, 0, 1, 0, 71, 0,
    [⟨"SINK", 0, 0, .roH, 0, .cold, .cold⟩,
     ⟨"LINK", 3, 1, .roH, 0, .cold, .cold⟩,
     ⟨"LANES", 6, 4, .roH, 0, .cold, .cold⟩,
     ⟨"RATE", 9, 8, .roH, 0, .cold, .cold⟩,
     ⟨"FLIP_PENDING", 10, 10, .roH, 0, .cold, .cold⟩,
     ⟨"FB_ERROR", 11, 11, .w1c, 0, .cold, .cold⟩,
     ⟨"VBLANK", 12, 12, .roH, 0, .cold, .cold⟩]⟩,
  ⟨"DISP_FB_CFG", 0x120008, 1, 1, 0, 1, 0, 71, 0,
    [⟨"ALLOT", 5, 0, .rw, 0, .cold, .cold⟩,
     ⟨"FORMAT", 8, 8, .rw, 0, .cold, .cold⟩,
     ⟨"PITCH", 31, 16, .rw, 0, .cold, .cold⟩]⟩,
  ⟨"DISP_FB_NEXT", 0x120010, 2, 1, 0, 1, 0, 71, 0,
    [⟨"VA", 47, 0, .rw, 0, .cold, .cold⟩]⟩,
  ⟨"DISP_FB_CUR", 0x120018, 2, 1, 0, 1, 0, 71, 0,
    [⟨"VA", 47, 0, .roH, 0, .cold, .cold⟩]⟩,
  ⟨"DISP_FRAME", 0x120020, 1, 1, 0, 1, 0, 71, 0,
    [⟨"COUNT", 31, 0, .roH, 0, .cold, .cold⟩]⟩,
  ⟨"DISP_UNDERFLOW", 0x120024, 1, 1, 0, 1, 0, 71, 0,
    [⟨"COUNT", 31, 0, .roH, 0, .cold, .cold⟩]⟩,
  ⟨"DISP_AUX_CMD", 0x120030, 1, 1, 0, 1, 0, 71, 0,
    [⟨"ADDR", 19, 0, .wo, 0, .cold, .cold⟩,
     ⟨"LEN", 23, 20, .wo, 0, .cold, .cold⟩,
     ⟨"OP", 25, 24, .wo, 0, .cold, .cold⟩]⟩,
  ⟨"DISP_AUX_STATUS", 0x120034, 1, 1, 0, 1, 0, 71, 0,
    [⟨"BUSY", 0, 0, .roH, 0, .cold, .cold⟩,
     ⟨"RESULT", 3, 1, .roH, 0, .cold, .cold⟩]⟩,
  ⟨"DISP_AUX_DATA", 0x120040, 1, 4, 4, 1, 0, 71, 0,
    [⟨"BYTES", 31, 0, .rw, 0, .cold, .cold⟩]⟩]
/-- The registers of the BAR0 block at 0x13_0000. -/
def regRows13 : List RegRow := [
  ⟨"MGMT_CFG", 0x130000, 1, 1, 0, 1, 0, 2, 0,
    [⟨"SPEED", 1, 0, .rw, 0, .kept, .kept⟩,
     ⟨"ADDR", 14, 8, .ro, 0, .kept, .kept⟩,
     ⟨"STRAP0", 17, 16, .ro, 0, .kept, .kept⟩,
     ⟨"STRAP1", 19, 18, .ro, 0, .kept, .kept⟩,
     ⟨"EID", 31, 24, .roH, 0, .kept, .kept⟩]⟩,
  ⟨"MGMT_STATUS", 0x130004, 1, 1, 0, 1, 0, 2, 0,
    [⟨"GK_SERVING", 0, 0, .roH, 0, .kept, .kept⟩,
     ⟨"QUEUED", 3, 1, .roH, 0, .kept, .kept⟩]⟩,
  ⟨"MGMT_COUNT_0", 0x130008, 1, 1, 0, 1, 0, 2, 0,
    [⟨"PEC_ERR", 15, 0, .roH, 0, .kept, .kept⟩,
     ⟨"DROPPED", 31, 16, .roH, 0, .kept, .kept⟩]⟩,
  ⟨"MGMT_COUNT_1", 0x13000C, 1, 1, 0, 1, 0, 2, 0,
    [⟨"ARB_LOST", 15, 0, .roH, 0, .kept, .kept⟩,
     ⟨"MESSAGES", 31, 16, .roH, 0, .kept, .kept⟩]⟩,
  ⟨"MGMT_CMD_ORIGIN", 0x130010, 1, 1, 0, 1, 0, 2, 0,
    [⟨"PORT", 6, 0, .roH, 0, .kept, .kept⟩]⟩]
/-- The registers of the BAR0 block at 0x14_0000. -/
def regRows14 : List RegRow := [
  ⟨"CAL_CMD", 0x140000, 1, 1, 0, 1, 0, 1, 0,
    [⟨"OP", 2, 0, .wo, 0, .cold, .cold⟩,
     ⟨"ARG", 3, 3, .wo, 0, .cold, .cold⟩,
     ⟨"MIC", 6, 4, .wo, 0, .cold, .cold⟩,
     ⟨"KEY", 31, 16, .wo, 0, .cold, .cold⟩]⟩,
  ⟨"CAL_STATUS", 0x140004, 1, 1, 0, 1, 0, 1, 0,
    [⟨"BUSY", 0, 0, .roH, 0, .cold, .kept⟩,
     ⟨"DONE", 1, 1, .w1c, 0, .cold, .kept⟩,
     ⟨"APPLIED_VALID", 2, 2, .roH, 0, .kept, .kept⟩,
     ⟨"FACTORY", 3, 3, .roH, 0, .kept, .kept⟩,
     ⟨"SECTOR_VALID", 4, 4, .roH, 0, .kept, .kept⟩,
     ⟨"RESULT", 10, 8, .roH, 0, .kept, .kept⟩,
     ⟨"REASON", 19, 16, .roH, 0, .kept, .kept⟩]⟩,
  ⟨"CAL_BUF_ADDR", 0x140008, 2, 1, 0, 1, 0, 1, 0,
    [⟨"OFFSET", 63, 0, .rw, 0, .kept, .kept⟩]⟩,
  ⟨"CAL_RAW", 0x140040, 1, 12, 4, 1, 0, 1, 0,
    [⟨"RAW", 15, 0, .roH, 0, .kept, .kept⟩]⟩,
  ⟨"CAL_MIC_LEVEL", 0x140080, 1, 1, 0, 1, 0, 1, 0,
    [⟨"LEVEL", 15, 0, .roH, 0, .kept, .kept⟩]⟩]
/-- The registers of the BAR0 block at 0x15_0000. -/
def regRows15 : List RegRow := [
  ⟨"NUMX_SUMMARY", 0x150000, 1, 1, 0, 1, 0, 1, 0,
    [⟨"ANY", 7, 0, .roH, 0, .kept, .kept⟩]⟩,
  ⟨"NUMX_GUARD_MASK", 0x150008, 2, 1, 0, 1, 0, 1, 0,
    [⟨"MASK", 63, 0, .roH, 0, .kept, .kept⟩]⟩,
  ⟨"NUMX_NAN_MASK", 0x150010, 2, 1, 0, 1, 0, 1, 0,
    [⟨"MASK", 63, 0, .roH, 0, .kept, .kept⟩]⟩,
  ⟨"NUMX_FLAGS", 0x150100, 1, 48, 4, 1, 0, 1, 0,
    [⟨"LANES", 7, 0, .w1c, 0, .kept, .kept⟩,
     ⟨"TILLER", 15, 8, .w1c, 0, .kept, .kept⟩]⟩,
  ⟨"NUMX_GUARD", 0x150400, 1, 48, 32, 8, 4, 1, 0,
    [⟨"BYTES", 31, 0, .roH, 0, .kept, .kept⟩]⟩,
  ⟨"NUMX_NAN", 0x150C00, 1, 48, 32, 8, 4, 1, 0,
    [⟨"BYTES", 31, 0, .roH, 0, .kept, .kept⟩]⟩,
  ⟨"NUMX_CLEAR", 0x151800, 1, 1, 0, 1, 0, 1, 0,
    [⟨"BED", 5, 0, .wo, 0, .cold, .cold⟩,
     ⟨"WHAT", 9, 8, .wo, 0, .cold, .cold⟩,
     ⟨"ALL", 10, 10, .wo, 0, .cold, .cold⟩]⟩]
/-- The registers of the BAR0 block at 0x20_0000. -/
def regRows20 : List RegRow := [
  ⟨"BED_STATUS", 0x200000, 1, 48, 16384, 1, 0, 4, 1,
    [⟨"RESIDENT", 5, 0, .roH, 0, .cold, .cold⟩,
     ⟨"GROUPS", 9, 6, .roH, 0, .cold, .cold⟩,
     ⟨"TQ", 13, 10, .roH, 0, .cold, .cold⟩,
     ⟨"SAVED", 14, 14, .roH, 0, .cold, .cold⟩,
     ⟨"SEM_OVF", 15, 15, .w1c, 0, .cold, .cold⟩,
     ⟨"LOST", 23, 16, .roH, 0, .cold, .cold⟩]⟩,
  ⟨"BED_CTRL", 0x200004, 1, 48, 16384, 1, 0, 4, 1,
    [⟨"WAIT_MS", 9, 0, .rw, 250, .cold, .cold⟩]⟩,
  ⟨"BED_SPLIT", 0x200008, 1, 48, 16384, 1, 0, 4, 1,
    [⟨"TILE", 4, 0, .roH, 0, .cold, .cold⟩,
     ⟨"SCRATCH", 12, 8, .roH, 0, .cold, .cold⟩,
     ⟨"SPILL", 20, 16, .roH, 0, .cold, .cold⟩,
     ⟨"PLOT", 27, 24, .roH, 0, .cold, .cold⟩,
     ⟨"ROLE", 29, 28, .roH, 0, .cold, .cold⟩]⟩,
  ⟨"BED_TRAP", 0x200010, 2, 48, 16384, 1, 0, 4, 1,
    [⟨"VALID", 0, 0, .w1c, 0, .cold, .cold⟩,
     ⟨"KIND", 4, 1, .roH, 0, .cold, .cold⟩,
     ⟨"WAVE", 13, 8, .roH, 0, .cold, .cold⟩,
     ⟨"STATUS", 23, 16, .roH, 0, .cold, .cold⟩,
     ⟨"DETAIL", 31, 24, .roH, 0, .cold, .cold⟩,
     ⟨"TAG", 63, 32, .roH, 0, .cold, .cold⟩]⟩,
  ⟨"BED_TRAP_PC", 0x200018, 2, 48, 16384, 1, 0, 4, 1,
    [⟨"VA", 63, 0, .roH, 0, .cold, .cold⟩]⟩,
  ⟨"BED_TRAP_WORD", 0x200020, 2, 48, 16384, 1, 0, 4, 1,
    [⟨"WORD", 63, 0, .roH, 0, .cold, .cold⟩]⟩,
  ⟨"BED_SEM", 0x200040, 1, 48, 16384, 16, 4, 4, 1,
    [⟨"VALUE", 31, 0, .roH, 0, .cold, .cold⟩]⟩,
  ⟨"BED_ISSUED", 0x200080, 2, 48, 16384, 1, 0, 4, 1,
    [⟨"COUNT", 63, 0, .roH, 0, .cold, .cold⟩]⟩,
  ⟨"BED_TILLER_BUSY", 0x200088, 2, 48, 16384, 1, 0, 4, 1,
    [⟨"CLOCKS", 63, 0, .roH, 0, .cold, .cold⟩]⟩,
  ⟨"BED_SIEVE_PRODUCTS", 0x2000C0, 2, 48, 16384, 1, 0, 4, 1,
    [⟨"COUNT", 63, 0, .roH, 0, .cold, .cold⟩]⟩,
  ⟨"BED_SIEVE_PROBES", 0x2000C8, 2, 48, 16384, 1, 0, 4, 1,
    [⟨"COUNT", 63, 0, .roH, 0, .cold, .cold⟩]⟩,
  ⟨"BED_SIEVE_PASSES", 0x2000D0, 1, 48, 16384, 1, 0, 4, 1,
    [⟨"COUNT", 31, 0, .roH, 0, .cold, .cold⟩]⟩,
  ⟨"BED_SIEVE_STEALS", 0x2000D4, 1, 48, 16384, 1, 0, 4, 1,
    [⟨"COUNT", 31, 0, .roH, 0, .cold, .cold⟩]⟩,
  ⟨"BED_SIEVE_IDLE", 0x2000D8, 2, 48, 16384, 1, 0, 4, 1,
    [⟨"CLOCKS", 63, 0, .roH, 0, .cold, .cold⟩]⟩]
/-- Every register of the device by BAR0 block. -/
def regBlocks : List (Nat × List RegRow) := [
  (0x00, regRows00),
  (0x01, regRows01),
  (0x02, regRows02),
  (0x03, regRows03),
  (0x04, regRows04),
  (0x05, regRows05),
  (0x06, regRows06),
  (0x07, regRows07),
  (0x08, regRows08),
  (0x09, regRows08),
  (0x0A, regRows0A),
  (0x0B, regRows0B),
  (0x0C, regRows0C),
  (0x0D, regRows0D),
  (0x0E, regRows0E),
  (0x0F, regRows0F),
  (0x10, regRows10),
  (0x11, regRows11),
  (0x12, regRows12),
  (0x13, regRows13),
  (0x14, regRows14),
  (0x15, regRows15),
  (0x20, regRows20)]

/-- The rows of the block an offset lies in: the 64 KiB blocks of Table 24.1, and the BED blocks above 0x20_0000. -/
def rowsAt (off : Nat) : List RegRow :=
  let b := if off < 0x200000 then off / 0x10000 else if off < 0x2C0000 then 0x20 else 0xFFFF
  match regBlocks.find? (fun e => e.1 = b) with
  | some e => e.2
  | none => []

/-- Where an offset falls in a row: the first index, the second index and the dword. -/
def RegRow.locate (r : RegRow) (off : Nat) : Option (Nat × Nat × Nat) :=
  if off < r.base ∨ off % 4 ≠ 0 then none else
  let d := off - r.base
  let i := if r.n1 ≤ 1 then 0 else min (d / r.s1) (r.n1 - 1)
  let d1 := d - (if r.n1 ≤ 1 then 0 else i * r.s1)
  let j := if r.n2 ≤ 1 then 0 else min (d1 / r.s2) (r.n2 - 1)
  let d2 := d1 - (if r.n2 ≤ 1 then 0 else j * r.s2)
  if d2 < 4 * r.words then some (i, j, d2 / 4) else none

/-- The register at an offset, its first index and the dword within it (R556). -/
def regAt (off : Nat) : Option (RegRow × Nat × Nat) :=
  (rowsAt off).findSome? (fun r => (r.locate off).map (fun p => (r, p.1, p.2.2)))

/-- The bits of dword `w` that a field covers, as a mask. -/
def FieldRow.mask (f : FieldRow) (w : Nat) : Nat :=
  (List.range 32).foldl (fun m b => if f.lo ≤ 32 * w + b ∧ 32 * w + b ≤ f.hi then m + 2 ^ b else m) 0

/-- The mask of the fields of a register dword that satisfy a test. -/
def RegRow.maskOf (r : RegRow) (w : Nat) (p : FieldRow → Bool) : Word :=
  BitVec.ofNat 32 ((r.fields.filter p).foldl (fun m f => m + f.mask w) 0)

/-- The Cold value of dword `w` of a register. -/
def RegRow.coldWord (r : RegRow) (w : Nat) : Word :=
  BitVec.ofNat 32 (r.fields.foldl (fun m f => m + f.cold * 2 ^ f.lo) 0 / 2 ^ (32 * w))

/-- HOSEn_CFG_c.OWNER at Cold, Table 12.1: channels 0–3 host, 4–11 work orders, 12–15 streams. -/
def hoseOwnerCold (c : Nat) : Nat := if c < 4 then 0 else if c < 12 then 1 else 2

/-- The Cold value of every BAR0 word; a register whose value the spec does not give is 0 there (R13; log entry 2).
HOSEn_CFG_c and HOSTQ_FN_0 have Cold values by index (Table 12.1, R206). -/
def coldWord (off : Nat) : Word :=
  if 0x080000 ≤ off ∧ off < 0x0A0000 ∧ off % 0x10000 < 0x1000 ∧ off % 0x100 = 0 then
    BitVec.ofNat 32 (hoseOwnerCold (off % 0x1000 / 0x100))
  else if off = 0x060100 then BitVec.ofNat 32 (64 * 2 ^ 8)
  else match regAt off with
    | some (r, _, w) => r.coldWord w
    | none => 0

/-- The island that serves a register (Table 24.1); none where there is no register. -/
def ownerIsland (off : Nat) : Option Nat :=
  (regAt off).map (fun p => p.1.island + p.1.islandStep * p.2.1)

/-- The bits of a word that survive a Warm start; the fields marked "saved" survive one from Fallow (R226). -/
def warmKept (fallow : Bool) (off : Nat) : Word :=
  match regAt off with
  | some (r, _, w) => r.maskOf w (fun f => f.warm == .kept || (fallow && f.warm == .saved))
  | none => 0

/-- The bits of a word that survive a Wake of the register's island. -/
def wakeKept (off : Nat) : Word :=
  match regAt off with
  | some (r, _, w) => r.maskOf w (fun f => f.wake == .kept)
  | none => 0

end Sys2Proof.Machine
end

