-- ==== Sys2Proof/Machine/Mem.lean ====
section
/-! DEFINITION. Sparse storage by number in one canonical form: register words by BAR0 offset and bytes by address.
An entry that is not listed reads as a default; no listed entry equals its default; keys rise strictly. -/
namespace Sys2Proof.Machine

/-- Read: the listed value, or the default of the key. -/
def cellGet {α : Type} (d : Nat → α) (m : List (Nat × α)) (k : Nat) : α :=
  match m with
  | [] => d k
  | (j, v) :: r => if j = k then v else cellGet d r k

/-- The list without any entry for a key. -/
def cellDrop {α : Type} (m : List (Nat × α)) (k : Nat) : List (Nat × α) :=
  m.filter (fun e => e.1 ≠ k)

/-- Insert an entry before the first larger key. -/
def cellInsert {α : Type} (k : Nat) (v : α) : List (Nat × α) → List (Nat × α)
  | [] => [(k, v)]
  | e :: r => if k < e.1 then (k, v) :: e :: r else e :: cellInsert k v r

/-- Write: the default removes the entry, any other value is the one entry of the key. -/
def cellSet {α : Type} [DecidableEq α] (d : Nat → α) (m : List (Nat × α)) (k : Nat) (v : α) : List (Nat × α) :=
  if v = d k then cellDrop m k else cellInsert k v (cellDrop m k)

/-- The keys rise strictly, starting above `lo`. -/
def risesFrom {α : Type} : Option Nat → List (Nat × α) → Bool
  | _, [] => true
  | none, e :: r => risesFrom (some e.1) r
  | some lo, e :: r => lo < e.1 && risesFrom (some e.1) r

/-- The canonical form of sparse storage over a default. -/
def cellWf {α : Type} [DecidableEq α] (d : Nat → α) (m : List (Nat × α)) : Bool :=
  risesFrom none m && m.all (fun e => e.2 ≠ d e.1)

/-- A byte store: a list of (address, byte) pairs. -/
abbrev Memory := List Host.Cell

/-- What a byte that nothing has written reads as, in DRAM, bed memory and host memory.
DESIGN CHOICE: zero (log entry 3; after data loss R120 allows any value). -/
def ramFill : Nat → Byte := fun _ => 0

/-- What an erased byte of the boot flash reads as (JESD251 flash, log entry 4). -/
def flashFill : Nat → Byte := fun _ => 0xFF

/-- One byte of a byte store. -/
def Memory.get (d : Nat → Byte) (m : Memory) (a : Nat) : Byte := cellGet d m a

/-- Store one byte. -/
def Memory.set (d : Nat → Byte) (m : Memory) (a : Nat) (b : Byte) : Memory := cellSet d m a b

/-- The canonical form of a byte store. -/
abbrev Memory.wf (d : Nat → Byte) (m : Memory) : Prop := cellWf d m = true

/-- `n` bytes from an address on. -/
def Memory.read (d : Nat → Byte) (m : Memory) (a : Nat) : Nat → List Byte
  | 0 => []
  | n + 1 => Memory.get d m a :: Memory.read d m (a + 1) n

/-- Store bytes from an address on, lowest address first. -/
def Memory.write (d : Nat → Byte) (m : Memory) (a : Nat) : List Byte → Memory
  | [] => m
  | b :: bs => Memory.write d (Memory.set d m a b) (a + 1) bs

/-- Little-endian value of `n` bytes (R5). -/
def Memory.readNat (d : Nat → Byte) (m : Memory) (a n : Nat) : Nat := leNat (Memory.read d m a n)

/-- Store an `n`-byte little-endian value (R5). -/
def Memory.writeNat (d : Nat → Byte) (m : Memory) (a n v : Nat) : Memory := Memory.write d m a (leBytes n v)

/-- Fill a range with one byte, as an erase or a clear does: the listed entries of the range go, and where the
byte is not the default, each address of the range gets it. -/
def Memory.fill (d : Nat → Byte) (m : Memory) (a n : Nat) (b : Byte) : Memory :=
  if b = d a then m.filter (fun e => e.1 < a || a + n ≤ e.1)
  else Memory.write d m a (List.replicate n b)

end Sys2Proof.Machine
end

