-- ==== Sys2Proof/Machine/State.lean ====
section
/-! DEFINITION. The state of the block as plain data: every register word by BAR0 offset, and unit by unit the state
that the spec gives the machine beside its registers. -/
namespace Sys2Proof.Machine

/-- A request of a requester's stop that waits for its reply (R20): its tag, its target, the target epoch it carries,
the requester's epoch at issue (R22), and whether a crossing holds it (Table 1.2). -/
structure Tracked where
  src  : Nat
  dst  : Nat
  tag  : Nat
  dstEpoch : Nat
  srcEpoch : Nat
  held : Bool
  deriving DecidableEq, Repr

/-- An epoch broadcast that some stops have not yet taken up (R29). -/
structure Broadcast where
  island : Nat
  epoch  : Nat
  stops  : List Nat
  deriving DecidableEq, Repr

/-- The trellis and the hedges beside the ISLAND registers (spec/01). -/
structure IslandUnit where
  /-- epoch views: stop · 128 + island ↦ epoch, unlisted 0 (R21, R22) -/
  views      : List (Nat × Nat)
  broadcasts : List Broadcast
  /-- requests that wait for a reply -/
  tracked    : List Tracked
  /-- requests that wait for a tag in the requester's crossing, oldest first: (requester, target) (R20) -/
  crossing   : List (Nat × Nat)
  /-- replies held in the requester's crossing: (requester, tag) (Table 1.2) -/
  heldReplies : List (Nat × Nat)
  /-- islands whose ISLAND_CTRL reset is held until Shade ends (R40) -/
  heldResets : List Nat
  /-- islands of accepted ISLAND_CTRL resets that are before OPEN: BUSY (Table 1.11) -/
  ctrlTargets : List Nat
  /-- error completions delivered, newest first: requester and the word of Table 1.3 -/
  errors     : List (Nat × Word)
  deriving DecidableEq, Repr

/-- A valid line of the shed (R264, R267). -/
structure ShedLine where
  slice : Nat
  way   : Nat
  set   : Nat
  pa    : Nat
  dirty : Bool
  key   : Nat
  /-- poison marks of the two 64-byte halves (R255) -/
  poison0 : Bool
  poison1 : Bool
  /-- prefetched and not yet used (R268) -/
  prefetched : Bool
  data  : List Byte
  deriving DecidableEq, Repr

/-- A line fill under way: the access that missed a line, `len` bytes at an offset of it, and the bytes it writes
(R265). -/
structure Fill where
  pa      : Nat
  island  : Nat
  cls     : Nat
  key     : Nat
  noAlloc : Bool
  off     : Nat
  len     : Nat
  write   : Option (List Byte)
  deriving DecidableEq, Repr

/-- The answer to the last request that a SHED_ACCESS made: requester, STATUS, DETAIL, data read. -/
structure MemReply where
  island : Nat
  status : Nat
  detail : Nat
  data   : List Byte
  deriving DecidableEq, Repr

/-- Memory, encryption and the shed (spec/10). -/
structure MemUnit where
  /-- the bytes the DRAM holds, by PA (under a nonzero selector: encrypted bytes) -/
  dram    : Memory
  /-- bed memories, by PA in the aperture (R266) -/
  bedMem  : Memory
  /-- host memory as the device sees it over PCIe, by bus address -/
  host    : Memory
  /-- the boot flash, by flash address -/
  flash   : Memory
  /-- poisoned 64-byte units of DRAM (R255) -/
  poison  : List Nat
  /-- valid shed lines -/
  lines   : List ShedLine
  /-- line fills under way, oldest first -/
  fills   : List Fill
  /-- lines written while a FILL or preload runs (R270) -/
  touched : List Nat
  /-- key slots 1–15 in force in both channels: (slot, data key, tweak key) (R190) -/
  keys    : List (Nat × List Byte × List Byte)
  /-- class-0 bytes each channel served in the window (R261) -/
  class0  : List Nat
  reply   : Option MemReply := none
  deriving DecidableEq, Repr

/-- A cached translation (R282). -/
structure TlbEntry where
  island : Nat
  allot  : Nat
  /-- first VA, page size and output address -/
  va     : Nat
  size   : Nat
  out    : Nat
  /-- the entry's flags and selector -/
  r : Bool
  w : Bool
  x : Bool
  pinned : Bool
  host   : Bool
  key    : Nat
  deriving DecidableEq, Repr

/-- A fault record before it is written (Table 11.4). -/
structure FaultRec where
  stream : Stream
  va     : Nat
  tag    : Nat
  reason : Nat
  access : Access
  allot  : Nat
  fatal  : Bool
  cls    : Nat
  level  : Nat
  source : Nat
  unit   : Nat
  sq     : Nat
  timeUs : Nat
  /-- the number of the stall it made, and whether that stall ended with FAULT_TIMEOUT (R291) -/
  id     : Nat := 0
  late   : Bool := false
  deriving DecidableEq, Repr

/-- Where a batch stands (R288, R289). -/
inductive BatchPhase where
  | opened
  | closed
  | written
  /-- written, and lost in a close of island 60: its slots stay held until a RESUME names it (R295) -/
  | lost
  deriving DecidableEq, Repr

/-- A fault batch of a function. -/
structure Batch where
  fn     : Nat
  number : Nat
  phase  : BatchPhase
  /-- first ring slot once written, and whether it still holds its slots (R289, R299) -/
  slot   : Nat
  holds  : Bool
  records : List FaultRec
  deriving DecidableEq, Repr

/-- A stalled stream and the access that waits (R286). -/
structure Stall where
  stream : Stream
  fn     : Nat
  island : Nat
  allot  : Nat
  va     : Nat
  access : Access
  /-- its number -/
  id     : Nat
  deriving DecidableEq, Repr

/-- Allotments and address translation (spec/11). -/
structure MmuUnit where
  tlb     : List TlbEntry
  stalls  : List Stall
  batches : List Batch
  /-- per function: next batch number and fault-ring write position -/
  nextBatch : List Nat
  writePos  : List Nat
  /-- the number of the next stall -/
  nextStall : Nat
  /-- the invalidation under way: first VA and page count of the scope, or all of one allotment, or all -/
  inval   : Option (Option Nat × Option (Nat × Nat))
  deriving DecidableEq, Repr

/-- A PCIe function: its configuration, its MSI-X table and its event register (R198–R205, R218). -/
structure PcieFn where
  /-- a VF exists once VF Enable is 1; PF0 always -/
  present   : Bool
  busMaster : Bool
  d3hot     : Bool
  msixEnable : Bool
  /-- per vector: message address, data, mask bit -/
  msix      : List (Nat × Nat × Bool)
  /-- pending bits, by vector -/
  pba       : Nat
  /-- a VF's own HOSTQ_EVENT_CAUSE and MASK (R205, R219); PF0 uses the registers -/
  vfCause   : Nat
  vfMask    : Nat
  /-- Function Mask of MSI-X, Relaxed Ordering, Interrupt Disable, and the codes of Max_Payload_Size and
  Max_Read_Request_Size (Table 8.1, R197, R200) -/
  msixMask  : Bool := false
  relaxed   : Bool := false
  intDisable : Bool := false
  maxPayload : Nat := 0
  maxRead   : Nat := 0
  deriving DecidableEq, Repr

/-- An MSI-X message that the device sent. -/
structure MsiMsg where
  fn     : Nat
  vector : Nat
  addr   : Nat
  data   : Nat
  deriving DecidableEq, Repr

/-- What a device read of host memory is for (R209, R213). -/
inductive ReadPurpose where
  /-- the head entry of an SQ -/
  | entry (sq : Nat)
  /-- the descriptor of a dispatched entry -/
  | descriptor (uid : Nat)
  /-- an entry that Gardener 0 lost in a close: the SQ, and the word of Table 1.3 that completes it (Table 7.2) -/
  | lost (sq word : Nat)
  deriving DecidableEq, Repr

/-- An outstanding device read of host memory. -/
structure HostRead where
  id      : Nat
  fn      : Nat
  addr    : Nat
  len     : Nat
  purpose : ReadPurpose
  /-- device time of the request (Table 22.2) -/
  us      : Nat
  deriving DecidableEq, Repr

/-- A submission entry that is dispatched and not completed (R213). -/
structure Entry where
  uid    : Nat
  sq     : Nat
  opcode : Nat
  /-- class after steps 3 and 5 of R213 -/
  cls    : Nat
  /-- class after step 3 alone, in which its descriptor is read (R262) -/
  readCls : Nat
  waitPrior : Bool
  irqNow : Bool
  /-- DESC_SPACE 1: device virtual -/
  descVirtual : Bool
  plot   : Nat
  tag    : Nat
  descAddr : Nat
  args   : List Byte
  /-- the descriptor once it is read -/
  desc   : Option (List Byte)
  /-- the completion is discarded (R223) -/
  discard : Bool
  deriving DecidableEq, Repr

/-- A completion that the completion engine holds (R217) or has yet to write. -/
structure Completion where
  sq     : Nat
  cq     : Nat
  tag    : Nat
  status : Nat
  detail : Nat
  info   : Nat
  count  : Nat
  cls    : Nat
  irqNow : Bool
  deriving DecidableEq, Repr

/-- A valid SQ tail doorbell whose entries are not all dispatched (R520): its SQ and TAIL, its microsecond, whether it
came in Shade, the slot that was the head when it arrived (none where earlier entries waited), and the REASON codes of
Table 22.2 met so far, as a mask. -/
structure Door where
  sq      : Nat
  tail    : Nat
  us      : Nat
  shade   : Bool
  first   : Option Nat
  reasons : Nat
  deriving DecidableEq, Repr

/-- Host interface over PCIe beside its registers (spec/08). -/
structure HostUnit where
  fns       : List PcieFn
  linkUp    : Bool
  vfEnable  : Bool
  bar4Size  : Nat
  /-- the latency tolerance last sent to the host, in µs; 0 none (R199) -/
  ltrUs     : Nat
  /-- messages sent, newest first -/
  msgs      : List MsiMsg
  nextUid   : Nat
  nextRead  : Nat
  reads     : List HostRead
  /-- head entries that Gardener 0 has read and not dispatched: (SQ, 64 bytes) (R214) -/
  heads     : List (Nat × List Byte)
  entries   : List Entry
  /-- valid SQ tail doorbells whose entries are not all dispatched, oldest first (R520) -/
  doors     : List Door
  /-- doorbells latched while Gardener 0 is closed: (SQ, TAIL, microsecond) (Table 7.2) -/
  latched   : List (Nat × Nat × Nat)
  /-- completions that wait for CQ space, oldest first (R217) -/
  waiting   : List Completion
  /-- completions written to each CQ since its last message: (CQ, count) (R218) -/
  unsignalled : List (Nat × Nat)
  /-- round-robin: last SQ served of classes 0, 1, 2; remaining credit of the SQ served last in classes 1, 2 -/
  lastServed : List Nat
  credit    : List Nat
  /-- consecutive class-1 dispatches while a class-2 head waited (R214) -/
  sinceClass2 : Nat
  /-- event causes kept in island 1 while island 60 is closed (R219) -/
  causePending : Nat
  /-- the answer to the last configuration, register or BAR4 read -/
  readData  : List Byte
  /-- a configuration request was answered with Request Retry Status (R106) -/
  retried   : Bool
  /-- 64-bit access halves: low dwords written and held, high dwords latched by a read (R9) -/
  heldLow   : List (Nat × Nat × Word)
  heldHigh  : List (Nat × Nat × Word)
  deriving DecidableEq, Repr

/-- The image a processor runs (R172, R182). -/
inductive ImageKind where
  | none
  | slot
  | hot
  deriving DecidableEq, Repr

/-- Firmware processors and leases beside their registers (spec/07). -/
structure FwUnit where
  running  : List ImageKind
  /-- the retention store: digests of the four images of the running slot, the plan chain's digest, the training
  record, the key store (slot, data key, tweak key) -/
  digests  : List Nat
  planDigest : Option Nat
  training : Option (List Byte)
  keyStore : List (Nat × List Byte × List Byte)
  /-- digest of the image running after a hot swap -/
  hotDigest : List (Nat × Nat)
  /-- closes with cause 3 or 10: (processor, microsecond) (R179) -/
  closes   : List (Nat × Nat)
  /-- waiting lease requests in order: (lease, island, epoch) (R184) -/
  waiters  : List (Nat × Nat × Nat)
  /-- leases whose forced release is under way (R195) -/
  forced   : List Nat
  /-- leases held for a host or management-port command (R188) -/
  forCommand : List Nat
  /-- HOT_SWAP that waits for its processor to settle: processor and image (R182) -/
  hotSwap  : Option (Nat × List Byte)
  /-- BOOT_FW_CMD RELOAD that waits for its processor to open (R183) -/
  reloadCmd : Option Nat
  /-- device time at which each watchdog last restarted (R175) -/
  wdogAt   : List Nat
  deriving DecidableEq, Repr

/-! The plot plan (spec/02, spec/03) -/

/-- An ISLAND word in force: defaults taken, fences applied (Table 3.2). -/
structure IslandCfg where
  powered  : Bool
  freq     : Nat
  rate     : Nat
  throttle : Nat
  deriving DecidableEq, Repr

/-- A plot (Table 3.4). -/
structure PlotCfg where
  id      : Nat
  role    : Nat
  classes : Nat
  /-- bit n = bed n -/
  beds    : Nat
  tile    : Nat
  waves   : Nat
  deriving DecidableEq, Repr

/-- A ROUTE entry (Table 3.5). -/
structure RouteCfg where
  src   : Nat
  dst   : Nat
  order : Nat
  both  : Bool
  mbps  : Nat
  deriving DecidableEq, Repr

/-- A SHEDLOCK entry (Table 3.6). -/
structure LockCfg where
  slice   : Nat
  ways    : Nat
  keySel  : Nat
  preload : Bool
  base    : Nat
  pages   : Nat
  deriving DecidableEq, Repr

/-- An INTAKE slot entry (Table 3.8). -/
structure SlotCfg where
  valid   : Bool
  decoder : Nat
  codec   : Nat
  srtp    : Bool
  port    : Nat
  size    : Nat
  fps     : Nat
  ring    : Nat
  place   : Bool
  deriving DecidableEq, Repr

/-- The INTAKE record (Table 3.7). -/
structure IntakeCfg where
  reorder   : Nat
  reorderUs : Nat
  pktMib    : Nat
  timeSrc   : Nat
  domain    : Nat
  slots     : List SlotCfg
  deriving DecidableEq, Repr

/-- The QOS record: class of each island and hose channel, and the shares (R88). -/
structure QosCfg where
  islands   : List Nat
  hoses     : List Nat
  class0Cap : Nat
  class2Min : Nat
  deriving DecidableEq, Repr

/-- The LIMITS record (Table 3.10). -/
structure LimitsCfg where
  warnC     : Nat
  throttleC : Nat
  hystC     : Nat
  dwellMs   : Nat
  powerMw   : Nat
  windowMs  : Nat
  /-- watchdog timeouts of processors 0–3 -/
  wdogMs    : List Nat
  heartbeatMs : Nat
  alertMask : Nat
  deriving DecidableEq, Repr

/-- The URGENT record (Table 3.11, R92). -/
structure UrgentCfg where
  hasReserve  : Bool
  reservePlot : Nat
  spillWays   : Nat
  maxTileUs   : Nat
  rings       : Nat
  deriving DecidableEq, Repr

/-- The DISPLAY record (Table 3.12). -/
structure DisplayCfg where
  hActive : Nat
  vActive : Nat
  hTotal  : Nat
  vTotal  : Nat
  hFp     : Nat
  hSync   : Nat
  vFp     : Nat
  vSync   : Nat
  khz     : Nat
  lanes   : Nat
  linkRate : Nat
  bpc     : Nat
  hpol    : Nat
  vpol    : Nat
  deriving DecidableEq, Repr

/-- The ACOUSTIC record (Table 3.13). -/
structure AcousticCfg where
  micMask    : Nat
  listenMic  : Nat
  glass      : Bool
  alarm      : Bool
  marginDb   : Nat
  noiseTauS  : Nat
  alarmLoHz  : Nat
  alarmHiHz  : Nat
  alarmMinMs : Nat
  glassScore : Nat
  prerollMs  : Nat
  deriving DecidableEq, Repr

/-- The EVIDENCE record (Table 3.14). -/
structure EvidenceCfg where
  mode       : Nat
  ceMask     : Nat
  sparePct   : Nat
  scrubDays  : Nat
  refreshPct : Nat
  maxMts     : Nat
  preS       : Nat
  postS      : Nat
  deriving DecidableEq, Repr

/-- The configuration that a chain of plan images gives (spec/03). -/
structure PlanCfg where
  planId     : Nat
  generation : Nat
  security   : Nat
  keyIndex   : Nat
  islands    : List IslandCfg
  plots      : List PlotCfg
  /-- TILE, SCRATCH and SPILL of each bed (R82) -/
  split      : List (Nat × Nat × Nat)
  routes     : List RouteCfg
  locks      : List LockCfg
  intake     : Option IntakeCfg
  qos        : QosCfg
  limits     : LimitsCfg
  urgent     : UrgentCfg
  display    : Option DisplayCfg
  acoustic   : Option AcousticCfg
  evidence   : Option EvidenceCfg
  deriving DecidableEq, Repr

/-- A plan command in progress (PLAN_STATUS.PHASE not IDLE). -/
structure PlanJob where
  /-- PLAN_CMD.OP: 1 LOAD, 2 GRAFT, 3 STORE, 4 FALLBACK -/
  op      : Nat
  cut     : Bool
  writer  : Writer
  /-- the configuration to apply and the chain's images with it, known once the checks have passed -/
  next    : PlanCfg
  images  : List (List Byte)
  /-- islands that the commit closes and opens again -/
  named   : List Nat
  /-- DETAIL to report with OK -/
  detail  : Nat
  /-- STORE: the area and what is to be read back -/
  area    : Nat
  deriving DecidableEq, Repr

/-- The plan loader beside its registers. -/
structure PlanUnit where
  active : PlanCfg
  /-- images of the active chain (plan shadow); none under the fallback plan -/
  chain  : List (List Byte)
  /-- the staging buffer -/
  staged : List Byte
  job    : Option PlanJob
  /-- plots paused by a graft or LOAD (R59) -/
  paused : List Nat
  deriving DecidableEq, Repr

/-! Starts, fuses and the board (spec/04, spec/23) -/

/-- A fused key slot (R49, R110). -/
structure KeySlot where
  digest      : Nat
  provisioned : Bool
  revoked     : Bool
  deriving DecidableEq, Repr

/-- The fuses. -/
structure Fuses where
  planKeys   : List KeySlot
  planFloor  : Nat
  imageKeys  : List KeySlot
  imageFloor : Nat
  /-- 0 RZ64-M, 1 RZ64-S -/
  variant    : Nat
  uuid       : List Byte
  deriving DecidableEq, Repr

/-- The start in progress and what starts keep (spec/04). -/
structure BootUnit where
  fuses      : Fuses
  /-- a start is under way, and the device time when it and its current step began -/
  starting   : Bool
  startedAt  : Nat
  stepAt     : Nat
  halted     : Bool
  /-- the newest failure record, mirrored in island 2 (R116) -/
  mirror     : List Byte
  /-- a trip struck: the step of the start that it interrupted (R123) -/
  tripMark   : Option Nat
  nandClean  : Bool
  /-- ECC of the boot directory and the RATE to train, read at BOOT_DIR (Table 4.17) -/
  ecc        : Bool
  rate       : Nat
  /-- MEMC_CFG in force: RATE, ECC, RANKS and CAP_GIB of a channel (Table 10.6) -/
  memCfg     : Nat × Nat × Nat × Nat
  /-- a PWR_REQUEST held until READY: who wrote it, and its word (R125) -/
  heldPower  : Option (Writer × Nat)
  linkTraining : Bool
  /-- the 2 MiB region up to which DRAM is cleared after READY; none when no clearing runs (R121) -/
  clearing   : Option Nat
  /-- the chain that PLAN_VERIFY accepted, for PLAN_APPLY: images, configuration and clamps -/
  verified   : Option (List (List Byte) × PlanCfg × Nat)
  deriving DecidableEq, Repr

/-- Pins and board conditions (spec/23). -/
structure BoardUnit where
  resetN  : Bool
  pwrOk   : Bool
  wakeN   : Bool
  thermN  : Bool
  memEn   : Bool
  /-- the power-on detector holds the device in reset (R537) -/
  detector : Bool
  /-- management address straps and TEST_MODE as driven (R539) -/
  strap0  : Nat
  strap1  : Nat
  testMode : Bool
  /-- 1 ms pulses of ALERT_N under way, by ALERT_MASK bit (R176) -/
  alerts  : List Nat
  crystal : Bool
  /-- PWR_OK was low or the detector acted since the last start: the next one has START_KIND 0 (R537) -/
  fromOff : Bool
  /-- NAND_WP_N, NAND_CE_N[3:0] and XSPI_CS_N as driven (Table 23.6, R544) -/
  nandWpN : Bool
  nandCeN : Nat
  xspiCsN : Bool
  deriving DecidableEq, Repr

/-! Power, thermal and calibration (spec/05, spec/06) -/

/-- The power ladder beside its registers (spec/05). -/
structure PowerUnit where
  /-- DRAIN CUT of the entry in progress, and whether its running work has been cut -/
  cut      : Bool
  drained  : Bool
  /-- sources latched in SEQUENCE or while a trip holds (R144, R155), in order -/
  latched  : List Nat
  /-- device time of the wake event whose 10 µs window is open (R119) -/
  wakeAt   : Nat
  /-- an entry to a deeper state follows the Shade exit under way (R130): target, DRAIN -/
  after    : Option (Nat × Nat)
  tlps     : List Tlp
  /-- frames held in the port buffers in Shade: port and frame (R140) -/
  frames   : List (Nat × List Byte)
  deriving DecidableEq, Repr

/-- The fence's filters and timers (spec/06). -/
structure FenceUnit where
  /-- last corrected samples of each sensor, newest first, at most 8, in 1/16 °C -/
  filters   : List (List Int)
  /-- consecutive samples at or above the rising, and at or below the falling values: WARN, THROTTLE -/
  softRun   : List (Nat × Nat)
  /-- consecutive samples at or above HW_THROTTLE and HW_TRIP; at or below the release value -/
  hwRun     : Nat
  tripRun   : Nat
  coolRun   : Nat
  /-- last TEMP_MAX at or above each rising value: WARN, THROTTLE, HW_THROTTLE, HW_TRIP (R171) -/
  above     : List Bool
  /-- trip latched in Frost and not cool yet (R155) -/
  tripHold  : Bool
  /-- applied calibration table: 256 bytes; none when the defaults apply (R164) -/
  table     : Option (List Byte)
  /-- microseconds for which core power stayed above 15 W (R157) and the step-down in progress -/
  overUs    : Nat
  sustained : Bool
  /-- consecutive microseconds above 18 W, and at or below 14 W since the last step up (R157) -/
  peakRun   : Nat
  lowUs     : Nat
  /-- LIMIT_RATIO is held after an undervoltage (R548) -/
  uvHeld    : Bool
  /-- a raised target is awaited: the voltage before it (R546) -/
  raising   : Option Nat
  /-- failed attempts of the AVSBus transaction under way, and the clock cap in MHz while the AVS is in fault (R547) -/
  avsTries  : Nat
  avsCap    : Option Nat
  deriving DecidableEq, Repr

/-! Hose transfers (spec/12) -/

/-- A hose transfer at its channel: the first of a channel runs, the others wait in dispatch order (R306). -/
structure Transfer where
  engine  : Nat
  channel : Nat
  uid     : Nat
  fn      : Nat
  allot   : Nat
  cls     : Nat
  desc    : List Byte
  /-- slabs credited, and elements of slab `slab` already written; as many as a slab has when only its credit is
  missing -/
  slab    : Nat
  elem    : Nat
  startReleased : Nat
  /-- the transfer has begun: it is the running one of its channel -/
  begun   : Bool
  /-- a drain stops it at its next slab boundary (R314) -/
  stopping : Bool
  deriving DecidableEq, Repr

/-- The hose engines beside their registers. -/
structure HoseUnit where
  transfers : List Transfer
  deriving DecidableEq, Repr

/-! Beds and work orders (spec/13–16, spec/22) -/

/-- Why a wave is not ready (R322, R329, R336, R340, R343). -/
inductive WaveWait where
  | ready
  | sleep
  /-- stalled on a fault at its next instruction -/
  | fault
  | bar
  | semWait (sem value : Nat)
  | semTake (sem n : Nat)
  | twait (n : Nat)
  deriving DecidableEq, Repr

/-- A wave (R319–R321). -/
structure Wave where
  /-- wave slot: row × 12 + index in the row -/
  slot  : Nat
  uid   : Nat
  tile  : Nat
  /-- group slot of the bed and index in the group -/
  group : Nat
  gwave : Nat
  vgprs : Nat
  pc    : Nat
  exec  : Nat
  sregs : List Nat
  pregs : List Nat
  /-- vector registers: register · 32 + thread ↦ value, unlisted 0 -/
  vregs : List (Nat × Nat)
  stack : List Nat
  /-- the value that a read of TIME_LO latched for TIME_HI -/
  timeHi : Nat
  wait  : WaveWait
  /-- the number of the wait, for the order of grants (R341), and the waiting instruction's VA and base word -/
  since : Nat
  waitPc : Nat
  waitWord : Nat
  deriving DecidableEq, Repr

/-- An error completion of an access: STATUS, DETAIL, island. -/
structure AccErr where
  status : Nat
  detail : Nat
  island : Nat
  deriving DecidableEq, Repr

/-- A load whose data has not arrived (R337): the registers it locks and what arrives. -/
structure LoadInFlight where
  slot   : Nat
  /-- locked registers by operand code -/
  regs   : List Nat
  /-- writes: operand code, thread, value -/
  writes : List (Nat × Nat × Nat)
  err    : Option AccErr
  pc     : Nat
  word   : Nat
  deriving DecidableEq, Repr

/-- A tensor-queue entry (R343): the issuing wave, its instruction and the operand values taken at issue. -/
structure TensorEntry where
  slot : Nat
  uid  : Nat
  tile : Nat
  pc   : Nat
  word : Nat
  ext  : Nat
  /-- the offset in SRCA; of TACC_READ and TACC_WRITE the mask of the acting threads -/
  a    : Nat
  b    : Nat
  c    : Nat
  /-- TACC_WRITE: the register values, thread-major by row -/
  regs : List Nat
  deriving DecidableEq, Repr

/-- An accumulator bank: FP32 or 40-bit integer mode; element i · 32 + j, unlisted 0. FP elements hold their bits. -/
structure Bank where
  fp : Bool
  el : List (Nat × Int)
  deriving DecidableEq, Repr

/-- A tile on a bed: its order or rake job, its number, its class. -/
structure TileRun where
  uid  : Nat
  tile : Nat
  cls  : Nat
  /-- a rake tile that is shaded and awaits its resolve (R526) -/
  shaded : Bool
  deriving DecidableEq, Repr

/-- The state of a preempted bed, held in the spill ways (R349). -/
structure BedSave where
  waves  : List Wave
  loads  : List LoadInFlight
  banks  : List Bank
  gens   : List Nat
  built  : Option TileRun
  groups : List (Nat × TileRun)
  mem    : List Host.Cell
  deriving DecidableEq, Repr

/-- A bed beside its registers. -/
structure Bed where
  waves  : List Wave
  queue  : List TensorEntry
  loads  : List LoadInFlight
  banks  : List Bank
  /-- stochastic-rounding generators (R358) -/
  gens   : List Nat
  /-- instruction cache: (allotment, VA of a 64-byte line, bytes) (R350) -/
  icache : List (Nat × Nat × List Byte)
  /-- a built-in or rake tile that runs -/
  built  : Option TileRun
  /-- PROGRAM tiles by group slot -/
  groups : List (Nat × TileRun)
  /-- Gardener 0 has asked the bed to yield (R385) -/
  yielding : Bool
  saved  : Option BedSave
  /-- bed clock count as last read, and number of waits begun -/
  waitSeq : Nat
  /-- increments and sets of semaphores that arrive in the current clock (R341): (semaphore, amount), (semaphore, value) -/
  incs   : List (Nat × Nat)
  sets   : List (Nat × Nat)
  deriving DecidableEq, Repr

/-- A work order that is dispatched and past its checks. -/
structure Order where
  uid   : Nat
  fn    : Nat
  allot : Nat
  plot  : Nat
  cls   : Nat
  desc  : List Byte
  /-- tiles, the next unstarted tile, the completed prefix and completed tiles beyond it -/
  total : Nat
  next  : Nat
  prefix_ : Nat
  later : List Nat
  /-- Table 14.5 flags raised (R368) -/
  flags : Nat
  saturated : Bool
  badIndex : Bool
  /-- an ending at the tile boundary, decided: the STATUS, DETAIL and INFO of its completion as a word (Table 15.5) -/
  ending : Option Nat
  deriving DecidableEq, Repr

/-- What the urgent lane measures of a class-0 entry (R520, Table 22.4): T0, T_s, reasons as a mask of codes. -/
structure Urgent where
  uid     : Nat
  t0      : Nat
  ts      : Option Nat
  reasons : Nat
  queued  : Bool
  shade   : Bool
  preempted : Nat
  deriving DecidableEq, Repr

/-- Beds, work orders and the urgent lane. -/
structure BedUnit where
  beds   : List Bed
  /-- work orders, oldest first -/
  orders : List Order
  urgent : List Urgent
  deriving DecidableEq, Repr

/-! The rake (spec/17) -/

/-- A rake job that is dispatched and past its checks. -/
structure RakeJob where
  uid    : Nat
  desc   : List Byte
  /-- target descriptors, the depth target last -/
  targets : List (List Byte)
  /-- the tile edge in pixels -/
  edge   : Nat
  /-- 0 before binning, 1 binning, 2 shading -/
  phase  : Nat
  /-- OFFSET and COUNT of each tile's list -/
  table  : List (Nat × Nat)
  /-- tiles whose shading has ended and whose resolve has not: (tile, bed or 48 for a tile with an empty list) -/
  shaded : List (Nat × Nat)
  deriving DecidableEq, Repr

/-- The rake beside its registers. -/
structure RakeUnit where
  /-- jobs in dispatch order -/
  jobs : List RakeJob
  deriving DecidableEq, Repr

/-! The furrow codec (spec/19) -/

/-- A furrow job at the unit: the first runs, the others wait in dispatch order (R473). -/
structure FurrowJob where
  uid   : Nat
  fn    : Nat
  allot : Nat
  desc  : List Byte
  /-- whole bytes of its chunk written or consumed when it stalled -/
  count : Nat
  deriving DecidableEq, Repr

/-- The furrow beside its registers. -/
structure FurrowUnit where
  jobs : List FurrowJob
  deriving DecidableEq, Repr

/-! The management port (spec/09) -/

/-- A message in reassembly: its destination EID, the sequence number that the next packet must carry, what has come
(R233). -/
structure Assembly where
  who   : Requester
  dst   : Nat
  seq   : Nat
  bytes : List Byte
  deriving DecidableEq, Repr

/-- A response on the bus: its message, its SMBus packets and the arbitrations lost for it (R231). -/
structure MgmtSent where
  who     : Requester
  msg     : List Byte
  packets : List (List Byte)
  lost    : Nat
  deriving DecidableEq, Repr

/-- The port beside the MGMT registers. -/
structure MgmtUnit where
  partials : List Assembly
  /-- complete requests that wait for service, oldest first (R233) -/
  requests : List (Requester × List Byte)
  /-- responses, newest first -/
  sent     : List MgmtSent
  /-- the TID (R236) -/
  tid      : Nat
  /-- the answer to the last read of the Alert Response Address (R232) -/
  alertAnswer : Option Nat
  deriving DecidableEq, Repr

/-! The display (spec/17) -/

/-- The display beside its registers. -/
structure DisplayUnit where
  /-- DP_HPD is high, and the sink behind it -/
  sink  : Option Sink
  /-- black until the next flip after a translation fault (R422) -/
  muted : Bool
  /-- the active line that is sent next -/
  line  : Nat
  /-- the last line sent: red, green and blue of each pixel at the link's depth -/
  sent  : List (Nat × Nat × Nat)
  /-- the main link is idle for Shade -/
  idle  : Bool
  /-- the AUX transaction under way: OP, address and length -/
  aux   : Option (Nat × Nat × Nat)
  /-- the last AUX write: address and bytes -/
  auxOut : Option (Nat × List Byte)
  deriving DecidableEq, Repr

/-! The switch (spec/18) -/

/-- A MAC table entry: VID, address, and the port that learned it, 4 · port + sub-port, or 16 for I1 (R431). -/
structure MacEntry where
  vid  : Nat
  mac  : Nat
  port : Nat
  deriving DecidableEq, Repr

/-- An Ethernet frame after its tag is taken off: addresses, VID, PCP, and the bytes from the EtherType on. -/
structure EthFrame where
  dst  : Nat
  src  : Nat
  vid  : Nat
  pcp  : Nat
  body : List Byte
  deriving DecidableEq, Repr

/-- A frame in an egress queue: where to (as in MacEntry), the queue, where from, its timestamp in ns. -/
structure Queued where
  dest  : Nat
  queue : Nat
  src   : Nat
  ns    : Nat
  frame : EthFrame
  deriving DecidableEq, Repr

/-- The switch beside its registers. -/
structure SwitchUnit where
  macs   : List MacEntry
  /-- frames that wait, oldest first -/
  queues : List Queued
  /-- credit of a shaped queue in bits and the device time of its last update: (dest · 8 + queue, credit, µs) -/
  credits : List (Nat × Int × Nat)
  /-- frames sent, newest first: port, bytes with FCS, timestamp -/
  sent   : List (Nat × List Byte × Nat)
  /-- the virtual NIC's next receive and transmit descriptors and the host's tails -/
  rxHead : Nat
  rxTail : Nat
  txHead : Nat
  txTail : Nat
  /-- frames for the time engine, oldest first -/
  ptp    : List (Nat × EthFrame × Nat)
  /-- a master has been heard since the island opened, consecutive Syncs below 500 ns, and ns still to slew (R435) -/
  heard  : Bool
  good   : Nat
  slew   : Int
  deriving DecidableEq, Repr

/-! Stream slots, decoders and placement (spec/18) -/

/-- An SRTP context (R440): its number, master key and salt, ROC, the highest authenticated sequence number, and the
64-packet window below it. -/
structure SrtpCtx where
  gen  : Nat
  key  : List Byte
  salt : List Byte
  roc  : Nat
  top  : Option Nat
  window : Nat
  /-- the highest authenticated SRTCP index and the window below it -/
  ctop : Option Nat
  cwindow : Nat
  deriving DecidableEq, Repr

/-- A datagram that matched a slot (R438): its UDP payload, its timestamp, TIME_STATUS LOCKED then, and the SRTP context
in force. -/
structure Datagram where
  slot  : Nat
  rtcp  : Bool
  src   : Nat
  frame : EthFrame
  pay   : List Byte
  ns    : Nat
  locked : Bool
  gen   : Nat
  deriving DecidableEq, Repr

/-- An accepted RTP packet: header fields, payload, arrival. -/
structure RtpPkt where
  seq  : Nat
  ts   : Nat
  ssrc : Nat
  marker : Bool
  pay  : List Byte
  ns   : Nat
  locked : Bool
  deriving DecidableEq, Repr

/-- An access unit in assembly (R442): its bytes in Annex B form, and where the packet ring holds its first packet:
PA, COUNT and first word. -/
structure AuAsm where
  ts   : Nat
  ns   : Nat
  locked : Bool
  incomplete : Bool
  bytes : List Byte
  first : Option (Nat × Nat × Nat)
  deriving DecidableEq, Repr

/-- An access unit that waits for its decoder, or is in decode. -/
structure AccessUnit where
  ts   : Nat
  ns   : Nat
  locked : Bool
  rap  : Bool
  concealed : Bool
  bytes : List Byte
  /-- device time of its completion -/
  doneUs : Nat
  deriving DecidableEq, Repr

/-- A stream slot beside its registers. -/
structure StreamSlot where
  keyWords : List Word
  ctx   : Option SrtpCtx
  /-- the context before the last commit (R460) -/
  prev  : Option SrtpCtx
  ssrcLocked : Bool
  /-- the one other SSRC heard since a packet of the locked one (R439) -/
  other : Option Nat
  /-- next expected sequence number, and the packets held behind it in order (R441) -/
  next  : Option Nat
  held  : List RtpPkt
  lossNext : Bool
  asm   : Option AuAsm
  cpb   : List AccessUnit
  cpbPos : Nat
  params : List Byte
  conceal : Bool
  /-- NTP seconds, NTP fraction and RTP time of the last sender report (R443) -/
  sr    : Option (Nat × Nat × Nat)
  feedTail : Nat
  /-- completion times of its access units within the last second (R448) -/
  rate  : List Nat
  main10 : Bool
  deriving DecidableEq, Repr

/-- A frame in a staging buffer of a group: which, its first group slab, and the next band to place (R453). -/
structure Staged where
  buf   : Nat
  first : Nat
  band  : Nat
  deriving DecidableEq, Repr

/-- A placement group beside its registers: frames staged in order, and slabs given to frames. -/
structure PlaceGroup where
  staged : List Staged
  given  : Nat
  deriving DecidableEq, Repr

/-- A record in the packet ring that has not been overwritten: COUNT, slot, offset, size, ARRIVAL_NS (R445). -/
structure RingRec where
  count : Nat
  slot  : Nat
  off   : Nat
  size  : Nat
  ns    : Nat
  deriving DecidableEq, Repr

/-- The intake, the decoders and the placement groups. -/
structure IntakeUnit where
  slots  : List StreamSlot
  /-- matched datagrams, oldest first -/
  i0     : List Datagram
  /-- the access unit in decode of each engine, with its slot -/
  engines : List (Option (Nat × AccessUnit))
  /-- coded luma samples of decoded access units of the last second: (engine, µs, samples) -/
  loads  : List (Nat × Nat × Nat)
  groups : List PlaceGroup
  /-- records of the packet ring, oldest first -/
  ring   : List RingRec
  deriving DecidableEq, Repr

/-! The evidence store (spec/20) -/

/-- What a NAND chip enable answers (R482): LUNs, page data size code (1 4 KiB, 2 8 KiB, 3 16 KiB), spare bytes, bits per
cell, pages per block, blocks, rated erases, NV-DDR3 timing modes in MT/s, read retry options, identity, and the blocks
with factory defect marks. -/
structure NandChip where
  luns    : Nat
  pageKib : Nat
  spare   : Nat
  bits    : Nat
  pages   : Nat
  blocks  : Nat
  rated   : Nat
  modes   : List Nat
  retries : Nat
  ident   : Nat
  crcOk   : Bool
  factory : List Nat
  deriving DecidableEq, Repr

/-- A block that has been used: chip enable, number, erases, reads since its last erase, units programmed, why it is to
be moved (0 not, 1 refresh, 2 reclaim or wear), no further program, the retry option that succeeded last. -/
structure NandBlock where
  ce     : Nat
  blk    : Nat
  erases : Nat
  reads  : Nat
  fill   : Nat
  mark   : Nat
  shut   : Bool
  retry  : Option Nat
  deriving DecidableEq, Repr

/-- Where a program unit lies: chip enable, block, unit of the block. -/
structure UnitAt where
  ce  : Nat
  blk : Nat
  idx : Nat
  deriving DecidableEq, Repr

/-- A programmed unit: its pages' bytes, and whether a journal record names it. -/
structure NandUnit where
  loc    : UnitAt
  pages  : List (List Byte)
  logged : Bool
  deriving DecidableEq, Repr

/-- A clip: its units in order with the bytes that each holds. -/
structure Clip where
  num      : Nat
  volume   : Nat
  length   : Nat
  shutDown : Bool
  packets  : Bool
  created  : Nat
  note     : List Byte
  units    : List (UnitAt × Nat)
  cut      : Bool
  deriving DecidableEq, Repr

/-- A volume: number, quota in MiB, POLICY (R487). -/
structure Volume where
  num    : Nat
  quota  : Nat
  policy : Nat
  deriving DecidableEq, Repr

/-- The Seedkeeper's index. -/
structure StoreIndex where
  clips    : List Clip
  nextClip : Nat
  seq      : Nat
  deriving DecidableEq, Repr

/-- The superblock (R486). -/
structure Superblock where
  chip      : NandChip
  codeB     : Bool
  ceMask    : Nat
  /-- the system area: blocks of the lowest chip enable below this one -/
  sysEnd    : Nat
  capBlocks : Nat
  spareTotal : Nat
  spareLeft : Nat
  volumes   : List Volume
  readOnly  : Bool
  deriving DecidableEq, Repr

/-- A journal record (R501). -/
inductive JournalRec where
  | unit (clip : Nat) (loc : UnitAt) (bytes : Nat)
  | create (c : Clip)
  | sealClip (clip : Nat)
  | delete (clip : Nat)
  | packets (clip : Nat)
  | cutBack (clip len : Nat)
  | clearCut (clip : Nat)
  | volume (num : Nat)
  | retired (ce blk : Nat)
  | moved (src dst : UnitAt)
  deriving DecidableEq, Repr

/-- The NAND fitted on the board and what it holds: bad blocks with whether they are grown, the checkpoint slots, the
journal since the newest checkpoint. -/
structure NandStore where
  chips   : List (Option NandChip)
  bad     : List (Nat × Nat × Bool)
  blocks  : List NandBlock
  units   : List NandUnit
  superblock : Option Superblock
  ckpts   : List (Option (Nat × StoreIndex))
  journal : List JournalRec
  journalBytes : Nat
  lastScrub : Nat
  deriving DecidableEq, Repr

/-- A request held by the Seedkeeper. -/
structure EvidReq where
  uid   : Nat
  fn    : Nat
  allot : Nat
  desc  : List Byte
  begun : Bool
  /-- bytes acknowledged or copied -/
  done  : Nat
  /-- bytes taken from the source, and those not yet programmed or written -/
  pos   : Nat
  buf   : List Byte
  /-- a program or a read of it is under way -/
  busy  : Bool
  /-- a codeword of what `buf` holds the bytes before was uncorrectable -/
  bad   : Bool
  /-- the word it ends with at its next boundary -/
  ending : Option Nat
  /-- APPEND_PKT: the first record is known, COUNT of the last record copied, INFO, TO_NS has passed -/
  head  : Bool
  lastCount : Nat
  trunc : Bool
  gap   : Bool
  past  : Bool
  deriving DecidableEq, Repr

/-- What a NAND operation is for. -/
inductive NandPurpose where
  /-- a unit of a request with its bytes -/
  | prog (uid clip bytes : Nat)
  | read (uid : Nat)
  | scrub
  /-- a unit that is to be moved is read, then programmed at another place -/
  | fetch
  | move (src : UnitAt)
  | erase
  /-- an erase of FORMAT -/
  | wipe
  deriving DecidableEq, Repr

/-- A NAND operation under way. -/
structure NandOp where
  loc : UnitAt
  purpose : NandPurpose
  deriving DecidableEq, Repr

/-- The Seedkeeper: its index, requests held in order of arrival, operations in order of start, units that a scrub has
yet to read, a FORMAT with the next block of each chip enable, the write position in the staging buffer. -/
structure EvidUnit where
  index : StoreIndex
  reqs  : List EvidReq
  ops   : List NandOp
  scrub : List UnitAt
  /-- the units are those of a scrub that fell due -/
  scrubDue : Bool
  format : Option (Nat × List Nat)
  stagePos : Nat
  /-- the configuration that the store was mounted with -/
  cfg : Option EvidenceCfg
  deriving DecidableEq, Repr

/-! Listening (spec/21) -/

/-- An open glass window (R510): frames so far, E before the onset, E of the onset, the peak, and the energies of the high
band and of the whole. Levels are in 1/256 dBFS. -/
structure GlassWindow where
  frames : Nat
  before : Int
  first  : Int
  peak   : Int
  high   : Nat
  whole  : Nat
  deriving DecidableEq, Repr

/-- What a microphone's detectors hold: the noise floor in 1/65,536 dBFS, the last E in 1/256 dBFS, the glass window, the
tonal frames newest first, and the frame numbers of the last firings. -/
structure MicState where
  floor   : Option Int
  last    : Option Int
  window  : Option GlassWindow
  tonal   : List Bool
  glassAt : Option Nat
  alarmAt : Option Nat
  deriving DecidableEq, Repr

/-- A frame in the pre-roll buffer: its samples, settling zeros, a saturated sample in it. -/
structure RollFrame where
  samples : List Int
  settle  : Bool
  sat     : Bool
  deriving DecidableEq, Repr

/-- The frozen pre-roll with what its header shows (Table 21.3). -/
structure FrozenRoll where
  samples    : List Int
  firstValid : Nat
  detectors  : Nat
  score      : Nat
  fromState  : Nat
  settle     : Bool
  sat        : Bool
  floor      : Int
  timeUs     : Nat
  deriving DecidableEq, Repr

/-- The acoustic front end beside its registers: the ACOUSTIC record in force, microphones, frames counted, the pre-roll
newest first, its frozen copy, a RELEASE that waits for the frame's end. -/
structure AcouUnit where
  cfg    : Option AcousticCfg
  mics   : List MicState
  count  : Nat
  roll   : List RollFrame
  frozen : Option FrozenRoll
  releasing : Bool
  deriving DecidableEq, Repr

/-- The instruction of the JTAG test access port (R540); `none` stands for Test-Logic-Reset. -/
inductive TapInstr where
  | none
  | bypass
  | samplePreload
  | extest
  deriving DecidableEq, Repr

/-- The test access port (R540): its instruction, the bypass register, the boundary-scan register's shift stage and its
update stage, and the bits that left on JTAG_TDO in the last scan. -/
structure TapUnit where
  instr  : TapInstr
  bypass : Bool
  cells  : List Bool
  latch  : List Bool
  tdo    : List Bool
  deriving DecidableEq, Repr

/-- Why a run stops with a fault. -/
inductive Fault where
  /-- No meaning raises it: the spec reports every failure in a register, a completion or a message. Safe. -/
  | none
  deriving DecidableEq, Repr

/-- Why a command has no meaning in the model. -/
inductive Refusal where
  /-- Raised by the arms of exec for a command that has no meaning yet. Safe. -/
  | notModelled (mnemonic : String)
  deriving DecidableEq, Repr

/-- The whole state. -/
structure State where
  /-- BAR0 register words by offset; an unlisted word has its Cold value -/
  regs    : List (Nat × Word)
  isl     : IslandUnit
  mem     : MemUnit
  mmu     : MmuUnit
  host    : HostUnit
  fw      : FwUnit
  plan    : PlanUnit
  boot    : BootUnit
  board   : BoardUnit
  pwr     : PowerUnit
  fence   : FenceUnit
  hose : HoseUnit
  bed : BedUnit
  rake : RakeUnit
  furrow : FurrowUnit
  mgmt : MgmtUnit
  disp : DisplayUnit
  switch : SwitchUnit
  intake : IntakeUnit
  nand : NandStore
  evid : EvidUnit
  acou : AcouUnit
  tap : TapUnit
  /-- device time in microseconds since reset (Table 1.12 TIME_US; log entry 5) -/
  timeUs  : Nat
  /-- how many free values have been used (the model's own field; log entry 1) -/
  fresh   : Nat
  /-- commands that wait, first in, first out -/
  pending : List Instr
  deriving DecidableEq, Repr


/-! Reset values of the units (spec/04 R103; log entries 2–5, 10–12) -/

/-- No hedge has opened, no view is loaded. -/
def IslandUnit.reset : IslandUnit :=
  { views := [], broadcasts := [], tracked := [], crossing := [], heldReplies := [], heldResets := [],
    ctrlTargets := [], errors := [] }

/-- DRAM, bed memories, shed and key slots are empty; the flash is erased and host memory unwritten. -/
def MemUnit.reset : MemUnit :=
  { dram := [], bedMem := [], host := [], flash := [], poison := [], lines := [], fills := [], touched := [],
    keys := [], class0 := [0, 0] }

/-- No translation is cached and no fault recorded; batches count from 1 (Table 11.4). -/
def MmuUnit.reset : MmuUnit :=
  { tlb := [], stalls := [], batches := [], nextBatch := [1, 1, 1, 1, 1, 1, 1, 1],
    writePos := [0, 0, 0, 0, 0, 0, 0, 0], nextStall := 1, inval := none }

/-- A function after its reset: no bus mastering, MSI-X disabled, every vector masked. -/
def PcieFn.reset (present : Bool) : PcieFn :=
  { present := present, busMaster := false, d3hot := false, msixEnable := false,
    msix := List.replicate 64 (0, 0, true), pba := 0, vfCause := 0, vfMask := 2 ^ 9 }

/-- PF0 exists, the link is down, no entry is known. -/
def HostUnit.reset : HostUnit :=
  { fns := PcieFn.reset true :: List.replicate 7 (PcieFn.reset false), linkUp := false, vfEnable := false,
    bar4Size := 2 ^ 28, ltrUs := 0, msgs := [], nextUid := 0, nextRead := 0, reads := [], heads := [], entries := [], doors := [],
    latched := [], waiting := [], unsignalled := [], lastServed := [0, 0, 0], credit := [0, 0],
    sinceClass2 := 0, causePending := 0, readData := [], retried := false, heldLow := [], heldHigh := [] }

/-- No processor runs and nothing is held in the retention store. -/
def FwUnit.reset : FwUnit :=
  { running := [.none, .none, .none, .none], digests := [0, 0, 0, 0], planDigest := none, training := none,
    keyStore := [], hotDigest := [], closes := [], waiters := [], forced := [], forCommand := [],
    hotSwap := none, reloadCmd := none, wdogAt := [0, 0, 0, 0] }

/-- A configuration that powers nothing: none is in force before PLAN_APPLY. -/
def PlanCfg.none : PlanCfg :=
  { planId := 0, generation := 0, security := 0, keyIndex := 0,
    islands := List.replicate 72 ⟨false, 0, 0, 0⟩, plots := [], split := List.replicate 48 (0, 0, 0),
    routes := [], locks := [], intake := Option.none,
    qos := ⟨List.replicate 72 1, List.replicate 32 1, 25, 5⟩,
    limits := ⟨95, 100, 3, 16, 15000, 100, [100, 100, 100, 100], 1000, 0⟩,
    urgent := ⟨false, 0, 1, 40, 2 ^ 64 - 1⟩, display := Option.none, acoustic := Option.none,
    evidence := Option.none }

/-- No plan is active and no command runs. -/
def PlanUnit.reset : PlanUnit := { active := .none, chain := [], staged := [], job := none, paused := [] }

/-- Fuses of a part before key provisioning: an RZ64-M without fused keys or floors (log entry 10). -/
def Fuses.blank : Fuses :=
  { planKeys := List.replicate 4 ⟨0, false, false⟩, planFloor := 0, imageKeys := List.replicate 2 ⟨0, false, false⟩,
    imageFloor := 0, variant := 0, uuid := List.replicate 16 0 }

/-- A start is at POWER_GOOD. -/
def BootUnit.reset : BootUnit :=
  { fuses := .blank, starting := true, startedAt := 0, stepAt := 0, halted := false, mirror := List.replicate 32 0,
    tripMark := none, nandClean := false, ecc := false, rate := 2, memCfg := (0, 0, 0, 0), heldPower := none, linkTraining := false,
    clearing := none, verified := none }

/-- Reset and power pins high, nothing asserted (log entry 11). -/
def BoardUnit.reset : BoardUnit :=
  { resetN := true, pwrOk := true, wakeN := true, thermN := true, memEn := true, detector := false, strap0 := 0,
    strap1 := 0, testMode := false, alerts := [], crystal := true, fromOff := false, nandWpN := false,
    nandCeN := 15, xspiCsN := true }

/-- No entry is under way and nothing is held. -/
def PowerUnit.reset : PowerUnit :=
  { cut := false, drained := false, latched := [], wakeAt := 0, after := none, tlps := [], frames := [] }

/-- Empty filters, no run, the default table (R164). -/
def FenceUnit.reset : FenceUnit :=
  { filters := List.replicate 12 [], softRun := [(0, 0), (0, 0)], hwRun := 0, tripRun := 0, coolRun := 0,
    above := [false, false, false, false], tripHold := false, table := none, overUs := 0, sustained := false,
    peakRun := 0, lowUs := 0, uvHeld := false, raising := none, avsTries := 0, avsCap := none }
/-- No transfer is known. -/
def HoseUnit.reset : HoseUnit := { transfers := [] }

/-- A bed with no work; its banks hold 0 in FP32 mode and its generators 0 until a tile loads them (R358, R381). -/
def Bed.reset : Bed :=
  { waves := [], queue := [], loads := [], banks := List.replicate 8 ⟨true, []⟩, gens := List.replicate 128 0,
    icache := [], built := none, groups := [], yielding := false, saved := none, waitSeq := 0, incs := [], sets := [] }

/-- No order is known. -/
def BedUnit.reset : BedUnit := { beds := List.replicate 48 .reset, orders := [], urgent := [] }

/-- No rake job is known. -/
def RakeUnit.reset : RakeUnit := { jobs := [] }

/-- The furrow has no job. -/
def FurrowUnit.reset : FurrowUnit := { jobs := [] }

/-- The port knows no message; the TID is unassigned. -/
def MgmtUnit.reset : MgmtUnit := { partials := [], requests := [], sent := [], tid := 0, alertAnswer := none }

/-- No sink is known, and nothing has been sent. -/
def DisplayUnit.reset : DisplayUnit :=
  { sink := none, muted := false, line := 0, sent := [], idle := false, aux := none, auxOut := none }

/-- The switch has learned nothing and holds no frame. -/
def SwitchUnit.reset : SwitchUnit :=
  { macs := [], queues := [], credits := [], sent := [], rxHead := 0, rxTail := 0, txHead := 0, txTail := 0, ptp := [],
    heard := false, good := 0, slew := 0 }

/-- An IDLE slot without a key. -/
def StreamSlot.reset : StreamSlot :=
  { keyWords := List.replicate 8 0, ctx := none, prev := none, ssrcLocked := false, other := none, next := none,
    held := [], lossNext := false, asm := none, cpb := [], cpbPos := 0, params := [], conceal := false, sr := none,
    feedTail := 0, rate := [], main10 := false }

/-- No stream is known. -/
def IntakeUnit.reset : IntakeUnit :=
  { slots := List.replicate 64 .reset, i0 := [], engines := [none, none], loads := [],
    groups := List.replicate 8 ⟨[], 0⟩, ring := [] }

/-- An empty index. -/
def StoreIndex.empty : StoreIndex := { clips := [], nextClip := 0, seq := 0 }

/-- No NAND is fitted. -/
def NandStore.reset : NandStore :=
  { chips := [none, none, none, none], bad := [], blocks := [], units := [], superblock := none, ckpts := [none, none],
    journal := [], journalBytes := 0, lastScrub := 0 }

/-- The Seedkeeper holds no request. -/
def EvidUnit.reset : EvidUnit :=
  { index := .empty, reqs := [], ops := [], scrub := [], scrubDue := false, format := none, stagePos := 0, cfg := none }

/-- A microphone that has not been heard. -/
def MicState.reset : MicState :=
  { floor := none, last := none, window := none, tonal := [], glassAt := none, alarmAt := none }

/-- The front end is off. -/
def AcouUnit.reset : AcouUnit :=
  { cfg := none, mics := List.replicate 8 .reset, count := 0, roll := [], frozen := none, releasing := false }

/-- Test-Logic-Reset; the register has 147 cells on the RZ64-M (R540). -/
def TapUnit.reset : TapUnit :=
  { instr := .none, bypass := false, cells := List.replicate 147 false, latch := List.replicate 147 false, tdo := [] }

/-- The machine right after reset: a cold start with the rails from off is at POWER_GOOD (Table 4.1; START_KIND 0),
every register at its Cold value but BOOT_STATUS.STEP, which names the step. -/
def State.reset : State :=
  { regs := [(0x030000, 1)], isl := .reset, mem := .reset, mmu := .reset, host := .reset, fw := .reset, plan := .reset,
    boot := .reset, board := .reset, pwr := .reset, fence := .reset,
    hose := .reset, bed := .reset, rake := .reset, furrow := .reset, mgmt := .reset, disp := .reset, switch := .reset, intake := .reset, nand := .reset, evid := .reset, acou := .reset, tap := .reset,
    timeUs := 0, fresh := 0, pending := [] }

end Sys2Proof.Machine
end

