-- ==== Sys2Proof/Machine/Ops.lean ====
section
/-! DEFINITION. The named operations over registers, free values, hedges, events, messages, the control token and host
memory that every family of commands uses. -/
namespace Sys2Proof.Machine

/-- The outcome type of a command. -/
abbrev Out := Host.Outcome State Fault Refusal

/-- A BAR0 register word; an unlisted one has its Cold value. -/
def State.rd (s : State) (off : Nat) : Word := cellGet coldWord s.regs off

/-- Set a BAR0 register word. -/
def State.wr (s : State) (off : Nat) (v : Word) : State := { s with regs := cellSet coldWord s.regs off v }

/-- A register field. -/
def State.get (s : State) (f : Field) : Nat := getBits (s.rd f.off) f.lo f.width

/-- Set a register field (modulo its width), keeping the word's other bits. -/
def State.put (s : State) (f : Field) (v : Nat) : State := s.wr f.off (setBits (s.rd f.off) f.lo f.width v)

/-- Raise a counter field, which stops at its all-ones value. -/
def State.bump (s : State) (f : Field) (n : Nat) : State := s.put f (satAdd f.width (s.get f) n)

/-- Raise a 32-bit counter register that stops at 0xFFFF_FFFF. -/
def State.bump32 (s : State) (off n : Nat) : State :=
  s.wr off (BitVec.ofNat 32 (satAdd 32 (s.rd off).toNat n))

/-- Raise a 32-bit counter register that wraps. -/
def State.wrap32 (s : State) (off n : Nat) : State := s.wr off (BitVec.ofNat 32 ((s.rd off).toNat + n))

/-- A 64-bit register, low half first (R9). -/
def State.rd64 (s : State) (off : Nat) : Nat := (s.rd off).toNat + 2 ^ 32 * (s.rd (off + 4)).toNat

/-- Set a 64-bit register, both halves together (R9). -/
def State.wr64 (s : State) (off v : Nat) : State :=
  (s.wr off (BitVec.ofNat 32 v)).wr (off + 4) (BitVec.ofNat 32 (v / 2 ^ 32))

/-- Set several fields. -/
def State.puts (s : State) (l : List (Field × Nat)) : State := l.foldl (fun t e => t.put e.1 e.2) s

/-- The next free value, and the state that has used it (log entry 1). -/
def State.draw (s : State) : Nat × State := (Config.freeNat s.fresh, { s with fresh := s.fresh + 1 })

/-- Apply a change only under a condition. -/
def State.when (s : State) (c : Bool) (f : State → State) : State := if c then f s else s

/-- Apply a change for each element of a list, in order. -/
def State.each {α : Type} (s : State) (l : List α) (f : α → State → State) : State := l.foldl (fun t a => f a t) s

/-! Hedge states (Table 1.2) -/

/-- DARK. -/
def DARK : Nat := 0
/-- CLOSED. -/
def CLOSED : Nat := 1
/-- OPENING. -/
def OPENING : Nat := 2
/-- OPEN. -/
def OPEN : Nat := 3
/-- STOPPED. -/
def STOPPED : Nat := 4

/-- The state of an island's hedge. -/
def State.hedge (s : State) (n : Nat) : Nat := s.get (F.islandStateState n)

/-- The epoch of an island (R21). -/
def State.epoch (s : State) (n : Nat) : Nat := s.get (F.islandStateEpoch n)

/-- An island is OPEN. -/
def State.isOpen (s : State) (n : Nat) : Bool := s.hedge n == OPEN

/-- An island is DARK or CLOSED: its registers and its memory are not served (R24, R41). -/
def State.isShut (s : State) (n : Nat) : Bool := s.hedge n == DARK || s.hedge n == CLOSED

/-- The word of Table 1.3 for a target island. -/
def State.errorWord (s : State) (status n : Nat) : Nat :=
  status + 2 ^ 8 * n + 2 ^ 16 * s.epoch n +
    2 ^ 24 * (if status = 0x11 then s.get (F.islandStateLastCause n) else 0) + 2 ^ 28 * s.hedge n

/-! MSI-X and events -/

/-- A PCIe function. -/
def State.fn (s : State) (f : Nat) : PcieFn :=
  s.host.fns.getD f (.reset false)

/-- Replace a PCIe function. -/
def State.setFn (s : State) (f : Nat) (p : PcieFn) : State :=
  { s with host := { s.host with fns := setAt f p s.host.fns } }

/-- A function may issue requests to the host: Bus Master Enable, D0 and a link (R199, R201). -/
def State.canIssue (s : State) (f : Nat) : Bool :=
  let p := s.fn f
  p.present && p.busMaster && !p.d3hot && s.host.linkUp

/-- Send a vector's message, or set its PBA bit where the vector is masked or the function may not issue (R201, R218). -/
def sendMsi (f v : Nat) (s : State) : State :=
  let p := s.fn f
  let e := p.msix.getD v (0, 0, true)
  if s.canIssue f && p.msixEnable && !p.msixMask && !e.2.2 then
    { s with host := { s.host with msgs := ⟨f, v, e.1, e.2.1⟩ :: s.host.msgs } }
  else if bit p.pba v then s
  else s.setFn f { p with pba := p.pba + 2 ^ v }

/-- Set a bit of PF0's HOSTQ_EVENT_CAUSE, or island 1's pending copy while island 60 is shut; a 0-to-1 change with its
mask bit set sends vector 0 (R218, R219). -/
def setEvent (b : Nat) (s : State) : State :=
  if s.isShut 60 then
    if bit s.host.causePending b then s
    else { s with host := { s.host with causePending := s.host.causePending + 2 ^ b } }
  else if bit (s.rd R.hostqEventCause).toNat b then s
  else
    let s1 := s.wr R.hostqEventCause (BitVec.ofNat 32 ((s.rd R.hostqEventCause).toNat + 2 ^ b))
    if bit (s.rd R.hostqEventMask).toNat b then sendMsi 0 0 s1 else s1

/-- RING_HALT for the function that owns a ring (R219 bit 9): PF0's register, or the VF's own. -/
def setRingEvent (f : Nat) (s : State) : State :=
  if f = 0 then setEvent 9 s
  else
    let p := s.fn f
    if bit p.vfCause 9 then s
    else
      let s1 := s.setFn f { p with vfCause := p.vfCause + 2 ^ 9 }
      if bit p.vfMask 9 then sendMsi f 0 s1 else s1

/-- A W1C bit of GLOBAL_STATUS sets; a 0-to-1 change is event ACCESS (R562). -/
def setGlobal (f : Field) (s : State) : State :=
  if s.get f = 1 then s else setEvent 10 (s.put f 1)

/-- BAD_ACCESS (R8, R10, R555). -/
def badAccess (s : State) : State := setGlobal F.globalStatusBadAccess s

/-- DARK_ACCESS with the island it names (R41). -/
def darkAccess (n : Nat) (s : State) : State :=
  (setGlobal F.globalStatusDarkAccess s).put F.globalDarkIslandIsland n

/-! The control token (Table 8.10; lease 5 of Table 7.4) -/

/-- The writer counts as PF0: the host's PF0, or the management port (R241). -/
def isPf0 : Writer → Bool
  | .host f => f == 0
  | .port => true

/-- The writer holds the control token: lease 5 names island 60 for the host, island 2 for the port. -/
def State.hasToken (s : State) : Writer → Bool
  | .host f => f == 0 && s.get (F.fenceLeaseHolder 5) == 60
  | .port => s.get (F.fenceLeaseHolder 5) == 2

/-- Move the token: to the host (0) or the management port (1), with HOW; the heartbeat disarms (R220, R221). -/
def moveToken (holder how : Nat) (s : State) : State :=
  let n := if holder = 0 then 60 else 2
  let s1 := s.puts [(F.fenceLeaseHolder 5, n), (F.fenceLeaseEpoch 5, s.epoch n),
    (F.hostqTokenHolder, holder), (F.hostqTokenHow, how), (F.hostqHeartbeatArmed, 0)]
  setEvent 8 s1

/-! Host memory -/

/-- A posted write of a function to host memory; a function that may not issue has it discarded and counted (R201). -/
def hostWrite (f addr : Nat) (bs : List Byte) (s : State) : State :=
  if s.canIssue f then { s with mem := { s.mem with host := Memory.write ramFill s.mem.host addr bs } }
  else s.bump32 R.hostqDropped 1

/-- A read of host memory for a function; none is HOST_ABORT (R201, R280). -/
def hostRead (f addr n : Nat) (s : State) : Option (List Byte) :=
  if s.canIssue f then some (Memory.read ramFill s.mem.host addr n) else none

/-! Power state and modes -/

/-- PWR_STATUS.STATE: 0 Bloom, 1 Shade, 2 Fallow, 3 Dormant, 4 Frost (Table 5.1). -/
def State.power (s : State) : Nat := s.get F.pwrStatusState

/-- The device is in Bloom. -/
def State.inBloom (s : State) : Bool := s.power == 0

/-- The function whose allotment range holds an allotment (R206, R275). -/
def State.allotOwner (s : State) (a : Nat) : Option Nat :=
  (List.range 8).find? (fun f => s.get (F.hostqFnAllotBase f) ≤ a &&
    a < s.get (F.hostqFnAllotBase f) + s.get (F.hostqFnAllotCount f))

/-- The function that owns SQ r (R207). -/
def State.sqFn (s : State) (r : Nat) : Nat := s.get (F.hostqRingOwnerSqFn r)

/-- The function that owns CQ r (R207). -/
def State.cqFn (s : State) (r : Nat) : Nat := s.get (F.hostqRingOwnerCqFn r)

/-- The dispatched entry with a number. -/
def State.entry (s : State) (uid : Nat) : Option Entry := s.host.entries.find? (fun e => e.uid = uid)

end Sys2Proof.Machine
end

