-- ==== Sys2Proof/Machine/Phys.lean ====
section
/-! DEFINITION. Physical memory: the map of Table 10.2, bed memory, the shed and inline encryption (spec/10). -/
namespace Sys2Proof.Machine

/-- Who makes an access and how: its island, its memory class and its key selector (R258, R262). -/
structure Req where
  island  : Nat
  cls     : Nat
  key     : Nat
  noAlloc : Bool
  deriving DecidableEq, Repr

/-- An access that ends in an error completion: STATUS, DETAIL and, for ISLAND_RESET, the target island. -/
structure MemErr where
  status : Nat
  detail : Nat
  island : Nat
  deriving DecidableEq, Repr

/-- The regions of Table 10.2. -/
inductive Region where
  | general
  | packetRing
  | reserve
  | scratch
  | bed (n : Nat)
  | none
  deriving DecidableEq, Repr

/-- Usable DRAM U in bytes (R251). -/
def State.usable (s : State) : Nat := s.rd64 R.memcUsable

/-- The size of the compressed packet ring in bytes (R251). -/
def State.pktBytes (s : State) : Nat := s.get F.memcPktPktMib * 2 ^ 20

/-- The first address of the packet ring. -/
def State.pktBase (s : State) : Nat := s.usable - 2 ^ 24 - s.pktBytes

/-- The first address of the Groundskeeper reserve; the staging buffer of the management port lies in it (R251, R242).
The order of its parts is that of Table 10.2 (log entry 7). -/
def State.reserveBase (s : State) : Nat := s.usable - 2 ^ 24

/-- The first address of the management staging buffer: after plan shadow, image copies and save area. -/
def State.stageBase (s : State) : Nat := s.reserveBase + 2 ^ 21 + 768 * 1024 + 2 ^ 20

/-- The first address of the bed memory aperture of bed n. -/
def bedBase (n : Nat) : Nat := 0xF000000000 + n * 0x100000

/-- The region of a PA (Table 10.2). -/
def State.region (s : State) (pa : Nat) : Region :=
  let u := s.usable
  if 0xF000000000 ≤ pa ∧ pa < 0xF003000000 then .bed ((pa - 0xF000000000) / 0x100000)
  else if u ≤ pa then .none
  else if u - 2 ^ 23 ≤ pa then .scratch
  else if u - 2 ^ 24 ≤ pa then .reserve
  else if s.pktBase ≤ pa then .packetRing
  else .general

/-- The channel of a PA: R252 in the interleaved range, channel 0 for the reserve, channel 1 for the scratch. -/
def State.channel (s : State) (pa : Nat) : Nat :=
  match s.region pa with
  | .reserve => 0
  | .scratch => 1
  | _ => (slice pa 8 1 + slice pa 12 1 + slice pa 16 1 + slice pa 20 1) % 2

/-- A region admits a requester (R253). -/
def regionAdmits (r : Region) (island : Nat) (write : Bool) : Bool :=
  match r with
  | .general => true
  | .packetRing => if write then island == 62 else island == 0 || island == 62 || island == 67 || island == 68
  | .reserve => island == 0 || (56 ≤ island && island ≤ 59)
  | .bed _ => true
  | .scratch => false
  | .none => false

/-- The three parts of a bed memory by the active MEMSPLIT word (R266), and none beyond 768 KiB. -/
inductive BedPart where
  | tile
  | scratch
  | spill
  | none
  deriving DecidableEq, Repr

/-- The part of bed n's memory that an offset lies in. -/
def State.bedPart (s : State) (n off : Nat) : BedPart :=
  let g := off / 0x8000
  let t := s.get (F.bedSplitTile n)
  if 24 ≤ g then .none
  else if g < t then .tile
  else if g < t + s.get (F.bedSplitScratch n) then .scratch
  else .spill

/-- Bed m belongs to the plot of bed n, under the active plan. -/
def State.samePlot (s : State) (n m : Nat) : Bool :=
  n == m || s.plan.active.plots.any (fun p => bit p.beds n && bit p.beds m)

/-- Table 10.4: a part of bed n's memory admits an access of an island. -/
def State.bedAdmits (s : State) (n : Nat) (p : BedPart) (island : Nat) (write : Bool) : Bool :=
  let own := island == n + 4
  let plotBed := 4 ≤ island && island < 52 && s.samePlot n (island - 4)
  let hose := island == 67 || island == 68
  match p with
  | .tile => if write then own || island == 65 || hose else own || plotBed || island == 65 || hose
  | .scratch => if write then own || hose || island == 62 else own || plotBed || hose
  | .spill => own || (write && 52 ≤ island && island ≤ 55)
  | .none => false

/-- The lock entry that holds a PA: slice and index (R267). No line of a reserved region is locked (R253). -/
def State.lockOf (s : State) (pa : Nat) : Option (Nat × Nat) :=
  if s.region pa ≠ .general then none else
  ((List.range 4).flatMap (fun sl => (List.range 12).map (fun k => (sl, k)))).find? (fun e =>
    let b := s.rd64 (R.shedLock e.1 e.2) % 2 ^ 40
    s.get (F.shedLockWays e.1 e.2) ≠ 0 && b ≤ pa && pa < b + 4096 * s.get (F.shedLockPages e.1 e.2))

/-- The slice of an unlocked line (R264). -/
def lineSlice (pa : Nat) : Nat :=
  Nat.xor (Nat.xor (Nat.xor (slice pa 7 2) (slice pa 14 2)) (Nat.xor (slice pa 21 2) (slice pa 28 2))) (slice pa 35 2)

/-- The set of an unlocked line (R264). -/
def lineSet (pa : Nat) : Nat := Nat.xor (slice pa 9 11) (slice pa 20 11)

/-- The slice that owns a line. -/
def State.sliceOf (s : State) (pa : Nat) : Nat :=
  match s.lockOf pa with
  | some (sl, _) => sl
  | none => lineSlice pa

/-- The keys of a selector, both channels alike (R190). -/
def State.keyOf (s : State) (k : Nat) : Option (List Byte × List Byte) :=
  (s.mem.keys.find? (fun e => e.1 = k)).map (fun e => e.2)

/-- A selector may be used: 0 is plaintext, any other names a loaded slot (R192). -/
def State.keyReady (s : State) (k : Nat) : Bool := k == 0 || (s.keyOf k).isSome

/-- The 64-byte unit of DRAM at a PA, decrypted under a selector (R257). -/
def State.dramUnit (s : State) (pa k : Nat) : List Byte :=
  let d := Memory.read ramFill s.mem.dram pa 64
  match s.keyOf k with
  | some (dk, tk) => if k = 0 then d else xtsUnit false dk tk pa d
  | none => d

/-- Store a 64-byte unit encrypted under a selector (R257); a rewrite in full ends its poison (R255). -/
def putDramUnit (pa k : Nat) (poisoned : Bool) (d : List Byte) (s : State) : State :=
  let e := match s.keyOf k with
    | some (dk, tk) => if k = 0 then d else xtsUnit true dk tk pa d
    | none => d
  let ps := s.mem.poison.filter (fun p => p ≠ pa)
  { s with mem := { s.mem with
      dram := Memory.write ramFill s.mem.dram pa e,
      poison := if poisoned then pa :: ps else ps } }

/-- A condition of Table 22.2 voids the guarantee of a class-0 entry. -/
def urgentReason (uid code : Nat) (s : State) : State :=
  { s with bed := { s.bed with urgent := s.bed.urgent.map (fun u =>
      if u.uid = uid ∧ !bit u.reasons code then { u with reasons := u.reasons + 2 ^ code } else u) } }

/-- A REASON of Table 22.2 for the class-0 entries that a test picks, dispatched or behind a doorbell. -/
def reasonFor (code : Nat) (sq : Nat → Bool) (plot : Nat → Bool) (s : State) : State :=
  let s1 := { s with host := { s.host with doors := s.host.doors.map (fun (d : Door) =>
    if sq d.sq ∧ !bit d.reasons code then { d with reasons := d.reasons + 2 ^ code } else d) } }
  s1.each s1.bed.urgent (fun u t => if (t.entry u.uid).elim false (fun e => plot e.plot) then urgentReason u.uid code t else t)

/-- The data rate of a RATE code in MT/s (Table 3.3). -/
def rateMts (code : Nat) : Nat := [8533, 7500, 6400, 5500, 4266].getD code 0

/-- The class-0 bytes that a channel serves ahead of the others in a window of 100 µs: CLASS0_CAP percent of its peak,
64 bits wide (R249, R261). -/
def State.class0Budget (s : State) (ch : Nat) : Nat :=
  rateMts (s.get (F.memcCfgRate ch)) * 8 * s.get F.memcQosCfgClass0Cap

/-- Count 64-byte units a channel serves in a class. Class-0 bytes count against the window's budget: a window that
spends it counts in CAP_HITS and is REASON 8 for the class-0 orders of that time (R261, Table 22.2). -/
def countUnits (ch cls n : Nat) (s : State) : State :=
  let s1 := s.wrap32 (R.memcBytes ch cls) n
  if cls = 0 then
    let old := s1.mem.class0.getD ch 0
    let s2 := { s1 with mem := { s1.mem with class0 := setAt ch (old + 64 * n) s1.mem.class0 } }
    if old < s.class0Budget ch ∧ s.class0Budget ch ≤ old + 64 * n then
      reasonFor 8 (fun _ => true) (fun _ => true) (s2.bump (F.memcQosCapHits ch) 1)
    else s2
  else s1

/-- A line is valid in the shed. -/
def State.line (s : State) (pa : Nat) : Option ShedLine := s.mem.lines.find? (fun l => l.pa = pa)

/-- SHED_STATUS_s.DIRTY_LINES of every slice, from the lines held. -/
def refreshDirty (s : State) : State :=
  s.each (List.range 4) (fun sl t =>
    t.put (F.shedStatusDirtyLines sl) (t.mem.lines.filter (fun l => l.slice = sl && l.dirty)).length)

/-- Replace or add a line. -/
def putLine (l : ShedLine) (s : State) : State :=
  refreshDirty { s with mem := { s.mem with lines := l :: s.mem.lines.filter (fun x => x.pa ≠ l.pa) } }

/-- Drop a line. -/
def dropLine (pa : Nat) (s : State) : State :=
  refreshDirty { s with mem := { s.mem with lines := s.mem.lines.filter (fun x => x.pa ≠ pa) } }

/-- Write a dirty line back under its tag, in class 1 (R259, R262); held while its channel's island is not OPEN
(R271) or its selector is empty (R192). -/
def writeBack (l : ShedLine) (s : State) : State :=
  let ch := s.channel l.pa
  if l.dirty && s.isOpen (69 + ch) && s.keyReady l.key then
    let s1 := putDramUnit l.pa l.key l.poison0 (l.data.take 64) s
    let s2 := putDramUnit (l.pa + 64) l.key l.poison1 (l.data.drop 64) s1
    putLine { l with dirty := false } (countUnits ch 1 2 s2)
  else s

/-- Write back, then invalidate where the write-back was performed or not needed. -/
def evict (l : ShedLine) (s : State) : State :=
  let s1 := writeBack l s
  match s1.line l.pa with
  | some l1 => if l1.dirty then s1 else dropLine l.pa s1
  | none => s1

/-- Ways of a slice that are reserved: spill ways and lock entries, from way 15 down (R267). -/
def State.reservedWays (s : State) (sl : Nat) : Nat :=
  s.get (F.shedStatusSpillWays sl) + s.get (F.shedStatusLockedWays sl)

/-- A way for an unlocked line: a free way, else a prefetched line not yet used, else one that a free value picks
among the unreserved ways (pseudo-LRU is not described further: log entry 8). The victim is written back; a line
whose write-back is held (R271, R192) is no victim, and with no other the miss allocates nothing. -/
def allocWay (sl set : Nat) (s : State) : Option Nat × State :=
  let ways := 16 - s.reservedWays sl
  let here := s.mem.lines.filter (fun l => l.slice = sl && l.set = set && l.way < ways)
  match (List.range ways).find? (fun w => here.all (fun l => l.way ≠ w)) with
  | some w => (some w, s)
  | none =>
    match here.find? (fun l => l.prefetched) with
    | some l => (some l.way, evict l s)
    | none =>
      let free := here.filter (fun l => !l.dirty || (s.isOpen (69 + s.channel l.pa) && s.keyReady l.key))
      let d := s.draw
      match free[d.1 % free.length]? with
      | some l => (some l.way, evict l d.2)
      | none => (none, d.2)

/-- Where a line goes: its locked way and set (R267), or a way of its set. -/
def placeLine (pa : Nat) (s : State) : Option (Nat × Nat × Nat) × State :=
  match s.lockOf pa with
  | some (sl, k) =>
    let n := (pa - s.rd64 (R.shedLock sl k) % 2 ^ 40) / 128
    (some (sl, s.get (F.shedLockFirstWay sl k) - n / 2048, n % 2048), s)
  | none =>
    let sl := lineSlice pa
    let a := allocWay sl (lineSet pa) s
    (a.1.map (fun w => (sl, w, lineSet pa)), a.2)

/-- Read a line from DRAM under a selector: its bytes and the poison of its halves, counted in the class. -/
def fetchLine (q : Req) (pa : Nat) (s : State) : (List Byte × Bool × Bool) × State :=
  let ch := s.channel pa
  let p := fun a => s.mem.poison.contains a
  ((s.dramUnit pa q.key ++ s.dramUnit (pa + 64) q.key, p pa, p (pa + 64)), countUnits ch q.cls 2 s)

/-- STATE and EMPTY of a lock entry, from the lines that are valid (Table 10.7). -/
def refreshLock (sl k : Nat) (s : State) : State :=
  let b := s.rd64 (R.shedLock sl k) % 2 ^ 40
  let n := s.get (F.shedLockPages sl k) * 32
  let v := (s.mem.lines.filter (fun l => b ≤ l.pa && l.pa < b + 128 * n && s.region l.pa == .general)).length
  if s.get (F.shedLockWays sl k) = 0 then s
  else s.puts [(F.shedLockState sl k, if v = n then 3 else 1), (F.shedLockEmpty sl k, ceilDiv (n - v) 16)]

/-- Insert a fetched line. -/
def insertLine (q : Req) (pa : Nat) (pre : Bool) (d : List Byte × Bool × Bool) (s : State) : State :=
  let p := placeLine pa s
  match p.1 with
  | none => p.2
  | some w =>
    let s1 := putLine ⟨w.1, w.2.1, w.2.2, pa, false, q.key, d.2.1, d.2.2, pre, d.1⟩ p.2
    match s1.lockOf pa with
    | some (sl, k) => refreshLock sl k s1
    | none => s1

/-- Prefetch of line L + 128 after a demand miss of line L (R268). -/
def prefetchNext (q : Req) (pa : Nat) (s : State) : State :=
  let nx := pa + 128
  let sl := s.sliceOf nx
  let lk := s.lockOf nx
  if nx / 4096 = pa / 4096 && (s.line nx).isNone && s.get (F.shedCtrlPrefetch sl) == 1
      && (lk.isNone || lk == s.lockOf pa) && s.isOpen (52 + sl) && s.isOpen (69 + s.channel nx)
      && s.region nx == .general then
    let s1 := s.bump (F.shedPrefetchIssued sl) 1
    let f := fetchLine q nx s1
    if f.1.2.1 || f.1.2.2 then f.2 else insertLine q nx true f.1 f.2
  else s

/-- ISLAND_RESET for a request to an island, counted for its target (R24, R31, Table 1.8). -/
def islandReset (n : Nat) (s : State) : MemErr × State :=
  (⟨0x11, n, n⟩, s.bump (F.islandCountResetSent n) 1)

/-- Look a line up: the valid line, or none on a miss that DRAM can serve. A hit under another selector is a conflict
(R259); a miss while the channel is not OPEN gets ISLAND_RESET (R271). -/
def lookupLine (q : Req) (pa : Nat) (s : State) : Except MemErr (Option ShedLine) × State :=
  let sl := s.sliceOf pa
  if s.isShut (52 + sl) then
    let r := islandReset (52 + sl) s
    (.error r.1, r.2)
  else if !s.keyReady q.key then (.error ⟨0x50, 0, 0⟩, s.bump32 R.bootKeymbEmpty 1)
  else
    let locked := (s.lockOf pa).isSome
    let s0 := match s.line pa with
      | some l => if l.key ≠ q.key ∧ !locked then evict l (s.bump32 (R.shedKeyConflict sl) 1) else s
      | none => s
    match s0.line pa with
    | some l =>
      let s1 := (s0.bump32 (R.shedHits sl) 1).when l.prefetched (fun t => t.bump (F.shedPrefetchUsed sl) 1)
      let l1 := { l with prefetched := false }
      (.ok (some l1), if l.prefetched then putLine l1 s1 else s1)
    | none =>
      let ch := s0.channel pa
      if !s0.isOpen (69 + ch) then
        let r := islandReset (69 + ch) s0
        (.error r.1, r.2)
      else (.ok none, s0.bump32 (R.shedMisses sl) 1)

/-- Give a missing line its bytes: inserted, unless the request is no-allocate (R265). -/
def giveLine (q : Req) (pa : Nat) (d : List Byte × Bool × Bool) (s : State) : ShedLine × State :=
  let bare : ShedLine := ⟨s.sliceOf pa, 0, 0, pa, false, q.key, d.2.1, d.2.2, false, d.1⟩
  if q.noAlloc then (bare, s)
  else
    let s1 := insertLine q pa false d s
    ((s1.line pa).getD bare, s1)

/-- Fill a missing line from DRAM. -/
def fillLine (q : Req) (pa : Nat) (s : State) : ShedLine × State :=
  let f := fetchLine q pa s
  giveLine q pa f.1 f.2

/-- Bring a line into a state where an access can be made. A miss reads DRAM, but the write of a whole line allocates
without reading it (R265), and a demand miss prefetches the next line (R268). -/
def lineFor (q : Req) (whole : Bool) (pa : Nat) (s : State) : Except MemErr ShedLine × State :=
  let r := lookupLine q pa s
  match r.1 with
  | .error e => (.error e, r.2)
  | .ok (some l) => (.ok l, r.2)
  | .ok none =>
    let g := if whole && !q.noAlloc then giveLine q pa (List.replicate 128 0, false, false) r.2 else fillLine q pa r.2
    (.ok g.1, if q.noAlloc then g.2 else prefetchNext q pa g.2)

/-- A refused access to a reserved region or to no memory (R253): counted in the channel, INTERNAL 0x82. -/
def denied (pa : Nat) (s : State) : MemErr × State :=
  (⟨0xF0, 0x82, 0⟩, s.bump32 (R.memcDenied (s.channel pa)) 1)

/-- Read `n` bytes of a line from an offset on; a poisoned half fails (R255). -/
def readFrom (l : ShedLine) (o n : Nat) (s : State) : Except MemErr (List Byte) × State :=
  if (l.poison0 && o < 64) || (l.poison1 && 64 < o + n) then
    (.error ⟨0xF0, 0x80, 0⟩, s.wr64 (R.memcEccAddr (s.channel l.pa)) (if l.poison0 && o < 64 then l.pa else l.pa + 64))
  else (.ok ((l.data.drop o).take n), s)

/-- The bytes of a line with some replaced from an offset on. -/
def patchBytes (d : List Byte) (o : Nat) (bs : List Byte) : List Byte :=
  d.take o ++ bs ++ d.drop (o + bs.length)

/-- A line after a write: a half written whole loses its poison (R255); the tag becomes the writer's (R259). -/
def writtenLine (l : ShedLine) (key o : Nat) (bs : List Byte) : ShedLine :=
  let e := o + bs.length
  { l with
    data := patchBytes l.data o bs, dirty := true, key := key, prefetched := false,
    poison0 := l.poison0 && !(o == 0 && 64 ≤ e), poison1 := l.poison1 && !(o ≤ 64 && e == 128) }

/-- Write bytes into a line. A line that is not held (a no-allocate miss) goes to DRAM; under WRITE_THROUGH a held
line is written back at once (R99). -/
def writeInto (q : Req) (l : ShedLine) (o : Nat) (bs : List Byte) (s : State) : State :=
  let l1 := writtenLine l (if (s.lockOf l.pa).isSome then l.key else q.key) o bs
  let s1 := { s with mem := { s.mem with touched := l.pa :: s.mem.touched.filter (fun a => a ≠ l.pa) } }
  if (s1.line l.pa).isSome then
    let s2 := putLine l1 s1
    if s2.get (F.shedStatusWriteThrough l1.slice) = 1 then writeBack l1 s2 else s2
  else
    let s2 := putDramUnit l.pa q.key l1.poison0 (l1.data.take 64) s1
    let s3 := putDramUnit (l.pa + 64) q.key l1.poison1 (l1.data.drop 64) s2
    countUnits (s3.channel l.pa) q.cls 2 s3

/-- Accesses to reserved regions carry selector 0 (R258). -/
def State.reqAt (s : State) (q : Req) (pa : Nat) : Req := if s.region pa = .general then q else { q with key := 0 }

/-! Accesses that miss wait for their line (R265) -/

/-- Give a requester of a SHED_ACCESS its answer. -/
def answerMem (island : Nat) (r : Except MemErr (List Byte)) (s : State) : State :=
  { s with mem := { s.mem with reply := some (match r with
      | .ok bs => ⟨island, 0, 0, bs⟩
      | .error e => ⟨island, e.status, e.detail, []⟩) } }

/-- The request of a fill. -/
def Fill.req (f : Fill) : Req := ⟨f.island, f.cls, f.key, f.noAlloc⟩

/-- The line of a waiting access has its data: it is in the shed, or it is filled now; the access is performed. -/
def performFill (f : Fill) (s : State) : State :=
  let q := f.req
  let ch := s.channel f.pa
  if (s.line f.pa).isNone ∧ !s.isOpen (69 + ch) then
    let r := islandReset (69 + ch) s
    answerMem f.island (.error r.1) r.2
  else
    let g := match s.line f.pa with
      | some l => (l, s)
      | none => fillLine q f.pa s
    match f.write with
    | some bs => answerMem f.island (.ok []) (writeInto q g.1 f.off bs g.2)
    | none =>
      let r := readFrom g.1 f.off f.len g.2
      answerMem f.island r.1 r.2

/-- Perform the accesses that wait for a line, in the order they came (R265). -/
def performFills (base : Nat) (s : State) : State :=
  let s1 := { s with mem := { s.mem with fills := s.mem.fills.filter (fun f => f.pa ≠ base) } }
  s1.each (s.mem.fills.filter (fun f => f.pa = base)) performFill

/-- Accesses that wait at an island that closes get ISLAND_RESET (R24). -/
def abortFills (n : Nat) (p : Fill → Bool) (s : State) : State :=
  let s1 := { s with mem := { s.mem with fills := s.mem.fills.filter (fun f => !p f) } }
  s1.each (s.mem.fills.filter p) (fun f t =>
    let r := islandReset n t
    answerMem f.island (.error r.1) r.2)

/-- Read `n` bytes that lie in one line. -/
def readInLine (q0 : Req) (pa n : Nat) (s0 : State) : Except MemErr (List Byte) × State :=
  if !regionAdmits (s0.region pa) q0.island false then
    let r := denied pa s0
    (.error r.1, r.2)
  else
    let base := pa / 128 * 128
    let s := performFills base s0
    let r := lineFor (s.reqAt q0 pa) false base s
    match r.1 with
    | .error e => (.error e, r.2)
    | .ok l => readFrom l (pa % 128) n r.2

/-- Write bytes that lie in one line. -/
def writeInLine (q0 : Req) (pa : Nat) (bs : List Byte) (s0 : State) : Option MemErr × State :=
  if !regionAdmits (s0.region pa) q0.island true then
    let r := denied pa s0
    (some r.1, r.2)
  else
    let base := pa / 128 * 128
    let s := performFills base s0
    let q := s.reqAt q0 pa
    let r := lineFor q (bs.length = 128) base s
    match r.1 with
    | .error e => (some e, r.2)
    | .ok l => (none, writeInto q l (pa % 128) bs r.2)

/-- An access to bed memory: every part it touches must admit it (R266). -/
def bedAccess (q : Req) (n off len : Nat) (write : Bool) (s : State) : Option MemErr × State :=
  if s.isShut (n + 4) then
    let r := islandReset (n + 4) s
    (some r.1, r.2)
  else if ((List.range (len / 0x8000 + 2)).map (fun i => min (off + i * 0x8000) (off + len - 1))).all
      (fun o => s.bedAdmits n (s.bedPart n o) q.island write) then (none, s)
  else (some ⟨0xF0, 0x81, 0⟩, s)

/-- Read `n` bytes line by line; `fuel` bounds the number of lines. -/
def readLines (q : Req) : Nat → Nat → Nat → State → Except MemErr (List Byte) × State
  | 0, _, _, s => (.ok [], s)
  | fuel + 1, pa, n, s =>
    if n = 0 then (.ok [], s) else
    let m := min n (128 - pa % 128)
    let r := readInLine q pa m s
    match r.1 with
    | .error e => (.error e, r.2)
    | .ok bs =>
      let t := readLines q fuel (pa + m) (n - m) r.2
      match t.1 with
      | .error e => (.error e, t.2)
      | .ok cs => (.ok (bs ++ cs), t.2)

/-- Write bytes line by line; `fuel` bounds the number of lines. -/
def writeLines (q : Req) : Nat → Nat → List Byte → State → Option MemErr × State
  | 0, _, _, s => (none, s)
  | fuel + 1, pa, bs, s =>
    if bs.isEmpty then (none, s) else
    let m := min bs.length (128 - pa % 128)
    let r := writeInLine q pa (bs.take m) s
    match r.1 with
    | some e => (some e, r.2)
    | none => writeLines q fuel (pa + m) (bs.drop m) r.2

/-- Read `n` bytes of physical memory. -/
def physRead (q : Req) (pa n : Nat) (s : State) : Except MemErr (List Byte) × State :=
  match s.region pa with
  | .bed b =>
    let r := bedAccess q b (pa - bedBase b) n false s
    match r.1 with
    | some e => (.error e, r.2)
    | none => (.ok (Memory.read ramFill s.mem.bedMem pa n), r.2)
  | _ => readLines q (n / 128 + 2) pa n s

/-- Write bytes of physical memory. -/
def physWrite (q : Req) (pa : Nat) (bs : List Byte) (s : State) : Option MemErr × State :=
  match s.region pa with
  | .bed b =>
    let r := bedAccess q b (pa - bedBase b) bs.length true s
    match r.1 with
    | some e => (some e, r.2)
    | none => (none, { r.2 with mem := { r.2.mem with bedMem := Memory.write ramFill r.2.mem.bedMem pa bs } })
  | _ => writeLines q (bs.length / 128 + 2) pa bs s

/-- A PA range that BAR4 may reach: usable DRAM below the packet ring and the reserve (R203). -/
def State.bar4Admits (s : State) (pa n : Nat) : Bool := pa + n ≤ s.pktBase

/-- Read of the BAR4 window for a command of the device (BAR4 offset, R203), or of the management staging buffer for
the port (R241); none where an access is denied or fails. -/
def readSource (w : Writer) (off n : Nat) (s : State) : Option (List Byte) × State :=
  match w with
  | .host _ =>
    let pa := s.rd64 R.hostqBar4Base / s.host.bar4Size * s.host.bar4Size + off
    if !s.bar4Admits pa n then (none, s)
    else
      let r := physRead ⟨60, s.plan.active.qos.islands.getD 60 1, s.get F.hostqBar4CtrlKeySel, false⟩ pa n s
      match r.1 with
      | .ok bs => (some bs, r.2)
      | .error _ => (none, r.2)
  | .port =>
    if 2 ^ 20 < off + n then (none, s)
    else
      let r := physRead ⟨0, s.plan.active.qos.islands.getD 0 1, 0, false⟩ (s.stageBase + off) n s
      match r.1 with
      | .ok bs => (some bs, r.2)
      | .error _ => (none, r.2)

/-- Write to the BAR4 window or the staging buffer for a command of the device. -/
def writeDest (w : Writer) (off : Nat) (bs : List Byte) (s : State) : State :=
  match w with
  | .host _ =>
    let pa := s.rd64 R.hostqBar4Base / s.host.bar4Size * s.host.bar4Size + off
    if s.bar4Admits pa bs.length then
      (physWrite ⟨60, s.plan.active.qos.islands.getD 60 1, s.get F.hostqBar4CtrlKeySel, false⟩ pa bs s).2 else s
  | .port => if 2 ^ 20 < off + bs.length then s else (physWrite ⟨0, s.plan.active.qos.islands.getD 0 1, 0, false⟩ (s.stageBase + off) bs s).2

end Sys2Proof.Machine
end

