-- ==== Sys2Proof/Machine/Listen.lean ====
section
/-! DEFINITION. The acoustic front end: modes, levels, detectors, the pre-roll buffer (spec/21 R505–R519). Levels are
integers in 1/256 dB, noise floors in 1/65,536 dB (log entry 40). -/
namespace Sys2Proof.Machine

/-! Modes (Table 21.1) -/

/-- OFF, FULL, LISTEN, SETTLING. -/
def MIC_OFF : Nat := 0
def MIC_FULL : Nat := 1
def MIC_LISTEN : Nat := 2
def MIC_SETTLING : Nat := 3

/-- MODE. -/
def State.micMode (s : State) : Nat := s.get F.acouStatusMode

/-- Change the acoustic unit. -/
def onAcou (f : AcouUnit → AcouUnit) (s : State) : State := { s with acou := f s.acou }

/-- A start from Fallow or Dormant is under way. -/
def State.warmStarting (s : State) : Bool :=
  s.boot.starting && (s.get F.bootKindStartKind == 3 || s.get F.bootKindStartKind == 4)

/-- The mode that the power state asks for. -/
def State.micTarget (s : State) : Nat :=
  let p := s.get F.pwrStatusState
  if s.warmStarting || p == 2 || p == 3 then MIC_LISTEN else MIC_FULL

/-- PDM_CLK changes between full and listen mode: SETTLING begins; open windows and tonal runs are dropped (R508). -/
def settleMics (s : State) : State :=
  if s.micMode = MIC_OFF then s
  else onAcou (fun a => { a with mics := a.mics.map (fun m => { m with window := none, tonal := [] }) })
    (s.put F.acouStatusMode MIC_SETTLING)

/-- The pre-roll buffer is LOCKED and empty. -/
def emptyRoll (s : State) : State :=
  onAcou (fun a => { a with roll := [], frozen := none, releasing := false }) (s.put F.acouStatusFrozen 0)

/-- The active plan's ACOUSTIC record is put in force (R505, R519): MODE, and the buffer where its shape changes. -/
def configureAcoustic (s : State) : State :=
  if s.isShut 3 then s
  else
    let new := s.plan.active.acoustic
    let same := match s.acou.cfg, new with
      | some a, some b => a.micMask == b.micMask && a.listenMic == b.listenMic && a.prerollMs == b.prerollMs
      | none, none => true
      | _, _ => false
    let s1 := onAcou (fun a => { a with cfg := new }) (if same then s else emptyRoll s)
    let off := new.elim true (fun c => c.micMask == 0)
    if off then onAcou (fun a => { a with mics := List.replicate 8 .reset }) (s1.put F.acouStatusMode MIC_OFF)
    else if s1.micMode = MIC_OFF then s1.put F.acouStatusMode s1.micTarget
    else s1

/-- Every noise floor is seeded again: MIC_GAIN has changed (R509). -/
def reseedFloors (s : State) : State :=
  onAcou (fun a => { a with mics := a.mics.map (fun m => { m with floor := none }) }) s

/-! Levels -/

/-- The greatest number below 2 ^ bits that a falling test admits; 0 where none does. -/
def greatest (p : Nat → Bool) : Nat → Nat
  | 0 => 0
  | k + 1 =>
    let high := 2 ^ k
    if p high then high + greatest (fun n => p (high + n)) k else greatest p k

/-- A rational number rounded to the nearest integer, halves up. -/
def roundRat (a b : Int) : Int := (2 * a + b).fdiv (2 * b)

/-- A magnitude times 10 ^ (g / 5,120), rounded to nearest (R506). -/
def gained (x : Nat) (g : Int) : Nat :=
  if g = 0 then x
  else greatest (fun n => (2 * n - 1) ^ 5120 * 10 ^ (-g).toNat ≤ (2 * x) ^ 5120 * 10 ^ g.toNat) 20

/-- A sample after MIC_GAIN, saturated to INT16. -/
def gainSample (g x : Int) : Int := clampInt 16 (if x < 0 then -((gained x.natAbs g : Nat) : Int) else (gained x.natAbs g : Nat))

/-- A sample saturates. -/
def saturates (g x : Int) : Bool :=
  let n := gained x.natAbs g
  if x < 0 then 32768 < n else 32767 < n

/-- The sum of squares. -/
def sumSquares (xs : List Int) : Nat := xs.foldl (fun n x => n + x.natAbs ^ 2) 0

/-- E of a frame that is not silent, in 1/256 dBFS, rounded to nearest (R506). -/
def frameLevel (xs : List Int) : Int :=
  let num := 2 * sumSquares xs
  let den := 256 * 32767 ^ 2
  ((greatest (fun k => 10 ^ (2 * k - 1) * den ^ 5120 ≤ num ^ 5120 * 10 ^ 65536) 17 : Nat) : Int) - 32768

/-! The frame spectrum: 128 bins of 62.5 Hz -/

/-- Cosine and sine of 2π / 256, scaled by 2 ^ 62. -/
def rotC : Int := 4610297064819661174
def rotS : Int := 113176440454146016

/-- Cosines and sines of the multiples of 2π / 256. -/
def rotations : Nat → Int → Int → List (Int × Int)
  | 0, _, _ => []
  | k + 1, c, t => (c, t) :: rotations k ((c * rotC - t * rotS) / 2 ^ 62) ((t * rotC + c * rotS) / 2 ^ 62)

/-- The circle in 256 steps. -/
def circle : List (Int × Int) := rotations 256 (2 ^ 62) 0

/-- The energy of bin k of a frame, scaled by 2 ^ 124. -/
def binEnergy (tab : List (Int × Int)) (xs : List Int) (k : Nat) : Nat :=
  let sum := xs.zipIdx.foldl (fun (a : Int × Int) x =>
    let r := tab.getD (k * x.2 % 256) (0, 0)
    (a.1 + x.1 * r.1, a.2 + x.1 * r.2)) ((0, 0) : Int × Int)
  let e := sum.1.natAbs ^ 2 + sum.2.natAbs ^ 2
  if k = 0 ∨ k = 128 then e else 2 * e

/-- The energy of a range of bins. -/
def bandEnergy (xs : List Int) (lo hi : Nat) : Nat :=
  let tab := circle
  ((List.range 129).filter (fun k => lo ≤ k && k ≤ hi)).foldl (fun n k => n + binEnergy tab xs k) 0

/-- The whole energy of a frame in the same scale. -/
def wholeEnergy (xs : List Int) : Nat := 256 * sumSquares xs * 2 ^ 124

/-- The frame's largest bin in the alarm band with its neighbours holds half of the frame's energy (R511). -/
def isTonal (c : AcousticCfg) (xs : List Int) : Bool :=
  let tab := circle
  let es := (List.range 129).map (binEnergy tab xs)
  let band := (List.range 129).filter (fun k => 2 * c.alarmLoHz ≤ 125 * k && 125 * k ≤ 2 * c.alarmHiHz)
  match band.find? (fun k => band.all (fun j => es.getD j 0 ≤ es.getD k 0)) with
  | none => false
  | some k =>
    let three := (if k = 0 then 0 else es.getD (k - 1) 0) + es.getD k 0 + es.getD (k + 1) 0
    wholeEnergy xs ≤ 2 * three

/-! Detectors (R510–R512) -/

/-- A term of the glass-break score. -/
def clampTerm (x : Int) : Nat := (max 0 (min 85 x)).toNat

/-- SCORE of a window that ends with a frame of level e. -/
def glassScore (w : GlassWindow) (e : Int) : Nat :=
  let rise := w.peak - w.before
  clampTerm (roundRat ((rise - 2560) * 85) (20 * 256)) +
    clampTerm (roundRat ((10 * (w.high : Int) - 3 * (w.whole : Int)) * 170) (10 * (w.whole : Int))) +
    clampTerm (roundRat ((w.peak - e - 1536) * 85) (24 * 256))

/-- 1,000 ms have passed since a firing, in frames of 16 ms. -/
def mayFire (at_ : Option Nat) (now : Nat) : Bool := at_.elim true (fun t => 1000 ≤ 16 * (now - t))

/-- What a frame does to a microphone: its new state, and the detectors that fire (bit 0 glass break, bit 1 alarm tone)
with the score. `e` is the frame's level. -/
def hearFrame (c : AcousticCfg) (now : Nat) (e : Int) (xs : List Int) (m : MicState) : MicState × Nat × Nat :=
  let floor := m.floor.getD (max (-6291456) (min 0 (256 * e)))
  let gated := m.floor.isSome && decide (floor + 65536 * (c.marginDb : Int) < 256 * e)
  let moved := floor + roundRat ((256 * e - floor) * 16) (1000 * (c.noiseTauS : Int))
  let next := if gated ∨ m.floor.isNone then floor else max (-6291456) (min 0 moved)
  let win : Option GlassWindow := match m.window with
    | some w => some { w with
        frames := w.frames + 1, peak := if w.frames = 1 then max w.first e else w.peak,
        high := w.high + bandEnergy xs 64 128, whole := w.whole + wholeEnergy xs }
    | none =>
      match m.last with
      | some l => if c.glass && gated && 2560 ≤ e - l then some ⟨1, l, e, e, bandEnergy xs 64 128, wholeEnergy xs⟩ else none
      | none => none
  let ended := win.filter (fun w => w.frames = 16)
  let score := ended.elim 0 (fun w => glassScore w e)
  let glass := c.glass && ended.isSome && decide (c.glassScore ≤ score) && mayFire m.glassAt now
  let span := ceilDiv (2 * c.alarmMinMs) 16
  let run := ((c.alarm && gated && isTonal c xs) :: m.tonal).take span
  let alarm := c.alarm && ceilDiv c.alarmMinMs 16 ≤ (run.filter (fun b => b)).length && mayFire m.alarmAt now
  let m1 : MicState := {
    floor := some next, last := some e, window := if ended.isSome then none else win, tonal := run,
    glassAt := if glass then some now else m.glassAt, alarmAt := if alarm then some now else m.alarmAt }
  (m1, b2n glass + 2 * b2n alarm, if glass then score else 0)

/-! The pre-roll buffer (R514) -/

/-- The frozen copy at an event: the last samples of PREROLL_MS, those not recorded reading as 0. -/
def State.freezeRoll (s : State) (c : AcousticCfg) (detectors score : Nat) (floor : Int) : FrozenRoll :=
  let n := 16 * c.prerollMs
  let frames := (s.acou.roll.take (ceilDiv n 256)).reverse
  let xs := frames.flatMap (fun f => f.samples)
  let kept := xs.drop (xs.length - n)
  { samples := List.replicate (n - kept.length) 0 ++ kept, firstValid := n - kept.length, detectors := detectors,
    score := score, fromState := s.get F.pwrStatusState, settle := frames.any (fun f => f.settle),
    sat := frames.any (fun f => f.sat), floor := floor, timeUs := s.timeUs }

/-- Record a frame of LISTEN_MIC while the buffer is not FROZEN: at most 125 frames, 32,000 samples. -/
def recordFrame (f : RollFrame) (s : State) : State :=
  if s.acou.frozen.isSome then s else onAcou (fun a => { a with roll := (f :: a.roll).take 125 }) s

/-- The header and samples of a READ (R517). -/
def rollBytes (c : AcousticCfg) (f : FrozenRoll) : List Byte :=
  leBytes 4 0x4C525250 ++ leBytes 2 (16 * c.prerollMs) ++ leBytes 2 f.firstValid ++ leBytes 1 c.listenMic ++
    leBytes 1 f.detectors ++ leBytes 1 f.score ++ leBytes 1 f.fromState ++ leBytes 2 (b2n f.settle + 2 * b2n f.sat) ++
    leBytes 2 (ofInt 16 f.floor) ++ leBytes 4 (f.timeUs / 1000000) ++ leBytes 4 (f.timeUs % 1000000) ++
    List.replicate 40 0 ++ f.samples.flatMap (fun x => leBytes 2 (ofInt 16 x))

end Sys2Proof.Machine
end

