-- ==== Sys2Proof/Machine/PlanImage.lean ====
section
/-! DEFINITION. Plan images: header, records, signature and the checks of Table 2.5 as functions of the image's bytes
and of the configuration it is checked against (spec/02, spec/03). -/
namespace Sys2Proof.Machine

/-- A failed check: STATUS, DETAIL, and PLAN_ERROR's RECORD and WORD; where the spec names no word, WORD is free. -/
structure PlanErr where
  status : Nat
  detail : Nat
  record : Nat
  word   : Option Nat
  deriving DecidableEq, Repr

/-- A failure of a header or signature check: RECORD reads 0xFFFF (Table 2.12). -/
def headerErr (status detail : Nat) : PlanErr := ⟨status, detail, 0xFFFF, none⟩

/-- A record of an image: its index, its TYPE and its body words (R47). -/
structure PlanRec where
  index : Nat
  typ   : Nat
  body  : List Nat
  deriving DecidableEq, Repr

/-- A value of `n` bytes of an image. -/
def imgAt (img : List Byte) (off n : Nat) : Nat := bytesAt img off n

/-- Word i of a record body. -/
def PlanRec.w (r : PlanRec) (i : Nat) : Nat := r.body.getD i 0

/-- The 32-bit words of a byte list. -/
def wordsOf (bs : List Byte) : List Nat := (chunks 4 bs.length bs).map leNat

/-- The first failing condition of a list of (word, condition). -/
def firstBad (l : List (Nat × Bool)) : Option Nat := (l.find? (fun e => !e.2)).map (fun e => e.1)

/-! Framing: checks 13 and 14 -/

/-- Walk the records from an offset (R47); `fuel` bounds their number. A record that leaves the record area is
BAD_FRAMING. -/
def walkRecords (img : List Byte) (stop : Nat) : Nat → Nat → Nat → Except PlanErr (List PlanRec)
  | 0, _, _ => .ok []
  | fuel + 1, off, i =>
    if off = stop then .ok []
    else
      let h := imgAt img off 4
      let len := h / 2 ^ 16
      let next := off + 4 + 4 * len
      if stop < off + 4 ∨ stop < next then .error ⟨0x40, 0x40, i, none⟩
      else match walkRecords img stop fuel next (i + 1) with
        | .error e => .error e
        | .ok rs => .ok (⟨i, h % 2 ^ 16, wordsOf ((img.drop (off + 4)).take (4 * len))⟩ :: rs)

/-- A record type is known: those of Table 2.4, and any with bit 15 set (R48). -/
def knownType (t : Nat) : Bool := (1 ≤ t && t ≤ 14) || 2 ^ 15 ≤ t

/-- Check 13: END last and only once, types ascending, all known, count right. -/
def checkFraming (img : List Byte) (rs : List PlanRec) : Option PlanErr :=
  let n := rs.length
  match rs.find? (fun r => (r.typ = 14 && r.index + 1 ≠ n) || (r.index + 1 = n && (r.typ ≠ 14 || r.body ≠ []))) with
  | some r => some ⟨0x40, 0x40, r.index, none⟩
  | none =>
    if n = 0 then some ⟨0x40, 0x40, 0, none⟩ else
    match (List.zip rs rs.tail).find? (fun p => p.2.typ ≠ 14 && p.2.typ % 2 ^ 15 < p.1.typ % 2 ^ 15) with
    | some p => some ⟨0x40, 0x41, p.2.index, none⟩
    | none =>
      match rs.find? (fun r => !knownType r.typ) with
      | some r => some ⟨0x40, 0x42, r.index, none⟩
      | none => if imgAt img 0x28 2 = n then none else some ⟨0x40, 0x43, 0xFFFF, none⟩

/-- Types that a graft may not carry (Table 2.4). -/
def notInGraft (t : Nat) : Bool := t = 1 || t = 2 || t = 9 || t = 10 || t = 11 || t = 12 || t = 13

/-- Types of which there is at most one; INTAKE gives the one intake table (R87; log entry 13). -/
def atMostOne (t : Nat) : Bool := !(t = 3 || t = 5 || t = 6 || 2 ^ 15 ≤ t)

/-- Check 14: types and multiplicity of Table 2.4. -/
def checkTypes (graft : Bool) (rs : List PlanRec) : Option PlanErr :=
  match rs.find? (fun r => graft && notInGraft r.typ) with
  | some r => some ⟨0x40, 0x44, r.index, none⟩
  | none =>
    match rs.find? (fun r => atMostOne r.typ && rs.any (fun q => q.typ = r.typ && q.index < r.index)) with
    | some r => some ⟨0x40, 0x46, r.index, none⟩
    | none =>
      if !graft && [2, 3, 4, 9].any (fun t => rs.all (fun r => r.typ ≠ t)) then
        some ⟨0x40, 0x46, rs.length - 1, none⟩
      else none

/-! Fields: check 15 -/

/-- The clock range of a variable-clock island (Table 1.1). -/
def clockRange (n : Nat) : Option (Nat × Nat) :=
  if n = 0 then some (50, 200)
  else if n < 4 then none
  else if n < 56 then some (200, 1100)
  else if n < 58 then some (100, 800)
  else if n = 58 then some (100, 400)
  else if n < 62 then none
  else if n = 62 then some (200, 800)
  else if n < 65 then some (200, 900)
  else if n = 65 then some (200, 1100)
  else if n = 66 then some (200, 800)
  else if n < 69 then some (200, 1000)
  else if n = 71 then some (200, 600)
  else none

/-- An ISLAND word is well formed (Table 3.2). -/
def islandWordOk (n w : Nat) : Bool :=
  let freq := slice w 0 11
  let thr := slice w 16 11
  if !bit w 31 then w = 0 && 4 ≤ n
  else
    !bit w 15 && slice w 27 4 = 0 &&
      (if n = 69 || n = 70 then slice w 11 4 ≤ 4 else slice w 11 4 = 0) &&
      (match clockRange n with
        | none => freq = 0 && thr = 0
        | some (lo, hi) => lo ≤ freq && (thr = 0 || (lo ≤ thr && thr ≤ min freq hi)))

/-- An ISLAND word in force, with its clock clamped to the fence (R75). -/
def islandOf (n w : Nat) : IslandCfg :=
  let hi := match clockRange n with
    | some r => r.2
    | none => 0
  ⟨bit w 31, min (slice w 0 11) hi, slice w 11 4, slice w 16 11⟩

/-- A word's clock lies beyond the fence. -/
def islandClamped (n w : Nat) : Bool :=
  match clockRange n with
  | some r => r.2 < slice w 0 11
  | none => false

/-- A value that is its default when 0 (R74). -/
def orDefault (v d : Nat) : Nat := if v = 0 then d else v

/-- 0 (where it stands for a default) or a value in a range. -/
def zeroOr (v lo hi : Nat) : Bool := v = 0 || (lo ≤ v && v ≤ hi)

/-- A PLOT record's configuration (Table 3.4). -/
def plotOf (r : PlanRec) : PlotCfg :=
  ⟨slice (r.w 0) 0 4, slice (r.w 0) 4 4, slice (r.w 0) 8 3, r.w 1 + 2 ^ 32 * slice (r.w 2) 0 16, slice (r.w 3) 0 2,
    orDefault (slice (r.w 3) 8 6) 48⟩

/-- A MEMSPLIT word (R82). -/
def splitOf (w : Nat) : Nat × Nat × Nat := (slice w 0 5, slice w 8 5, slice w 16 5)

/-- The entries of `k` words of a record. -/
def PlanRec.entries (r : PlanRec) (k : Nat) : List (List Nat) := chunks k r.body.length r.body

/-- A ROUTE entry (Table 3.5). -/
def routeOf (e : List Nat) : RouteCfg :=
  let w := e.getD 0 0
  ⟨slice w 0 7, slice w 8 7, slice w 16 1, bit w 17, slice (e.getD 1 0) 0 16⟩

/-- A SHEDLOCK entry (Table 3.6). -/
def lockEntry (e : List Nat) : LockCfg :=
  let w := e.getD 0 0
  ⟨slice w 0 2, slice w 4 4, slice w 8 4, bit w 12, e.getD 1 0 + 2 ^ 32 * slice (e.getD 2 0) 0 8,
    slice (e.getD 3 0) 0 16⟩

/-- An INTAKE slot entry (Table 3.8). -/
def slotEntry (w0 w1 : Nat) : SlotCfg :=
  ⟨bit w0 0, slice w0 1 1, slice w0 2 2, bit w0 4, slice w0 5 3, slice w0 8 4, slice w0 12 8,
    orDefault (slice w1 0 8) 8, bit w1 8⟩

/-- The INTAKE record (Table 3.7). -/
def intakeOf (r : PlanRec) : IntakeCfg :=
  ⟨orDefault (slice (r.w 0) 0 6) 32, orDefault (slice (r.w 0) 16 16) 5000, slice (r.w 1) 0 9, slice (r.w 2) 0 2,
    slice (r.w 2) 8 8, (List.range 64).map (fun s => slotEntry (r.w (4 + 2 * s)) (r.w (5 + 2 * s)))⟩

/-- A 2-bit class code: 3 is the default, class 1 (R88). -/
def classCode (c : Nat) : Nat := if c = 3 then 1 else c

/-- The QOS record (R88). -/
def qosOf (r : PlanRec) : QosCfg :=
  ⟨(List.range 72).map (fun n => classCode (slice (r.w (n / 16)) (2 * (n % 16)) 2)),
   (List.range 32).map (fun i => classCode (slice (r.w (5 + i / 16)) (2 * (i % 16)) 2)),
   orDefault (slice (r.w 7) 0 8) 25, orDefault (slice (r.w 7) 8 8) 5⟩

/-- The LIMITS record with defaults and fences (Table 3.10). -/
def limitsOf (r : PlanRec) : LimitsCfg :=
  ⟨orDefault (slice (r.w 0) 0 8) 95, min 107 (orDefault (slice (r.w 0) 8 8) 100), orDefault (slice (r.w 0) 16 8) 3,
   orDefault (slice (r.w 0) 24 8) 16, min 15000 (orDefault (slice (r.w 1) 0 16) 15000),
   orDefault (slice (r.w 1) 16 16) 100,
   [orDefault (slice (r.w 2) 0 10) 100, orDefault (slice (r.w 2) 10 10) 100, orDefault (slice (r.w 2) 20 10) 100,
    orDefault (slice (r.w 3) 0 10) 100],
   orDefault (slice (r.w 4) 0 16) 1000, slice (r.w 5) 0 5⟩

/-- The values of LIMITS beyond a fence (R75). -/
def limitsClamps (r : PlanRec) : Nat :=
  b2n (107 < slice (r.w 0) 8 8) + b2n (15000 < slice (r.w 1) 0 16)

/-- The URGENT record (Table 3.11). -/
def urgentOf (r : PlanRec) : UrgentCfg :=
  ⟨bit (r.w 0) 4, slice (r.w 0) 0 4, slice (r.w 0) 8 4, slice (r.w 1) 0 8, r.w 2 + 2 ^ 32 * r.w 3⟩

/-- The DISPLAY record (Table 3.12). -/
def displayOf (r : PlanRec) : DisplayCfg :=
  ⟨slice (r.w 0) 0 13, slice (r.w 0) 16 13, slice (r.w 1) 0 14, slice (r.w 1) 16 14, slice (r.w 2) 0 14,
   slice (r.w 2) 16 10, slice (r.w 3) 0 14, slice (r.w 3) 16 10, slice (r.w 4) 0 20, slice (r.w 5) 0 3,
   slice (r.w 5) 4 2, slice (r.w 5) 8 1, slice (r.w 5) 9 1, slice (r.w 5) 10 1⟩

/-- The ACOUSTIC record (Table 3.13). -/
def acousticOf (r : PlanRec) : AcousticCfg :=
  let both0 := r.w 2 = 0
  ⟨slice (r.w 0) 0 8, slice (r.w 0) 8 3, bit (r.w 0) 16, bit (r.w 0) 17, orDefault (slice (r.w 1) 0 8) 12,
   orDefault (slice (r.w 1) 8 8) 10, if both0 then 2500 else slice (r.w 2) 0 16,
   if both0 then 3500 else slice (r.w 2) 16 16, orDefault (slice (r.w 3) 0 16) 500,
   orDefault (slice (r.w 3) 16 8) 160, orDefault (slice (r.w 4) 0 12) 2000⟩

/-- The EVIDENCE record (Table 3.14). -/
def evidenceOf (r : PlanRec) : EvidenceCfg :=
  ⟨slice (r.w 0) 0 2, slice (r.w 0) 4 4, orDefault (slice (r.w 1) 0 8) 2, orDefault (slice (r.w 1) 8 8) 30,
   orDefault (slice (r.w 1) 16 8) 40, orDefault (slice (r.w 2) 0 16) 800, slice (r.w 3) 0 8, slice (r.w 3) 8 8⟩

/-- Body length rule of Table 3.1: words per entry, and the number of entries allowed. -/
def lengthOk (t n : Nat) : Bool :=
  match t with
  | 1 => n = 4
  | 2 => n = 72
  | 3 => n = 4
  | 4 => n = 48
  | 5 => n % 2 = 0 && 2 ≤ n && n ≤ 256
  | 6 => n % 4 = 0 && 4 ≤ n && n ≤ 64
  | 7 => n = 132
  | 8 => n = 8
  | 9 => n = 12
  | 10 => n = 4
  | 11 => n = 8
  | 12 => n = 8
  | 13 => n = 8
  | _ => true

/-- The lane rate of a LINK_RATE code in kbit/s. -/
def laneKbps (code : Nat) : Nat :=
  match code with
  | 0 => 1620000
  | 1 => 2700000
  | 2 => 5400000
  | _ => 8100000

/-- The first failing body word of a record (R73–R95); `powered` tells which beds the configuration powers. -/
def badWord (graft : Bool) (powered : Nat → Bool) (r : PlanRec) : Option Nat :=
  let w := r.w
  match r.typ with
  | 2 => firstBad ((List.range 72).map (fun n => (n, islandWordOk n (w n))))
  | 3 => firstBad [(0, slice (w 0) 4 4 ≤ 3 && slice (w 0) 8 3 ≠ 0 && slice (w 0) 11 21 = 0),
      (1, graft || w 1 ≠ 0 || slice (w 2) 0 16 ≠ 0), (2, slice (w 2) 16 16 = 0),
      (3, slice (w 3) 0 2 ≤ 2 && slice (w 3) 2 6 = 0 && slice (w 3) 8 6 ≤ 48 && slice (w 3) 14 18 = 0)]
  | 4 => firstBad ((List.range 48).map (fun b =>
      let s := splitOf (w b)
      (b, if powered b then
          s.1 + s.2.1 + s.2.2 = 24 && 1 ≤ s.2.2 && slice (w b) 5 3 = 0 && slice (w b) 13 3 = 0 && slice (w b) 21 11 = 0
        else w b = 0)))
  | 5 => firstBad ((r.entries 2).zipIdx.flatMap (fun (e, i) =>
      let c := routeOf e
      [(2 * i, 4 ≤ c.src && c.src ≤ 71 && 4 ≤ c.dst && c.dst ≤ 71 && c.src ≠ c.dst && !bit (e.getD 0 0) 7 &&
        !bit (e.getD 0 0) 15 && slice (e.getD 0 0) 18 14 = 0),
       (2 * i + 1, c.mbps ≤ 48000 && slice (e.getD 1 0) 16 16 = 0)]))
  | 6 => firstBad ((r.entries 4).zipIdx.flatMap (fun (e, i) =>
      let c := lockEntry e
      let ends := graft && c.ways = 0 && c.pages = 0
      [(4 * i, (ends || (1 ≤ c.ways && c.ways ≤ 12)) && slice (e.getD 0 0) 2 2 = 0 && slice (e.getD 0 0) 13 19 = 0),
       (4 * i + 1, slice (e.getD 1 0) 0 12 = 0), (4 * i + 2, slice (e.getD 2 0) 8 24 = 0),
       (4 * i + 3, (ends || (1 ≤ c.pages && c.pages ≤ 64 * c.ways)) && slice (e.getD 3 0) 16 16 = 0)]))
  | 7 => firstBad ([(0, zeroOr (slice (w 0) 0 6) 4 32 && slice (w 0) 6 10 = 0 && zeroOr (slice (w 0) 16 16) 100 50000),
      (1, slice (w 1) 0 9 ≤ 256 && slice (w 1) 9 23 = 0),
      (2, slice (w 2) 0 2 ≤ 2 && slice (w 2) 2 6 = 0 && slice (w 2) 8 8 ≤ 127 && slice (w 2) 16 16 = 0),
      (3, decide (w 3 = 0))] ++
      (List.range 64).flatMap (fun s =>
        let a := w (4 + 2 * s)
        let b := w (5 + 2 * s)
        if !bit a 0 then [(4 + 2 * s, decide (a = 0)), (5 + 2 * s, decide (b = 0))]
        else [(4 + 2 * s, slice a 2 2 ≤ 2 && slice a 5 3 ≤ 4 && slice a 8 4 ≤ 5 && 1 ≤ slice a 12 8 &&
            slice a 12 8 ≤ 60 && slice a 20 12 = 0),
          (5 + 2 * s, zeroOr (slice b 0 8) 2 32 && slice b 9 23 = 0)]))
  | 8 => firstBad [(4, slice (w 4) 16 16 = 0),
      (7, zeroOr (slice (w 7) 0 8) 5 50 && zeroOr (slice (w 7) 8 8) 1 20 && slice (w 7) 16 16 = 0)]
  | 9 =>
    let l := limitsOf r
    firstBad [(0, zeroOr (slice (w 0) 0 8) 50 107 && (slice (w 0) 8 8 = 0 || 51 ≤ slice (w 0) 8 8) &&
        slice (w 0) 16 8 ≤ 15 && l.warnC + l.hystC < l.throttleC),
      (1, (slice (w 1) 0 16 = 0 || 1000 ≤ slice (w 1) 0 16) && slice (w 1) 16 16 ≤ 1000),
      (2, slice (w 2) 0 10 ≤ 1000 && slice (w 2) 10 10 ≤ 1000 && slice (w 2) 20 10 ≤ 1000 && slice (w 2) 30 2 = 0),
      (3, slice (w 3) 0 10 ≤ 1000 && slice (w 3) 10 22 = 0),
      (4, zeroOr (slice (w 4) 0 16) 10 60000 && slice (w 4) 16 16 = 0), (5, slice (w 5) 5 27 = 0),
      (6, w 6 = 0), (7, w 7 = 0), (8, w 8 = 0), (9, w 9 = 0), (10, w 10 = 0), (11, w 11 = 0)]
  | 10 =>
    let u := urgentOf r
    firstBad [(0, (u.hasReserve || (u.reservePlot = 0 && 1 ≤ u.spillWays)) && u.spillWays ≤ 4 &&
        slice (w 0) 5 3 = 0 && slice (w 0) 12 20 = 0),
      (1, 5 ≤ u.maxTileUs && u.maxTileUs ≤ 200 && slice (w 1) 8 24 = 0)]
  | 11 =>
    let d := displayOf r
    firstBad [(0, 640 ≤ d.hActive && d.hActive ≤ 3840 && 480 ≤ d.vActive && d.vActive ≤ 2160 &&
        slice (w 0) 13 3 = 0 && slice (w 0) 29 3 = 0),
      (1, d.hActive < d.hTotal && d.vActive < d.vTotal && slice (w 1) 14 2 = 0 && slice (w 1) 30 2 = 0),
      (2, d.hFp + d.hSync < d.hTotal - d.hActive && slice (w 2) 14 2 = 0 && slice (w 2) 26 6 = 0),
      (3, d.vFp + d.vSync < d.vTotal - d.vActive && slice (w 3) 14 2 = 0 && slice (w 3) 26 6 = 0),
      (4, 25000 ≤ d.khz && d.khz ≤ 600000 && d.khz * 2000 ≤ 121 * (d.hTotal * d.vTotal) && slice (w 4) 20 12 = 0),
      (5, (d.lanes = 1 || d.lanes = 2 || d.lanes = 4) && !bit (w 5) 3 && slice (w 5) 6 2 = 0 && slice (w 5) 11 21 = 0 &&
        10 * (d.khz * (if d.bpc = 0 then 24 else 30)) ≤ 8 * (d.lanes * laneKbps d.linkRate)),
      (6, w 6 = 0), (7, w 7 = 0)]
  | 12 =>
    let mask := slice (w 0) 0 8
    firstBad [(0, (if mask = 0 then slice (w 0) 16 2 = 0 else bit mask (slice (w 0) 8 3)) && slice (w 0) 11 5 = 0 &&
        slice (w 0) 18 14 = 0),
      (1, zeroOr (slice (w 1) 0 8) 3 40 && slice (w 1) 8 8 ≤ 60 && slice (w 1) 16 16 = 0),
      (2, w 2 = 0 || (500 ≤ slice (w 2) 0 16 && slice (w 2) 0 16 < slice (w 2) 16 16 && slice (w 2) 16 16 ≤ 7500)),
      (3, zeroOr (slice (w 3) 0 16) 100 10000 && slice (w 3) 24 8 = 0),
      (4, zeroOr (slice (w 4) 0 12) 100 2000 && slice (w 4) 12 20 = 0), (5, w 5 = 0), (6, w 6 = 0), (7, w 7 = 0)]
  | 13 => firstBad [(0, (slice (w 0) 0 2 = 1 || slice (w 0) 0 2 = 2) && slice (w 0) 2 2 = 0 && slice (w 0) 4 4 ≠ 0 &&
        slice (w 0) 8 24 = 0),
      (1, zeroOr (slice (w 1) 0 8) 2 20 && slice (w 1) 8 8 ≤ 90 && zeroOr (slice (w 1) 16 8) 10 90 && slice (w 1) 24 8 = 0),
      (2, zeroOr (slice (w 2) 0 16) 100 800 && slice (w 2) 16 16 = 0),
      (3, slice (w 3) 0 8 ≤ 60 && slice (w 3) 8 8 ≤ 60 && slice (w 3) 16 16 = 0),
      (4, w 4 = 0), (5, w 5 = 0), (6, w 6 = 0), (7, w 7 = 0)]
  | _ => none

/-! The configuration that records give (R76) -/

/-- Replace the element with a key, or add the element. -/
def upsert {α : Type} (same : α → Bool) (x : α) (l : List α) : List α :=
  if l.any same then l.map (fun y => if same y then x else y) else l ++ [x]

/-- The ROUTE entries of a record over a table: a full plan lists each as it stands; in a graft an entry replaces the
one with its key, adds one, or restores the default path (R76, R84). -/
def applyRoutes (graft : Bool) (es l : List RouteCfg) : List RouteCfg :=
  if !graft then l ++ es
  else es.foldl (fun l e =>
    if e.order = 0 ∧ !e.both ∧ e.mbps = 0 then l.filter (fun x => !(x.src = e.src && x.dst = e.dst))
    else upsert (fun x => x.src = e.src && x.dst = e.dst) e l) l

/-- The SHEDLOCK entries of a record over a table: a full plan lists each as it stands; in a graft an entry replaces
the one with its key, adds one, or ends one (R76, R85). -/
def applyLocks (graft : Bool) (es l : List LockCfg) : List LockCfg :=
  if !graft then l ++ es
  else es.foldl (fun l e =>
    if e.ways = 0 then l.filter (fun x => x.base ≠ e.base) else upsert (fun x => x.base = e.base) e l) l

/-- Apply one record to a configuration: a whole table, or entries that replace or add by key. -/
def applyRec (graft : Bool) (r : PlanRec) (c : PlanCfg) : PlanCfg :=
  match r.typ with
  | 2 => { c with islands := (List.range 72).map (fun n => islandOf n (r.w n)) }
  | 3 =>
    let p := plotOf r
    if p.beds = 0 then { c with plots := c.plots.filter (fun q => q.id ≠ p.id) }
    else { c with plots := upsert (fun q => q.id = p.id) p c.plots }
  | 4 => { c with split := (List.range 48).map (fun b => splitOf (r.w b)) }
  | 5 => { c with routes := applyRoutes graft ((r.entries 2).map routeOf) c.routes }
  | 6 => { c with locks := applyLocks graft ((r.entries 4).map lockEntry) c.locks }
  | 7 => { c with intake := some (intakeOf r) }
  | 8 => { c with qos := qosOf r }
  | 9 => { c with limits := limitsOf r }
  | 10 => { c with urgent := urgentOf r }
  | 11 => { c with display := some (displayOf r) }
  | 12 => { c with acoustic := some (acousticOf r) }
  | 13 => { c with evidence := some (evidenceOf r) }
  | _ => c

/-- Check 15 over the records in order (R73), and the configuration they give on top of a base; `ids` are the PLOT_IDs
of the image's earlier records, which a later PLOT record does not repeat (R81). -/
def checkFields (graft : Bool) (ids : List Nat) : List PlanRec → PlanCfg → Except PlanErr PlanCfg
  | [], c => .ok c
  | r :: rs, c =>
    let id := (plotOf r).id
    if !lengthOk r.typ r.body.length then .error ⟨0x40, 0x50, r.index, some 0xFFFF⟩
    else if r.typ = 3 ∧ ids.contains id then .error ⟨0x40, 0x50, r.index, some 0⟩
    else match badWord graft (fun b => (c.islands.getD (b + 4) ⟨false, 0, 0, 0⟩).powered) r with
      | some w => .error ⟨0x40, 0x50, r.index, some w⟩
      | none => checkFields graft (if r.typ = 3 then id :: ids else ids) rs (applyRec graft r c)

/-- The number of values that lie beyond a fence (R75, R55). -/
def clampCount (rs : List PlanRec) : Nat :=
  rs.foldl (fun n r =>
    if r.typ = 2 then n + ((List.range 72).filter (fun i => islandClamped i (r.w i))).length
    else if r.typ = 9 then n + limitsClamps r
    else n) 0

/-! Constraints between records: check 16 -/

/-- The record that PLAN_ERROR names for a constraint: the first of a type in the image, else 0xFFFE (R97). -/
def atRecord (rs : List PlanRec) (pick : PlanRec → Bool) (word : Option Nat) : PlanErr :=
  match rs.find? pick with
  | some r => ⟨0x40, 0x51, r.index, word⟩
  | none => ⟨0x40, 0x51, 0xFFFE, word⟩

/-- An island is powered in a configuration. -/
def PlanCfg.powers (c : PlanCfg) (n : Nat) : Bool := (c.islands.getD n ⟨false, 0, 0, 0⟩).powered

/-- The plots that hold a bed. -/
def PlanCfg.plotsOf (c : PlanCfg) (b : Nat) : List PlotCfg := c.plots.filter (fun p => bit p.beds b)

/-- Tile granules that a RASTER or MIXED plot needs (Table 3.15 order 4): TILE 0 is 32 pixels, 1 is 16, 2 is 64. -/
def tileGranules (tile : Nat) : Nat := if tile = 1 then 1 else if tile = 0 then 2 else 5

/-- The directed mesh links of a path between two beds (R84): along the row or the column first. -/
def meshLinks (order a b : Nat) : List (Nat × Nat) :=
  let ax := a % 8
  let ay := a / 8
  let bx := b % 8
  let by_ := b / 8
  let xs := fun y => if ax ≤ bx then (List.range (bx - ax)).map (fun i => (y * 8 + ax + i, y * 8 + ax + i + 1))
    else (List.range (ax - bx)).map (fun i => (y * 8 + ax - i, y * 8 + ax - i - 1))
  let ys := fun x => if ay ≤ by_ then (List.range (by_ - ay)).map (fun i => ((ay + i) * 8 + x, (ay + i + 1) * 8 + x))
    else (List.range (ay - by_)).map (fun i => ((ay - i) * 8 + x, (ay - i - 1) * 8 + x))
  if order = 0 then xs ay ++ ys bx else ys ax ++ xs by_

/-- The links that a route reserves on: mesh links between beds, and a non-bed island's own edge link; the place of
an edge stop is not given (log entry 14). Edge links are numbered from 64 on. -/
def routeLinks (order src dst : Nat) : List (Nat × Nat) :=
  let bed := fun n => 4 ≤ n && n < 52
  if bed src && bed dst then meshLinks order (src - 4) (dst - 4)
  else (if bed src then [] else [(64 + src, 200)]) ++ (if bed dst then [] else [(200, 64 + dst)])

/-- Every route in both its directions: source, destination, links, bandwidth. -/
def PlanCfg.flows (c : PlanCfg) : List (Nat × Nat × List (Nat × Nat) × Nat) :=
  c.routes.flatMap (fun r =>
    (r.src, r.dst, routeLinks r.order r.src r.dst, r.mbps) ::
      (if r.both then [(r.dst, r.src, routeLinks r.order r.dst r.src, r.mbps)] else []))

/-- A link carries more than 48,000 MB/s (R84). -/
def overLink (fs : List (Nat × Nat × List (Nat × Nat) × Nat)) (l : Nat × Nat) : Bool :=
  48000 < (fs.filter (fun f => f.2.2.1.contains l)).foldl (fun n f => n + f.2.2.2) 0

/-- Luma samples per frame of a size class (Table 3.9). -/
def sizeSamples (size : Nat) : Nat :=
  match size with
  | 0 => 2088960
  | 1 => 921600
  | 2 => 3686400
  | 3 => 8294400
  | 4 => 9437184
  | _ => 307200

/-- The word of an entry for a ROUTE or SHEDLOCK key in the image. -/
def entryWord (rs : List PlanRec) (t k : Nat) (same : List Nat → Bool) : PlanErr :=
  match (rs.filter (fun r => r.typ = t)).findSome? (fun r =>
      (((r.entries k).zipIdx.filter (fun e => same e.1)).getLast?).map (fun e => (r.index, k * e.2))) with
  | some (i, w) => ⟨0x40, 0x51, i, some w⟩
  | none => ⟨0x40, 0x51, 0xFFFE, none⟩

/-- The first constraint of Table 3.15 that a configuration breaks; `usable` is usable DRAM in bytes. -/
def checkConstraints (rs : List PlanRec) (usable : Nat) (c : PlanCfg) : Option PlanErr :=
  let ofType := fun (t : Nat) (r : PlanRec) => decide (r.typ = t)
  let beds := List.range 48
  let c1 := ([52, 53, 54, 55, 56, 57, 59, 60, 67, 69, 70].find? (fun n => !c.powers n)).map
    (fun n => atRecord rs (ofType 2) (some n))
  let c2 := if (c.islands.getD 69 ⟨false, 0, 0, 0⟩).rate ≠ (c.islands.getD 70 ⟨false, 0, 0, 0⟩).rate then
    some (atRecord rs (ofType 2) (some 70)) else none
  let c3 := (beds.find? (fun b => if c.powers (b + 4) then (c.plotsOf b).length ≠ 1 else !(c.plotsOf b).isEmpty)).map (fun b =>
    let ps := c.plotsOf b
    match ps.getLast? with
    | some p => atRecord rs (fun r => r.typ = 3 && (plotOf r).id = p.id) (some (1 + b / 32))
    | none => atRecord rs (ofType 3) (some (1 + b / 32)))
  let c4 := (beds.find? (fun b => (c.plotsOf b).any (fun p =>
      let s := c.split.getD b (0, 0, 0)
      ((p.role = 0 || p.role = 3) && s.1 < tileGranules p.tile) || (p.role ≠ 0 && s.2.1 < 4)))).map
    (fun b => atRecord rs (ofType 4) (some b))
  let c5 := if !c.powers 65 && (c.plots.any (fun p => p.role = 0 || p.role = 3) || c.display.isSome) then
    some (atRecord rs (ofType 2) (some 65)) else none
  let fs := c.flows
  let c6 := (c.routes.find? (fun r => !c.powers r.src || !c.powers r.dst ||
      (fs.filter (fun f => f.1 = r.src && f.2.1 = r.dst)).length ≠ 1 ||
      (routeLinks r.order r.src r.dst).any (overLink fs) || (r.both && (routeLinks r.order r.dst r.src).any (overLink fs)))).map
    (fun r => entryWord rs 5 2 (fun e => (routeOf e).src = r.src && (routeOf e).dst = r.dst))
  let overlaps := fun (a b : LockCfg) => a.base < b.base + 4096 * b.pages && b.base < a.base + 4096 * a.pages
  let c7 := (c.locks.zipIdx.find? (fun l => usable < l.1.base + 4096 * l.1.pages ||
      c.locks.zipIdx.any (fun m => m.2 < l.2 && overlaps l.1 m.1))).map
    (fun l => entryWord rs 6 4 (fun e => (lockEntry e).base = l.1.base))
  let waysOf := fun (sl : Nat) => (c.locks.filter (fun l => l.slice = sl)).foldl (fun n l => n + l.ways) 0
  let c8 := ((List.range 4).find? (fun sl => 12 < waysOf sl + c.urgent.spillWays)).map (fun sl =>
    match (c.locks.filter (fun l => l.slice = sl)).getLast? with
    | some l => entryWord rs 6 4 (fun e => (lockEntry e).base = l.base)
    | none => atRecord rs (ofType 6) none)
  let slots : List (SlotCfg × Nat) := match c.intake with
    | some i => i.slots.zipIdx.filter (fun s => s.1.valid)
    | none => []
  let c9 := if c.intake.isSome && (!c.powers 61 || !c.powers 62) then some (atRecord rs (ofType 7) none)
    else (slots.find? (fun s => !c.powers (63 + s.1.decoder))).map (fun s => atRecord rs (ofType 7) (some (4 + 2 * s.2)))
  let load := fun (d n : Nat) => (slots.filter (fun s => s.1.decoder = d && s.2 ≤ n)).foldl
    (fun a s => a + sizeSamples s.1.size * s.1.fps) 0
  let c10 := (slots.find? (fun s => 2100000000 < load s.1.decoder s.2)).map
    (fun s => atRecord rs (ofType 7) (some (4 + 2 * s.2)))
  let u := c.urgent
  let c11 := if u.hasReserve && !((c.plots.any (fun p => p.id = u.reservePlot && (p.role = 1 || p.role = 3) && p.classes = 1)) &&
      c.plots.all (fun p => p.id = u.reservePlot || !bit p.classes 0)) then some (atRecord rs (ofType 10) (some 0)) else none
  let c12 := if c.display.isSome && !c.powers 71 then some (atRecord rs (ofType 11) (some 0))
    else if c.display.isNone && c.powers 71 then some (atRecord rs (ofType 2) (some 71)) else none
  let c13 := if c.evidence.isSome && !c.powers 58 then some (atRecord rs (ofType 13) (some 0)) else none
  [c1, c2, c3, c4, c5, c6, c7, c8, c9, c10, c11, c12, c13].findSome? id

/-! Grafts: check 17 -/

/-- The plot number of a bed, if it is in one. -/
def PlanCfg.plotIdOf (c : PlanCfg) (b : Nat) : Option Nat := (c.plotsOf b).head?.map (fun p => p.id)

/-- The plot with a number. -/
def PlanCfg.plot (c : PlanCfg) (p : Nat) : Option PlotCfg := c.plots.find? (fun q => q.id = p)

/-- The islands whose configuration differs between two configurations (Table 3.16). -/
def changedIslands (a b : PlanCfg) : List Nat :=
  let beds := (List.range 48).filter (fun i =>
    a.plotIdOf i ≠ b.plotIdOf i || a.split.getD i (0, 0, 0) ≠ b.split.getD i (0, 0, 0) ||
      (match (a.plotsOf i).head?, (b.plotsOf i).head? with
        | some p, some q => p.role ≠ q.role || p.tile ≠ q.tile || p.waves ≠ q.waves
        | _, _ => false))
  let slices := (List.range 4).filter (fun k =>
    a.locks.filter (fun l => l.slice = k) ≠ b.locks.filter (fun l => l.slice = k))
  let slotsOf : PlanCfg → Nat → List (SlotCfg × Nat) := fun c d => match c.intake with
    | some i => i.slots.zipIdx.filter (fun s => s.1.valid && s.1.decoder = d)
    | none => []
  let decs := (List.range 2).filter (fun d => slotsOf a d ≠ slotsOf b d)
  beds.map (fun i => i + 4) ++ slices.map (fun k => k + 52) ++ (if a.intake ≠ b.intake then [62] else []) ++
    decs.map (fun d => d + 63)

/-- Routes of the image whose entry has no end at a named island, and differs from the active one (R58, R98). -/
def untouchedRoute (touch : Nat → Bool) (a b : PlanCfg) : Bool :=
  b.routes.any (fun r => !a.routes.contains r && !touch r.src && !touch r.dst) ||
    a.routes.any (fun r => !b.routes.contains r && !touch r.src && !touch r.dst)

/-- Check 17 (R58). -/
def checkTouch (mask : Nat) (rs : List PlanRec) (active next : PlanCfg) : Option PlanErr :=
  let touch := bit mask
  let u := active.urgent
  let reserveBeds := match active.plot u.reservePlot with
    | some p => if u.hasReserve then p.beds else 0
    | none => 0
  if !(changedIslands active next).all touch || untouchedRoute touch active next then some (headerErr 0x40 0x45)
  else if (List.range 128).any (fun n => touch n && !((4 ≤ n && n ≤ 55) || (62 ≤ n && n ≤ 68))) then
    some (headerErr 0x41 0x36)
  else if (List.range 72).any (fun n => touch n && !active.powers n) then some (headerErr 0x41 0x35)
  else if (List.range 48).any (fun b => bit reserveBeds b && touch (b + 4)) ||
      rs.any (fun r => r.typ = 3 && u.hasReserve && (plotOf r).id = u.reservePlot) then some (headerErr 0x41 0x34)
  else none

/-! The whole check -/

/-- What a plan image is checked against. -/
structure PlanCtx where
  keys     : List KeySlot
  floor    : Nat
  variant  : Nat
  usable   : Nat
  active   : PlanCfg
  /-- grafts of the active chain and its bytes -/
  grafts   : Nat
  bytes    : Nat
  /-- a run-time command, not a start -/
  runtime  : Bool
  deriving DecidableEq, Repr

/-- An accepted image: the configuration it gives, its clamps, and the records skipped under R48. -/
structure PlanOk where
  cfg     : PlanCfg
  clamps  : Nat
  skipped : Nat
  named   : List Nat
  deriving DecidableEq, Repr

/-- Checks 5 and 6: key slot and signature (R46, R49). -/
def checkKeys (keys : List KeySlot) (keyIndex : Nat) (img : List Byte) : Option PlanErr :=
  let so := img.length - 192
  let key := (img.drop so).take 96
  let k := keys.getD keyIndex ⟨0, false, false⟩
  if !k.provisioned then some (headerErr 0x50 0x20)
  else if k.revoked then some (headerErr 0x50 0x21)
  else if sha384 key ≠ k.digest then some (headerErr 0x50 0x22)
  else
    let be := (((key.take 48).reverse) ++ ((key.drop 48).take 48).reverse)
    let sig := ((img.drop (so + 96)).take 48).reverse ++ ((img.drop (so + 144)).take 48).reverse
    if ecdsaVerify be (sha384 (img.take so)) sig then none else some (headerErr 0x50 0x23)

/-- Checks 7 to 12 on the header. -/
def checkHeader (ctx : PlanCtx) (graft : Bool) (img : List Byte) : Option PlanErr :=
  let at_ := imgAt img
  let planId := at_ 0x10 8
  let gen := at_ 0x18 4
  if at_ 0x05 1 ≠ 1 then some (headerErr 0x40 0x13)
  else if at_ 0x06 2 ≠ 0x6400 || !bit (at_ 0x09 1) ctx.variant then some (headerErr 0x40 0x14)
  else if 0xB0 < at_ 0x08 1 then some (headerErr 0x41 0x30)
  else if at_ 0x0A 1 < ctx.floor then some (headerErr 0x41 0x31)
  else if at_ 0x2A 2 ≠ 0 || ((img.drop 0x80).take 128).any (fun b => b ≠ 0) || at_ 0x09 1 / 4 ≠ 0 ||
      at_ 0x0C 4 / 4 ≠ 0 || bit (at_ 0x0C 4) 0 ≠ graft || at_ 0x30 16 / 2 ^ 72 ≠ 0 ||
      (if graft then at_ 0x30 16 = 0 else at_ 0x30 16 ≠ 0) then some (headerErr 0x40 0x15)
  else if graft then
    if planId ≠ ctx.active.planId || at_ 0x1C 4 ≠ ctx.active.generation || gen ≤ at_ 0x1C 4 then
      some (headerErr 0x41 0x33) else none
  else if ctx.runtime && planId = ctx.active.planId && gen ≤ ctx.active.generation then some (headerErr 0x41 0x32)
  else none

/-- Checks 3 to 20 of Table 2.5 on an image, in order. -/
def checkImage (ctx : PlanCtx) (graft : Bool) (img : List Byte) : Except PlanErr PlanOk :=
  let n := img.length
  if n < 452 ∨ 2 ^ 20 < n ∨ n % 4 ≠ 0 then .error (headerErr 0x40 0x10)
  else if imgAt img 0 4 ≠ 0x544F4C50 then .error (headerErr 0x40 0x11)
  else if imgAt img 0x20 4 ≠ n ∨ imgAt img 0x24 4 ≠ n - 192 then .error (headerErr 0x40 0x12)
  else match checkKeys ctx.keys (imgAt img 0x0B 1) img with
  | some e => .error e
  | none => match checkHeader ctx graft img with
  | some e => .error e
  | none => match walkRecords img (n - 192) 65536 0x100 0 with
  | .error e => .error e
  | .ok all => match checkFraming img all with
  | some e => .error e
  | none =>
    let rs := all.filter (fun r => r.typ < 2 ^ 15)
    let base : PlanCfg := if graft then ctx.active else PlanCfg.none
    match checkTypes graft rs with
    | some e => .error e
    | none => match checkFields graft [] rs base with
    | .error e => .error e
    | .ok c0 =>
      let c := { c0 with
        planId := imgAt img 0x10 8, generation := imgAt img 0x18 4,
        security := if graft then c0.security else imgAt img 0x0A 1,
        keyIndex := if graft then c0.keyIndex else imgAt img 0x0B 1 }
      let mask := imgAt img 0x30 16
      match checkConstraints rs ctx.usable c with
      | some e => .error e
      | none => match (if graft then checkTouch mask rs ctx.active c else none) with
      | some e => .error e
      | none =>
        if ctx.runtime && !graft && ([56, 57, 58, 59, 60, 69, 70].any (fun i => c.powers i ≠ ctx.active.powers i) ||
            (ctx.active.powers 61 && !c.powers 61)) then .error (headerErr 0x41 0x37)
        else if graft && (8 ≤ ctx.grafts || 2 ^ 21 - 64 < ctx.bytes + n) then .error (headerErr 0x41 0x38)
        else if bit (imgAt img 0x0C 4) 1 && clampCount rs ≠ 0 then .error (headerErr 0x41 0x39)
        else .ok ⟨c, clampCount rs, (all.filter (fun r => 2 ^ 15 ≤ r.typ)).length, maskList 72 mask⟩

/-- The fallback plan (Table 2.6). -/
def fallbackCfg : PlanCfg :=
  let clock := fun n => if n = 0 then 200 else if n < 4 then 0 else if n < 56 then 600 else if n < 58 then 400
    else if n = 58 then 200 else if n < 65 then 0 else if n < 69 then 600 else 0
  { PlanCfg.none with
    islands := (List.range 72).map (fun n =>
      if (61 ≤ n ∧ n ≤ 64) ∨ n = 71 then ⟨false, 0, 0, 0⟩
      else ⟨true, clock n, if n = 69 ∨ n = 70 then 2 else 0, 0⟩),
    plots := [⟨0, 3, 7, 2 ^ 48 - 1, 0, 48⟩], split := List.replicate 48 (8, 12, 4) }

end Sys2Proof.Machine
end

