-- ==== Sys2Proof/Machine/Configure.lean ====
section
/-! DEFINITION. The registers and tables that the active plan sets in each island: bed splits, shed locks and spill
ways, memory channels, limits, watchdogs and the urgent lane (spec/02 R56, R57, R59; Table 3.17). -/
namespace Sys2Proof.Machine

/-- The entries that lock a slice, in ascending BASE order (R267). -/
def PlanCfg.locksOf (c : PlanCfg) (sl : Nat) : List LockCfg :=
  (c.locks.filter (fun l => l.slice = sl)).mergeSort (fun a b => a.base ≤ b.base)

/-- The first way of each entry of a slice, downward from below the spill ways (R267). -/
def firstWays : Nat → List LockCfg → List Nat
  | _, [] => []
  | top, l :: ls => top :: firstWays (top - l.ways) ls

/-- Write lock entry k of a slice, with every line still empty (Table 10.7). -/
def putLock (sl k : Nat) (l : LockCfg) (way : Nat) (s : State) : State :=
  let s1 := (s.wr64 (R.shedLock sl k) l.base).puts [(F.shedLockPages sl k, l.pages), (F.shedLockWays sl k, l.ways),
    (F.shedLockKeySel sl k, l.keySel), (F.shedLockFirstWay sl k, way)]
  refreshLock sl k s1

/-- Clear lock entry k of a slice. -/
def clearLock (sl k : Nat) (s : State) : State :=
  (s.wr64 (R.shedLock sl k) 0).wr64 (R.shedLock sl k + 8) 0

/-- The locks and spill ways of a slice as the active plan gives them. -/
def configureSlice (sl : Nat) (s : State) : State :=
  let u := s.plan.active.urgent
  let ls := s.plan.active.locksOf sl
  let s1 := s.each (List.range 12) (clearLock sl)
  let s2 := s1.each (List.zip (List.range 12) (List.zip ls (firstWays (15 - u.spillWays) ls)))
    (fun e t => putLock sl e.1 e.2.1 e.2.2 t)
  s2.puts [(F.shedStatusLockedWays sl, ls.foldl (fun n l => n + l.ways) 0), (F.shedStatusSpillWays sl, u.spillWays)]

/-- Fetch every line of a lock entry that is not valid (preload, R99; FILL, R274). -/
def preloadLock (sl k : Nat) (s : State) : State :=
  let b := s.rd64 (R.shedLock sl k) % 2 ^ 40
  let q : Req := ⟨52 + sl, 1, s.get (F.shedLockKeySel sl k), false⟩
  if s.get (F.shedLockWays sl k) = 0 then s else
  s.each ((List.range (32 * s.get (F.shedLockPages sl k))).map (fun i => b + 128 * i)) (fun pa t =>
    if (t.line pa).isSome || t.region pa != .general || !t.isOpen (69 + t.channel pa) || !t.keyReady q.key then t
    else (fillLine q pa t).2)

/-- Preload every entry of a slice with PRELOAD 1 (R99, R272). -/
def preloadSlice (sl : Nat) (s : State) : State :=
  s.each (List.zip (List.range 12) (s.plan.active.locksOf sl)) (fun e t => if e.2.preload then preloadLock sl e.1 t else t)

/-- A bed's split, plot and role (Table 13.8, R82). -/
def configureBed (b : Nat) (s : State) : State :=
  let sp := s.plan.active.split.getD b (0, 0, 0)
  let p := (s.plan.active.plotsOf b).head?
  s.puts [(F.bedSplitTile b, sp.1), (F.bedSplitScratch b, sp.2.1), (F.bedSplitSpill b, sp.2.2),
    (F.bedSplitPlot b, p.elim 0 (fun x => x.id)), (F.bedSplitRole b, p.elim 0 (fun x => x.role))]

/-- A memory channel that is active again (R39, Table 10.6). -/
def configureChannel (c : Nat) (s : State) : State :=
  let m := s.boot.memCfg
  s.puts [(F.memcCfgRate c, m.1), (F.memcCfgEcc c, m.2.1), (F.memcCfgRanks c, m.2.2.1), (F.memcCfgCapGib c, m.2.2.2),
    (F.memcCfgState c, 2)]

/-- The urgent lane's settings (Table 22.4). -/
def configureUrgent (s : State) : State :=
  let u := s.plan.active.urgent
  s.puts [(F.hostqUrgentCfgReservePlot, u.reservePlot), (F.hostqUrgentCfgHasReserve, b2n u.hasReserve),
    (F.hostqUrgentCfgSpillWays, u.spillWays), (F.hostqUrgentCfgMaxTileTimeUs, u.maxTileUs)]

/-- What the plan sets in an island when it opens or is configured. A slice that DRAM still backs preloads its locks
(R272). -/
def configureIsland (n : Nat) (s : State) : State :=
  if 4 ≤ n ∧ n < 52 then configureBed (n - 4) s
  else if 52 ≤ n ∧ n ≤ 55 then configureSlice (n - 52) s
  else if n = 60 then configureUrgent s
  else if n = 69 ∨ n = 70 then configureChannel (n - 69) s
  else s

/-- The effective thresholds (Table 6.1, R149). -/
def refreshThresholds (s : State) : State :=
  let l := s.plan.active.limits
  let u := s.get F.globalStatusUncalibrated
  s.puts [(F.fenceThreshWarn, l.warnC - 8 * u), (F.fenceThreshThrottle, l.throttleC - 8 * u),
    (F.fenceThreshHwThrottle, 108 - 8 * u), (F.fenceThreshHwTrip, 118 - 8 * u)]

/-- The highest bed clock of the active plan in whole MHz (R152). -/
def State.planBedClock (s : State) : Nat :=
  ((List.range 48).map (fun b => (s.plan.active.islands.getD (b + 4) ⟨false, 0, 0, 0⟩).freq * 2 / 25 * 25 / 2)).foldl max 0

/-- What the plan sets in islands 0–3 and in the common memory registers, in place (R56, R57, R75, R88, R89). -/
def configureCommon (s : State) : State :=
  let c := s.plan.active
  let s1 := configureAcoustic (refreshThresholds s)
  let s2 := s1.each (List.range 4) (fun p t => t.put (F.bootWdogTimeoutMs p) (c.limits.wdogMs.getD p 100))
  s2.puts [(F.memcPktPktMib, c.intake.elim 0 (fun i => i.pktMib)), (F.memcQosCfgClass0Cap, c.qos.class0Cap),
    (F.memcQosCfgClass2Min, c.qos.class2Min), (F.fenceStateBedCeiling, s2.planBedClock)]

end Sys2Proof.Machine
end

