-- ==== Sys2Proof/Machine/Walk.lean ====
section
/-! DEFINITION. Allotments, page-table walks, translation caches, translated accesses and the fault collector
(spec/11). -/
namespace Sys2Proof.Machine

/-- Fault reasons of Table 11.3. -/
def NOT_VALID : Nat := 1
def NO_READ : Nat := 2
def NO_WRITE : Nat := 3
def NO_FETCH : Nat := 4
def BAD_ENTRY : Nat := 5
def BAD_VA : Nat := 6
def ALLOT_OFF : Nat := 7
def NOT_PINNED : Nat := 8
def WALK_ERROR : Nat := 9

/-- Read one 8-byte table entry in ROOT_SPACE (R275, R277). -/
def tableEntry (q : Req) (fn : Nat) (hostSpace : Bool) (addr : Nat) (s : State) : Option Nat × State :=
  if hostSpace then ((hostRead fn addr 8 s).map leNat, s)
  else
    let r := physRead { q with key := 0, noAlloc := false } addr 8 s
    match r.1 with
    | .ok bs => (some (leNat bs), r.2)
    | .error _ => (none, r.2)

/-- The page size of a leaf at a level: 4 KiB or 64 KiB at level 0, 2 MiB, 1 GiB (R276, R278). -/
def leafSize (level : Nat) (c64 : Bool) : Nat :=
  if level = 0 then (if c64 then 65536 else 4096) else if level = 1 then 2 ^ 21 else 2 ^ 30

/-- An entry with V 1 fails at its level (R279). -/
def badEntry (level : Nat) (hostSpace : Bool) (e : Nat) : Bool :=
  let leaf := bit e 1
  let addr := slice e 12 40 * 4096
  let hostLeaf := bit e 6
  slice e 52 12 ≠ 0
    || (level == 3 && leaf) || (level == 0 && !leaf)
    || (if leaf then
          addr % leafSize level (bit e 7) ≠ 0 || (!hostLeaf && 2 ^ 40 ≤ addr) || (hostLeaf && slice e 8 4 ≠ 0)
            || (bit e 7 && level ≠ 0)
        else slice e 2 10 ≠ 0 || (!hostSpace && 2 ^ 40 ≤ addr))

/-- The translation that a leaf gives (Table 11.1). -/
def leafEntry (island allot level va e : Nat) : TlbEntry :=
  let sz := leafSize level (bit e 7)
  { island := island, allot := allot, va := va / sz * sz, size := sz, out := slice e 12 40 * 4096,
    r := bit e 2, w := bit e 3, x := bit e 4, pinned := bit e 5, host := bit e 6, key := slice e 8 4 }

/-- Walk from a level's table: the translation, or the reason and the level at which the walk stopped. -/
def walkFrom (q : Req) (fn allot : Nat) (hostSpace : Bool) (va : Nat) :
    Nat → Nat → State → Except (Nat × Nat) TlbEntry × State
  | level, table, s =>
    let idx := slice va (12 + 9 * level) 9
    let r := tableEntry q fn hostSpace (table + 8 * idx) s
    match r.1 with
    | none => (.error (WALK_ERROR, level), r.2)
    | some e =>
      if level = 0 ∧ bit e 7 ∧ bit e 1 ∧ idx % 16 ≠ 0 then
        let g := tableEntry q fn hostSpace (table + 8 * (idx / 16 * 16)) r.2
        match g.1 with
        | none => (.error (WALK_ERROR, 0), g.2)
        | some h =>
          if !bit h 0 then (.error (NOT_VALID, 0), g.2)
          else if !bit h 7 || badEntry 0 hostSpace h then (.error (BAD_ENTRY, 0), g.2)
          else (.ok (leafEntry q.island allot 0 va h), g.2)
      else if !bit e 0 then (.error (NOT_VALID, level), r.2)
      else if badEntry level hostSpace e then (.error (BAD_ENTRY, level), r.2)
      else if bit e 1 then (.ok (leafEntry q.island allot level va e), r.2)
      else match level with
        | 0 => (.error (BAD_ENTRY, 0), r.2)
        | l + 1 => walkFrom q fn allot hostSpace va l (slice e 12 40 * 4096) r.2

/-- A cached translation of an island for a VA (R282). -/
def State.cached (s : State) (island allot va : Nat) : Option TlbEntry :=
  s.mmu.tlb.find? (fun t => t.island = island && t.allot = allot && t.va ≤ va && va < t.va + t.size)

/-- Add a translation; an island holds at most 1,024, and a free value picks the one that goes (R282; log entry 8). -/
def cacheEntry (t : TlbEntry) (s : State) : State :=
  let own := s.mmu.tlb.filter (fun e => e.island = t.island)
  if own.length < 1024 then { s with mmu := { s.mmu with tlb := t :: s.mmu.tlb } }
  else
    let d := s.draw
    let keep := (own.drop (d.1 % own.length + 1)) ++ own.take (d.1 % own.length)
    { d.2 with mmu := { d.2.mmu with tlb := t :: keep ++ d.2.mmu.tlb.filter (fun e => e.island ≠ t.island) } }

/-- The permission and pinning tests of R285, steps 4 and 5. -/
def entryFault (a : Access) (pinned : Bool) (t : TlbEntry) : Option Nat :=
  let perm := match a with
    | .read => if t.r then none else some NO_READ
    | .write => if t.w then none else some NO_WRITE
    | .fetch => if t.x then none else some NO_FETCH
  match perm with
  | some r => some r
  | none => if pinned && !t.pinned then some NOT_PINNED else none

/-- The level of a leaf by its page size (R276). -/
def TlbEntry.level (t : TlbEntry) : Nat := if t.size = 2 ^ 30 then 2 else if t.size = 2 ^ 21 then 1 else 0

/-- Translate one access: the translation, or REASON and LEVEL in the order of R285. -/
def translate (q : Req) (fn allot va : Nat) (a : Access) (pinned : Bool) (s : State) :
    Except (Nat × Nat) TlbEntry × State :=
  let root := s.rd64 (R.mmuAllotRoot allot)
  if !bit root 0 || s.allotOwner allot ≠ some fn then (.error (ALLOT_OFF, 0), s)
  else if 2 ^ 48 ≤ va then (.error (BAD_VA, 0), s)
  else
    let r : Except (Nat × Nat) TlbEntry × State :=
      match s.cached q.island allot va with
      | some t => (.ok t, s)
      | none =>
        if !bit root 1 && slice root 40 12 ≠ 0 then (.error (BAD_ENTRY, 3), s)
        else
          let w := walkFrom q fn allot (bit root 1) va 3 (slice root 12 40 * 4096) s
          let s1 := w.2.wrap32 R.mmuWalks 1
          match w.1 with
          | .ok t => (.ok t, cacheEntry t s1)
          | .error e => (.error e, s1)
    match r.1 with
    | .error e => (.error e, r.2)
    | .ok t =>
      match entryFault a pinned t with
      | some reason => (.error (reason, t.level), r.2)
      | none => (.ok t, r.2)

/-- Why a translated access did not happen: a fault at a VA, or an error completion. -/
inductive VaErr where
  | fault (reason level va : Nat)
  | err (e : MemErr)
  deriving DecidableEq, Repr

/-- HOST_ABORT as an error completion (R280). -/
def hostAbort : MemErr := ⟨0xF0, 0x42, 0⟩

/-- Read `n` bytes of an allotment page by page; `fuel` bounds the number of 4 KiB pieces. -/
def vaReadFrom (q : Req) (fn allot : Nat) (a : Access) (pinned : Bool) :
    Nat → Nat → Nat → State → Except VaErr (List Byte) × State
  | 0, _, _, s => (.ok [], s)
  | fuel + 1, va, n, s =>
    if n = 0 then (.ok [], s) else
    let m := min n (4096 - va % 4096)
    let t := translate q fn allot va a pinned s
    match t.1 with
    | .error e => (.error (.fault e.1 e.2 va), t.2)
    | .ok x =>
      let addr := x.out + (va - x.va)
      let r : Except VaErr (List Byte) × State :=
        if x.host then
          match hostRead fn addr m t.2 with
          | some bs => (.ok bs, t.2)
          | none => (.error (.err hostAbort), t.2)
        else
          let p := physRead { q with key := x.key } addr m t.2
          match p.1 with
          | .ok bs => (.ok bs, p.2)
          | .error e => (.error (.err e), p.2)
      match r.1 with
      | .error e => (.error e, r.2)
      | .ok bs =>
        let rest := vaReadFrom q fn allot a pinned fuel (va + m) (n - m) r.2
        match rest.1 with
        | .error e => (.error e, rest.2)
        | .ok cs => (.ok (bs ++ cs), rest.2)

/-- Read `n` bytes of an allotment. -/
def vaRead (q : Req) (fn allot va n : Nat) (a : Access) (pinned : Bool) (s : State) :
    Except VaErr (List Byte) × State :=
  vaReadFrom q fn allot a pinned (n / 4096 + 2) va n s

/-- Write bytes of an allotment page by page. -/
def vaWriteFrom (q : Req) (fn allot : Nat) (pinned : Bool) :
    Nat → Nat → List Byte → State → Option VaErr × State
  | 0, _, _, s => (none, s)
  | fuel + 1, va, bs, s =>
    if bs.isEmpty then (none, s) else
    let m := min bs.length (4096 - va % 4096)
    let t := translate q fn allot va .write pinned s
    match t.1 with
    | .error e => (some (.fault e.1 e.2 va), t.2)
    | .ok x =>
      let addr := x.out + (va - x.va)
      let r : Option VaErr × State :=
        if x.host then (none, hostWrite fn addr (bs.take m) t.2)
        else
          let p := physWrite { q with key := x.key } addr (bs.take m) t.2
          (p.1.map .err, p.2)
      match r.1 with
      | some e => (some e, r.2)
      | none => vaWriteFrom q fn allot pinned fuel (va + m) (bs.drop m) r.2

/-- Write bytes of an allotment. -/
def vaWrite (q : Req) (fn allot va : Nat) (bs : List Byte) (pinned : Bool) (s : State) : Option VaErr × State :=
  vaWriteFrom q fn allot pinned (bs.length / 4096 + 2) va bs s

/-! The fault collector -/

/-- The open batch of a function. -/
def State.openBatch (s : State) (fn : Nat) : Option Batch :=
  s.mmu.batches.find? (fun b => b.fn = fn && b.phase == .opened)

/-- Replace the batch with a function and number. -/
def putBatch (b : Batch) (s : State) : State :=
  { s with mmu := { s.mmu with
      batches := s.mmu.batches.map (fun x => if x.fn = b.fn ∧ x.number = b.number then b else x) } }

/-- The ring size of a function's fault ring. -/
def State.ringSlots (s : State) (fn : Nat) : Nat := 2 ^ s.get (F.mmuFrCfgSizeLog2 fn)

/-- A slot of a function's fault ring is held by a written batch (R289). -/
def State.slotHeld (s : State) (fn slot : Nat) : Bool :=
  s.mmu.batches.any (fun b => b.fn = fn && (b.phase == .written || b.phase == .lost) && b.holds &&
    (slot + s.ringSlots fn - b.slot) % s.ringSlots fn < b.records.length)

/-- How many consecutive slots are free from a slot on, at most `n`. -/
def State.freeRun (s : State) (fn : Nat) : Nat → Nat → Nat
  | 0, _ => 0
  | n + 1, slot => if s.slotHeld fn (slot % s.ringSlots fn) then 0 else 1 + s.freeRun fn n (slot + 1)

/-- FR_STATUS.FREE and RING_WAIT from the batches (R289). -/
def refreshRing (fn : Nat) (s : State) : State :=
  s.puts [(F.mmuFrStatusFree fn, min 4095 (s.freeRun fn (s.ringSlots fn) (s.mmu.writePos.getD fn 0))),
    (F.mmuFrStatusRingWait fn, b2n (s.mmu.batches.any (fun b => b.fn = fn && b.phase == .closed)))]

/-- The 32 bytes of a fault record (Table 11.4). -/
def faultBytes (r : FaultRec) (index number phase : Nat) : List Byte :=
  let acc := match r.access with
    | .read => 1
    | .write => 2
    | .fetch => 4
  leBytes 8 r.va ++ leBytes 4 r.tag ++ leBytes 1 r.reason ++ leBytes 1 acc ++
    leBytes 1 (r.allot % 64 + 128 * b2n r.fatal) ++ leBytes 1 (r.cls % 4 + 4 * (r.level % 4)) ++
    leBytes 1 r.source ++ leBytes 1 r.unit ++ leBytes 1 r.sq ++ leBytes 1 index ++ leBytes 4 number ++
    leBytes 4 r.timeUs ++ [0, 0, 0] ++ leBytes 1 (128 * phase)

/-- Write the records of a batch from a slot on, flipping the phase at the wrap. -/
def writeRecords (fn number : Nat) : Nat → List FaultRec → State → State
  | _, [], s => s
  | i, r :: rs, s =>
    let pos := s.mmu.writePos.getD fn 0
    let s1 := hostWrite fn (s.rd64 (R.mmuFrBase fn) + 32 * pos) (faultBytes r i number (s.get (F.mmuFrStatusPhase fn))) s
    let nx := pos + 1
    let wrap := nx ≥ s.ringSlots fn
    let s2 := { s1 with mmu := { s1.mmu with writePos := setAt fn (if wrap then 0 else nx) s1.mmu.writePos } }
    writeRecords fn number (i + 1) rs (if wrap then s2.put (F.mmuFrStatusPhase fn) (1 - s.get (F.mmuFrStatusPhase fn)) else s2)

/-- Write the oldest closed batch of a function if its slots are free, then send vector 1 (R288, R289). -/
def writeBatch (fn : Nat) (s : State) : State :=
  match s.mmu.batches.find? (fun b => b.fn = fn && b.phase == .closed) with
  | none => refreshRing fn s
  | some b =>
    let pos := s.mmu.writePos.getD fn 0
    if s.get (F.mmuFrCfgEnable fn) = 1 ∧ b.records.length ≤ s.freeRun fn (s.ringSlots fn) pos then
      let s1 := putBatch { b with phase := .written, slot := pos, holds := true } s
      let s2 := writeRecords fn b.number 0 b.records s1
      refreshRing fn (sendMsi fn 1 (s2.put (F.mmuFrStatusLastBatch fn) b.number))
    else refreshRing fn s

/-- Close a function's open batch (R288). -/
def closeBatch (fn : Nat) (s : State) : State :=
  match s.openBatch fn with
  | none => s
  | some b => writeBatch fn (putBatch { b with phase := .closed } s)

/-- BATCH_MAX of a function, 0 meaning 256 (Table 11.9). -/
def State.batchMax (s : State) (fn : Nat) : Nat :=
  let m := s.get (F.mmuFrCfgBatchMax fn)
  if m = 0 then 256 else m

/-- Add a record to the function's open batch, opening one if none is open; close it when full or of class 0. -/
def joinBatch (fn : Nat) (r : FaultRec) (s : State) : State :=
  let s1 := match s.openBatch fn with
    | some b => putBatch { b with records := b.records ++ [r] } s
    | none =>
      let n := s.mmu.nextBatch.getD fn 1
      { s with mmu := { s.mmu with
          nextBatch := setAt fn (n + 1) s.mmu.nextBatch,
          batches := s.mmu.batches ++ [({ fn := fn, number := n, phase := .opened, slot := 0, holds := false, records := [r] } : Batch)] } }
  match s1.openBatch fn with
  | some b => if r.cls = 0 ∨ s1.batchMax fn ≤ b.records.length then closeBatch fn s1 else s1
  | none => s1

/-- What a fault does to its stream: it stalls, or it ends at once with a status. -/
inductive FaultEnd where
  | stalled
  | ended (status : Nat)
  deriving DecidableEq, Repr

/-- Report a fault (R286–R288, R293–R295): count it, record it in the function's batch, and stall the stream; a
stream that cannot restart ends with NOT_RESTARTABLE, and without a fault ring or an open island 60 no record is
written. -/
def reportFault (fn : Nat) (r : FaultRec) (s : State) : FaultEnd × State :=
  let atOnce := if r.fatal then 0x32 else 0x30
  if s.isShut 60 then (.ended atOnce, s)
  else if s.get (F.mmuFrCfgEnable fn) = 0 then (.ended atOnce, s.bump (F.mmuFrCountUnreported fn) 1)
  else
    let s1 := (s.wrap32 R.mmuFaults 1).bump (F.mmuAllotStatFaults r.allot) 1
    let id := s1.mmu.nextStall
    let s2 := joinBatch fn { r with timeUs := s.timeUs, id := id } { s1 with mmu := { s1.mmu with nextStall := id + 1 } }
    if r.fatal then (.ended 0x32, s2)
    else (.stalled, { s2 with mmu := { s2.mmu with
      stalls := ⟨r.stream, fn, r.source, r.allot, r.va, r.access, id⟩ :: s2.mmu.stalls } })

/-- A stream is stalled on a fault. -/
def State.isStalled (s : State) (st : Stream) : Bool := s.mmu.stalls.any (fun x => x.stream == st)

/-- Forget a stream's stall. -/
def unstall (st : Stream) (s : State) : State :=
  { s with mmu := { s.mmu with stalls := s.mmu.stalls.filter (fun x => x.stream != st) } }

end Sys2Proof.Machine
end

