-- ==== Sys2Proof/Machine/Complete.lean ====
section
/-! DEFINITION. The completion engine of island 60: completion entries, CQ interrupts, ring halts and the end of a
dispatched entry (spec/08 R200, R209, R216–R218, R224). -/
namespace Sys2Proof.Machine

/-! Ring states (Table 8.4) -/

/-- DISABLED. -/
def RING_DISABLED : Nat := 0
/-- ENABLED. -/
def RING_ENABLED : Nat := 1
/-- HALTED. -/
def RING_HALTED : Nat := 2
/-- DRAINING. -/
def RING_DRAINING : Nat := 3

/-- The number of entries of SQ r. -/
def State.sqSize (s : State) (r : Nat) : Nat := 2 ^ s.get (F.sqCfgSizeLog2 r)

/-- The number of entries of CQ r. -/
def State.cqSize (s : State) (r : Nat) : Nat := 2 ^ s.get (F.cqCfgSizeLog2 r)

/-- A CQ is full when its tail is one slot behind its head (R217). -/
def State.cqFull (s : State) (r : Nat) : Bool :=
  (s.get (F.cqStatusTail r) + 1) % s.cqSize r == s.get (F.cqHeadValue r)

/-- Halt an SQ with a reason (R209). -/
def haltSq (r reason : Nat) (s : State) : State :=
  setRingEvent (s.sqFn r) (s.puts [(F.sqStatusState r, RING_HALTED), (F.sqStatusHaltReason r, reason)])

/-- Halt a CQ with a reason; the completions that wait for it are lost and counted in CQ_LOST (R209). -/
def haltCq (r reason : Nat) (s : State) : State :=
  let lost := (s.host.waiting.filter (fun c => c.cq = r)).length
  let s1 := (s.puts [(F.cqStatusState r, RING_HALTED), (F.cqStatusHaltReason r, reason)]).bump (F.cqCountCqLost r) lost
  setRingEvent (s.cqFn r) { s1 with host := { s1.host with waiting := s1.host.waiting.filter (fun c => c.cq ≠ r) } }

/-- An SQ falls to DISABLED: HEAD, TAIL and ENABLE are 0 (Table 8.4). -/
def disableSq (r : Nat) (s : State) : State :=
  s.puts [(F.sqStatusState r, RING_DISABLED), (F.sqStatusHead r, 0), (F.sqTailValue r, 0), (F.sqCtrlEnable r, 0)]

/-- A CQ falls to DISABLED: HEAD and TAIL are 0 and PHASE is 1 (Table 8.4). -/
def disableCq (r : Nat) (s : State) : State :=
  s.puts [(F.cqStatusState r, RING_DISABLED), (F.cqStatusTail r, 0), (F.cqHeadValue r, 0), (F.cqStatusPhase r, 1),
    (F.cqCtrlEnable r, 0)]

/-- The 16 bytes of a completion entry (Table 8.7). -/
def completionBytes (s : State) (c : Completion) : List Byte :=
  leBytes 4 c.tag ++ leBytes 4 (c.status + 2 ^ 8 * c.detail + 2 ^ 16 * c.info) ++ leBytes 4 c.count ++
    leBytes 4 (s.get (F.sqStatusHead c.sq) + 2 ^ 16 * c.sq + 2 ^ 31 * s.get (F.cqStatusPhase c.cq))

/-- The class and island a ring access uses (R262). -/
def ringReq (cls : Nat) : Req := ⟨60, cls, 0, false⟩

/-- Write bytes of a CQ slot: to host memory for the owner, or to device memory through its allotment, which must be
PINNED (R208, R209). -/
def cqWrite (r slot : Nat) (bs : List Byte) (s : State) : Option VaErr × State :=
  let addr := s.rd64 (R.cqBase r) + 16 * slot
  if s.get (F.cqCfgSpace r) = 0 then (none, hostWrite (s.cqFn r) addr bs s)
  else vaWrite (ringReq 1) (s.cqFn r) (s.get (F.cqCfgAllot r)) addr bs true s

/-- Count a written completion and send the CQ's vector when R218 asks for it. -/
def signalCq (r : Nat) (now : Bool) (s : State) : State :=
  let n := (s.host.unsignalled.find? (fun e => e.1 = r)).elim 0 (fun e => e.2) + 1
  let rest := s.host.unsignalled.filter (fun e => e.1 ≠ r)
  if s.get (F.cqCfgIen r) = 1 ∧ (now ∨ s.get (F.cqCfgCount r) + 1 ≤ n) then
    sendMsi (s.cqFn r) (s.get (F.cqCfgVector r)) { s with host := { s.host with unsignalled := rest } }
  else { s with host := { s.host with unsignalled := (r, n) :: rest } }

/-- CQ_FULL counts the transition to full (R217). -/
def countFull (r : Nat) (s : State) : State := if s.cqFull r then s.bump (F.cqCountCqFull r) 1 else s

/-- Write a completion into its CQ, which has space: the slot, the tail and phase, the interrupt. A failing write to a
ring in device memory halts the ring with FAULT; one that meets a shut island waits (R209). -/
def writeCompletion (c : Completion) (s : State) : State :=
  let t := s.get (F.cqStatusTail c.cq)
  let w := cqWrite c.cq t (completionBytes s c) s
  match w.1 with
  | some (.err e) =>
    if e.status = 0x10 ∨ e.status = 0x11 then
      { s with host := { s.host with waiting := c :: s.host.waiting } }
    else haltCq c.cq 3 (w.2.bump (F.cqCountCqLost c.cq) 1)
  | some (.fault reason level va) =>
    let fr : FaultRec := {
      stream := .ring true c.cq, va := va, tag := 0, reason := reason, access := .write,
      allot := s.get (F.cqCfgAllot c.cq), fatal := true, cls := 1, level := level, source := 60,
      unit := 0xFF, sq := 0xFF, timeUs := 0 }
    haltCq c.cq 3 ((reportFault (s.cqFn c.cq) fr w.2).2.bump (F.cqCountCqLost c.cq) 1)
  | none =>
    let nt := (t + 1) % s.cqSize c.cq
    let s1 := w.2.put (F.cqStatusTail c.cq) nt
    let s2 := if nt = 0 then s1.put (F.cqStatusPhase c.cq) (1 - s1.get (F.cqStatusPhase c.cq)) else s1
    signalCq c.cq (c.cls == 0 || c.irqNow) (countFull c.cq s2)

/-- Give a completion to the completion engine: lost while island 60 is shut, discarded for a DISABLED CQ, counted in
CQ_LOST for a HALTED one, held in order while the CQ is full (R209, R217). -/
def postCompletion (c : Completion) (s : State) : State :=
  let st := s.get (F.cqStatusState c.cq)
  if s.isShut 60 || st == RING_DISABLED then s
  else if st = RING_HALTED then s.bump (F.cqCountCqLost c.cq) 1
  else if s.cqFull c.cq || s.host.waiting.any (fun w => w.cq = c.cq) then
    { s with host := { s.host with waiting := s.host.waiting ++ [c] } }
  else writeCompletion c s

/-- Write the waiting completions of a CQ as far as it has space; `fuel` bounds their number. -/
def drainCq (r : Nat) : Nat → State → State
  | 0, s => s
  | fuel + 1, s =>
    match s.host.waiting.find? (fun c => c.cq = r) with
    | none => s
    | some c =>
      if s.cqFull r || s.get (F.cqStatusState r) ≠ RING_ENABLED then s
      else
        let i := s.host.waiting.findIdx (fun c => c.cq = r)
        drainCq r fuel (writeCompletion c { s with host := { s.host with waiting := s.host.waiting.eraseIdx i } })

/-- The result of an entry: STATUS, DETAIL, INFO and COUNT of its completion. -/
structure Result where
  status : Nat
  detail : Nat
  info   : Nat
  count  : Nat
  deriving DecidableEq, Repr

/-- OK with a count. -/
def Result.ok (count : Nat) : Result := ⟨0, 0, 0, count⟩

/-- INTERNAL with a DETAIL. -/
def Result.internal (detail count : Nat) : Result := ⟨0xF0, detail, 0, count⟩

/-- STALE_EPOCH or ISLAND_RESET of an island: DW1 is the word of Table 1.3, bit for bit (R216). -/
def State.resultOfIsland (s : State) (status n count : Nat) : Result :=
  let w := s.errorWord status n
  ⟨slice w 0 8, slice w 8 8, slice w 16 16, count⟩

/-- The result that reports a failed memory access. -/
def State.resultOfErr (s : State) (e : MemErr) (count : Nat) : Result :=
  if e.status = 0x10 ∨ e.status = 0x11 then s.resultOfIsland e.status e.island count
  else ⟨e.status, e.detail, 0, count⟩

/-- An SQ in DRAINING with no dispatched entry left reaches DISABLED (R224). -/
def settleSq (r : Nat) (s : State) : State :=
  if s.get (F.sqStatusState r) = RING_DRAINING ∧ s.host.entries.all (fun e => e.sq ≠ r) then disableSq r s else s

/-- End a dispatched entry with one completion (R213), unless a function reset discards it (R223). -/
def completeEntry (uid : Nat) (r : Result) (s : State) : State :=
  match s.entry uid with
  | none => s
  | some e =>
    let s1 := { s with host := { s.host with entries := s.host.entries.filter (fun x => x.uid ≠ uid) } }
    let c := ⟨e.sq, s1.get (F.sqCfgCq e.sq), e.tag, r.status, r.detail, r.info, r.count, e.cls, e.irqNow⟩
    settleSq e.sq (if e.discard then s1 else postCompletion c s1)

/-- Complete an entry of an SQ that was never dispatched (R213 steps 1–5, Table 7.2). -/
def completeHead (sq tag cls : Nat) (irqNow : Bool) (r : Result) (s : State) : State :=
  postCompletion ⟨sq, s.get (F.sqCfgCq sq), tag, r.status, r.detail, r.info, r.count, cls, irqNow⟩ s

end Sys2Proof.Machine
end

