-- ==== Sys2Proof/Machine/Doorbell.lean ====
section
/-! DEFINITION. Doorbells once they have reached island 60: the tail of an SQ and the head of a CQ (spec/08 R204, R208,
R211; spec/07 Table 7.2; spec/22 R520). -/
namespace Sys2Proof.Machine

/-- REASON codes of Table 22.2 that hold when a doorbell arrives: 1 ASPM L1, 4 Gardener 0 not open, swapped or held by a
replan, 9 an entry to a power state or a state deeper than Shade. -/
def State.arrivalReasons (s : State) : Nat :=
  let ph := s.get F.planStatusPhase
  let replan := (ph = 3 ∨ ph = 4) ∧ s.plan.job.elim false (fun j => j.op != 2)
  listMask ((if s.get F.hostqLinkAspmL1 = 1 then [1] else []) ++
    (if !s.isOpen 56 || s.fw.hotSwap.elim false (fun h => h.1 == 1) || decide replan then [4] else []) ++
    (if s.get F.pwrStatusPhase ≠ 0 ∨ 2 ≤ s.power then [9] else []))

/-- A tail doorbell value of an ENABLED SQ acts (R211): invalid, it halts the SQ with BAD_DOORBELL. `us` is when it
arrived. -/
def takeTail (r tail us : Nat) (shade : Bool) (reasons : Nat) (s : State) : State :=
  let size := s.sqSize r
  let head := s.get (F.sqStatusHead r)
  let old := s.get (F.sqTailValue r)
  let fwd := fun (x : Nat) => (x + size - head) % size
  if size ≤ tail ∨ fwd tail < fwd old then haltSq r 1 s
  else if tail = old then s
  else
    let s1 := s.put (F.sqTailValue r) tail
    let d : Door := { sq := r, tail := tail, us := us, shade := shade, first := if head = old then some old else none,
                      reasons := reasons }
    { s1 with host := { s1.host with doors := s1.host.doors ++ [d] } }

/-- A tail doorbell of the owner reaches SQ r: discarded and counted unless the SQ is ENABLED, latched while Gardener 0
is closed (Table 8.4, Table 7.2). -/
def ringTail (r tail : Nat) (shade : Bool) (s : State) : State :=
  if s.get (F.sqStatusState r) ≠ RING_ENABLED then s.bump (F.sqTailDiscarded r) 1
  else if s.isShut 56 then
    { s with host := { s.host with latched := (r, tail, s.timeUs) :: s.host.latched.filter (fun l => l.1 ≠ r) } }
  else takeTail r tail s.timeUs shade s.arrivalReasons s

/-- Gardener 0 reads the latched doorbells once it has been reloaded (R211). -/
def readLatched (s : State) : State :=
  let s1 := s.each s.host.latched.reverse (fun l t =>
    if t.get (F.sqStatusState l.1) = RING_ENABLED then takeTail l.1 l.2.1 l.2.2 false (2 ^ 4) t else t)
  { s1 with host := { s1.host with latched := [] } }

/-- A head doorbell of the owner reaches CQ r: valid from its head to its tail, it frees slots and waiting completions
are written; invalid, it halts the CQ with BAD_DOORBELL (R211, R217). -/
def ringHead (r head : Nat) (s : State) : State :=
  let size := s.cqSize r
  let old := s.get (F.cqHeadValue r)
  let fwd := fun (x : Nat) => (x + size - old) % size
  if s.get (F.cqStatusState r) ≠ RING_ENABLED then s.bump (F.cqHeadDiscarded r) 1
  else if size ≤ head ∨ fwd (s.get (F.cqStatusTail r)) < fwd head then haltCq r 1 s
  else drainCq r s.host.waiting.length (s.put (F.cqHeadValue r) head)

end Sys2Proof.Machine
end

