-- ==== Sys2Proof/Machine/Link.lean ====
section
/-! DEFINITION. The DisplayPort link of the display: training and loss (spec/17 R420, spec/03 R93). -/
namespace Sys2Proof.Machine

/-- A configuration carries the mode: its pixel stream fits in 80 % of the lanes (R93). -/
def carries (d : DisplayCfg) (lanes rate : Nat) : Bool :=
  10 * (d.khz * (if d.bpc = 0 then 24 else 30)) ≤ 8 * (lanes * laneKbps rate)

/-- Configurations in the order of R420: the record's lanes and rate, or the sink's maxima if lower, each lower rate,
then half the lanes from that rate downward. -/
def trainOrder (d : DisplayCfg) (k : Sink) : List (Nat × Nat) :=
  let l := min d.lanes k.lanes
  let rs := (List.range (min d.linkRate k.rate + 1)).reverse
  rs.map (fun r => (l, r)) ++ (if l / 2 = 0 then [] else rs.map (fun r => (l / 2, r)))

/-- Train the link with the sink that is connected: the first configuration that trains and carries the mode, or
FAILED (R420). -/
def trainLink (s : State) : State :=
  match s.plan.active.display, s.disp.sink with
  | some d, some k =>
    match (trainOrder d k).find? (fun c => k.works.contains c && carries d c.1 c.2) with
    | some c => s.puts [(F.dispStatusLink, 2), (F.dispStatusLanes, c.1), (F.dispStatusRate, c.2)]
    | none => s.puts [(F.dispStatusLink, 3), (F.dispStatusLanes, 0), (F.dispStatusRate, 0)]
  | _, _ => s

/-- The link goes down. -/
def dropLink (s : State) : State :=
  s.puts [(F.dispStatusLink, 0), (F.dispStatusLanes, 0), (F.dispStatusRate, 0)]

/-- Island 71 opens: SINK shows DP_HPD, and outside a start the link trains (R420; "When Gardener 1 or the display
island resets"). -/
def openDisplay (s : State) : State :=
  let s1 := s.put F.dispStatusSink (b2n s.disp.sink.isSome)
  if s1.boot.starting then s1 else trainLink s1

/-- Island 71 closes: only the sink outside stays known. -/
def closeDisplay (s : State) : State :=
  { s with disp := { DisplayUnit.reset with sink := s.disp.sink } }

end Sys2Proof.Machine
end

