-- ==== Sys2Proof/Machine/Fp.lean ====
section
/-! DEFINITION. Number formats, rounding, exceptions and conversions (spec/14): every value is a pattern of bits as a
natural number, every finite value m · 2^e is exact until one rounding. -/
namespace Sys2Proof.Machine

/-! Table 14.5 flags, by weight -/
def INVALID : Nat := 1
def DIVZERO : Nat := 2
def OVERFLOW : Nat := 4
def UNDERFLOW : Nat := 8
def INEXACT : Nat := 16
def SAT : Nat := 32
def OVF : Nat := 64
def NAN_IN : Nat := 128

/-- A floating-point format (Table 14.1); `noInf`: E4M3, which has no infinity. -/
structure Fmt where
  ebits : Nat
  mbits : Nat
  noInf : Bool
  deriving DecidableEq, Repr

def fp32 : Fmt := ⟨8, 23, false⟩
def fp16 : Fmt := ⟨5, 10, false⟩
def bf16 : Fmt := ⟨8, 7, false⟩
def e4m3 : Fmt := ⟨4, 3, true⟩
def e5m2 : Fmt := ⟨5, 2, false⟩

/-- The exponent bias. -/
def Fmt.bias (f : Fmt) : Nat := 2 ^ (f.ebits - 1) - 1

/-- The width of a format in bits. -/
def Fmt.width (f : Fmt) : Nat := 1 + f.ebits + f.mbits

/-- The sign bit set or not. -/
def Fmt.signed (f : Fmt) (neg : Bool) (mag : Nat) : Nat := mag + (if neg then 2 ^ (f.ebits + f.mbits) else 0)

/-- The largest finite magnitude. -/
def Fmt.maxMag (f : Fmt) : Nat := if f.noInf then 2 ^ (f.ebits + f.mbits) - 2 else (2 ^ f.ebits - 1) * 2 ^ f.mbits - 1

/-- ±∞, or the largest finite value where the format has none (R356). -/
def Fmt.inf (f : Fmt) (neg : Bool) : Nat :=
  f.signed neg (if f.noInf then f.maxMag else (2 ^ f.ebits - 1) * 2 ^ f.mbits)

/-- The canonical NaN (Table 14.1). -/
def Fmt.nan (f : Fmt) : Nat :=
  if f.noInf then 2 ^ (f.ebits + f.mbits) - 1 else (2 ^ f.ebits - 1) * 2 ^ f.mbits + 2 ^ (f.mbits - 1)

/-- A decoded value: m · 2^e with a sign, an infinity, a NaN. -/
inductive FVal where
  | num (neg : Bool) (m : Nat) (e : Int)
  | inf (neg : Bool)
  | nan (signalling : Bool)
  deriving DecidableEq, Repr

/-- Decode a pattern (R352, R354). -/
def Fmt.decode (f : Fmt) (b : Nat) : FVal :=
  let neg := bit b (f.ebits + f.mbits)
  let ex := slice b f.mbits f.ebits
  let fr := slice b 0 f.mbits
  if f.noInf && ex = 2 ^ f.ebits - 1 && fr = 2 ^ f.mbits - 1 then .nan false
  else if !f.noInf && ex = 2 ^ f.ebits - 1 then
    (if fr = 0 then .inf neg else .nan (fr < 2 ^ (f.mbits - 1)))
  else if ex = 0 then .num neg fr (1 - f.bias - f.mbits)
  else .num neg (2 ^ f.mbits + fr) ((ex : Int) - f.bias - f.mbits)

/-- A rounding mode (R357); SR carries the generator's draw. -/
inductive Rnd where
  | rn
  | rz
  | sr (r : Nat)
  deriving DecidableEq, Repr

/-- The magnitude m · 2^e (and a nonzero rest beyond it where `sticky`) as a multiple of 2^q, rounded in a mode, and
whether it is inexact (R357). -/
def roundAt (mode : Rnd) (m : Nat) (e q : Int) (sticky : Bool) : Nat × Bool :=
  if q ≤ e then (m * 2 ^ (e - q).toNat, sticky)
  else
    let k := (q - e).toNat
    let t := m / 2 ^ k
    let rest := m % 2 ^ k
    let inexact := rest ≠ 0 || sticky
    let up := match mode with
      | .rn => decide (2 ^ k < 2 * rest) || (decide (2 * rest = 2 ^ k) && (sticky || t % 2 == 1))
      | .rz => false
      | .sr r => inexact && decide (r < rest * 2 ^ 32 / 2 ^ k)
    (if up then t + 1 else t, inexact)

/-- A result with the flags it raises. -/
structure FRes where
  bits  : Nat
  flags : Nat
  /-- an invalid operation whose result is a NaN, and a NaN operand (R366) -/
  gen   : Bool
  nanOp : Bool
  deriving DecidableEq, Repr

/-- A result without events. -/
def FRes.plain (b fl : Nat) : FRes := ⟨b, fl, false, false⟩

/-- An exponent that floor(log2 m) gives. -/
def topExp (m : Nat) (e : Int) : Int := e + Nat.log2 m

/-- Overflow in a mode (R356). -/
def Fmt.overflow (f : Fmt) (mode : Rnd) (neg : Bool) : FRes :=
  .plain (match mode with
    | .rz => f.signed neg f.maxMag
    | _ => f.inf neg) (OVERFLOW + INEXACT)

/-- Round an exact magnitude to a format: subnormals, overflow and underflow under R352, R356 and R357. Tininess is
judged after rounding with an unbounded exponent. -/
def Fmt.round (f : Fmt) (mode : Rnd) (neg : Bool) (m : Nat) (e : Int) (sticky : Bool) : FRes :=
  if m = 0 then .plain (f.signed neg 0) 0
  else
    let emin : Int := 1 - f.bias
    let q := max (topExp m e) emin - f.mbits
    let r := roundAt mode m e q sticky
    let free := roundAt mode m e (topExp m e - f.mbits) sticky
    let tiny := decide (topExp m e < emin) &&
      !(topExp m e == emin - 1 && free.1 == 2 ^ (f.mbits + 1))
    let mag := if r.1 < 2 ^ f.mbits then r.1 else r.1 + ((q - (emin - f.mbits)).toNat) * 2 ^ f.mbits
    if f.maxMag < mag then f.overflow mode neg
    else .plain (f.signed neg mag) ((if r.2 then INEXACT else 0) + (if r.2 && tiny then UNDERFLOW else 0))

/-- A canonical NaN; the operands tell whether the operation was invalid (R354, R355). -/
def Fmt.nanRes (f : Fmt) (invalid nanOp quiet : Bool) : FRes :=
  ⟨f.nan, (if invalid then INVALID else 0) + (if quiet then NAN_IN else 0), invalid, nanOp⟩

/-- An operand is a NaN. -/
def FVal.isNan : FVal → Bool
  | .nan _ => true
  | _ => false

/-- An operand is a signalling NaN. -/
def FVal.isSnan : FVal → Bool
  | .nan s => s
  | _ => false

/-- An operand is a quiet NaN. -/
def FVal.isQnan : FVal → Bool
  | .nan s => !s
  | _ => false

/-- The sign. -/
def FVal.neg : FVal → Bool
  | .num n _ _ => n
  | .inf n => n
  | .nan _ => false

/-- The value with its sign turned. -/
def FVal.flip : FVal → FVal
  | .num n m e => .num (!n) m e
  | .inf n => .inf (!n)
  | .nan s => .nan s

/-- The exact product; none for 0 × ∞. -/
def FVal.mul (a b : FVal) : Option FVal :=
  match a, b with
  | .num n m e, .num n' m' e' => some (.num (n != n') (m * m') (e + e'))
  | .inf n, .num n' m' _ => if m' = 0 then none else some (.inf (n != n'))
  | .num n m _, .inf n' => if m = 0 then none else some (.inf (n != n'))
  | .inf n, .inf n' => some (.inf (n != n'))
  | _, _ => some (.nan false)

/-- The exact sum; none for ∞ − ∞. A sum that cancels is +0. -/
def FVal.add (a b : FVal) : Option FVal :=
  match a, b with
  | .num n m e, .num n' m' e' =>
    if m = 0 ∧ m' = 0 then some (.num (n && n') 0 0)
    else
      let lo := min e e'
      let x : Int := (m * 2 ^ (e - lo).toNat : Nat)
      let y : Int := (m' * 2 ^ (e' - lo).toNat : Nat)
      let z := (if n then -x else x) + (if n' then -y else y)
      some (.num (decide (z < 0)) z.natAbs lo)
  | .inf n, .inf n' => if n = n' then some (.inf n) else none
  | .inf n, .num _ _ _ => some (.inf n)
  | .num _ _ _, .inf n => some (.inf n)
  | _, _ => some (.nan false)

/-- Round an exact value to a format. -/
def Fmt.ofVal (f : Fmt) (mode : Rnd) : FVal → FRes
  | .num n m e => f.round mode n m e false
  | .inf n => if f.noInf then .plain (f.inf n) (OVERFLOW + INEXACT) else .plain (f.inf n) 0
  | .nan s => f.nanRes s true (!s)

/-- Finish an operation on operands: NaN operands, an invalid operation, or a rounded value (R354–R356). -/
def Fmt.finish (f : Fmt) (mode : Rnd) (ops : List FVal) (v : Option FVal) : FRes :=
  let s := ops.any (fun x => x.isSnan)
  let q := ops.any (fun x => x.isQnan)
  if s || q then f.nanRes (s || v.isNone) true q
  else match v with
    | none => f.nanRes true false false
    | some x => f.ofVal mode x

/-- a + b. -/
def Fmt.add (f : Fmt) (mode : Rnd) (a b : Nat) : FRes :=
  f.finish mode [f.decode a, f.decode b] ((f.decode a).add (f.decode b))

/-- a − b. -/
def Fmt.sub (f : Fmt) (mode : Rnd) (a b : Nat) : FRes :=
  f.finish mode [f.decode a, f.decode b] ((f.decode a).add (f.decode b).flip)

/-- a × b. -/
def Fmt.mul (f : Fmt) (mode : Rnd) (a b : Nat) : FRes :=
  f.finish mode [f.decode a, f.decode b] ((f.decode a).mul (f.decode b))

/-- a × b + c with one rounding, the operands of formats `fa` and the sum of format `f`. -/
def fmaOf (fa f : Fmt) (mode : Rnd) (a b c : Nat) : FRes :=
  let x := fa.decode a
  let y := fa.decode b
  let z := f.decode c
  f.finish mode [x, y, z] ((x.mul y).bind (fun p => p.add z))

/-- a × b + c. -/
def Fmt.fma (f : Fmt) (mode : Rnd) (a b c : Nat) : FRes := fmaOf f f mode a b c

/-- a < b of two values that are no NaN; −0 and +0 are equal. -/
def FVal.lt (a b : FVal) : Bool :=
  match a, b with
  | .inf n, .inf n' => n && !n'
  | .inf n, _ => n
  | _, .inf n' => !n'
  | .num n m e, .num n' m' e' =>
    let lo := min e e'
    let x : Int := (m * 2 ^ (e - lo).toNat : Nat)
    let y : Int := (m' * 2 ^ (e' - lo).toNat : Nat)
    decide ((if n then -x else x) < (if n' then -y else y))
  | _, _ => false

/-- a = b of two values that are no NaN. -/
def FVal.eqv (a b : FVal) : Bool := !a.isNan && !b.isNan && !a.lt b && !b.lt a

/-- minimumNumber and maximumNumber (R331): a NaN loses against a number, −0 lies below +0. -/
def Fmt.minMax (f : Fmt) (isMax : Bool) (a b : Nat) : FRes :=
  let x := f.decode a
  let y := f.decode b
  let fl := (if x.isSnan || y.isSnan then INVALID else 0) + (if x.isQnan || y.isQnan then NAN_IN else 0)
  let nanOp := x.isNan || y.isNan
  if x.isNan && y.isNan then ⟨f.nan, fl, x.isSnan || y.isSnan, true⟩
  else if x.isNan then ⟨b, fl, false, nanOp⟩
  else if y.isNan then ⟨a, fl, false, nanOp⟩
  else
    let less := x.lt y || (x.eqv y && x.neg && !y.neg)
    ⟨if less != isMax then a else b, fl, false, false⟩

/-- Round a value to an integral value, toward −∞ (0), toward +∞ (1) or to nearest even (2). -/
def FVal.integral (how : Nat) : FVal → FVal
  | .num n m e =>
    if 0 ≤ e then .num n m e
    else
      let k := (-e).toNat
      let t := m / 2 ^ k
      let rest := m % 2 ^ k
      let up := match how with
        | 0 => n && rest != 0
        | 1 => !n && rest != 0
        | _ => decide (2 ^ k < 2 * rest) || (decide (2 * rest = 2 ^ k) && t % 2 == 1)
      .num n (if up then t + 1 else t) 0
  | v => v

/-- FLOOR, CEIL, RNDNE (R331). -/
def Fmt.integral (f : Fmt) (mode : Rnd) (how a : Nat) : FRes :=
  f.finish mode [f.decode a] (some ((f.decode a).integral how))

/-- FRACT: a − floor(a) (R331). -/
def Fmt.fract (f : Fmt) (mode : Rnd) (a : Nat) : FRes :=
  f.finish mode [f.decode a] ((f.decode a).add ((f.decode a).integral 0).flip)

/-- The integer square root of `m`, found bit by bit from bit `n − 1` down. -/
def isqrt (m : Nat) : Nat → Nat → Nat
  | 0, r => r
  | n + 1, r =>
    let t := r + 2 ^ n
    isqrt m n (if t * t ≤ m then t else r)

/-- The correctly rounded square root (R331, R355). -/
def Fmt.sqrt (f : Fmt) (mode : Rnd) (a : Nat) : FRes :=
  match f.decode a with
  | .nan s => f.nanRes s true (!s)
  | .inf true => f.nanRes true false false
  | .inf false => .plain (f.inf false) 0
  | .num n m e =>
    if m = 0 then .plain (f.signed n 0) 0
    else if n then f.nanRes true false false
    else
      let e1 := if e % 2 = 0 then e else e - 1
      let m1 := (if e % 2 = 0 then m else 2 * m) * 2 ^ 128
      let r := isqrt m1 (Nat.log2 m1 / 2 + 1) 0
      f.round mode false r (e1 / 2 - 64) (r * r ≠ m1)

/-- The quotient of an exact value by a positive integer, correctly rounded (R374). -/
def Fmt.divNat (f : Fmt) (mode : Rnd) (a n : Nat) : FRes :=
  match f.decode a with
  | .num s m e => f.round mode s (m * 2 ^ 128 / n) (e - 128) (m * 2 ^ 128 % n ≠ 0)
  | .inf s => .plain (f.inf s) 0
  | .nan s => f.nanRes s true (!s)

/-- A magnitude picked for a result that is not exact: INEXACT, and UNDERFLOW where it is tiny (R356). -/
def Fmt.picked (f : Fmt) (neg : Bool) (mag : Nat) : FRes :=
  .plain (f.signed neg mag) (INEXACT + if mag < 2 ^ f.mbits then UNDERFLOW else 0)

/-- A result within one ulp of the exact pattern `mag`: a free choice of it and its neighbours. -/
def Fmt.nearExact (f : Fmt) (neg : Bool) (mag choice : Nat) : FRes :=
  let r := min (mag - 1 + choice % (if mag = 0 then 2 else 3)) f.maxMag
  if r = mag then .plain (f.signed neg mag) 0 else f.picked neg r

/-- A result whose error is at most one ulp of a magnitude m · 2^e (R331): a free choice of the two values around it, or
of an exact value and its neighbours. -/
def Fmt.ulpChoice (f : Fmt) (neg : Bool) (m : Nat) (e : Int) (sticky : Bool) (choice : Nat) : FRes :=
  let r := f.round .rz neg m e sticky
  let lo := slice r.bits 0 (f.ebits + f.mbits)
  if bit r.flags 4 then f.picked neg (min (lo + choice % 2) f.maxMag) else f.nearExact neg lo choice

/-- A free choice of a magnitude from one ulp below `lo` up to `hi`, for a result that lies between them. -/
def Fmt.between (f : Fmt) (neg : Bool) (lo hi choice : Nat) : FRes :=
  f.picked neg (min (lo - 1 + choice % (hi + 1 - (lo - 1))) f.maxMag)

/-- The pattern of a whole number. -/
def wholeMag (k : Nat) : Nat := (fp32.round .rz false k 0 false).bits

/-- RCP: 1 / a (R331, R355). -/
def rcp (mode : Rnd) (choice a : Nat) : FRes :=
  match fp32.decode a with
  | .nan s => fp32.nanRes s true (!s)
  | .inf n => .plain (fp32.signed n 0) 0
  | .num n m e =>
    if m = 0 then .plain (fp32.inf n) DIVZERO
    else
      let r := fp32.round .rz n (2 ^ 128 / m) (-e - 128) (2 ^ 128 % m ≠ 0)
      if bit r.flags 2 then fp32.overflow mode n
      else fp32.ulpChoice n (2 ^ 128 / m) (-e - 128) (2 ^ 128 % m ≠ 0) choice

/-- RSQ: 1 / √a (R331, R355). -/
def rsq (choice a : Nat) : FRes :=
  match fp32.decode a with
  | .nan s => fp32.nanRes s true (!s)
  | .inf true => fp32.nanRes true false false
  | .inf false => .plain 0 0
  | .num n m e =>
    if m = 0 then .plain (fp32.inf n) DIVZERO
    else if n then fp32.nanRes true false false
    else
      let e1 := if e % 2 = 0 then e else e - 1
      let m1 := if e % 2 = 0 then m else 2 * m
      let x := 2 ^ 256 / m1
      let r := isqrt x 130 0
      fp32.ulpChoice false r (-(e1 / 2) - 128) (2 ^ 256 % m1 ≠ 0 || r * r ≠ x) choice

/-- EXP2: a free value within one ulp of an exact power of two, else between the powers around it (R331, R356). -/
def exp2 (mode : Rnd) (choice a : Nat) : FRes :=
  match fp32.decode a with
  | .nan s => fp32.nanRes s true (!s)
  | .inf true => .plain 0 0
  | .inf false => .plain (fp32.inf false) 0
  | .num n m e =>
    let whole := 0 ≤ e ∨ m % 2 ^ (-e).toNat = 0
    let fl : Int := if 0 ≤ e then (if n then -((m * 2 ^ e.toNat : Nat) : Int) else (m * 2 ^ e.toNat : Nat))
      else (if n then -((ceilDiv m (2 ^ (-e).toNat) : Nat) : Int) else (m / 2 ^ (-e).toNat : Nat))
    if 128 ≤ fl then fp32.overflow mode false
    else if fl < -149 then fp32.picked false (choice % 2)
    else
      let lo := (fp32.round .rz false 1 fl false).bits
      if whole then fp32.nearExact false lo choice
      else fp32.between false lo (fp32.round .rz false 1 (fl + 1) false).bits choice

/-- LOG2: a free value within one ulp of an exact whole result, else between the whole numbers around it (R331, R355). -/
def log2 (choice a : Nat) : FRes :=
  match fp32.decode a with
  | .nan s => fp32.nanRes s true (!s)
  | .inf true => fp32.nanRes true false false
  | .inf false => .plain (fp32.inf false) 0
  | .num n m e =>
    if m = 0 then .plain (fp32.inf true) DIVZERO
    else if n then fp32.nanRes true false false
    else
      let k := topExp m e
      if m = 2 ^ Nat.log2 m then fp32.nearExact (decide (k < 0)) (wholeMag k.natAbs) choice
      else if k < 0 then fp32.between true (wholeMag (k + 1).natAbs) (wholeMag k.natAbs) choice
      else fp32.between false (wholeMag k.natAbs) (wholeMag (k + 1).natAbs) choice

/-- SIN and COS of finite operands in turns (R331, R355): a free value within one ulp of the exact one at a multiple of a
quarter turn, else between −1.0 and 1.0. -/
def sinCos (isCos : Bool) (choice a : Nat) : FRes :=
  match fp32.decode a with
  | .nan s => fp32.nanRes s true (!s)
  | .inf _ => fp32.nanRes true false false
  | .num n m e =>
    let q : Nat := if 0 ≤ e + 2 then m * 2 ^ (e + 2).toNat % 4 else m / 2 ^ (-(e + 2)).toNat % 4
    let quarter := 0 ≤ e + 2 ∨ m % 2 ^ (-(e + 2)).toNat = 0
    let at_ := if isCos then (q + 1) % 4 else if n then (4 - q) % 4 else q
    if quarter then
      (if at_ % 2 = 0 then fp32.nearExact (if choice % 2 = 1 then bit choice 1 else n && !isCos) 0 choice else fp32.nearExact (at_ == 3) 0x3F800000 choice)
    else fp32.between (choice % 2 == 1) 0 0x3F800000 (choice / 2)

/-! Elements of packed types (Table 13.7) -/

/-- The floating-point format of a type code. -/
def typeFmt : Nat → Option Fmt
  | 0 => some fp32
  | 1 => some fp16
  | 2 => some bf16
  | 8 => some e4m3
  | 9 => some e5m2
  | _ => none

/-- The bits of an element of a type code. -/
def elemBits : Nat → Nat
  | 0 => 32 | 3 => 32 | 4 => 32
  | 1 => 16 | 2 => 16 | 5 => 16
  | 10 => 4
  | _ => 8

/-- A type code names a signed integer type. -/
def typeSigned (t : Nat) : Bool := t == 3 || t == 5 || t == 6 || t == 10

/-- The range of an integer type. -/
def intRange (t : Nat) : Int × Int :=
  if typeSigned t then (-(2 ^ (elemBits t - 1) : Int), (2 ^ (elemBits t - 1) : Int) - 1) else (0, (2 ^ elemBits t : Int) - 1)

/-- The value of an integer element. -/
def intVal (t b : Nat) : Int := if typeSigned t then sext (elemBits t) b else ((b % 2 ^ elemBits t : Nat) : Int)

/-- An integer saturated to a type, with SAT where it is (R360). -/
def satTo (t : Nat) (v : Int) : FRes :=
  let r := intRange t
  let c := max r.1 (min v r.2)
  .plain (ofInt (elemBits t) c) (if c = v then 0 else SAT)

/-- FP to integer (Table 14.3). -/
def fpToInt (mode : Rnd) (t : Nat) (v : FVal) : FRes :=
  let r := intRange t
  match v with
  | .nan s => ⟨0, INVALID + (if s then 0 else NAN_IN), false, true⟩
  | .inf n => .plain (ofInt (elemBits t) (if n then r.1 else r.2)) INVALID
  | .num n m e =>
    let q := roundAt mode m e 0 false
    let z : Int := if n then -(q.1 : Int) else q.1
    if z < r.1 then .plain (ofInt (elemBits t) r.1) INVALID
    else if r.2 < z then .plain (ofInt (elemBits t) r.2) INVALID
    else .plain (ofInt (elemBits t) z) (if q.2 then INEXACT else 0)

/-- Convert one element from a type to a type (R360). -/
def convert (mode : Rnd) (src dst b : Nat) : FRes :=
  match typeFmt src, typeFmt dst with
  | some f, some g => g.ofVal mode (f.decode b)
  | some f, none => fpToInt mode dst (f.decode b)
  | none, some g =>
    let v := intVal src b
    g.round mode (decide (v < 0)) v.natAbs 0 false
  | none, none => satTo dst (intVal src b)

/-- Convert an exact integer to FP32 (R361). -/
def intToFp32 (mode : Rnd) (v : Int) : FRes := fp32.round mode (decide (v < 0)) v.natAbs 0 false

/-- RELU: negative values become 0; a NaN stays. -/
def relu32 (b : Nat) : Nat :=
  match fp32.decode b with
  | .nan _ => b
  | v => if v.neg then 0 else b

/-- One draw of a 32-bit xorshift generator (R358). -/
def xorshift (x : Nat) : Nat :=
  let m := 2 ^ 32
  let a := Nat.xor x (x * 2 ^ 13 % m)
  let b := Nat.xor a (a / 2 ^ 17)
  Nat.xor b (b * 2 ^ 5 % m)

/-- A generator at the start of a tile (R358). -/
def seedGen (seed tile g : Nat) : Nat :=
  let x := Nat.xor seed (tile % 2 ^ 25 * 2 ^ 7 + g)
  if x = 0 then 0x9E3779B9 else x

end Sys2Proof.Machine
end

