-- ==== Sys2Proof/Machine/Close.lean ====
section
/-! DEFINITION. Closing, opening, powering up and powering down islands, with what each unit loses or keeps
(spec/01 R21, R24, R33, R35, R40; the reset columns of spec/00 R13). -/
namespace Sys2Proof.Machine

/-- The rank of a close cause (Table 1.4); the lowest rank wins among merged requests. -/
def causeRank (c : Nat) : Nat :=
  match c with
  | 1 => 7 | 2 => 6 | 3 => 2 | 4 => 5 | 5 => 4 | 6 => 3 | 7 => 8 | 8 => 9 | 9 => 10 | 10 => 1
  | _ => 11

/-- The cause that a merged cycle records (R35). -/
def mergeCause (old new : Nat) : Nat := if causeRank new < causeRank old then new else old

/-- A word after a reset that keeps some bits and gives the others their Cold value (R13). -/
def resetWord (kept : Nat → Word) (off : Nat) (w : Word) : Word :=
  (w &&& kept off) ||| (coldWord off &&& ~~~ kept off)

/-- Apply a reset column to the register words that a test names. -/
def resetRegs (kept : Nat → Word) (named : Nat → Bool) (s : State) : State :=
  { s with regs := s.regs.filterMap (fun e =>
      if named e.1 then
        let v := resetWord kept e.1 e.2
        if v = coldWord e.1 then none else some (e.1, v)
      else some e) }

/-- The Wake column for the registers of one island. -/
def wakeRegs (n : Nat) (s : State) : State := resetRegs wakeKept (fun off => ownerIsland off == some n) s

/-- The Cold column for the registers of one island. -/
def coldRegs (n : Nat) (s : State) : State := resetRegs (fun _ => 0) (fun off => ownerIsland off == some n) s

/-- Record a close: state, cause, count and ISLAND_EVENT (R33, Table 1.12). -/
def recordClose (n cause : Nat) (s : State) : State :=
  let s1 := ((s.put (F.islandStateState n) CLOSED).put (F.islandStateLastCause n) cause).bump (F.islandStateCloseCount n) 1
  s1.wr64 R.islandEvent (s.timeUs % 2 ^ 32 + 2 ^ 32 * n + 2 ^ 40 * cause + 2 ^ 44 * s.epoch n)

/-- Answer one tracked request with an error completion; the tag is free afterwards. -/
def answerError (status cause : Nat) (t : Tracked) (s : State) : State :=
  let w0 := s.errorWord status t.dst
  let w := if cause = 11 then w0 - 2 ^ 24 * s.get (F.islandStateLastCause t.dst) + 2 ^ 24 * 11 else w0
  let f := if status = 0x10 then F.islandCountStaleSent t.dst else F.islandCountResetSent t.dst
  let s1 := s.bump f 1
  { s1 with isl := { s1.isl with
      errors := (t.src, BitVec.ofNat 32 w) :: s1.isl.errors,
      tracked := s1.isl.tracked.filter (fun x => x != t) } }

/-- Answer every request pending in an island or held in its crossing with ISLAND_RESET, and discard the replies held
for it (R24, Table 1.2). Its own requests stay with its stop until they are answered (R20, R36). -/
def answerPending (n : Nat) (s : State) : State :=
  let s1 := s.each (s.isl.tracked.filter (fun t => t.dst = n)) (fun t u => answerError 0x11 0 t u)
  let gone := (s1.isl.heldReplies.filter (fun r => r.1 = n)).length
  let s2 := s1.bump32 (R.islandDiscard n) gone
  { s2 with isl := { s2.isl with
      heldReplies := s2.isl.heldReplies.filter (fun r => r.1 ≠ n),
      tracked := s2.isl.tracked.filter (fun t => !s2.isl.heldReplies.contains (n, t.tag) || t.src ≠ n) } }

/-- Translation caches are empty when their island opens (R282), and its stalls end with the island (R295). -/
def clearTlb (n : Nat) (s : State) : State :=
  { s with mmu := { s.mmu with tlb := s.mmu.tlb.filter (fun t => t.island ≠ n) } }

/-- Bed n's memory is cleared (spec/01, "When a bed resets under work"). -/
def clearBedMem (n : Nat) (s : State) : State :=
  { s with mem := { s.mem with bedMem := Memory.fill ramFill s.mem.bedMem (bedBase n) 0x100000 0 } }

/-- A shed slice loses every line; after a HANG the dirty lines lost are counted and reported (R272). -/
def loseSlice (sl cause : Nat) (s : State) : State :=
  let dirty := (s.mem.lines.filter (fun l => l.slice = sl && l.dirty)).length
  let s1 := refreshDirty { s with mem := { s.mem with
    lines := s.mem.lines.filter (fun l => l.slice ≠ sl) } }
  if cause = 10 ∧ 0 < dirty then setGlobal F.globalStatusShedLost (s1.bump32 (R.shedLost sl) dirty) else s1

/-- The holder of a lease. -/
def State.leaseHolder (s : State) (l : Nat) : Nat := s.get (F.fenceLeaseHolder l)

/-- Free a lease: no holder. -/
def freeLease (l : Nat) (s : State) : State :=
  s.puts [(F.fenceLeaseHolder l, 0x7F), (F.fenceLeaseEpoch l, 0), (F.fenceLeaseAgeMs l, 0)]

/-- Grant a free lease to its first waiter (R184). -/
def grantNext (l : Nat) (s : State) : State :=
  if s.leaseHolder l ≠ 0x7F ∨ s.fw.forced.contains l then s else
  match s.fw.waiters.find? (fun w => w.1 = l) with
  | none => s
  | some (_, i, e) =>
    let rest := s.fw.waiters.eraseIdx (s.fw.waiters.findIdx (fun w => w.1 = l))
    let s1 := { s with fw := { s.fw with waiters := rest } }
    s1.puts [(F.fenceLeaseHolder l, i), (F.fenceLeaseEpoch l, e), (F.fenceLeaseAgeMs l, 0),
      (F.fenceLeaseWaiters l, min 15 (rest.filter (fun w => w.1 = l)).length)]

/-- A lease that ends for a command: the command's completion is LEASE_REVOKED and event LEASE is raised (R188). -/
def leaseEnded (l : Nat) (s : State) : State :=
  if s.fw.forCommand.contains l then
    setEvent 7 { s with fw := { s.fw with forCommand := s.fw.forCommand.filter (fun x => x ≠ l) } }
  else s

/-- Release by force of the leases of a closing island other than 0; lease 1 waits for the NAND safe point, lease 5
moves only under its own rules (R185, R186). -/
def forceLeases (n : Nat) (s : State) : State :=
  if n = 0 then s else
  s.each (List.range 5) (fun l t =>
    if t.leaseHolder l = n then
      let t1 := leaseEnded l (t.bump F.fenceLeaseEventsOnClose 1)
      if l = 1 then { t1 with fw := { t1.fw with forced := 1 :: t1.fw.forced.filter (fun x => x ≠ 1) } }
      else grantNext l (freeLease l t1)
    else t)

/-- The processor of an island, if it is one (Table 7.1). -/
def procOf (n : Nat) : Option Nat :=
  match n with
  | 0 => some 0
  | 56 => some 1
  | 57 => some 2
  | 58 => some 3
  | _ => none

/-- The island of a processor. -/
def procIsland (p : Nat) : Nat := if p = 0 then 0 else 55 + p

/-- What island 60 loses when it closes: the open batch and unwritten records, every stall, the completions and reads
that it holds (R209, R295). The stalled streams end with their engines' rules. -/
def loseIsland60 (s : State) : State :=
  { s with
    mmu := { s.mmu with batches := (s.mmu.batches.filter (fun b => b.phase == .written || b.phase == .lost)).map (fun b => { b with phase := .lost }) },
    host := { s.host with waiting := [], unsignalled := [], reads := [] } }

end Sys2Proof.Machine
end

