-- ==== Sys2Proof/Machine/Transfers.lean ====
section
/-! DEFINITION. Hose channels: descriptors, element addresses, slabs, credits, releases and the end of a transfer
(spec/12 R301–R317). -/
namespace Sys2Proof.Machine

/-! The descriptor (Tables 12.2, 12.3, 12.5) -/

/-- CTRL. -/
def hdCtrl (d : List Byte) : Nat := bytesAt d 0 4
/-- DIMS. -/
def hdDims (d : List Byte) : Nat := slice (hdCtrl d) 0 3
/-- The element size in bytes. -/
def hdElem (d : List Byte) : Nat := 2 ^ slice (hdCtrl d) 4 3
/-- SLAB_DIM. -/
def hdSlabDim (d : List Byte) : Nat := slice (hdCtrl d) 8 3
/-- SRC_KIND. -/
def hdKind (d : List Byte) : Nat := slice (hdCtrl d) 12 2
/-- CREDIT_MODE. -/
def hdMode (d : List Byte) : Nat := slice (hdCtrl d) 14 2
/-- RING_SLABS. -/
def hdRing (d : List Byte) : Nat := bytesAt d 0x1A 2
/-- CREDIT. -/
def hdCredit (d : List Byte) : Nat := bytesAt d 0x34 6

/-- The number of elements of dimension i. -/
def hdCount (d : List Byte) (i : Nat) : Nat := bytesAt d (0x10 + 2 * i) 2 + 1

/-- The stride of dimension i ≥ 1 in bytes, of the source or the destination. -/
def hdStride (d : List Byte) (src : Bool) (i : Nat) : Int :=
  let at_ := (if src then 0x1C else 0x28) + 3 * (i - 1)
  sext 24 (bytesAt d at_ 3) * 2 ^ slice (hdCtrl d) (if src then 20 else 24) 3

/-- The elements of a slab. -/
def hdSlabElems (d : List Byte) : Nat := ((List.range (hdSlabDim d)).map (hdCount d)).foldl (· * ·) 1

/-- The number of slabs of a transfer. -/
def hdSlabs (d : List Byte) : Nat :=
  (((List.range (hdDims d)).filter (fun i => hdSlabDim d ≤ i)).map (hdCount d)).foldl (· * ·) 1

/-- The index of dimension i of a running number over dimensions lo … i. -/
def hdIndex (d : List Byte) (lo i x : Nat) : Nat :=
  x / (((List.range i).filter (fun j => lo ≤ j)).map (hdCount d)).foldl (· * ·) 1 % hdCount d i

/-- The VA of an element of slab k in the source or the destination (R303). -/
def hdAddr (d : List Byte) (src : Bool) (k e : Nat) : Nat :=
  let kk := if !src && hdRing d ≠ 0 then k % hdRing d else k
  let base := bytesAt d (if src then 4 else 0xA) 6
  let sd := hdSlabDim d
  let off := ((List.range (hdDims d)).map (fun i =>
    let ix := if i < sd then hdIndex d 0 i e else hdIndex d sd i kk
    if i = 0 then ((ix * hdElem d : Nat) : Int) else (ix : Int) * hdStride d src i)).foldl (· + ·) 0
  (((base : Int) + off) % (2 ^ 64 : Int)).toNat

/-- A CREDIT field meets Table 12.5 for its mode. -/
def hdCreditOk (d : List Byte) (engine channel : Nat) : Bool :=
  let c := hdCredit d
  match hdMode d with
  | 0 => c == 0
  | 1 => c % 4 == 0
  | 2 => slice c 0 6 < 48 && slice c 6 2 == 0 && slice c 12 36 == 0
  | _ => slice c 1 3 == 0 && slice c 8 40 == 0 && !(slice c 0 1 == engine && slice c 4 4 == channel)

/-- A descriptor is accepted (R304) on a channel; `stream`: a stream channel. -/
def hdAccepted (d : List Byte) (engine channel : Nat) (stream : Bool) : Bool :=
  let c := hdCtrl d
  let n := hdDims d
  let e := hdElem d
  let kind := hdKind d
  let reservedCtrl := !bit c 3 && !bit c 7 && !bit c 11 && !bit c 19 && !bit c 23 && slice c 27 5 == 0
  let src := bytesAt d 4 6
  let srcOk := if kind = 0 then src % e == 0 else slice src 6 2 == 0 && slice src 10 38 == 0
  let strides := (List.range 5).all (fun i => i == 0 ||
    ((i < n || (bytesAt d (0x1C + 3 * (i - 1)) 3 == 0 && bytesAt d (0x28 + 3 * (i - 1)) 3 == 0)) &&
      (kind == 0 || bytesAt d (0x1C + 3 * (i - 1)) 3 == 0) &&
      hdStride d true i % e == 0 && hdStride d false i % e == 0))
  reservedCtrl && 1 ≤ n && n ≤ 5 && slice c 4 3 ≤ 4 && 1 ≤ hdSlabDim d && hdSlabDim d ≤ n && kind ≠ 3 &&
    (kind == 0 || stream) && srcOk && bytesAt d 0xA 6 % e == 0 &&
    (List.range 5).all (fun i => i < n || bytesAt d (0x10 + 2 * i) 2 == 0) && strides &&
    bytesAt d 0x3A 6 == 0 && hdSlabElems d * e ≤ 2 ^ 24 && hdSlabs d ≤ 2 ^ 32 - 1 && hdCreditOk d engine channel

/-! Channel state -/

/-- The running transfer of a channel. -/
def State.running (s : State) (e c : Nat) : Option Transfer :=
  s.hose.transfers.find? (fun t => t.engine = e && t.channel = c && t.begun)

/-- The transfers that wait at a channel, in dispatch order. -/
def State.waitingAt (s : State) (e c : Nat) : List Transfer :=
  s.hose.transfers.filter (fun t => t.engine = e && t.channel = c && !t.begun)

/-- The memory class of a channel's accesses (R301). -/
def State.hoseClass (s : State) (e c : Nat) : Nat := s.plan.active.qos.hoses.getD (16 * e + c) 1

/-- The stream of a channel. -/
def chStream (e c : Nat) : Stream := .hose e c

/-- The STATE code of a stream channel on which Gardener 1 runs an enabled placement group (R453): idle with no frame
staged, else waiting for a release or running; channel 15 of hose 1 without its group runs APPEND_PKT (R494). -/
def State.streamState (s : State) (e c : Nat) : Nat :=
  let g := 4 * e + (c - 12)
  if c < 12 then 0
  else if s.get (F.decodeGroupCfgEn g) = 0 then
    b2n (e == 1 && c == 15 && s.evid.reqs.any (fun r => r.begun && bytesAt r.desc 0 1 == 3))
  else match (s.intake.groups.getD g ⟨[], 0⟩).staged with
    | [] => 0
    | f :: _ =>
      if (s.rd (R.hoseRelease e c)).toNat + s.get (F.decodeGroupRingSlabsCount g) ≤ f.first + f.band then 2 else 1

/-- The STATE code of a channel (Table 12.9). -/
def State.channelState (s : State) (e c : Nat) : Nat :=
  match s.running e c with
  | none => s.streamState e c
  | some t =>
    if s.isStalled (chStream e c) then 4
    else if t.stopping then 5
    else if hdRing t.desc ≠ 0 ∧ (s.rd (R.hoseRelease e c)).toNat + hdRing t.desc ≤ t.slab then 2
    else if bit (hdCtrl t.desc) 16 ∧ (s.rd (R.hoseInCredits e c)).toNat ≤ t.slab then 3
    else 1

/-- Show a channel's state in its registers; STALL reads all ones while a transfer is there that is not stalled. -/
def refreshChannel (e c : Nat) (s : State) : State :=
  let st := s.channelState e c
  let s1 := s.puts [(F.hoseStateState e c, st), (F.hoseStateQueued e c, min 7 (s.waitingAt e c).length)]
  match s1.running e c with
  | none => s1
  | some t => (s1.put (F.hoseStateClass e c) (s1.hoseClass e c)).wr (R.hoseStall e c)
      (BitVec.ofNat 32 (if st = 4 then t.elem else 2 ^ 32 - 1))

/-- Replace the running transfer of a channel. -/
def putTransfer (t : Transfer) (s : State) : State :=
  { s with hose := { s.hose with transfers := s.hose.transfers.map (fun x =>
      if x.engine = t.engine ∧ x.channel = t.channel ∧ x.uid = t.uid then t else x) } }

/-- Forget a transfer of a channel. -/
def dropTransfer (e c uid : Nat) (s : State) : State :=
  let rest := s.hose.transfers.filter (fun x => !(x.engine = e && x.channel = c && x.uid = uid))
  { s with hose := { s.hose with transfers := rest } }

/-- Begin the first waiting transfer of an idle channel (R306, R309): CURSOR and RELEASED take its start values. -/
def startNext (e c : Nat) (s : State) : State :=
  match s.running e c, (s.waitingAt e c).head? with
  | none, some t =>
    let s1 := putTransfer { t with begun := true } s
    let s2 := s1.wr (R.hoseCursor e c) (BitVec.ofNat 32 t.slab)
    refreshChannel e c (s2.wr (R.hoseRelease e c) (BitVec.ofNat 32 t.startReleased))
  | _, _ => refreshChannel e c s

/-- End the running transfer of a channel with a result (R311, Table 12.6); the next one starts. -/
def endTransfer (e c : Nat) (r : Result) (s : State) : State :=
  match s.running e c with
  | none => s
  | some t =>
    let s1 := unstall (chStream e c) (dropTransfer e c t.uid s)
    let s2 := (s1.put (F.hoseStateLastStatus e c) r.status).wr (R.hoseStall e c) (BitVec.ofNat 32 (2 ^ 32 - 1))
    startNext e c (completeEntry t.uid { r with count := t.slab } s2)

/-- Raise RELEASED of a channel; beyond the cursor the release is discarded and counted (R309). -/
def releaseChannel (e c n : Nat) (s : State) : State :=
  let r := (s.rd (R.hoseRelease e c)).toNat + n
  if (s.rd (R.hoseCursor e c)).toNat < r then s.bump (F.hoseErrOverRelease e c) 1
  else refreshChannel e c (s.wr (R.hoseRelease e c) (BitVec.ofNat 32 r))

/-- A bed. -/
def State.bedAt (s : State) (n : Nat) : Bed := s.bed.beds.getD n .reset

/-- Replace a bed. -/
def setBed (n : Nat) (b : Bed) (s : State) : State := { s with bed := { s.bed with beds := setAt n b s.bed.beds } }

/-- An increment of a semaphore arrives at a bed (R341). -/
def postIncrement (n sem k : Nat) (s : State) : State :=
  let b := s.bedAt n
  setBed n { b with incs := b.incs ++ [(sem, k)] } s

/-! A slab -/

/-- How the copy of a slab goes: to its end, or to a fault or an error at an element. -/
inductive CopyEnd where
  | done
  | fault (reason level va : Nat) (access : Access)
  | err (e : MemErr)
  deriving DecidableEq, Repr

/-- Copy the elements of a slab from `e` on, each step a run that lies in one page of the source and one of the
destination; `fuel` bounds the number of runs. -/
def copySlab (t : Transfer) : Nat → Nat → State → CopyEnd × Nat × State
  | 0, e, s => (.done, e, s)
  | fuel + 1, e, s =>
    let d := t.desc
    if hdSlabElems d ≤ e then (.done, e, s)
    else
      let sz := hdElem d
      let src := hdAddr d true t.slab e
      let dst := hdAddr d false t.slab e
      let run := hdCount d 0 - e % hdCount d 0
      let n := max 1 (min run (min ((4096 - src % 4096) / sz) ((4096 - dst % 4096) / sz)))
      let q : Req := ⟨67 + t.engine, s.hoseClass t.engine t.channel, 0, bit (hdCtrl d) 17⟩
      let r := vaRead q t.fn t.allot src (n * sz) .read false s
      match r.1 with
      | .error (.fault reason level va) => (.fault reason level va .read, e, r.2)
      | .error (.err x) => (.err x, e, r.2)
      | .ok bs =>
        let w := vaWrite { q with noAlloc := bit (hdCtrl d) 18 } t.fn t.allot dst bs false r.2
        match w.1 with
        | some (.fault reason level va) => (.fault reason level va .write, e, w.2)
        | some (.err x) => (.err x, e, w.2)
        | none =>
          let bytes := w.2.rd64 (R.hoseBytes t.engine) + n * sz
          copySlab t fuel (e + n) (w.2.wr64 (R.hoseBytes t.engine) (bytes % 2 ^ 64))

/-- The fault record of a channel's transfer. -/
def State.hoseFault (s : State) (t : Transfer) (reason level va : Nat) (access : Access) : FaultRec :=
  let e := s.entry t.uid
  { stream := chStream t.engine t.channel, va := va, tag := e.elim 0 (fun x => x.tag), reason := reason,
    access := access, allot := t.allot, fatal := false, cls := t.cls, level := level, source := 67 + t.engine,
    unit := t.channel, sq := e.elim 0xFF (fun x => x.sq), timeUs := 0 }

/-- A fault of a channel's transfer stalls it at an element, or ends it (R312, R294). -/
def stallTransfer (t : Transfer) (elem reason level va : Nat) (access : Access) (s : State) : State :=
  let r := reportFault t.fn (s.hoseFault t reason level va access) s
  let s1 := putTransfer { t with elem := elem } r.2
  match r.1 with
  | .stalled => refreshChannel t.engine t.channel s1
  | .ended status => endTransfer t.engine t.channel ⟨status, 0, 0, 0⟩ s1

/-- The credit of a slab is handed to the crossing (Table 12.5): done, or the error or fault that keeps it. -/
def giveCredit (t : Transfer) (s : State) : CopyEnd × State :=
  let c := hdCredit t.desc
  match hdMode t.desc with
  | 1 =>
    let q : Req := ⟨67 + t.engine, s.hoseClass t.engine t.channel, 0, false⟩
    let w := vaWrite q t.fn t.allot c (leBytes 4 (t.slab + 1)) false s
    match w.1 with
    | some (.fault reason level va) => (.fault reason level va .write, w.2)
    | some (.err x) => (.err x, w.2)
    | none => (.done, w.2)
  | 2 =>
    let n := slice c 0 6
    if s.isShut (n + 4) then
      let r := s.bump (F.islandCountResetSent (n + 4)) 1
      (.err ⟨0x11, n + 4, n + 4⟩, r)
    else (.done, postIncrement n (slice c 8 4) 1 s)
  | 3 =>
    let e := slice c 0 1
    let ch := slice c 4 4
    if s.isShut (67 + e) then (.err ⟨0x11, 67 + e, 67 + e⟩, s.bump (F.islandCountResetSent (67 + e)) 1)
    else (.done, refreshChannel e ch (s.wrap32 (R.hoseInCredits e ch) 1))
  | _ => (.done, s)

/-- A slab is credited: the cursor rises, a chained upstream channel is released (R310), and the transfer ends, stops
or goes on. -/
def creditSlab (t : Transfer) (s : State) : State :=
  let e := t.engine
  let c := t.channel
  let t1 := { t with slab := t.slab + 1, elem := 0 }
  let s1 := (putTransfer t1 s).wr (R.hoseCursor e c) (BitVec.ofNat 32 t1.slab)
  let s2 := if s1.get (F.hoseCfgUpEn e c) = 1 then
      releaseChannel (s1.get (F.hoseCfgUpEngine e c)) (s1.get (F.hoseCfgUpChannel e c)) 1 s1 else s1
  if hdSlabs t.desc ≤ t1.slab then endTransfer e c (.ok 0) s2
  else if t1.stopping then endTransfer e c ⟨2, 0, 0, 0⟩ s2
  else refreshChannel e c s2

/-- Write the slab in progress and credit it (R307). -/
def runSlab (t : Transfer) (s : State) : State :=
  let cp := copySlab t (hdSlabElems t.desc) t.elem s
  match cp.1 with
  | .fault reason level va access => stallTransfer t cp.2.1 reason level va access cp.2.2
  | .err x => endTransfer t.engine t.channel (cp.2.2.resultOfErr x 0) cp.2.2
  | .done =>
    let cr := giveCredit t cp.2.2
    match cr.1 with
    | .fault reason level va access => stallTransfer t cp.2.1 reason level va access cr.2
    | .err x => endTransfer t.engine t.channel (cr.2.resultOfErr x 0) cr.2
    | .done => creditSlab t cr.2

/-- A drain meets a channel (R314): a stalled one ends with FAULT_ABORTED, one between slabs stops with PARTIAL, any
other stops at the end of its slab; with `cut` false nothing stops. -/
def drainChannel (e c : Nat) (s : State) : State :=
  match s.running e c with
  | none => s
  | some t =>
    if s.isStalled (chStream e c) then endTransfer e c ⟨0x30, 0, 0, 0⟩ s
    else if t.elem = 0 then endTransfer e c ⟨2, 0, 0, 0⟩ s
    else refreshChannel e c (putTransfer { t with stopping := true } s)

/-- Every transfer of a channel is drained, the waiting ones at their start. -/
def drainAll (e c : Nat) (s : State) : State :=
  s.each (List.range 5) (fun _ t => drainChannel e c t)

/-- Every channel of both engines. -/
def allChannels : List (Nat × Nat) := (List.range 2).flatMap (fun e => (List.range 16).map (fun c => (e, c)))

/-- The hose island itself closes (R316): every transfer of the engine ends with ISLAND_RESET. -/
def closeHose (e : Nat) (s : State) : State :=
  s.each (s.hose.transfers.filter (fun t => t.engine = e)) (fun t u =>
    let u1 := unstall (chStream e t.channel) (dropTransfer e t.channel t.uid u)
    completeEntry t.uid (u1.resultOfIsland 0x11 (67 + e) t.slab) u1)

end Sys2Proof.Machine
end

