-- ==== Sys2Proof/Machine/Waves.lean ====
section
/-! DEFINITION. Beds and the orders on them: occupancy, numeric flags and records, traps, and every way in which a work
order ends (spec/13 R346–R348, spec/14 R365–R371, spec/15 R383–R387, spec/22 R531). -/
namespace Sys2Proof.Machine

/-! Orders -/

/-- A work order by its entry. -/
def State.order (s : State) (uid : Nat) : Option Order := s.bed.orders.find? (fun o => o.uid = uid)

/-- Replace a work order. -/
def putOrder (o : Order) (s : State) : State :=
  { s with bed := { s.bed with orders := s.bed.orders.map (fun x => if x.uid = o.uid then o else x) } }

/-! The descriptor (Tables 15.1, 15.2) -/
def woCtrl (d : List Byte) : Nat := bytesAt d 0 4
def woOp (d : List Byte) : Nat := slice (woCtrl d) 0 8
def woTrapNan (d : List Byte) : Bool := bit (woCtrl d) 10
def woNanInput (d : List Byte) : Bool := bit (woCtrl d) 11
def woTrapOvf (d : List Byte) : Bool := bit (woCtrl d) 12
def woSeed (d : List Byte) : Nat := bytesAt d 8 4
def woStart (d : List Byte) : Nat := bytesAt d 0xC 4
def woMask (d : List Byte) : Nat := bytesAt d 0x10 8
/-- SIZE_n. -/
def woSize (d : List Byte) (n : Nat) : Nat := bytesAt d (0x38 + 2 * n) 2

/-- A PROGRAM order. -/
def Order.isProgram (o : Order) : Bool := woOp o.desc == 9

/-! Bed registers -/

/-- STATUS of a bed from what it holds (Table 13.19); RESIDENT keeps the waves of the built-in code while a built-in
tile runs. -/
def refreshBed (n : Nat) (s : State) : State :=
  let b := s.bedAt n
  let s1 := s.puts [(F.bedStatusGroups n, b.groups.length + b2n b.built.isSome), (F.bedStatusTq n, b.queue.length),
    (F.bedStatusSaved n, b2n b.saved.isSome)]
  let s2 := if b.built.isSome then s1 else s1.put (F.bedStatusResident n) b.waves.length
  s2.put F.hostqUrgentStatusPreempted (min 15 (s2.bed.beds.filter (fun (x : Bed) => x.saved.isSome)).length)

/-- Change a bed and show it. -/
def changeBed (n : Nat) (f : Bed → Bed) (s : State) : State := refreshBed n (setBed n (f (s.bedAt n)) s)

/-- A bed holds work of an entry. -/
def Bed.runs (b : Bed) (uid : Nat) : Bool :=
  (b.built.elim false (fun t => t.uid == uid)) || b.groups.any (fun g => g.2.uid = uid) ||
    b.saved.elim false (fun v => (v.built.elim false (fun t => t.uid == uid)) || v.groups.any (fun g => g.2.uid = uid))

/-- A bed without the work of an entry: its waves, queue entries, loads, tile and groups go, the saved ones too. -/
def Bed.without (b : Bed) (uid : Nat) : Bed :=
  let gone := (b.waves.filter (fun w => w.uid = uid)).map (fun (w : Wave) => w.slot)
  { b with
    waves := b.waves.filter (fun w => w.uid ≠ uid),
    queue := b.queue.filter (fun q => q.uid ≠ uid),
    loads := b.loads.filter (fun l => !gone.contains l.slot),
    built := b.built.filter (fun t => t.uid ≠ uid),
    groups := b.groups.filter (fun g => g.2.uid ≠ uid),
    saved := b.saved.map (fun v => { v with
        waves := v.waves.filter (fun w => w.uid ≠ uid),
        built := v.built.filter (fun t => t.uid ≠ uid),
        groups := v.groups.filter (fun g => g.2.uid ≠ uid) }) }

/-- Beds that hold work of an entry. -/
def State.bedsOf (s : State) (uid : Nat) : List Nat := (List.range 48).filter (fun n => (s.bedAt n).runs uid)

/-- Stop every tile of an entry at once. -/
def stopTiles (uid : Nat) (s : State) : State := s.each (s.bedsOf uid) (fun n t => changeBed n (fun b => b.without uid) t)

/-- A stream belongs to an order or rake job. -/
def orderStream (uid : Nat) : Stream → Bool
  | .order u _ _ => u == uid
  | .rake u => u == uid
  | _ => false

/-- An order is stalled on a fault (R386). -/
def State.orderStalled (s : State) (uid : Nat) : Bool := s.mmu.stalls.any (fun x => orderStream uid x.stream)

/-- Forget the stalls of an order, and its waves are ready again. -/
def clearOrderStall (uid : Nat) (s : State) : State :=
  let s1 := { s with mmu := { s.mmu with stalls := s.mmu.stalls.filter (fun x => !orderStream uid x.stream) } }
  s1.each (s1.bedsOf uid) (fun n t => changeBed n (fun b => { b with waves := b.waves.map (fun w =>
    if w.uid = uid ∧ w.wait = .fault then { w with wait := .ready } else w) }) t)

/-! The urgent lane's record (R531, Table 22.4) -/

/-- The lowest REASON code of a mask. -/
def lowestReason (m : Nat) : Nat := ((List.range 16).find? (fun i => 1 ≤ i && bit m i)).getD 0

/-- LAST, LAST_END, MAX and COUNT of a class-0 WORK entry when its completion is written. -/
def recordUrgent (uid : Nat) (s : State) : State :=
  match s.bed.urgent.find? (fun u => u.uid = uid) with
  | none => s
  | some u =>
    let toStart := u.ts.elim 0xFFFF (fun t => min 0xFFFF (100 * (t - u.t0)))
    let reason := lowestReason u.reasons
    let s1 := s.puts [(F.hostqUrgentLastToStart, toStart), (F.hostqUrgentLastReason, reason),
      (F.hostqUrgentLastQueued, b2n u.queued), (F.hostqUrgentLastShade, b2n u.shade),
      (F.hostqUrgentLastPreempted, min 15 u.preempted), (F.hostqUrgentLastEndToEnd, min 0xFFFFFF (100 * (s.timeUs - u.t0)))]
    let s2 := s1.bump F.hostqUrgentCountOrders 1
    let s3 := if reason = 0 then
        (if s2.get F.hostqUrgentMaxToStart < toStart then s2.put F.hostqUrgentMaxToStart toStart else s2)
      else s2.bump F.hostqUrgentCountUncovered 1
    { s3 with bed := { s3.bed with urgent := s3.bed.urgent.filter (fun x => x.uid ≠ uid) } }

/-! Rake jobs as orders: the rake gives its tiles to beds under R381, in an order whose OP reads 0x80 -/

/-- A rake job. -/
def State.rakeJob (s : State) (uid : Nat) : Option RakeJob := s.rake.jobs.find? (fun j => j.uid = uid)

/-- Replace a rake job. -/
def putJob (j : RakeJob) (s : State) : State :=
  { s with rake := { s.rake with jobs := s.rake.jobs.map (fun x => if x.uid = j.uid then j else x) } }

/-- The order is a rake job's. -/
def Order.isRake (o : Order) : Bool := woOp o.desc == 0x80

/-- RAKE_STATUS: a pass is under way where a job is in it; JOBS counts dispatched jobs; RAKE_NEXT_RESOLVE names the
next resolve of the first job in shading (Table 17.10). -/
def refreshRake (s : State) : State :=
  let in_ := fun (p : Nat) => s.rake.jobs.any (fun j => j.phase == p)
  let s1 := s.puts [(F.rakeStatusPhase, b2n (in_ 1) + 2 * b2n (in_ 2)), (F.rakeStatusJobs, s.rake.jobs.length)]
  match s1.rake.jobs.find? (fun j => j.phase == 2) with
  | some j => s1.wr R.rakeNextResolve (BitVec.ofNat 32 ((s1.order j.uid).elim 0 (fun o => o.prefix_)))
  | none => s1

/-- The rake bins one job at a time: the oldest of the highest class begins when none is in binning (R411). -/
def startBinning (s : State) : State :=
  if s.rake.jobs.any (fun j => j.phase == 1) then refreshRake s
  else
    let cls := fun (j : RakeJob) => (s.order j.uid).elim 3 (fun o => o.cls)
    let w := s.rake.jobs.filter (fun j => j.phase == 0)
    let top := w.foldl (fun c j => min c (cls j)) 3
    match w.find? (fun j => cls j == top) with
    | some j => refreshRake (putJob { j with phase := 1 } s)
    | none => refreshRake s

/-- A rake job is gone, and the next one is binned. -/
def dropJob (uid : Nat) (s : State) : State :=
  if (s.rakeJob uid).isNone then s
  else startBinning { s with rake := { s.rake with jobs := s.rake.jobs.filter (fun j => j.uid ≠ uid) } }

/-! The end of an order -/

/-- A completion word of STATUS, DETAIL and INFO. -/
def dw1 (status detail info : Nat) : Nat := status + 2 ^ 8 * detail + 2 ^ 16 * info

/-- End an order with a completion word: its tiles stop, its stall ends, COUNT is its completed prefix, and INFO
carries its flags unless STATUS is 0x10 or 0x11 (R368, R383, R387). -/
def endOrder (uid word : Nat) (s : State) : State :=
  match s.order uid with
  | none => s
  | some o =>
    let s1 := clearOrderStall uid (stopTiles uid s)
    let s2 := { s1 with bed := { s1.bed with orders := s1.bed.orders.filter (fun x => x.uid ≠ uid) } }
    let st := slice word 0 8
    let info := if st = 0x10 ∨ st = 0x11 then slice word 16 16 else o.flags % 256
    dropJob uid (completeEntry uid ⟨st, slice word 8 8, info, o.prefix_⟩ (recordUrgent uid s2))

/-- The word of an ISLAND_RESET or STALE_EPOCH completion for an island (R216). -/
def State.islandWord (s : State) (status n : Nat) : Nat :=
  let r := s.resultOfIsland status n 0
  dw1 r.status r.detail r.info

/-- The word of a failed access. -/
def State.errWord (s : State) (e : MemErr) : Nat :=
  let r := s.resultOfErr e 0
  dw1 r.status r.detail r.info

/-- No tile of an entry runs on any bed. -/
def State.noTiles (s : State) (uid : Nat) : Bool := (s.bedsOf uid).isEmpty

/-- An ending at the tile boundary: decided once; at once where no tile runs (R387). -/
def endAtBoundary (uid word : Nat) (s : State) : State :=
  match s.order uid with
  | none => s
  | some o =>
    if o.ending.isSome then s
    else if s.noTiles uid then endOrder uid word s
    else putOrder { o with ending := some word } s

/-- Advance a completed prefix over the tiles completed beyond it. -/
def advance : Nat → Nat → List Nat → Nat × List Nat
  | 0, p, later => (p, later)
  | n + 1, p, later => if later.contains p then advance n (p + 1) (later.filter (fun x => x ≠ p)) else (p, later)

/-- A tile of an order has completed (R383, R365): COUNT advances, and the order completes with its last tile, at a
decided boundary, or before its next tile after a guard exhaustion under TRAP_OVF. -/
def orderTileDone (uid tile : Nat) (s : State) : State :=
  match s.order uid with
  | none => s
  | some o =>
    let a := advance (o.later.length + 1) o.prefix_ (tile :: o.later)
    let o1 := { o with prefix_ := a.1, later := a.2 }
    let s1 := putOrder o1 s
    match o1.ending with
    | some w => if s1.noTiles uid then endOrder uid w s1 else s1
    | none =>
      if o1.saturated && woTrapOvf o1.desc then endAtBoundary uid (dw1 0x21 0 0) s1
      else if o1.total ≤ o1.prefix_ then
        endOrder uid (if o1.badIndex then dw1 0xF0 0xB4 0 else if o1.saturated then dw1 1 0 0 else 0) s1
      else s1

/-! Traps -/

/-- A trap is recorded in a bed's trap registers unless one is held (R346). -/
def recordTrap (n kind slot status detail tag pc word : Nat) (s : State) : State :=
  if s.get (F.bedTrapValid n) = 1 then s
  else
    let v := 1 + 2 * kind + 2 ^ 8 * slot + 2 ^ 16 * status + 2 ^ 24 * detail + 2 ^ 32 * tag
    ((s.wr64 (R.bedTrap n) v).wr64 (R.bedTrapPc n) pc).wr64 (R.bedTrapWord n) word

/-- The TAG of an entry, 0 if it is gone. -/
def State.tagOf (s : State) (uid : Nat) : Nat := (s.entry uid).elim 0 (fun e => e.tag)

/-- A wave traps: the trap is recorded and its order ends at once (R346, R387). -/
def trapWave (n : Nat) (w : Wave) (kind status detail word : Nat) (s : State) : State :=
  let s1 := recordTrap n kind w.slot status detail (s.tagOf w.uid) w.pc word s
  endOrder w.uid (dw1 status detail 0) s1

/-- BED_ILLEGAL. -/
def trapIllegal (n : Nat) (w : Wave) (word : Nat) (s : State) : State := trapWave n w 1 0xF0 0xA0 word s
/-- BED_MISALIGNED. -/
def trapMisaligned (n : Nat) (w : Wave) (word : Nat) (s : State) : State := trapWave n w 2 0xF0 0xA1 word s
/-- BEDMEM_RANGE. -/
def trapRange (n : Nat) (w : Wave) (word : Nat) (s : State) : State := trapWave n w 7 0xF0 0x81 word s

/-- An error completion of an access ends the order, recorded with KIND ACCESS (R337). -/
def trapAccess (n : Nat) (w : Wave) (e : MemErr) (word : Nat) (s : State) : State :=
  let r := s.resultOfErr e 0
  let s1 := recordTrap n 9 w.slot r.status r.detail (s.tagOf w.uid) w.pc word s
  endOrder w.uid (s1.errWord e) s1

/-! Numeric flags and records -/

/-- ANY of NUMX_SUMMARY and the masks of held records (Table 14.7). -/
def refreshNumx (s : State) : State :=
  let beds := List.range 48
  let any := beds.foldl (fun a b => Nat.lor a (Nat.lor (s.get (F.numxFlagsLanes b)) (s.get (F.numxFlagsTiller b)))) 0
  let held := fun (f : Nat → Nat → Nat) => listMask (beds.filter (fun b => getBits (s.rd (f b 1)) 24 8 ≠ 0))
  ((s.put F.numxSummaryAny any).wr64 R.numxGuardMask (held R.numxGuard)).wr64 R.numxNanMask (held R.numxNan)

/-- Raise flags of an engine of a bed and of the order (R367, R368). -/
def raiseFlags (n uid : Nat) (tiller : Bool) (fl : Nat) (s : State) : State :=
  if fl % 256 = 0 then s
  else
    let f := if tiller then F.numxFlagsTiller n else F.numxFlagsLanes n
    let s1 := s.put f (Nat.lor (s.get f) (fl % 256))
    refreshNumx (match s1.order uid with
      | some o => putOrder { o with flags := Nat.lor o.flags (fl % 256) } s1
      | none => s1)

/-- What a numeric record says beside KIND (Table 14.6). -/
structure NumEvent where
  (tag sq lane opcode wave bank : Nat)
  (tiller : Bool)
  (row col elem sign tile k pc : Nat)
  deriving DecidableEq, Repr

/-- The 32 bytes of a record of bed n. -/
def numBytes (n kind : Nat) (e : NumEvent) : List Byte :=
  leBytes 4 e.tag ++ leBytes 1 e.sq ++ leBytes 1 n ++ leBytes 1 e.lane ++ leBytes 1 kind ++ leBytes 2 e.opcode ++
    leBytes 1 e.wave ++ leBytes 1 (e.bank % 8 + 128 * b2n e.tiller) ++ leBytes 1 e.row ++ leBytes 1 e.col ++
    leBytes 1 e.elem ++ leBytes 1 e.sign ++ leBytes 4 e.tile ++ leBytes 4 e.k ++ leBytes 6 e.pc ++ [0, 0]

/-- Write a record if the bed's record of that kind is empty (R369): KIND 1 guard, 2 and 3 NaN. -/
def recordNum (n kind : Nat) (e : NumEvent) (s : State) : State :=
  let at_ := if kind = 1 then R.numxGuard n else R.numxNan n
  if getBits (s.rd (at_ 1)) 24 8 ≠ 0 then s
  else
    let bs := numBytes n kind e
    refreshNumx (s.each (List.range 8) (fun i t => t.wr (at_ i) (BitVec.ofNat 32 (bytesAt bs (4 * i) 4))))

/-- Empty a record (R371). -/
def clearNum (at_ : Nat → Nat) (s : State) : State := refreshNumx (s.each (List.range 8) (fun i t => t.wr (at_ i) 0))

/-- TAG and SQ of an entry for a record. -/
def State.numIds (s : State) (uid : Nat) : Nat × Nat := (s.entry uid).elim (0, 0xFF) (fun e => (e.tag, e.sq))

/-! Drains and closes -/

/-- A drain's CUT meets an order (Table 15.5): PARTIAL at the boundary, a stalled one FAULT_ABORTED at once. -/
def cutOrder (uid : Nat) (s : State) : State :=
  if s.orderStalled uid then endOrder uid (dw1 0x30 0 0) s else endAtBoundary uid (dw1 2 0 0) s

/-- Bed n closes (R37, R530): every order with a tile on it or saved from it ends with ISLAND_RESET; the bed is empty. -/
def closeBed (n : Nat) (s : State) : State :=
  let hit := s.bed.orders.filter (fun o => (s.bedAt n).runs o.uid)
  let s1 := s.each hit (fun o t => endOrder o.uid (t.islandWord 0x11 (n + 4)) t)
  refreshBed n (setBed n .reset s1)

end Sys2Proof.Machine
end

