-- ==== Sys2Proof/Machine/BedCore.lean ====
section
/-! DEFINITION. One instruction of a bed wave: fetch through the instruction cache, fields, operands, acting threads,
the lanes' results, and issue (spec/13 R322–R328, R350; spec/14 R357, R358, R366). -/
namespace Sys2Proof.Machine

/-! Instruction fields (Tables 13.3, 13.4) -/
def iClass (w : Nat) : Nat := slice w 0 4
def iOp (w : Nat) : Nat := slice w 4 8
def iExt (w : Nat) : Bool := bit w 12
def iPred (w : Nat) : Nat := slice w 13 3
def iPneg (w : Nat) : Bool := bit w 16
def iType (w : Nat) : Nat := slice w 17 4
def iRnd (w : Nat) : Nat := slice w 21 2
def iDst (w : Nat) : Nat := slice w 23 9
def iA (w : Nat) : Nat := slice w 32 9
def iB (w : Nat) : Nat := slice w 41 9
def iC (w : Nat) : Nat := slice w 50 9
def iMod (w : Nat) : Nat := slice w 59 5

/-- An instruction being executed: its bed, its wave as it was before, its order, its words, the TIME_LO value that it
reads, and the number of its first free value. -/
structure Ctx where
  n    : Nat
  w    : Wave
  o    : Order
  word : Nat
  ext  : Nat
  timeLo : Nat
  fresh  : Nat
  deriving DecidableEq, Repr

/-- Whether CLASS and OP are listed (R327). -/
def listed (cls op : Nat) : Bool :=
  match cls with
  | 0 => op ≤ 8
  | 1 => op ≤ 0x22
  | 2 => op ≤ 0x22
  | 3 => op ≤ 8 || (0x10 ≤ op && op ≤ 0x13)
  | 4 => op ≤ 10
  | 5 => op ≤ 2
  | 6 => op ≤ 3
  | 7 => op ≤ 2
  | 8 => op ≤ 6
  | 9 => op ≤ 5
  | 10 => op ≤ 8
  | _ => false

/-! Waves -/

/-- A wave of a bed by its slot. -/
def State.wave (s : State) (n slot : Nat) : Option Wave := (s.bedAt n).waves.find? (fun w => w.slot = slot)

/-- Replace a wave. -/
def putWave (n : Nat) (w : Wave) (s : State) : State :=
  let b := s.bedAt n
  setBed n { b with waves := b.waves.map (fun x => if x.slot = w.slot then w else x) } s

/-- The requests of a bed for an order of a class: its island, class 0 for a class-0 order, else the class of its
island, no-allocate or not (R88, R262). -/
def State.bedReq (s : State) (n cls : Nat) (noAlloc : Bool) : Req :=
  ⟨n + 4, if cls = 0 then 0 else s.plan.active.qos.islands.getD (n + 4) 1, 0, noAlloc⟩

/-- The fault record of a wave's access. -/
def State.waveFault (s : State) (n : Nat) (w : Wave) (o : Order) (reason level va : Nat) (a : Access) : FaultRec :=
  let e := s.entry w.uid
  { stream := .order w.uid n w.slot, va := va, tag := e.elim 0 (fun x => x.tag), reason := reason, access := a,
    allot := o.allot, fatal := false, cls := o.cls, level := level, source := n + 4, unit := w.slot,
    sq := e.elim 0xFF (fun x => x.sq), timeUs := 0 }

/-- A translated access of a wave faults: the wave stalls at its instruction, or the order ends (R336, R386, R294). -/
def stallWave (n : Nat) (w : Wave) (o : Order) (reason level va : Nat) (a : Access) (s : State) : State :=
  let r := reportFault o.fn (s.waveFault n w o reason level va a) s
  let s1 := urgentReason w.uid 6 r.2
  match r.1 with
  | .stalled => putWave n { w with wait := .fault } s1
  | .ended status => endOrder w.uid (dw1 status 0 0) s1

/-! Fetch (R350) -/

/-- How a fetch ends. -/
inductive Fetched where
  | word (v : Nat)
  | fault (reason level va : Nat)
  | err (e : MemErr)
  /-- the order's translated accesses wait behind a fault -/
  | waits
  deriving DecidableEq, Repr

/-- Fetch the 8 bytes at a VA: from the cache, or through the order's allotment into it. The cache holds 1,024 lines of
64 bytes; a free value picks the one that goes (log entry 8). -/
def fetchWord (n : Nat) (o : Order) (va : Nat) (s : State) : Fetched × State :=
  let b := s.bedAt n
  let line := va / 64 * 64
  match b.icache.find? (fun l => l.1 = o.allot && l.2.1 = line) with
  | some l => (.word (bytesAt l.2.2 (va % 64) 8), s)
  | none =>
    if s.orderStalled o.uid then (.waits, s)
    else
      let r := vaRead (s.bedReq n o.cls false) o.fn o.allot line 64 .fetch false s
      match r.1 with
      | .error (.fault reason level fva) => (.fault reason level (if fva = line then va else fva), r.2)
      | .error (.err e) => (.err e, r.2)
      | .ok bs =>
        let d := r.2.draw
        let old := (r.2.bedAt n).icache
        let kept := if old.length < 1024 then old else old.eraseIdx (d.1 % old.length)
        let s1 := if old.length < 1024 then r.2 else d.2
        (.word (bytesAt bs (va % 64) 8), setBed n { s1.bedAt n with icache := (o.allot, line, bs) :: kept } s1)

/-! Operands (Table 13.5) -/

/-- V0 ↦ 0 where nothing is listed. -/
def vZero : Nat → Nat := fun _ => 0

/-- Inline FP constants as FP32 patterns. -/
def inlineFp (code : Nat) : Nat :=
  [0x00000000, 0x3F000000, 0x3F800000, 0x40000000, 0x40800000, 0xBF000000, 0xBF800000, 0xC0000000].getD (code - 0x180) 0

/-- A packed word with one element in every place. -/
def replicateElem (typ v : Nat) : Nat :=
  ((List.range (32 / elemBits typ)).map (fun i => v * 2 ^ (elemBits typ * i))).foldl (· + ·) 0

/-- LIT is read with EXT 1 in a class that has no other use for the extension (Tables 13.4, 13.5): branches, memory, the
sampler and tensor instructions have one. -/
def litOk (w : Nat) : Bool := iExt w && [1, 2, 3, 4, 8, 10].contains (iClass w)

/-- A source code that an instruction may read: a scalar one, or also a vector register where `vec`. -/
def Ctx.srcOk (c : Ctx) (vec : Bool) (typ code : Nat) : Bool :=
  (vec && code < 0x100 && code < c.w.vgprs) || (0x100 ≤ code && code ≤ 0x11F) || (vec && code = 0x120) ||
    (0x121 ≤ code && code ≤ 0x128) || (0x140 ≤ code && code ≤ 0x17F) ||
    (0x180 ≤ code && code ≤ 0x187 && (typeFmt typ).isSome) || (code = 0x1F0 && litOk c.word) || code = 0x1FF

/-- A predicate operand. -/
def isP (code : Nat) : Bool := 0x190 ≤ code && code ≤ 0x197

/-- The value of a source for a thread. -/
def Ctx.src (c : Ctx) (typ code t : Nat) : Nat :=
  if code < 0x100 then cellGet vZero c.w.vregs (code * 32 + t)
  else if code ≤ 0x11F then c.w.sregs.getD (code - 0x100) 0
  else if code = 0x120 then t
  else if code = 0x121 then c.w.slot
  else if code = 0x122 then c.n
  else if code = 0x123 then c.o.plot
  else if code = 0x124 then c.w.gwave
  else if code = 0x125 then c.w.exec
  else if code = 0x126 then c.timeLo
  else if code = 0x127 then c.w.timeHi
  else if code = 0x128 then woSeed c.o.desc
  else if 0x140 ≤ code ∧ code ≤ 0x17F then code - 0x140
  else if 0x180 ≤ code ∧ code ≤ 0x187 then replicateElem typ (convert .rn 0 typ (inlineFp code)).bits
  else if code = 0x1F0 then c.ext % 2 ^ 32
  else 0

/-- The mask of a predicate register. -/
def Ctx.pred (c : Ctx) (code : Nat) : Nat := c.w.pregs.getD (code - 0x190) 0

/-- A vector destination: a V register below VGPRS or NULL. -/
def Ctx.dstV (c : Ctx) (code : Nat) : Bool := (code < 0x100 && code < c.w.vgprs) || code = 0x1FF

/-- A scalar destination: an S register or NULL; EXEC for SALU. -/
def dstS (exec : Bool) (code : Nat) : Bool := (0x100 ≤ code && code ≤ 0x11F) || code = 0x1FF || (exec && code = 0x125)

/-- Thread t acts (R326). -/
def Ctx.acts (c : Ctx) (t : Nat) : Bool :=
  bit c.w.exec t && (iPred c.word = 0 || (bit (c.w.pregs.getD (iPred c.word) 0) t != iPneg c.word))

/-- The acting threads, ascending. -/
def Ctx.threads (c : Ctx) : List Nat := (List.range 32).filter c.acts

/-- A free value of an instruction for a thread and element (log entry 1). -/
def Ctx.free (c : Ctx) (t e : Nat) : Nat := Config.freeNat (c.fresh + 8 * t + e)

/-- A wave with a vector register of a thread written. -/
def Wave.setV (w : Wave) (code t v : Nat) : Wave :=
  if code < 0x100 then { w with vregs := cellSet vZero w.vregs (code * 32 + t) (v % 2 ^ 32) } else w

/-- A wave with a scalar register or EXEC written; NULL discards. -/
def Wave.setS (w : Wave) (code v : Nat) : Wave :=
  if 0x100 ≤ code ∧ code ≤ 0x11F then { w with sregs := setAt (code - 0x100) (v % 2 ^ 32) w.sregs }
  else if code = 0x125 then { w with exec := v % 2 ^ 32 } else w

/-- Apply a change to the wave of an instruction as it now stands. -/
def Ctx.change (c : Ctx) (f : Wave → Wave) (s : State) : State :=
  match s.wave c.n c.w.slot with
  | some w => putWave c.n (f w) s
  | none => s

/-- Write a scalar result. -/
def Ctx.writeS (c : Ctx) (v : Nat) (s : State) : State := c.change (fun w => w.setS (iDst c.word) v) s

/-- Write a vector result, one value per thread. -/
def Ctx.writeV (c : Ctx) (vals : List (Nat × Nat)) (s : State) : State :=
  c.change (fun w => vals.foldl (fun x (e : Nat × Nat) => x.setV (iDst c.word) e.1 e.2) w) s

/-- Trap the wave of an instruction. -/
def Ctx.illegal (c : Ctx) (s : State) : State := trapIllegal c.n c.w c.word s
def Ctx.misaligned (c : Ctx) (s : State) : State := trapMisaligned c.n c.w c.word s
def Ctx.range (c : Ctx) (s : State) : State := trapRange c.n c.w c.word s

/-! Rounding and numeric events -/

/-- The mode code in force: the instruction's, else the order's; 0 and 1 are RN, 2 RZ, 3 SR (R357). -/
def Ctx.mode (c : Ctx) : Nat :=
  let r := if iRnd c.word = 0 then slice (woCtrl c.o.desc) 8 2 else iRnd c.word
  if r = 0 then 1 else r

/-- The results of the lanes so far: generators, values, flags, and the first event with its thread, element and
KIND. -/
structure LaneOut where
  gens  : List Nat
  vals  : List (Nat × Nat)
  flags : Nat
  event : Option (Nat × Nat × Nat)
  deriving DecidableEq, Repr

/-- KIND of the trap that a result takes under TRAP_NAN (R366): 3 a NaN consumed in INPUT mode, 2 a NaN made. -/
def nanKind (d : List Byte) (r : FRes) : Option Nat :=
  if !woTrapNan d then none
  else if woNanInput d && r.nanOp then some 3
  else if r.gen then some 2
  else none

/-- One element of a thread: with SR it draws on the thread's generator (R357, R358). -/
def laneElem (c : Ctx) (draws : Bool) (t e : Nat) (f : Rnd → FRes) (o : LaneOut) : Nat × LaneOut :=
  let g := c.w.slot / 12 * 32 + t
  let m := c.mode
  let sr := draws && m == 3
  let x := xorshift (o.gens.getD g 0)
  let mode : Rnd := if m = 2 then .rz else if sr then .sr x else .rn
  let r := f mode
  let ev := match o.event with
    | some y => some y
    | none => (nanKind c.o.desc r).map (fun k => (t, e, k))
  (r.bits, { o with gens := if sr then setAt g x o.gens else o.gens, flags := Nat.lor o.flags r.flags, event := ev })

/-- All elements of a thread, in ascending order, packed. -/
def laneThread (c : Ctx) (draws : Bool) (typ t : Nat) (f : Nat → Rnd → FRes) (o : LaneOut) : LaneOut :=
  let r := (List.range (32 / elemBits typ)).foldl (fun (a : Nat × LaneOut) e =>
    let x := laneElem c draws t e (f e) a.2
    (a.1 + x.1 % 2 ^ elemBits typ * 2 ^ (elemBits typ * e), x.2)) (0, o)
  { r.2 with vals := r.2.vals ++ [(t, r.1)] }

/-- Run an element function over the acting threads. -/
def Ctx.lanes (c : Ctx) (draws : Bool) (typ : Nat) (f : Nat → Nat → Rnd → FRes) (s : State) : LaneOut :=
  c.threads.foldl (fun o t => laneThread c draws typ t (f t) o) ⟨(s.bedAt c.n).gens, [], 0, none⟩

/-- The opcode field of a numeric record: CLASS, OP, TYPE. -/
def opcodeField (w : Nat) : Nat := iClass w + 2 ^ 4 * iOp w + 2 ^ 12 * iType w

/-- A NaN trap of the lanes (R366, R369). -/
def Ctx.nanTrap (c : Ctx) (t e kind : Nat) (s : State) : State :=
  let id := s.numIds c.w.uid
  let ev : NumEvent := { tag := id.1, sq := id.2, lane := c.w.slot / 12 * 32 + t, opcode := opcodeField c.word,
                         wave := c.w.slot, bank := 0, tiller := false, row := 0, col := t, elem := e, sign := 0,
                         tile := c.w.tile, k := 0, pc := c.w.pc }
  trapWave c.n c.w 8 0x20 0 c.word (recordNum c.n kind ev s)

/-- Take the lanes' results: generators and flags, then a trap, or `done` with the values. -/
def Ctx.finish (c : Ctx) (o : LaneOut) (done : List (Nat × Nat) → State → State) (s : State) : State :=
  let s1 := raiseFlags c.n c.w.uid false o.flags (setBed c.n { s.bedAt c.n with gens := o.gens } s)
  match o.event with
  | some e => c.nanTrap e.1 e.2.1 e.2.2 s1
  | none => done o.vals s1

/-! Issue -/

/-- Registers of a wave that a load or a tensor entry has yet to write (R322, R337, R345), by operand code. -/
def Bed.locked (b : Bed) (slot : Nat) : List Nat :=
  (b.loads.filter (fun l => l.slot = slot)).flatMap (fun l => l.regs) ++
    (b.queue.filter (fun q => q.slot = slot && iOp q.word = 3)).flatMap (fun q =>
      (List.range (slice q.ext 12 4 + 1)).map (fun i => iDst q.word + i))

/-- How many consecutive registers an operand position may span, so that a locked one keeps the wave from being
ready: up to 4 for data, 8 for an image descriptor, the rows of an accumulator. -/
def Ctx.touched (c : Ctx) : List Nat :=
  let span := fun (code k : Nat) => (List.range k).map (fun i => code + i)
  let cls := iClass c.word
  let k := if cls = 5 ∨ cls = 6 ∨ cls = 7 then 4 else 1
  if cls = 9 then span (iDst c.word) 16 ++ span (iA c.word) 16 ++ [iB c.word, iC c.word]
  else span (iDst c.word) k ++ span (iA c.word) (if cls = 6 then 2 else 1) ++ span (iB c.word) k ++
    span (iC c.word) (if cls = 7 then 8 else 1)

/-- The instruction at a wave's program counter executes (R322, R324, R325, R327): nothing happens unless the wave is
ready and the instruction is one of `mine`; an unlisted CLASS or OP traps. The program counter moves past it and
BEDn_ISSUED counts it before `body` acts. -/
def issue (n slot : Nat) (mine : Nat → Nat → Bool) (body : Ctx → State → State) (s : State) : State :=
  match s.wave n slot with
  | none => s
  | some w =>
    match s.order w.uid with
    | none => s
    | some o =>
      if !s.isOpen (n + 4) || w.wait != .ready then s
      else if w.pc % 8 ≠ 0 then trapMisaligned n w 0 s
      else
        let f := fetchWord n o w.pc s
        match f.1 with
        | .waits => s
        | .fault reason level va => stallWave n w o reason level va .fetch f.2
        | .err e => trapAccess n w e 0 f.2
        | .word v =>
          let g := if iExt v then fetchWord n o (w.pc + 8) f.2 else (.word 0, f.2)
          match g.1 with
          | .waits => s
          | .fault reason level va => stallWave n w o reason level va .fetch g.2
          | .err e => trapAccess n w e v g.2
          | .word x =>
            if !listed (iClass v) (iOp v) then trapIllegal n w v g.2
            else if !mine (iClass v) (iOp v) then s
            else
              let d := g.2.draw
              let readsTime := iA v == 0x126 || iB v == 0x126 || iC v == 0x126
              let w1 := if readsTime then { w with timeHi := d.1 / 2 ^ 32 % 2 ^ 32 } else w
              let c : Ctx := ⟨n, w1, o, v, x, d.1 % 2 ^ 32, d.2.fresh⟩
              if (c.touched.any (fun r => r < 0x120 && ((s.bedAt n).locked slot).contains r)) then s
              else
                let s1 := { d.2 with fresh := d.2.fresh + 256 }
                let s2 := s1.wr64 (R.bedIssued n) ((s1.rd64 (R.bedIssued n) + 1) % 2 ^ 64)
                body c (putWave n { w1 with pc := w.pc + if iExt v then 16 else 8 } s2)

/-- A wave stalls at the instruction that it was executing: its program counter stays there. -/
def Ctx.stall (c : Ctx) (reason level va : Nat) (a : Access) (s : State) : State :=
  stallWave c.n c.w c.o reason level va a s

/-- An instruction that finds what it needs held up is not issued yet: its wave stays before it. -/
def Ctx.hold (c : Ctx) (s : State) : State :=
  putWave c.n c.w (s.wr64 (R.bedIssued c.n) ((s.rd64 (R.bedIssued c.n) + 2 ^ 64 - 1) % 2 ^ 64))

end Sys2Proof.Machine
end

