-- ==== Sys2Proof/Machine/Accum.lean ====
section
/-! DEFINITION. Accumulation in the tiller and the sieve, the store conversion and sparse operands (spec/14 R361–R366,
spec/16 R388–R394), for queue entries and built-in operations alike. -/
namespace Sys2Proof.Machine

/-- An accumulator element after its products: its value, its flags, the first guard exhaustion (k, negative) and the
first NaN event (k, KIND). -/
structure AccOut where
  v     : Int
  flags : Nat
  guard : Option (Nat × Bool)
  nan   : Option (Nat × Nat)
  deriving DecidableEq, Repr

/-- The ends of the 40-bit accumulator. -/
def ACC_MAX : Int := 2 ^ 39 - 1
def ACC_MIN : Int := -(2 ^ 39)

/-- Add one integer product (R363, R364): a frozen element ignores it; a sum that reaches an end freezes. -/
def accInt (o : AccOut) (k : Nat) (p : Int) : AccOut :=
  if o.v = ACC_MAX ∨ o.v = ACC_MIN then o
  else
    let z := o.v + p
    if ACC_MIN < z ∧ z < ACC_MAX then { o with v := z }
    else
      let neg := decide (z < 0)
      { o with v := if neg then ACC_MIN else ACC_MAX, flags := Nat.lor o.flags OVF,
               guard := if o.guard.isSome then o.guard else some (k, neg) }

/-- Add one exact FP product with one rounding in FP32 (R362, R354, R355). A NaN element stays one; only A and B
elements count as consumed. -/
def accFp (d : List Byte) (mode : Rnd) (fa fb : Fmt) (o : AccOut) (k a b : Nat) : AccOut :=
  let x := fa.decode a
  let y := fb.decode b
  let z := fp32.decode o.v.toNat
  let bad := x.isNan || y.isNan
  let r : FRes :=
    if bad then fp32.finish mode [x, y] (some (.nan false))
    else if z.isNan then (match x.mul y with
      | some _ => .plain fp32.nan 0
      | none => fp32.nanRes true false false)
    else fp32.finish mode [] ((x.mul y).bind (fun p => z.add p))
  { o with v := r.bits, flags := Nat.lor o.flags r.flags,
           nan := if o.nan.isSome then o.nan else (nanKind d r).map (fun e => (k, e)) }

/-- The products of an element in ascending k, from a start value. -/
def accRun (d : List Byte) (mode : Rnd) (ta tb : Nat) (start : Int) (ps : List (Nat × Nat × Nat)) : AccOut :=
  match typeFmt ta, typeFmt tb with
  | some fa, some fb => ps.foldl (fun o (p : Nat × Nat × Nat) => accFp d mode fa fb o p.1 p.2.1 p.2.2) ⟨start, 0, none, none⟩
  | _, _ => ps.foldl (fun o (p : Nat × Nat × Nat) => accInt o p.1 (intVal ta p.2.1 * intVal tb p.2.2)) ⟨start, 0, none, none⟩

/-- Type pairs of the tiller (R344): 3 for an integer accumulator, 0 for FP32, none if not accepted. -/
def tillerPair (ta tb : Nat) : Option Nat :=
  if (ta = 6 ∨ ta = 7) ∧ (tb = 6 ∨ tb = 7) then some 3
  else if ta = 10 ∧ tb = 10 then some 3
  else if ta = 1 ∧ tb = 1 then some 0
  else if ta = 2 ∧ tb = 2 then some 0
  else if (ta = 8 ∨ ta = 9) ∧ (tb = 8 ∨ tb = 9) then some 0
  else none

/-- The mode of accumulation: the order's, with RN in place of SR (R362). -/
def accMode (d : List Byte) : Rnd := if slice (woCtrl d) 8 2 = 2 then .rz else .rn

/-- A mode code with the draw it would use. -/
def modeOf (code x : Nat) : Rnd := if code = 2 then .rz else if code = 3 then .sr x else .rn

/-- Steps that do not draw: RN in place of SR (R361). -/
def quietMode (code : Nat) : Rnd := if code = 2 then .rz else .rn

/-- The store conversion of an element (R361): SCALE with one rounding, RELU when set, then the output type in the mode
with its draw. An integer bank stored as INT32 with SCALE 1.0 is saturated directly. -/
def storeElem (fp : Bool) (code x : Nat) (scale out : Nat) (relu : Bool) (v : Int) : FRes :=
  if !fp && out = 3 && scale = 0x3F800000 then satTo 3 (if relu then max 0 v else v)
  else
    let a : FRes := if fp then .plain v.toNat 0 else intToFp32 (quietMode code) v
    let m := fp32.mul (quietMode code) a.bits scale
    let b := if relu then relu32 m.bits else m.bits
    let r := convert (modeOf code x) 0 out b
    ⟨r.bits, Nat.lor (Nat.lor a.flags m.flags) r.flags, m.gen || r.gen, m.nanOp || r.nanOp⟩

/-! Sparse operands (R388, Tables 16.1, 16.2) -/

/-- The length of a block in words by its form. -/
def blockWords (form count w bits : Nat) : Nat :=
  match form with
  | 0 => 1
  | 1 => 9 + ceilDiv (count * bits) 32
  | 2 => 1 + ceilDiv count 4 + ceilDiv (count * bits) 32
  | _ => 1 + ceilDiv (w * bits) 32

/-- The i-th packed value of a list of bytes from an offset on. -/
def packedAt (bs : List Byte) (off bits i : Nat) : Nat :=
  if bits = 4 then slice (bytesAt bs (off + i / 2) 1) (4 * (i % 2)) 4 else bytesAt bs (off + i * (bits / 8)) (bits / 8)

/-- A list rises strictly. -/
def rising : List Nat → Bool
  | a :: b :: r => a < b && rising (b :: r)
  | _ => true

/-- Decode a block of width w at the start of a byte list: its present elements (k in the block, value) and its length
in bytes; none where it breaks R388 (R400). -/
def parseBlock (bs : List Byte) (w bits : Nat) : Option (List (Nat × Nat) × Nat) :=
  let h := bytesAt bs 0 4
  let count := slice h 0 9
  let form := slice h 9 2
  let len := blockWords form count w bits
  if slice h 11 5 ≠ 0 ∨ slice h 16 16 ≠ len ∨ w < count then none
  else match form with
    | 0 => if count = 0 then some ([], 4) else none
    | 1 =>
      let map_ := bytesAt bs 4 32
      let ks := maskList 256 map_
      if ks.length ≠ count ∨ ks.any (fun k => w ≤ k) then none
      else some ((List.zip ks ((List.range count).map (packedAt bs 36 bits))), 4 * len)
    | 2 =>
      let ks := (List.range count).map (fun i => bytesAt bs (4 + i) 1)
      if !rising ks ∨ ks.any (fun k => w ≤ k) then none
      else some ((List.zip ks ((List.range count).map (packedAt bs (4 + 4 * ceilDiv count 4) bits))), 4 * len)
    | _ =>
      if count ≠ w then none
      else some ((List.range w).map (fun k => (k, packedAt bs 4 bits k)), 4 * len)

/-- Decode a fibre over K values: its blocks, each with its present elements, and its length in bytes. -/
def parseFibre (bits : Nat) : Nat → Nat → List Byte → Option (List (List (Nat × Nat)) × Nat)
  | 0, _, _ => some ([], 0)
  | fuel + 1, k, bs =>
    if k = 0 then some ([], 0)
    else
      let w := min k 256
      match parseBlock bs w bits with
      | none => none
      | some (b, n) =>
        match parseFibre bits fuel (k - w) (bs.drop n) with
        | none => none
        | some (r, m) => some (b :: r, n + m)

/-- The present elements of a fibre with their k over the whole fibre. -/
def fibreElems (bl : List (List (Nat × Nat))) : List (Nat × Nat) :=
  ((List.zip (List.range bl.length) bl).map (fun (p : Nat × List (Nat × Nat)) =>
    p.2.map (fun (e : Nat × Nat) => (256 * p.1 + e.1, e.2)))).flatten

/-- Products of two present lists in ascending k: elements present in both. -/
def matchProducts : Nat → List (Nat × Nat) → List (Nat × Nat) → List (Nat × Nat × Nat)
  | 0, _, _ => []
  | fuel + 1, a, b =>
    match a, b with
    | (k, x) :: ra, (l, y) :: rb =>
      if k < l then matchProducts fuel ra b
      else if l < k then matchProducts fuel a rb
      else (k, x, y) :: matchProducts fuel ra rb
    | _, _ => []

/-- A dense list of values as present elements. -/
def denseElems (vs : List Nat) : List (Nat × Nat) := List.zip (List.range vs.length) vs

/-- Sieve counters of an entry (R394): probes, and chunks beyond the first, over the lanes that own an element. Blocks
are given per row of A and per column of B. -/
def sieveCounts (m n : Nat) (a b : List (List (List (Nat × Nat)))) : Nat × Nat :=
  let chunks := fun (bl : List (Nat × Nat)) => ceilDiv bl.length 64
  let lanes := (List.range 4).filter (fun r => r < m)
  let probes := ((List.range n).map (fun j =>
    ((List.range m).map (fun i =>
      (List.zipWith (fun (x y : List (Nat × Nat)) => x.length * chunks y) (a.getD i []) (b.getD j [])).foldl (· + ·) 0)).foldl (· + ·) 0)).foldl (· + ·) 0
  let passes := ((List.range n).map (fun j =>
    ((b.getD j []).map (fun bl => chunks bl - 1)).foldl (· + ·) 0)).foldl (· + ·) 0 * lanes.length
  (probes, passes)

/-- The earliest event of a list (k, row, column, code), by k, then row, then column (R369, R345). -/
def firstEvent (l : List (Nat × Nat × Nat × Nat)) : Option (Nat × Nat × Nat × Nat) :=
  (l.mergeSort (fun a b => a.1 < b.1 || (a.1 == b.1 && (a.2.1 < b.2.1 || (a.2.1 == b.2.1 && a.2.2.1 ≤ b.2.2.1))))).head?

/-- A guard exhaustion of an order: its flag OVF, the record, and the order's mark (R364, R365). -/
def guardEvent (n uid : Nat) (e : NumEvent) (s : State) : State :=
  let s1 := recordNum n 1 e s
  match s1.order uid with
  | some o => putOrder { o with saturated := true } s1
  | none => s1

end Sys2Proof.Machine
end

