-- ==== Sys2Proof/Machine/Alu.lean ====
section
/-! DEFINITION. Meanings of the bed's control, ALU, compare, conversion and cross-lane instructions (spec/13 R329–R333;
spec/14). Each takes the bed and the wave slot. -/
namespace Sys2Proof.Machine

/-- The extension field that a class does not use is 0 (R325): bits 127:96. -/
def Ctx.extOk (c : Ctx) : Bool := !iExt c.word || c.ext / 2 ^ 32 == 0

/-! ALU -/

/-- Table 13.9, Types: "any". -/
def anyType (t : Nat) : Bool := t ≤ 10
/-- "as ADD". -/
def addTypes (t : Nat) : Bool := t ≤ 7
/-- FP32, FP16x2, BF16x2. -/
def fpTypes (t : Nat) : Bool := t ≤ 2
/-- INT32, UINT32. -/
def int32Types (t : Nat) : Bool := t == 3 || t == 4

/-- The lowest value of a signed integer type. -/
def isMinInt (typ v : Nat) : Bool := typeSigned typ && v % 2 ^ elemBits typ == 2 ^ (elemBits typ - 1)

/-- |x| of an element; the most negative integer has no stated absolute value (log entry 1). -/
def absElem (typ free v : Nat) : Nat :=
  if (typeFmt typ).isSome then v % 2 ^ (elemBits typ - 1)
  else if isMinInt typ v then free
  else if typeSigned typ then (sext (elemBits typ) v).natAbs else v

/-- −x of an element; the most negative integer has no stated negative (log entry 1). -/
def negElem (typ free v : Nat) : Nat :=
  let n := elemBits typ
  if (typeFmt typ).isSome then Nat.xor v (2 ^ (n - 1))
  else if isMinInt typ v then free
  else (2 ^ n - v % 2 ^ n) % 2 ^ n

/-- A VALU source element with its MOD negation and absolute value (R331); the absolute value is taken first. -/
def modElem (typ m neg abs free v : Nat) : Nat :=
  let v1 := if bit m abs then absElem typ free v else v
  if bit m neg then negElem typ free v1 else v1

/-- An element of a packed word. -/
def elemAt (typ v e : Nat) : Nat := slice v (elemBits typ * e) (elemBits typ)

/-- An integer result: wrapped, or saturated under SAT (R331). -/
def intRes (typ m : Nat) (v : Int) : FRes :=
  if bit m 4 then .plain (satTo typ v).bits 0 else .plain (ofInt (elemBits typ) v) 0

/-- An FP result under SAT: clamped to 0.0–1.0; a NaN stays (R331, R354). -/
def fpSat (f : Fmt) (m : Nat) (r : FRes) : FRes :=
  if !bit m 4 then r
  else match f.decode r.bits with
    | .nan _ => r
    | v => if v.neg then { r with bits := 0 }
      else
        let one := f.round .rn false 1 0 false
        if (f.decode one.bits).lt v then { r with bits := one.bits } else r

/-- The operands of one element: values with MOD applied. -/
structure Elem where
  a : Nat
  b : Nat
  c : Nat
  deriving DecidableEq, Repr

/-- An element operation of two or three operands on an FP or an integer type. -/
def fpOrInt (typ m : Nat) (fp : Fmt → Rnd → FRes) (int : Unit → Int) (mode : Rnd) : FRes :=
  match typeFmt typ with
  | some f => fpSat f m (fp f mode)
  | none => intRes typ m (int ())

/-- The shape of an ALU operation (Table 13.9): its types, how many of A, B and C it reads, whether its FP results are
rounded, which under SR draws (R357), and its element. -/
structure AluOp where
  types : Nat → Bool
  arity : Nat
  draws : Bool
  /-- element function: type, modifiers, free value, operands, mode -/
  elem  : Nat → Nat → Nat → Elem → Rnd → FRes

/-- The modifiers in force: all of MOD in VALU, SAT alone in SALU (R331). -/
def Ctx.mods (c : Ctx) : Nat := if iClass c.word = 2 then iMod c.word else Nat.land (iMod c.word) 16

/-- The operands of thread t, element e. -/
def Ctx.elems (c : Ctx) (typ t e : Nat) : Elem :=
  let m := c.mods
  { a := modElem typ m 0 2 (c.free t e) (elemAt typ (c.src typ (iA c.word) t) e),
    b := modElem typ m 1 3 (c.free t e) (elemAt typ (c.src typ (iB c.word) t) e),
    c := elemAt typ (c.src typ (iC c.word) t) e }

/-- An ALU instruction: in VALU per acting thread, in SALU once on scalar operands with TYPE INT32 or UINT32. -/
def alu (op : AluOp) (c : Ctx) (s : State) : State :=
  let vec := iClass c.word == 2
  let typ := iType c.word
  let okSrc := [iA c.word, iB c.word, iC c.word].take op.arity |>.all (c.srcOk vec typ)
  if !okSrc || !c.extOk || !op.types typ || (!vec && !int32Types typ) ||
      !(if vec then c.dstV (iDst c.word) else dstS true (iDst c.word)) then c.illegal s
  else if vec then
    c.finish (c.lanes (op.draws && (typeFmt typ).isSome) typ (fun t e r => op.elem typ c.mods (c.free t e) (c.elems typ t e) r) s) c.writeV s
  else c.writeS (op.elem typ c.mods (c.free 0 0) (c.elems typ 0 0) .rn).bits s

/-- Issue an ALU instruction of OP in SALU or VALU. -/
def issueAlu (n : Fin 48) (slot : Fin 48) (code : Nat) (op : AluOp) (s : State) : Out :=
  .next (issue n slot (fun cls o => (cls == 1 || cls == 2) && o == code) (alu op) s)

/-- A bitwise or plain element. -/
def bitsOp (types : Nat → Bool) (arity : Nat) (f : Nat → Elem → Nat) : AluOp :=
  ⟨types, arity, false, fun typ _ _ x _ => .plain (f typ x % 2 ^ elemBits typ) 0⟩

/-- An operation on FP and integer types alike. -/
def arithOp (types : Nat → Bool) (arity : Nat) (fp : Elem → Fmt → Rnd → FRes) (int : Nat → Elem → Int) : AluOp :=
  ⟨types, arity, true, fun typ m _ x r => fpOrInt typ m (fp x) (fun _ => int typ x) r⟩

/-- An FP-only operation of one operand that rounds its result where `draws`. -/
def fpOp (types : Nat → Bool) (draws : Bool) (f : Nat → Elem → Fmt → Rnd → FRes) : AluOp :=
  ⟨types, 1, draws, fun typ m free x r => match typeFmt typ with
    | some g => fpSat g m (f free x g r)
    | none => .plain 0 0⟩

/-- MOV (R331). -/
def execMov (bed slot : Fin 48) (s : State) : Out := issueAlu bed slot 0x00 (bitsOp anyType 1 (fun _ x => x.a)) s

/-- ADD (R331). -/
def execAdd (bed slot : Fin 48) (s : State) : Out :=
  issueAlu bed slot 0x01 (arithOp addTypes 2 (fun x f r => f.add r x.a x.b)
    (fun t x => intVal t x.a + intVal t x.b)) s

/-- SUB (R331). -/
def execSub (bed slot : Fin 48) (s : State) : Out :=
  issueAlu bed slot 0x02 (arithOp addTypes 2 (fun x f r => f.sub r x.a x.b)
    (fun t x => intVal t x.a - intVal t x.b)) s

/-- MUL (R331). -/
def execMul (bed slot : Fin 48) (s : State) : Out :=
  issueAlu bed slot 0x03 (arithOp (fun t => t ≤ 4) 2 (fun x f r => f.mul r x.a x.b)
    (fun t x => intVal t x.a * intVal t x.b)) s

/-- FMA (R331). -/
def execFma (bed slot : Fin 48) (s : State) : Out :=
  issueAlu bed slot 0x04 (arithOp fpTypes 3 (fun x f r => f.fma r x.a x.b x.c) (fun _ _ => 0)) s

/-- MAD (R331). -/
def execMad (bed slot : Fin 48) (s : State) : Out :=
  issueAlu bed slot 0x05 (arithOp int32Types 3 (fun x f r => f.fma r x.a x.b x.c)
    (fun t x => intVal t x.a * intVal t x.b + intVal t x.c)) s

/-- MULHI (R331). -/
def execMulhi (bed slot : Fin 48) (s : State) : Out :=
  issueAlu bed slot 0x06 (bitsOp int32Types 2 (fun t x => ofInt 32 (intVal t x.a * intVal t x.b / 2 ^ 32))) s

/-- MIN or MAX of one element (R331). -/
def minMaxElem (isMax : Bool) (typ : Nat) (a b : Nat) : FRes :=
  match typeFmt typ with
  | some f => f.minMax isMax a b
  | none => .plain (if decide (intVal typ a < intVal typ b) != isMax then a else b) 0

/-- An operation of MIN, MAX and CLAMP, which round nothing; SAT clamps FP results. -/
def pickOp (arity : Nat) (f : Nat → Elem → FRes) : AluOp :=
  ⟨addTypes, arity, false, fun typ m _ x _ => match typeFmt typ with
    | some g => fpSat g m (f typ x)
    | none => f typ x⟩

/-- MIN (R331). -/
def execMin (bed slot : Fin 48) (s : State) : Out :=
  issueAlu bed slot 0x07 (pickOp 2 (fun t x => minMaxElem false t x.a x.b)) s

/-- MAX (R331). -/
def execMax (bed slot : Fin 48) (s : State) : Out :=
  issueAlu bed slot 0x08 (pickOp 2 (fun t x => minMaxElem true t x.a x.b)) s

/-- AND (R331). -/
def execAnd (bed slot : Fin 48) (s : State) : Out :=
  issueAlu bed slot 0x09 (bitsOp anyType 2 (fun _ x => Nat.land x.a x.b)) s

/-- OR (R331). -/
def execOr (bed slot : Fin 48) (s : State) : Out :=
  issueAlu bed slot 0x0A (bitsOp anyType 2 (fun _ x => Nat.lor x.a x.b)) s

/-- XOR (R331). -/
def execXor (bed slot : Fin 48) (s : State) : Out :=
  issueAlu bed slot 0x0B (bitsOp anyType 2 (fun _ x => Nat.xor x.a x.b)) s

/-- NOT (R331). -/
def execNot (bed slot : Fin 48) (s : State) : Out :=
  issueAlu bed slot 0x0C (bitsOp anyType 1 (fun t x => 2 ^ elemBits t - 1 - x.a % 2 ^ elemBits t)) s

/-- SHL (R331). -/
def execShl (bed slot : Fin 48) (s : State) : Out :=
  issueAlu bed slot 0x0D (bitsOp int32Types 2 (fun _ x => x.a * 2 ^ (x.b % 32))) s

/-- SHR (R331). -/
def execShr (bed slot : Fin 48) (s : State) : Out :=
  issueAlu bed slot 0x0E (bitsOp int32Types 2 (fun _ x => x.a / 2 ^ (x.b % 32))) s

/-- SAR (R331). -/
def execSar (bed slot : Fin 48) (s : State) : Out :=
  issueAlu bed slot 0x0F (bitsOp int32Types 2 (fun _ x => ofInt 32 (sext 32 x.a / 2 ^ (x.b % 32)))) s

/-- SEL (R331): SRCC is a predicate; VALU only, since SALU has scalar operands only. -/
def execSel (bed slot : Fin 48) (s : State) : Out :=
  .next (issue bed slot (fun cls o => (cls == 1 || cls == 2) && o == 0x10) (fun c t =>
    let typ := iType c.word
    if iClass c.word ≠ 2 || !isP (iC c.word) || !anyType typ || !c.srcOk true typ (iA c.word) ||
        !c.srcOk true typ (iB c.word) || !c.dstV (iDst c.word) || !c.extOk then c.illegal t
    else
      let p := c.pred (iC c.word)
      c.finish (c.lanes false typ (fun th e _ =>
        let x := c.elems typ th e
        .plain (if bit p th then x.a else x.b) 0) t) c.writeV t) s)

/-- CLAMP: max(min(a, c), b) (R331). -/
def execClamp (bed slot : Fin 48) (s : State) : Out :=
  issueAlu bed slot 0x11 (pickOp 3 (fun t x =>
    let m := minMaxElem false t x.a x.c
    let r := minMaxElem true t m.bits x.b
    ⟨r.bits, Nat.lor m.flags r.flags, m.gen || r.gen, m.nanOp || r.nanOp⟩)) s

/-- FLOOR (R331). -/
def execFloor (bed slot : Fin 48) (s : State) : Out :=
  issueAlu bed slot 0x12 (fpOp fpTypes false (fun _ x f r => f.integral r 0 x.a)) s

/-- CEIL (R331). -/
def execCeil (bed slot : Fin 48) (s : State) : Out :=
  issueAlu bed slot 0x13 (fpOp fpTypes false (fun _ x f r => f.integral r 1 x.a)) s

/-- RNDNE (R331). -/
def execRndne (bed slot : Fin 48) (s : State) : Out :=
  issueAlu bed slot 0x14 (fpOp fpTypes false (fun _ x f r => f.integral r 2 x.a)) s

/-- FRACT (R331). -/
def execFract (bed slot : Fin 48) (s : State) : Out :=
  issueAlu bed slot 0x15 (fpOp fpTypes true (fun _ x f r => f.fract r x.a)) s

/-- FP32 alone. -/
def fp32Only (t : Nat) : Bool := t == 0

/-- RCP (R331). -/
def execRcp (bed slot : Fin 48) (s : State) : Out :=
  issueAlu bed slot 0x16 (fpOp fp32Only false (fun free x _ r => rcp r free x.a)) s

/-- RSQ (R331). -/
def execRsq (bed slot : Fin 48) (s : State) : Out :=
  issueAlu bed slot 0x17 (fpOp fp32Only false (fun free x _ _ => rsq free x.a)) s

/-- SQRT, correctly rounded (R331). -/
def execSqrt (bed slot : Fin 48) (s : State) : Out :=
  issueAlu bed slot 0x18 (fpOp fp32Only true (fun _ x f r => f.sqrt r x.a)) s

/-- EXP2 (R331). -/
def execExp2 (bed slot : Fin 48) (s : State) : Out :=
  issueAlu bed slot 0x19 (fpOp fp32Only false (fun free x _ r => exp2 r free x.a)) s

/-- LOG2 (R331). -/
def execLog2 (bed slot : Fin 48) (s : State) : Out :=
  issueAlu bed slot 0x1A (fpOp fp32Only false (fun free x _ _ => log2 free x.a)) s

/-- SIN of a in turns (R331). -/
def execSin (bed slot : Fin 48) (s : State) : Out :=
  issueAlu bed slot 0x1B (fpOp fp32Only false (fun free x _ _ => sinCos false free x.a)) s

/-- COS of a in turns (R331). -/
def execCos (bed slot : Fin 48) (s : State) : Out :=
  issueAlu bed slot 0x1C (fpOp fp32Only false (fun free x _ _ => sinCos true free x.a)) s

/-- A dot product's operation: packed A and B, a 32-bit C and result, so it runs as one 32-bit element per thread. -/
def dot (code : Nat) (types : Nat → Bool) (f : Ctx → Nat → Rnd → FRes) (bed slot : Fin 48) (s : State) : Out :=
  .next (issue bed slot (fun cls o => (cls == 1 || cls == 2) && o == code) (fun c t =>
    let typ := iType c.word
    if iClass c.word ≠ 2 || !types typ || !([iA c.word, iB c.word, iC c.word].all (c.srcOk true typ)) ||
        !c.dstV (iDst c.word) || !c.extOk then c.illegal t
    else c.finish (c.lanes (code == 0x1E) 0 (fun th _ r => f c th r) t) c.writeV t) s)

/-- The i-th elements of A and B of a thread, with MOD. -/
def Ctx.pair (c : Ctx) (t e : Nat) : Nat × Nat :=
  let x := c.elems (iType c.word) t e
  (x.a, x.b)

/-- DOT4: c + Σ a_i × b_i into INT32 (R331). -/
def execDot4 (bed slot : Fin 48) (s : State) : Out :=
  dot 0x1D (fun t => t == 6 || t == 7) (fun c t _ =>
    let typ := iType c.word
    let sum := (List.range 4).foldl (fun (z : Int) e => z + intVal typ (c.pair t e).1 * intVal typ (c.pair t e).2)
      (sext 32 (c.src typ (iC c.word) t))
    intRes 3 c.mods sum) bed slot s

/-- DOT2: c + Σ a_i × b_i into FP32 with one rounding (R331). -/
def execDot2 (bed slot : Fin 48) (s : State) : Out :=
  dot 0x1E (fun t => t == 1 || t == 2) (fun c t r =>
    let typ := iType c.word
    match typeFmt typ with
    | none => .plain 0 0
    | some f =>
      let a := (List.range 2).map (fun e => f.decode (c.pair t e).1)
      let b := (List.range 2).map (fun e => f.decode (c.pair t e).2)
      let z := fp32.decode (c.src typ (iC c.word) t)
      let p := List.zipWith FVal.mul a b
      let sum := p.foldl (fun (x : Option FVal) y => x.bind (fun u => y.bind (fun v => u.add v))) (some z)
      fpSat fp32 c.mods (fp32.finish r (z :: a ++ b) sum)) bed slot s

/-- POPC (R331). -/
def execPopc (bed slot : Fin 48) (s : State) : Out :=
  issueAlu bed slot 0x1F (bitsOp (fun t => t == 4) 1 (fun _ x => popCount 32 x.a)) s

/-- CLZ (R331). -/
def execClz (bed slot : Fin 48) (s : State) : Out :=
  issueAlu bed slot 0x20 (bitsOp (fun t => t == 4) 1 (fun _ x => if x.a = 0 then 32 else 31 - Nat.log2 x.a)) s

/-- BFE (R331): a field that runs past bit 31, or is wider than 32 bits, has no stated value (log entry 1). -/
def execBfe (bed slot : Fin 48) (s : State) : Out :=
  issueAlu bed slot 0x21 ⟨int32Types, 3, false, fun typ _ free x _ =>
    let off := x.b % 32
    let w := x.c % 64
    let v := slice x.a off w
    .plain (if 32 < off + w then free % 2 ^ 32 else if typ = 3 ∧ w ≠ 0 then ofInt 32 (sext w v) else v) 0⟩ s

/-- BFI (R331). -/
def execBfi (bed slot : Fin 48) (s : State) : Out :=
  issueAlu bed slot 0x22 (bitsOp (fun t => t == 4) 3 (fun _ x =>
    let off := x.c % 32
    let w := slice x.c 8 5
    x.a % 2 ^ off + 2 ^ off * (x.b % 2 ^ w) + 2 ^ (off + w) * (x.a / 2 ^ (off + w)))) s

/-! Compares -/

/-- Set the destination predicate for the acting threads. -/
def Ctx.writeP (c : Ctx) (f : Nat → Bool) (s : State) : State :=
  let old := c.pred (iDst c.word)
  let v := listMask ((List.range 32).filter (fun t => if c.acts t then f t else bit old t))
  c.change (fun w => { w with pregs := setAt (iDst c.word - 0x190) v w.pregs }) s

/-- A compare of one element of each thread (R332, Table 13.10); a packed type compares its lowest element. -/
def compare (code : Nat) (f : Nat → Nat → Nat → Bool) (bed slot : Fin 48) (s : State) : Out :=
  .next (issue bed slot (fun cls o => cls == 3 && o == code) (fun c t =>
    let typ := iType c.word
    if !isP (iDst c.word) || !anyType typ || !c.srcOk true typ (iA c.word) || !c.srcOk true typ (iB c.word) || !c.extOk
    then c.illegal t
    else c.writeP (fun th => f typ (c.src typ (iA c.word) th) (c.src typ (iB c.word) th)) t) s)

/-- Order of two elements: 0 less, 1 equal, 2 greater, 3 unordered. -/
def cmpElem (typ a b : Nat) : Nat :=
  let x := elemAt typ a 0
  let y := elemAt typ b 0
  match typeFmt typ with
  | some f =>
    let u := f.decode x
    let v := f.decode y
    if u.isNan || v.isNan then 3 else if u.lt v then 0 else if v.lt u then 2 else 1
  | none => if intVal typ x < intVal typ y then 0 else if intVal typ y < intVal typ x then 2 else 1

/-- EQ (R332). -/
def execEq (bed slot : Fin 48) (s : State) : Out := compare 0 (fun t a b => cmpElem t a b == 1) bed slot s
/-- NE (R332). -/
def execNe (bed slot : Fin 48) (s : State) : Out := compare 1 (fun t a b => cmpElem t a b != 1) bed slot s
/-- LT (R332). -/
def execLt (bed slot : Fin 48) (s : State) : Out := compare 2 (fun t a b => cmpElem t a b == 0) bed slot s
/-- LE (R332). -/
def execLe (bed slot : Fin 48) (s : State) : Out := compare 3 (fun t a b => cmpElem t a b ≤ 1) bed slot s
/-- GT (R332). -/
def execGt (bed slot : Fin 48) (s : State) : Out := compare 4 (fun t a b => cmpElem t a b == 2) bed slot s
/-- GE (R332). -/
def execGe (bed slot : Fin 48) (s : State) : Out :=
  compare 5 (fun t a b => cmpElem t a b == 1 || cmpElem t a b == 2) bed slot s
/-- ORD (R332). -/
def execOrd (bed slot : Fin 48) (s : State) : Out := compare 6 (fun t a b => cmpElem t a b != 3) bed slot s
/-- UNORD (R332). -/
def execUnord (bed slot : Fin 48) (s : State) : Out := compare 7 (fun t a b => cmpElem t a b == 3) bed slot s
/-- TEST (R332). -/
def execTest (bed slot : Fin 48) (s : State) : Out :=
  compare 8 (fun _ a b => Nat.land a b != 0) bed slot s

/-- Logic on predicates (Table 13.10). -/
def predOp (code : Nat) (two : Bool) (f : Bool → Bool → Bool) (bed slot : Fin 48) (s : State) : Out :=
  .next (issue bed slot (fun cls o => cls == 3 && o == code) (fun c t =>
    if !isP (iDst c.word) || !isP (iA c.word) || (two && !isP (iB c.word)) || !c.extOk then c.illegal t
    else
      let a := c.pred (iA c.word)
      let b := c.pred (iB c.word)
      c.writeP (fun th => f (bit a th) (bit b th)) t) s)

/-- PAND (R332). -/
def execPand (bed slot : Fin 48) (s : State) : Out := predOp 0x10 true (fun a b => a && b) bed slot s
/-- POR (R332). -/
def execPor (bed slot : Fin 48) (s : State) : Out := predOp 0x11 true (fun a b => a || b) bed slot s
/-- PXOR (R332). -/
def execPxor (bed slot : Fin 48) (s : State) : Out := predOp 0x12 true (fun a b => a != b) bed slot s
/-- PNOT (R332). -/
def execPnot (bed slot : Fin 48) (s : State) : Out := predOp 0x13 false (fun a _ => !a) bed slot s

/-- CVT (R332, R360): one element of TYPE to the type OP names. MOD[2:0] selects the element of whichever side is
packed; between packed types it selects both. -/
def execCvt (bed slot : Fin 48) (s : State) : Out :=
  .next (issue bed slot (fun cls o => cls == 4 && o ≤ 10) (fun c t =>
    let typ := iType c.word
    let dst := iOp c.word
    let k := iMod c.word % 8
    let se := if elemBits typ = 32 then 0 else k
    let de := if elemBits dst = 32 then 0 else k
    if !anyType typ || !c.srcOk true typ (iA c.word) || !c.dstV (iDst c.word) || !c.extOk ||
        32 ≤ se * elemBits typ || 32 ≤ de * elemBits dst then c.illegal t
    else
      let rounds := (typeFmt typ).isSome || (typeFmt dst).isSome
      let out := c.lanes rounds 0 (fun th _ r => convert r typ dst (elemAt typ (c.src typ (iA c.word) th) se)) t
      let out := { out with event := out.event.map (fun e => (e.1, max se de, e.2.2)) }
      c.finish out (fun vals u => c.writeV (vals.map (fun (e : Nat × Nat) =>
        let old := c.src 4 (iDst c.word) e.1
        let lo := elemBits dst * de
        (e.1, old % 2 ^ lo + 2 ^ lo * (e.2 % 2 ^ elemBits dst) + 2 ^ (lo + elemBits dst) * (old / 2 ^ (lo + elemBits dst)))))
        u) t) s)

/-! Cross-lane (Table 13.12) -/

/-- A cross-lane instruction whose operands are vector or scalar as `ok` says. -/
def xlane (code : Nat) (ok : Ctx → Bool) (body : Ctx → State → State) (bed slot : Fin 48) (s : State) : Out :=
  .next (issue bed slot (fun cls o => cls == 10 && o == code) (fun c t =>
    if !ok c || !c.extOk || !anyType (iType c.word) then c.illegal t else body c t) s)

/-- SHFL (R333). -/
def execShfl (bed slot : Fin 48) (s : State) : Out :=
  xlane 0 (fun c => c.srcOk true (iType c.word) (iA c.word) && c.srcOk true (iType c.word) (iB c.word) && c.dstV (iDst c.word))
    (fun c t => c.writeV (c.threads.map (fun th =>
      let from_ := c.src (iType c.word) (iB c.word) th % 32
      (th, if c.acts from_ then c.src (iType c.word) (iA c.word) from_ else 0))) t) bed slot s

/-- SHFLX (R333): b is a scalar 0–31; beyond it no value is stated (log entry 1). -/
def execShflx (bed slot : Fin 48) (s : State) : Out :=
  xlane 1 (fun c => c.srcOk true (iType c.word) (iA c.word) && c.srcOk false (iType c.word) (iB c.word) && c.dstV (iDst c.word))
    (fun c t =>
      let b := c.src (iType c.word) (iB c.word) 0
      c.writeV (c.threads.map (fun th =>
        (th, if b < 32 then c.src (iType c.word) (iA c.word) (Nat.xor th b) else c.free th 0))) t) bed slot s

/-- READLANE (R333): a lane beyond 31 has no stated value (log entry 1). -/
def execReadlane (bed slot : Fin 48) (s : State) : Out :=
  xlane 2 (fun c => c.srcOk true (iType c.word) (iA c.word) && c.srcOk false (iType c.word) (iB c.word) && dstS false (iDst c.word))
    (fun c t =>
      let b := c.src (iType c.word) (iB c.word) 0
      c.writeS (if b < 32 then c.src (iType c.word) (iA c.word) b else c.free 0 0) t) bed slot s

/-- WRITELANE (R333): the lane takes the scalar if it acts. -/
def execWritelane (bed slot : Fin 48) (s : State) : Out :=
  xlane 3 (fun c => c.srcOk false (iType c.word) (iA c.word) && c.srcOk false (iType c.word) (iB c.word) && c.dstV (iDst c.word))
    (fun c t =>
      let b := c.src (iType c.word) (iB c.word) 0
      c.writeV ((c.threads.filter (fun th => th = b)).map (fun th => (th, c.src (iType c.word) (iA c.word) 0))) t) bed slot s

/-- One level of the fixed tree: pairs of neighbours (R333). -/
def treeLevel (f : Nat → Nat → FRes) : List Nat → List Nat × Nat × Bool × Bool
  | a :: b :: r =>
    let x := f a b
    let t := treeLevel f r
    (x.bits :: t.1, Nat.lor x.flags t.2.1, x.gen || t.2.2.1, x.nanOp || t.2.2.2)
  | l => (l, 0, false, false)

/-- The fixed tree over 2^k values. -/
def tree (f : Nat → Nat → FRes) : Nat → List Nat → FRes
  | 0, l => .plain (l.headD 0) 0
  | k + 1, l =>
    let t := treeLevel f l
    let r := tree f k t.1
    ⟨r.bits, Nat.lor t.2.1 r.flags, t.2.2.1 || r.gen, t.2.2.2 || r.nanOp⟩

/-- A reduction over the acting threads, element by element, into a scalar; 0 where none acts (R333). -/
def reduce (code : Nat) (f : Ctx → Nat → Nat → FRes) (bed slot : Fin 48) (s : State) : Out :=
  xlane code (fun c => addTypes (iType c.word) && c.srcOk true (iType c.word) (iA c.word) && dstS false (iDst c.word))
    (fun c t =>
      let typ := iType c.word
      let rs := (List.range (32 / elemBits typ)).map (fun e => f c e 0)
      let fl := rs.foldl (fun a (r : FRes) => Nat.lor a r.flags) 0
      let v := ((List.zip (List.range 8) rs).map (fun (p : Nat × FRes) =>
        p.2.bits % 2 ^ elemBits typ * 2 ^ (elemBits typ * p.1))).foldl (· + ·) 0
      let ev := (rs.findSome? (nanKind c.o.desc)).map (fun k => ((c.threads.headD 0, 0, k) : Nat × Nat × Nat))
      let none_ := c.threads.isEmpty
      c.finish ⟨(t.bedAt c.n).gens, [], if none_ then 0 else fl, if none_ then none else ev⟩
        (fun _ u => c.writeS (if none_ then 0 else v) u) t) bed slot s

/-- The element of A of every thread, non-acting ones giving `z`. -/
def Ctx.column (c : Ctx) (e z : Nat) : List Nat :=
  (List.range 32).map (fun t => if c.acts t then elemAt (iType c.word) (c.src (iType c.word) (iA c.word) t) e else z)

/-- RADD (R333): FP types in the fixed tree; the draw of a sum under SR is a free value, since no generator is named
for a scalar result (log entry 1). -/
def execRadd (bed slot : Fin 48) (s : State) : Out :=
  reduce 4 (fun c e _ =>
    let typ := iType c.word
    match typeFmt typ with
    | some f =>
      let r : Rnd := if c.mode = 2 then .rz else if c.mode = 3 then .sr (c.free 0 e % 2 ^ 32) else .rn
      tree (f.add r) 5 (c.column e 0)
    | none => .plain (ofInt (elemBits typ) ((c.column e 0).foldl (fun (z : Int) x => z + intVal typ x) 0)) 0) bed slot s

/-- The least or greatest of the acting threads' elements, in ascending thread order. -/
def foldPick (isMax : Bool) (c : Ctx) (e : Nat) : FRes :=
  let typ := iType c.word
  match c.threads.map (fun t => elemAt typ (c.src typ (iA c.word) t) e) with
  | [] => .plain 0 0
  | x :: xs => xs.foldl (fun (a : FRes) y =>
      let r := minMaxElem isMax typ a.bits y
      ⟨r.bits, Nat.lor a.flags r.flags, a.gen || r.gen, a.nanOp || r.nanOp⟩) (.plain x 0)

/-- RMIN (R333). -/
def execRmin (bed slot : Fin 48) (s : State) : Out := reduce 5 (fun c e _ => foldPick false c e) bed slot s
/-- RMAX (R333). -/
def execRmax (bed slot : Fin 48) (s : State) : Out := reduce 6 (fun c e _ => foldPick true c e) bed slot s

/-- BALLOT (R333). -/
def execBallot (bed slot : Fin 48) (s : State) : Out :=
  xlane 7 (fun c => isP (iA c.word) && dstS false (iDst c.word))
    (fun c t => c.writeS (Nat.land (c.pred (iA c.word)) c.w.exec) t) bed slot s

/-- SCAN (R333): INT32 sums of the acting threads below. -/
def execScan (bed slot : Fin 48) (s : State) : Out :=
  xlane 8 (fun c => iType c.word == 3 && c.srcOk true 3 (iA c.word) && c.dstV (iDst c.word))
    (fun c t => c.writeV (c.threads.map (fun th =>
      (th, ((c.threads.filter (fun u => u < th)).map (fun u => c.src 3 (iA c.word) u)).foldl (· + ·) 0 % 2 ^ 32))) t) bed slot s

/-! Control (Table 13.8) -/

/-- A control instruction. -/
def control (code : Nat) (body : Ctx → State → State) (bed slot : Fin 48) (s : State) : Out :=
  .next (issue bed slot (fun cls o => cls == 0 && o == code) (fun c t => if !c.extOk then c.illegal t else body c t) s)

/-- BED_NOP (R329). -/
def execBedNop (bed slot : Fin 48) (s : State) : Out := control 0 (fun _ t => t) bed slot s

/-- The target of a branch, which needs the extension word and a multiple of 8 (R330). -/
def Ctx.branchTo (c : Ctx) (f : Nat → Wave → Wave) (s : State) : State :=
  if !iExt c.word then c.illegal s
  else if c.ext % 8 ≠ 0 then c.misaligned s
  else c.change (f (((c.w.pc : Int) + sext 32 (c.ext % 2 ^ 32)) % (2 ^ 64 : Int)).toNat) s

/-- BR (R329). -/
def execBr (bed slot : Fin 48) (s : State) : Out :=
  control 2 (fun c t => c.branchTo (fun a w => { w with pc := a }) t) bed slot s

/-- BRP (R329): the test over threads whose EXEC bit is 1. -/
def execBrp (bed slot : Fin 48) (s : State) : Out :=
  control 3 (fun c t =>
    if !isP (iA c.word) || slice (iMod c.word) 0 2 = 3 then c.illegal t
    else
      let p := Nat.land (c.pred (iA c.word)) c.w.exec
      let m := slice (iMod c.word) 0 2
      let holds := if m = 0 then p != 0 else if m = 1 then p == 0 else p == c.w.exec
      c.branchTo (fun a w => if holds then { w with pc := a } else w) t) bed slot s

/-- CALL (R330): the return address is 16 past this instruction. -/
def execCall (bed slot : Fin 48) (s : State) : Out :=
  control 4 (fun c t =>
    if 8 ≤ c.w.stack.length then trapWave c.n c.w 4 0xF0 0xA3 c.word t
    else c.branchTo (fun a w => { w with pc := a, stack := (c.w.pc + 16) :: w.stack }) t) bed slot s

/-- RET (R330). -/
def execRet (bed slot : Fin 48) (s : State) : Out :=
  control 5 (fun c t =>
    match c.w.stack with
    | [] => trapWave c.n c.w 4 0xF0 0xA3 c.word t
    | a :: r => c.change (fun w => { w with pc := a, stack := r }) t) bed slot s

/-- BRK (R346). -/
def execBrk (bed slot : Fin 48) (s : State) : Out :=
  control 6 (fun c t => trapWave c.n c.w 3 0xF0 0xA2 c.word t) bed slot s

/-- SLEEP (R329). -/
def execSleep (bed slot : Fin 48) (s : State) : Out :=
  control 7 (fun c t =>
    if !c.srcOk false 4 (iA c.word) then c.illegal t
    else if c.src 4 (iA c.word) 0 = 0 then t
    else c.change (fun w => { w with wait := .sleep }) t) bed slot s

/-- SLEEP_EXPIRY (R329). -/
def execSleepExpiry (bed slot : Fin 48) (s : State) : Out :=
  .next (match s.wave bed slot with
    | some w => if w.wait = .sleep ∧ s.isOpen (bed + 4) then putWave bed { w with wait := .ready } s else s
    | none => s)

/-- EXECP (R329). -/
def execExecp (bed slot : Fin 48) (s : State) : Out :=
  control 8 (fun c t =>
    if !isP (iA c.word) || !dstS false (iDst c.word) then c.illegal t
    else
      let p := c.pred (iA c.word)
      let m := if bit (iMod c.word) 0 then 2 ^ 32 - 1 - p else p
      c.change (fun w => { w.setS (iDst c.word) c.w.exec with exec := Nat.land c.w.exec m }) t) bed slot s

end Sys2Proof.Machine
end

