-- ==== Sys2Proof/Machine/BedMem.lean ====
section
/-! DEFINITION. Meanings of the bed's memory and sampler instructions (spec/13 R323, R334–R338). Data of a load is read
when the instruction issues and reaches the registers with LOAD_DATA_ARRIVAL (log entry 18). -/
namespace Sys2Proof.Machine

/-- The width in bytes of a memory access. -/
def memWidth (c : Ctx) : Nat := 2 ^ (iMod c.word % 8)

/-- The registers of a data operand: 1, 2 or 4. -/
def dataRegs (width : Nat) : Nat := max 1 (width / 4)

/-- The IMM of a memory instruction: a signed byte offset (Table 13.4). -/
def Ctx.imm (c : Ctx) : Int := if iExt c.word then sext 32 (c.ext % 2 ^ 32) else 0

/-- A register operand of a 64- or 128-bit access is aligned (R334). -/
def regAligned (width code : Nat) : Bool := code == 0x1FF || code % dataRegs width == 0

/-- The registers of a data operand exist: for several, consecutive V registers; for one, any source or destination. -/
def Ctx.dataOk (c : Ctx) (dst : Bool) (width code : Nat) : Bool :=
  if dst then code == 0x1FF || (code < 0x100 && code + dataRegs width ≤ c.w.vgprs)
  else if width ≤ 4 then c.srcOk true 4 code
  else code == 0x1FF || (code < 0x100 && code + dataRegs width ≤ c.w.vgprs)

/-- The value of a data operand, least significant register first. -/
def Ctx.data (c : Ctx) (code width t : Nat) : Nat :=
  if width ≤ 4 then c.src 4 code t % 2 ^ (8 * width)
  else ((List.range (dataRegs width)).map (fun i => c.src 4 (if code = 0x1FF then code else code + i) t * 2 ^ (32 * i))).foldl (· + ·) 0

/-- What a load of `width` bytes writes for a thread: zero- or sign-extended below 32 bits (R334). -/
def loadWrites (c : Ctx) (width t v : Nat) : List (Nat × Nat × Nat) :=
  if iDst c.word = 0x1FF then []
  else if width < 4 ∧ bit (iMod c.word) 3 then [(iDst c.word, t, ofInt 32 (sext (8 * width) v))]
  else (List.range (dataRegs width)).map (fun i => (iDst c.word + i, t, slice v (32 * i) 32))

/-- Add a load whose data is to arrive (R337). -/
def Ctx.pendLoad (c : Ctx) (width : Nat) (writes : List (Nat × Nat × Nat)) (err : Option AccErr) (s : State) : State :=
  let regs := if iDst c.word = 0x1FF then [] else (List.range (dataRegs width)).map (fun i => iDst c.word + i)
  let b := s.bedAt c.n
  setBed c.n { b with loads := b.loads ++ [⟨c.w.slot, regs, writes, err, c.w.pc, c.word⟩] } s

/-! Bed memory -/

/-- The end of the part of bed memory that a program may use: the save granule lies above (Table 13.2). -/
def BED_LIMIT : Nat := 0xB8000

/-- Bytes of bed n's memory, as a little-endian value. -/
def State.bedNat (s : State) (n off k : Nat) : Nat := Memory.readNat ramFill s.mem.bedMem (bedBase n + off) k

/-- Store a little-endian value in bed n's memory. -/
def bedStore (n off k v : Nat) (s : State) : State :=
  { s with mem := { s.mem with bedMem := Memory.writeNat ramFill s.mem.bedMem (bedBase n + off) k v } }

/-- The offset that a thread addresses. -/
def Ctx.bedOff (c : Ctx) (t : Nat) : Nat :=
  (((c.src 4 (iA c.word) t : Int) + c.imm) % (2 ^ 32 : Int)).toNat

/-- SRCA of a bed-memory instruction is a V or S register (Table 13.11). -/
def Ctx.offOk (c : Ctx) : Bool :=
  let a := iA c.word
  (a < 0x100 && a < c.w.vgprs) || (0x100 ≤ a && a ≤ 0x11F)

/-- A queued TACC_STORE has yet to write bytes that an access of the bed touches (R345). -/
def State.bedLocked (s : State) (n lo hi : Nat) : Bool :=
  (s.bedAt n).queue.any (fun q => iOp q.word == 2 &&
    q.a < hi && lo < q.a + slice q.ext 32 16 * (slice q.ext 12 4 + 1) + 128)

/-- A bed-memory instruction: operand, register and address checks, then its effect on each acting thread's offset. -/
def localAccess (code : Nat) (ok : Ctx → Bool) (regsOk : Ctx → Bool) (body : Ctx → State → State)
    (bed slot : Fin 48) (s : State) : Out :=
  .next (issue bed slot (fun cls o => cls == 5 && o == code) (fun c t =>
    let offs := c.threads.map c.bedOff
    let w := if code = 2 then 4 else memWidth c
    if !ok c || !c.extOk || !c.offOk then c.illegal t
    else if !regsOk c || offs.any (fun a => a % w ≠ 0) then c.misaligned t
    else if offs.any (fun a => BED_LIMIT < a + w) then c.range t
    else if offs.any (fun a => t.bedLocked c.n a (a + w)) then c.hold t
    else body c t) s)

/-- LDB (R334). -/
def execLdb (bed slot : Fin 48) (s : State) : Out :=
  localAccess 0 (fun c => iMod c.word % 8 ≤ 4 && c.dataOk true (memWidth c) (iDst c.word))
    (fun c => regAligned (memWidth c) (iDst c.word))
    (fun c t => c.pendLoad (memWidth c) (c.threads.flatMap (fun th =>
      loadWrites c (memWidth c) th (t.bedNat c.n (c.bedOff th) (memWidth c)))) none t) bed slot s

/-- STB (R334, R335): the highest-numbered acting thread's value stays. -/
def execStb (bed slot : Fin 48) (s : State) : Out :=
  localAccess 1 (fun c => iMod c.word % 8 ≤ 4 && c.dataOk false (memWidth c) (iB c.word))
    (fun c => regAligned (memWidth c) (iB c.word))
    (fun c t => t.each c.threads (fun th u =>
      bedStore c.n (c.bedOff th) (memWidth c) (c.data (iB c.word) (memWidth c) th) u)) bed slot s

/-- An atomic operation on an old value (Table 13.11). -/
def atomic (op typ old b c : Nat) : Nat :=
  let less := if typ = 3 then decide (sext 32 b < sext 32 old) else decide (b < old)
  let more := if typ = 3 then decide (sext 32 old < sext 32 b) else decide (old < b)
  match op with
  | 0 => (old + b) % 2 ^ 32
  | 1 => if less then b else old
  | 2 => if more then b else old
  | 3 => Nat.land old b
  | 4 => Nat.lor old b
  | 5 => b
  | _ => if old = b then c else old

/-- The operands of an atomic are accepted: an operation of Table 13.11, 32-bit registers. -/
def Ctx.atomOk (c : Ctx) : Bool :=
  iMod c.word % 8 ≤ 6 && c.dstV (iDst c.word) && c.srcOk true 4 (iB c.word) && c.srcOk true 4 (iC c.word)

/-- ATOMB (R334, R335): in ascending thread order, each thread receives the value before its own operation. -/
def execAtomb (bed slot : Fin 48) (s : State) : Out :=
  localAccess 2 (fun c => c.atomOk) (fun _ => true)
    (fun c t =>
      let r := c.threads.foldl (fun (a : List (Nat × Nat) × State) th =>
        let old := a.2.bedNat c.n (c.bedOff th) 4
        let new := atomic (iMod c.word % 8) (iType c.word) old (c.src 4 (iB c.word) th) (c.src 4 (iC c.word) th)
        (a.1 ++ [(th, old)], bedStore c.n (c.bedOff th) 4 new a.2)) ([], t)
      c.writeV r.1 r.2) bed slot s

/-! Translated memory -/

/-- The VA that a thread addresses: the register pair plus IMM. -/
def Ctx.va (c : Ctx) (t : Nat) : Nat :=
  let a := iA c.word
  (((c.src 4 a t + 2 ^ 32 * c.src 4 (a + 1) t : Nat) : Int) + c.imm) % (2 ^ 64 : Int) |>.toNat

/-- SRCA names an address pair of V or S registers. -/
def Ctx.pairOk (c : Ctx) : Bool :=
  let a := iA c.word
  (a < 0x100 && a + 1 < c.w.vgprs) || (0x100 ≤ a && a + 1 ≤ 0x11F)

/-- Translate pages in order before any access (R336): the first fault, or none. -/
def translateAll (q : Req) (fn allot : Nat) (a : Access) : List Nat → State → Option (Nat × Nat × Nat) × State
  | [], s => (none, s)
  | va :: r, s =>
    let t := translate q fn allot va a false s
    match t.1 with
    | .error e => (some (e.1, e.2, va), t.2)
    | .ok _ => translateAll q fn allot a r t.2

/-- A page of an allotment is mapped to host memory. -/
def State.hostPage (s : State) (q : Req) (fn allot va : Nat) : Bool :=
  match (translate q fn allot va .read false s).1 with
  | .ok t => t.host
  | .error _ => false

/-- A MEMG instruction: checks, then translation of every page for the accesses named, then its effect; it waits behind
a fault of its order (R336). -/
def globalAccess (code : Nat) (ok : Ctx → Bool) (regsOk : Ctx → Bool) (acc : List Access) (body : Ctx → Req → State → State)
    (bed slot : Fin 48) (s : State) : Out :=
  .next (issue bed slot (fun cls o => cls == 6 && o == code) (fun c t =>
    let vas := c.threads.map c.va
    let w := if code = 2 then 4 else memWidth c
    let q := t.bedReq c.n c.o.cls (code ≠ 2 && bit (iMod c.word) 4)
    if !ok c || !c.extOk || !c.pairOk then c.illegal t
    else if !regsOk c || (code ≠ 3 && vas.any (fun a => a % w ≠ 0)) then c.misaligned t
    else if code ≠ 3 && t.orderStalled c.w.uid then c.hold t
    else
      let r := acc.foldl (fun (x : Option (Nat × Nat × Nat × Access) × State) a =>
        match x.1 with
        | some _ => x
        | none =>
          let y := translateAll q c.o.fn c.o.allot a vas x.2
          (y.1.map (fun (f : Nat × Nat × Nat) => (f.1, f.2.1, f.2.2, a)), y.2)) (none, t)
      match r.1 with
      | some (reason, level, va, a) => if code = 3 then r.2 else c.stall reason level va a r.2
      | none => body c q r.2) s)

/-- Read the threads' data in ascending order: values, or the first error completion. -/
def gather (c : Ctx) (q : Req) (width : Nat) : List Nat → State → Except MemErr (List (Nat × Nat)) × State
  | [], s => (.ok [], s)
  | t :: r, s =>
    let x := vaRead q c.o.fn c.o.allot (c.va t) width .read false s
    match x.1 with
    | .error (.err e) => (.error e, x.2)
    | .error (.fault _ _ _) => (.error ⟨0xF0, 0x82, 0⟩, x.2)
    | .ok bs =>
      let y := gather c q width r x.2
      (y.1.map (fun l => (t, leNat bs) :: l), y.2)

/-- LDG (R336, R337). -/
def execLdg (bed slot : Fin 48) (s : State) : Out :=
  globalAccess 0 (fun c => iMod c.word % 8 ≤ 4 && c.dataOk true (memWidth c) (iDst c.word))
    (fun c => regAligned (memWidth c) (iDst c.word)) [.read]
    (fun c q t =>
      let r := gather c q (memWidth c) c.threads t
      match r.1 with
      | .ok vals => c.pendLoad (memWidth c) (vals.flatMap (fun (e : Nat × Nat) => loadWrites c (memWidth c) e.1 e.2)) none r.2
      | .error e => c.pendLoad (memWidth c) [] (some ⟨e.status, e.detail, e.island⟩) r.2) bed slot s

/-- Store the threads' data in ascending order, up to the first error completion. -/
def scatter (c : Ctx) (q : Req) (width : Nat) : List Nat → State → Option MemErr × State
  | [], s => (none, s)
  | t :: r, s =>
    let x := vaWrite q c.o.fn c.o.allot (c.va t) (leBytes width (c.data (iB c.word) width t)) false s
    match x.1 with
    | some (.err e) => (some e, x.2)
    | some (.fault _ _ _) => (some ⟨0xF0, 0x82, 0⟩, x.2)
    | none => scatter c q width r x.2

/-- STG (R336, R335, R337). -/
def execStg (bed slot : Fin 48) (s : State) : Out :=
  globalAccess 1 (fun c => iMod c.word % 8 ≤ 4 && c.dataOk false (memWidth c) (iB c.word))
    (fun c => regAligned (memWidth c) (iB c.word)) [.write]
    (fun c q t =>
      let r := scatter c q (memWidth c) c.threads t
      match r.1 with
      | none => r.2
      | some e => trapAccess c.n c.w e c.word r.2) bed slot s

/-- ATOMG (R336, R335): an atomic at the owning slice; through a HOST page it traps. -/
def execAtomg (bed slot : Fin 48) (s : State) : Out :=
  globalAccess 2 (fun c => c.atomOk) (fun _ => true) [.read, .write]
    (fun c q t =>
      if c.threads.any (fun th => t.hostPage q c.o.fn c.o.allot (c.va th)) then
        trapWave c.n c.w 6 0xF0 0xA5 c.word t
      else
        let r := c.threads.foldl (fun (a : Option MemErr × List (Nat × Nat) × State) th =>
          match a.1 with
          | some _ => a
          | none =>
            let x := vaRead q c.o.fn c.o.allot (c.va th) 4 .read false a.2.2
            match x.1 with
            | .error (.err e) => (some e, a.2.1, x.2)
            | .error (.fault _ _ _) => (some ⟨0xF0, 0x82, 0⟩, a.2.1, x.2)
            | .ok bs =>
              let new := atomic (iMod c.word % 8) (iType c.word) (leNat bs) (c.src 4 (iB c.word) th) (c.src 4 (iC c.word) th)
              let y := vaWrite q c.o.fn c.o.allot (c.va th) (leBytes 4 new) false x.2
              match y.1 with
              | some (.err e) => (some e, a.2.1, y.2)
              | some (.fault _ _ _) => (some ⟨0xF0, 0x82, 0⟩, a.2.1, y.2)
              | none => (none, a.2.1 ++ [(th, leNat bs)], y.2)) (none, [], t)
        match r.1 with
        | some e => trapAccess c.n c.w e c.word r.2.2
        | none => c.writeV r.2.1 r.2.2) bed slot s

/-- PREFETCH (R336): fills each line into the shed; a fault or an error is dropped. -/
def execPrefetch (bed slot : Fin 48) (s : State) : Out :=
  globalAccess 3 (fun _ => true) (fun _ => true) []
    (fun c q t => t.each c.threads (fun th u =>
      (vaRead { q with noAlloc := false } c.o.fn c.o.allot (c.va th / 128 * 128) 128 .read false u).2)) bed slot s

/-! The sampler (R338, Table 13.13) -/

/-- The image descriptor of eight S registers. -/
structure Img where
  (base width height pitch format : Nat)
  (bilinear border norm : Bool)
  (chroma : Nat)
  deriving DecidableEq, Repr

/-- Read the descriptor; none where it breaks Table 13.13. -/
def Ctx.img (c : Ctx) : Option Img :=
  let r := fun i => c.src 4 (iC c.word + i) 0
  let base := r 0 + 2 ^ 32 * r 1
  let f := slice (r 4) 0 4
  let ok := slice base 48 16 == 0 && base % 64 == 0 && slice (r 2) 14 2 == 0 && slice (r 2) 30 2 == 0 &&
    slice (r 2) 0 14 < 8192 && slice (r 2) 16 14 < 8192 && r 3 < 2 ^ 24 && r 3 % 64 == 0 && f ≤ 7 &&
    slice (r 4) 5 2 ≤ 1 && r 4 < 256 && (r 5 == 0 || f == 6 || f == 7) && r 6 == 0 && r 7 == 0
  if ok then some ⟨base, slice (r 2) 0 14 + 1, slice (r 2) 16 14 + 1, r 3, f, bit (r 4) 4, bit (r 4) 5, bit (r 4) 7, r 5⟩
  else none

/-- Bytes of a texel of the first plane. -/
def texelBytes (format : Nat) : Nat :=
  match format with
  | 0 => 1 | 1 => 2 | 2 => 4 | 3 => 2 | 4 => 8 | 5 => 4 | 6 => 1 | _ => 2

/-- The VAs, with lengths, of what a texel holds: luma and chroma for NV12 and P010. -/
def Img.texelAt (i : Img) (x y : Nat) : List (Nat × Nat) :=
  let n := texelBytes i.format
  let first := (i.base + y * i.pitch + x * n, n)
  if i.format = 6 ∨ i.format = 7 then
    [first, (i.base + i.chroma + y / 2 * i.pitch + x / 2 * (2 * n), 2 * n)]
  else [first]

/-- A whole coordinate under the descriptor's ADDRESS rule: a texel index, or none for the border. -/
def addressOf (border : Bool) (size : Nat) (x : Int) : Option Nat :=
  if 0 ≤ x ∧ x < size then some x.toNat
  else if border then none
  else some (if x < 0 then 0 else size - 1)

/-- The floor of a coordinate in pixels less `half` / 2; a NaN or an infinity has no stated place, so a free value
picks one (log entry 17). -/
def coordFloor (norm : Bool) (size half free : Nat) (v : Nat) : Int :=
  let x := if norm then (fp32.decode v).mul (.num false size 0) else some (fp32.decode v)
  match x.bind (fun y => y.add (.num true half (-1))) with
  | some y => match y.integral 0 with
    | .num n m e => (if n then -1 else 1) * ((m * 2 ^ e.toNat : Nat) : Int)
    | _ => ((free % size : Nat) : Int)
  | none => ((free % size : Nat) : Int)

/-- The texels of a thread's fetch: 1 for a nearest or unfiltered fetch, 4 for the bilinear footprint. -/
def Ctx.footprint (c : Ctx) (i : Img) (t : Nat) : List (Option (Nat × Nat)) :=
  let u := c.src 0 (iA c.word) t
  let v := c.src 0 (iB c.word) t
  let at_ := fun (x y : Int) => (addressOf i.border i.width x).bind (fun a => (addressOf i.border i.height y).map (fun b => (a, b)))
  if iOp c.word = 2 then [at_ (sext 32 u) (sext 32 v)]
  else if iOp c.word = 0 ∧ !i.bilinear then
    [at_ (coordFloor i.norm i.width 0 (c.free t 0) u) (coordFloor i.norm i.height 0 (c.free t 1) v)]
  else
    let x := coordFloor i.norm i.width 1 (c.free t 0) u
    let y := coordFloor i.norm i.height 1 (c.free t 1) v
    [at_ x y, at_ (x + 1) y, at_ x (y + 1), at_ (x + 1) (y + 1)]

/-- Every VA range that the acting threads' fetches touch. -/
def Ctx.sampleRanges (c : Ctx) (i : Img) : List (Nat × Nat) :=
  c.threads.flatMap (fun t => (c.footprint i t).flatMap (fun p => p.elim [] (fun xy => i.texelAt xy.1 xy.2)))

/-- The components of a texel's bytes as FP32: F16 and F32 exactly, 8- and 10-bit ones under `Config.texelValue`. -/
def components (format : Nat) (bs : List (List Byte)) : List Nat :=
  let raw := bs.getD 0 []
  match format with
  | 3 => [(convert .rn 1 0 (leNat raw)).bits]
  | 4 => (List.range 4).map (fun k => (convert .rn 1 0 (bytesAt raw (2 * k) 2)).bits)
  | 5 => [leNat raw]
  | 6 => [Config.texelValue (leNat raw), Config.texelValue (bytesAt (bs.getD 1 []) 0 1),
          Config.texelValue (bytesAt (bs.getD 1 []) 1 1), 0x3F800000]
  | 7 => [Config.texelValue (256 + leNat raw), Config.texelValue (256 + bytesAt (bs.getD 1 []) 0 2),
          Config.texelValue (256 + bytesAt (bs.getD 1 []) 2 2), 0x3F800000]
  | _ => (List.range raw.length).map (fun k => Config.texelValue (bytesAt raw k 1))

/-- The components of a texel, or of the border: zeros. -/
def texel (c : Ctx) (q : Req) (i : Img) (p : Option (Nat × Nat)) (s : State) : Except MemErr (List Nat) × State :=
  match p with
  | none => (.ok [0, 0, 0, 0], s)
  | some xy =>
    let r := (i.texelAt xy.1 xy.2).foldl (fun (a : Except MemErr (List (List Byte)) × State) (e : Nat × Nat) =>
      match a.1 with
      | .error x => (.error x, a.2)
      | .ok l =>
        let x := vaRead q c.o.fn c.o.allot e.1 e.2 .read false a.2
        match x.1 with
        | .ok bs => (.ok (l ++ [bs]), x.2)
        | .error (.err m) => (.error m, x.2)
        | .error (.fault _ _ _) => (.error ⟨0xF0, 0x82, 0⟩, x.2)) (.ok [], s)
    (r.1.map (components i.format), r.2)

/-- What a thread receives: a single texel's components, a bilinear filter's free values (its arithmetic is not stated),
or one channel of each of the four texels; a component that the format has not is a free value (log entry 17). -/
def Ctx.sampled (c : Ctx) (t : Nat) (ts : List (List Nat)) : List Nat :=
  if iOp c.word = 1 then (List.range 4).map (fun k => (ts.getD k []).getD (slice (iMod c.word) 0 2) (c.free t (2 + k) % 2 ^ 32))
  else if ts.length = 1 then (List.range 4).map (fun k => (ts.getD 0 []).getD k (c.free t (2 + k) % 2 ^ 32))
  else (List.range 4).map (fun k => c.free t (2 + k) % 2 ^ 32)

/-- Fetch for the acting threads in ascending order. -/
def sampleAll (c : Ctx) (q : Req) (i : Img) : List Nat → State → Except MemErr (List (Nat × Nat × Nat)) × State
  | [], s => (.ok [], s)
  | t :: r, s =>
    let x := (c.footprint i t).foldl (fun (a : Except MemErr (List (List Nat)) × State) p =>
      match a.1 with
      | .error e => (.error e, a.2)
      | .ok l =>
        let y := texel c q i p a.2
        (y.1.map (fun k => l ++ [k]), y.2)) (.ok [], s)
    match x.1 with
    | .error e => (.error e, x.2)
    | .ok ts =>
      let y := sampleAll c q i r x.2
      let here := (List.zip (List.range 4) (c.sampled t ts)).map (fun (p : Nat × Nat) => (iDst c.word + p.1, t, p.2))
      (y.1.map (fun l => here ++ l), y.2)

/-- A sampler instruction (R334, R336–R338). -/
def sampler (code : Nat) (bed slot : Fin 48) (s : State) : Out :=
  .next (issue bed slot (fun cls o => cls == 7 && o == code) (fun c t =>
    let a := iC c.word
    if !c.extOk || !c.srcOk true 0 (iA c.word) || !c.srcOk true 0 (iB c.word) || a < 0x100 || 0x118 < a || a % 8 ≠ 0 ||
        !(iDst c.word < 0x100 && iDst c.word + 4 ≤ c.w.vgprs) then c.illegal t
    else match c.img with
      | none => c.illegal t
      | some i =>
        if t.orderStalled c.w.uid then c.hold t
        else
          let q := t.bedReq c.n c.o.cls false
          let ends := (c.sampleRanges i).flatMap (fun (r : Nat × Nat) => [r.1, r.1 + r.2 - 1])
          let f := translateAll q c.o.fn c.o.allot .read ends t
          match f.1 with
          | some e => c.stall e.1 e.2.1 e.2.2 .read f.2
          | none =>
            let r := sampleAll c q i c.threads f.2
            match r.1 with
            | .ok w => c.pendLoad 16 w none r.2
            | .error e => c.pendLoad 16 [] (some ⟨e.status, e.detail, e.island⟩) r.2) s)

/-- SAMPLE (R338). -/
def execSample (bed slot : Fin 48) (s : State) : Out := sampler 0 bed slot s
/-- GATHER4 (R338). -/
def execGather4 (bed slot : Fin 48) (s : State) : Out := sampler 1 bed slot s
/-- LOADTEX (R338). -/
def execLoadtex (bed slot : Fin 48) (s : State) : Out := sampler 2 bed slot s

/-- The data of a load reaches its registers. -/
def deliver (l : LoadInFlight) (n : Nat) (s : State) : State :=
  match s.wave n l.slot with
  | some w => putWave n (l.writes.foldl (fun (x : Wave) (e : Nat × Nat × Nat) => x.setV e.1 e.2.1 e.2.2) w) s
  | none => s

/-- The i-th outstanding load of a bed receives its data, or its error completion ends the order, recorded with KIND
ACCESS. -/
def arriveLoad (n index : Nat) (s : State) : State :=
  match (s.bedAt n).loads[index]? with
  | none => s
  | some l =>
    let b := s.bedAt n
    let s1 := setBed n { b with loads := b.loads.eraseIdx index } s
    match l.err, s1.wave n l.slot with
    | some e, some w => trapAccess n { w with pc := l.pc } ⟨e.status, e.detail, e.island⟩ l.word s1
    | _, _ => deliver l n s1

/-- LOAD_DATA_ARRIVAL (R337). -/
def execLoadDataArrival (bed : Fin 48) (index : Nat) (s : State) : Out :=
  .next (if s.isOpen (bed + 4) then arriveLoad bed index s else s)

end Sys2Proof.Machine
end

