-- ==== Sys2Proof/Machine/Sync.lean ====
section
/-! DEFINITION. Meanings of the bed's synchronisation instructions and of its semaphores' clock (spec/13 R339–R342,
R348). -/
namespace Sys2Proof.Machine

/-- A synchronisation instruction with scalar operands at the named positions. -/
def sync (code : Nat) (ok : Ctx → Bool) (body : Ctx → State → State) (bed slot : Fin 48) (s : State) : Out :=
  .next (issue bed slot (fun cls o => cls == 8 && o == code) (fun c t =>
    if !c.extOk || !ok c then c.illegal t else body c t) s)

/-- The wave of an instruction begins to wait. -/
def Ctx.begin_ (c : Ctx) (w : WaveWait) (s : State) : State :=
  let b := s.bedAt c.n
  let s1 := setBed c.n { b with waitSeq := b.waitSeq + 1 } s
  c.change (fun x => { x with wait := w, since := b.waitSeq + 1, waitPc := c.w.pc, waitWord := c.word }) s1

/-- Release a group whose live waves have all reached a BAR (R340). -/
def releaseBar (n group : Nat) (s : State) : State :=
  let b := s.bedAt n
  let g := b.waves.filter (fun w => w.group = group)
  if g.all (fun w => w.wait = .bar) then
    setBed n { b with waves := b.waves.map (fun w => if w.group = group then { w with wait := .ready } else w) } s
  else s

/-- BAR (R340). -/
def execBar (bed slot : Fin 48) (s : State) : Out :=
  sync 0 (fun _ => true) (fun c t => releaseBar c.n c.w.group (c.begin_ .bar t)) bed slot s

/-- FENCE (R339): every access of the model is performed before the next one, so only the program counter moves; a
SCOPE of 3 is not listed. -/
def execFence (bed slot : Fin 48) (s : State) : Out :=
  sync 1 (fun c => slice (iMod c.word) 0 2 ≤ 2) (fun _ t => t) bed slot s

/-- SRCA names a semaphore 0–15 by a scalar, and SRCB is a scalar (R340). -/
def Ctx.semOk (c : Ctx) : Bool :=
  c.srcOk false 4 (iA c.word) && c.srcOk false 4 (iB c.word) && c.src 4 (iA c.word) 0 < 16

/-- SEM_WAIT (R340). -/
def execSemWait (bed slot : Fin 48) (s : State) : Out :=
  sync 2 (fun c => c.semOk) (fun c t => c.begin_ (.semWait (c.src 4 (iA c.word) 0) (c.src 4 (iB c.word) 0)) t) bed slot s

/-- SEM_TAKE (R340). -/
def execSemTake (bed slot : Fin 48) (s : State) : Out :=
  sync 3 (fun c => c.semOk) (fun c t => c.begin_ (.semTake (c.src 4 (iA c.word) 0) (c.src 4 (iB c.word) 0)) t) bed slot s

/-- The bed that SEM_ADD names: NULL is the own bed. -/
def Ctx.targetBed (c : Ctx) : Nat := if iC c.word = 0x1FF then c.n else c.src 4 (iC c.word) 0

/-- SEM_ADD (R340, R342): posted; lost and counted where the target bed is shut. -/
def execSemAdd (bed slot : Fin 48) (s : State) : Out :=
  .next (issue bed slot (fun cls o => cls == 8 && o == 4) (fun c t =>
    if !c.extOk || !c.semOk || !c.srcOk false 4 (iC c.word) || 48 ≤ c.targetBed || !t.samePlot c.n c.targetBed then c.illegal t
    else if t.isShut (c.targetBed + 4) then
      (t.bump (F.bedStatusLost c.n) 1).bump (F.islandCountResetSent (c.targetBed + 4)) 1
    else postIncrement c.targetBed (c.src 4 (iA c.word) 0) (c.src 4 (iB c.word) 0) t) s)

/-- SEM_SET (R340). -/
def execSemSet (bed slot : Fin 48) (s : State) : Out :=
  sync 5 (fun c => c.semOk) (fun c t =>
    let b := t.bedAt c.n
    setBed c.n { b with sets := b.sets ++ [(c.src 4 (iA c.word) 0, c.src 4 (iB c.word) 0)] } t) bed slot s

/-- HRELEASE (R340, R342, R309): the channel must be a host or work-order channel; posted. -/
def execHrelease (bed slot : Fin 48) (s : State) : Out :=
  .next (issue bed slot (fun cls o => cls == 8 && o == 6) (fun c t =>
    let ch := c.src 4 (iA c.word) 0
    let e := slice ch 0 1
    let k := slice ch 4 4
    if !c.extOk || !c.srcOk false 4 (iA c.word) || !c.srcOk false 4 (iB c.word) || slice ch 1 3 ≠ 0 || 256 ≤ ch ||
        2 ≤ t.get (F.hoseCfgOwner e k) then c.illegal t
    else if t.isShut (67 + e) then (t.bump (F.bedStatusLost c.n) 1).bump (F.islandCountResetSent (67 + e)) 1
    else releaseChannel e k (c.src 4 (iB c.word) 0) t) s)

/-- A semaphore register. -/
def State.sem (s : State) (n k : Nat) : Nat := (s.rd (R.bedSem n k)).toNat

/-- Set a semaphore. -/
def setSem (n k v : Nat) (s : State) : State := s.wr (R.bedSem n k) (BitVec.ofNat 32 v)

/-- One increment, which stops at the largest value and sets SEM_OVF (R341). -/
def addSem (n k v : Nat) (s : State) : State :=
  if 2 ^ 32 ≤ s.sem n k + v then (setSem n k (2 ^ 32 - 1) s).put (F.bedStatusSemOvf n) 1 else setSem n k (s.sem n k + v) s

/-- Test one waiting wave. -/
def testWait (n : Nat) (w : Wave) (s : State) : State :=
  match w.wait with
  | .semWait k v => if v ≤ s.sem n k then putWave n { w with wait := .ready } s else s
  | .semTake k v => if v ≤ s.sem n k then putWave n { w with wait := .ready } (setSem n k (s.sem n k - v) s) else s
  | _ => s

/-- SEMAPHORE_UPDATE (R341): increments, then sets, then the waiting waves in the order in which they began to wait. -/
def execSemaphoreUpdate (bed : Fin 48) (s : State) : Out :=
  .next (if !s.isOpen (bed + 4) then s
    else
      let b := s.bedAt bed
      let s1 := setBed bed { b with incs := [], sets := [] } s
      let s2 := s1.each b.incs (fun e t => addSem bed e.1 e.2 t)
      let s3 := s2.each b.sets (fun e t => setSem bed e.1 e.2 t)
      s3.each (b.waves.mergeSort (fun x y => x.since < y.since || (x.since == y.since && x.slot ≤ y.slot)))
        (fun w t => testWait bed w t))

/-- A wave waits in SEM_WAIT, SEM_TAKE, BAR or TWAIT (R348). -/
def Wave.waits (w : Wave) : Bool :=
  match w.wait with
  | .semWait _ _ => true
  | .semTake _ _ => true
  | .bar => true
  | .twait _ => true
  | _ => false

/-- WAIT_TIMEOUT (R348): the timer stops while the hedge is STOPPED. -/
def execWaitTimeout (bed slot : Fin 48) (s : State) : Out :=
  .next (match s.wave bed slot with
    | some w =>
      if w.waits && s.isOpen (bed + 4) then trapWave bed { w with pc := w.waitPc } 5 0xF0 0xA4 w.waitWord s else s
    | none => s)

end Sys2Proof.Machine
end

