-- ==== Sys2Proof/Machine/Tensor.lean ====
section
/-! DEFINITION. Meanings of the tensor instructions and of the end of a tensor-queue entry (spec/13 R343–R345, spec/14
R361–R366, spec/16 R390–R400). -/
namespace Sys2Proof.Machine

/-! The tensor descriptor (Table 13.16) -/
def tBank (x : Nat) : Nat := slice x 0 3
def tClear (x : Nat) : Bool := bit x 3
def tTypeA (x : Nat) : Nat := slice x 4 4
def tTypeB (x : Nat) : Nat := slice x 8 4
def tM (x : Nat) : Nat := slice x 12 4 + 1
def tN (x : Nat) : Nat := slice x 16 5 + 1
def tTrans (x : Nat) : Bool := bit x 21
def tRelu (x : Nat) : Bool := bit x 22
def tSpA (x : Nat) : Bool := bit x 23
def tSpB (x : Nat) : Bool := bit x 24
def tCh (x : Nat) : Nat := slice x 25 3
def tStrideA (x : Nat) : Nat := slice x 32 16
def tStrideB (x : Nat) : Nat := slice x 48 16

/-- Bytes of `k` packed elements of a type. -/
def packBytes (typ k : Nat) : Nat := ceilDiv (k * elemBits typ) 8

/-- The bounds of a bed's tensor scratch. -/
def State.scratch (s : State) (n : Nat) : Nat × Nat :=
  let t := s.get (F.bedSplitTile n) * 0x8000
  (t, t + s.get (F.bedSplitScratch n) * 0x8000)

/-- A byte range lies in tensor scratch. -/
def State.inScratch (s : State) (n lo len : Nat) : Bool := (s.scratch n).1 ≤ lo && lo + len ≤ (s.scratch n).2

/-- The mode of a bank once the queued entries have executed: true for FP32. -/
def Bed.modeAfter (b : Bed) (bank : Nat) : Bool :=
  b.queue.foldl (fun m q =>
    if tBank q.ext ≠ bank then m
    else if iOp q.word ≤ 1 ∧ tClear q.ext then iType q.word == 0
    else if iOp q.word = 4 then iType q.word == 0
    else m) (b.banks.getD bank ⟨true, []⟩).fp

/-- Queue an entry; with the queue full the wave is not ready (R343). -/
def Ctx.enqueue (c : Ctx) (a b k : Nat) (regs : List Nat) (s : State) : State :=
  let bd := s.bedAt c.n
  if 8 ≤ bd.queue.length then c.hold s
  else changeBed c.n (fun x => { x with queue := x.queue ++
    [⟨c.w.slot, c.w.uid, c.w.tile, c.w.pc, c.word, c.ext, a, b, k, regs⟩] }) s

/-- A tensor instruction. -/
def tensor (code : Nat) (body : Ctx → State → State) (bed slot : Fin 48) (s : State) : Out :=
  .next (issue bed slot (fun cls o => cls == 9 && o == code) body s)

/-- SRCA, SRCB and SRCC are scalars; the literal has no place beside the descriptor. -/
def Ctx.tensorSrc (c : Ctx) (code : Nat) : Bool := c.srcOk false 4 code && code != 0x1F0

/-- The rows of a dense A, and the rows of a dense B, lie in scratch. -/
def denseIn (s : State) (n base rows stride len : Nat) : Bool :=
  (List.range rows).all (fun i => s.inScratch n (base + i * stride) len)

/-- TMMA and TSPARSE: the checks of R344, R390 and Table 13.16, then the queue. -/
def multiply (sparse : Bool) (c : Ctx) (s : State) : State :=
  let x := c.ext
  let a := c.src 4 (iA c.word) 0
  let b := c.src 4 (iB c.word) 0
  let k := c.src 4 (iC c.word) 0
  let pair := tillerPair (tTypeA x) (tTypeB x)
  let typ := iType c.word
  let spOk := if sparse then (tSpA x || tSpB x) && (!tSpA x || tStrideA x == 0) &&
      (!tSpB x || (tStrideB x == 0 && !tTrans x)) else !tSpA x && !tSpB x
  let modeOk := tClear x || ((s.bedAt c.n).modeAfter (tBank x) == (typ == 0))
  if !iExt c.word || slice x 28 4 ≠ 0 || !c.tensorSrc (iA c.word) || !c.tensorSrc (iB c.word) ||
      !c.tensorSrc (iC c.word) || k = 0 || 4096 < k || pair ≠ some typ || (tTypeA x = 10 && k % 2 = 1) || !spOk ||
      tStrideA x % 4 ≠ 0 || !modeOk then c.illegal s
  else
    let aOk := tSpA x || denseIn s c.n a (tM x) (tStrideA x) (packBytes (tTypeA x) k)
    let bOk := tSpB x || (if tTrans x then denseIn s c.n b (tN x) (tStrideB x) (packBytes (tTypeB x) k)
      else denseIn s c.n b k (tStrideB x) (packBytes (tTypeB x) (tN x)))
    if !aOk || !bOk then c.range s else c.enqueue a b k [] s

/-- TMMA (R343–R345). -/
def execTmma (bed slot : Fin 48) (s : State) : Out := tensor 0 (multiply false) bed slot s
/-- TSPARSE (R343, R390, R392). -/
def execTsparse (bed slot : Fin 48) (s : State) : Out := tensor 1 (multiply true) bed slot s

/-- TACC_STORE (R343, R361). -/
def execTaccStore (bed slot : Fin 48) (s : State) : Out :=
  tensor 2 (fun c t =>
    let x := c.ext
    let a := c.src 4 (iA c.word) 0
    if !iExt c.word || slice x 28 4 ≠ 0 || tSpA x || tSpB x || !anyType (iType c.word) ||
        !c.tensorSrc (iA c.word) || !(c.srcOk false 0 (iB c.word) && iB c.word != 0x1F0) || tStrideA x % 4 ≠ 0 then c.illegal t
    else if !denseIn t c.n a (tM x) (tStrideA x) (packBytes (iType c.word) (tN x)) then c.range t
    else c.enqueue a (c.src 0 (iB c.word) 0) 0 [] t) bed slot s

/-- The V registers of an accumulator transfer exist, and TYPE is INT32 or FP32. -/
def Ctx.accRegs (c : Ctx) (code : Nat) : Bool :=
  (iType c.word == 0 || iType c.word == 3) && code < 0x100 && code + tM c.ext ≤ c.w.vgprs && slice c.ext 28 4 == 0

/-- TACC_READ (R343, R326): without an extension word its descriptor reads as zeros; the entry keeps which threads act. -/
def execTaccRead (bed slot : Fin 48) (s : State) : Out :=
  tensor 3 (fun c t => if !c.accRegs (iDst c.word) then c.illegal t else c.enqueue (listMask c.threads) 0 0 [] t) bed slot s

/-- TACC_WRITE (R343, R326): the registers of the threads that act are read at issue. -/
def execTaccWrite (bed slot : Fin 48) (s : State) : Out :=
  tensor 4 (fun c t =>
    if !c.accRegs (iA c.word) then c.illegal t
    else c.enqueue (listMask c.threads) 0 0 ((List.range (tM c.ext)).flatMap (fun i => (List.range 32).map (fun th =>
      c.src 4 (iA c.word + i) th))) t) bed slot s

/-- The unfinished queue entries of a wave. -/
def Bed.unfinished (b : Bed) (slot : Nat) : Nat := (b.queue.filter (fun q => q.slot = slot)).length

/-- TWAIT (R343): SRCA is an inline integer 0–7. -/
def execTwait (bed slot : Fin 48) (s : State) : Out :=
  tensor 5 (fun c t =>
    if slice c.ext 28 4 ≠ 0 || iA c.word < 0x140 || 0x147 < iA c.word then c.illegal t
    else
      let n := iA c.word - 0x140
      if (t.bedAt c.n).unfinished c.w.slot ≤ n then t else c.begin_ (.twait n) t) bed slot s

/-! The end of an entry -/

/-- The issuing wave as the trap and the records name it. -/
def TensorEntry.wave (q : TensorEntry) (n : Nat) (s : State) : Wave :=
  match s.wave n q.slot with
  | some w => { w with pc := q.pc }
  | none => ⟨q.slot, q.uid, q.tile, 0, 0, 8, q.pc, 0, [], [], [], [], 0, .ready, 0, 0, 0⟩

/-- The numeric record of an event of an entry. -/
def TensorEntry.event (q : TensorEntry) (s : State) (k row col sign : Nat) : NumEvent :=
  let id := s.numIds q.uid
  { tag := id.1, sq := id.2, lane := row % 4 * 32 + col, opcode := opcodeField q.word, wave := q.slot,
    bank := tBank q.ext, tiller := true, row := row, col := col, elem := 0, sign := sign, tile := q.tile, k := k, pc := q.pc }

/-- Elements of a dense operand row in bed memory. -/
def State.bedRow (s : State) (n off typ k : Nat) : List Nat :=
  let bs := Memory.read ramFill s.mem.bedMem (bedBase n + off) (packBytes typ k)
  (List.range k).map (packedAt bs 0 (elemBits typ))

/-- Operand fibres: present elements with their k, and blocks for the sieve's counters. -/
abbrev Fibres := List (List (List (Nat × Nat)))

/-- How an operand of an entry decodes. -/
inductive Operand where
  | ok (f : Fibres)
  | range
  | format
  deriving DecidableEq, Repr

/-- A dense list cut into blocks of 256. -/
def denseBlocks : Nat → List Nat → List (List (Nat × Nat))
  | 0, _ => []
  | fuel + 1, vs => if vs.isEmpty then [] else denseElems (vs.take 256) :: denseBlocks fuel (vs.drop 256)

/-- A sparse operand of `count` fibres in scratch (R388, R390). -/
def sparseOperand (s : State) (n off count k bits : Nat) : Operand :=
  let hi := (s.scratch n).2
  if !s.inScratch n off (4 * count) then .range
  else
    let bs := Memory.read ramFill s.mem.bedMem (bedBase n + off) (hi - off)
    let dirs := (List.range count).map (fun f => bytesAt bs (4 * f) 4)
    if dirs.any (fun d => d % 4 ≠ 0) then .format
    else if dirs.any (fun d => hi - off < d) then .range
    else
      let fs := dirs.map (fun d => (d, parseFibre bits (k / 256 + 2) k (bs.drop d)))
      if fs.any (fun (p : Nat × Option (List (List (Nat × Nat)) × Nat)) =>
          p.2.elim (hi - off < p.1 + 4) (fun x => decide (hi - off < p.1 + x.2))) then .range
      else if fs.any (fun (p : Nat × Option (List (List (Nat × Nat)) × Nat)) => p.2.isNone) then .format
      else .ok (fs.map (fun (p : Nat × Option (List (List (Nat × Nat)) × Nat)) => p.2.elim [] (fun x => x.1)))

/-- A of an entry as fibres. -/
def TensorEntry.opA (q : TensorEntry) (n : Nat) (s : State) : Operand :=
  let x := q.ext
  if tSpA x then sparseOperand s n q.a (tM x) q.c (elemBits (tTypeA x))
  else .ok ((List.range (tM x)).map (fun i => denseBlocks (q.c / 256 + 1) (s.bedRow n (q.a + i * tStrideA x) (tTypeA x) q.c)))

/-- B of an entry as fibres, one per column. -/
def TensorEntry.opB (q : TensorEntry) (n : Nat) (s : State) : Operand :=
  let x := q.ext
  if tSpB x then sparseOperand s n q.b (tN x) q.c (elemBits (tTypeB x))
  else if tTrans x then
    .ok ((List.range (tN x)).map (fun j => denseBlocks (q.c / 256 + 1) (s.bedRow n (q.b + j * tStrideB x) (tTypeB x) q.c)))
  else
    let rows := (List.range q.c).map (fun k => s.bedRow n (q.b + k * tStrideB x) (tTypeB x) (tN x))
    .ok ((List.range (tN x)).map (fun j => denseBlocks (q.c / 256 + 1) (rows.map (fun r => r.getD j 0))))

/-- The elements of a bank: no default but 0. -/
def zeroInt : Nat → Int := fun _ => 0

/-- The results of a multiply over its M × N elements: (row, column, outcome). -/
def multiplyOut (d : List Byte) (q : TensorEntry) (bank : Bank) (a b : Fibres) : List (Nat × Nat × AccOut) :=
  let x := q.ext
  (List.range (tM x)).flatMap (fun i => (List.range (tN x)).map (fun j =>
    let start := if tClear x then 0 else cellGet zeroInt bank.el (i * 32 + j)
    let ps := matchProducts (2 * q.c + 1) (fibreElems (a.getD i [])) (fibreElems (b.getD j []))
    (i, j, accRun d (accMode d) (tTypeA x) (tTypeB x) start ps)))

/-- The elements that an operation leaves beside those it writes: as they were where the bank keeps its mode, else free
values, since no rule reads them in the other mode (log entry 1). -/
def Bank.kept (bank : Bank) (fp : Bool) (fresh : Nat) (written : List Nat) : List (Nat × Int) :=
  if bank.fp == fp then bank.el
  else ((List.range 512).filter (fun i => !written.contains i)).foldl (fun el i =>
    let v := Config.freeNat (fresh + i)
    cellSet zeroInt el i (if fp then ((v % 2 ^ 32 : Nat) : Int) else sext 40 v)) []

/-- The bank after a multiply. -/
def bankAfter (fp : Bool) (bank : Bank) (fresh : Nat) (rs : List (Nat × Nat × AccOut)) : Bank :=
  ⟨fp, rs.foldl (fun el (r : Nat × Nat × AccOut) => cellSet zeroInt el (r.1 * 32 + r.2.1) r.2.2.v)
    (bank.kept fp fresh (rs.map (fun r => r.1 * 32 + r.2.1)))⟩

/-- Replace a bank of a bed. -/
def putBank (n k : Nat) (bank : Bank) (s : State) : State :=
  setBed n { s.bedAt n with banks := setAt k bank (s.bedAt n).banks } s

/-- Tiller clocks of an entry of K values (R345): K for 8-bit types, 2K for 16-bit types, K/2 for INT4. -/
def tillerClocks (ta k : Nat) : Nat := if ta = 10 then k / 2 else if elemBits ta = 16 then 2 * k else k

/-- Count busy clocks (R345, R399). -/
def busy (n k : Nat) (s : State) : State :=
  s.wr64 (R.bedTillerBusy n) ((s.rd64 (R.bedTillerBusy n) + k) % 2 ^ 64)

/-- Sieve counters of a TSPARSE entry (Table 16.5): products, and with both operands sparse probes and passes; steals
and idle lane-clocks depend on timing and are free values, as are its clocks within R399 (log entry 1). -/
def sieveCount (n : Nat) (q : TensorEntry) (a b : Fibres) (products : Nat) (s : State) : State :=
  let x := q.ext
  let both := tSpA x && tSpB x
  let pc := if both then sieveCounts (tM x) (tN x) a b else (0, 0)
  let d := s.draw
  let f := if elemBits (tTypeA x) = 16 then 2 else 1
  let bound := 16 + 256 * ceilDiv q.c 256 * f
  let steals := if s.get (F.globalSieveChMode (tCh x)) = 1 then Config.freeNat (d.2.fresh) else 0
  let s1 := { d.2 with fresh := d.2.fresh + 2 }
  let s2 := s1.wr64 (R.bedSieveProducts n) ((s1.rd64 (R.bedSieveProducts n) + products) % 2 ^ 64)
  let s3 := s2.wr64 (R.bedSieveProbes n) ((s2.rd64 (R.bedSieveProbes n) + pc.1) % 2 ^ 64)
  let s4 := (s3.bump32 (R.bedSievePasses n) pc.2).wrap32 (R.bedSieveSteals n) steals
  let s5 := s4.wr64 (R.bedSieveIdle n) ((s4.rd64 (R.bedSieveIdle n) + Config.freeNat (d.2.fresh + 1)) % 2 ^ 64)
  busy n (d.1 % (bound + 1)) s5

/-- A NaN or sparse-format trap charged to the issuing wave (R347, R400). -/
def TensorEntry.trap (q : TensorEntry) (n kind status detail : Nat) (s : State) : State :=
  trapWave n (q.wave n s) kind status detail q.word s

/-- The outcome of a multiply: flags, the guard record, then a NaN trap or the bank (R364–R366). -/
def finishMultiply (n : Nat) (q : TensorEntry) (bank : Bank) (rs : List (Nat × Nat × AccOut)) (s : State) : State :=
  let fl := rs.foldl (fun a (r : Nat × Nat × AccOut) => Nat.lor a r.2.2.flags) 0
  let gs := rs.filterMap (fun (r : Nat × Nat × AccOut) => r.2.2.guard.map (fun g => (g.1, r.1, r.2.1, b2n g.2)))
  let ns := rs.filterMap (fun (r : Nat × Nat × AccOut) => r.2.2.nan.map (fun g => (g.1, r.1, r.2.1, g.2)))
  let s1 := raiseFlags n q.uid true fl s
  let s2 := match firstEvent gs with
    | some e => guardEvent n q.uid (q.event s1 e.1 e.2.1 e.2.2.1 e.2.2.2) s1
    | none => s1
  match firstEvent ns with
  | some e => q.trap n 8 0x20 0 (recordNum n e.2.2.2 (q.event s2 e.1 e.2.1 e.2.2.1 0) s2)
  | none => putBank n (tBank q.ext) (bankAfter (iType q.word == 0) bank s2.fresh rs) { s2 with fresh := s2.fresh + 512 }

/-- Execute TMMA or TSPARSE. -/
def runMultiply (n : Nat) (q : TensorEntry) (o : Order) (s : State) : State :=
  let bank := (s.bedAt n).banks.getD (tBank q.ext) ⟨true, []⟩
  match q.opA n s, q.opB n s with
  | .ok a, .ok b =>
    let rs := multiplyOut o.desc q bank a b
    let products := ((List.range (tM q.ext)).map (fun i => ((List.range (tN q.ext)).map (fun j =>
      (matchProducts (2 * q.c + 1) (fibreElems (a.getD i [])) (fibreElems (b.getD j []))).length)).foldl (· + ·) 0)).foldl (· + ·) 0
    let s1 := if iOp q.word = 1 then sieveCount n q a b products s else busy n (tillerClocks (tTypeA q.ext) q.c) s
    finishMultiply n q bank rs s1
  | .range, _ => q.trap n 7 0xF0 0x81 s
  | _, .range => q.trap n 7 0xF0 0x81 s
  | _, _ => q.trap n 10 0xF0 0xB6 s

/-- Store packed elements in bed memory, keeping the other nibble of a byte for INT4. -/
def bedPut (n off typ j v : Nat) (s : State) : State :=
  if elemBits typ = 4 then
    let a := off + j / 2
    let old := s.bedNat n a 1
    bedStore n a 1 (if j % 2 = 0 then old / 16 * 16 + v % 16 else old % 16 + 16 * (v % 16)) s
  else bedStore n (off + j * (elemBits typ / 8)) (elemBits typ / 8) v s

/-- Execute TACC_STORE (R361): elements in row order, each drawing under SR on its generator (R358). -/
def runStore (n : Nat) (q : TensorEntry) (o : Order) (s : State) : State :=
  let x := q.ext
  let bank := (s.bedAt n).banks.getD (tBank x) ⟨true, []⟩
  let rnd := if iRnd q.word = 0 then slice (woCtrl o.desc) 8 2 else iRnd q.word
  let code := if rnd = 0 then 1 else rnd
  let cells := (List.range (tM x)).flatMap (fun i => (List.range (tN x)).map (fun j => (i, j)))
  let r := cells.foldl (fun (a : List Nat × Nat × List (Nat × Nat × Nat) × List (Nat × Nat × Nat × Nat)) (p : Nat × Nat) =>
    let g := p.1 % 4 * 32 + p.2
    let d := xorshift (a.1.getD g 0)
    let e := storeElem bank.fp code d q.b (iType q.word) (tRelu x) (cellGet zeroInt bank.el (p.1 * 32 + p.2))
    let ev := ((nanKind o.desc e).map (fun k => [((0, p.1, p.2, k) : Nat × Nat × Nat × Nat)])).getD []
    (if code = 3 then setAt g d a.1 else a.1, Nat.lor a.2.1 e.flags, a.2.2.1 ++ [(p.1, p.2, e.bits)], a.2.2.2 ++ ev))
    ((s.bedAt n).gens, 0, [], [])
  let s1 := raiseFlags n q.uid true r.2.1 (setBed n { s.bedAt n with gens := r.1 } s)
  match r.2.2.2.head? with
  | some e => q.trap n 8 0x20 0 (recordNum n e.2.2.2 (q.event s1 0 e.2.1 e.2.2.1 0) s1)
  | none => busy n (tM x) (s1.each r.2.2.1 (fun e t => bedPut n (q.a + e.1 * tStrideA x) (iType q.word) e.2.1 e.2.2 t))

/-- Execute TACC_READ for the threads that acted (R361, R326): integers saturated to INT32; a TYPE other than the bank's mode has no stated value. -/
def runRead (n : Nat) (q : TensorEntry) (s : State) : State :=
  let x := q.ext
  let bank := (s.bedAt n).banks.getD (tBank x) ⟨true, []⟩
  let d := s.draw
  let same := bank.fp == (iType q.word == 0)
  let cells := (List.range (tM x)).flatMap (fun i => (maskList 32 q.a).map (fun j => (i, j)))
  let val := fun (i j : Nat) =>
    if tN x ≤ j then FRes.plain 0 0
    else if !same then .plain (Config.freeNat (d.2.fresh + 32 * i + j) % 2 ^ 32) 0
    else if bank.fp then .plain (cellGet zeroInt bank.el (i * 32 + j)).toNat 0
    else satTo 3 (cellGet zeroInt bank.el (i * 32 + j))
  let s1 := if same then s else { d.2 with fresh := d.2.fresh + 512 }
  let fl := cells.foldl (fun a (p : Nat × Nat) => Nat.lor a (val p.1 p.2).flags) 0
  let s2 := raiseFlags n q.uid true fl (busy n 16 s1)
  match s2.wave n q.slot with
  | none => s2
  | some w => putWave n (cells.foldl (fun (y : Wave) (p : Nat × Nat) => y.setV (iDst q.word + p.1) p.2 (val p.1 p.2).bits) w) s2

/-- Execute TACC_WRITE for the threads that acted: the bank's mode is set and its guard extensions are cleared. -/
def runWrite (n : Nat) (q : TensorEntry) (s : State) : State :=
  let x := q.ext
  let fp := iType q.word == 0
  let bank := (s.bedAt n).banks.getD (tBank x) ⟨true, []⟩
  let cells := (List.range (tM x)).flatMap (fun i => ((maskList 32 q.a).filter (fun j => j < tN x)).map (fun j => (i, j)))
  let el := cells.foldl (fun el (p : Nat × Nat) =>
    let v := q.regs.getD (p.1 * 32 + p.2) 0
    cellSet zeroInt el (p.1 * 32 + p.2) (if fp then (v : Int) else sext 32 v))
    (bank.kept fp s.fresh (cells.map (fun p => p.1 * 32 + p.2)))
  busy n 16 (putBank n (tBank x) ⟨fp, el⟩ { s with fresh := s.fresh + 512 })

/-- Wake the waves whose TWAIT holds. -/
def testTwait (n : Nat) (s : State) : State :=
  let b := s.bedAt n
  setBed n { b with waves := b.waves.map (fun w => match w.wait with
    | .twait k => if b.unfinished w.slot ≤ k then { w with wait := .ready } else w
    | _ => w) } s

/-- The first queue entry of a bed executes and frees its place (R343, R345). -/
def runEntry (n : Nat) (s : State) : State :=
  match (s.bedAt n).queue with
  | [] => s
  | q :: rest =>
    match s.order q.uid with
    | none => changeBed n (fun b => { b with queue := rest }) s
    | some o =>
      let s1 := changeBed n (fun b => { b with queue := rest }) s
      let s2 := match iOp q.word with
        | 0 => runMultiply n q o s1
        | 1 => runMultiply n q o s1
        | 2 => runStore n q o s1
        | 3 => runRead n q s1
        | _ => runWrite n q s1
      testTwait n s2

/-- TENSOR_ENTRY_DONE (R345). -/
def execTensorEntryDone (bed : Fin 48) (s : State) : Out := .next (if s.isOpen (bed + 4) then runEntry bed s else s)

/-- TRAP_CLEAR (R346): writing 1 to BEDn_TRAP.VALID clears the three registers of the record. -/
def clearTrap (n : Nat) (s : State) : State :=
  ((s.wr64 (R.bedTrap n) 0).wr64 (R.bedTrapPc n) 0).wr64 (R.bedTrapWord n) 0

end Sys2Proof.Machine
end

