-- ==== Sys2Proof/Machine/WorkOrder.lean ====
section
/-! DEFINITION. Work orders: the descriptor, the checks of Table 15.4 and the rows GEMM … PROGRAM, which take a
dispatched WORK entry through its checks (spec/15 R372–R380, spec/16 R389, R391). -/
namespace Sys2Proof.Machine

/-! The descriptor -/
def woSparse (d : List Byte) : Nat := bytesAt d 4 4
def woFmtA (d : List Byte) : Nat := slice (woSparse d) 0 4
def woFmtB (d : List Byte) : Nat := slice (woSparse d) 4 4
def woTa (d : List Byte) : Nat := slice (woCtrl d) 16 4
def woTb (d : List Byte) : Nat := slice (woCtrl d) 20 4
def woTo (d : List Byte) : Nat := slice (woCtrl d) 24 4
def woAct (d : List Byte) : Nat := slice (woCtrl d) 13 2
def woBias (d : List Byte) : Bool := bit (woCtrl d) 15
/-- A_VA, B_VA, C_VA, AUX_VA. -/
def woVa (d : List Byte) (n : Nat) : Nat := bytesAt d (0x18 + 8 * n) 8
/-- KH, KW, SH, SW, DH, DW, PAD_T, PAD_L. -/
def woGeom (d : List Byte) (n : Nat) : Nat := slice (bytesAt d 0x48 4) (4 * n) 4
def woGeom1 (d : List Byte) : Nat := bytesAt d 0x4C 4
def woSubop (d : List Byte) : Nat := slice (woGeom1 d) 8 4
def woTopk (d : List Byte) : Nat := slice (woGeom1 d) 16 8
def woBcast (d : List Byte) : Bool := bit (woGeom1 d) 24
/-- A_STRIDE, B_STRIDE, C_STRIDE. -/
def woStride (d : List Byte) (n : Nat) : Nat := bytesAt d (0x50 + 4 * n) 4
def woScale (d : List Byte) : Nat := bytesAt d 0x5C 4
def woTileM (d : List Byte) : Nat := bytesAt d 0x60 2

/-- CONV, DWCONV and POOL. -/
def woWindow (op : Nat) : Bool := op == 2 || op == 3 || op == 4

/-- An output extent of R373. -/
def woExtent (size p1 p2 dil k stride : Nat) : Nat :=
  (((size : Int) + p1 + p2 - dil * ((k : Int) - 1) - 1) / (stride : Int) + 1).toNat

/-- Ho and Wo. -/
def woHo (d : List Byte) : Nat :=
  woExtent (woSize d 1) (woGeom d 6) (slice (woGeom1 d) 0 4) (woGeom d 4) (woGeom d 0) (woGeom d 2)
def woWo (d : List Byte) : Nat :=
  woExtent (woSize d 2) (woGeom d 7) (slice (woGeom1 d) 4 4) (woGeom d 5) (woGeom d 1) (woGeom d 3)

/-- M and N of Table 15.3. -/
def woM (d : List Byte) : Nat := if woWindow (woOp d) then woSize d 0 * woHo d * woWo d else woSize d 0
def woN (d : List Byte) : Nat :=
  match woOp d with
  | 1 => woSize d 1
  | 2 => woSize d 4
  | 3 => woSize d 3
  | 4 => woSize d 3
  | 5 => woSize d 1
  | _ => 1

/-- K of an output element: the values of k of a product, or the window of a depthwise convolution. -/
def woK (d : List Byte) : Nat :=
  match woOp d with
  | 1 => woSize d 2
  | 2 => woGeom d 0 * woGeom d 1 * woSize d 3
  | 3 => woGeom d 0 * woGeom d 1
  | 8 => woSize d 2
  | _ => 0

/-- TILE_N, 0 counting as 1 where N is 1 (R378). -/
def woTileN (d : List Byte) : Nat := if woN d = 1 then 1 else bytesAt d 0x62 2

/-- Column blocks of the output. -/
def woCols (d : List Byte) : Nat := if woTileN d = 0 then 0 else ceilDiv (woN d) (woTileN d)

/-- T (R378). -/
def woT (d : List Byte) : Nat :=
  if woOp d = 9 then woSize d 0 + 65536 * woSize d 1
  else if woTileM d = 0 then 0 else ceilDiv (woM d) (woTileM d) * woCols d

/-- Tile t covers rows lo … hi − 1 and columns lo … hi − 1 of the output, clipped (R378). -/
def woRows (d : List Byte) (t : Nat) : Nat × Nat :=
  let r := t / woCols d * woTileM d
  (r, min (r + woTileM d) (woM d))
def woColumns (d : List Byte) (t : Nat) : Nat × Nat :=
  let c := t % woCols d * woTileN d
  (c, min (c + woTileN d) (woN d))

/-! Check 1: the fields -/

/-- Types of lane operations (R374). -/
def laneType (t : Nat) : Bool := [0, 1, 2, 6, 7, 8, 9].contains t

/-- A stride is a multiple of the element size. -/
def strideOk (d : List Byte) (n typ : Nat) : Bool := elemBits typ / 8 == 0 || woStride d n % (elemBits typ / 8) == 0

/-- GEMM, CONV and EMBED_MATCH. -/
def woTiller (op : Nat) : Bool := op == 1 || op == 2 || op == 8

/-- SPARSE (R372, R389, Table 16.3): a CONV's A is sparse only for 1 × 1 windows of stride 1 without padding. -/
def sparseOk (d : List Byte) : Bool :=
  let op := woOp d
  slice (woSparse d) 11 21 == 0 && woFmtA d ≤ 1 && woFmtB d ≤ 1 &&
    (woTiller op || (woFmtA d == 0 && woFmtB d == 0)) &&
    (woFmtA d == 0 || (woStride d 0 == 0 && (op != 2 ||
      (woGeom d 0 == 1 && woGeom d 1 == 1 && woGeom d 2 == 1 && woGeom d 3 == 1 && woGeom d 6 == 0 && woGeom d 7 == 0 &&
        slice (woGeom1 d) 0 8 == 0)))) &&
    (woFmtB d == 0 || woStride d 1 == 0)

/-- TYPE_A, TYPE_B and TYPE_OUT (R374–R376, R344: K is even for INT4). -/
def typesOk (d : List Byte) : Bool :=
  let op := woOp d
  woTa d ≤ 10 && woTo d ≤ 10 &&
    (if woTiller op then (tillerPair (woTa d) (woTb d)).isSome && (woTa d != 10 || woK d % 2 == 0) && (op != 8 || woTo d == 0)
     else if op == 7 then woTb d == 3 && woTo d == woTa d
     else laneType (woTa d) && (op == 4 || op == 6 || laneType (woTb d))) &&
    (op == 7 || woTo d != 3 || ((op == 1 || op == 2) && tillerPair (woTa d) (woTb d) == some 3 &&
      woScale d == 0x3F800000 && !woBias d && woAct d == 0))

/-- SCALE, BIAS and ACT (R375). -/
def finishOk (d : List Byte) : Bool :=
  let op := woOp d
  woAct d != 3 && (op ≤ 3 || (!woBias d && woAct d == 0)) &&
    (if op == 7 || op == 9 then woScale d == 0 else slice (woScale d) 23 8 != 255)

/-- SUBOP, TOPK, SIZE_4, strides and the tile shape (Table 15.3, R378). -/
def shapeOk (d : List Byte) : Bool :=
  let op := woOp d
  let tn := bytesAt d 0x62 2
  (op != 4 || woSubop d ≤ 1) && (op != 5 || woSubop d ≤ 4) && (op != 6 || woSubop d ≤ 3) &&
    (op != 8 || (1 ≤ woTopk d && woTopk d ≤ 64)) && ((op != 3 && op != 4) || woSize d 4 == 0) &&
    (!woWindow op || (woGeom d 2 != 0 && woGeom d 3 != 0)) &&
    strideOk d 0 (woTa d) && strideOk d 2 (woTo d) && (op == 4 || op == 6 || strideOk d 1 (woTb d)) &&
    (if woTiller op then woTileM d != 0 && woTileM d % 16 == 0 else 1 ≤ woTileM d && woTileM d ≤ 4096) &&
    (if woN d = 1 then tn == 0 else if woTiller op then tn != 0 && tn % 32 == 0 else 1 ≤ tn && tn ≤ 4096)

/-- Check 1 of Table 15.4. -/
def woDescOk (d : List Byte) : Bool :=
  let op := woOp d
  slice (woCtrl d) 28 4 == 0 && (!woNanInput d || woTrapNan d) && slice (woMask d) 48 16 == 0 &&
    (List.range 4).all (fun n => slice (woVa d n) 48 16 == 0) &&
    slice (woGeom1 d) 12 4 == 0 && slice (woGeom1 d) 25 7 == 0 && bytesAt d 0x64 28 == 0 &&
    sparseOk d && finishOk d && 1 ≤ op && op ≤ 9 &&
    (if op == 9 then bytesAt d 0x60 4 == 0 && 1 ≤ woSize d 2 && woSize d 2 ≤ 16 else typesOk d && shapeOk d) &&
    woT d ≤ 2 ^ 25 && woStart d ≤ woT d

/-! Checks 2 to 5 -/

/-- A plot of the active plan. -/
def State.plotCfg (s : State) (p : Nat) : Option PlotCfg := s.plan.active.plots.find? (fun x => x.id = p)

/-- The powered beds of a plot that a BED_MASK names (Table 15.1). -/
def State.eligible (s : State) (p : PlotCfg) (mask : Nat) : List Nat :=
  (maskList 48 p.beds).filter (fun b => (mask == 0 || bit mask b) && (s.plan.active.islands.getD (b + 4) ⟨false, 0, 0, 0⟩).powered)

/-- The ROLE accepts an operation and its formats (Table 15.3). -/
def roleOk (p : PlotCfg) (d : List Byte) : Bool :=
  woOp d == 9 || (p.role != 0 && ((woFmtA d == 0 && woFmtB d == 0) || p.role == 2 || p.role == 3))

/-- The positions (image, row, column) that a window operation reads for an output row i, with their window index. -/
def woInputs (d : List Byte) (i : Nat) : List (Nat × Option (Nat × Nat × Nat)) :=
  let hw := woHo d * woWo d
  let img := i / hw
  let ho := i % hw / woWo d
  let wo := i % woWo d
  (List.range (woGeom d 0)).flatMap (fun (kh : Nat) => (List.range (woGeom d 1)).map (fun (kw : Nat) =>
    let h : Int := (ho : Int) * woGeom d 2 - woGeom d 6 + kh * woGeom d 4
    let w : Int := (wo : Int) * woGeom d 3 - woGeom d 7 + kw * woGeom d 5
    let inside := decide (0 ≤ h) && decide (h < woSize d 1) && decide (0 ≤ w) && decide (w < woSize d 2)
    ((kh * woGeom d 1 + kw : Nat), if inside then some (img, h.toNat, w.toNat) else none)))

/-- P of R379: the most input elements that any tile reads. -/
def woMostInputs (d : List Byte) : Nat :=
  let per := if woOp d = 2 then woSize d 3 else min (woTileN d) (woN d)
  ((List.range (ceilDiv (woM d) (woTileM d))).map (fun b =>
    let rows := (List.range (woM d)).filter (fun i => i / woTileM d == b)
    ((rows.flatMap (fun i => (woInputs d i).filterMap (fun x => x.2))).eraseDups).length * per)).foldl max 0

/-- The scratch that a tile needs, in bits (R379, R391). -/
def woNeedBits (d : List Byte) : Nat :=
  let tm := woTileM d
  let tn := woTileN d
  let sa := woFmtA d ≠ 0
  let sb := woFmtB d ≠ 0
  let ea := elemBits (woTa d) + if sa then 8 else 0
  let eb := elemBits (woTb d) + if sb then 8 else 0
  let eo := elemBits (woTo d)
  let kc := min (woK d) 512
  let extra := fun (on : Bool) (fibres : Nat) => if on then 32 * fibres + 32 * fibres * ceilDiv kc 256 else 0
  let out := tm * tn * eo
  match woOp d with
  | 1 => 2 * (tm * kc * ea + extra sa tm) + 2 * (kc * tn * eb + extra sb tn) + out + 32 * tn
  | 2 => 2 * (woMostInputs d * ea + extra sa tm) + woK d * tn * eb + extra sb tn + out + 32 * tn
  | 3 => 2 * woMostInputs d * ea + woK d * tn * eb + out + 32 * tn
  | 4 => 2 * woMostInputs d * ea + out
  | 5 => 2 * (tm * tn * ea + (if woBcast d then tn else tm * tn) * eb) + out
  | 6 => 2 * tm * woSize d 1 * ea + tm * eo
  | 7 => 2 * (tm * woSize d 1 * ea + tm * 32) + tm * woSize d 1 * eo
  | _ => 2 * (tm * woK d * ea + woSize d 1 * woK d * eb + extra sa tm + extra sb (woSize d 1)) + tm * woTopk d * 64

/-- A group fits on an empty bed (R320). -/
def groupFits (waves vgprs limit : Nat) : Bool :=
  8 ≤ vgprs && vgprs ≤ 256 && vgprs % 8 == 0 && waves ≤ 4 * min 12 (512 / vgprs) && waves ≤ limit

/-- The first check of Table 15.4 that fails, as a completion word. -/
def State.woCheck (s : State) (p : PlotCfg) (d : List Byte) : Option Nat :=
  let beds := s.eligible p (woMask d)
  if !woDescOk d then some (dw1 0xF0 0xB0 0)
  else if !roleOk p d then some (dw1 0x41 0xB1 0)
  else if beds.isEmpty then some (dw1 0x41 0xB3 0)
  else if woOp d ≠ 9 ∧ beds.any (fun b => s.get (F.bedSplitScratch b) * 0x8000 * 8 < woNeedBits d) then some (dw1 0xF0 0xB2 0)
  else if woOp d = 9 ∧ !groupFits (woSize d 2) (woSize d 3) p.waves then some (dw1 0xF0 0xB5 0)
  else none

/-- Complete an entry that becomes no order, or whose order is gone, with a completion word and COUNT. -/
def finishEntry (uid word count : Nat) (s : State) : State :=
  completeEntry uid ⟨slice word 0 8, slice word 8 8, slice word 16 16, count⟩ (recordUrgent uid s)

/-! Asking beds to yield (R526) -/

/-- The class of the work on a bed: the highest of its tiles. -/
def Bed.cls (b : Bed) : Option Nat :=
  let cs := (b.built.elim [] (fun t => [t.cls])) ++ b.groups.map (fun g => g.2.cls)
  if cs.isEmpty then none else some (cs.foldl min 3)

/-- A bed runs nothing. -/
def Bed.idle (b : Bed) : Bool := b.built.isNone && b.groups.isEmpty

/-- Spill capacity in use: beds saved and beds asked to yield. -/
def State.preempted (s : State) : Nat := (s.bed.beds.filter (fun (b : Bed) => b.saved.isSome || b.yielding)).length

/-- Ask beds of a list to yield until `need` are idle or yielding, or the spill ways are spoken for: those of class 2
first, then class 1, lowest number first; never with a reserve (R526, R385). -/
def askYield (uid need : Nat) (beds : List Nat) (s : State) : State :=
  let free := (beds.filter (fun n => (s.bedAt n).idle || (s.bedAt n).yielding)).length
  let of := fun (c : Nat) => beds.filter (fun n => (s.bedAt n).cls == some c && !(s.bedAt n).yielding && (s.bedAt n).saved.isNone && s.isOpen (n + 4))
  let room := s.get F.hostqUrgentCfgSpillWays - s.preempted
  let pick := if s.get F.hostqUrgentCfgHasReserve = 1 then [] else (of 2 ++ of 1).take (min room (need - free))
  let s1 := s.each pick (fun n t => setBed n { t.bedAt n with yielding := true } t)
  { s1 with bed := { s1.bed with urgent := s1.bed.urgent.map (fun u =>
      if u.uid = uid then { u with preempted := u.preempted + pick.length } else u) } }

/-! Channels for an order's transfers (R300, R526) -/

/-- The work-order channels of both engines. -/
def State.workChannels (s : State) : List (Nat × Nat) := allChannels.filter (fun c => s.get (F.hoseCfgOwner c.1 c.2) == 1)

/-- URGENT_STATUS.NO_CLASS0_HOSE: an engine has no work-order channel of class 0 (R526). -/
def State.noClass0 (s : State) : Bool :=
  (List.range 2).any (fun e => s.workChannels.all (fun c => c.1 != e || s.hoseClass c.1 c.2 != 0))

/-- The channel that moves the operands of a class: one of that class, else one of class 1, else any; on an engine that
is not shut where there is one. -/
def State.orderChannel (s : State) (cls : Nat) : Nat × Nat :=
  let up := s.workChannels.filter (fun c => !s.isShut (67 + c.1))
  let all := if up.isEmpty then s.workChannels else up
  match all.find? (fun c => s.hoseClass c.1 c.2 == cls) with
  | some c => c
  | none => (all.find? (fun c => s.hoseClass c.1 c.2 == 1)).getD (all.headD (0, 4))

/-- QUEUED: a bed that a class-0 order may take runs or awaits an earlier class-0 order (R529). -/
def noteQueued (uid : Nat) (beds : List Nat) (s : State) : State :=
  let waits := beds.any (fun n => (s.bedAt n).cls == some 0) ||
    s.bed.orders.any (fun o => o.uid != uid && o.cls == 0 && o.next < o.total && beds.any (fun n => bit (woMask o.desc) n))
  if !waits then s
  else { s with bed := { s.bed with urgent := s.bed.urgent.map (fun u => if u.uid = uid then { u with queued := true } else u) } }

/-! The rows -/

/-- A WORK entry becomes an order, or completes by its first failed check (R380). -/
def acceptOrder (e : Entry) (d : List Byte) (s : State) : State :=
  match s.plotCfg e.plot with
  | none => finishEntry e.uid (dw1 0x41 0xB3 0) 0 s
  | some p =>
    match s.woCheck p d with
    | some w => finishEntry e.uid w 0 s
    | none =>
      if woStart d = woT d then finishEntry e.uid 0 (woT d) s
      else
        let o : Order := { uid := e.uid, fn := s.sqFn e.sq, allot := s.get (F.sqCfgAllot e.sq), plot := e.plot, cls := e.cls,
                           desc := d, total := woT d, next := woStart d, prefix_ := woStart d, later := [], flags := 0,
                           saturated := false, badIndex := false, ending := none }
        let s1 := { s with bed := { s.bed with orders := s.bed.orders ++ [o] } }
        if e.cls ≠ 0 then s1
        else
          let s2 := noteQueued e.uid (s.eligible p (woMask d)) (if s1.noClass0 then urgentReason e.uid 7 s1 else s1)
          askYield e.uid (woT d - woStart d) (s2.eligible p (woMask d)) s2

/-- A row of GEMM … PROGRAM: a dispatched WORK entry whose descriptor has that OP is checked and becomes an order. -/
def workRow (op uid : Nat) (s : State) : Out :=
  .next (match s.entry uid with
    | none => s
    | some e =>
      match e.desc with
      | none => s
      | some d =>
        if e.opcode = 1 ∧ woOp d = op ∧ s.isOpen 56 ∧ (s.order uid).isNone then acceptOrder e d s else s)

/-- GEMM (R373). -/
def execGemm (uid : Nat) (s : State) : Out := workRow 1 uid s
/-- CONV (R373). -/
def execConv (uid : Nat) (s : State) : Out := workRow 2 uid s
/-- DWCONV (R373). -/
def execDwconv (uid : Nat) (s : State) : Out := workRow 3 uid s
/-- POOL (R373). -/
def execPool (uid : Nat) (s : State) : Out := workRow 4 uid s
/-- ELTWISE (R373). -/
def execEltwise (uid : Nat) (s : State) : Out := workRow 5 uid s
/-- REDUCE (R373). -/
def execReduce (uid : Nat) (s : State) : Out := workRow 6 uid s
/-- GATHER (R373, R377). -/
def execGather (uid : Nat) (s : State) : Out := workRow 7 uid s
/-- EMBED_MATCH (R376). -/
def execEmbedMatch (uid : Nat) (s : State) : Out := workRow 8 uid s
/-- PROGRAM (R382). -/
def execProgram (uid : Nat) (s : State) : Out := workRow 9 uid s

end Sys2Proof.Machine
end

