-- ==== Sys2Proof/Machine/Codec.lean ====
section
/-! DEFINITION. The furrow's stream: bits, code tables, tokens, compression and decompression of a job (spec/19
R462–R469, R475–R479). -/
namespace Sys2Proof.Machine

/-! Bits (R462) -/

/-- The low n bits of a number, least significant first. -/
def bitsOf : Nat → Nat → List Bool
  | 0, _ => []
  | n + 1, v => (v % 2 == 1) :: bitsOf n (v / 2)

/-- A number from bits, least significant first. -/
def bitsNat : List Bool → Nat
  | [] => 0
  | b :: l => b2n b + 2 * bitsNat l

/-- The bits of a byte string, each byte from bit 0 upward. -/
def bytesBits (bs : List Byte) : List Bool := bs.flatMap (fun b => bitsOf 8 b.toNat)

/-- The whole bytes of a bit string; `n` bounds their number. -/
def bitsBytes : Nat → List Bool → List Byte
  | 0, _ => []
  | n + 1, l => if l.length < 8 then [] else BitVec.ofNat 8 (bitsNat (l.take 8)) :: bitsBytes n (l.drop 8)

/-! Code tables (R466) -/

/-- The static table: every symbol has length 5. -/
def staticTable : List Nat := List.replicate 32 5

/-- The canonical codes of a table as (symbol, length, code), in ascending length and symbol order. -/
def canonical (t : List Nat) : List (Nat × Nat × Nat) :=
  let used := (List.range 15).flatMap (fun l => ((List.range 32).filter (fun k => t.getD k 0 == l + 1)).map (fun k => (k, l + 1)))
  let r := used.foldl (fun (acc : Nat × Nat × List (Nat × Nat × Nat)) e =>
    let c := if acc.2.1 = 0 then 0 else (acc.1 + 1) * 2 ^ (e.2 - acc.2.1)
    (c, e.2, (e.1, e.2, c) :: acc.2.2)) (0, 0, [])
  r.2.2.reverse

/-- A dynamic table is valid (R466). -/
def tableOk (t : List Nat) : Bool :=
  let used := t.filter (fun l => l ≠ 0)
  (t.drop 25).all (fun l => l == 0) && t.getD 24 0 != 0 && (used.map (fun l => 2 ^ (15 - l))).sum ≤ 2 ^ 15

/-- The bits of a symbol's code, most significant first. -/
def codeBits (t : List Nat) (sym : Nat) : List Bool :=
  match (canonical t).find? (fun e => e.1 = sym) with
  | some e => (bitsOf e.2.1 e.2.2).reverse
  | none => []

/-- What the next bits spell under a table: a symbol and its length, no symbol, or too few bits. -/
inductive Sym where
  | sym (s len : Nat)
  | bad
  | short
  deriving DecidableEq, Repr

/-- Decode one symbol. -/
def readSym (t : List Nat) (bits : List Bool) : Sym :=
  let cs := canonical t
  let hit := cs.find? (fun e => e.2.1 ≤ bits.length && (bitsOf e.2.1 e.2.2).reverse == bits.take e.2.1)
  match hit with
  | some e => .sym e.1 e.2.1
  | none => if cs.any (fun e => bits.length < e.2.1 && ((bitsOf e.2.1 e.2.2).reverse).take bits.length == bits) then .short else .bad

/-! Length classes (Table 19.3) -/

/-- Smallest length and EXTRA bits of a class. -/
def lenClass (c : Nat) : Nat × Nat :=
  match c with
  | 0 => (1, 0)
  | 1 => (2, 0)
  | 2 => (3, 1)
  | 3 => (5, 2)
  | 4 => (9, 3)
  | 5 => (17, 4)
  | 6 => (33, 5)
  | _ => (65, 12)

/-- The class of a length. -/
def classOf (n : Nat) : Nat := ((List.range 8).filter (fun c => (lenClass c).1 ≤ n)).foldl max 0

/-! Tokens (R465, R467) -/

/-- A token of the compressor. -/
inductive Token where
  | lit (n : Nat)
  | run (n : Nat)
  | row (n d : Nat)
  deriving DecidableEq, Repr

/-- Elements that a token covers. -/
def Token.len : Token → Nat
  | .lit n => n
  | .run n => n
  | .row n _ => n

/-- The symbol of a token. -/
def Token.sym : Token → Nat
  | .lit n => classOf n
  | .run n => 8 + classOf n
  | .row n _ => 16 + classOf n

/-- Rows searched at a level (Table 19.4). -/
def levelDepth (l : Nat) : Nat := if l = 0 then 0 else 2 ^ (l - 1)

/-- How many elements from p, at most n, equal what `other` names. -/
def eqRun (get other : Nat → Nat) : Nat → Nat → Nat
  | 0, _ => 0
  | n + 1, p => if get p = other p then 1 + eqRun get other n (p + 1) else 0

/-- The RUN or ROW_MATCH that steps 1–3 of R467 choose at p; none for a literal. -/
def chooseCopy (get : Nat → Nat) (row depth stop p : Nat) : Option Token :=
  let l := min 4160 (stop - p)
  let r := eqRun get (fun _ => get p) l p
  let ms := ((List.range depth).map (· + 1)).filter (fun d => d * row ≤ p) |>.map (fun d =>
    (eqRun get (fun q => get (q - d * row)) l p, d))
  let best := ms.foldl (fun (b : Nat × Nat) m => if b.1 < m.1 then m else b) (0, 0)
  if 4 ≤ best.1 ∧ r ≤ best.1 then some (.row best.1 best.2)
  else if 3 ≤ r then some (.run r)
  else none

/-- The tokens from p to the block's end; a literal ends where a copy begins, at 4,160 elements or at the end. -/
def tokensFrom (get : Nat → Nat) (row depth stop : Nat) : Nat → Nat → List Token
  | 0, _ => []
  | fuel + 1, p =>
    if stop ≤ p then []
    else
      match chooseCopy get row depth stop p with
      | some t => t :: tokensFrom get row depth stop fuel (p + t.len)
      | none =>
        let n := ((List.range 4160).find? (fun k =>
          p + k + 1 = stop || k + 1 = 4160 || (chooseCopy get row depth stop (p + k + 1)).isSome)).getD 0 + 1
        .lit n :: tokensFrom get row depth stop fuel (p + n)

/-- The bits of a token at p under a table (R465). -/
def tokenBits (get : Nat → Nat) (w : Nat) (t : List Nat) (p : Nat) (k : Token) : List Bool :=
  let c := lenClass (classOf k.len)
  let head := codeBits t k.sym ++ bitsOf c.2 (k.len - c.1)
  match k with
  | .lit n => head ++ (List.range n).flatMap (fun i => bitsOf w (get (p + i)))
  | .run _ => head ++ bitsOf w (get p)
  | .row _ d => head ++ bitsOf 6 (d - 1)

/-- Symbol counts of a block: its tokens and END_BLOCK. -/
def symbolCounts (ts : List Token) : List Nat :=
  (List.range 32).map (fun k => if k = 24 then 1 else (ts.filter (fun t => t.sym == k)).length)

/-- The dynamic table of a block: the part's own lengths where they make a table as R466 and R468 ask, else 5 for every
used symbol. -/
def dynamicTable (counts : List Nat) : List Nat :=
  let t := Config.codeLengths counts
  let fits := (List.range 32).all (fun k => (t.getD k 0 == 0) == (counts.getD k 0 == 0) && t.getD k 0 ≤ 15)
  if t.length = 32 ∧ fits ∧ tableOk t then t else counts.map (fun c => if c = 0 then 0 else 5)

/-- Bits of a block under a table, END_BLOCK included, for the choice of AUTO: only the codes differ. -/
def blockCost (t : List Nat) (counts : List Nat) : Nat :=
  ((List.range 32).map (fun k => counts.getD k 0 * t.getD k 0)).sum

/-- The form of a new block: static or dynamic with its table (R468). -/
def blockForm (table : Nat) (counts : List Nat) : Option (List Nat) :=
  let d := dynamicTable counts
  if table = 0 then none
  else if table = 1 then some d
  else if blockCost d counts + 128 < blockCost staticTable counts then some d else none

/-! The resume state (Table 19.6) -/

/-- The state between two jobs of a stream. -/
structure FurrowState where
  phase  : Nat
  /-- the open block: none, static, or dynamic -/
  block  : Nat
  table  : List Nat
  pend   : List Bool
  rawPos : Nat
  coded  : Nat
  remain : Nat
  crc    : Nat
  elem   : Nat
  row    : Nat
  deriving DecidableEq, Repr

/-- Bits of CTRL that SETTINGS repeats: OP, ELEM, LEVEL, TABLE. -/
def fdSettings (ctrl : Nat) : Nat :=
  slice ctrl 0 2 + 2 ^ 4 * slice ctrl 4 2 + 2 ^ 8 * slice ctrl 8 3 + 2 ^ 12 * slice ctrl 12 2

/-- The 64 bytes of a resume state. -/
def FurrowState.bytes (st : FurrowState) (ctrl : Nat) : List Byte :=
  leBytes 2 0x5346 ++ leBytes 1 st.pend.length ++ leBytes 1 (st.phase + 16 * st.block) ++
    leBytes 4 (fdSettings ctrl % 2 ^ 4 + 2 ^ 4 * st.elem + fdSettings ctrl / 2 ^ 8 * 2 ^ 8 + 2 ^ 16 * st.row) ++
    leBytes 8 st.rawPos ++ leBytes 8 st.coded ++ leBytes 16 (bitsNat st.pend) ++ leBytes 4 st.remain ++ leBytes 4 st.crc ++
    leBytes 16 ((List.range 32).map (fun k => st.table.getD k 0 * 2 ^ (4 * k))).sum

/-- A resume state from its bytes. -/
def FurrowState.parse (b : List Byte) : FurrowState :=
  let pb := bytesAt b 3 1
  let set := bytesAt b 4 4
  { phase := slice pb 0 4, block := slice pb 4 2,
    table := (List.range 32).map (fun k => slice (bytesAt b 0x30 16) (4 * k) 4),
    pend := bitsOf (slice (bytesAt b 2 1) 0 7) (bytesAt b 0x18 16), rawPos := bytesAt b 8 8, coded := bytesAt b 0x10 8,
    remain := bytesAt b 0x28 4, crc := bytesAt b 0x2C 4, elem := slice set 4 2, row := slice set 16 16 }

/-- The table of the open block. -/
def FurrowState.codes (st : FurrowState) : List Nat := if st.block = 1 then staticTable else st.table

/-- Bytes of an element. -/
def FurrowState.esz (st : FurrowState) : Nat := 2 ^ st.elem

/-! Job descriptor (Table 19.5) -/
def fdCtrl (d : List Byte) : Nat := bytesAt d 0 4
def fdOp (d : List Byte) : Nat := slice (fdCtrl d) 0 2
def fdElem (d : List Byte) : Nat := slice (fdCtrl d) 4 2
def fdLevel (d : List Byte) : Nat := slice (fdCtrl d) 8 3
def fdTable (d : List Byte) : Nat := slice (fdCtrl d) 12 2
def fdFinal (d : List Byte) : Bool := bit (fdCtrl d) 16
def fdResume (d : List Byte) : Bool := bit (fdCtrl d) 17
def fdRow (d : List Byte) : Nat := bytesAt d 4 2
def fdRawVa (d : List Byte) : Nat := bytesAt d 8 8
def fdRawBytes (d : List Byte) : Nat := bytesAt d 0x10 8
def fdCodedVa (d : List Byte) : Nat := bytesAt d 0x18 8
def fdCodedBytes (d : List Byte) : Nat := bytesAt d 0x20 4
def fdStateVa (d : List Byte) : Nat := bytesAt d 0x28 8

/-- Check 1 of Table 19.7. -/
def fdOk (d : List Byte) : Bool :=
  let c := fdCtrl d
  let e := 2 ^ fdElem d
  let va := fun (v : Nat) => v < 2 ^ 48
  c == fdSettings c + 2 ^ 16 * slice c 16 2 && fdOp d ≤ 1 &&
    (if fdOp d = 0 then fdElem d ≤ 2 && fdTable d ≤ 2 && 1 ≤ fdRow d
      else fdElem d == 0 && fdLevel d == 0 && fdTable d == 0 && fdRow d == 0) &&
    bytesAt d 6 2 == 0 && bytesAt d 0x24 4 == 0 && bytesAt d 0x30 16 == 0 &&
    va (fdRawVa d) && va (fdCodedVa d) && va (fdStateVa d) && fdRawVa d % e == 0 && fdRawBytes d % e == 0 &&
    fdRawBytes d ≤ 2 ^ 40 && (if fdOp d = 0 then 17408 ≤ fdCodedBytes d else 1 ≤ fdCodedBytes d) && fdStateVa d % 64 == 0

/-- Check 2 of Table 19.7. -/
def fdStateOk (d b : List Byte) : Bool :=
  let st := FurrowState.parse b
  bytesAt b 0 2 == 0x5346 &&
    (if fdOp d = 0 then bytesAt b 4 4 == fdSettings (fdCtrl d) + 2 ^ 16 * fdRow d && st.pend.length ≤ 7
      else slice (bytesAt b 4 4) 0 2 == fdOp d) &&
    st.rawPos ≤ fdRawBytes d

/-- The state at the start of a stream; a decompressor that has not read the header holds ROW_ELEMS 0. -/
def fdStart (d : List Byte) : FurrowState :=
  { phase := 0, block := 0, table := List.replicate 32 0, pend := [], rawPos := 0, coded := 0, remain := 0, crc := 0,
    elem := fdElem d, row := fdRow d }

/-! A job's work -/

/-- How a job's work ends: a status and detail, a translation or access that failed, or it was stopped by a drain. -/
inductive FurrowEnd where
  | done (status detail : Nat)
  | failed (e : VaErr) (a : Access)
  deriving DecidableEq, Repr

/-- What a job has done: its state, the bits of its chunk so far (COMPRESS) or whole bytes consumed (DECOMPRESS), raw
bytes processed. -/
structure FurrowWork where
  st   : FurrowState
  out  : List Bool
  used : Nat
  raw  : Nat
  deriving DecidableEq, Repr

/-- Requests of the furrow (R473). -/
def State.furrowReq (s : State) : Req := ⟨66, s.plan.active.qos.islands.getD 66 1, 0, false⟩

/-- Bytes as elements of a width, as a function of the element's position from `base` on. -/
def rawElem (bs : List Byte) (esz base p : Nat) : Nat := bytesAt bs ((p - base) * esz) esz

/-- How a run of tokens ends: all emitted with units to spare, the chunk is full, or a drain stops the job. -/
inductive Emitted where
  | all (units : Nat)
  | full
  | cut
  deriving DecidableEq, Repr

/-- Emit the tokens of an open block from RAW_POS on, as long as each fits and the drain lets it (R476, R481). -/
def emitTokens (get : Nat → Nat) (cap : Nat) : List Token → Nat → FurrowWork → Emitted × FurrowWork
  | [], n, w => (.all n, w)
  | t :: ts, n, w =>
    let esz := w.st.esz
    let p := w.st.rawPos / esz
    let bits := tokenBits get (8 * esz) w.st.codes p t
    if cap < w.out.length + bits.length then (.full, w)
    else if n = 0 then (.cut, w)
    else
      let bytes := (List.range t.len).flatMap (fun i => leBytes esz (get (p + i)))
      emitTokens get cap ts (n - 1) { w with
        st := { w.st with rawPos := w.st.rawPos + t.len * esz, crc := crc32From w.st.crc bytes },
        out := w.out ++ bits, raw := w.raw + t.len * esz }

/-- A unit that is not a token: emitted if it fits and the drain lets it. -/
def emitUnit (cap units : Nat) (bits : List Bool) (w : FurrowWork) : Emitted × FurrowWork :=
  if cap < w.out.length + bits.length then (.full, w)
  else if units = 0 then (.cut, w)
  else (.all (units - 1), { w with out := w.out ++ bits })

/-- The end-of-stream unit: BTYPE 2, padding, the trailer (R464). -/
def endBits (w : FurrowWork) : List Bool :=
  bitsOf 2 2 ++ List.replicate ((6 + 7 * w.out.length) % 8) false ++ bitsOf 32 w.st.crc ++ bitsOf 64 w.st.rawPos

/-- The first element of the block at hand: RAW_POS lies at its end where only END_BLOCK is due, which REMAIN 1 marks
(log entry 25). -/
def FurrowState.blockStart (st : FurrowState) : Nat :=
  let p := st.rawPos / st.esz
  if st.block ≠ 0 ∧ st.remain = 1 ∧ p ≠ 0 then (p - 1) / 65536 * 65536 else p / 65536 * 65536

/-- Compress block by block (R467, R468): `units` is how many units a drain still lets pass, and fuel bounds the
blocks. -/
def compressFrom (fn allot : Nat) (d : List Byte) (cap : Nat) : Nat → Nat → FurrowWork → State → FurrowEnd × FurrowWork × State
  | 0, _, w, s => (.done 2 0, w, s)
  | fuel + 1, units, w, s =>
    let esz := w.st.esz
    let total := fdRawBytes d / esz
    let p := w.st.rawPos / esz
    let start := w.st.blockStart
    let stop := min (start + 65536) total
    if w.st.block = 0 ∧ fdFinal d ∧ total ≤ p then
      let e := emitUnit cap units (endBits w) w
      match e.1 with
      | .all _ => (.done 0 0, { e.2 with st := { e.2.st with phase := 2 } }, s)
      | .full => (.done 0x70 0, e.2, s)
      | .cut => (.done 2 0, e.2, s)
    else if w.st.block = 0 ∧ !fdFinal d ∧ total < start + 65536 then (.done 0x71 0, w, s)
    else
      let back := min start (levelDepth (fdLevel d) * w.st.row)
      let r := vaRead s.furrowReq fn allot (fdRawVa d + (start - back) * esz) ((stop - start + back) * esz) .read false s
      match r.1 with
      | .error e => (.failed e .read, w, r.2)
      | .ok bs =>
        let get := fun (q : Nat) => rawElem bs esz (start - back) q
        let ts := tokensFrom get w.st.row (levelDepth (fdLevel d)) stop (stop - p) p
        let form := blockForm (fdTable d) (symbolCounts ts)
        let opened := if w.st.block ≠ 0 then (Emitted.all units, w)
          else emitUnit cap units (match form with
            | none => bitsOf 2 0
            | some t => bitsOf 2 1 ++ t.flatMap (bitsOf 4)) w
        match opened.1 with
        | .full => (.done 0x70 0, w, r.2)
        | .cut => (.done 2 0, w, r.2)
        | .all n =>
          let w1 := if w.st.block ≠ 0 then w else { opened.2 with st := { w.st with
            block := if form.isNone then 1 else 2, table := form.getD (List.replicate 32 0), remain := 0 } }
          let e := emitTokens get cap ts n w1
          match e.1 with
          | .full => (.done 0x70 0, e.2, r.2)
          | .cut => (.done 2 0, e.2, r.2)
          | .all m =>
            let x := emitUnit cap m (codeBits e.2.st.codes 24) e.2
            let due := { e.2 with st := { e.2.st with remain := 1 } }
            match x.1 with
            | .full => (.done 0x70 0, due, r.2)
            | .cut => (.done 2 0, due, r.2)
            | .all k => compressFrom fn allot d cap fuel k { x.2 with
                st := { x.2.st with block := 0, table := List.replicate 32 0, remain := 0 } } r.2

/-! Decompression (R475–R479) -/

/-- The next unit of a stream, with the bits that follow it. -/
inductive DUnit where
  | header (elem row : Nat) (rest : List Bool)
  | opens (block : Nat) (table : List Nat) (rest : List Bool)
  | ends (crc len : Nat) (rest : List Bool)
  | closes (rest : List Bool)
  /-- a literal's header, a literal's element -/
  | lit (n : Nat) (rest : List Bool)
  | elem (v : Nat) (rest : List Bool)
  /-- a RUN's header: its element follows -/
  | run (n : Nat) (rest : List Bool)
  | row (n d : Nat) (rest : List Bool)
  | short
  | bad
  deriving DecidableEq, Repr

/-- A field of n bits, once they are there. -/
def takeBits (n : Nat) (l : List Bool) (k : Nat → List Bool → DUnit) : DUnit :=
  if l.length < n then .short else k (bitsNat (l.take n)) (l.drop n)

/-- Parse the 8-byte header (R463). -/
def parseHeader (l : List Bool) : DUnit :=
  takeBits 64 l (fun v r =>
    if slice v 0 16 ≠ 0x5246 ∨ slice v 16 8 ≠ 1 ∨ slice v 24 2 = 3 ∨ slice v 29 3 ≠ 0 ∨ slice v 32 16 = 0 ∨ slice v 48 16 ≠ 0
    then .bad else .header (slice v 24 2) (slice v 32 16) r)

/-- Parse a token or END_BLOCK of an open block. -/
def parseToken (st : FurrowState) (l : List Bool) : DUnit :=
  match readSym st.codes l with
  | .short => .short
  | .bad => .bad
  | .sym k n =>
    let c := lenClass (k % 8)
    let rest := l.drop n
    if k = 24 then .closes rest
    else if 24 < k then .bad
    else takeBits c.2 rest (fun x r =>
      let len := c.1 + x
      if k < 8 then .lit len r
      else if k < 16 then .run len r
      else takeBits 6 r (fun v r2 => if st.rawPos / st.esz < (v + 1) * st.row then .bad else .row len (v + 1) r2))

/-- Parse the next unit. -/
def parseUnit (st : FurrowState) (l : List Bool) : DUnit :=
  if st.row = 0 then parseHeader l
  else if st.phase = 1 then takeBits (8 * st.esz) l (fun v r => .elem v r)
  else if st.block ≠ 0 then parseToken st l
  else takeBits 2 l (fun t r =>
    match t with
    | 0 => .opens 1 (List.replicate 32 0) r
    | 1 => takeBits 128 r (fun v r2 =>
        let t := (List.range 32).map (fun k => slice v (4 * k) 4)
        if tableOk t then .opens 2 t r2 else .bad)
    | 2 =>
      let pad := r.length % 8
      takeBits pad r (fun v r2 => if v ≠ 0 then .bad else takeBits 96 r2 (fun x r3 => .ends (slice x 0 32) (slice x 32 64) r3))
    | _ => .bad)

/-- Raw bytes that a copy token produces: rows above are read from memory, at most d rows at a time. -/
def copyRows (fn allot : Nat) (d : List Byte) (dist : Nat) : Nat → Nat → Nat → State → Except (VaErr × Access) (List Byte) × State
  | 0, _, _, s => (.ok [], s)
  | fuel + 1, pos, n, s =>
    if n = 0 then (.ok [], s)
    else
      let k := min n dist
      let r := vaRead s.furrowReq fn allot (fdRawVa d + pos - dist) k .read false s
      match r.1 with
      | .error e => (.error (e, .read), r.2)
      | .ok bs =>
        let w := vaWrite r.2.furrowReq fn allot (fdRawVa d + pos) bs false r.2
        match w.1 with
        | some e => (.error (e, .write), w.2)
        | none =>
          let t := copyRows fn allot d dist fuel (pos + k) (n - k) w.2
          (t.1.map (fun x => bs ++ x), t.2)

/-- Raw bytes written at RAW_POS. -/
def putRaw (fn allot : Nat) (d : List Byte) (pos : Nat) (bs : List Byte) (s : State) : Except (VaErr × Access) (List Byte) × State :=
  let w := vaWrite s.furrowReq fn allot (fdRawVa d + pos) bs false s
  match w.1 with
  | some e => (.error (e, .write), w.2)
  | none => (.ok bs, w.2)

/-- What the work has produced: RAW_POS and the running CRC go on over new raw bytes. -/
def FurrowWork.grow (w : FurrowWork) (bs : List Byte) : FurrowWork :=
  { w with st := { w.st with rawPos := w.st.rawPos + bs.length, crc := crc32From w.st.crc bs }, raw := w.raw + bs.length }

/-- Where a decompressing job stops with bits left: at a unit boundary (PARTIAL, OUTPUT_FULL), bits of a byte already
begun go to PEND (log entry 23). -/
def stopAt (chunk : Nat) (rest : List Bool) (w : FurrowWork) : FurrowWork :=
  if 8 * chunk < rest.length then { w with st := { w.st with pend := rest.take (rest.length - 8 * chunk) }, used := 0 }
  else { w with st := { w.st with pend := rest.take (rest.length % 8) }, used := chunk - rest.length / 8 }

/-- Where the chunk ends inside a unit: its bits go to PEND; a byte beyond what PEND holds stays unconsumed (log entry
23). -/
def exhaust (chunk : Nat) (rest : List Bool) (w : FurrowWork) : FurrowWork :=
  let back := if 127 < rest.length then 1 else 0
  { w with st := { w.st with pend := rest.take (rest.length - 8 * back) }, used := chunk - back }

/-- Whole bytes consumed before a unit. -/
def usedBefore (chunk : Nat) (rest : List Bool) (w : FurrowWork) : FurrowWork := { w with used := (8 * chunk - rest.length) / 8 }

/-- Decompress unit by unit; fuel bounds the units, `units` is how many a drain still lets pass. -/
def decompressFrom (fn allot : Nat) (d : List Byte) (chunk : Nat) : Nat → Nat → List Bool → FurrowWork → State →
    FurrowEnd × FurrowWork × State
  | 0, _, rest, w, s => (.done 2 0, stopAt chunk rest w, s)
  | fuel + 1, units, rest, w, s =>
    let esz := w.st.esz
    let bad := (FurrowEnd.done 0xF0 0xE1, usedBefore chunk rest w, s)
    let full := fun (n : Nat) => fdRawBytes d < w.st.rawPos + n * esz
    let go := decompressFrom fn allot d chunk fuel (units - 1)
    let copied := fun (r : Except (VaErr × Access) (List Byte) × State) (rest' : List Bool) (w' : FurrowWork) =>
      match r.1 with
      | .error e => (FurrowEnd.failed e.1 e.2, usedBefore chunk rest w, r.2)
      | .ok bs => go rest' (w'.grow bs) r.2
    let cut := (FurrowEnd.done 2 0, stopAt chunk rest w, s)
    let short := if fdFinal d then bad else (FurrowEnd.done 0x71 0, exhaust chunk rest w, s)
    match parseUnit w.st rest with
    | .bad => bad
    | .short => short
    | .header e row r => if units = 0 then cut else go r { w with st := { w.st with elem := e, row := row } } s
    | .opens b t r => if units = 0 then cut else go r { w with st := { w.st with block := b, table := t } } s
    | .closes r => if units = 0 then cut else go r { w with st := { w.st with block := 0, table := List.replicate 32 0 } } s
    | .ends crc len r =>
      if units = 0 then cut
      else if crc ≠ w.st.crc ∨ len ≠ w.st.rawPos then (.done 0xF0 0xE2, usedBefore chunk r w, s)
      else
        let e := stopAt chunk r w
        (.done 0 0, { e with st := { e.st with phase := 2 } }, s)
    | .lit n r =>
      if full n then (.done 0x70 0, stopAt chunk rest w, s)
      else if units = 0 then cut
      else go r { w with st := { w.st with phase := 1, remain := n } } s
    | .elem v r =>
      if units = 0 then cut
      else
        let left := w.st.remain - 1
        copied (putRaw fn allot d w.st.rawPos (leBytes esz v) s) r
          { w with st := { w.st with phase := if left = 0 then 0 else 1, remain := left } }
    | .run n r =>
      if full n then (.done 0x70 0, stopAt chunk rest w, s)
      else if r.length < 8 * esz then short
      else if units = 0 then cut
      else
        let v := bitsNat (r.take (8 * esz))
        copied (putRaw fn allot d w.st.rawPos ((List.range n).flatMap (fun _ => leBytes esz v)) s) (r.drop (8 * esz)) w
    | .row n k r =>
      if full n then (.done 0x70 0, stopAt chunk rest w, s)
      else if units = 0 then cut
      else copied (copyRows fn allot d (k * w.st.row * esz) (n * esz) w.st.rawPos (n * esz) s) r w

end Sys2Proof.Machine
end

