-- ==== Sys2Proof/Machine/Furrow.lean ====
section
/-! DEFINITION. Furrow jobs: their checks, their run, their endings (spec/19 R470–R481), and the rows COMPRESS,
DECOMPRESS and FURROW_JOB_DONE. -/
namespace Sys2Proof.Machine

/-- The furrow job of an entry. -/
def State.furrowJob (s : State) (uid : Nat) : Option FurrowJob := s.furrow.jobs.find? (fun j => j.uid = uid)

/-- FURROW_STATUS from the jobs (Table 19.9). -/
def refreshFurrow (s : State) : State :=
  s.puts [(F.furrowStatusBusy, b2n !s.furrow.jobs.isEmpty), (F.furrowStatusQueued, s.furrow.jobs.length - 1),
    (F.furrowStatusOp, s.furrow.jobs.head?.elim 0 (fun j => fdOp j.desc))]

/-- A job is gone with a completion word and COUNT: counted, and an error recorded (Table 19.9). -/
def endFurrow (uid word count : Nat) (s : State) : State :=
  match s.furrowJob uid with
  | none => s
  | some j =>
    let st := slice word 0 8
    let s1 := unstall (.furrow uid) { s with furrow := { s.furrow with jobs := s.furrow.jobs.erase j } }
    let s2 := if st = 0 then s1.bump F.furrowJobsOk 1 else s1.bump F.furrowJobsOther 1
    let s3 := if st < 0x10 then s2 else
      s2.puts [(F.furrowLastErrorStatus, st), (F.furrowLastErrorDetail, slice word 8 8)]
    finishEntry uid word count (refreshFurrow s3)

/-- Note how far a job had come when it stalled. -/
def putFurrowCount (uid count : Nat) (s : State) : State :=
  { s with furrow := { s.furrow with jobs := s.furrow.jobs.map (fun j => if j.uid = uid then { j with count := count } else j) } }

/-- An access of a job that did not happen: a fault stalls the job or ends it, an error ends it (R480, R292). -/
def failFurrow (j : FurrowJob) (e : VaErr) (a : Access) (count : Nat) (s : State) : State :=
  match e with
  | .err x => endFurrow j.uid (s.errWord x) count s
  | .fault reason level va =>
    let en := s.entry j.uid
    let fr : FaultRec := { stream := .furrow j.uid, va := va, tag := en.elim 0 (fun e => e.tag), reason := reason,
                           access := a, allot := j.allot, fatal := false, cls := s.furrowReq.cls, level := level,
                           source := 66, unit := 0xFF, sq := en.elim 0xFF (fun e => e.sq), timeUs := 0 }
    let r := reportFault j.fn fr s
    match r.1 with
    | .stalled => putFurrowCount j.uid count r.2
    | .ended st => endFurrow j.uid (dw1 st 0 0) count r.2

/-- The bytes of a job's chunk that are whole, and the state with the rest in PEND. -/
def packChunk (w : FurrowWork) : List Byte × FurrowWork :=
  let n := w.out.length / 8
  (bitsBytes n w.out, { w with st := { w.st with pend := w.out.drop (8 * n) }, used := n })

/-- A job's work has ended: the raw and coded totals, the resume state where it is written, and the completion; the
state is not written with `word` given, which then completes the job (R471, R474, R481). -/
def closeFurrow (j : FurrowJob) (status detail : Nat) (w : FurrowWork) (word : Option Nat) (s : State) : State :=
  let s1 := (s.wr64 R.furrowRawTotal ((s.rd64 R.furrowRawTotal + w.raw) % 2 ^ 64))
  let s2 := s1.wr64 R.furrowCodedTotal ((s1.rd64 R.furrowCodedTotal + w.used) % 2 ^ 64)
  match word with
  | some x => endFurrow j.uid x w.used s2
  | none =>
    if status = 0xF0 then endFurrow j.uid (dw1 status detail 0) w.used s2
    else
      let st := { w.st with coded := w.st.coded + w.used }
      let r := vaWrite s2.furrowReq j.fn j.allot (fdStateVa j.desc) (st.bytes (fdCtrl j.desc)) false s2
      match r.1 with
      | some e => failFurrow j e .write w.used r.2
      | none => endFurrow j.uid (dw1 status detail 0) w.used r.2

/-- Work through a job from its state, letting `units` units pass. -/
def workFurrow (j : FurrowJob) (st : FurrowState) (units : Option Nat) (word : Option Nat) (s : State) : State :=
  let d := j.desc
  let w0 : FurrowWork := { st := st, out := [], used := 0, raw := 0 }
  if fdOp d = 0 then
    let cap := 8 * fdCodedBytes d
    let head := if fdResume d then st.pend else
      bitsOf 16 0x5246 ++ bitsOf 8 1 ++ bitsOf 8 (fdElem d + 4 * fdLevel d) ++ bitsOf 16 (fdRow d) ++ bitsOf 16 0
    let r := compressFrom j.fn j.allot d cap (cap + 1) (units.getD (cap + 1)) { w0 with out := head } s
    let p := packChunk r.2.1
    let wr := vaWrite r.2.2.furrowReq j.fn j.allot (fdCodedVa d) p.1 false r.2.2
    match wr.1 with
    | some e => failFurrow j e .write p.2.used wr.2
    | none =>
      match r.1 with
      | .failed e a => failFurrow j e a p.2.used wr.2
      | .done status detail => closeFurrow j status detail p.2 word wr.2
  else
    let n := fdCodedBytes d
    let c := vaRead s.furrowReq j.fn j.allot (fdCodedVa d) n .read false s
    match c.1 with
    | .error e => failFurrow j e .read 0 c.2
    | .ok bs =>
      let bits := st.pend ++ bytesBits bs
      let r := decompressFrom j.fn j.allot d n (bits.length + 1) (units.getD (bits.length + 1)) bits w0 c.2
      match r.1 with
      | .failed e a => failFurrow j e a r.2.1.used r.2.2
      | .done status detail => closeFurrow j status detail r.2.1 word r.2.2

/-- Run the job at the front: check 2 of Table 19.7 for a resumed one, then its work (R472). -/
def runFurrow (j : FurrowJob) (units : Option Nat) (word : Option Nat) (s : State) : State :=
  if fdResume j.desc then
    let r := vaRead s.furrowReq j.fn j.allot (fdStateVa j.desc) 64 .read false s
    match r.1 with
    | .error e => failFurrow j e .read 0 r.2
    | .ok b =>
      if !fdStateOk j.desc b then endFurrow j.uid (dw1 0xF0 0xE3 0) 0 r.2
      else
        let st := FurrowState.parse b
        if st.phase = 2 then endFurrow j.uid 0 0 r.2 else workFurrow j st units word r.2
  else workFurrow j (fdStart j.desc) units word s

/-- A drain meets a job: a stalled one ends with FAULT_ABORTED, a running one stops at its next unit boundary, which a
free value places, and a waiting one before its first unit (R480, R481; log entry 26). -/
def cutFurrow (j : FurrowJob) (s : State) : State :=
  if s.isStalled (.furrow j.uid) then endFurrow j.uid (dw1 0x30 0 0) j.count s
  else if s.furrow.jobs.head? = some j then
    let d := s.draw
    runFurrow j (some d.1) none d.2
  else runFurrow j (some 0) none s

/-- Island 66 closes: the running job has come to a free point and writes no state; the waiting ones had not begun
(R481; log entry 26). -/
def closeFurrows (s : State) : State :=
  let w := s.islandWord 0x11 66
  let s1 := s.each (s.furrow.jobs.drop 1) (fun j t => endFurrow j.uid w 0 t)
  match s1.furrow.jobs.head? with
  | none => s1
  | some j =>
    if s1.isStalled (.furrow j.uid) then endFurrow j.uid w j.count s1
    else
      let d := s1.draw
      let t := runFurrow j (some d.1) (some w) d.2
      endFurrow j.uid w 0 t

/-- A row of the furrow: a dispatched FURROW entry of that OP is checked and queued. -/
def furrowRow (op uid : Nat) (s : State) : Out :=
  .next (match s.entry uid with
    | none => s
    | some e =>
      match e.desc with
      | none => s
      | some d =>
        if e.opcode ≠ 4 ∨ fdOp d ≠ op ∨ !s.isOpen 56 ∨ (s.furrowJob uid).isSome then s
        else if !fdOk d then finishEntry uid (dw1 0xF0 0xE0 0) 0
          ((s.bump F.furrowJobsOther 1).puts [(F.furrowLastErrorStatus, 0xF0), (F.furrowLastErrorDetail, 0xE0)])
        else if s.isShut 66 then finishEntry uid (s.islandWord 0x11 66) 0 s
        else
          let j : FurrowJob := { uid := uid, fn := s.sqFn e.sq, allot := s.get (F.sqCfgAllot e.sq), desc := d, count := 0 }
          refreshFurrow { s with furrow := { s.furrow with jobs := s.furrow.jobs ++ [j] } })

/-- COMPRESS (R467, R470, R472). -/
def execCompress (uid : Nat) (s : State) : Out := furrowRow 0 uid s
/-- DECOMPRESS (R470, R472, R479). -/
def execDecompress (uid : Nat) (s : State) : Out := furrowRow 1 uid s

/-- FURROW_JOB_DONE (R474): the running job comes to its end, unless it is stalled on a fault. -/
def execFurrowJobDone (s : State) : Out :=
  .next (match s.furrow.jobs.head? with
    | none => s
    | some j => if s.isStalled (.furrow j.uid) || !s.isOpen 66 then s else runFurrow j none none s)

end Sys2Proof.Machine
end

