-- ==== Sys2Proof/Machine/Store.lean ====
section
/-! DEFINITION. The evidence store on raw NAND: its medium, its index and its requests (spec/20 R482–R504). -/
namespace Sys2Proof.Machine

/-! Geometry (R482–R486) -/

/-- Codewords of a page. -/
def NandChip.cws (c : NandChip) : Nat := 2 ^ (c.pageKib - 1)
/-- Data bytes of a page. -/
def NandChip.pageBytes (c : NandChip) : Nat := 4096 * c.cws
/-- Data bytes of a program unit (R483). -/
def NandChip.unitBytes (c : NandChip) : Nat := c.bits * c.pageBytes
/-- Program units of a block. -/
def NandChip.units (c : NandChip) : Nat := c.pages / c.bits

/-- The stored size of a codeword (Table 20.1). -/
def cwSize (codeB : Bool) : Nat := if codeB then 4560 else 4368
/-- The correction limit of a hard decode. -/
def cwLimit (codeB : Bool) : Nat := if codeB then 140 else 80

/-- A chip enable meets R482. -/
def NandChip.supported (c : NandChip) : Bool :=
  c.crcOk && 1 ≤ c.luns && c.luns ≤ 4 && 1 ≤ c.pageKib && c.pageKib ≤ 3 && 1 ≤ c.bits && c.bits ≤ 3 && !c.modes.isEmpty &&
    c.cws * 4368 ≤ c.pageBytes + c.spare

/-- The chip on a chip enable. -/
def State.chip (s : State) (ce : Nat) : Option NandChip := s.nand.chips.getD ce none

/-- The same parameter page and identity; factory marks differ. -/
def NandChip.alike (a b : NandChip) : Bool := { a with factory := [] } == { b with factory := [] }

/-- The chip that every chip enable of a mask shows, if R482 is met. -/
def State.commonChip (s : State) (mask : Nat) : Option NandChip :=
  match maskList 4 mask with
  | [] => none
  | ce :: rest =>
    match s.chip ce with
    | none => none
    | some c =>
      let total := (rest.length + 1) * c.blocks * c.pages * c.pageBytes
      if c.supported && rest.all (fun k => (s.chip k).elim false c.alike) && total ≤ 2 ^ 42 then some c else none

/-- The MT/s of the selected NV-DDR3 timing mode. -/
def NandChip.mts (c : NandChip) (ceiling : Nat) : Nat := (c.modes.filter (fun m => m ≤ ceiling)).foldl max 0

/-- The EVIDENCE configuration in force; under the fallback plan the store is mounted read-only with the superblock's
CE_MASK and the defaults of Table 3.14. -/
def State.evidCfg (s : State) : Option EvidenceCfg :=
  match s.plan.active.evidence with
  | some c => some c
  | none =>
    if s.get F.planStatusFallback = 0 then none
    else some ⟨2, s.nand.superblock.elim 15 (fun b => b.ceMask), 2, 30, 40, 800, 0, 0⟩

/-- A setting of the EVIDENCE configuration. -/
def State.evidSet (s : State) (f : EvidenceCfg → Nat) : Nat := s.evidCfg.elim 0 f

/-! Blocks and units -/

/-- A block as far as it has been used. -/
def State.block (s : State) (ce blk : Nat) : NandBlock :=
  (s.nand.blocks.find? (fun b => b.ce = ce && b.blk = blk)).getD ⟨ce, blk, 0, 0, 0, 0, false, none⟩

/-- Replace a block. -/
def setBlock (b : NandBlock) (s : State) : State :=
  { s with nand := { s.nand with
    blocks := b :: s.nand.blocks.filter (fun x => !(x.ce = b.ce && x.blk = b.blk)) } }

/-- A block is in the bad block table. -/
def State.isBad (s : State) (ce blk : Nat) : Bool := s.nand.bad.any (fun x => x.1 == ce && x.2.1 == blk)

/-- The lowest chip enable of a mask. -/
def lowCe (mask : Nat) : Nat := (maskList 4 mask).headD 0

/-- A block lies in the system area. -/
def Superblock.isSystem (b : Superblock) (ce blk : Nat) : Bool := ce == lowCe b.ceMask && blk < b.sysEnd

/-- Every block outside the system area that is not bad. -/
def State.goodBlocks (s : State) (b : Superblock) : List (Nat × Nat) :=
  (maskList 4 b.ceMask).flatMap (fun ce => ((List.range b.chip.blocks).filter (fun k =>
    !b.isSystem ce k && !s.isBad ce k)).map (fun k => (ce, k)))

/-- Blocks of capacity that hold units. -/
def State.usedBlocks (s : State) : Nat := (s.nand.blocks.filter (fun b => 0 < b.fill && !s.isBad b.ce b.blk)).length

/-- Free blocks of capacity. -/
def State.freeBlocks (s : State) (b : Superblock) : Nat := b.capBlocks - s.usedBlocks

/-- A unit holds data of a live clip. -/
def State.isLive (s : State) (u : UnitAt) : Bool := s.evid.index.clips.any (fun c => c.units.any (fun x => x.1 == u))

/-- The live units of a block. -/
def State.liveOf (s : State) (ce blk : Nat) : List UnitAt :=
  (s.nand.units.filter (fun u => u.loc.ce = ce && u.loc.blk = blk && s.isLive u.loc)).map (fun u => u.loc)

/-- The unit at a place. -/
def State.unitAt (s : State) (u : UnitAt) : Option NandUnit := s.nand.units.find? (fun x => x.loc == u)

/-- CRC-16 with the CCITT polynomial; its initial value of all ones is PRESUMED (log entry 37). -/
def crc16 (bs : List Byte) : Nat :=
  bs.foldl (fun c b => (List.range 8).foldl (fun r i =>
    let top := xor (bit r 15) (bit b.toNat (7 - i))
    let sh := r * 2 % 2 ^ 16
    if top then Nat.xor sh 0x1021 else sh) c) 0xFFFF

/-- A codeword: data padded with zeros, metadata (Table 20.3), parity (R484). -/
def codeword (codeB : Bool) (clip index seq : Nat) (data : List Byte) : List Byte :=
  let valid := if data.isEmpty then Config.padValid else data.length
  let head := leBytes 4 clip ++ leBytes 4 index ++ leBytes 4 seq ++ leBytes 2 valid
  let bs := data ++ List.replicate (4096 - data.length) 0 ++ head ++ leBytes 2 (crc16 head)
  bs ++ (List.range (cwSize codeB - 4112)).map (Config.ldpcParity (b2n codeB) bs)

/-- The pages of a unit with data of a clip from a 4 KiB position on. -/
def unitPages (b : Superblock) (clip index seq : Nat) (data : List Byte) : List (List Byte) :=
  (List.range b.chip.bits).map (fun p =>
    let cws := (List.range b.chip.cws).flatMap (fun j =>
      let k := p * b.chip.cws + j
      codeword b.codeB clip (index + k) seq ((data.drop (4096 * k)).take 4096))
    cws ++ List.replicate (b.chip.pageBytes + b.chip.spare - cws.length) 0xFF)

/-- The data bytes that a unit's pages hold. -/
def unitData (b : Superblock) (pages : List (List Byte)) : List Byte :=
  pages.flatMap (fun p => (List.range b.chip.cws).flatMap (fun j => (p.drop (j * cwSize b.codeB)).take 4096))

/-- The clip that a unit's first codeword names. -/
def unitClip (pages : List (List Byte)) : Nat := bytesAt (pages.headD []) 4096 4

/-- Where the next unit goes (R495; log entry 38): an open block of a chip enable at rest, else the free block with
the lowest erase count, else an open block. -/
def State.nextUnit (s : State) (b : Superblock) : Option UnitAt :=
  let open_ := s.nand.blocks.filter (fun k => 0 < k.fill && k.fill < b.chip.units && k.mark == 0 && !k.shut &&
    !s.isBad k.ce k.blk && bit b.ceMask k.ce)
  let rest := open_.find? (fun k => s.evid.ops.all (fun o => o.loc.ce ≠ k.ce))
  let fresh := (s.goodBlocks b).filter (fun k =>
    let x := s.block k.1 k.2
    x.fill == 0 && x.mark == 0 && !x.shut && s.evid.ops.all (fun o => !(o.loc.ce = k.1 && o.loc.blk = k.2)))
  let low := fresh.find? (fun k => fresh.all (fun j => (s.block k.1 k.2).erases ≤ (s.block j.1 j.2).erases))
  match rest with
  | some k => some ⟨k.ce, k.blk, k.fill⟩
  | none =>
    if 0 < s.freeBlocks b then (low.map (fun k => ⟨k.1, k.2, 0⟩))
    else open_.head?.map (fun k => ⟨k.ce, k.blk, k.fill⟩)

/-- A program of a unit begins. -/
def programAt (u : UnitAt) (p : NandPurpose) (pages : List (List Byte)) (s : State) : State :=
  let k := s.block u.ce u.blk
  let s1 := setBlock { k with fill := u.idx + 1 } s
  { s1 with
    nand := { s1.nand with units := ⟨u, pages, false⟩ :: s1.nand.units.filter (fun x => x.loc != u) },
    evid := { s1.evid with ops := s1.evid.ops ++ [⟨u, p⟩] } }

/-! Index, journal, checkpoints (R501) -/

/-- Change a clip of an index. -/
def StoreIndex.onClip (x : StoreIndex) (n : Nat) (f : Clip → Clip) : StoreIndex :=
  { x with clips := x.clips.map (fun c => if c.num = n then f c else c) }

/-- Units of a clip cut back to a length. -/
def cutUnits : List (UnitAt × Nat) → Nat → List (UnitAt × Nat)
  | [], _ => []
  | u :: r, n => if n = 0 then [] else (u.1, min u.2 n) :: cutUnits r (n - min u.2 n)

/-- What a journal record changes in the index. -/
def StoreIndex.apply (x : StoreIndex) : JournalRec → StoreIndex
  | .unit n u k => { x.onClip n (fun c => { c with units := c.units ++ [(u, k)], length := c.length + k }) with seq := x.seq + 1 }
  | .create c => { x with clips := x.clips ++ [c], nextClip := c.num + 1 }
  | .sealClip n => x.onClip n (fun c => { c with shutDown := true })
  | .delete n => { x with clips := x.clips.filter (fun c => c.num ≠ n) }
  | .packets n => x.onClip n (fun c => { c with packets := true })
  | .cutBack n k => x.onClip n (fun c => { c with length := min c.length k, units := cutUnits c.units k })
  | .clearCut n => x.onClip n (fun c => { c with cut := false })
  | .volume _ => x
  | .retired _ _ => x
  | .moved a b => { x with clips := x.clips.map (fun c => { c with
      units := c.units.map (fun u => if u.1 == a then (b, u.2) else u) }) }

/-- The kind of a journal record. -/
def JournalRec.kind : JournalRec → Nat
  | .unit _ _ _ => 0
  | .create _ => 1
  | .sealClip _ => 2
  | .delete _ => 3
  | .packets _ => 4
  | .cutBack _ _ => 5
  | .clearCut _ => 6
  | .volume _ => 7
  | .retired _ _ => 8
  | .moved _ _ => 9

/-- The sequence number of a checkpoint slot; an invalid one is older than every other. -/
def ckptSeq (c : Option (Nat × StoreIndex)) : Nat := c.elim 0 (fun x => x.1)

/-- The newer valid checkpoint. -/
def NandStore.newer (n : NandStore) : Option (Nat × StoreIndex) :=
  n.ckpts.foldl (fun a c => if ckptSeq a < ckptSeq c then c else a) none

/-- Write the index to the older checkpoint slot; the journal starts anew. -/
def checkpoint (s : State) : State :=
  let older := if ckptSeq (s.nand.ckpts.getD 0 none) ≤ ckptSeq (s.nand.ckpts.getD 1 none) then 0 else 1
  let seq := ckptSeq s.nand.newer + 1
  { s with nand := { s.nand with
    ckpts := setAt older (some (seq, s.evid.index)) s.nand.ckpts, journal := [], journalBytes := 0 } }

/-- A journal record is made, with its effect on the index; the journal's growth makes a checkpoint (R501). -/
def journal (r : JournalRec) (s : State) : State :=
  let n := s.nand.journalBytes + Config.journalBytes r.kind
  let s1 := { s with
    nand := { s.nand with journal := s.nand.journal ++ [r], journalBytes := n },
    evid := { s.evid with index := s.evid.index.apply r } }
  if 4194304 * s.evidSet (fun c => c.maxMts) / 800 ≤ n then checkpoint s1 else s1

/-- The clip with a number. -/
def State.clip (s : State) (n : Nat) : Option Clip := s.evid.index.clips.find? (fun c => c.num = n)

/-- The volumes. -/
def State.volumes (s : State) : List Volume := s.nand.superblock.elim [] (fun b => b.volumes)

/-- Change the superblock. -/
def onSuper (f : Superblock → Superblock) (s : State) : State :=
  { s with nand := { s.nand with superblock := s.nand.superblock.map f } }

/-- Bytes of NAND that the clips of a volume take, in whole units. -/
def State.volumeBytes (s : State) (v : Nat) : Nat :=
  let n := (s.evid.index.clips.filter (fun c => c.volume = v)).foldl (fun n c => n + c.units.length) 0
  n * s.nand.superblock.elim 0 (fun b => b.chip.unitBytes)

/-! Registers (Tables 20.8 and 20.9) -/

/-- A change of STATE, RO_REASON or SPARES_LOW: event 11, and ALERT_N for 1 ms under ALERT_MASK bit 3. -/
def storeEvent (s : State) : State :=
  let s1 := setEvent 11 s
  if bit s.plan.active.limits.alertMask 3 then
    { s1 with board := { s1.board with alerts := 3 :: s1.board.alerts.filter (fun a => a ≠ 3) } }
  else s1

/-- What a change of makes an event. -/
def State.storeShown (s : State) : Nat × Nat × Nat :=
  (s.get F.nandStatusState, s.get F.nandStatusRoReason, s.get F.nandStatusSparesLow)

/-- QUEUED and SCRUBBING. -/
def showQueue (s : State) : State :=
  s.puts [(F.nandStatusQueued, s.evid.reqs.length),
    (F.nandStatusScrubbing, b2n s.evid.scrubDue)]

/-- The registers that show the superblock and the medium, filled when the store is mounted. -/
def showMedium (b : Superblock) (s : State) : State :=
  let c := b.chip
  let blockBytes := c.pages * c.pageBytes
  let grown := (s.nand.bad.filter (fun x => x.2.2)).length
  let s1 := s.puts [(F.nandGeometryCes, b.ceMask), (F.nandGeometryLuns, c.luns - 1), (F.nandGeometryPageKib, c.pageKib),
    (F.nandGeometryBits, c.bits), (F.nandGeometryCode, b2n b.codeB), (F.nandGeometryPagesPerBlock, c.pages),
    (F.nandSparesTotal, b.spareTotal), (F.nandSparesLeft, b.spareLeft),
    (F.nandBadFactory, min (s.nand.bad.length - grown) 0xFFFF), (F.nandBadGrown, min grown 0xFFFF),
    (F.nandWearMaxPe, min ((s.nand.blocks.map (fun x => x.erases)).foldl max 0) 0xFFFF), (F.nandWearRated, c.rated),
    (F.nandStatusSparesLow, b2n (decide (4 * b.spareLeft < b.spareTotal)))]
  let s2 := ((s1.wr64 R.nandCapacity (b.capBlocks * blockBytes)).wr64 R.nandFree (s.freeBlocks b * blockBytes))
  let s3 := (s2.wr R.nandScrub (BitVec.ofNat 32 s.nand.lastScrub)).wr R.nandMts (BitVec.ofNat 32 (c.mts (s.evidSet (fun e => e.maxMts))))
  s3.each (List.range 16) (fun v t =>
    let q := (s.volumes.find? (fun x => x.num = v)).elim 0 (fun x => x.quota)
    t.wr64 (R.nandVol v) (q + 2 ^ 32 * ceilDiv (s.volumeBytes v) (2 ^ 20)))

/-- Show the store after a change; `before` is what was shown. -/
def showStore (before : Nat × Nat × Nat) (s : State) : State :=
  if s.isShut 58 then s
  else
    let st := s.get F.nandStatusState
    let s1 := match s.nand.superblock with
      | some b => if st = 2 ∨ st = 3 then showMedium b s else s
      | none => s
    let s2 := showQueue s1
    if s2.storeShown = before then s2 else storeEvent s2

/-! Bad blocks (R498, R499) -/

/-- A block fails: it enters the bad block table, takes a spare, and its live units are to be moved; with no spare left
the store becomes read-only. -/
def retireBlock (ce blk : Nat) (s : State) : State :=
  if s.isBad ce blk then s
  else
    let left := s.nand.superblock.elim 0 (fun b => b.spareLeft)
    let s1 := setBlock { s.block ce blk with mark := 1, shut := true } s
    let s2 := { s1 with nand := { s1.nand with bad := s1.nand.bad ++ [(ce, blk, true)] } }
    let s3 := journal (.retired ce blk) (onSuper (fun b => { b with spareLeft := left - 1, readOnly := b.readOnly || left == 0 }) s2)
    if left = 0 ∧ s3.get F.nandStatusState = 2 then s3.puts [(F.nandStatusState, 3), (F.nandStatusRoReason, 2)] else s3

/-! Descriptors (Table 20.4) -/

/-- OP. -/
def evOp (d : List Byte) : Nat := bytesAt d 0 1
/-- VOLUME. -/
def evVolume (d : List Byte) : Nat := slice (bytesAt d 0 4) 8 4
/-- POLICY. -/
def evPolicy (d : List Byte) : Nat := slice (bytesAt d 0 4) 12 1
/-- CONTINUE. -/
def evContinue (d : List Byte) : Bool := bit (bytesAt d 0 4) 13
/-- CLIP. -/
def evClip (d : List Byte) : Nat := bytesAt d 4 4
/-- OFFSET or EXPECT_LEN. -/
def evOffset (d : List Byte) : Nat := bytesAt d 8 4
/-- LEN. -/
def evLen (d : List Byte) : Nat := bytesAt d 0xC 4
/-- VA. -/
def evVa (d : List Byte) : Nat := bytesAt d 0x10 8
/-- SLOT. -/
def evSlot (d : List Byte) : Nat := bytesAt d 0x30 1

/-- FROM_NS; 0 means EVENT_NS − PRE_S seconds. -/
def State.evFrom (s : State) (d : List Byte) : Nat :=
  if bytesAt d 0x20 8 = 0 then bytesAt d 0x18 8 - s.evidSet (fun c => c.preS) * 1000000000 else bytesAt d 0x20 8

/-- TO_NS; 0 means EVENT_NS + POST_S seconds. -/
def State.evTo (s : State) (d : List Byte) : Nat :=
  if bytesAt d 0x28 8 = 0 then bytesAt d 0x18 8 + s.evidSet (fun c => c.postS) * 1000000000 else bytesAt d 0x28 8

/-- Check 1: the descriptor meets R488. -/
def evOk (d : List Byte) : Bool :=
  evOp d ≤ 9 && bytesAt d 0 4 / 2 ^ 14 == 0 && evVa d < 2 ^ 48 && evSlot d < 64 && bytesAt d 0x31 15 == 0

/-- An operation appends. -/
def isAppend (d : List Byte) : Bool := evOp d == 2 || evOp d == 3

/-- An operation names a clip. -/
def namesClip (d : List Byte) : Bool := [0, 2, 3, 4, 5, 6].contains (evOp d)

/-! Requests -/

/-- A request that is held. -/
def State.evidReq (s : State) (uid : Nat) : Option EvidReq := s.evid.reqs.find? (fun r => r.uid = uid)

/-- Change a request. -/
def changeReq (uid : Nat) (f : EvidReq → EvidReq) (s : State) : State :=
  { s with evid := { s.evid with reqs := s.evid.reqs.map (fun r => if r.uid = uid then f r else r) } }

/-- A request completes with a word and COUNT. -/
def endEvid (uid word count : Nat) (s : State) : State :=
  let s1 := { s with evid := { s.evid with reqs := s.evid.reqs.filter (fun r => r.uid ≠ uid) } }
  finishEntry uid word count (unstall (.evidence uid) s1)

/-- INFO of an APPEND_PKT's completion (R493). -/
def EvidReq.info (r : EvidReq) : Nat := if evOp r.desc = 3 then b2n r.trunc + 2 * b2n r.gap else 0

/-- A request ends with a word at its next boundary: at once with nothing under way. -/
def endAtUnit (r : EvidReq) (word : Nat) (s : State) : State :=
  if r.busy then changeReq r.uid (fun x => { x with ending := some (x.ending.getD word) }) s else endEvid r.uid word r.done s

/-- The memory class and island of a request's accesses (R262). -/
def State.evidReqOf (s : State) : Req := ⟨58, s.plan.active.qos.islands.getD 58 1, 0, false⟩

/-- A failed access of a request: a fault stalls it or ends it, an error ends it (R491). -/
def failEvid (r : EvidReq) (a : Access) (e : VaErr) (s : State) : State :=
  match e with
  | .err x => endEvid r.uid (s.errWord x) r.done s
  | .fault reason level va =>
    let en := s.entry r.uid
    let fr : FaultRec := {
      stream := .evidence r.uid, va := va, tag := en.elim 0 (fun e => e.tag), reason := reason, access := a,
      allot := r.allot, fatal := false, cls := s.evidReqOf.cls, level := level, source := 58, unit := 0xFF,
      sq := en.elim 0xFF (fun e => e.sq), timeUs := 0 }
    let x := reportFault r.fn fr s
    match x.1 with
    | .stalled => x.2
    | .ended st => endEvid r.uid (dw1 st 0 0) r.done x.2

/-- The volume that a request concerns. -/
def State.volumeOf (s : State) (d : List Byte) : Option Nat :=
  if namesClip d then (s.clip (evClip d)).map (fun c => c.volume) else some (evVolume d)

/-- A later request waits for an earlier one (R490): on the same clip, on a volume that one of them creates or deletes,
and around a FORMAT (log entry 39). -/
def State.evidWaits (s : State) (later earlier : List Byte) : Bool :=
  let whole := fun (d : List Byte) => evOp d == 7 || evOp d == 8
  evOp later == 9 || evOp earlier == 9 ||
    (namesClip later && namesClip earlier && evClip later == evClip earlier) ||
    ((whole later || whole earlier) && s.volumeOf later == s.volumeOf earlier)

/-! Reading the packet ring (R446, R493, R494) -/

/-- Hose 1 reads the ring by PA for stream channel 15. -/
def State.ringReq (s : State) : Req := ⟨68, s.hoseClass 1 15, 0, false⟩

/-- RAP is set in a record of the ring. -/
def State.ringRap (s : State) (r : RingRec) : Bool :=
  match (physRead s.ringReq (s.pktBase + r.off) 4 s).1 with
  | .ok bs => bit (leNat bs) 27
  | .error _ => false

/-- Check 6 (R494): the channel belongs to Gardener 1, group 7 is off, and the staging buffer is given. -/
def State.channelReady (s : State) : Bool :=
  s.isOpen 57 && !s.isShut 68 && !s.isShut 62 && s.get (F.hoseCfgOwner 1 15) == 2 && s.get (F.decodeGroupCfgEn 7) == 0 &&
    s.get F.nandStageEn == 1

/-- The records of a slot, oldest first. -/
def State.slotRecords (s : State) (slot : Nat) : List RingRec := s.intake.ring.filter (fun r => r.slot = slot)

/-- Find the first record of an APPEND_PKT: the latest RAP record at or before FROM_NS, else the oldest RAP record with
TRUNC_HEAD (R493). -/
def findHead (r : EvidReq) (s : State) : State :=
  let raps := (s.slotRecords (evSlot r.desc)).filter s.ringRap
  match (raps.filter (fun x => x.ns ≤ s.evFrom r.desc)).getLast?, raps.head? with
  | some x, _ => changeReq r.uid (fun q => { q with head := true, lastCount := x.count - 1 }) s
  | none, some x =>
    if x.ns < s.evTo r.desc then changeReq r.uid (fun q => { q with head := true, lastCount := x.count - 1, trunc := true }) s else s
  | none, none => s

/-- The next record due to an APPEND_PKT. -/
def State.dueRecord (s : State) (r : EvidReq) : Option RingRec :=
  if !r.head then none
  else (s.slotRecords (evSlot r.desc)).find? (fun x => r.lastCount < x.count && x.ns < s.evTo r.desc)

/-- Bytes that wait in the staging buffer. -/
def State.staged (s : State) : Nat :=
  (s.evid.reqs.filter (fun r => evOp r.desc = 3)).foldl (fun n r => n + r.buf.length) 0

/-- Copy one record through the staging buffer (R494). -/
def copyRecord (r : EvidReq) (x : RingRec) (s : State) : State :=
  let rd := physRead s.ringReq (s.pktBase + x.off) x.size s
  match rd.1 with
  | .error e => endAtUnit r (rd.2.errWord e) rd.2
  | .ok bs =>
    let pos := if s.evid.stagePos + x.size ≤ 4194304 then s.evid.stagePos else 0
    let base := s.rd64 R.nandStage / 4096 % 2 ^ 36 * 4096
    let w := vaWrite s.ringReq 0 (s.get F.nandStageAllot) (base + pos) bs true rd.2
    match w.1 with
    | some (.err e) => endAtUnit r (w.2.errWord e) w.2
    | some (.fault reason level va) =>
      let en := s.entry r.uid
      let fr : FaultRec := {
        stream := .evidence r.uid, va := va, tag := en.elim 0 (fun e => e.tag), reason := reason, access := .write,
        allot := s.get F.nandStageAllot, fatal := true, cls := s.ringReq.cls, level := level, source := 68, unit := 15,
        sq := en.elim 0xFF (fun e => e.sq), timeUs := 0 }
      endAtUnit r (dw1 0x32 0 r.info) (reportFault 0 fr w.2).2
    | none =>
      changeReq r.uid (fun q => { q with buf := q.buf ++ bs, lastCount := x.count })
        { w.2 with evid := { w.2.evid with stagePos := pos + x.size } }

/-- Copy the records due to an APPEND_PKT as far as the staging buffer has room; `fuel` bounds them. -/
def copyRecords (uid : Nat) : Nat → State → State
  | 0, s => s
  | fuel + 1, s =>
    match s.evidReq uid with
    | none => s
    | some r =>
      if r.ending.isSome then s
      else match s.dueRecord r with
        | none => s
        | some x => if 4194304 < s.staged + x.size then s else copyRecords uid fuel (copyRecord r x s)

/-! Appending (R487, R492) -/

/-- Delete sealed clips of a volume in ascending order until one more unit fits its quota (R487); `fuel` bounds them. -/
def makeRoom (v keep : Nat) : Nat → State → Bool × State
  | 0, s => (false, s)
  | fuel + 1, s =>
    let unit := s.nand.superblock.elim 0 (fun b => b.chip.unitBytes)
    match s.volumes.find? (fun x => x.num = v) with
    | none => (false, s)
    | some q =>
      if s.volumeBytes v + unit ≤ q.quota * 2 ^ 20 then (true, s)
      else if q.policy = 0 then (false, s)
      else
        let old := s.evid.index.clips.filter (fun c => c.volume = v && c.shutDown && c.num ≠ keep)
        match old.find? (fun c => old.all (fun x => c.num ≤ x.num)) with
        | none => (false, s)
        | some c => makeRoom v keep fuel (journal (.delete c.num) s)

/-- The next unit of an append is programmed with the first `n` bytes of its buffer, or the append stops with
OUTPUT_FULL. -/
def programUnit (r : EvidReq) (n : Nat) (s : State) : State :=
  match s.nand.superblock, s.clip (evClip r.desc) with
  | some b, some c =>
    let m := makeRoom c.volume c.num (s.evid.index.clips.length + 1) s
    match m.1, m.2.nextUnit b with
    | true, some u =>
      if 2 ^ 32 ≤ c.length + n then endEvid r.uid (dw1 0x70 0 r.info) r.done m.2
      else
        let idx := c.units.length * (b.chip.bits * b.chip.cws)
        changeReq r.uid (fun q => { q with buf := q.buf.drop n, busy := true })
          (programAt u (.prog r.uid c.num n) (unitPages b c.num idx m.2.evid.index.seq (r.buf.take n)) m.2)
    | _, _ => endEvid r.uid (dw1 0x70 0 r.info) r.done m.2
  | _, _ => endEvid r.uid (dw1 0x70 0 r.info) r.done s

/-- Bytes of a program unit. -/
def State.unitSize (s : State) : Nat := s.nand.superblock.elim 0 (fun b => b.chip.unitBytes)

/-- APPEND_MEM goes on: the next unit's bytes are read and programmed, or the request is done. -/
def goAppendMem (r : EvidReq) (s : State) : State :=
  let n := min s.unitSize (evLen r.desc - r.pos)
  if n = 0 then endEvid r.uid 0 r.done s
  else
    let x := vaRead s.evidReqOf r.fn r.allot (evVa r.desc + r.pos) n .read false s
    match x.1 with
    | .error e => failEvid r .read e x.2
    | .ok bs =>
      let q := { r with buf := bs, pos := r.pos + n }
      programUnit q n (changeReq r.uid (fun _ => q) x.2)

/-- APPEND_PKT goes on: records due are copied, a full unit is programmed, and past TO_NS the rest (R493). -/
def goAppendPkt (r0 : EvidReq) (s0 : State) : State :=
  let s1 := if r0.head ∨ !s0.channelReady then s0 else findHead r0 s0
  let s := if s1.channelReady then copyRecords r0.uid (s1.intake.ring.length + 1) s1 else s1
  match s.evidReq r0.uid with
  | none => s
  | some r =>
    if r.busy then s
    else if s.unitSize ≤ r.buf.length then programUnit r s.unitSize s
    else if r.past ∧ (s.dueRecord r).isNone then
      (if r.buf.isEmpty then endEvid r.uid (dw1 0 0 r.info) r.done s else programUnit r r.buf.length s)
    else s

/-! Reading (R485, R488) -/

/-- The unit of a clip that holds a byte of it, and where in that unit. -/
def findUnit : List (UnitAt × Nat) → Nat → Option (UnitAt × Nat × Nat)
  | [], _ => none
  | u :: r, n => if n < u.2 then some (u.1, n, u.2) else findUnit r (n - u.2)

/-- READ goes on: what has been read is written to memory, then the next unit is read. -/
def goRead (r : EvidReq) (s : State) : State :=
  let w := if r.buf.isEmpty then (none, s)
    else vaWrite s.evidReqOf r.fn r.allot (evVa r.desc + r.done) r.buf false s
  match w.1 with
  | some e => failEvid r .write e w.2
  | none =>
    let q := { r with done := r.done + r.buf.length, buf := [] }
    let s1 := changeReq r.uid (fun _ => q) w.2
    match s1.clip (evClip r.desc) with
    | none => endEvid r.uid (dw1 0xF0 0xF3 0) q.done s1
    | some c =>
      if q.bad then endEvid r.uid (dw1 0x60 0 0) q.done s1
      else if evLen r.desc ≤ q.done then endEvid r.uid 0 q.done s1
      else match findUnit c.units (evOffset r.desc + q.done) with
        | none => endEvid r.uid (dw1 3 0 0) q.done s1
        | some u => changeReq r.uid (fun x => { x with busy := true })
            { s1 with evid := { s1.evid with ops := s1.evid.ops ++ [⟨u.1, .read r.uid⟩] } }

/-! FORMAT (R500) -/

/-- The next block of a chip enable that FORMAT erases. -/
def State.nextWipe (s : State) (ce i : Nat) : Option Nat :=
  (List.range ((s.chip ce).elim 0 (fun c => c.blocks))).find? (fun k => i ≤ k && !s.isBad ce k)

/-- Erase the next block of a chip enable, if there is one. -/
def wipeNext (ce : Nat) (s : State) : State :=
  match s.evid.format with
  | none => s
  | some (uid, next) =>
    if !bit (s.evidSet (fun c => c.ceMask)) ce then s
    else match s.nextWipe ce (next.getD ce 0) with
      | none => s
      | some k => { s with evid := { s.evid with
          format := some (uid, setAt ce (k + 1) next), ops := s.evid.ops ++ [⟨⟨ce, k, 0⟩, .wipe⟩] } }

/-- FORMAT begins: the factory marks of every block enter the table, and the index, the superblock and the checkpoints
are gone. -/
def startFormat (r : EvidReq) (s : State) : State :=
  let marks := (maskList 4 (s.evidSet (fun c => c.ceMask))).flatMap (fun ce =>
    ((s.chip ce).elim [] (fun c => c.factory)).map (fun k => (ce, k, false)))
  let new := marks.filter (fun m => !s.isBad m.1 m.2.1)
  let s1 := { s with
    nand := { s.nand with
      bad := s.nand.bad ++ new, superblock := none, ckpts := [none, none], journal := [], journalBytes := 0 },
    evid := { s.evid with index := .empty, scrub := [], scrubDue := false, format := some (r.uid, [0, 0, 0, 0]) } }
  (changeReq r.uid (fun q => { q with begun := true }) s1).each (List.range 4) wipeNext

/-- A mounted state for a plan's MODE and the superblock: read-write, or read-only with its reason. -/
def mountedState (mode : Nat) (b : Superblock) : Nat × Nat :=
  if b.readOnly then (3, 2) else if mode = 1 then (2, 0) else (3, 1)

/-- FORMAT ends: a new superblock with its spare pool, an empty index from a number of its own (R486, R500). -/
def endFormat (uid : Nat) (s : State) : State :=
  let mask := s.evidSet (fun c => c.ceMask)
  let d := s.draw
  let s0 := { d.2 with evid := { d.2.evid with format := none, index := { StoreIndex.empty with nextClip := d.1 % 2 ^ 31 } } }
  match s.commonChip mask with
  | none => endEvid uid (dw1 0xF0 0xF1 0) 0 s0
  | some c =>
    let good := (List.range c.blocks).filter (fun k => !s.isBad (lowCe mask) k)
    let b0 : Superblock := {
      chip := { c with factory := [] }, codeB := decide (c.cws * 4560 ≤ c.pageBytes + c.spare), ceMask := mask,
      sysEnd := (good.getD 63 c.blocks) + 1, capBlocks := 0, spareTotal := 0, spareLeft := 0, volumes := [],
      readOnly := false }
    let n := (s0.goodBlocks b0).length
    let sp := ceilDiv (n * s.evidSet (fun e => e.sparePct)) 100
    let b := { b0 with capBlocks := n - sp, spareTotal := sp, spareLeft := sp }
    let st := mountedState (s.evidSet (fun e => e.mode)) b
    let s1 := checkpoint { s0 with nand := { s0.nand with superblock := some b } }
    let cap := b.capBlocks * (c.pages * c.pageBytes) / 2 ^ 20
    endEvid uid 0 cap (s1.puts [(F.nandStatusState, st.1), (F.nandStatusRoReason, st.2), (F.nandStatusReason, 0)])

/-! Checks and starts (Table 20.7) -/

/-- Check 2: the store's state admits the operation. FORMAT needs a plan that mounts the store and NAND that R482
accepts (log entry 39). -/
def State.evidStateError (s : State) (op : Nat) : Option Nat :=
  let st := s.get F.nandStatusState
  if op = 9 then
    (if s.plan.active.evidence.isNone ∨ (s.commonChip (s.evidSet (fun c => c.ceMask))).isNone then some (dw1 0xF0 0xF1 0) else none)
  else if st = 2 ∨ (st = 3 ∧ (op = 0 ∨ op = 5)) then none
  else if st = 3 ∧ s.get F.nandStatusRoReason = 2 then some (dw1 0x61 0 0)
  else some (dw1 0xF0 0xF1 0)

/-- Check 4: the volume or clip exists, a new volume does not and fits the free capacity. -/
def State.evidObject (s : State) (d : List Byte) : Bool :=
  let has := s.volumes.any (fun v => v.num == evVolume d)
  let free := s.nand.superblock.elim 0 (fun b => s.freeBlocks b * (b.chip.pages * b.chip.pageBytes))
  if namesClip d then (s.clip (evClip d)).isSome
  else match evOp d with
    | 1 => has
    | 7 => !has && evLen d * 2 ^ 20 ≤ free
    | 8 => has
    | _ => true

/-- Check 5: the word and COUNT of an append that its clip does not take. -/
def State.evidAppend (s : State) (d : List Byte) : Option (Nat × Nat) :=
  match s.clip (evClip d) with
  | none => none
  | some c =>
    if c.shutDown then some (dw1 0xF0 0xF4 0, 0)
    else if evOffset d ≠ 0xFFFFFFFF ∧ evOffset d ≠ c.length then some (dw1 0xF0 0xF6 0, c.length)
    else none

/-- The word and COUNT of a request's first failed check. -/
def State.evidRefusal (s : State) (r : EvidReq) : Option (Nat × Nat) :=
  let d := r.desc
  let op := evOp d
  match s.evidStateError op with
  | some w => some (w, 0)
  | none =>
    if 7 ≤ op ∧ r.fn ≠ 0 then some (dw1 0x41 0xF2 0, 0)
    else if !s.evidObject d then some (dw1 0xF0 0xF3 0, 0)
    else match (if isAppend d then s.evidAppend d else none) with
      | some x => some x
      | none => if op = 3 ∧ !s.channelReady then some (dw1 0xF0 0xF5 0, 0) else none

/-- The clip record (Table 20.6). -/
def Clip.record (c : Clip) : List Byte :=
  leBytes 4 c.num ++ leBytes 4 c.length ++ leBytes 1 c.volume ++ leBytes 1 (b2n c.shutDown + 2 * b2n c.packets) ++
    List.replicate 6 0 ++ leBytes 4 c.created ++ List.replicate 12 0 ++ c.note

/-- QUERY: the record is written; the first one of a clip marked cut reads NAND_UNCERTAIN and clears the mark (R502). -/
def doQuery (r : EvidReq) (c : Clip) (s : State) : State :=
  let w := vaWrite s.evidReqOf r.fn r.allot (evVa r.desc) c.record false s
  match w.1 with
  | some e => failEvid r .write e w.2
  | none =>
    if c.cut then endEvid r.uid (dw1 0x62 0 0) c.length (journal (.clearCut c.num) w.2) else endEvid r.uid 0 c.length w.2

/-- CREATE: a new unsealed clip with 32 bytes of metadata. -/
def doCreate (r : EvidReq) (s : State) : State :=
  let x := vaRead s.evidReqOf r.fn r.allot (evVa r.desc) 32 .read false s
  match x.1 with
  | .error e => failEvid r .read e x.2
  | .ok bs =>
    let n := s.evid.index.nextClip
    let c : Clip := {
      num := n, volume := evVolume r.desc, length := 0, shutDown := false, packets := false,
      created := s.timeUs / 1000000 % 2 ^ 32, note := bs, units := [], cut := false }
    endEvid r.uid 0 n (journal (.create c) x.2)

/-- VOLUME_DELETE: the volume and every clip in it are removed. -/
def doVolumeDelete (r : EvidReq) (s : State) : State :=
  let v := evVolume r.desc
  let cs := s.evid.index.clips.filter (fun c => c.volume = v)
  let s1 := s.each cs (fun c t => journal (.delete c.num) t)
  endEvid r.uid 0 cs.length (journal (.volume v) (onSuper (fun b => { b with volumes := b.volumes.filter (fun x => x.num ≠ v) }) s1))

/-- The bytes of a clip. -/
def State.clipBytes (s : State) (c : Clip) : List Byte :=
  match s.nand.superblock with
  | none => []
  | some b => c.units.flatMap (fun u => ((s.unitAt u.1).elim [] (fun x => unitData b x.pages)).take u.2)

/-- The end of the last whole packet record of a clip's bytes, and its COUNT (R493); `fuel` bounds them. -/
def lastRecord : Nat → List Byte → Nat → Nat → Nat × Nat
  | 0, _, pos, count => (pos, count)
  | fuel + 1, bs, pos, count =>
    let n := 32 + 64 * ceilDiv (bytesAt bs pos 2) 64
    if bs.length < pos + 32 ∨ bs.length < pos + n then (pos, count)
    else lastRecord fuel bs (pos + n) (bytesAt bs (pos + 0x18) 8)

/-- An append begins; with CONTINUE an APPEND_PKT sets its clip back to its last whole record (R493). -/
def startAppend (r : EvidReq) (c : Clip) (s : State) : State :=
  if evOp r.desc = 2 then changeReq r.uid (fun q => { q with begun := true }) s
  else
    let now := s.rd64 R.intakeTimeNow
    let past := decide (s.evTo r.desc ≤ now)
    let s1 := if c.packets then s else journal (.packets c.num) s
    if evContinue r.desc then
      let bs := s1.clipBytes c
      let e := lastRecord (bs.length / 32 + 1) bs 0 0
      changeReq r.uid (fun q => { q with begun := true, head := true, lastCount := e.2, past := past })
        (if e.1 < c.length then journal (.cutBack c.num e.1) s1 else s1)
    else changeReq r.uid (fun q => { q with begun := true, past := past }) s1

/-- A request that may start does so: refused by a check, done, or under way. -/
def beginEvid (r : EvidReq) (s : State) : State :=
  match s.evidRefusal r with
  | some x => endEvid r.uid x.1 x.2 s
  | none =>
    match evOp r.desc, s.clip (evClip r.desc) with
    | 1, _ => doCreate r s
    | 7, _ =>
      endEvid r.uid 0 0 (journal (.volume (evVolume r.desc)) (onSuper (fun b => { b with
        volumes := b.volumes ++ [⟨evVolume r.desc, evLen r.desc, evPolicy r.desc⟩] }) s))
    | 8, _ => doVolumeDelete r s
    | 9, _ => startFormat r s
    | 0, some c => doQuery r c s
    | 4, some c => endEvid r.uid 0 c.length (journal (.sealClip c.num) s)
    | 5, some _ => changeReq r.uid (fun q => { q with begun := true }) s
    | 6, some c => endEvid r.uid 0 0 (journal (.delete c.num) s)
    | _, some c => startAppend r c s
    | _, none => s

/-- A request that has begun goes on. -/
def goEvid (r : EvidReq) (s : State) : State :=
  if r.busy ∨ s.isStalled (.evidence r.uid) then (if evOp r.desc = 3 ∧ r.busy then goAppendPkt r s else s)
  else match r.ending with
    | some w => endEvid r.uid w r.done s
    | none =>
      match evOp r.desc with
      | 2 => goAppendMem r s
      | 3 => goAppendPkt r s
      | 5 => goRead r s
      | _ => s

/-- A request may start: nothing before it that it waits for is held, and the store is not replaying. -/
def State.mayBegin (s : State) (r : EvidReq) : Bool :=
  s.get F.nandStatusState != 1 && !s.isStalled (.evidence r.uid) &&
    (s.evid.reqs.takeWhile (fun q => q.uid ≠ r.uid)).all (fun q => !s.evidWaits r.desc q.desc)

/-- One turn of a request. -/
def turnEvid (uid : Nat) (s : State) : State :=
  match s.evidReq uid with
  | none => s
  | some r =>
    if r.begun then goEvid r s
    else if s.mayBegin r then
      let s1 := beginEvid r s
      match s1.evidReq uid with
      | some q => if q.begun then goEvid q s1 else s1
      | none => s1
    else s

/-- Every held request takes its turn in order of arrival; one that ends lets the next on its clip begin. `fuel` bounds
the rounds. -/
def turnsEvid : Nat → State → State
  | 0, s => s
  | fuel + 1, s =>
    let s1 := s.each (s.evid.reqs.map (fun r => r.uid)) turnEvid
    if s1.evid.reqs.length = s.evid.reqs.length then s1 else turnsEvid fuel s1

/-- The Seedkeeper works on what it holds. -/
def workStore (s : State) : State :=
  if !s.isOpen 58 then s
  else
    let s1 := showStore s.storeShown (turnsEvid (s.evid.reqs.length + 1) s)
    if s1.isShut 68 then s1 else refreshChannel 1 15 s1

/-! Mounting (R501–R503) -/

/-- A FAILED store with its REASON. -/
def storeFailed (reason : Nat) (s : State) : State := s.puts [(F.nandStatusState, 5), (F.nandStatusReason, reason)]

/-- The units cut by a reset or a power loss are discarded (R502): programmed without a journal record. Their blocks
take no further program and are refreshed, and their clips are marked. -/
def dropCut (s : State) : State :=
  let cut := s.nand.units.filter (fun u => !u.logged)
  let s1 := s.each cut (fun u t =>
    let k := t.block u.loc.ce u.loc.blk
    let t1 := setBlock { k with mark := 1, shut := true } t
    { t1 with evid := { t1.evid with index := t1.evid.index.onClip (unitClip u.pages) (fun c => { c with cut := true }) } })
  { s1 with nand := { s1.nand with units := s1.nand.units.filter (fun u => u.logged) } }.put F.nandStatusCutFound (b2n !cut.isEmpty)

/-- Mount the store from its newer checkpoint, with the journal records after it where `replay` (R501–R503). -/
def mountStore (replay : Bool) (s0 : State) : State :=
  let s1 := s0.puts [(F.nandStatusState, 0), (F.nandStatusRoReason, 0), (F.nandStatusReason, 0)]
  let s := { s1 with evid := { s1.evid with cfg := s1.evidCfg } }
  match s.evidCfg with
  | none => s
  | some c =>
    let fallback := s.plan.active.evidence.isNone
    let mask := if fallback then (maskList 4 15).filter (fun k => (s.chip k).elim false (fun x => x.supported)) else maskList 4 c.ceMask
    match s.nand.superblock with
    | none => if !fallback ∧ (s.commonChip c.ceMask).isNone then storeFailed 4 s else s.put F.nandStatusState 4
    | some b =>
      if fallback ∧ !(maskList 4 b.ceMask).all mask.contains then s.put F.nandStatusState 4
      else if !fallback ∧ (s.commonChip c.ceMask).isNone then storeFailed 4 s
      else if !fallback ∧ b.ceMask ≠ c.ceMask then storeFailed 2 s
      else if !(maskList 4 b.ceMask).all (fun k => (s.chip k).elim false b.chip.alike) then storeFailed 3 s
      else match s.nand.newer with
        | none => storeFailed 1 s
        | some k =>
          let ix := if replay then s.nand.journal.foldl StoreIndex.apply k.2 else k.2
          let s1 := { s with evid := { s.evid with index := ix } }
          let st := mountedState c.mode b
          let s2 := (if replay then dropCut s1 else s1).puts [(F.nandStatusState, st.1), (F.nandStatusRoReason, st.2)]
          { s2 with boot := { s2.boot with nandClean := false } }

/-- The store is mounted, and what waited for it begins. -/
def mountAndWork (replay : Bool) (s : State) : State :=
  if !s.isOpen 58 then s
  else
    let s1 := showStore s.storeShown (mountStore replay s)
    workStore s1

/-- After a replan the store is mounted again where its configuration has changed. -/
def remountStore (s : State) : State := if s.evid.cfg = s.evidCfg then s else mountAndWork true s

/-- Island 58 opens after the start: the Seedkeeper takes lease 1, and the journal is to be replayed (R504). -/
def openSeedkeeper (s : State) : State :=
  if s.boot.starting ∨ s.evidCfg.isNone then s
  else
    let e := (1, 58, s.epoch 58)
    let s1 := if s.leaseHolder 1 = 0x7F ∧ !s.fw.forced.contains 1 then
        s.puts [(F.fenceLeaseHolder 1, 58), (F.fenceLeaseEpoch 1, s.epoch 58), (F.fenceLeaseAgeMs 1, 0)]
      else { s with fw := { s.fw with waiters := s.fw.waiters ++ [e] } }
    storeEvent (s1.put F.nandStatusState 1)

/-- Island 58 closes (R504): every held request completes with ISLAND_RESET and COUNT 0; units in program stay without
a journal record. -/
def closeSeedkeeper (s : State) : State :=
  let w := s.islandWord 0x11 58
  { s.each s.evid.reqs (fun r t => endEvid r.uid w 0 t) with evid := .reset }

/-- The stream channel of running APPEND_PKT requests ends with ISLAND_RESET of an island (R315, R459). -/
def endPktAppends (n : Nat) (s : State) : State :=
  let w := s.islandWord 0x11 n
  s.each (s.evid.reqs.filter (fun r => r.begun && evOp r.desc == 3)) (fun r t => endAtUnit r w t)

/-- A drain or a function reset meets a request: a stalled one ends with FAULT_ABORTED, one that appends or reads is cut
at its next unit with PARTIAL, a waiting one completes with COUNT 0 (R491). -/
def cutEvid (r : EvidReq) (s : State) : State :=
  if s.isStalled (.evidence r.uid) then endEvid r.uid (dw1 0x30 0 0) r.done s
  else if !r.begun then endEvid r.uid (dw1 2 0 0) 0 s
  else if evOp r.desc = 9 then s
  else endAtUnit r (dw1 2 0 r.info) s

/-- The Seedkeeper settles (R131 step 3): a running APPEND_PKT whose TO_NS has not passed is cut at its next unit. -/
def settleEvid (s : State) : State :=
  s.each (s.evid.reqs.filter (fun r => r.begun && evOp r.desc == 3 && !r.past)) (fun r t => cutEvid r t)

end Sys2Proof.Machine
end

