-- ==== Sys2Proof/Machine/Streams.lean ====
section
/-! DEFINITION. Stream slots: packet payloads, SRTP, the packet ring, access units and the hand-over to a decoder
(spec/18 R437–R445, R454, R457). -/
namespace Sys2Proof.Machine

/-! Slots -/

/-- IDLE, WAIT_RAP, DECODING, OVERSIZE, UNSUPPORTED, ERROR, STOPPING (Table 18.12). -/
def SLOT_IDLE : Nat := 0
def SLOT_WAIT_RAP : Nat := 1
def SLOT_DECODING : Nat := 2
def SLOT_OVERSIZE : Nat := 3
def SLOT_UNSUPPORTED : Nat := 4
def SLOT_ERROR : Nat := 5
def SLOT_STOPPING : Nat := 6

/-- The counters of a slot in the order of Table 18.11. -/
def C_BAD_PKT : Nat := 0
def C_BAD_PAYLOAD : Nat := 1
def C_AUTH_DROP : Nat := 2
def C_LATE : Nat := 3
def C_LOST : Nat := 4
def C_RESYNCS : Nat := 5
def C_CPB_OVF : Nat := 6
def C_OVERRATE : Nat := 7

/-- A slot. -/
def State.slot (s : State) (i : Nat) : StreamSlot := s.intake.slots.getD i .reset

/-- Replace a slot. -/
def setSlot (i : Nat) (x : StreamSlot) (s : State) : State :=
  { s with intake := { s.intake with slots := setAt i x s.intake.slots } }

/-- Change a slot. -/
def changeSlot (i : Nat) (f : StreamSlot → StreamSlot) (s : State) : State := setSlot i (f (s.slot i)) s

/-- The slot's entry of the INTAKE record. -/
def State.slotPlan (s : State) (i : Nat) : SlotCfg :=
  match s.plan.active.intake with
  | some k => k.slots.getD i ⟨false, 0, 0, false, 0, 0, 0, 0, false⟩
  | none => ⟨false, 0, 0, false, 0, 0, 0, 0, false⟩

/-- STATE of a slot. -/
def State.slotState (s : State) (i : Nat) : Nat := s.get (F.intakeSlotStateState i)

/-- A slot runs: it matches packets and takes access units (R437, R456). -/
def State.slotRuns (s : State) (i : Nat) : Bool := 1 ≤ s.slotState i && s.slotState i ≤ 5

/-- Count in a slot's counter. -/
def countSlot (i c n : Nat) (s : State) : State := s.bump32 (R.intakeSlotCount i c) n

/-- A bit sets in INTAKE_EVENT_SLOTS; a 0-to-1 change is event STREAM (R454). -/
def slotEvent (i : Nat) (s : State) : State :=
  let m := s.rd64 R.intakeEventSlots
  if bit m i then s else setEvent 13 (s.wr64 R.intakeEventSlots (m + 2 ^ i))

/-- The memory request of an island of the stream path (R262). -/
def State.streamReq (s : State) (island : Nat) : Req := ⟨island, s.plan.active.qos.islands.getD island 1, 0, false⟩

/-- The allotment of a slot. -/
def State.slotAllot (s : State) (i : Nat) : Nat := s.get (F.intakeAllotAllot i)

/-- A slot ends in ERROR and discards everything until RUN 0 (R454). -/
def slotError (i status detail : Nat) (s : State) : State :=
  let s1 := s.puts [(F.intakeSlotStateState i, SLOT_ERROR), (F.intakeSlotStateErrorStatus i, status),
    (F.intakeSlotStateDetail i, detail)]
  slotEvent i (changeSlot i (fun x => { x with held := [], asm := none, cpb := [] }) s1)

/-- The fault record of a slot (Table 11.4). -/
def slotFault (i source allot cls reason level va : Nat) (a : Access) (fatal : Bool) : FaultRec :=
  { stream := .slot i, va := va, tag := 0, reason := reason, access := a, allot := allot, fatal := fatal, cls := cls,
    level := level, source := source, unit := i, sq := 0xFF, timeUs := 0 }

/-- A failed access of a slot's engine: a fault is recorded as fatal; the slot ends (R454, Table 18.10). -/
def slotFails (i source detail : Nat) (a : Access) (e : VaErr) (s : State) : State :=
  match e with
  | .fault reason level va =>
    slotError i 0x32 detail
      (reportFault 0 (slotFault i source (s.slotAllot i) (s.streamReq source).cls reason level va a true) s).2
  | .err x => slotError i x.status detail s

/-! Payloads (Table 18.4) -/

/-- An Annex B start code (log entry 36). -/
def startCode : List Byte := [0, 0, 0, 1]

/-- The NAL units of an aggregation packet: 16-bit sizes, each with its unit; `fuel` bounds them. -/
def aggregated : Nat → List Byte → List Byte
  | 0, _ => []
  | fuel + 1, bs =>
    if bs.length < 3 then []
    else
      let n := beNat (bs.take 2)
      startCode ++ (bs.drop 2).take n ++ aggregated fuel (bs.drop (2 + n))

/-- The bytes that an H.264 payload adds to its access unit; none where Table 18.4 drops it. -/
def h264Bytes (p : List Byte) : Option (List Byte) :=
  let h := (p.getD 0 0).toNat
  let t := h % 32
  if p.isEmpty then none
  else if 1 ≤ t ∧ t ≤ 23 then some (startCode ++ p)
  else if t = 24 then some (aggregated p.length (p.drop 1))
  else if t = 28 then
    let fu := (p.getD 1 0).toNat
    some (if 128 ≤ fu then startCode ++ [BitVec.ofNat 8 (h / 32 * 32 + fu % 32)] ++ p.drop 2 else p.drop 2)
  else none

/-- The bytes that an H.265 payload adds to its access unit. -/
def h265Bytes (p : List Byte) : Option (List Byte) :=
  let h := (p.getD 0 0).toNat
  let t := h / 2 % 64
  if p.length < 2 then none
  else if t ≤ 47 then some (startCode ++ p)
  else if t = 48 then some (aggregated p.length (p.drop 2))
  else if t = 49 then
    let fu := (p.getD 2 0).toNat
    some (if 128 ≤ fu then startCode ++ [BitVec.ofNat 8 (h / 128 * 128 + fu % 64 * 2 + h % 2), p.getD 1 0] ++ p.drop 3
      else p.drop 3)
  else none

/-- The bytes of a payload for a codec; JPEG comes through a feed alone (Table 18.7). -/
def codecBytes (codec : Nat) (p : List Byte) : Option (List Byte) :=
  if codec = 0 then h265Bytes p else if codec = 1 then h264Bytes p else none

/-- The NAL units of an Annex B byte stream: `zeros` zero bytes precede, `cur` is the unit under way. -/
def nalUnits : List Byte → Nat → Option (List Byte) → List (List Byte)
  | [], _, cur => cur.elim [] (fun c => [c.reverse])
  | b :: bs, zeros, cur =>
    if b = 1 ∧ 2 ≤ zeros then cur.elim [] (fun c => [c.reverse]) ++ nalUnits bs 0 (some [])
    else nalUnits bs (if b = 0 then zeros + 1 else 0) (cur.map (fun c => b :: c))

/-- An SEI NAL unit's body has a recovery point message whose recovery_frame_cnt is 0. -/
def recoveryZero : Nat → List Byte → Bool
  | 0, _ => false
  | fuel + 1, bs =>
    if bs.length < 3 then false
    else
      let t := (bs.getD 0 0).toNat
      let n := (bs.getD 1 0).toNat
      (t == 6 && 128 ≤ (bs.getD 2 0).toNat) || recoveryZero fuel (bs.drop (2 + n))

/-- A random-access access unit (R442). -/
def isRap (codec : Nat) (bytes : List Byte) : Bool :=
  if codec = 2 then true
  else (nalUnits bytes 0 none).any (fun u =>
    let h := (u.getD 0 0).toNat
    if codec = 0 then 16 ≤ h / 2 % 64 && h / 2 % 64 ≤ 21
    else h % 32 == 5 || (h % 32 == 6 && recoveryZero u.length (u.drop 1)))

/-! SRTP (R440, RFC 3711) -/

/-- `n` bytes of an AES-CM key stream. -/
def cmStream (key : List Byte) (iv n : Nat) : List Byte :=
  ((List.range (ceilDiv n 16)).flatMap (fun j => aesEnc key (beBytes 16 ((iv + j) % 2 ^ 128)))).take n

/-- A session key of a label with key derivation rate 0. -/
def srtpKey (c : SrtpCtx) (label n : Nat) : List Byte :=
  cmStream c.key (Nat.xor (beNat c.salt) (label * 2 ^ 48) * 2 ^ 16) n

/-- The IV of a packet. -/
def srtpIv (salt ssrc index : Nat) : Nat := Nat.xor (Nat.xor (salt * 2 ^ 16) (ssrc * 2 ^ 64)) (index * 2 ^ 16)

/-- The ROC that a packet's sequence number implies. -/
def SrtpCtx.guess (c : SrtpCtx) (seq : Nat) : Nat :=
  match c.top with
  | none => c.roc
  | some t =>
    if t < 32768 then (if seq > t + 32768 then (c.roc + 2 ^ 32 - 1) % 2 ^ 32 else c.roc)
    else if seq + 32768 < t then (c.roc + 1) % 2 ^ 32
    else c.roc

/-- The replay window admits an index. -/
def SrtpCtx.admits (c : SrtpCtx) (index : Nat) : Bool :=
  match c.top with
  | none => true
  | some t =>
    let top := c.roc * 65536 + t
    top < index || (top < index + 64 && !bit c.window (top - index))

/-- The context after a packet of an index has been authenticated. -/
def SrtpCtx.accept (c : SrtpCtx) (index : Nat) : SrtpCtx :=
  let seen : SrtpCtx := { c with roc := index / 65536, top := some (index % 65536), window := 1 }
  match c.top with
  | none => seen
  | some t =>
    let top := c.roc * 65536 + t
    if top < index then { seen with window := (c.window * 2 ^ (index - top) + 1) % 2 ^ 64 }
    else { c with window := if bit c.window (top - index) then c.window else c.window + 2 ^ (top - index) }

/-- The length of an RTP header with its CSRC entries and extension. -/
def rtpHeader (p : List Byte) : Nat :=
  let b := (p.getD 0 0).toNat
  let n := 12 + 4 * (b % 16)
  if bit b 4 then n + 4 + 4 * beNat ((p.drop (n + 2)).take 2) else n

/-- Authenticate and decrypt an SRTP packet; none where it is dropped (R440). -/
def srtpOpen (c : SrtpCtx) (p : List Byte) : Option (List Byte × SrtpCtx) :=
  let m := p.take (p.length - 10)
  let seq := beNat ((p.drop 2).take 2)
  let roc := c.guess seq
  let index := roc * 65536 + seq
  let tag := (hmacSha1 (srtpKey c 1 20) (m ++ beBytes 4 roc)).take 10
  let h := rtpHeader m
  if p.length < 22 ∨ m.length < h ∨ !c.admits index ∨ tag ≠ p.drop (p.length - 10) then none
  else
    let iv := srtpIv (beNat (srtpKey c 2 14)) (beNat ((p.drop 8).take 4)) index
    some (m.take h ++ xorBytes (m.drop h) (cmStream (srtpKey c 0 16) iv (m.length - h)), c.accept index)

/-- The replay window admits an SRTCP index. -/
def SrtpCtx.admitsC (c : SrtpCtx) (index : Nat) : Bool :=
  match c.ctop with
  | none => true
  | some t => t < index || (t < index + 64 && !bit c.cwindow (t - index))

/-- The context after an SRTCP packet of an index has been authenticated. -/
def SrtpCtx.acceptC (c : SrtpCtx) (index : Nat) : SrtpCtx :=
  match c.ctop with
  | none => { c with ctop := some index, cwindow := 1 }
  | some t =>
    if t < index then { c with ctop := some index, cwindow := (c.cwindow * 2 ^ (index - t) + 1) % 2 ^ 64 }
    else { c with cwindow := if bit c.cwindow (t - index) then c.cwindow else c.cwindow + 2 ^ (t - index) }

/-- Authenticate and decrypt an SRTCP packet; none where it is dropped. -/
def srtcpOpen (c : SrtpCtx) (p : List Byte) : Option (List Byte × SrtpCtx) :=
  let m := p.take (p.length - 10)
  let word := beNat (m.drop (m.length - 4))
  let body := m.take (m.length - 4)
  if p.length < 22 ∨ !c.admitsC (word % 2 ^ 31) ∨ (hmacSha1 (srtpKey c 4 20) m).take 10 ≠ p.drop (p.length - 10) then none
  else if word < 2 ^ 31 then some (body, c.acceptC (word % 2 ^ 31))
  else
    let iv := srtpIv (beNat (srtpKey c 5 14)) (beNat ((p.drop 4).take 4)) (word % 2 ^ 31)
    some (body.take 8 ++ xorBytes (body.drop 8) (cmStream (srtpKey c 3 16) iv (body.length - 8)), c.acceptC (word % 2 ^ 31))

/-! The packet ring (R445) -/

/-- The header word of a record: LEN, SLOT, FLAGS (PAD 0, MARKER 1, LOSS_BEFORE 2, RAP 3 of FLAGS). -/
def recordWord (len slot flags : Nat) : Nat := len % 2 ^ 16 + 2 ^ 16 * slot + 2 ^ 24 * flags

/-- The bytes of a record (Table 18.6). -/
def recordBytes (word count : Nat) (p : RtpPkt) : List Byte :=
  leBytes 4 word ++ leBytes 2 p.seq ++ leBytes 2 0 ++ leBytes 4 p.ts ++ leBytes 4 p.ssrc ++ leBytes 8 p.ns ++
    leBytes 8 count ++ p.pay ++ List.replicate (64 * ceilDiv p.pay.length 64 - p.pay.length) 0

/-- Write bytes to the packet ring at an offset. -/
def ringBytes (off : Nat) (bs : List Byte) (s : State) : State :=
  (physWrite (s.streamReq 62) (s.pktBase + off) bs s).2

/-- A record with PAD set fills the tail of the ring; what it holds beside its word and COUNT is free. -/
def padRing (off : Nat) (s : State) : State :=
  let n := s.pktBytes - off
  let c := (s.get F.intakePktHeadCount + 1) % 2 ^ 32
  let d := s.draw
  let free : RtpPkt := ⟨slice d.1 0 16, slice d.1 16 32, slice d.1 48 32, false, [], slice d.1 80 64, false⟩
  let w := recordWord (n - 32) (slice d.1 144 6) 1
  (ringBytes off (recordBytes w c free) d.2).puts [(F.intakePktHeadOffset, 0), (F.intakePktHeadCount, c)]

/-- Records that lie in bytes of the ring are overwritten; one still due to an APPEND_PKT leaves a GAP (R493). -/
def overwrite (off n : Nat) (s : State) : State :=
  let hit := fun (r : RingRec) => decide (r.off < off + n ∧ off < r.off + r.size)
  let lost := s.intake.ring.filter hit
  let due := fun (q : EvidReq) => q.begun && q.head && evOp q.desc == 3 &&
    lost.any (fun r => r.slot == evSlot q.desc && decide (q.lastCount < r.count ∧ r.ns < s.evTo q.desc))
  { s with
    intake := { s.intake with ring := s.intake.ring.filter (fun r => !hit r) },
    evid := { s.evid with reqs := s.evid.reqs.map (fun q => if due q then { q with gap := true } else q) } }

/-- The ring holds a record in place of those that its bytes overwrite. -/
def keepRecord (r : RingRec) (s : State) : State :=
  let s1 := overwrite r.off r.size s
  { s1 with intake := { s1.intake with ring := s1.intake.ring ++ [r] } }

/-- Write the record of a released packet: its PA, COUNT and word. -/
def writeRecord (i : Nat) (p : RtpPkt) (loss : Bool) (s : State) : Option (Nat × Nat × Nat) × State :=
  if s.pktBytes = 0 then (none, s)
  else
    let n := 32 + 64 * ceilDiv p.pay.length 64
    let h := s.get F.intakePktHeadOffset
    let s1 := if s.pktBytes < h + n then padRing h (overwrite h (s.pktBytes - h) s) else s
    let off := s1.get F.intakePktHeadOffset
    let c := (s1.get F.intakePktHeadCount + 1) % 2 ^ 32
    let w := recordWord p.pay.length i (2 * b2n p.marker + 4 * b2n loss)
    let s2 := keepRecord ⟨c, i, off, n, p.ns⟩ (ringBytes off (recordBytes w c p) s1)
    (some (s.pktBase + off, c, w),
      s2.puts [(F.intakePktHeadOffset, (off + n) % s.pktBytes), (F.intakePktHeadCount, c)])

/-- RAP in the record of the first packet of a random-access unit, while the ring still holds that record. -/
def markRap (first : Option (Nat × Nat × Nat)) (s : State) : State :=
  match first with
  | none => s
  | some (pa, c, w) =>
    let r := physRead (s.streamReq 62) (pa + 0x18) 8 s
    match r.1 with
    | .ok bs => if leNat bs = c then ringBytes (pa - s.pktBase) (leBytes 4 (w + 2 ^ 27)) r.2 else r.2
    | .error _ => r.2

/-! Decoders -/

/-- The AU in decode of an engine. -/
def State.decoding (s : State) (e : Nat) : Option (Nat × AccessUnit) := s.intake.engines.getD e none

/-- Set what an engine decodes. -/
def setEngine (e : Nat) (x : Option (Nat × AccessUnit)) (s : State) : State :=
  { s with intake := { s.intake with engines := setAt e x s.intake.engines } }

/-- The slot whose access unit an engine takes next: the one completed first, the lower slot on a tie (R449). -/
def State.nextSlot (s : State) (e : Nat) : Option Nat :=
  let c := (List.range 64).filter (fun i => s.slotRuns i && (s.slotPlan i).decoder == e && !(s.slot i).cpb.isEmpty)
  let at_ := fun i => ((s.slot i).cpb.head?).elim 0 (fun a => a.doneUs)
  c.find? (fun i => c.all (fun j => at_ i < at_ j || (at_ i == at_ j && i ≤ j)))

/-- An idle engine takes the next access unit; none while Gardener 1 or the engine is not OPEN or Gardener 1 waits for
a power state (R457, R131). -/
def feedDecoder (e : Nat) (s : State) : State :=
  if (s.decoding e).isSome ∨ !s.isOpen 57 ∨ !s.isOpen (63 + e) ∨ s.get F.pwrModeG1Wait = 1 then s
  else match s.nextSlot e with
    | none => s
    | some i =>
      match (s.slot i).cpb with
      | a :: rest => setEngine e (some (i, a)) (changeSlot i (fun x => { x with cpb := rest }) s)
      | [] => s

/-- Both engines look for work. -/
def feedDecoders (s : State) : State := feedDecoder 1 (feedDecoder 0 s)

/-! Access units (R442) -/

/-- The part of the CPB that holds access units, in bytes. -/
def State.cpbRoom (s : State) (i : Nat) : Nat := (s.rd (R.intakeCpbKib i)).toNat * 1024 - 65536

/-- Put an access unit in the CPB; its place there is the model's (log entry 36). -/
def storeAu (i : Nat) (a : AccessUnit) (s : State) : State :=
  let x := s.slot i
  let pos := if x.cpbPos + a.bytes.length ≤ s.cpbRoom i then x.cpbPos else 0
  let w := vaWrite (s.streamReq 62) 0 (s.slotAllot i) (s.rd64 (R.intakeCpbVa i) + 65536 + pos) a.bytes true s
  match w.1 with
  | some e => slotFails i 62 0xD0 .write e w.2
  | none => feedDecoders (changeSlot i (fun y => { y with cpb := y.cpb ++ [a], cpbPos := pos + a.bytes.length }) w.2)

/-- Count a completed access unit against the slot's rate (R448). -/
def countRate (i : Nat) (s : State) : State :=
  let fps := (s.slotPlan i).fps
  let now := s.timeUs
  let l := now :: (s.slot i).rate.filter (fun t => now < t + 1000000)
  (changeSlot i (fun x => { x with rate := l }) s).when (fps + ceilDiv fps 8 < l.length) (countSlot i C_OVERRATE 1)

/-- An access unit ends: discarded, or given to the decoder, by its slot's state and LOSS (R442, R448). -/
def endAu (i ts ns : Nat) (locked incomplete : Bool) (bytes0 : List Byte) (s0 : State) : State :=
  let x := s0.slot i
  let codec := (s0.slotPlan i).codec
  let bytes := x.params ++ bytes0
  let rap := isRap codec bytes
  let room := s0.cpbRoom i
  let used := x.cpb.foldl (fun n a => n + a.bytes.length) 0
  let excess := room < 2 * bytes.length || room < used + bytes.length
  let bad := incomplete || excess
  let s1 := (changeSlot i (fun y => { y with params := [] }) s0).when excess (countSlot i C_CPB_OVF 1)
  let s := s1.when (!bad) (countRate i)
  let st := s.slotState i
  let conceal := s.get (F.intakeSlotCfgLoss i) = 1
  if st < 1 ∨ 4 < st then s
  else if bad ∧ !conceal then
    if st = SLOT_DECODING then s.put (F.intakeSlotStateState i) SLOT_WAIT_RAP else s
  else if st ≠ SLOT_DECODING ∧ !rap then s
  else
    let flagged := if rap && !bad then false else x.conceal || bad
    let s2 := changeSlot i (fun y => { y with conceal := flagged }) s
    if excess then s2
    else
      let s3 := if st = SLOT_WAIT_RAP then s2.put (F.intakeSlotStateState i) SLOT_DECODING else s2
      storeAu i ⟨ts, ns, locked, rap, flagged, bytes, s3.timeUs⟩ s3

/-- End the access unit in assembly. -/
def closeAsm (i : Nat) (s : State) : State :=
  match (s.slot i).asm with
  | none => s
  | some a =>
    let s1 := changeSlot i (fun x => { x with asm := none }) s
    let s2 := if isRap (s.slotPlan i).codec ((s.slot i).params ++ a.bytes) then markRap a.first s1 else s1
    endAu i a.ts a.ns a.locked a.incomplete a.bytes s2

/-- A released packet joins its access unit (R442). -/
def assemble (i : Nat) (p : RtpPkt) (loss : Bool) (first : Option (Nat × Nat × Nat)) (s : State) : State :=
  let add := (codecBytes (s.slotPlan i).codec p.pay).getD []
  let other := (s.slot i).asm.elim false (fun a => a.ts ≠ p.ts)
  let s1 := if other then
      closeAsm i (changeSlot i (fun x => { x with asm := x.asm.map (fun a => { a with incomplete := a.incomplete || loss }) }) s)
    else s
  let a := match (s1.slot i).asm with
    | some a => { a with bytes := a.bytes ++ add, incomplete := a.incomplete || loss }
    | none => ⟨p.ts, p.ns, p.locked, loss, add, first⟩
  let s2 := if s1.slotRuns i && s1.slotState i != SLOT_ERROR then changeSlot i (fun x => { x with asm := some a }) s1 else s1
  if p.marker then closeAsm i s2 else s2

/-- Release a packet: to the packet ring, and into its access unit (R441, R442, R445). -/
def releasePkt (i : Nat) (p : RtpPkt) (s : State) : State :=
  let loss := (s.slot i).lossNext
  let r := writeRecord i p loss (changeSlot i (fun x => { x with lossNext := false }) s)
  assemble i p loss r.1 r.2

/-- Release the held packets that follow the next expected number without a gap; `fuel` bounds them. -/
def releaseRun (i : Nat) : Nat → State → State
  | 0, s => s
  | fuel + 1, s =>
    let x := s.slot i
    match x.next, x.held with
    | some n, p :: rest =>
      if p.seq = n then
        releaseRun i fuel (releasePkt i p
          (setSlot i { x with next := some ((n + 1) % 65536), held := rest } s))
      else s
    | _, _ => s

/-- Declare the next expected numbers lost, `k` of them, releasing held ones that lie among them. -/
def loseNumbers (i : Nat) : Nat → State → State
  | 0, s => s
  | k + 1, s =>
    let x := s.slot i
    match x.next with
    | none => s
    | some n =>
      match x.held with
      | p :: rest =>
        if p.seq = n then
          loseNumbers i k (releasePkt i p (setSlot i { x with next := some ((n + 1) % 65536), held := rest } s))
        else
          loseNumbers i k (countSlot i C_LOST 1 (setSlot i { x with next := some ((n + 1) % 65536), lossNext := true } s))
      | [] => loseNumbers i k (countSlot i C_LOST 1 (setSlot i { x with next := some ((n + 1) % 65536), lossNext := true } s))

/-- Insert a packet among the held ones, by its distance from the next expected number. -/
def holdPkt (n : Nat) (p : RtpPkt) : List RtpPkt → List RtpPkt
  | [] => [p]
  | q :: r =>
    let d := (p.seq + 65536 - n) % 65536
    let e := (q.seq + 65536 - n) % 65536
    if d < e then p :: q :: r else q :: holdPkt n p r

/-- An accepted packet is put in order (R441). -/
def reorder (i : Nat) (p : RtpPkt) (s : State) : State :=
  let x := s.slot i
  let n := x.next.getD p.seq
  let d := (p.seq + 65536 - n) % 65536
  let most := s.plan.active.intake.elim 32 (fun k => k.reorder)
  let nx := (p.seq + 1) % 65536
  if d = 0 then
    releaseRun i x.held.length (releasePkt i p (setSlot i { x with next := some nx } s))
  else if d ≤ 3000 then
    if x.held.any (fun q => q.seq = p.seq) then countSlot i C_LATE 1 s
    else
      let s1 := setSlot i { x with next := some n, held := holdPkt n p x.held } s
      if most ≤ d then
        let s2 := loseNumbers i (d - most + 1) s1
        releaseRun i (s2.slot i).held.length s2
      else s1
  else if d < 62536 then
    let s1 := s.each x.held (fun q t => releasePkt i q t)
    let s2 := changeSlot i (fun y => { y with next := some nx, held := [] }) s1
    let s3 := releasePkt i p s2
    let s4 := countSlot i C_RESYNCS 1 s3
    if 1 ≤ s4.slotState i ∧ s4.slotState i ≤ 4 then s4.put (F.intakeSlotStateState i) SLOT_WAIT_RAP else s4
  else countSlot i C_LATE 1 s

/-! Feed rings (R444) -/

/-- FEED_HEAD advances past an entry. -/
def advanceFeed (i : Nat) (s : State) : State :=
  s.put (F.intakeFeedHeadHead i) ((s.get (F.intakeFeedHeadHead i) + 1) % 2 ^ s.get (F.intakeFeedSizeSizeLog2 i))

/-- A feed entry is skipped, and its access unit counts as incomplete (R444). -/
def skipFeed (i : Nat) (s : State) : State := endAu i 0 0 false true [] (advanceFeed i s)

/-! Closes and openings -/

/-- Every running slot that a test picks enters WAIT_RAP, its CPB emptied. -/
def restartSlots (p : Nat → Bool) (s : State) : State :=
  s.each (List.range 64) (fun i t =>
    if p i && 1 ≤ t.slotState i && t.slotState i ≤ 4 then
      changeSlot i (fun x => { x with cpb := [], cpbPos := 0 }) (t.put (F.intakeSlotStateState i) SLOT_WAIT_RAP)
    else t)

/-- Gardener 1 closes (R435, R457): time enters HOLDOVER, unless it runs from the crystal. -/
def closeGardener1 (s : State) : State :=
  if s.isShut 61 ∨ s.plan.active.intake.elim true (fun k => k.timeSrc == 2) then s
  else s.put F.intakeTimeStatusState 3

/-- Gardener 1 is reloaded (R457): the running slots wait for a random-access unit; a master that has been heard is
acquired again. -/
def openGardener1 (s : State) : State :=
  let s1 := restartSlots (fun _ => true) s
  if s1.isShut 61 ∨ s1.plan.active.intake.elim true (fun k => k.timeSrc == 2) then s1
  else s1.put F.intakeTimeStatusState (b2n s1.switch.heard)

/-- A decoder island closes: its access unit is lost (R458). -/
def closeDecoder (e : Nat) (s : State) : State := setEngine e none s

/-- A decoder island opens: its running slots wait for a random-access unit (R458). -/
def openDecoder (e : Nat) (s : State) : State :=
  feedDecoder e (restartSlots (fun i => (s.slotPlan i).decoder == e) s)

/-- The intake island closes (R459): slots, keys and groups are lost. -/
def closeIntake (s : State) : State := { s with intake := .reset }

/-- The intake island opens: the packet ring restarts at offset 0 (R459). -/
def openIntake (s : State) : State := s.wr64 R.intakePktHead 0

/-- The switch island opens: with TIME_SRC 2 device time starts from the RTC (R434). -/
def openSwitch (s : State) : State :=
  if s.plan.active.intake.elim false (fun k => k.timeSrc == 2) then
    s.wr64 R.intakeTimeNow ((s.timeUs / 1000000 + s.get F.intakeTimeCfgUtcOffset) * 1000000000)
  else s

end Sys2Proof.Machine
end

