-- ==== Sys2Proof/Machine/Place.lean ====
section
/-! DEFINITION. Placement groups: staged frames and their slabs on a stream hose channel (spec/18 R453). -/
namespace Sys2Proof.Machine

/-- A group. -/
def State.group (s : State) (g : Nat) : PlaceGroup := s.intake.groups.getD g ⟨[], 0⟩

/-- Replace a group. -/
def setGroup (g : Nat) (x : PlaceGroup) (s : State) : State :=
  { s with intake := { s.intake with groups := setAt g x s.intake.groups } }

/-- The group that runs on a channel of a hose: 12 + (g mod 4) of hose g div 4. -/
def groupOf (e c : Nat) : Nat := 4 * e + (c - 12)

/-- The hose and the channel of a group. -/
def groupEngine (g : Nat) : Nat := g / 4
def groupChannel (g : Nat) : Nat := 12 + g % 4

/-- A bit sets in INTAKE_EVENT_GROUPS as a group enters ERROR (R454). -/
def groupError (g : Nat) (s : State) : State :=
  let s1 := setGroup g { s.group g with staged := [] } (s.put (F.decodeGroupCfgState g) 2)
  let m := s1.get F.intakeEventGroupsMask
  if bit m g then s1 else setEvent 13 (s1.put F.intakeEventGroupsMask (m + 2 ^ g))

/-- Planes of an output format, and the bytes of an element (Table 18.8). -/
def formatPlanes (f : Nat) : Nat := if f ≤ 1 then 2 else if f ≤ 4 then 3 else 1
def formatBytes (f : Nat) : Nat := if f = 1 ∨ f = 4 then 2 else 1

/-- Rows of plane p of an output of height h: chroma of NV12 and P010 at half height. -/
def planeRows (f h p : Nat) : Nat := if f ≤ 1 ∧ p = 1 then h / 2 else h

/-- The bytes of a frame of a group, its planes one after another. -/
def State.groupFrameBytes (s : State) (g : Nat) : Nat :=
  let f := s.get (F.decodeGroupCfgFormat g)
  formatPlanes f * s.get (F.decodeGroupSizeOutW g) * formatBytes f * s.get (F.decodeGroupSizeOutH g)

/-- A group's accesses are PF0's, in its allotment, by its hose channel (R262). -/
def State.groupReq (s : State) (g : Nat) : Req :=
  ⟨67 + groupEngine g, s.hoseClass (groupEngine g) (groupChannel g), 0, false⟩

/-- The fault record of a group's transfer. -/
def groupFault (g cls allot reason level va : Nat) (a : Access) : FaultRec :=
  { stream := .group g, va := va, tag := 0, reason := reason, access := a, allot := allot, fatal := true, cls := cls,
    level := level, source := 67 + groupEngine g, unit := groupChannel g, sq := 0xFF, timeUs := 0 }

/-- A failed access of a group: a fault is fatal; the group enters ERROR (R453, R313). -/
def groupFails (g : Nat) (a : Access) (e : VaErr) (s : State) : State :=
  match e with
  | .fault reason level va =>
    groupError g (reportFault 0 (groupFault g (s.groupReq g).cls (s.get (F.decodeGroupCfgAllot g)) reason level va a) s).2
  | .err _ => groupError g s

/-- The slab that a group writes next may be written: a frame is staged, and the slab is less than the releases plus
RING_SLABS; with Gardener 1 closed only a frame already begun goes on (R453, R457). -/
def State.groupReady (s : State) (g : Nat) : Bool :=
  match (s.group g).staged with
  | [] => false
  | f :: _ =>
    s.get (F.decodeGroupCfgEn g) == 1 && s.get (F.decodeGroupCfgState g) == 1 && s.isOpen (67 + groupEngine g) &&
      (s.isOpen 57 || f.band ≠ 0) &&
      f.first + f.band < (s.rd (R.hoseRelease (groupEngine g) (groupChannel g))).toNat + s.get (F.decodeGroupRingSlabsCount g)

/-- Copy one row of the slab from the staging frame to the destination. -/
def placeRow (g buf : Nat) (k : Nat × Nat) (p r : Nat) (s : State) : Option (Access × VaErr) × State :=
  let f := s.get (F.decodeGroupCfgFormat g)
  let w := s.get (F.decodeGroupSizeOutW g) * formatBytes f
  let h := s.get (F.decodeGroupSizeOutH g)
  let n := h / s.get (F.decodeGroupCfgBands g)
  let a := s.get (F.decodeGroupCfgAllot g)
  let band := k.2
  let src := s.rd64 (R.decodeGroupStageVa g) + buf * s.groupFrameBytes g + (p * h + band * n + r) * w
  let dst := s.rd64 (R.decodeGroupDstVa g) +
    k.1 % s.get (F.decodeGroupRingSlabsCount g) * (s.rd (R.decodeGroupSlabStride g)).toNat +
    p * (s.rd (R.decodeGroupPlaneStride g)).toNat + r * (s.rd (R.decodeGroupRowStride g)).toNat
  let x := vaRead (s.groupReq g) 0 a src w .read true s
  match x.1 with
  | .error e => (some (.read, e), x.2)
  | .ok bs =>
    let y := vaWrite (s.groupReq g) 0 a dst bs true x.2
    (y.1.map (fun e => (.write, e)), y.2)

/-- Copy rows until one fails. -/
def placeRows (g buf : Nat) (k : Nat × Nat) : List (Nat × Nat) → State → Option (Access × VaErr) × State
  | [], s => (none, s)
  | pr :: rest, s =>
    let r := placeRow g buf k pr.1 pr.2 s
    match r.1 with
    | some e => (some e, r.2)
    | none => placeRows g buf k rest r.2

/-- A descriptor that carries a group's CREDIT_MODE and CREDIT (Table 12.5). -/
def State.groupCredit (s : State) (g : Nat) : List Byte :=
  leBytes 4 (2 ^ 14 * s.get (F.decodeGroupCreditMode g)) ++ List.replicate 48 0 ++
    leBytes 6 (s.rd64 (R.decodeGroupCredit g) / 2 ^ 16) ++ List.replicate 6 0

/-- Write the group's next slab and credit it (R453): the numbering goes on across frames. -/
def placeSlab (g : Nat) (s : State) : State :=
  match (s.group g).staged with
  | [] => s
  | f :: rest =>
    let k := f.first + f.band
    let bands := s.get (F.decodeGroupCfgBands g)
    let n := s.get (F.decodeGroupSizeOutH g) / bands
    let rows := (List.range (formatPlanes (s.get (F.decodeGroupCfgFormat g)))).flatMap (fun p =>
      (List.range n).map (fun r => (p, r)))
    let c := placeRows g f.buf (k, f.band) rows s
    match c.1 with
    | some e => groupFails g e.1 e.2 c.2
    | none =>
      let t : Transfer := {
        engine := groupEngine g, channel := groupChannel g, uid := 0, fn := 0, allot := s.get (F.decodeGroupCfgAllot g),
        cls := 0, desc := s.groupCredit g, slab := k, elem := 0, startReleased := 0, begun := true, stopping := false }
      let r := giveCredit t c.2
      match r.1 with
      | .fault reason level va a => groupFails g a (.fault reason level va) r.2
      | .err x => groupFails g .write (.err x) r.2
      | .done =>
        let s1 := (r.2.wr (R.decodeGroupSlabs g) (BitVec.ofNat 32 (k + 1))).wr
          (R.hoseCursor (groupEngine g) (groupChannel g)) (BitVec.ofNat 32 (k + 1))
        let s2 := setGroup g { s1.group g with
          staged := if f.band + 1 < bands then { f with band := f.band + 1 } :: rest else rest } s1
        refreshChannel (groupEngine g) (groupChannel g) s2

/-- Offer a frame to a group (R453): staged in a free buffer with its first slab, or refused and counted in SKIPS of
its slot while both buffers are held. Answers the first slab. -/
def offerFrame (g i e : Nat) (planes : List Byte) (s : State) : Option Nat × State :=
  let x := s.group g
  if s.get (F.decodeGroupCfgEn g) = 0 ∨ s.get (F.decodeGroupCfgState g) ≠ 1 then (none, s)
  else match (List.range 2).find? (fun b => x.staged.all (fun f => f.buf ≠ b)) with
    | none => (none, s.bump (F.decodeDroppedSkips i) 1)
    | some b =>
      let va := s.rd64 (R.decodeGroupStageVa g) + b * s.groupFrameBytes g
      let w := vaWrite (s.streamReq (63 + e)) 0 (s.get (F.decodeGroupCfgAllot g)) va planes true s
      match w.1 with
      | some err => (none, groupFails g .write err w.2)
      | none =>
        (some x.given, refreshChannel (groupEngine g) (groupChannel g)
          (setGroup g ⟨x.staged ++ [⟨b, x.given, 0⟩], x.given + s.get (F.decodeGroupCfgBands g)⟩ w.2))

/-- The transfers of a hose's groups end with it (R459, R315). -/
def closeGroups (e : Nat) (s : State) : State :=
  s.each ((List.range 8).filter (fun g => groupEngine g = e)) (fun g t =>
    if t.get (F.decodeGroupCfgEn g) = 1 ∧ !(t.group g).staged.isEmpty then groupError g t else t)

end Sys2Proof.Machine
end

