-- ==== Sys2Proof/Machine/Builtin.lean ====
section
/-! DEFINITION. What a built-in tile computes: operand reads, tiller and sieve entries in the order of R564, lane
operations, the finish of R375 and the output writes (spec/15 R373–R377, spec/16 R388–R392). -/
namespace Sys2Proof.Machine

/-! Pieces of packed memory -/

/-- `n` packed elements of `bits` bits from element `idx` of a row at `va` on. -/
structure Piece where
  va   : Nat
  idx  : Nat
  n    : Nat
  bits : Nat
  deriving DecidableEq, Repr

/-- The first byte, the element's place in it, and the byte count of a piece. -/
def Piece.lo (p : Piece) : Nat := p.va + p.idx * p.bits / 8
def Piece.sub (p : Piece) : Nat := if p.bits = 4 then p.idx % 2 else 0
def Piece.len (p : Piece) : Nat := ceilDiv ((p.sub + p.n) * p.bits) 8

/-- Who moves an order's operands: the request, the order, the channel. -/
structure Mover where
  q : Req
  o : Order
  ch : Nat × Nat
  deriving DecidableEq, Repr

/-- Why a tile does not get its operands: a fault or an error of an access, or a malformed sparse operand (R400). -/
inductive TileErr where
  | va (e : VaErr)
  | format
  deriving DecidableEq, Repr

/-- Read the elements of pieces, in order. -/
def readPieces (m : Mover) : List Piece → State → Except TileErr (List (List Nat)) × State
  | [], s => (.ok [], s)
  | p :: r, s =>
    let x := vaRead m.q m.o.fn m.o.allot p.lo p.len .read false s
    match x.1 with
    | .error e => (.error (.va e), x.2)
    | .ok bs =>
      let y := readPieces m r x.2
      (y.1.map (fun l => (List.range p.n).map (fun i => packedAt bs 0 p.bits (p.sub + i)) :: l), y.2)

/-- Pack elements behind the first bytes' old content. -/
def packOver (old : List Byte) (sub bits : Nat) (vs : List Nat) : List Byte :=
  if bits = 4 then
    (List.range old.length).map (fun i =>
      let o := (old.getD i 0).toNat
      let nib := fun (k : Nat) (cur : Nat) => if sub ≤ k ∧ k < sub + vs.length then vs.getD (k - sub) 0 % 16 else cur
      BitVec.ofNat 8 (nib (2 * i) (o % 16) + 16 * nib (2 * i + 1) (o / 16)))
  else vs.flatMap (fun v => leBytes (bits / 8) v)

/-- Write pieces, in order; a byte of which an INT4 piece holds one half keeps the other. -/
def writePieces (m : Mover) : List (Piece × List Nat) → State → Option VaErr × State
  | [], s => (none, s)
  | (p, vs) :: r, s =>
    let half := p.bits = 4 ∧ (p.sub ≠ 0 ∨ (p.sub + p.n) % 2 ≠ 0)
    let old : Except VaErr (List Byte) × State :=
      if half then vaRead m.q m.o.fn m.o.allot p.lo p.len .write false s else (.ok (List.replicate p.len 0), s)
    match old.1 with
    | .error e => (some e, old.2)
    | .ok bs =>
      let w := vaWrite m.q m.o.fn m.o.allot p.lo (packOver bs p.sub p.bits vs) false old.2
      match w.1 with
      | some e => (some e, w.2)
      | none => writePieces m r w.2

/-! Sparse operands in memory (R388) -/

/-- The blocks of a fibre from an address on. -/
def readBlocks (m : Mover) (bits : Nat) : Nat → Nat → Nat → State → Except TileErr (List (List (Nat × Nat))) × State
  | 0, _, _, s => (.ok [], s)
  | fuel + 1, va, k, s =>
    if k = 0 then (.ok [], s)
    else
      let h := vaRead m.q m.o.fn m.o.allot va 4 .read false s
      match h.1 with
      | .error e => (.error (.va e), h.2)
      | .ok hs =>
        let x := vaRead m.q m.o.fn m.o.allot va (4 * max 1 (bytesAt hs 2 2)) .read false h.2
        match x.1 with
        | .error e => (.error (.va e), x.2)
        | .ok bs =>
          match parseBlock bs (min k 256) bits with
          | none => (.error .format, x.2)
          | some b =>
            let y := readBlocks m bits fuel (va + b.2) (k - min k 256) x.2
            (y.1.map (fun l => b.1 :: l), y.2)

/-- Fibres lo … lo + n − 1 of a sparse operand. -/
def readFibres (m : Mover) (base bits k : Nat) : Nat → Nat → State → Except TileErr Fibres × State
  | 0, _, s => (.ok [], s)
  | n + 1, f, s =>
    let w := vaRead m.q m.o.fn m.o.allot (base + 4 * f) 4 .read false s
    match w.1 with
    | .error e => (.error (.va e), w.2)
    | .ok ws =>
      if leNat ws % 4 ≠ 0 then (.error .format, w.2)
      else
        let x := readBlocks m bits (k / 256 + 1) (base + leNat ws) k w.2
        match x.1 with
        | .error e => (.error e, x.2)
        | .ok b =>
          let y := readFibres m base bits k n (f + 1) x.2
          (y.1.map (fun l => b :: l), y.2)

/-- Dense rows as fibres. -/
def denseFibres (rows : List (List Nat)) : Fibres := rows.map (fun r => denseBlocks (r.length / 256 + 1) r)

/-- The columns of a list of rows. -/
def columns (n : Nat) (rows : List (List Nat)) : List (List Nat) :=
  (List.range n).map (fun j => rows.map (fun r => r.getD j 0))

/-! Operands of the tiller operations -/

/-- The padded input row of output row i of a CONV: pieces for the inside positions, and where they go. -/
def convRow (d : List Byte) (i : Nat) : List Piece :=
  let c := woSize d 3
  (woInputs d i).filterMap (fun x => x.2.map (fun p =>
    ⟨woVa d 0 + (p.1 * woSize d 1 + p.2.1) * woStride d 0, p.2.2 * c, c, elemBits (woTa d)⟩))

/-- Put the read positions of a CONV row between zeros for the padded ones (R373). -/
def fillRow (c : Nat) : List (Nat × Option (Nat × Nat × Nat)) → List (List Nat) → List Nat
  | [], _ => []
  | (_, none) :: r, vs => List.replicate c 0 ++ fillRow c r vs
  | (_, some _) :: r, vs => vs.headD [] ++ fillRow c r (vs.drop 1)

/-- A CONV's rows lo … of A. -/
def convRows (m : Mover) (d : List Byte) : Nat → Nat → State → Except TileErr (List (List Nat)) × State
  | 0, _, s => (.ok [], s)
  | n + 1, i, s =>
    let x := readPieces m (convRow d i) s
    match x.1 with
    | .error e => (.error e, x.2)
    | .ok vs =>
      let y := convRows m d n (i + 1) x.2
      (y.1.map (fun l => fillRow (woSize d 3) (woInputs d i) vs :: l), y.2)

/-- A of a tile's rows. -/
def readA (m : Mover) (d : List Byte) (r : Nat × Nat) (s : State) : Except TileErr Fibres × State :=
  let n := r.2 - r.1
  let bits := elemBits (woTa d)
  if woFmtA d ≠ 0 then readFibres m (woVa d 0) bits (woK d) n r.1 s
  else if woOp d = 2 then
    let x := convRows m d n r.1 s
    (x.1.map denseFibres, x.2)
  else
    let x := readPieces m ((List.range n).map (fun i => ⟨woVa d 0 + (r.1 + i) * woStride d 0, 0, woK d, bits⟩)) s
    (x.1.map denseFibres, x.2)

/-- B of a tile's columns: the columns of a K × N matrix for GEMM, rows of K values otherwise. -/
def readB (m : Mover) (d : List Byte) (c : Nat × Nat) (s : State) : Except TileErr Fibres × State :=
  let n := c.2 - c.1
  let bits := elemBits (woTb d)
  if woFmtB d ≠ 0 then readFibres m (woVa d 1) bits (woK d) n c.1 s
  else if woOp d = 1 then
    let x := readPieces m ((List.range (woK d)).map (fun k => ⟨woVa d 1 + k * woStride d 1, c.1, n, bits⟩)) s
    (x.1.map (fun rows => denseFibres (columns n rows)), x.2)
  else
    let x := readPieces m ((List.range n).map (fun j => ⟨woVa d 1 + (c.1 + j) * woStride d 1, 0, woK d, bits⟩)) s
    (x.1.map denseFibres, x.2)

/-! Results -/

/-- A numeric event of a tile: KIND, the instruction's CLASS, OP and TYPE, row, column, k, sign. -/
structure TileEvent where
  kind : Nat
  opcode : Nat
  row : Nat
  col : Nat
  k   : Nat
  sign : Nat
  deriving DecidableEq, Repr

/-- The results of a tile so far: generators, flags, the first guard exhaustion, the NaN trap, output elements by row
and column, products and probes of the sieve, clocks of the tiller. -/
structure TileOut where
  gens  : List Nat
  flags : Nat
  guard : Option TileEvent
  nan   : Option TileEvent
  out   : List (Nat × Nat × Nat)
  products : Nat
  clocks : Nat
  deriving DecidableEq, Repr

/-- Follow a result by an operation on its bits. -/
def FRes.then_ (a : FRes) (f : Nat → FRes) : FRes :=
  let b := f a.bits
  ⟨b.bits, Nat.lor a.flags b.flags, a.gen || b.gen, a.nanOp || b.nanOp⟩

/-- ACT (Table 15.2). -/
def activate (act b : Nat) : Nat :=
  let r := relu32 b
  if act = 0 then b
  else if act = 2 ∧ (fp32.decode 0x40C00000).lt (fp32.decode r) then 0x40C00000 else r

/-- RND of an order, 0 counting as RN. -/
def woRnd (d : List Byte) : Nat := if slice (woCtrl d) 8 2 = 0 then 1 else slice (woCtrl d) 8 2

/-- The finish of an FP32 value (R375): SCALE, with BIAS in one FMA, ACT, and the conversion, which alone draws. -/
def finishFp (d : List Byte) (bias : Option Nat) (draw : Nat) (a : FRes) : FRes :=
  let m := a.then_ (fun b => bias.elim (fp32.mul .rn b (woScale d)) (fun c => fp32.fma .rn b (woScale d) c))
  ({ m with bits := activate (woAct d) m.bits }).then_ (fun b => convert (modeOf (woRnd d) draw) 0 (woTo d) b)

/-- The finish of an accumulator (R375): INT32 output is saturated directly. -/
def finishAcc (d : List Byte) (int : Bool) (bias : Option Nat) (draw : Nat) (v : Int) : FRes :=
  if int && woTo d = 3 then satTo 3 v
  else finishFp d bias draw (if int then intToFp32 (quietMode (woRnd d)) v else .plain v.toNat 0)

/-- OPCODE of the tiller's entries and stores (Table 14.6): CLASS 9, OP, TYPE. -/
def tillerOpcode (op typ : Nat) : Nat := 9 + 2 ^ 4 * op + 2 ^ 12 * typ

/-- One tiller or sieve entry over a 16 × 32 block: k from lo to lo + kc − 1 of the rows and columns given, added to the
accumulators (R564, R362–R366, R392). -/
def tileEntry (d : List Byte) (sparse : Bool) (lo kc : Nat) (a b : List (List (Nat × Nat)))
    (accs : List Int) (t : TileOut) : List Int × TileOut :=
  let int := tillerPair (woTa d) (woTb d) == some 3
  let opc := tillerOpcode (b2n sparse) (if int then 3 else 0)
  let cut := fun (l : List (Nat × Nat)) => (l.filter (fun e => lo ≤ e.1 && e.1 < lo + kc)).map (fun e => (e.1 - lo, e.2))
  let ar := a.map cut
  let br := b.map cut
  let n := b.length
  let rs := (List.range a.length).flatMap (fun i => (List.range n).map (fun j =>
    let ps := matchProducts (2 * kc + 1) (ar.getD i []) (br.getD j [])
    (i, j, accRun d (accMode d) (woTa d) (woTb d) (accs.getD (i * n + j) 0) ps, ps.length)))
  let fl := rs.foldl (fun x (r : Nat × Nat × AccOut × Nat) => Nat.lor x r.2.2.1.flags) t.flags
  let gs := rs.filterMap (fun (r : Nat × Nat × AccOut × Nat) => r.2.2.1.guard.map (fun g => (g.1, r.1, r.2.1, b2n g.2)))
  let ns := rs.filterMap (fun (r : Nat × Nat × AccOut × Nat) => r.2.2.1.nan.map (fun g => (g.1, r.1, r.2.1, g.2)))
  let guard := t.guard.orElse (fun _ => (firstEvent gs).map (fun e => ⟨1, opc, e.2.1, e.2.2.1, e.1, e.2.2.2⟩))
  let nan := (firstEvent ns).map (fun (e : Nat × Nat × Nat × Nat) => (⟨e.2.2.2, opc, e.2.1, e.2.2.1, e.1, 0⟩ : TileEvent))
  (rs.map (fun (r : Nat × Nat × AccOut × Nat) => r.2.2.1.v),
    { t with flags := fl, guard := guard, nan := nan,
             products := t.products + (rs.map (fun (r : Nat × Nat × AccOut × Nat) => r.2.2.2)).foldl (· + ·) 0,
             clocks := t.clocks + tillerClocks (woTa d) kc })

/-- The finish of a block: each element draws on its generator in row order, and a NaN trap ends the tile. -/
def tileStore (d : List Byte) (bias : Nat → Option Nat) (r0 c0 n : Nat) (accs : List Int) (t : TileOut) : TileOut :=
  let int := tillerPair (woTa d) (woTb d) == some 3
  (List.zip (List.range accs.length) accs).foldl (fun (x : TileOut) (e : Nat × Int) =>
    if x.nan.isSome then x
    else
      let i := e.1 / n
      let j := e.1 % n
      let g := i % 4 * 32 + j
      let dr := xorshift (x.gens.getD g 0)
      let r := finishAcc d int (bias (c0 + j)) dr e.2
      { x with gens := if woRnd d = 3 then setAt g dr x.gens else x.gens, flags := Nat.lor x.flags r.flags,
               nan := (nanKind d r).map (fun k => ⟨k, tillerOpcode 2 (woTo d), i, j, 0, 0⟩),
               out := x.out ++ [(r0 + i, c0 + j, r.bits)] }) t

/-- The chunks of k of a block, in order, then its store. -/
def tileBlock (d : List Byte) (sparse : Bool) (bias : Nat → Option Nat) (r0 c0 : Nat) (a b : List (List (Nat × Nat)))
    (t : TileOut) : TileOut :=
  let kc := min (woK d) 512
  let x := (List.range (ceilDiv (woK d) 512)).foldl (fun (x : List Int × TileOut) ch =>
    if x.2.nan.isSome then x else tileEntry d sparse (ch * 512) (min kc (woK d - ch * 512)) a b x.1 x.2)
    (List.replicate (a.length * b.length) 0, t)
  if x.2.nan.isSome then x.2 else tileStore d bias r0 c0 b.length x.1 x.2

/-- The tiller's or sieve's part of a tile in the order of R564: rows from r0, columns from c0 on. -/
def tillerTile (d : List Byte) (bias : Nat → Option Nat) (r0 c0 : Nat) (a b : Fibres) (gens : List Nat) : TileOut :=
  let sparse := woFmtA d ≠ 0 || woFmtB d ≠ 0
  let ra := a.map fibreElems
  let cb := b.map fibreElems
  (List.range (ceilDiv ra.length 16)).foldl (fun t i =>
    (List.range (ceilDiv cb.length 32)).foldl (fun (t : TileOut) j =>
      if t.nan.isSome then t
      else tileBlock d sparse bias (r0 + 16 * i) (c0 + 32 * j) ((ra.drop (16 * i)).take 16) ((cb.drop (32 * j)).take 32) t) t)
    ⟨gens, 0, none, none, [], 0, 0⟩

/-! Lane operations (R374) -/

/-- An input converted exactly to FP32. -/
def laneIn (typ b : Nat) : FRes := convert .rn typ 0 b

/-- A result with the events of an operand's own conversion. -/
def FRes.beside (r x : FRes) : FRes := ⟨r.bits, Nat.lor r.flags x.flags, r.gen || x.gen, r.nanOp || x.nanOp⟩

/-- Fold values from the first one on. -/
def laneFold (f : Nat → Nat → FRes) : List FRes → Option FRes
  | [] => none
  | v :: r => some (r.foldl (fun a x => a.then_ (fun b => (f b x.bits).beside x)) v)

/-- The combination of ELTWISE's SUBOP. -/
def eltOp (subop : Nat) (a b : Nat) : FRes :=
  match subop with
  | 0 => fp32.add .rn a b
  | 1 => fp32.sub .rn a b
  | 2 => fp32.mul .rn a b
  | 3 => fp32.minMax true a b
  | _ => fp32.minMax false a b

/-- The value of a lane operation before its finish; a window or a row without inputs has no stated value. -/
def laneValue (d : List Byte) (free : Nat) (a b : List FRes) : FRes :=
  let open_ : FRes := .plain (free % 2 ^ 32) 0
  match woOp d with
  | 3 => (List.zip a b).foldl (fun (x : FRes) (p : FRes × FRes) =>
      (((fp32.fma .rn p.1.bits p.2.bits x.bits).beside p.1).beside p.2).beside x) (.plain 0 0)
  | 4 =>
    if woSubop d = 0 then (laneFold (fp32.minMax true) a).getD open_
    else ((laneFold (fp32.add .rn) a).map (fun x => x.then_ (fun v => fp32.divNat .rn v a.length))).getD open_
  | 5 => (match a.head?, b.head? with
    | some x, some y =>
      ((eltOp (woSubop d) x.bits y.bits).beside x).beside y
    | _, _ => open_)
  | _ =>
    match woSubop d with
    | 0 => (laneFold (fp32.add .rn) a).getD (if a.isEmpty then .plain 0 0 else open_)
    | 1 => (laneFold (fp32.minMax true) a).getD open_
    | 2 => (laneFold (fp32.minMax false) a).getD open_
    | _ => ((laneFold (fp32.add .rn) a).map (fun x => x.then_ (fun v => fp32.divNat .rn v a.length))).getD open_

/-- The operands of a lane tile, as lists of inputs per output element in row order. -/
def laneOperands (m : Mover) (d : List Byte) (r c : Nat × Nat) (s : State) :
    Except TileErr (List (List Nat × List Nat)) × State :=
  let n := c.2 - c.1
  let ba := elemBits (woTa d)
  let bb := elemBits (woTb d)
  let rows := (List.range (r.2 - r.1)).map (fun i => r.1 + i)
  match woOp d with
  | 5 =>
    let x := readPieces m (rows.map (fun i => ⟨woVa d 0 + i * woStride d 0, c.1, n, ba⟩)) s
    let brows := if woBcast d then [0] else rows
    let y := readPieces m (brows.map (fun i => ⟨woVa d 1 + i * woStride d 1, c.1, n, bb⟩)) x.2
    (match x.1, y.1 with
      | .ok a, .ok b => .ok ((List.range rows.length).flatMap (fun i => (List.range n).map (fun j =>
          ([(a.getD i []).getD j 0], [(b.getD (if woBcast d then 0 else i) []).getD j 0]))))
      | .error e, _ => .error e
      | _, .error e => .error e, y.2)
  | 6 =>
    let x := readPieces m (rows.map (fun i => ⟨woVa d 0 + i * woStride d 0, 0, woSize d 1, ba⟩)) s
    (x.1.map (fun a => a.map (fun v => (v, []))), x.2)
  | _ =>
    let at_ := fun (p : Nat × Nat × Nat) => (⟨woVa d 0 + (p.1 * woSize d 1 + p.2.1) * woStride d 0,
      p.2.2 * woSize d 3 + c.1, n, ba⟩ : Piece)
    let ins := rows.map (fun i => woInputs d i)
    let x := readPieces m (ins.flatMap (fun l => l.filterMap (fun p => p.2.map at_))) s
    let y := if woOp d = 3 then
        readPieces m ((List.range (woK d)).map (fun k => ⟨woVa d 1, k * woSize d 3 + c.1, n, bb⟩)) x.2
      else (.ok [], x.2)
    (match x.1, y.1 with
      | .ok a, .ok b =>
        let split := ins.foldl (fun (z : List (List Nat × List Nat) × List (List Nat)) l =>
          let k := (l.filter (fun p => p.2.isSome)).length
          let vs := z.2.take k
          let full := fillRow n l vs
          let elems := (List.range n).map (fun j =>
            if woOp d = 3 then ((List.range l.length).map (fun q => full.getD (q * n + j) 0), b.map (fun w => w.getD j 0))
            else (vs.map (fun v => v.getD j 0), []))
          (z.1 ++ elems, z.2.drop k)) ([], a)
        .ok split.1
      | .error e, _ => .error e
      | _, .error e => .error e, y.2)

/-- The lanes' part of a tile: elements in row order. `draw` and `free` give the element's draw under SR, whose lane
the spec does not state, and its open value. -/
def laneTile (d : List Byte) (bias : Nat → Option Nat) (r0 c0 n : Nat) (draw free : Nat → Nat)
    (ops : List (List Nat × List Nat)) (gens : List Nat) : TileOut :=
  (List.zip (List.range ops.length) ops).foldl (fun (t : TileOut) (e : Nat × List Nat × List Nat) =>
    if t.nan.isSome then t
    else
      let i := e.1 / n
      let j := e.1 % n
      let v := laneValue d (free e.1) (e.2.1.map (laneIn (woTa d))) (e.2.2.map (laneIn (woTb d)))
      let r := finishFp d (bias (c0 + j)) (draw e.1) v
      { t with flags := Nat.lor t.flags r.flags,
               nan := (nanKind d r).map (fun k => ⟨k, free (2 * e.1), 0, j % 32, 0, 0⟩),
               out := t.out ++ [(r0 + i, c0 + j, r.bits)] })
    ⟨gens, 0, none, none, [], 0, 0⟩

/-! Outputs -/

/-- The piece of output row i from column c on (R373). -/
def outPiece (d : List Byte) (i c n : Nat) : Piece :=
  let bits := elemBits (woTo d)
  if woWindow (woOp d) then
    let hw := woHo d * woWo d
    ⟨woVa d 2 + (i / hw * woHo d + i % hw / woWo d) * woStride d 2, i % woWo d * woN d + c, n, bits⟩
  else ⟨woVa d 2 + i * woStride d 2, c, n, bits⟩

/-- The output pieces of a tile. -/
def outPieces (d : List Byte) (r c : Nat × Nat) (out : List (Nat × Nat × Nat)) : List (Piece × List Nat) :=
  (List.range (r.2 - r.1)).map (fun i =>
    (outPiece d (r.1 + i) c.1 (c.2 - c.1), (out.filter (fun e => e.1 == r.1 + i)).map (fun e => e.2.2)))

/-- Score a comes before score b (R376): descending, NaN after every number, the lower index first. -/
def scoreBefore (a b : Nat × Nat) : Bool :=
  let x := fp32.decode a.2
  let y := fp32.decode b.2
  if x.isNan || y.isNan then (if x.isNan == y.isNan then decide (a.1 ≤ b.1) else y.isNan)
  else if y.lt x then true else if x.lt y then false else decide (a.1 ≤ b.1)

/-- The records of EMBED_MATCH for a tile's queries (R376). -/
def matchPieces (d : List Byte) (r : Nat × Nat) (out : List (Nat × Nat × Nat)) : List (Piece × List Nat) :=
  (List.range (r.2 - r.1)).map (fun i =>
    let q := r.1 + i
    let sc := ((out.filter (fun e => e.1 == q)).map (fun (e : Nat × Nat × Nat) => (e.2.1, e.2.2))).mergeSort scoreBefore
    let vs := (List.range (woTopk d)).flatMap (fun k =>
      match sc[k]? with
      | some e => [e.2, e.1]
      | none => [0xFF800000, 0xFFFFFFFF])
    (⟨woVa d 2 + q * woStride d 2, 0, 2 * woTopk d, 32⟩, vs))

/-- Rows that GATHER copies: (index in range, elements) per output row; an index outside the table gives zeros (R377). -/
def gatherRows (m : Mover) (d : List Byte) : List Nat → State → Except TileErr (List (Bool × List Nat)) × State
  | [], s => (.ok [], s)
  | ix :: r, s =>
    let v := sext 32 ix
    let ok := decide (0 ≤ v) && decide (v < woSize d 2)
    let x := if ok then readPieces m [⟨woVa d 0 + v.toNat * woStride d 0, 0, woSize d 1, elemBits (woTa d)⟩] s
      else (.ok [List.replicate (woSize d 1) 0], s)
    match x.1 with
    | .error e => (.error e, x.2)
    | .ok l =>
      let y := gatherRows m d r x.2
      (y.1.map (fun t => (ok, l.headD []) :: t), y.2)

end Sys2Proof.Machine
end

