-- ==== Sys2Proof/Machine/Tiles.lean ====
section
/-! DEFINITION. Tiles on beds: start, launch, completion, preemption and restore, and the row END
(spec/13 R320, R321, R329, R349, spec/15 R381–R385, spec/17 R412, spec/22 R526, R527). -/
namespace Sys2Proof.Machine

/-- A built-in operation. -/
def Order.isBuiltin (o : Order) : Bool := woOp o.desc ≤ 8

/-- WAVES and VGPRS of a group launch. -/
def State.groupOf (s : State) (o : Order) : Nat × Nat :=
  if o.isRake then
    match s.rakeJob o.uid with
    | some j => (bytesAt j.desc 0x48 1 % 32, slice (bytesAt j.desc 0x48 4) 8 9)
    | none => (0, 8)
  else (woSize o.desc 2, woSize o.desc 3)

/-! Placement -/

/-- The row that takes a wave: enough free registers and a free place, the fewest waves, the lowest number (R320). -/
def pickRow (waves : List Wave) (vgprs : Nat) : Option Nat :=
  let of := fun (r : Nat) => waves.filter (fun w => w.slot / 12 = r)
  let ok := (List.range 4).filter (fun r =>
    (of r).length < 12 && ((of r).map (fun (w : Wave) => w.vgprs)).foldl (· + ·) 0 + vgprs ≤ 512)
  ok.foldl (fun (b : Option Nat) r => match b with
    | none => some r
    | some x => if (of r).length < (of x).length then some r else some x) none

/-- Place the waves of a group one after another; none if not all fit (R320). -/
def placeWaves (mk : Nat → Nat → Wave) (vgprs : Nat) : Nat → Nat → List Wave → Option (List Wave)
  | 0, _, ws => some ws
  | n + 1, i, ws =>
    match pickRow ws vgprs with
    | none => none
    | some r =>
      let k := ((List.range 12).find? (fun k => ws.all (fun w => w.slot ≠ r * 12 + k))).getD 0
      placeWaves mk vgprs n (i + 1) (ws ++ [mk (r * 12 + k) i])

/-- A wave as launched (R321). -/
def launched (uid tile group vgprs pc : Nat) (sregs : List Nat) (slot i : Nat) : Wave :=
  ⟨slot, uid, tile, group, i, vgprs, pc, 2 ^ 32 - 1, sregs ++ List.replicate 16 0, List.replicate 8 0, [], [], 0, .ready, 0, 0, 0⟩

/-- A free group slot of a bed. -/
def Bed.freeGroup (b : Bed) : Option Nat := (List.range 8).find? (fun g => b.groups.all (fun x => x.1 ≠ g))

/-- A group fits beside what a bed runs, with PLOT.WAVES (R319, R320). -/
def Bed.takes (b : Bed) (waves vgprs limit : Nat) : Bool :=
  b.freeGroup.isSome && b.waves.length + waves ≤ limit &&
    (placeWaves (launched 0 0 0 vgprs 0 []) vgprs waves 0 b.waves).isSome

/-! Choosing (R381, R526) -/

/-- The next tile of an order needs a bed: a rake tile with an empty list needs none (R412). -/
def State.emptyTile (s : State) (o : Order) : Bool :=
  match s.rakeJob o.uid with
  | some j => o.isRake && (j.table.getD o.next (0, 0)).2 == 0
  | none => false

/-- Bed n can take the next tile of an order. -/
def State.canTake (s : State) (n : Nat) (o : Order) (limit : Nat) : Bool :=
  let b := s.bedAt n
  let g := s.groupOf o
  s.isOpen (n + 4) && !b.yielding && (b.saved.isNone || o.cls == 0) &&
    (if o.isBuiltin || o.cls == 0 then b.idle else b.built.isNone) &&
    (o.isBuiltin || (b.takes g.1 g.2 limit && !(o.isRake && b.groups.any (fun x => x.2.shaded || (s.rakeJob x.2.uid).isSome))))

/-- A paused plot lets an order go on: under a replan every one, under a graft one that has started a tile (R57, R59). -/
def State.goesOn (s : State) (o : Order) : Bool :=
  !s.plan.paused.contains o.plot || s.plan.job.elim false (fun j => j.op != 2) || o.next != woStart o.desc

/-- An order has a tile that may start: not ending, not held by its paused plot, a rake job in its shading pass. -/
def State.startable (s : State) (o : Order) : Bool :=
  o.ending.isNone && o.next < o.total && s.goesOn o &&
    (!o.isRake || (s.rakeJob o.uid).elim false (fun j => j.phase == 2))

/-- The beds that may run an order. -/
def State.bedsFor (s : State) (o : Order) : List Nat := (s.plotCfg o.plot).elim [] (fun p => s.eligible p (woMask o.desc))

/-- The order whose tile bed n would take: the oldest of the highest class that may start on it. -/
def State.nextOrder (s : State) (n : Nat) : Option Order :=
  let os := s.bed.orders.filter (fun o => s.startable o && (s.bedsFor o).contains n)
  let top := os.foldl (fun c o => min c o.cls) 3
  os.find? (fun o => o.cls = top)

/-! Start of a tile -/

/-- A bed starts a tile: the generators are loaded (R358), and a class-0 order's compute starts (R520; log entry 19). -/
def tileBegun (n : Nat) (o : Order) (s : State) : State :=
  let s1 := setBed n { s.bedAt n with gens := (List.range 128).map (seedGen (woSeed o.desc) o.next) } s
  let s2 := { s1 with bed := { s1.bed with urgent := s1.bed.urgent.map (fun u =>
    if u.uid = o.uid ∧ u.ts.isNone then { u with ts := some s1.timeUs } else u) } }
  let s2 := if s2.get (F.islandClockFreqMhz (n + 4)) * s2.get F.fenceStateLimitRatio < 3200 then urgentReason o.uid 2 s2 else s2
  putOrder { o with next := o.next + 1 } s2

/-- The mover of an order's operands. -/
def State.mover (s : State) (o : Order) : Mover :=
  let c := s.orderChannel o.cls
  ⟨⟨67 + c.1, s.hoseClass c.1 c.2, 0, false⟩, o, c⟩

/-- A transfer of an order faults: the order stalls, or ends (R386, R294). -/
def stallOrder (m : Mover) (n reason level va : Nat) (a : Access) (s : State) : State :=
  let o := m.o
  let e := s.entry o.uid
  let f : FaultRec :=
    { stream := .order o.uid n 255, va := va, tag := e.elim 0 (fun x => x.tag), reason := reason, access := a,
      allot := o.allot, fatal := false, cls := o.cls, level := level, source := m.q.island, unit := m.ch.2,
      sq := e.elim 0xFF (fun x => x.sq), timeUs := 0 }
  let r := reportFault o.fn f s
  let s1 := urgentReason o.uid 6 r.2
  match r.1 with
  | .stalled => s1
  | .ended status => endOrder o.uid (dw1 status 0 0) s1

/-- An order's transfer did not get through. -/
def failOrder (m : Mover) (n : Nat) (a : Access) (e : VaErr) (s : State) : State :=
  match e with
  | .fault reason level va => stallOrder m n reason level va a s
  | .err x => endOrder m.o.uid (s.errWord x) s

/-- Launch a group for a tile on bed n. -/
def launchGroup (n : Nat) (o : Order) (pc : Nat) (sregs : List Nat) (s : State) : State :=
  let g := s.groupOf o
  let b := s.bedAt n
  match b.freeGroup with
  | none => s
  | some k =>
    match placeWaves (launched o.uid o.next k g.2 pc sregs) g.2 g.1 0 b.waves with
    | none => s
    | some ws =>
      let t : TileRun := ⟨o.uid, o.next, o.cls, false⟩
      let s1 := changeBed n (fun x => { x with waves := ws, groups := x.groups ++ [(k, t)] }) s
      tileBegun n o s1

/-- Start a PROGRAM tile (R382): its argument block is read first. -/
def startProgram (n : Nat) (o : Order) (s : State) : State :=
  let m := s.mover o
  if s.orderStalled o.uid then s
  else if s.isShut m.q.island then endOrder o.uid (s.islandWord 0x11 m.q.island) s
  else
    let r := vaRead m.q o.fn o.allot (woVa o.desc 1 + 64 * o.next) 64 .read false s
    match r.1 with
    | .error e => failOrder m n .read e r.2
    | .ok bs => launchGroup n o (woVa o.desc 0) ((List.range 16).map (fun i => bytesAt bs (4 * i) 4)) r.2

/-- Start a built-in tile (R381); how many waves its code uses is a free value (log entry 1). -/
def startBuiltin (n : Nat) (o : Order) (s : State) : State :=
  let d := s.draw
  let s1 := tileBegun n o (d.2.put (F.bedStatusResident n) (d.1 % 49))
  changeBed n (fun b => { b with built := some ⟨o.uid, o.next, o.cls, false⟩ }) s1

/-! Rake tiles (R408, R409, R412) -/

/-- The request of the rake for class `cls` accesses. -/
def State.rakeReq (s : State) : Req := ⟨65, s.plan.active.qos.islands.getD 65 1, 0, false⟩

/-- A rake access faults: the job stalls or ends (R286, R294). -/
def stallRake (o : Order) (e : VaErr) (a : Access) (s : State) : State :=
  match e with
  | .err x => endOrder o.uid (s.errWord x) s
  | .fault reason level va =>
    let en := s.entry o.uid
    let r := reportFault o.fn { stream := .rake o.uid, va := va, tag := en.elim 0 (fun x => x.tag), reason := reason,
                                access := a, allot := o.allot, fatal := false, cls := o.cls, level := level, source := 65,
                                unit := 0, sq := en.elim 0xFF (fun x => x.sq), timeUs := 0 } s
    match r.1 with
    | .stalled => r.2
    | .ended status => endOrder o.uid (dw1 status 0 0) r.2

/-- Bytes per pixel of a FORMAT (Table 17.5). -/
def pixelBytes (format : Nat) : Nat :=
  match format with
  | 0 => 1 | 1 => 2 | 2 => 4 | 3 => 2 | 4 => 8 | 5 => 4 | 8 => 4 | 9 => 4
  | _ => 0

/-- Fields of a target descriptor. -/
def tgBase (t : List Byte) : Nat := bytesAt t 0 6
def tgFormat (t : List Byte) : Nat := slice (bytesAt t 0 8) 48 4
def tgLoad (t : List Byte) : Nat := slice (bytesAt t 0 8) 52 2
def tgDiscard (t : List Byte) : Bool := bit (bytesAt t 0 8) 54
def tgPitch (t : List Byte) : Nat := bytesAt t 8 4
def tgBytes (t : List Byte) : Nat := pixelBytes (tgFormat t)

/-- O_c: where target c's part of the tile buffer begins (R409). -/
def RakeJob.offset (j : RakeJob) (c : Nat) : Nat :=
  j.edge * j.edge * ((j.targets.take c).map tgBytes).foldl (· + ·) 0

/-- Tile columns of a job's grid. -/
def RakeJob.cols (j : RakeJob) : Nat := ceilDiv (bytesAt j.desc 0x2C 2) j.edge

/-- The origin and the valid part of a tile: (x, y, width, height) (R404). -/
def RakeJob.part (j : RakeJob) (t : Nat) : Nat × Nat × Nat × Nat :=
  let x := t % j.cols * j.edge
  let y := t / j.cols * j.edge
  (x, y, min j.edge (bytesAt j.desc 0x2C 2 - x), min j.edge (bytesAt j.desc 0x2E 2 - y))

/-- Rows of the tile buffer of a target before its tile runs: CLEAR gives the clear pixel, LOAD the target's pixels with
zeros outside the valid part; DONT_CARE none. -/
def loadRows (j : RakeJob) (o : Order) (t : Nat) (tg : List Byte) :
    Nat → Nat → State → Except VaErr (List (List Byte)) × State
  | 0, _, s => (.ok [], s)
  | n + 1, y, s =>
    let b := tgBytes tg
    let p := j.part t
    let row : Except VaErr (List Byte) × State :=
      if tgLoad tg = 0 then (.ok ((List.range j.edge).flatMap (fun _ => (tg.drop 0x10).take b)), s)
      else if p.2.2.2 ≤ y then (.ok (List.replicate (j.edge * b) 0), s)
      else
        let r := vaRead s.rakeReq o.fn o.allot (tgBase tg + (p.2.1 + y) * tgPitch tg + p.1 * b) (p.2.2.1 * b) .read false s
        (r.1.map (fun bs => bs ++ List.replicate ((j.edge - p.2.2.1) * b) 0), r.2)
    match row.1 with
    | .error e => (.error e, row.2)
    | .ok bs =>
      let r := loadRows j o t tg n (y + 1) row.2
      (r.1.map (fun l => bs :: l), r.2)

/-- Fill the tile buffer of bed n (R412 step 1): the error of an access, if one failed. -/
def fillTargets (j : RakeJob) (o : Order) (n t : Nat) : Nat → List (List Byte) → State → Option VaErr × State
  | _, [], s => (none, s)
  | c, tg :: rest, s =>
    if tgLoad tg = 2 then fillTargets j o n t (c + 1) rest s
    else
      let r := loadRows j o t tg j.edge 0 s
      match r.1 with
      | .error e => (some e, r.2)
      | .ok rows =>
        let w := physWrite s.rakeReq (bedBase n + j.offset c) rows.flatten r.2
        match w.1 with
        | some e => (some (.err e), w.2)
        | none => fillTargets j o n t (c + 1) rest w.2

/-- The scalar registers of a rake tile (Table 17.7). -/
def RakeJob.scalars (j : RakeJob) (args : List Byte) (t : Nat) : List Nat :=
  let p := j.part t
  let e := j.table.getD t (0, 0)
  let va := bytesAt j.desc 0x20 8 + e.1
  let depth := bit (bytesAt j.desc 0 4) 4
  (List.range 8).map (fun i => bytesAt args (4 * i) 4) ++
    [t, p.1 + 2 ^ 16 * p.2.1, p.2.2.1 + 2 ^ 16 * p.2.2.2, e.2, va % 2 ^ 32, va / 2 ^ 32 % 2 ^ 16,
     if depth then j.offset (j.targets.length - 1) else 2 ^ 32 - 1, j.edge]

/-- A tile with an empty list: no program runs, and it awaits its resolve (R412). -/
def skipTile (o : Order) (j : RakeJob) (s : State) : State :=
  putOrder { o with next := o.next + 1 } (putJob { j with shaded := j.shaded ++ [(o.next, 48)] } s)

/-- Start a rake tile on bed n (R412). -/
def startRake (n : Nat) (o : Order) (j : RakeJob) (s : State) : State :=
  if s.orderStalled o.uid || s.isShut 65 then s
  else
    let a := vaRead s.rakeReq o.fn o.allot (bytesAt j.desc 0x40 8) 32 .read false s
    match a.1 with
    | .error e => stallRake o e .read a.2
    | .ok args =>
      let f := fillTargets j o n o.next 0 j.targets a.2
      match f.1 with
      | some e => stallRake o e .read f.2
      | none => launchGroup n o (bytesAt j.desc 0x38 8) (j.scalars args o.next) f.2

/-- TILE_START (R381, R526): nothing happens unless the bed is the lowest-numbered one that can take the tile. -/
def startTile (n : Nat) (s : State) : State :=
  match s.nextOrder n with
  | none => s
  | some o =>
    match s.rakeJob o.uid, s.emptyTile o with
    | some j, true => skipTile o j s
    | job, _ =>
      let limit := (s.plotCfg o.plot).elim 0 (fun p => p.waves)
      if (s.bedsFor o).find? (fun k => s.canTake k o limit) ≠ some n then s
      else if o.isBuiltin then startBuiltin n o s
      else match job with
        | some j => startRake n o j s
        | none => startProgram n o s

/-- TILE_START. -/
def execTileStart (bed : Fin 48) (s : State) : Out := .next (startTile bed s)

/-! Preemption (R349, R385, R527) -/

/-- A bed saves itself: its loads arrive, its tensor queue empties, its waves, banks, generators and memory are kept. -/
def saveBed (n : Nat) (s : State) : State :=
  let s1 := s.each (s.bedAt n).loads (fun _ t => arriveLoad n 0 t)
  let s2 := s1.each (s1.bedAt n).queue (fun _ t => runEntry n t)
  let b := s2.bedAt n
  let v : BedSave := ⟨b.waves, b.loads, b.banks, b.gens, b.built, b.groups,
    s2.mem.bedMem.filter (fun c => bedBase n ≤ c.1 && c.1 < bedBase n + 0x100000)⟩
  changeBed n (fun x => { x with
    waves := [], loads := [], queue := [], built := none, groups := [], yielding := false, saved := some v }) s2

/-- The end of a tile on a bed that was asked to yield. -/
def yieldAtEnd (n : Nat) (s : State) : State := if (s.bedAt n).yielding then saveBed n s else s

/-- MAX_TILE_TIME_EXPIRY (R385): the bed that was asked to yield saves itself in mid-tile. -/
def execMaxTileTimeExpiry (bed : Fin 48) (s : State) : Out :=
  .next (if (s.bedAt bed).yielding && s.isOpen (bed + 4) then saveBed bed s else s)

/-- A class-0 tile waits for a bed. -/
def State.urgentWaits (s : State) (n : Nat) : Bool :=
  s.bed.orders.any (fun o => o.cls == 0 && s.startable o && (s.bedsFor o).contains n)

/-- Take back a saved state (R527, R349). -/
def restoreBed (n : Nat) (v : BedSave) (s : State) : State :=
  let empty := Memory.fill ramFill s.mem.bedMem (bedBase n) 0x100000 0
  let s1 := { s with mem := { s.mem with bedMem := v.mem.foldl (fun m c => Memory.set ramFill m c.1 c.2) empty } }
  changeBed n (fun x => { x with
    waves := v.waves, loads := v.loads, banks := v.banks, gens := v.gens, built := v.built, groups := v.groups,
    saved := none }) s1

/-- BED_RESTORE (R527). -/
def execBedRestore (bed : Fin 48) (s : State) : Out :=
  .next (match (s.bedAt bed).saved with
    | some v => if (s.bedAt bed).idle && !s.urgentWaits bed && s.isOpen (bed + 4) then restoreBed bed v s else s
    | none => s)

/-! The end of a built-in tile -/

/-- The record of an event of a built-in tile (R369): WAVE 0xFF, PC 0, and a free BANK; for the lanes free LANE and
ELEM, whose code is not published (log entry 1). -/
def tileEvent (o : Order) (t : TileRun) (e : TileEvent) (s : State) : NumEvent × State :=
  let id := s.numIds o.uid
  let tiller := woTiller (woOp o.desc)
  let d := s.draw
  ({ tag := id.1, sq := id.2, lane := if tiller then e.row % 4 * 32 + e.col else d.1 % 128, opcode := e.opcode % 2 ^ 16,
     wave := 0xFF, bank := d.1 % 8, tiller := tiller, row := e.row, col := e.col, elem := if tiller then 0 else d.1 / 128 % 4,
     sign := e.sign, tile := t.tile, k := e.k, pc := 0 }, d.2)

/-- A trap of built-in code: where it stood is a free value (log entry 1). -/
def trapBuiltin (n : Nat) (o : Order) (kind status detail : Nat) (s : State) : State :=
  let d := s.draw
  let x := d.2.draw
  endOrder o.uid (dw1 status detail 0)
    (recordTrap n kind (d.1 % 48) status detail (s.tagOf o.uid) (d.1 / 48 % 2 ^ 48) (x.1 % 2 ^ 64) x.2)

/-- The sieve's counters of a tile: products, and probes and passes where both operands are sparse; steals and idle
lane-clocks depend on timing and are free values (log entry 1). -/
def sieveTile (n : Nat) (d : List Byte) (a b : Fibres) (products : Nat) (s : State) : State :=
  let both := woFmtA d ≠ 0 && woFmtB d ≠ 0
  let blocks := (List.range (ceilDiv a.length 16)).flatMap (fun i => (List.range (ceilDiv b.length 32)).map (fun j =>
    let x := (a.drop (16 * i)).take 16
    let y := (b.drop (32 * j)).take 32
    if both then sieveCounts x.length y.length x y else (0, 0)))
  let f := s.fresh
  let s1 := { s with fresh := f + 3 }
  let steals := if s1.get (F.globalSieveChMode (slice (woSparse d) 8 3)) = 1 then Config.freeNat f else 0
  let s2 := s1.wr64 (R.bedSieveProducts n) ((s1.rd64 (R.bedSieveProducts n) + products) % 2 ^ 64)
  let s3 := s2.wr64 (R.bedSieveProbes n) ((s2.rd64 (R.bedSieveProbes n) + (blocks.map (fun (p : Nat × Nat) => p.1)).foldl (· + ·) 0) % 2 ^ 64)
  let s4 := (s3.bump32 (R.bedSievePasses n) ((blocks.map (fun (p : Nat × Nat) => p.2)).foldl (· + ·) 0)).wrap32 (R.bedSieveSteals n) steals
  let s5 := s4.wr64 (R.bedSieveIdle n) ((s4.rd64 (R.bedSieveIdle n) + Config.freeNat (f + 1)) % 2 ^ 64)
  busy n (Config.freeNat (f + 2)) s5

/-- What a built-in tile computes and writes: results, output pieces, an index out of range, operand fibres. -/
structure TileWork where
  out  : TileOut
  pieces : List (Piece × List Nat)
  bad  : Bool
  a    : Fibres
  b    : Fibres
  deriving DecidableEq, Repr

/-- BIAS by output column. -/
def readBias (m : Mover) (d : List Byte) (c : Nat × Nat) (s : State) : Except TileErr (Nat → Option Nat) × State :=
  if !woBias d then (.ok (fun _ => none), s)
  else
    let r := readPieces m [⟨woVa d 3, c.1, c.2 - c.1, 32⟩] s
    (r.1.map (fun l j => some ((l.headD []).getD (j - c.1) 0)), r.2)

/-- A tile of GEMM, CONV or EMBED_MATCH. -/
def workTiller (m : Mover) (d : List Byte) (r c : Nat × Nat) (gens : List Nat) (s : State) : Except TileErr TileWork × State :=
  let a := readA m d r s
  match a.1 with
  | .error e => (.error e, a.2)
  | .ok fa =>
    let b := readB m d c a.2
    match b.1 with
    | .error e => (.error e, b.2)
    | .ok fb =>
      let x := readBias m d c b.2
      match x.1 with
      | .error e => (.error e, x.2)
      | .ok bias =>
        let t := tillerTile d bias r.1 c.1 fa fb gens
        (.ok ⟨t, if woOp d = 8 then matchPieces d r t.out else outPieces d r c t.out, false, fa, fb⟩, x.2)

/-- A tile of GATHER; B holds its indices one after another (log entry 20). -/
def workGather (m : Mover) (d : List Byte) (r : Nat × Nat) (gens : List Nat) (s : State) : Except TileErr TileWork × State :=
  let x := readPieces m [⟨woVa d 1, r.1, r.2 - r.1, 32⟩] s
  match x.1 with
  | .error e => (.error e, x.2)
  | .ok l =>
    let g := gatherRows m d (l.headD []) x.2
    (g.1.map (fun rows => ⟨⟨gens, 0, none, none, [], 0, 0⟩,
      (List.zip (List.range rows.length) rows).map (fun (p : Nat × Bool × List Nat) =>
        (⟨woVa d 2 + (r.1 + p.1) * woStride d 2, 0, woSize d 1, elemBits (woTo d)⟩, p.2.2)),
      rows.any (fun p => !p.1), [], []⟩), g.2)

/-- A tile of a lane operation. -/
def workLanes (m : Mover) (d : List Byte) (tile : Nat) (r c : Nat × Nat) (gens : List Nat) (s : State) :
    Except TileErr TileWork × State :=
  let x := laneOperands m d r c s
  match x.1 with
  | .error e => (.error e, x.2)
  | .ok ops =>
    let b := readBias m d c x.2
    match b.1 with
    | .error e => (.error e, b.2)
    | .ok bias =>
      let f := b.2.fresh
      let t := laneTile d bias r.1 c.1 (c.2 - c.1) (Config.builtinDraw (woSeed d) tile) (fun i => Config.freeNat (f + i)) ops gens
      (.ok ⟨t, outPieces d r c t.out, false, [], []⟩, { b.2 with fresh := f + 2 * ops.length + 1 })

/-- The work of a tile of any built-in operation. -/
def tileWork (m : Mover) (tile : Nat) (gens : List Nat) (s : State) : Except TileErr TileWork × State :=
  let d := m.o.desc
  let r := woRows d tile
  if woOp d = 8 then workTiller m d r (0, woSize d 1) gens s
  else if woTiller (woOp d) then workTiller m d r (woColumns d tile) gens s
  else if woOp d = 7 then workGather m d r gens s
  else workLanes m d tile r (woColumns d tile) gens s

/-- Raise a tile's flags and records. -/
def tileFlags (n : Nat) (o : Order) (t : TileRun) (w : TileOut) (s : State) : State :=
  let s1 := raiseFlags n o.uid (woTiller (woOp o.desc)) w.flags s
  match w.guard with
  | none => s1
  | some e =>
    let r := tileEvent o t e s1
    guardEvent n o.uid r.1 r.2

/-- A built-in tile is done: every bank holds 0 in FP32 mode (R381), the bed is free, the order's count advances. -/
def tileEnds (n : Nat) (o : Order) (t : TileRun) (w : TileWork) (s : State) : State :=
  let d := o.desc
  let s1 := tileFlags n o t w.out s
  let sparse := woFmtA d ≠ 0 || woFmtB d ≠ 0
  let s2 := if sparse then sieveTile n d w.a w.b w.out.products s1 else busy n w.out.clocks s1
  let s3 := changeBed n (fun b => { b with banks := List.replicate 8 ⟨true, []⟩, gens := w.out.gens, built := none }) s2
  let s4 := match s3.order o.uid with
    | some x => putOrder { x with badIndex := x.badIndex || w.bad } s3
    | none => s3
  yieldAtEnd n (orderTileDone o.uid t.tile s4)

/-- The tile on a bed does its work: its operands are read, its outputs written. A fault or an error on the way leaves it
running, or ends the order; a NaN trap or a malformed sparse operand traps (R366, R386, R387, R400). -/
def completeTile (n : Nat) (o : Order) (t : TileRun) (s : State) : State :=
  let m := s.mover o
  if s.orderStalled o.uid then s
  else if s.isShut m.q.island then endOrder o.uid (s.islandWord 0x11 m.q.island) s
  else
    let w := tileWork m t.tile (s.bedAt n).gens s
    match w.1 with
    | .error (.va e) => failOrder m n .read e w.2
    | .error .format => trapBuiltin n o 10 0xF0 0xB6 w.2
    | .ok x =>
      match x.out.nan with
      | some e =>
        let s1 := tileFlags n o t x.out w.2
        let r := tileEvent o t e s1
        trapBuiltin n o 8 0x20 0 (recordNum n e.kind r.1 r.2)
      | none =>
        let p := writePieces m x.pieces w.2
        match p.1 with
        | some e => failOrder m n .write e p.2
        | none => tileEnds n o t x p.2

/-- TILE_COMPLETE (R383): for a bed that runs a built-in tile. -/
def execTileComplete (bed : Fin 48) (s : State) : Out :=
  .next (match (s.bedAt bed).built with
    | none => s
    | some t =>
      match s.order t.uid with
      | none => s
      | some o => if s.isOpen (bed + 4) then completeTile bed o t s else s)

/-! END -/

/-- The last wave of a group has left: the tile completes, or for a rake tile its shading ends (R382, R412). -/
def groupEnds (n group : Nat) (s : State) : State :=
  let b := s.bedAt n
  match b.groups.find? (fun g => g.1 = group) with
  | none => s
  | some g =>
    match s.rakeJob g.2.uid with
    | some j =>
      let s1 := putJob { j with shaded := j.shaded ++ [(g.2.tile, n)] } s
      changeBed n (fun x => { x with groups := x.groups.map (fun y =>
        if y.1 = group then (y.1, { y.2 with shaded := true }) else y) }) s1
    | none =>
      let s1 := changeBed n (fun x => { x with groups := x.groups.filter (fun y => y.1 ≠ group) }) s
      yieldAtEnd n (orderTileDone g.2.uid g.2.tile s1)

/-- END (R329, R340): the wave leaves, once none of its registers is locked, and a group that waits at BAR for it goes
on. -/
def execEndWave (bed slot : Fin 48) (s : State) : Out :=
  .next (issue bed slot (fun cls o => cls == 0 && o == 1) (fun c t =>
    if !c.extOk then c.illegal t
    else if !((t.bedAt c.n).locked c.w.slot).isEmpty then c.hold t
    else
      let t1 := changeBed c.n (fun b => { b with waves := b.waves.filter (fun w => w.slot ≠ c.w.slot) }) t
      if (t1.bedAt c.n).waves.any (fun w => w.group = c.w.group) then releaseBar c.n c.w.group t1
      else groupEnds c.n c.w.group t1) s)

end Sys2Proof.Machine
end

