-- ==== Sys2Proof/Machine/Rake.lean ====
section
/-! DEFINITION. The rake: job checks, binning of triangles and detections, resolves (spec/17 R403–R418, R423). -/
namespace Sys2Proof.Machine

/-! The descriptor (Tables 17.1, 17.2) -/
def rkCtrl (d : List Byte) : Nat := bytesAt d 0 4
def rkFusion (d : List Byte) : Bool := bit (rkCtrl d) 0
def rkTargets (d : List Byte) : Nat := slice (rkCtrl d) 1 3 + slice (rkCtrl d) 4 1
def rkStart (d : List Byte) : Nat := bytesAt d 8 4
def rkPrims (d : List Byte) : Nat := bytesAt d 0xC 4
def rkMask (d : List Byte) : Nat := bytesAt d 0x10 8
def rkPrimVa (d : List Byte) : Nat := bytesAt d 0x18 8
def rkBinVa (d : List Byte) : Nat := bytesAt d 0x20 8
def rkBinBytes (d : List Byte) : Nat := bytesAt d 0x28 4
def rkWidth (d : List Byte) : Nat := bytesAt d 0x2C 2
def rkHeight (d : List Byte) : Nat := bytesAt d 0x2E 2
def rkTargetsVa (d : List Byte) : Nat := bytesAt d 0x30 8
def rkGroup (d : List Byte) : Nat := bytesAt d 0x48 4
def rkHomogVa (d : List Byte) : Nat := bytesAt d 0x50 8
def rkProjVa (d : List Byte) : Nat := bytesAt d 0x58 8
/-- ORIGIN_X, ORIGIN_Y, CELL_M, RADIUS_M, MIN_SCORE. -/
def rkFloat (d : List Byte) (n : Nat) : Nat := bytesAt d (0x60 + 4 * n) 4

/-- The tile edge of a plot's TILE code (R404, Table 3.4). -/
def tileEdge (code : Nat) : Nat := if code = 0 then 32 else if code = 1 then 16 else 64

/-- Columns, rows and T of the grid. -/
def rkCols (d : List Byte) (edge : Nat) : Nat := ceilDiv (rkWidth d) edge
def rkT (d : List Byte) (edge : Nat) : Nat := rkCols d edge * ceilDiv (rkHeight d) edge

/-- FP32 and finite. -/
def finite32 (b : Nat) : Bool := slice b 23 8 != 255

/-- The descriptor meets R403 and R404. -/
def rkDescOk (d : List Byte) (edge : Nat) : Bool :=
  let c := rkCtrl d
  let g := rkGroup d
  let va := fun (at_ m : Nat) => bytesAt d at_ 8 < 2 ^ 48 && bytesAt d at_ 8 % m == 0
  slice c 1 3 ≤ 4 && slice c 5 3 == 0 && slice c 13 19 == 0 && (!rkFusion d || !bit c 4) && (!bit c 11 || bit c 10) &&
    rkPrims d ≤ 2 ^ 24 && slice (rkMask d) 48 16 == 0 && va 0x18 32 && va 0x20 64 && va 0x30 32 && va 0x38 8 && va 0x40 1 &&
    va 0x50 64 && va 0x58 16 && 1 ≤ rkWidth d && rkWidth d ≤ 8192 && 1 ≤ rkHeight d && rkHeight d ≤ 8192 &&
    8 * rkT d edge ≤ rkBinBytes d && rkStart d ≤ rkT d edge &&
    1 ≤ slice g 0 5 && slice g 0 5 ≤ 16 && 8 ≤ slice g 8 9 && slice g 8 9 ≤ 256 && slice g 8 9 % 8 == 0 &&
    slice g 5 3 == 0 && slice g 17 15 == 0 && bytesAt d 0x74 12 == 0 &&
    (if rkFusion d then
      (List.range 5).all (fun n => finite32 (rkFloat d n)) && !bit (rkFloat d 2) 31 && rkFloat d 2 != 0 &&
        (!bit (rkFloat d 3) 31 || rkFloat d 3 == 2 ^ 31)
     else bytesAt d 0x4C 40 == 0)

/-- A target descriptor meets Table 17.5. -/
def targetOk (d : List Byte) (depth : Bool) (t : List Byte) : Bool :=
  let f := tgFormat t
  (if depth then f == 8 || f == 9 else f ≤ 5) && tgBase t % 64 == 0 && tgLoad t != 3 && slice (bytesAt t 0 8) 55 9 == 0 &&
    tgPitch t % 64 == 0 && rkWidth d * tgBytes t ≤ tgPitch t && bytesAt t 0xC 4 == 0 && bytesAt t 0x18 8 == 0

/-- Every target meets Table 17.5; the depth target comes last. -/
def targetsOk (d : List Byte) (ts : List (List Byte)) : Bool :=
  (List.zip (List.range ts.length) ts).all (fun p => targetOk d (p.1 == slice (rkCtrl d) 1 3) p.2)

/-- The first check of Table 17.6 that fails, the descriptor's own fields aside. -/
def State.rakeCheck (s : State) (p : PlotCfg) (d : List Byte) (ts : List (List Byte)) (edge : Nat) : Option Nat :=
  let beds := s.eligible p (rkMask d)
  if !targetsOk d ts then some (dw1 0xF0 0xC0 0)
  else if p.role ≠ 0 ∧ p.role ≠ 3 then some (dw1 0x41 0xC1 0)
  else if beds.isEmpty then some (dw1 0x41 0xB3 0)
  else if beds.any (fun b => s.get (F.bedSplitTile b) * 0x8000 < edge * edge * (ts.map tgBytes).foldl (· + ·) 0) then
    some (dw1 0xF0 0xC2 0)
  else if !groupFits (slice (rkGroup d) 0 5) (slice (rkGroup d) 8 9) p.waves then some (dw1 0xF0 0xB5 0)
  else none

/-- A rake job as an order: OP 0x80, its numeric bits, SEED, START_TILE and BED_MASK in a work order's places. -/
def rakeOrderDesc (d : List Byte) : List Byte :=
  leBytes 4 (0x80 + slice (rkCtrl d) 8 5 * 2 ^ 8) ++ leBytes 4 0 ++ leBytes 4 (bytesAt d 4 4) ++ leBytes 4 (rkStart d) ++
    leBytes 8 (rkMask d)

/-- A rake job is accepted (R410, R411). -/
def acceptJob (e : Entry) (d : List Byte) (edge : Nat) (ts : List (List Byte)) (s : State) : State :=
  if rkStart d = rkT d edge then finishEntry e.uid 0 (rkT d edge) s
  else
    let o : Order := { uid := e.uid, fn := s.sqFn e.sq, allot := s.get (F.sqCfgAllot e.sq), plot := e.plot, cls := e.cls,
                       desc := rakeOrderDesc d, total := rkT d edge, next := rkStart d, prefix_ := rkStart d, later := [],
                       flags := 0, saturated := false, badIndex := false, ending := none }
    let s1 := { s with
      bed := { s.bed with orders := s.bed.orders ++ [o] },
      rake := { s.rake with jobs := s.rake.jobs ++ [⟨e.uid, d, ts, edge, 0, [], []⟩] } }
    startBinning s1

/-- The fault of a job's target table read: the job stalls, or the entry ends. -/
def stallEntry (e : Entry) (x : VaErr) (s : State) : State :=
  match x with
  | .err m => finishEntry e.uid (s.errWord m) 0 s
  | .fault reason level va =>
    let r := reportFault (s.sqFn e.sq) { stream := .rake e.uid, va := va, tag := e.tag, reason := reason, access := .read,
                                         allot := s.get (F.sqCfgAllot e.sq), fatal := false, cls := e.cls, level := level,
                                         source := 65, unit := 0, sq := e.sq, timeUs := 0 } s
    match r.1 with
    | .stalled => r.2
    | .ended status => finishEntry e.uid (dw1 status 0 0) 0 r.2

/-- The target descriptors in a read table. -/
def splitTargets (n : Nat) (bs : List Byte) : List (List Byte) := (List.range n).map (fun i => (bs.drop (32 * i)).take 32)

/-- The rake takes a dispatched RAKE entry. -/
def takeJob (e : Entry) (d : List Byte) (s : State) : State :=
  if s.isShut 65 then finishEntry e.uid (s.islandWord 0x11 65) 0 s
  else if s.isStalled (.rake e.uid) || !s.isOpen 65 then s
  else
    match s.plotCfg e.plot with
    | none => finishEntry e.uid (dw1 0x41 0xB3 0) 0 s
    | some p =>
      let edge := tileEdge p.tile
      if !rkDescOk d edge then finishEntry e.uid (dw1 0xF0 0xC0 0) 0 s
      else
        let n := rkTargets d
        let r := vaRead s.rakeReq (s.sqFn e.sq) (s.get (F.sqCfgAllot e.sq)) (rkTargetsVa d) (32 * n) .read false s
        match r.1 with
        | .error x => stallEntry e x r.2
        | .ok bs =>
          let ts := splitTargets n bs
          match r.2.rakeCheck p d ts edge with
          | some w => finishEntry e.uid w 0 r.2
          | none => acceptJob e d edge ts r.2

/-- A row of the rake: a dispatched RAKE entry of that MODE. -/
def rakeRow (fusion : Bool) (uid : Nat) (s : State) : Out :=
  .next (match s.entry uid with
    | none => s
    | some e =>
      match e.desc with
      | none => s
      | some d => if e.opcode = 3 ∧ rkFusion d = fusion ∧ s.isOpen 56 ∧ (s.order uid).isNone then takeJob e d s else s)

/-- RAKE_RASTER (R403, R405, R410). -/
def execRakeRaster (uid : Nat) (s : State) : Out := rakeRow false uid s
/-- RAKE_FUSION (R403, R410, R417). -/
def execRakeFusion (uid : Nat) (s : State) : Out := rakeRow true uid s

/-! Binning (R406, R407) -/

/-- floor(v / 2^lg) of a finite value. -/
def floorShift (lg : Nat) (v : FVal) : Int :=
  match v with
  | .num neg m e =>
    let n : Int := if neg then -(m : Int) else m
    let k := e - lg
    if 0 ≤ k then n * 2 ^ k.toNat else n / (2 ^ (-k).toNat : Int)
  | _ => 0

/-- The tile column or row of a coordinate, clamped to n tiles (R406). -/
def tileIndex (lg n : Nat) (v : FVal) : Nat :=
  match v with
  | .inf neg => if neg then 0 else n - 1
  | x => min (n - 1) (floorShift lg x).toNat

/-- The lower or upper of two values that are no NaN. -/
def lowVal (a b : FVal) : FVal := if b.lt a then b else a
def highVal (a b : FVal) : FVal := if a.lt b then b else a

/-- The log of the tile edge. -/
def edgeLog (edge : Nat) : Nat := if edge = 16 then 4 else if edge = 32 then 5 else 6

/-- The tiles that a box touches, ascending; none if it is culled (R406). -/
def boxTiles (d : List Byte) (edge : Nat) (xs ys : List FVal) : Option (List Nat) :=
  match xs, ys with
  | x :: xr, y :: yr =>
    if (xs ++ ys).any (fun v => v.isNan) then none
    else
      let minX := xr.foldl lowVal x
      let maxX := xr.foldl highVal x
      let minY := yr.foldl lowVal y
      let maxY := yr.foldl highVal y
      let zero := FVal.num false 0 0
      if maxX.lt zero || !minX.lt (.num false (rkWidth d) 0) || maxY.lt zero || !minY.lt (.num false (rkHeight d) 0) then none
      else
        let c := rkCols d edge
        let r := ceilDiv (rkHeight d) edge
        let lg := edgeLog edge
        let tx0 := tileIndex lg c minX
        let ty0 := tileIndex lg r minY
        some ((List.range (tileIndex lg r maxY + 1 - ty0)).flatMap (fun j =>
          (List.range (tileIndex lg c maxX + 1 - tx0)).map (fun i => (ty0 + j) * c + tx0 + i)))
  | _, _ => none

/-- What binning makes of a record: the tiles it is listed in, its reject code (0 none, 1–5 of Table 17.9, 6 culled),
its projection record. -/
structure Binned where
  tiles : List Nat
  code  : Nat
  proj  : List Byte
  deriving DecidableEq, Repr

/-- An FP32 coordinate of a record. -/
def coord (r : List Byte) (at_ : Nat) : FVal := fp32.decode (bytesAt r at_ 4)

/-- A RASTER record (R405, R406). -/
def binRaster (d : List Byte) (edge : Nat) (r : List Byte) : Binned :=
  let kind := slice (bytesAt r 0 4) 0 2
  let xs := fun (n : Nat) => (List.range n).map (fun i => coord r (8 + 8 * i))
  let ys := fun (n : Nat) => (List.range n).map (fun i => coord r (12 + 8 * i))
  if kind = 0 then ⟨[], 0, []⟩
  else if kind = 3 then ⟨[], 6, []⟩
  else
    let n := if kind = 1 then 3 else 2
    match boxTiles d edge (xs n) (ys n) with
    | some ts => ⟨ts, 0, []⟩
    | none => ⟨[], 6, []⟩

/-- The quotient of two FP32 values under RN (R417). -/
def div32 (a b : Nat) : FRes :=
  let x := fp32.decode a
  let y := fp32.decode b
  match x, y with
  | .num s m e, .num s' m' e' =>
    if m' = 0 then (if m = 0 then fp32.nanRes true false false else .plain (fp32.inf (s != s')) DIVZERO)
    else fp32.round .rn (s != s') (m * 2 ^ 64 / m') (e - e' - 64) (m * 2 ^ 64 % m' ≠ 0)
  | .inf s, .num s' _ _ => .plain (fp32.inf (s != s')) 0
  | .num s _ _, .inf s' => .plain (fp32.signed (s != s') 0) 0
  | _, _ => fp32.nanRes true false false

/-- A projection record (Table 17.9). -/
def projBytes (fx fy tile reason : Nat) : List Byte := leBytes 4 fx ++ leBytes 4 fy ++ leBytes 4 tile ++ leBytes 4 reason

/-- A rejected detection. -/
def rejected (fx fy reason : Nat) : Binned := ⟨[], reason, projBytes fx fy 0xFFFFFFFF reason⟩

/-- The tile that holds a cell position; a position outside the grid has none, and a free value stands there. -/
def tileHolding (d : List Byte) (edge free : Nat) (px py : FVal) : Nat :=
  match boxTiles d edge [px] [py] with
  | some (t :: _) => t
  | _ => free % 2 ^ 32

/-- A FUSION record with its homography entry (R417, R418). -/
def binFusion (d : List Byte) (edge free : Nat) (r h : List Byte) : Binned :=
  let score := coord r 8
  let cls := bytesAt r 1 1
  let hm := fun (i : Nat) => bytesAt h (4 * i) 4
  if score.isNan || score.lt (fp32.decode (rkFloat d 4)) then rejected 0 0 1
  else if 31 < cls || !bit (bytesAt d 0x4C 4) cls then rejected 0 0 2
  else if !bit (bytesAt h 36 4) 0 then rejected 0 0 3
  else
    let u := (fp32.mul .rn (fp32.add .rn (bytesAt r 0x10 4) (bytesAt r 0x18 4)).bits 0x3F000000).bits
    let v := bytesAt r 0x1C 4
    let row := fun (i : Nat) =>
      (fp32.add .rn (fp32.fma .rn (hm (3 * i + 1)) v (fp32.mul .rn (hm (3 * i)) u).bits).bits (hm (3 * i + 2))).bits
    let w := row 2
    let fx := (div32 (row 0) w).bits
    let fy := (div32 (row 1) w).bits
    let wv := fp32.decode w
    if (!wv.isNan && !(FVal.num false 0 0).lt wv) || !finite32 fx || !finite32 fy then rejected fx fy 4
    else
      let cell := rkFloat d 2
      let px := (div32 (fp32.sub .rn fx (rkFloat d 0)).bits cell).bits
      let py := (div32 (fp32.sub .rn fy (rkFloat d 1)).bits cell).bits
      let rc := (div32 (rkFloat d 3) cell).bits
      let lo := fun (p : Nat) => fp32.decode (fp32.sub .rn p rc).bits
      let hi := fun (p : Nat) => fp32.decode (fp32.add .rn p rc).bits
      match boxTiles d edge [lo px, hi px] [lo py, hi py] with
      | none => rejected fx fy 5
      | some ts => ⟨ts, 0, projBytes fx fy (tileHolding d edge free (fp32.decode px) (fp32.decode py)) 0⟩

/-- Read and bin the records from index i on. -/
def binRecords (j : RakeJob) (o : Order) : Nat → Nat → State → Except VaErr (List Binned) × State
  | 0, _, s => (.ok [], s)
  | n + 1, i, s =>
    let r := vaRead s.rakeReq o.fn o.allot (rkPrimVa j.desc + 32 * i) 32 .read false s
    match r.1 with
    | .error e => (.error e, r.2)
    | .ok rec_ =>
      let h : Except VaErr (List Byte) × State :=
        if rkFusion j.desc then
          vaRead r.2.rakeReq o.fn o.allot (rkHomogVa j.desc + 48 * (bytesAt rec_ 0 1 % 64)) 40 .read false r.2
        else (.ok [], r.2)
      match h.1 with
      | .error e => (.error e, h.2)
      | .ok hs =>
        let d := h.2.draw
        let b := if rkFusion j.desc then binFusion j.desc j.edge d.1 rec_ hs else binRaster j.desc j.edge rec_
        let rest := binRecords j o n (i + 1) (if rkFusion j.desc then d.2 else h.2)
        (rest.1.map (fun l => b :: l), rest.2)

/-- The list of each tile: indices of the records that touch it, ascending (R407). -/
def tileLists (t : Nat) (bs : List Binned) : List (List Nat) :=
  (List.range t).map (fun k => ((List.zip (List.range bs.length) bs).filter (fun p => p.2.tiles.contains k)).map (fun p => p.1))

/-- OFFSET and COUNT of each list, the pool beginning behind the table (Table 17.4). -/
def listTable : Nat → List (List Nat) → List (Nat × Nat)
  | _, [] => []
  | off, l :: r => (off, l.length) :: listTable (off + 4 * l.length) r

/-- RAKE_ENTRIES and the reject counters of a binning (Table 17.10). -/
def countBinning (entries : Nat) (bs : List Binned) (s : State) : State :=
  let n := fun (c : Nat) => (bs.filter (fun b => b.code == c)).length
  (((((s.wr R.rakeEntries (BitVec.ofNat 32 entries)).bump F.rakeReject0Culled (n 6)).bump F.rakeReject0ScoreClass (n 1 + n 2)).bump
    F.rakeReject1NoHomog (n 3)).bump F.rakeReject1Behind (n 4)).bump F.rakeReject2Outside (n 5)

/-- Write what binning produces: projection records, the tile table and the lists. -/
def writeBins (j : RakeJob) (o : Order) (bs : List Binned) (lists : List (List Nat)) (s : State) : Option VaErr × State :=
  let q := s.rakeReq
  let p : Option VaErr × State :=
    if rkFusion j.desc then vaWrite q o.fn o.allot (rkProjVa j.desc) (bs.flatMap (fun b => b.proj)) false s else (none, s)
  match p.1 with
  | some e => (some e, p.2)
  | none =>
    let t := listTable (8 * lists.length) lists
    vaWrite q o.fn o.allot (rkBinVa j.desc)
      (t.flatMap (fun e => leBytes 4 e.1 ++ leBytes 4 e.2) ++ lists.flatMap (fun l => l.flatMap (fun i => leBytes 4 i))) false p.2

/-- The job in binning has read its records: its lists are written and its shading begins, or the job completes with
OUTPUT_FULL (R407, R411, R423). What an overflowing binning writes to bin memory is left out (log entry 21). -/
def finishBinning (j : RakeJob) (o : Order) (s : State) : State :=
  let r := binRecords j o (rkPrims j.desc) 0 s
  match r.1 with
  | .error e => stallRake o e .read r.2
  | .ok bs =>
    let lists := tileLists o.total bs
    let entries := (lists.map List.length).foldl (· + ·) 0
    let need := 8 * o.total + 4 * entries
    if rkBinBytes j.desc < need then
      let s1 := countBinning entries bs r.2
      let s2 := { s1 with bed := { s1.bed with orders := s1.bed.orders.filter (fun x => x.uid ≠ j.uid) } }
      dropJob j.uid (completeEntry j.uid ⟨0x70, 0, o.flags % 256, need⟩ s2)
    else
      let w := writeBins j o bs lists r.2
      match w.1 with
      | some e => stallRake o e .write w.2
      | none =>
        startBinning (putJob { j with phase := 2, table := listTable (8 * lists.length) lists } (countBinning entries bs w.2))

/-- BINNING_DONE (R407, R411). -/
def execBinningDone (s : State) : Out :=
  .next (match s.rake.jobs.find? (fun j => j.phase == 1) with
    | none => s
    | some j =>
      match s.order j.uid with
      | none => s
      | some o => if !s.isOpen 65 || s.orderStalled j.uid then s else finishBinning j o s)

/-! Resolve (R412, R413) -/

/-- Write the valid rows of a target, from row y on. -/
def resolveRows (j : RakeJob) (o : Order) (t n c : Nat) (tg : List Byte) : Nat → Nat → State → Option VaErr × State
  | 0, _, s => (none, s)
  | k + 1, y, s =>
    let p := j.part t
    let b := tgBytes tg
    let row : Except MemErr (List Byte) × State :=
      if n = 48 then (.ok ((List.range p.2.2.1).flatMap (fun _ => (tg.drop 0x10).take b)), s)
      else physRead s.rakeReq (bedBase n + j.offset c + y * j.edge * b) (p.2.2.1 * b) s
    match row.1 with
    | .error e => (some (.err e), row.2)
    | .ok bs =>
      let w := vaWrite row.2.rakeReq o.fn o.allot (tgBase tg + (p.2.1 + y) * tgPitch tg + p.1 * b) bs false row.2
      match w.1 with
      | some e => (some e, w.2)
      | none => resolveRows j o t n c tg k (y + 1) w.2

/-- Resolve the targets of a tile from target c on: those with STORE, and for a tile with an empty list those with
CLEAR and STORE. -/
def resolveTargets (j : RakeJob) (o : Order) (t n : Nat) : Nat → List (List Byte) → State → Option VaErr × State
  | _, [], s => (none, s)
  | c, tg :: rest, s =>
    if tgDiscard tg || (n == 48 && tgLoad tg != 0) then resolveTargets j o t n (c + 1) rest s
    else
      let r := resolveRows j o t n c tg (j.part t).2.2.2 0 s
      match r.1 with
      | some e => (some e, r.2)
      | none => resolveTargets j o t n (c + 1) rest r.2

/-- The next resolve of a job ends: its bed is free, and COUNT advances (R413, R414). -/
def resolveTile (j : RakeJob) (o : Order) (n : Nat) (s : State) : State :=
  let t := o.prefix_
  let r := resolveTargets j o t n 0 j.targets s
  match r.1 with
  | some e => stallRake o e .write r.2
  | none =>
    let s1 := putJob { j with shaded := j.shaded.filter (fun x => x.1 ≠ t) } r.2
    let s2 := if n = 48 then s1
      else changeBed n (fun b => { b with groups := b.groups.filter (fun g => !(g.2.uid = j.uid && g.2.tile = t)) }) s1
    let s3 := refreshRake (orderTileDone j.uid t s2)
    if n = 48 then s3 else yieldAtEnd n s3

/-- A shaded tile's bed holds it now: it is not saved away. -/
def State.holdsTile (s : State) (n uid tile : Nat) : Bool :=
  n == 48 || (s.isOpen (n + 4) && (s.bedAt n).groups.any (fun g => g.2.uid = uid && g.2.tile = tile))

/-- RESOLVE_DONE (R413). -/
def execResolveDone (uid : Nat) (s : State) : Out :=
  .next (match s.rakeJob uid, s.order uid with
    | some j, some o =>
      match j.shaded.find? (fun x => x.1 = o.prefix_) with
      | none => s
      | some x => if s.isOpen 65 && !s.orderStalled uid && s.holdsTile x.2 uid x.1 then resolveTile j o x.2 s else s
    | _, _ => s)

end Sys2Proof.Machine
end

