-- ==== Sys2Proof/Machine/Work.lean ====
section
/-! DEFINITION. Work that something else ends: a close of an island, a drain, a fault answer, a plan change (spec/02
R57, R59, spec/03 R100, spec/05 R131, spec/07 Table 7.2, spec/11 R295, R297, spec/12 R314–R316, spec/15 R387, spec/22
R530). -/
namespace Sys2Proof.Machine

/-! One stream, one entry -/

/-- A waiting or running transfer of an entry. -/
def State.transferOf (s : State) (uid : Nat) : Option Transfer := s.hose.transfers.find? (fun t => t.uid = uid)

/-- A drain meets the transfer of an entry (R314): a waiting one completes with PARTIAL at its start. -/
def cutTransfer (t : Transfer) (s : State) : State :=
  if t.begun then drainChannel t.engine t.channel s
  else refreshChannel t.engine t.channel
    (completeEntry t.uid ⟨2, 0, 0, t.slab⟩ (dropTransfer t.engine t.channel t.uid s))

/-- A drain's CUT meets the work of an entry. -/
def cutEntry (uid : Nat) (s : State) : State :=
  match s.order uid, s.transferOf uid, s.furrowJob uid, s.evidReq uid with
  | some _, _, _, _ => cutOrder uid s
  | none, some t, _, _ => cutTransfer t s
  | none, none, some j, _ => cutFurrow j s
  | none, none, none, some r => workStore (cutEvid r s)
  | none, none, none, none => s

/-- The work of an entry is under way in a unit. -/
def State.begun (s : State) (uid : Nat) : Bool :=
  (s.order uid).isSome || (s.transferOf uid).isSome || (s.furrowJob uid).isSome || (s.evidReq uid).isSome

/-- The entry whose descriptor read from device memory stalls SQ r. -/
def State.stalledFetch (s : State) (r : Nat) : Option Entry :=
  s.host.entries.find? (fun e => e.sq = r && e.desc.isNone && e.descVirtual)

/-- A stalled stream ends with a status (R290, R291, R295, R297). -/
def endStream (st : Stream) (status : Nat) (s : State) : State :=
  match st with
  | .hose e c => endTransfer e c ⟨status, 0, 0, 0⟩ s
  | .order uid _ _ => endOrder uid (dw1 status 0 0) s
  | .rake uid =>
    let s1 := unstall st s
    if (s1.order uid).isSome then endOrder uid (dw1 status 0 0) s1 else finishEntry uid (dw1 status 0 0) 0 s1
  | .furrow uid => endFurrow uid (dw1 status 0 0) ((s.furrowJob uid).elim 0 (fun j => j.count)) s
  | .sqFetch r =>
    let s1 := unstall st s
    match s1.stalledFetch r with
    | some e => finishEntry e.uid (dw1 status 0 0) 0 s1
    | none => s1
  | .evidence uid =>
    match s.evidReq uid with
    | some r => workStore (endEvid uid (dw1 status 0 0) r.done s)
    | none => unstall st s
  | .slot i => skipFeed i (unstall st s)
  | _ => unstall st s

/-! What the urgent lane shows and records (Tables 22.2 and 22.4) -/

/-- The effective clock of a bed lies below 400 MHz: its clock times LIMIT_RATIO / 8 (R524). -/
def State.slowBed (s : State) (n : Nat) : Bool :=
  s.get (F.islandClockFreqMhz (n + 4)) * s.get F.fenceStateLimitRatio < 3200

/-- URGENT_STATUS from the link, the beds of class-0 plots and the hose channels, and REASON 1 and 2 for the class-0
entries that they concern. -/
def refreshUrgent (s : State) : State :=
  if s.isShut 60 then s
  else
    let slow := s.plan.active.plots.any (fun p => bit p.classes 0 && (maskList 48 p.beds).any s.slowBed)
    let aspm := s.get F.hostqLinkAspmL1
    let s1 := s.puts [(F.hostqUrgentStatusAspmL1, aspm), (F.hostqUrgentStatusSlowClock, b2n slow),
      (F.hostqUrgentStatusNoClass0Hose, b2n s.noClass0)]
    s1.each s1.bed.urgent (fun u t =>
      let t1 := if aspm = 1 then urgentReason u.uid 1 t else t
      if (t1.bedsOf u.uid).any t1.slowBed then urgentReason u.uid 2 t1 else t1)

/-! Closes -/

/-- Gardener 0 closes (Table 7.2): orders end at their next tile boundary, and every other entry that it had taken and
not handed on to another unit completes with COUNT 0, one whose read was under way included (log entry 27). -/
def closeGardener0 (s : State) : State :=
  let w := s.islandWord 0x11 56
  let s := reasonFor 4 (fun _ => true) (fun _ => true) s
  let s1 := s.each s.bed.orders (fun o t => endAtBoundary o.uid w t)
  let rest := s1.host.entries.filter (fun e => !s1.begun e.uid)
  let s2 := s1.each rest (fun e t => finishEntry e.uid w 0 (unstall (.sqFetch e.sq) t))
  let s3 := s2.each s2.host.heads (fun h t =>
    let e := h.2
    let t1 := t.put (F.sqStatusHead h.1) ((t.get (F.sqStatusHead h.1) + 1) % t.sqSize h.1)
    completeHead h.1 (bytesAt e 4 4) (bytesAt e 1 1 % 4) (bit (bytesAt e 1 1) 3) ⟨slice w 0 8, slice w 8 8, slice w 16 16, 0⟩ t1)
  { s3 with host := { s3.host with
    heads := [],
    reads := s3.host.reads.map (fun r => match r.purpose with
      | .entry q => { r with purpose := .lost q w }
      | _ => r) } }

/-- A shed slice closes outside a graft: the state of every preempted bed, which lies across the slices' spill ways, is
lost, and the orders in it end (R530). -/
def loseSpills (n cause : Nat) (s : State) : State :=
  if cause = 4 then s
  else
    let w := s.islandWord 0x11 n
    s.each (List.range 48) (fun b t =>
      match (t.bedAt b).saved with
      | none => t
      | some v =>
        let uids := (v.built.elim [] (fun x => [x.uid])) ++ v.groups.map (fun g => g.2.uid)
        changeBed b (fun x => { x with saved := none }) (t.each uids (fun u x => endOrder u w x)))

/-- Island 60 closes: every stalled stream ends with FAULT_ABORTED (R295), and an entry whose descriptor is being read
from host memory ends with ISLAND_RESET, since the read is answered so (R24). -/
def endStalls (s : State) : State :=
  let w := s.islandWord 0x11 60
  let s1 := s.each s.mmu.stalls (fun x t => endStream x.stream 0x30 t)
  s1.each s1.host.reads (fun r t =>
    match r.purpose with
    | .descriptor uid => finishEntry uid w 0 t
    | _ => t)

/-- The rake closes (R426). -/
def closeRake (s : State) : State :=
  let w := s.islandWord 0x11 65
  s.each s.rake.jobs (fun j t => endOrder j.uid w t)

/-- The work that a close of island n ends. -/
def closeWork (n cause : Nat) (s : State) : State :=
  if 4 ≤ n ∧ n < 52 then closeBed (n - 4) s
  else if 52 ≤ n ∧ n < 56 then loseSpills n cause s
  else if n = 56 then closeGardener0 s
  else if n = 60 then endStalls s
  else if n = 65 then closeRake s
  else if n = 66 then closeFurrows s
  else if n = 3 then { s with acou := .reset }
  else if n = 58 then closeSeedkeeper s
  else if n = 67 then closeGroups 0 (closeHose 0 s)
  else if n = 68 then workStore (endPktAppends 68 (closeGroups 1 (closeHose 1 s)))
  else if n = 57 then closeGardener1 s
  else if n = 61 then { s with switch := .reset }
  else if n = 62 then closeIntake (endPktAppends 62 s)
  else if n = 63 ∨ n = 64 then closeDecoder (n - 63) s
  else s

/-! Drains -/

/-- Running work is cut at its next boundary for a power-state entry (R131, R297): stalled streams end at once. -/
def cutForSettle (s : State) : State :=
  let s1 := s.each s.bed.orders (fun o t => cutOrder o.uid t)
  let s2 := (s1.each s1.hose.transfers (fun x t => cutEntry x.uid t)).each s1.furrow.jobs (fun j t => cutEntry j.uid t)
  workStore (settleEvid (s2.each s2.mmu.stalls (fun x t => endStream x.stream 0x30 t)))

/-- An order has started a tile. -/
def Order.started (o : Order) : Bool := o.next != woStart o.desc

/-- The plan command in progress drains every plot: LOAD and FALLBACK (R57). -/
def State.replans (s : State) : Bool := s.plan.job.elim false (fun j => j.op != 2)

/-- The orders that a plan command drains: every one for a replan, the running ones of paused plots for a graft; an
order with no tile started waits with its plot (R59). -/
def State.draining (s : State) : List Order :=
  s.bed.orders.filter (fun o => s.replans || (s.plan.paused.contains o.plot && (o.started || s.orderStalled o.uid)))

/-- The island that a VA of a transfer lies in: a bed by the aperture, a shed slice by its line; none where it does not
translate. -/
def State.endpoint (s : State) (t : Transfer) (va : Nat) (a : Access) : Option Nat :=
  match (translate ⟨67 + t.engine, 1, 0, false⟩ t.fn t.allot va a false s).1 with
  | .error _ => none
  | .ok x =>
    if x.host then none
    else
      let pa := x.out + (va - x.va)
      match s.region pa with
      | .bed n => some (n + 4)
      | _ => some (52 + s.sliceOf (pa / 128 * 128))

/-- A transfer has an endpoint in a named island: where its slab in progress begins in source and destination, or the
bed of its semaphore credit. -/
def State.touches (s : State) (named : List Nat) (t : Transfer) : Bool :=
  let at_ := fun (src : Bool) => s.endpoint t (hdAddr t.desc src t.slab 0) (if src then .read else .write)
  (hdKind t.desc == 0 && (at_ true).elim false named.contains) || (at_ false).elim false named.contains ||
    (hdMode t.desc == 2 && named.contains (slice (hdCredit t.desc) 0 6 + 4))

/-- The transfers that a plan command drains (R57, R59). -/
def State.drainingTransfers (s : State) : List Transfer :=
  match s.plan.job with
  | none => []
  | some j => s.hose.transfers.filter (fun t => j.op != 2 || s.touches j.named t)

/-- The furrow jobs that a plan command drains: every one for a replan, and those of a graft that names island 66
(R481). -/
def State.drainingJobs (s : State) : List FurrowJob :=
  match s.plan.job with
  | none => []
  | some j => if j.op ≠ 2 ∨ j.named.contains 66 then s.furrow.jobs else []

/-- A graft stops the transfers with an endpoint in a named island at their next slab boundary (R59). -/
def stopEndpoints (s : State) : State := s.each s.drainingTransfers (fun x t => cutEntry x.uid t)

/-- The work that a plan command drains is cut (R57, R59). -/
def cutPaused (s : State) : State :=
  let s1 := stopEndpoints (s.each s.draining (fun o t => cutOrder o.uid t))
  s1.each s1.drainingJobs (fun j t => cutEntry j.uid t)

/-- The work that a plan command drains has ended (R57, R59). -/
def State.workDrained (s : State) : Bool :=
  s.draining.isEmpty && s.drainingTransfers.isEmpty && s.drainingJobs.isEmpty

/-- The word of an order that waited for a deleted plot (R100): ISLAND_RESET, CAUSE 4; no island is named, and the rest
of the word is a free value (log entry 1). -/
def deletedWord (d : Nat) : Nat := 0x11 + 2 ^ 8 * (d % 2 ^ 16) + 2 ^ 24 * 4 + 2 ^ 28 * (d / 2 ^ 16 % 16)

/-- Heads that waited in their rings for a plot which no longer exists complete with COUNT 0 (R100). -/
def dropDeletedHeads (s : State) : State :=
  s.each (s.host.heads.filter (fun h => (bytesAt h.2 0 1 == 1 || bytesAt h.2 0 1 == 3) && (s.plotCfg (bytesAt h.2 2 1 % 16)).isNone))
    (fun h t =>
      let d := t.draw
      let w := deletedWord d.1
      let t1 := { d.2 with host := { d.2.host with heads := d.2.host.heads.erase h } }
      let t2 := t1.put (F.sqStatusHead h.1) ((t1.get (F.sqStatusHead h.1) + 1) % t1.sqSize h.1)
      completeHead h.1 (bytesAt h.2 4 4) (bytesAt h.2 1 1 % 4) (bit (bytesAt h.2 1 1) 3)
        ⟨slice w 0 8, slice w 8 8, slice w 16 16, 0⟩ t2)

/-- Orders that wait for a plot which no longer exists complete with COUNT 0 (R100); orders whose BED_MASK names no bed
of their plot any more complete with WO_BEDS. -/
def dropDeleted (s : State) : State :=
  (dropDeletedHeads s).each s.bed.orders (fun o t =>
    match t.plotCfg o.plot with
    | none =>
      let d := t.draw
      endOrder o.uid (deletedWord d.1) (putOrder { o with prefix_ := 0 } d.2)
    | some _ => if (t.bedsFor o).isEmpty then endOrder o.uid (dw1 0x41 0xB3 0) t else t)

/-- Gardener 1 settles (R131 step 3): the intake and the decoders have stopped, and the main link goes idle. -/
def settleStreams (s : State) : State := { s with disp := { s.disp with idle := true } }

/-- Every open fault batch closes at the start of SETTLE (R297). -/
def closeBatches (s : State) : State := s.each (List.range 8) closeBatch

end Sys2Proof.Machine
end

