-- ==== Sys2Proof/Machine/Units.lean ====
section
/-! DEFINITION. One close, one opening, one power-up and one power-down of an island with all that the units do then:
clocks (R79, R159), epochs and broadcasts (R21, R29), pending requests (R24, Table 1.2), and the reset of what the
island holds. -/
namespace Sys2Proof.Machine

/-! Clocks -/

/-- A clock in MHz rounded down to a multiple of 12.5 MHz, in whole MHz (R79). -/
def roundClock (mhz : Nat) : Nat := mhz * 2 / 25 * 25 / 2

/-- The clock of memory channels for a RATE code, in whole MHz (Table 3.3). -/
def rateClock (rate : Nat) : Nat :=
  match rate with
  | 0 => 1066
  | 1 => 937
  | 2 => 800
  | 3 => 687
  | _ => 533

/-- The fixed clocks of Table 1.1, in whole MHz. -/
def fixedClock (n : Nat) : Option Nat :=
  match n with
  | 1 => some 25
  | 2 => some 25
  | 3 => some 24
  | 59 => some 400
  | 60 => some 500
  | 61 => some 312
  | _ => none

/-- Clock of an island before PLAN_APPLY has set one (Table 4.17; island 0 at the ROM's clock, log entry 9). -/
def startClock (n : Nat) : Nat :=
  if n = 0 then 200 else if 52 ≤ n ∧ n ≤ 55 then 600 else if n = 56 ∨ n = 57 then 400 else if n = 58 then 200 else 0

/-- Island n is a bed. -/
def isBed (n : Nat) : Bool := 4 ≤ n && n < 52

/-- The ISLAND word in force for an island. -/
def State.islandCfg (s : State) (n : Nat) : IslandCfg := s.plan.active.islands.getD n ⟨false, 0, 0, 0⟩

/-- Islands whose clock needs VDD_CORE above V_LO (R546, R547). -/
def avsIsland (n : Nat) : Bool := (4 ≤ n && n ≤ 58) || (62 ≤ n && n ≤ 68) || n == 71

/-- The voltage in mV that a clock of f MHz asks for, rounded up to 5 mV (R546). -/
def curveRaw (f : Nat) : Nat :=
  if f ≤ 400 then Config.vLoMv
  else ceilDiv (Config.vLoMv * 700 + (Config.vHiMv - Config.vLoMv) * (f - 400)) 3500 * 5

/-- The VDD_CORE target in mV for a clock of f MHz (R546). -/
def curveMv (f : Nat) : Nat := min 850 (curveRaw f)

/-- The highest clock in MHz whose curve voltage lies at or below a voltage (R547); at least 400 MHz, which closes
timing at V_LO. -/
def curveMhz (mv : Nat) : Nat :=
  ((List.range 1101).filter (fun f => 400 ≤ f && curveMv f ≤ mv)).foldl max 400

/-- The limit that VDD_CORE sets to a clock: the cap of R547, and while a raised target is awaited the clock that the
old voltage allows (R546). -/
def State.voltageLimit (s : State) (n f : Nat) : Nat :=
  if !avsIsland n then f
  else
    let a := s.fence.avsCap.elim f (fun c => min f c)
    s.fence.raising.elim a (fun mv => min a (curveMhz mv))

/-- The PLL clock of an island under every limit but voltage (R159): the plan's clock, its THROTTLE clock under soft
THROTTLE, and for beds the power-cap ceiling and 400 MHz under HW_THROTTLE. -/
def State.limitedClock (s : State) (n : Nat) : Nat :=
  match fixedClock n with
  | some c => if s.power = 4 then 1 else c
  | none =>
    if n = 69 ∨ n = 70 then rateClock (s.get (F.memcCfgRate (n - 69)))
    else
      let c := s.islandCfg n
      let f := if c.freq = 0 then startClock n else roundClock c.freq
      let f1 := if s.get F.fenceStateSoftThrottle = 1 ∧ c.throttle ≠ 0 then min f (roundClock c.throttle) else f
      if isBed n then
        let f2 := if s.get F.fenceStateBedCeiling ≠ 0 then min f1 (s.get F.fenceStateBedCeiling) else f1
        if s.get F.fenceStateHwThrottle = 1 then min f2 400 else f2
      else f1

/-- The PLL clock of an island (R159, R546, R547). -/
def State.clockOf (s : State) (n : Nat) : Nat := s.voltageLimit n (s.limitedClock n)

/-- The clock source of an island (R18, Table 1.1). -/
def State.sourceOf (s : State) (n : Nat) : Nat :=
  if n = 60 then 1 else if n = 61 then 2 else if (n = 1 ∨ n = 2) ∧ s.power = 4 then 3 else 0

/-- ISLAND_CLOCK_n: the clock and its source; 0 and "stopped" for a STOPPED or DARK island (Table 1.7). -/
def setClock (n : Nat) (s : State) : State :=
  let h := s.hedge n
  if h = STOPPED ∨ h = DARK then s.puts [(F.islandClockFreqMhz n, 0), (F.islandClockSource n, 4)]
  else s.puts [(F.islandClockFreqMhz n, s.clockOf n), (F.islandClockSource n, s.sourceOf n)]

/-- ISLAND_CLOCK of every island that is not DARK, after a limit or plan changed (R160). -/
def refreshClocks (s : State) : State :=
  refreshUrgent (s.each (List.range 72) (fun n t => if t.hedge n = DARK then t else setClock n t))

/-! Epoch views and broadcasts -/

/-- A trellis stop is powered: those of islands 4–71 lose power in Fallow and deeper (R31). -/
def State.stopPowered (s : State) (n : Nat) : Bool :=
  if s.power < 2 then true else if n = 0 ∨ n = 3 then s.power < 4 else n < 4

/-- The epoch view of a stop (R21, R22). -/
def State.view (s : State) (stop n : Nat) : Nat :=
  (s.isl.views.find? (fun e => e.1 = stop * 128 + n)).elim 0 (fun e => e.2)

/-- A stop takes up an epoch in its view. -/
def setView (stop n e : Nat) (s : State) : State :=
  let k := stop * 128 + n
  { s with isl := { s.isl with views := (k, e) :: s.isl.views.filter (fun x => x.1 ≠ k) } }

/-- Island 1 broadcasts an epoch to every powered stop (R29); a newer epoch replaces one not yet taken up. -/
def broadcast (n : Nat) (s : State) : State :=
  let b : Broadcast := ⟨n, s.epoch n, (List.range 72).filter s.stopPowered⟩
  { s with isl := { s.isl with broadcasts := b :: s.isl.broadcasts.filter (fun x => x.island ≠ n) } }

/-- A stop that regains power loads its whole view from island 1's epoch table. -/
def loadViews (stop : Nat) (s : State) : State := s.each (List.range 72) (fun n t => setView stop n (t.epoch n) t)

/-! Requests and replies held in a crossing -/

/-- A request at an OPEN hedge: accepted, or answered with STALE_EPOCH (R25). -/
def meetOpen (t : Tracked) (s : State) : State :=
  if t.dstEpoch = s.epoch t.dst then
    { s with isl := { s.isl with tracked := s.isl.tracked.map (fun x => if x = t then { x with held := false } else x) } }
  else answerError 0x10 0 t s

/-- Retire a tracked request, delivered or discarded. -/
def retire (t : Tracked) (s : State) : State :=
  { s with isl := { s.isl with tracked := s.isl.tracked.filter (fun x => x != t) } }

/-- A reply at the requester's OPEN hedge: delivered if its epoch matches, else discarded and counted (R25). -/
def replyOpen (t : Tracked) (s : State) : State :=
  if t.srcEpoch = s.epoch t.src then retire t s else retire t (s.bump32 (R.islandDiscard t.src) 1)

/-- What the crossing of island n held reaches the island, in order (Table 1.2, R40). -/
def releaseHeld (n : Nat) (s : State) : State :=
  let s1 := s.each (s.isl.tracked.filter (fun t => t.dst = n && t.held)) meetOpen
  let reps := s1.isl.heldReplies.filter (fun r => r.1 = n)
  let s2 := s1.each reps (fun r t =>
    match t.isl.tracked.find? (fun x => x.src = r.1 && x.tag = r.2) with
    | some x => replyOpen x t
    | none => t)
  { s2 with isl := { s2.isl with heldReplies := s2.isl.heldReplies.filter (fun r => r.1 ≠ n) } }

/-! Plan commands and leases at a close -/

/-- A plan command completes: RESULT, DETAIL, DONE and event PLAN; PHASE is IDLE and no plot stays paused. -/
def finishPlan (status detail : Nat) (s : State) : State :=
  let s1 := s.puts [(F.planStatusPhase, 0), (F.planStatusResult, status), (F.planStatusDetail, detail),
    (F.planStatusDone, 1)]
  setEvent 0 { s1 with plan := { s1.plan with job := none, paused := [], staged := [] } }

/-- Slices leave write-through when a plan command ends without closing them (R99). -/
def endWriteThrough (s : State) : State := s.each (List.range 4) (fun k t => t.put (F.shedStatusWriteThrough k) 0)

/-- A close of island 0, 56 or 57 before COMMIT abandons the plan command with LEASE_REVOKED; a STORE ends with a close
of island 0 (R69). -/
def abandonPlan (n : Nat) (s : State) : State :=
  let ph := s.get F.planStatusPhase
  if (n = 0 ∨ n = 56 ∨ n = 57) ∧ (ph = 1 ∨ ph = 2 ∨ ph = 3) then
    let s1 := endWriteThrough s
    let s2 := { s1 with fw := { s1.fw with forCommand := s1.fw.forCommand.filter (fun x => x ≠ 3) } }
    finishPlan 0x12 0 (if n = 0 then s1 else grantNext 3 (freeLease 3 s2))
  else if n = 0 ∧ ph = 6 then finishPlan 0x12 0 s
  else s

/-- A power-state entry before SEQUENCE is abandoned with a RESULT: every processor leaves WAIT (R133, R143, R145). -/
def abandonEntry (result : Nat) (s : State) : State :=
  let ph := s.get F.pwrStatusPhase
  if ph = 1 ∨ ph = 2 then
    let s1 := (s.wr R.pwrMode 0).puts [(F.pwrStatusPhase, 0), (F.pwrStatusResult, result), (F.pwrStatusDone, 1)]
    setEvent 3 { s1 with pwr := { s1.pwr with cut := false, drained := false, after := none } }
  else s

/-! Processors -/

/-- Record a processor's close in BOOT_WDOG_EVENT (Table 7.7). -/
def wdogRecord (p kind outcome : Nat) (s : State) : State :=
  s.wr64 R.bootWdogEvent (s.timeUs % 2 ^ 32 + 2 ^ 32 * p + 2 ^ 34 * kind + 2 ^ 37 * outcome)

/-- Record a processor's close and raise the device event (R176, R178). -/
def wdogEvent (p kind outcome : Nat) (s : State) : State := setEvent 6 (wdogRecord p kind outcome s)

/-- A firmware processor closes for a reload: it awaits the reload, leaves WAIT, and a hot-swap image is lost (R178,
R182, R194). -/
def closeProcessor (n cause : Nat) (s : State) : State :=
  match procOf n with
  | none => s
  | some p =>
    let waitF := [F.pwrModeGkWait, F.pwrModeG0Wait, F.pwrModeG1Wait, F.pwrModeSkWait].getD p F.pwrModeGkWait
    let s1 := s.put waitF 0
    if cause = 3 ∨ cause = 6 ∨ cause = 10 then
      let hot := bit (s1.get F.bootFwStatusHot) p
      let s2 := s1.put F.bootFwStatusPending (listMask (p :: maskList 4 (s1.get F.bootFwStatusPending)))
      let s3 := if hot then
          s2.puts [(F.bootFwStatusHot, s2.get F.bootFwStatusHot - 2 ^ p),
            (F.bootFwStatusReverted, listMask (p :: maskList 4 (s2.get F.bootFwStatusReverted)))]
        else s2
      let s4 := { s3 with fw := { s3.fw with
        running := setAt p .none s3.fw.running,
        hotDigest := s3.fw.hotDigest.filter (fun e => e.1 ≠ p),
        closes := if cause = 6 then s3.fw.closes else (p, s3.timeUs) :: s3.fw.closes } }
      if cause = 10 then wdogEvent p 4 1 s4 else if cause = 6 then wdogRecord p 2 1 s4 else s4
    else s1

/-! Close, open, power -/

/-- What the units do when island n closes: work, memories, leases, plan commands, power entries (R24, R39, R57, R69,
R145, R177, R186, R272). -/
def closeUnits (n cause : Nat) (s : State) : State :=
  let s1 := closeWork n cause s
  let s2 := if isBed n then clearBedMem (n - 4) s1
    else if 52 ≤ n ∧ n ≤ 55 then loseSlice (n - 52) cause s1
    else if n = 60 then loseIsland60 s1
    else if n = 71 then closeDisplay s1
    else if n = 69 ∨ n = 70 then s1.put (F.memcCfgState (n - 69)) 3
    else s1
  let s3 := closeProcessor n cause s2
  let s4 := forceLeases n s3
  let s5 := abandonPlan n s4
  if n = 0 then abandonEntry 7 s5 else s5

/-- Accesses that wait for a line of a slice or of a channel end with it (R24). -/
def loseFills (n : Nat) (s : State) : State :=
  if 52 ≤ n ∧ n ≤ 55 then abortFills n (fun f => s.sliceOf f.pa == n - 52) s
  else if n = 69 ∨ n = 70 then abortFills n (fun f => s.channel f.pa == n - 69) s
  else s

/-- Close the hedge of an island with a cause (R24, R33). A CLOSED or OPENING hedge joins the cycle in progress under
the rank rule; a DARK island stays DARK (R35). -/
def closeIsland (n cause : Nat) (s : State) : State :=
  let h := s.hedge n
  if h = OPEN ∨ h = STOPPED then closeUnits n cause (wakeRegs n (loseFills n (answerPending n (recordClose n cause s))))
  else if h = CLOSED ∨ h = OPENING then
    s.put (F.islandStateLastCause n) (mergeCause (s.get (F.islandStateLastCause n)) cause)
  else s

/-- Flush the event causes that island 1 kept while island 60 was shut (R219). -/
def flushEvents (s : State) : State :=
  let c := s.host.causePending
  { s.each (maskList 14 c) setEvent with host := { (s.each (maskList 14 c) setEvent).host with causePending := 0 } }

/-- BUSY of ISLAND_CTRL clears when the last accepted reset has opened its target (Table 1.11). -/
def clearCtrlBusy (n : Nat) (s : State) : State :=
  let rest := s.isl.ctrlTargets.filter (fun x => x ≠ n)
  { s with isl := { s.isl with ctrlTargets := rest } }.put F.islandCtrlStatusBusy (b2n !rest.isEmpty)

/-- Completions that met a shut island, or waited behind one that did, are written again (R209). -/
def retryWaiting (s : State) : State :=
  s.each (s.host.waiting.map (fun c => c.cq)) (fun r t => drainCq r t.host.waiting.length t)

/-- The configuration that an island holds at its opening, and for island 60 the events kept meanwhile
(R219), for Gardener 0 the doorbells latched meanwhile (R211). -/
def openUnits (n : Nat) (s : State) : State :=
  let s1 := retryWaiting (configureIsland n s)
  if n = 60 then flushEvents s1
  else if n = 56 then readLatched s1
  else if n = 71 then openDisplay s1
  else if n = 57 then workStore (feedDecoders (openGardener1 s1))
  else if n = 58 then openSeedkeeper s1
  else if n = 3 then (if s1.boot.starting then s1 else configureAcoustic s1)
  else if n = 61 then openSwitch s1
  else if n = 62 then openIntake s1
  else if n = 63 ∨ n = 64 then openDecoder (n - 63) s1
  else if 52 ≤ n ∧ n ≤ 55 ∧ !s1.boot.starting then preloadSlice (n - 52) s1
  else s1

/-- A CLOSED hedge passes through OPENING to OPEN: the epoch rises by one and is broadcast, the island's translation
cache is empty, and what its crossing held is delivered (R21, R29, R282). -/
def openIsland (n : Nat) (s : State) : State :=
  if s.hedge n = CLOSED then
    let s1 := (s.put (F.islandStateEpoch n) (s.epoch n + 1)).put (F.islandStateState n) OPEN
    let s2 := setClock n (broadcast n (clearTlb n s1))
    refreshUrgent (releaseHeld n (openUnits n (clearCtrlBusy n s2)))
  else s

/-- Power up a DARK island without a recorded close, as the start steps do (R33). -/
def powerUpQuiet (n : Nat) (s : State) : State :=
  if s.hedge n = DARK then setClock n (coldRegs n s |>.put (F.islandStateState n) CLOSED) else s

/-- Power up a DARK island: it is recorded as a close with its cause, its registers take their Wake column (R33). -/
def powerUp (n cause : Nat) (s : State) : State :=
  if s.hedge n = DARK then setClock n (wakeRegs n (recordClose n cause s)) else s

/-- Power up a DARK island in a wake: a recorded close with cause 2; its registers already took the Warm column (R14,
R33). -/
def powerUpWake (n : Nat) (s : State) : State :=
  if s.hedge n = DARK then setClock n (recordClose n 2 s) else s

/-- Power an island down: an OPEN or STOPPED hedge closes with the cause; a CLOSED one takes the lower rank; both pass
to DARK without an opening (R35). -/
def powerDown (n cause : Nat) (s : State) : State :=
  if s.hedge n = DARK then s
  else
    let s1 := clearCtrlBusy n (closeIsland n cause s)
    setClock n (s1.put (F.islandStateState n) DARK)

end Sys2Proof.Machine
end

