-- ==== Sys2Proof/Machine/Starts.lean ====
section
/-! DEFINITION. Starts: the boot flash and its record log, cold starts, wake starts, failures, halts and the trip
sequence (spec/04, spec/05 R137, spec/06 R154). -/
namespace Sys2Proof.Machine

/-! The boot flash (Table 4.4) -/

/-- Bytes of the boot flash. -/
def State.flashRead (s : State) (a n : Nat) : List Byte := Memory.read flashFill s.mem.flash a n

/-- A little-endian value in the boot flash. -/
def State.flashNat (s : State) (a n : Nat) : Nat := Memory.readNat flashFill s.mem.flash a n

/-- Program bytes of the boot flash. -/
def flashWrite (a : Nat) (bs : List Byte) (s : State) : State :=
  { s with mem := { s.mem with flash := Memory.write flashFill s.mem.flash a bs } }

/-- Erase a range of the boot flash. -/
def flashErase (a n : Nat) (s : State) : State :=
  { s with mem := { s.mem with flash := Memory.fill flashFill s.mem.flash a n 0xFF } }

/-- Offset of the boot record log, and its number of 32-byte records. -/
def LOG_BASE : Nat := 0x40000
def LOG_SLOTS : Nat := 2048

/-- A directory copy is valid: DIR_MAGIC and CRC match (R109). -/
def State.dirValid (s : State) (c : Nat) : Bool :=
  s.flashNat (0x10000 * c) 4 == 0x52494442 && s.flashNat (0x10000 * c + 0x3C) 4 == crc32 (s.flashRead (0x10000 * c) 60)

/-- The directory copy in use: the valid one with the higher DIR_SEQ. -/
def State.dirCopy (s : State) : Option Nat :=
  if s.dirValid 0 && s.dirValid 1 then (if s.flashNat 4 4 < s.flashNat 0x10004 4 then some 1 else some 0)
  else if s.dirValid 0 then some 0 else if s.dirValid 1 then some 1 else none

/-- PREFERRED of the directory, 0 without one (R109). -/
def State.dirPreferred (s : State) : Nat := s.dirCopy.elim 0 (fun c => s.flashNat (0x10000 * c + 8) 1 % 2)

/-- ECC of the directory, 0 without one. -/
def State.dirEcc (s : State) : Nat := s.dirCopy.elim 0 (fun c => s.flashNat (0x10000 * c + 9) 1 % 2)

/-- Write a directory with PREFERRED to the copy that does not hold the newer DIR_SEQ (R109). -/
def writeDir (preferred : Nat) (s : State) : State :=
  let c := s.dirCopy
  let seq := c.elim 0 (fun k => s.flashNat (0x10000 * k + 4) 4)
  let ecc := s.dirEcc
  let body := leBytes 4 0x52494442 ++ leBytes 4 (seq + 1) ++ leBytes 1 preferred ++ leBytes 1 ecc ++ List.replicate 50 0
  let at_ := 0x10000 * (c.elim 0 (fun k => 1 - k))
  flashWrite at_ (body ++ leBytes 4 (crc32 body)) (flashErase at_ 0x10000 s)

/-! Boot records (Table 4.8) -/

/-- Record i of the log. -/
def State.logRec (s : State) (i : Nat) : List Byte := s.flashRead (LOG_BASE + 32 * i) 32

/-- A record is valid: its CRC matches and its TYPE is one of Table 4.8. -/
def recValid (r : List Byte) : Bool :=
  bytesAt r 0x1C 4 == crc32 (r.take 28) && 1 ≤ bytesAt r 0 1 && bytesAt r 0 1 ≤ 5

/-- The valid records of the log with their slots, oldest first (by SEQ). -/
def State.logRecs (s : State) : List (Nat × List Byte) :=
  (((List.range LOG_SLOTS).map (fun i => (i, s.logRec i))).filter (fun e => recValid e.2)).mergeSort
    (fun a b => bytesAt a.2 8 4 ≤ bytesAt b.2 8 4)

/-- The hottest sensor in whole °C, signed. -/
def State.tempC (s : State) : Int := sext 16 (s.get F.fenceTempMaxTemp) / 16

/-- RTC seconds. -/
def State.rtcS (s : State) : Nat := s.timeUs / 1000000

/-- The bytes of a boot record. -/
def recBytes (s : State) (typ slot step status detail info seq : Nat) : List Byte :=
  let body := leBytes 1 typ ++ leBytes 1 (s.get F.bootKindStartKind) ++ leBytes 1 slot ++ leBytes 1 step ++
    leBytes 1 status ++ leBytes 1 detail ++ leBytes 1 (ofInt 8 s.tempC) ++ [0] ++ leBytes 4 seq ++
    leBytes 4 s.rtcS ++ leBytes 4 (s.timeUs - s.boot.startedAt) ++ leBytes 4 info ++ leBytes 4 0
  body ++ leBytes 4 (crc32 body)

/-- The slot for the next record: the first erased one after the newest record; the first slot of a used erase block
counts, and then the block is erased (R117). -/
def nextLogSlot (s : State) : Nat → Nat → Nat
  | 0, i => i % LOG_SLOTS
  | fuel + 1, i =>
    if i % 128 = 0 ∨ (s.logRec (i % LOG_SLOTS)).all (fun b => b = 0xFF) then i % LOG_SLOTS else nextLogSlot s fuel (i + 1)

/-- An erase of the block of a slot would remove the newest SUCCESS or CLEAR record or one after it (R117). -/
def State.blockProtected (s : State) (slot : Nat) : Bool :=
  let rs := s.logRecs
  let keep := rs.foldl (fun k e => if bytesAt e.2 0 1 = 2 ∨ bytesAt e.2 0 1 = 5 then bytesAt e.2 8 4 else k) 0
  rs.any (fun e => e.1 / 128 = slot / 128 && keep ≤ bytesAt e.2 8 4)

/-- Append a boot record (R117). -/
def appendRecord (typ slot step status detail info : Nat) (s : State) : State :=
  let last := s.logRecs.getLast?
  let seq := last.elim 0 (fun e => bytesAt e.2 8 4)
  let i := nextLogSlot s 129 (last.elim 0 (fun e => e.1 + 1))
  if s.blockProtected i && i % 128 = 0 then s
  else
    let s1 := if i % 128 = 0 then flashErase (LOG_BASE + 32 * i) 4096 s else s
    flashWrite (LOG_BASE + 32 * i) (recBytes s typ slot step status detail info (seq + 1)) s1

/-- Show a failure record in BOOT_FAIL and BOOT_STATUS and mirror it in island 2 (R116). -/
def showFailure (r : List Byte) (s : State) : State :=
  let s1 := s.each (List.range 8) (fun i t => t.wr (R.bootFail i) (BitVec.ofNat 32 (bytesAt r (4 * i) 4)))
  let s2 := s1.puts [(F.bootStatusLastStatus, bytesAt r 4 1), (F.bootStatusLastDetail, bytesAt r 5 1)]
  { s2 with boot := { s2.boot with mirror := r } }

/-- The newest FAILURE record of the log. -/
def State.newestFailure (s : State) : Option (List Byte) :=
  ((s.logRecs.filter (fun e => bytesAt e.2 0 1 = 3)).getLast?).map (fun e => e.2)

/-- The slot byte of records: the running slot, 0xFF in safe mode. -/
def State.recSlot (s : State) : Nat := if s.get F.bootStatusSafe = 1 then 0xFF else s.get F.bootSlotRunning

/-- Record a failure: in the flash where it is usable, and in the mirror (R113, R116). -/
def recordFailure (usable : Bool) (step status detail info : Nat) (s : State) : State :=
  let slot := s.recSlot
  let s1 := if usable then appendRecord 3 slot step status detail info s else s
  let r := match (if usable then s1.newestFailure else none) with
    | some r => r
    | none => recBytes s 3 slot step status detail info (((s.logRecs.getLast?).elim 0 (fun e => bytesAt e.2 8 4)) + 1)
  showFailure r s1

/-- Failed cold attempts of a slot since the newest SUCCESS or CLEAR record: ATTEMPT records of START_KIND 0–2 that a
trip did not end (R111, R123). -/
def State.failedAttempts (s : State) (slot : Nat) : Nat :=
  let rs := s.logRecs.map (fun e => e.2)
  let since := (rs.reverse.takeWhile (fun r => bytesAt r 0 1 ≠ 2 && bytesAt r 0 1 ≠ 5)).reverse
  ((List.zip since (since.tail ++ [[]])).filter (fun p =>
    bytesAt p.1 0 1 = 1 && bytesAt p.1 1 1 ≤ 2 && bytesAt p.1 2 1 = slot &&
      !(bytesAt p.2 0 1 = 3 && bytesAt p.2 5 1 = 0x70))).length

/-! Reset and cold start -/

/-- The device in reset: everything at its Cold value, but the flash, the fuses, host memory, the board's pins, the
evidence store's medium, and the model's own fields. -/
def holdReset (s : State) : State :=
  { State.reset with
    regs := [],
    mem := { MemUnit.reset with flash := s.mem.flash, host := s.mem.host },
    boot := { BootUnit.reset with fuses := s.boot.fuses, starting := false },
    board := { s.board with alerts := [], thermN := true, memEn := false, nandWpN := false, nandCeN := 15, xspiCsN := true },
    disp := { DisplayUnit.reset with sink := s.disp.sink }, nand := s.nand,
    fresh := s.fresh, pending := s.pending }

/-- A cold start begins with POWER_GOOD (R103, Table 4.9). -/
def coldStart (kind : Nat) (forced : Bool) (s : State) : State :=
  let s1 := holdReset s
  let s2 := s1.puts [(F.bootStatusStep, 1), (F.bootKindStartKind, kind), (F.bootStatusForced, b2n forced)]
  { s2 with boot := { s2.boot with starting := true }, board := { s2.board with alerts := [], memEn := true, thermN := true, fromOff := false } }

/-- A start fails: a FAILURE record, and a cold start forced by the device (R112, R113). -/
def failStart (status detail info : Nat) (s : State) : State :=
  let usable := 3 ≤ s.get F.bootKindStartKind || 4 ≤ s.get F.bootStatusStep
  coldStart 2 true (recordFailure usable (s.get F.bootStatusStep) status detail info s)

/-- A halt: the Groundskeeper core stops, ALERT_N is asserted, the record stays in island 2 (R115, R116). -/
def haltStart (detail : Nat) (s : State) : State :=
  let s1 := recordFailure false (s.get F.bootStatusStep) 0xF0 detail 0 s
  { s1 with boot := { s1.boot with halted := true, starting := false } }

/-! Steps -/

/-- The start kind: 0–2 cold, 3 Fallow, 4 Dormant, 5 Frost. -/
def State.startKind (s : State) : Nat := s.get F.bootKindStartKind

/-- The training record in the TRAIN sector, valid by MAGIC, LENGTH and CRC (R256, Table 10.3). -/
def State.flashTraining (s : State) : Option (List Byte) :=
  let r := s.flashRead 0x30000 0x1000
  if bytesAt r 0 4 == 0x524E5254 && bytesAt r 0xC 4 == 0x1000 && bytesAt r 0xFFC 4 == crc32 (r.take 0xFFC) then some r
  else none

/-- The training record at hand: island 0's copy, else the TRAIN sector's (R103). -/
def State.trainRecord (s : State) : Option (List Byte) :=
  match s.fw.training with
  | some r => some r
  | none => s.flashTraining

/-- The RATE that a start trains: the stored plan's, read at BOOT_DIR; from Dormant the active chain's; 4,266 MT/s in
safe mode (R107, R114). -/
def State.wantedRate (s : State) : Nat :=
  if s.get F.bootStatusSafe = 1 then 4
  else if s.startKind = 4 then (s.plan.active.islands.getD 69 ⟨false, 0, 0, 0⟩).rate
  else s.boot.rate

/-- The MEM step of a start: 7 MEM_TRAIN, 8 MEM_RESTORE. From Dormant or Frost the record's temperature and RATE decide;
the DRAM identity is tested in MEM_RESTORE itself (R104, R256). -/
def State.memStep (s : State) : Nat :=
  let k := s.startKind
  if k < 3 then 7 else if k = 3 then 8
  else match s.trainRecord with
    | some r =>
      if (s.tempC - sext 8 (bytesAt r 8 1)).natAbs ≤ 10 ∧ bytesAt r 6 1 = s.wantedRate then 8 else 7
    | none => 7

/-- Whether a start runs a step (Table 4.2); in safe mode only the steps that the monitor needs (R114). -/
def State.runsStep (s : State) (k : Nat) : Bool :=
  let kind := s.startKind
  let safe := s.get F.bootStatusSafe = 1
  match k with
  | 2 => kind < 3
  | 3 => kind < 3 || kind = 5
  | 4 => kind < 3 || kind = 5
  | 5 => (kind < 3 || kind = 5) && !safe
  | 6 => kind < 3 || kind = 5
  | 7 => s.memStep = 7 || s.get F.bootStatusMemTrained = 1
  | 8 => s.memStep = 8 && s.get F.bootStatusMemTrained = 0
  | 9 => !safe
  | 10 => (kind < 3 || kind = 5) && !safe
  | 11 => !safe
  | 13 => !safe && s.plan.active.evidence.isSome && (kind < 3 || (kind = 5 && !s.boot.nandClean))
  | _ => true

/-- The step after a step. -/
def State.nextStep (s : State) (k : Nat) : Nat :=
  ((List.range 16).find? (fun j => k < j && s.runsStep j)).getD 15

/-- The islands of Table 4.17 that are powered from the start of a step. -/
def stepIslands (k : Nat) : List Nat :=
  match k with
  | 4 => [59]
  | 6 => [60]
  | 7 => [52, 53, 54, 55, 69, 70]
  | 8 => [52, 53, 54, 55, 69, 70]
  | 9 => [56, 57, 58]
  | _ => []

/-- A step begins: its islands are powered, in a cold start without a recorded close and from Frost with cause 2 (R33,
R107); the boot flash controller opens with BOOT_DIR. PLAN_STATUS.PHASE reads APPLY from PLAN_VERIFY on (R125). -/
def enterStep (k : Nat) (s : State) : State :=
  let kind := s.startKind
  let s1 := if kind < 3 then s.each (stepIslands k) powerUpQuiet
    else if kind = 5 then s.each (stepIslands k) powerUpWake else s
  let s2 := if k = 4 then openIsland 59 s1 else s1
  if k = 11 ∨ k = 12 then s2.put F.planStatusPhase 5 else s2

/-- A step ends: its time is recorded and the next one begins (Table 4.10). -/
def stepDone (k : Nat) (s : State) : State :=
  let s1 := s.wr (R.bootTime (k - 1)) (BitVec.ofNat 32 (s.timeUs - s.boot.stepAt))
  let n := s1.nextStep k
  let s2 := s1.put F.bootStatusStep n
  enterStep n { s2 with boot := { s2.boot with stepAt := s2.timeUs } }

/-- Step k of the start is due. -/
def State.atStep (s : State) (k : Nat) : Bool := s.boot.starting && s.get F.bootStatusStep = k

/-! Wakes from Fallow, Dormant and Frost -/

/-- Islands 4–71 and what they held are lost in Fallow and deeper; rings keep their save-area configuration (R141). -/
def loseIslands (s : State) : State :=
  { s with
    isl := { s.isl with tracked := [], crossing := [], heldReplies := [], broadcasts := [] },
    mem := { s.mem with bedMem := [], lines := [], fills := [], touched := [], keys := [], class0 := [0, 0] },
    mmu := { MmuUnit.reset with nextBatch := s.mmu.nextBatch },
    host := { s.host with
      reads := [], heads := [], entries := [], latched := [], waiting := [], unsignalled := [],
      credit := [0, 0], sinceClass2 := 0, heldLow := [] },
    hose := .reset, bed := .reset, rake := .reset, furrow := .reset,
    disp := { DisplayUnit.reset with sink := s.disp.sink }, switch := .reset, intake := .reset,
    evid := .reset, pwr := { s.pwr with frames := [] } }

/-- A wake begins the start of a kind: the Warm column (Cold for islands 0 and 3 from Frost), the wake's causes, and
every island of 4–71 that the active chain powers for a warm start (R107, R137, R14). -/
def wakeStart (kind : Nat) (causes : List Nat) (s : State) : State :=
  let from_ := s.power
  let hot := s.get F.bootFwStatusHot
  let s0 := resetRegs (warmKept (kind = 3)) (fun off => ownerIsland off ≠ some 3 || kind ≠ 5) s
  let s1 := if kind = 5 then coldRegs 3 s0 else s0
  let gk := if kind = 5 then ImageKind.none else s.fw.running.getD 0 .none
  let m := listMask causes
  let first := causes.headD 0
  let s2 := s1.puts [(F.bootStatusStep, 1), (F.bootStatusReady, 0), (F.bootStatusLinkPending, 0),
    (F.bootStatusMemTrained, 0), (F.bootKindStartKind, kind), (F.bootKindWakeCause, m % 64),
    (F.bootKindFirstCause, first), (F.pwrLastExitCause, m), (F.pwrLastExitFirst, first), (F.pwrLastExitFrom, from_),
    (F.bootFwStatusReverted, hot), (F.pwrStatusState, 0), (F.pwrStatusPhase, 0), (F.fenceAvsTargetMv, 750)]
  let s3 := s2.each ((List.range 72).filter (fun n => 4 ≤ n || (kind = 5 && (n = 0 || n = 3)))) loadViews
  { s3 with
    boot := { s3.boot with starting := true, startedAt := s3.timeUs, stepAt := s3.timeUs, heldPower := none },
    pwr := { s3.pwr with latched := [], wakeAt := s3.timeUs, after := none },
    fw := { s3.fw with running := [gk, .none, .none, .none], hotDigest := [] },
    board := { s3.board with memEn := true } }

/-! The trip sequence -/

/-- The trip sequence (R154): THERM_N low, the mark, FENCE_TRIP, islands 0 and 3–71 closed with cause 9 and powered
off with the DRAM, STATE Frost. An entry in progress is abandoned (R146), and a start is interrupted (R123). -/
def tripSequence (cause : Nat) (s : State) : State :=
  let s1 := { s with board := { s.board with thermN := false } }
  let s2 := s1.puts [(F.fenceStateTripLatched, 1), (F.fenceTripTemp, s.get F.fenceTempMaxTemp),
    (F.fenceTripSensor, s.get F.fenceTempMaxSensor), (F.fenceTripCause, cause)]
  let s3 := (s2.bump F.fenceTripCount 1)
  let s4 := abandonEntry 7 s3
  let s5 := s4.each (0 :: (List.range 72).drop 3) (fun n t => powerDown n 9 t)
  let s6 := loseIslands s5
  let s7 := s6.puts [(F.pwrStatusState, 4), (F.pwrStatusPhase, 0)]
  { s7 with
    mem := { s7.mem with dram := [], poison := [] },
    boot := { s7.boot with
      tripMark := if s.boot.starting then some (s.get F.bootStatusStep) else s7.boot.tripMark,
      starting := false, clearing := none, verified := none, linkTraining := false },
    fence := { s7.fence with tripHold := true, coolRun := 0 },
    host := { s7.host with
      fns := HostUnit.reset.fns, vfEnable := false, bar4Size := 2 ^ 28, linkUp := false },
    fw := { s7.fw with
      running := [.none, .none, .none, .none], keyStore := [], training := none, waiters := [], planDigest := none },
    board := { s7.board with memEn := false } }

end Sys2Proof.Machine
end

