-- ==== Sys2Proof/Machine/Wake.lean ====
section
/-! DEFINITION. Entering and leaving Shade, wake events, and the entry to a power state (spec/05 R131–R145). -/
namespace Sys2Proof.Machine

/-- A wake source is enabled: WAKE_N always, another by its PWR_WAKE_EN bit (R136). -/
def State.wakeEnabled (s : State) (b : Nat) : Bool :=
  b == 0 || (1 ≤ b && b ≤ 6 && bit (s.get F.pwrWakeEnSources) (b - 1))

/-- A source acts in a power state (Table 5.2). -/
def wakeMarked (b st : Nat) : Bool :=
  match b with
  | 0 => true
  | 1 => true
  | 2 => true
  | 3 => st ≤ 3
  | 4 => st ≤ 3
  | 5 => st ≤ 3
  | 6 => st = 1
  | _ => false

/-- Powered beds in the order in which a Shade exit restarts them: the reserve plot's, then the others (R138). -/
def State.bedOrder (s : State) : List Nat :=
  let u := s.plan.active.urgent
  let r := if u.hasReserve then (s.plan.active.plot u.reservePlot).elim 0 (fun p => p.beds) else 0
  let st := (List.range 48).filter (fun b => s.hedge (b + 4) = STOPPED)
  st.filter (bit r) ++ st.filter (fun b => !bit r b)

/-- A hedge returns from STOPPED to OPEN without a change of epoch; what its crossing held is delivered (R40). -/
def restart (n : Nat) (s : State) : State :=
  if s.hedge n = STOPPED then releaseHeld n (setClock n (s.put (F.islandStateState n) OPEN)) else s

/-- A hedge stops for Shade: an OPEN hedge outside islands 0–3 (R40). -/
def stopHedge (n : Nat) (s : State) : State :=
  if 4 ≤ n ∧ s.hedge n = OPEN then setClock n (s.put (F.islandStateState n) STOPPED) else s

/-- Begin the entry to a power state (R131): SETTLE. -/
def beginEntry (target drain : Nat) (s : State) : State :=
  let s1 := ((closeBatches s).wr R.pwrMode 0).puts [(F.pwrStatusPhase, 1), (F.pwrStatusResult, 0), (F.pwrStatusLastTarget, target)]
  let s2 := { s1 with pwr := { s1.pwr with cut := drain = 1, drained := false, after := none } }
  if drain = 1 then cutForSettle s2 else s2

/-- Leave Shade: the islands restart in the order of R138, the held ISLAND_CTRL resets are carried out (R40), DRAM is
active, every processor leaves WAIT, and an entry to a deeper state follows where one was requested (R130). -/
def shadeExit (causes : List Nat) (s : State) : State :=
  let beds := s.bedOrder
  let others := (List.range 72).filter (fun n => !isBed n)
  let s1 := s.puts [(F.pwrStatusState, 0), (F.pwrLastExitCause, listMask causes), (F.pwrLastExitFirst, causes.headD 0),
    (F.pwrLastExitFrom, 1), (F.pwrLastExitExitUs, beds.length + 1), (F.hostqHeartbeatAgeMs, 0)]
  let s2 := s1.wr R.pwrMode 0
  let s3 := s2.each (List.range 2) (fun c t => if t.hedge (69 + c) = STOPPED then t.put (F.memcCfgState c) 2 else t)
  let s4 := (s3.each others restart).each beds (fun b t => restart (b + 4) t)
  let held := s4.isl.heldResets
  let s5 := { s4 with isl := { s4.isl with heldResets := [] } }
  let s6 := (s5.each held (fun n t => closeIsland n 7 t))
  let s6 := { s6 with pwr := { s6.pwr with wakeAt := s.timeUs } }
  match s6.pwr.after with
  | some (t, d) => beginEntry t d { s6 with pwr := { s6.pwr with after := none } }
  | none => s6

/-- A source seen within 10 µs of the event that ended Shade joins PWR_LAST_EXIT.CAUSE (R137, Table 5.10); in Bloom a
wake event has no other effect. -/
def noteShadeCause (b : Nat) (s : State) : State :=
  if s.get F.pwrLastExitFrom = 1 ∧ s.timeUs ≤ s.pwr.wakeAt + 10 ∧ wakeMarked b 1 then
    s.put F.pwrLastExitCause (listMask (b :: maskList 7 (s.get F.pwrLastExitCause)))
  else s

/-- A wake event of a source (R136, R137, R143, R144, R155, R125). -/
def wakeEvent (b : Nat) (s : State) : State :=
  let ph := s.get F.pwrStatusPhase
  let target := s.get F.pwrStatusLastTarget
  if !s.wakeEnabled b then s
  else if s.boot.starting then
    if 3 ≤ s.startKind && s.timeUs ≤ s.pwr.wakeAt + 10 && b < 6 then
      s.puts [(F.bootKindWakeCause, listMask (b :: maskList 6 (s.get F.bootKindWakeCause))),
        (F.pwrLastExitCause, listMask (b :: maskList 7 (s.get F.pwrLastExitCause)))]
    else s
  else if ph = 1 ∨ ph = 2 then
    if wakeMarked b target then
      abandonEntry 4 (s.puts [(F.pwrLastExitCause, 2 ^ b), (F.pwrLastExitFirst, b), (F.pwrLastExitFrom, 0)])
    else s
  else if ph = 3 then
    if wakeMarked b target && !s.pwr.latched.contains b then
      { s with pwr := { s.pwr with latched := s.pwr.latched ++ [b] } }
    else s
  else if s.power = 0 then noteShadeCause b s
  else if !wakeMarked b s.power then s
  else if s.power = 1 then shadeExit [b] s
  else if s.fence.tripHold then
    if s.pwr.latched.contains b then s else { s with pwr := { s.pwr with latched := s.pwr.latched ++ [b] } }
  else wakeStart (s.power + 1) [b] s

/-- Where all four processors wait with the target's mode bits, the entry goes on: to LINK_WAIT for Dormant and Frost
while the link is up, else to SEQUENCE, which takes every leaving island to DARK with cause 9 (R131, R135). -/
def runSequence (s : State) : State :=
  let t := s.get F.pwrStatusLastTarget
  let s1 := s.put F.pwrStatusPhase 3
  if t = 1 then (s1.each ((List.range 72).drop 4) stopHedge).each (List.range 2) (fun c u =>
    if u.hedge (69 + c) = STOPPED then u.put (F.memcCfgState c) 3 else u)
  else
    let down := if t = 4 then 0 :: (List.range 72).drop 3 else (List.range 72).drop 4
    let s2 := s1.each down (fun n u => powerDown n 9 u)
    if 3 ≤ t then { s2 with board := { s2.board with memEn := false } } else s2

/-- All four processors wait with matching mode bits; a Seedkeeper that the plan does not power is not waited for
(R131, R132). -/
def State.allWait (s : State) : Bool :=
  let t := s.get F.pwrStatusLastTarget
  s.get F.pwrModeGkWait == 1 && s.get F.pwrModeTarget == t && s.get F.pwrModeG0Wait == 1 && s.get F.pwrModeG0Mode == t &&
    s.get F.pwrModeG1Wait == 1 && s.get F.pwrModeG1Mode == t &&
    (s.hedge 58 == DARK || (s.get F.pwrModeSkWait == 1 && s.get F.pwrModeSkMode == t))

/-- Go on with the entry when the last processor waits. -/
def tryLeave (s : State) : State :=
  if s.get F.pwrStatusPhase = 1 ∧ s.allWait then
    if 3 ≤ s.get F.pwrStatusLastTarget ∧ s.host.linkUp then s.put F.pwrStatusPhase 2 else runSequence s
  else s

end Sys2Proof.Machine
end

