-- ==== Sys2Proof/Machine/Access.lean ====
section
/-! DEFINITION. How an access to BAR0 is judged (R557): size and alignment, dark islands, Shade, missing registers,
reserved bits; and how hardware-typed fields take a write (R9–R11). -/
namespace Sys2Proof.Machine

/-- The offset belongs to a block of Table 24.1 (R554). -/
def inBlock (off : Nat) : Bool := off < 0x160000 || (0x200000 ≤ off && off < 0x2C0000)

/-- The island that serves an offset inside a block, register or not (Table 24.1). -/
def blockIsland (off : Nat) : Nat :=
  let b := off / 0x10000
  let o := off % 0x10000
  if 0x200000 ≤ off then (off - 0x200000) / 0x4000 + 4
  else if b = 0x06 ∨ b = 0x07 then 60
  else if b = 0x08 then 67
  else if b = 0x09 then 68
  else if b = 0x0A then (if o < 0x4000 then 52 + o / 0x1000 else 1)
  else if b = 0x0B then (if o < 0x200 then 69 + o / 0x100 else 1)
  else if b = 0x0C then 65
  else if b = 0x0D then (if o < 0x4000 then 61 else 62)
  else if b = 0x0E then (if o < 0xA000 then 62 else if o < 0xA040 then 63 else if o < 0xA080 then 64 else 62)
  else if b = 0x0F then 66
  else if b = 0x10 then 58
  else if b = 0x11 then 3
  else if b = 0x12 then 71
  else if b = 0x13 then 2
  else 1

/-- The island that serves an offset: the register's, or its block's. -/
def serveIsland (off : Nat) : Nat :=
  match ownerIsland off with
  | some n => n
  | none => blockIsland off

/-- Safe mode serves only GLOBAL, BOOT, PLAN, ISLAND and MGMT (R114). -/
def safeServes (off : Nat) : Bool :=
  let b := off / 0x10000
  b == 0x00 || b == 0x03 || b == 0x04 || b == 0x05 || b == 0x13

/-- Blocks that the front end passes to island 1 in Shade: PWR, BOOT, PLAN, ISLAND (R139). -/
def shadeServes (off : Nat) : Bool :=
  let b := off / 0x10000
  b == 0x02 || b == 0x03 || b == 0x04 || b == 0x05

/-- The host reaches a function: a link is up, the function exists and is in D0 (R199). -/
def State.hostReaches (s : State) (f : Nat) : Bool := s.host.linkUp && (s.fn f).present && !(s.fn f).d3hot

/-- Registers of a VF's view of the HOSTQ block that act for it (R205): its own event registers and HOSTQ_FN_f, and the
registers of the rings that it owns. -/
def State.vfActs (s : State) (f off : Nat) : Bool :=
  off == R.hostqEventCause || off == R.hostqEventMask || off == R.hostqFn f ||
    (R.sqBase 0 ≤ off && off < R.sqBase 0 + 0x800 && s.sqFn ((off - R.sqBase 0) / 0x20) == f) ||
    (R.cqBase 0 ≤ off && off < R.cqBase 0 + 0x800 && s.cqFn ((off - R.cqBase 0) / 0x20) == f)

/-- A TLP is held in the front end's receive buffer: one that island 1 does not serve in Shade, which is an exit event
under bit 4, or one that arrives behind held TLPs (R139). -/
def holdTlp (t : Tlp) (s : State) : State :=
  let s1 := { s with pwr := { s.pwr with tlps := s.pwr.tlps ++ [t] } }
  if s.power = 1 then wakeEvent 4 s1 else s1

/-- TLPs are served in arrival order: one that arrives behind a held TLP, or in Shade, is held (R139). -/
def State.mustHold (s : State) : Bool := s.power == 1 || !s.pwr.tlps.isEmpty

/-- The Groundskeeper takes forwarded messages: island 0 is OPEN and not halted. -/
def State.gkServing (s : State) : Bool := s.isOpen 0 && !s.boot.halted

/-- The function of an access in the receive buffer. -/
def writerFn : Writer → Fin 8
  | .host f => f
  | .port => 0

/-- The offset in PF0's BAR0 that an offset of a writer's BAR0 stands for: a VF's 64 KiB BAR0 is laid out as the HOSTQ
block (R205). -/
def barOffset (w : Writer) (off : Nat) : Nat :=
  match w with
  | .host f => if f = 0 then off else 0x060000 + off % 0x10000
  | .port => off

/-- How an access is judged. -/
inductive Verdict where
  /-- the register acts -/
  | serve
  /-- no effect, and a read returns all ones: no link, safe mode -/
  | none
  /-- R41 for an island -/
  | dark (n : Nat)
  /-- held in Shade -/
  | hold
  /-- R8 or R555 for an offset of no block: all ones, BAD_ACCESS -/
  | bad
  /-- R555 inside a block: a read gives 0, a write sets BAD_ACCESS -/
  | absent
  /-- a register that does not act for a VF: a read gives 0, a write is discarded (R205) -/
  | zero
  deriving DecidableEq, Repr

/-- Judge an access of a writer to an offset with a size in bytes (R557). The management port reaches registers
through the Groundskeeper or the responder; a shut island answers it with an error, not with DARK_ACCESS (R240). A VF
reaches its view of the HOSTQ block alone (R205); offsets here are those of PF0's BAR0. -/
def State.judge (s : State) (w : Writer) (off size : Nat) : Verdict :=
  let fits := (size = 4 && off % 4 = 0) || (size = 8 && off % 8 = 0)
  match w with
  | .host f =>
    if !s.hostReaches f then .none
    else if s.pwr.tlps ≠ [] then .hold
    else if !fits then .bad
    else if s.power = 1 ∧ !shadeServes off then .hold
    else if s.get F.bootStatusSafe = 1 ∧ !safeServes off then .none
    else if inBlock off ∧ s.isShut (serveIsland off) then .dark (serveIsland off)
    else if f ≠ 0 then (if s.vfActs f off then .serve else .zero)
    else if (regAt off).isSome then .serve
    else if inBlock off then .absent
    else .bad
  | .port =>
    if !fits ∨ (inBlock off ∧ s.isShut (serveIsland off)) ∨ (s.get F.bootStatusSafe = 1 ∧ !safeServes off) then .none
    else if (regAt off).isSome then .serve
    else if inBlock off then .absent
    else .bad

/-- A host access in Fallow exits L1.2 and wakes the device (Table 5.4). -/
def touchWake (w : Writer) (s : State) : State :=
  match w with
  | .host f => if s.power = 2 ∧ s.hostReaches f then wakeEvent 4 s else s
  | .port => s

/-- A 32-bit write to a register that acts through `act`, judged first. -/
def writeAccess (w : Writer) (off value : Nat) (act : State → State) (s : State) : State :=
  let s1 := touchWake w s
  match s1.judge w off 4 with
  | .serve => act s1
  | .none => s1
  | .dark n => darkAccess n s1
  | .hold => holdTlp (.write (writerFn w) (BitVec.ofNat 24 off) (BitVec.ofNat 32 value)) s1
  | .bad => badAccess s1
  | .absent => badAccess s1
  | .zero => s1

/-- Reserved bits of a register dword: bits of no field (R10). -/
def reservedBits (off : Nat) : Word :=
  match regAt off with
  | some (r, _, w) => ~~~ r.maskOf w (fun _ => true)
  | none => 0

/-- A write that sets reserved bits is performed without them and sets BAD_ACCESS (R10). -/
def noteReserved (off : Nat) (v : Word) (s : State) : State :=
  if v &&& reservedBits off = 0 then s else badAccess s

/-- The word that a plain write leaves: RW fields take the written bits, W1C fields clear where 1 is written, every
other field keeps its value (R11). -/
def writtenWord (off : Nat) (old v : Word) : Word :=
  match regAt off with
  | some (r, _, w) =>
    let rw := r.maskOf w (fun f => f.kind == .rw)
    let w1c := r.maskOf w (fun f => f.kind == .w1c)
    (old &&& ~~~ rw &&& ~~~ (w1c &&& v)) ||| (v &&& rw)
  | none => old

/-- Dword 0 or 1 of a 64-bit register; none for a register of one word, or of the 128-bit lock entries. -/
def halfOf (off : Nat) : Option Nat :=
  match regAt off with
  | some (r, _, w) => if r.words = 2 then some w else none
  | none => none

/-- A 32-bit write to a register of plain fields (R9, R11): the low half of a 64-bit register is held until its high
half is written, and then both take effect together. `f` numbers the function or port that writes. -/
def plainWrite (f off : Nat) (v : Word) (s : State) : State :=
  match halfOf off with
  | none => s.wr off (writtenWord off (s.rd off) v)
  | some 0 =>
    { s with host := { s.host with heldLow := (f, off, v) :: s.host.heldLow.filter (fun e => !(e.1 = f && e.2.1 = off)) } }
  | some _ =>
    let lo := off - 4
    let s1 := match s.host.heldLow.find? (fun e => e.1 = f && e.2.1 = lo) with
      | some e => s.wr lo (writtenWord lo (s.rd lo) e.2.2)
      | none => s
    let s2 := s1.wr off (writtenWord off (s1.rd off) v)
    { s2 with host := { s2.host with heldLow := s2.host.heldLow.filter (fun e => !(e.1 = f && e.2.1 = lo)) } }

/-- MGMT_CMD_ORIGIN: whether the last accepted command of register b came through the port (R246). -/
def noteOrigin (b : Nat) (w : Writer) (s : State) : State :=
  let m := s.get F.mgmtCmdOriginPort
  let rest := (maskList 7 m).filter (fun x => x ≠ b)
  s.put F.mgmtCmdOriginPort (listMask (if w = .port then b :: rest else rest))

/-- A number for the writer: 0–7 a function, 8 the management port. -/
def writerId : Writer → Nat
  | .host f => f
  | .port => 8

/-- The value of a 64-bit register that a write of its high half makes: the held low half and the high half. -/
def State.joined (s : State) (f off : Nat) (v : Word) : Nat :=
  let lo := off - 4
  let l := match s.host.heldLow.find? (fun e => e.1 = f && e.2.1 = lo) with
    | some e => e.2.2
    | none => s.rd lo
  l.toNat + 2 ^ 32 * v.toNat

end Sys2Proof.Machine
end

