-- ==== Sys2Proof/Machine/Islands.lean ====
section
/-! DEFINITION. Meanings of the commands of spec/01: ISLAND_CTRL, hedges, epochs, requests and replies over the
trellis, and refused accesses to BAR0. -/
namespace Sys2Proof.Machine

/-- The value of a keyed command register: KEY in the high half. -/
def keyed (key low : Nat) : Nat := 2 ^ 16 * key + low

/-- The beds of the urgent reserve plot, as a mask (R91). -/
def State.reserveBeds (s : State) : Nat :=
  let u := s.plan.active.urgent
  if u.hasReserve then (s.plan.active.plot u.reservePlot).elim 0 (fun p => p.beds) else 0

/-- Islands that ISLAND_CTRL may reset (R44). -/
def ctrlPermits (n : Nat) : Bool := (4 ≤ n && n ≤ 51) || (62 ≤ n && n ≤ 66) || n == 71

/-- The RESULT of an ISLAND_CTRL reset: the first failing condition of R44, 0 where all hold. -/
def ctrlResult (w : Writer) (key n : Nat) (s : State) : Nat :=
  if key ≠ 0x1A1D then 4
  else if !s.hasToken w then 2
  else if !ctrlPermits n then 1
  else if isBed n && bit s.reserveBeds (n - 4) then 3
  else if s.hedge n = DARK then 5
  else 0

/-- An accepted reset: held in Shade, else it closes the target with cause 7 or joins its cycle (R44, R35, R40). -/
def acceptReset (n : Nat) (s : State) : State :=
  let s1 := { s with isl := { s.isl with ctrlTargets := n :: s.isl.ctrlTargets.filter (fun x => x ≠ n) } }
  let s2 := s1.put F.islandCtrlStatusBusy 1
  if s.hedge n = STOPPED then { s2 with isl := { s2.isl with heldResets := s2.isl.heldResets ++ [n] } }
  else closeIsland n 7 s2

/-- The effect of an ISLAND_CTRL write with ACTION 1. -/
def resetTarget (w : Writer) (key n : Nat) (s : State) : State :=
  let r := ctrlResult w key n s
  let s1 := s.put F.islandCtrlStatusResult r
  if r = 0 then noteOrigin 6 w (acceptReset n s1) else s1

/-- RESET_TARGET (R44). -/
def execResetTarget (w : Writer) (key : BitVec 16) (target : BitVec 7) (s : State) : Out :=
  .next (writeAccess w R.islandCtrl (keyed key.toNat (0x100 + target.toNat)) (resetTarget w key.toNat target.toNat) s)

/-- Clear the counters of an island: completions issued for it and replies discarded at it (Tables 1.8, 1.9). -/
def clearCounters (n : Nat) (s : State) : State := (s.wr (R.islandCount n) 0).wr (R.islandDiscard n) 0

/-- The effect of an ISLAND_CTRL write with ACTION 2 or 3, which requires only the KEY (R44). -/
def clearTargets (key : Nat) (ns : List Nat) (s : State) : State :=
  if key ≠ 0x1A1D then s.put F.islandCtrlStatusResult 4
  else (s.put F.islandCtrlStatusResult 0).each ns clearCounters

/-- CLEAR_TARGET_COUNTERS (R44). -/
def execClearTargetCounters (w : Writer) (key : BitVec 16) (target : BitVec 7) (s : State) : Out :=
  .next (writeAccess w R.islandCtrl (keyed key.toNat (0x200 + target.toNat))
    (clearTargets key.toNat ((List.range 72).filter (fun n => n = target.toNat))) s)

/-- CLEAR_ALL_COUNTERS (R44). -/
def execClearAllCounters (w : Writer) (key : BitVec 16) (s : State) : Out :=
  .next (writeAccess w R.islandCtrl (keyed key.toNat 0x300) (clearTargets key.toNat (List.range 72)) s)

/-- A CLOSED island may open: not while a start opens islands itself, a processor only with an image loaded (R178), a
memory channel only while the Groundskeeper reloads its keys (R39), an island named by a commit only with island 0
running (R69). -/
def State.mayOpen (s : State) (n : Nat) : Bool :=
  let img := (procOf n).elim true (fun p => s.fw.running.getD p .none != .none)
  let named := match s.plan.job with
    | some j => s.get F.planStatusPhase == 4 && j.named.contains n
    | none => false
  s.hedge n == CLOSED && !s.boot.starting && img && (!(n == 69 || n == 70 || named) || s.isOpen 0)

/-- HEDGE_OPEN (R21): the epoch rises by one and is broadcast; in Shade the hedge then stops (R40). -/
def execHedgeOpen (island : Fin 72) (s : State) : Out :=
  .next (if s.mayOpen island then
      let s1 := openIsland island s
      if s1.power = 1 then stopHedge island s1 else s1
    else s)

/-- EPOCH_VIEW_UPDATE (R29): a powered stop takes up the epoch of the broadcast of an island. -/
def execEpochViewUpdate (stop island : Fin 72) (s : State) : Out :=
  .next (match s.isl.broadcasts.find? (fun b => b.island = island.val && b.stops.contains stop.val) with
    | some b =>
      let s1 := setView stop island b.epoch s
      let rest := b.stops.filter (fun x => x ≠ stop.val)
      let bs := s1.isl.broadcasts.filter (fun x => x.island ≠ island.val)
      { s1 with isl := { s1.isl with broadcasts := if rest.isEmpty then bs else { b with stops := rest } :: bs } }
    | none => s)

/-- The requests that a stop tracks (R20). -/
def State.trackedBy (s : State) (n : Nat) : List Tracked := s.isl.tracked.filter (fun t => t.src = n)

/-- A tag that a stop does not use. -/
def State.freeTag (s : State) (n : Nat) : Option Nat :=
  (List.range 64).find? (fun g => (s.trackedBy n).all (fun t => t.tag ≠ g))

/-- A request under a tag arrives at its target's hedge (Table 1.2, R23, R25, R31): it carries the requester's epoch
and the target epoch of the requester's view (R22). -/
def arrive (src dst tag : Nat) (s : State) : State :=
  let t : Tracked := ⟨src, dst, tag, s.view src dst, s.epoch src, false⟩
  let s1 := { s with isl := { s.isl with tracked := t :: s.isl.tracked } }
  if !s.stopPowered dst ∨ s.isShut dst then answerError 0x11 0 t s1
  else if s.isOpen dst then meetOpen t s1
  else { s with isl := { s.isl with tracked := { t with held := true } :: s.isl.tracked } }

/-- HEDGE_REQUEST (R20, R23): an OPEN island issues a request; a 65th one waits in its crossing. -/
def execHedgeRequest (src dst : Fin 72) (s : State) : Out :=
  .next (if !s.isOpen src ∨ src = dst then s
    else match s.freeTag src with
      | some g => arrive src dst g s
      | none => { s with isl := { s.isl with crossing := s.isl.crossing ++ [(src.val, dst.val)] } })

/-- HEDGE_REPLY (R25, R36): the reply to a request meets the requester's hedge. -/
def execHedgeReply (src : Fin 72) (tag : Fin 64) (s : State) : Out :=
  .next (match s.isl.tracked.find? (fun t => t.src = src.val && t.tag = tag.val && !t.held) with
    | none => s
    | some t =>
      if s.isl.heldReplies.contains (src.val, tag.val) then s
      else if s.isShut src then retire t (s.bump32 (R.islandDiscard src) 1)
      else if s.isOpen src then replyOpen t s
      else { s with isl := { s.isl with heldReplies := s.isl.heldReplies ++ [(src.val, tag.val)] } })

/-- TRELLIS_AGED (R28): a packet older than 50 µs is dropped and counted. -/
def execTrellisAged (s : State) : Out := .next (s.bump F.globalStatusTrellisAged 1)

/-- REQUEST_TAG_FREE (R20): with a tag free, the oldest request of a requester's crossing is issued. -/
def execRequestTagFree (src : Fin 72) (s : State) : Out :=
  .next (match s.freeTag src, s.isl.crossing.find? (fun c => c.1 = src.val) with
    | some g, some c =>
      let i := s.isl.crossing.findIdx (fun x => x.1 = src.val)
      arrive src c.2 g { s with isl := { s.isl with crossing := s.isl.crossing.eraseIdx i } }
    | _, _ => s)

/-- RESPONSE_TIMEOUT (R30, R40): a hung target closes with cause HANG; otherwise the request is retired with
ISLAND_RESET, cause AGED. No timer runs for a STOPPED target; islands 1 and 2 reset only on a cold start (R38). -/
def execResponseTimeout (src : Fin 72) (tag : Fin 64) (hung : Bool) (s : State) : Out :=
  .next (match s.isl.tracked.find? (fun t => t.src = src.val && t.tag = tag.val) with
    | none => s
    | some t =>
      if s.hedge t.dst = STOPPED then s
      else if hung && t.dst ≠ 1 && t.dst ≠ 2 then closeIsland t.dst 10 s
      else answerError 0x11 11 t s)

/-- The bytes that a host read returns. -/
def answerRead (bs : List Byte) (s : State) : State := { s with host := { s.host with readData := bs } }

/-- The word that a register reads as: MGMT_STATUS shows whether the Groundskeeper serves (Table 9.9), and a VF's event
registers are its own (R205). -/
def State.readWord (s : State) (w : Writer) (off : Nat) : Word :=
  let plain := if off = R.mgmtStatus then setBits (s.rd off) 0 1 (b2n s.gkServing) else s.rd off
  match w with
  | .port => plain
  | .host f =>
    if f = 0 then plain
    else if off = R.hostqEventCause then BitVec.ofNat 32 (s.fn f).vfCause
    else if off = R.hostqEventMask then BitVec.ofNat 32 (s.fn f).vfMask
    else s.rd off

/-- A read of a register that acts (R9): 64 bits at once, or 32 bits; a 32-bit read of a low half latches the high half,
and the next 32-bit read of the high half by the same function returns what was latched. -/
def serveRead (w : Writer) (off size : Nat) (s : State) : State :=
  let f := writerId w
  let held := s.host.heldHigh.find? (fun e => e.1 = f && e.2.1 = off)
  let rest := s.host.heldHigh.filter (fun e => !(e.1 = f && e.2.1 = off))
  if size = 8 then answerRead (leBytes 4 (s.readWord w off).toNat ++ leBytes 4 (s.readWord w (off + 4)).toNat) s
  else
    match halfOf off, held with
    | some 0, _ => answerRead (leBytes 4 (s.rd off).toNat) { s with host := { s.host with
        heldHigh := (f, off + 4, s.rd (off + 4)) :: s.host.heldHigh.filter (fun e => !(e.1 = f && e.2.1 = off + 4)) } }
    | some _, some e => answerRead (leBytes 4 e.2.2.toNat) { s with host := { s.host with heldHigh := rest } }
    | _, _ => answerRead (leBytes 4 (s.readWord w off).toNat) s

/-- A read of BAR0 by the host, judged first (R557): the register's word, 0 where there is no register, else all
ones. -/
def readAccess (w : Writer) (off size : Nat) (s : State) : State :=
  let s1 := touchWake w s
  let ones := List.replicate size 0xFF
  match s1.judge w off size with
  | .serve => serveRead w off size s1
  | .none => answerRead ones s1
  | .dark n => answerRead ones (darkAccess n s1)
  | .hold => holdTlp (.read (writerFn w) (BitVec.ofNat 24 off) size) s1
  | .bad => answerRead ones (badAccess s1)
  | .absent => answerRead (List.replicate size 0) s1
  | .zero => answerRead (List.replicate size 0) s1

/-- DARK_ACCESS (R41): a read returns all ones and a write is discarded, both recorded. -/
def execDarkAccess (w : Writer) (off : BitVec 24) (write : Bool) (s : State) : Out :=
  .next (if write then writeAccess w (barOffset w off.toNat) 0 id s else readAccess w (barOffset w off.toNat) 4 s)

/-- BAD_ACCESS (R8, R555): an access of a size in bytes to an offset. -/
def execBadAccess (w : Writer) (off : BitVec 24) (size : Nat) (write : Bool) (s : State) : Out :=
  .next (if !write then readAccess w (barOffset w off.toNat) size s
    else
      let s1 := touchWake w s
      match s1.judge w (barOffset w off.toNat) size with
      | .serve => s1
      | .none => s1
      | .dark n => darkAccess n s1
      | .hold => holdTlp (.write (writerFn w) (BitVec.ofNat 24 (barOffset w off.toNat)) 0) s1
      | .bad => badAccess s1
      | .absent => badAccess s1
      | .zero => s1)

end Sys2Proof.Machine
end

