-- ==== Sys2Proof/Machine/Acoustic.lean ====
section
/-! DEFINITION. Meanings of the acoustic front end's commands (spec/21). -/
namespace Sys2Proof.Machine

/-- MIC_GAIN of a microphone in 1/256 dB (Table 6.4). -/
def State.micGain (s : State) (mic : Nat) : Int := s.fence.table.elim 0 (fun t => sext 16 (bytesAt t (0x60 + 2 * mic) 2))

/-- The 256 samples that a microphone's decimation filter gives for a frame. -/
def micSamples (pcm : List (List Int)) (mic : Nat) : List Int :=
  let xs := (pcm.getD mic []).take 256
  xs ++ List.replicate (256 - xs.length) 0

/-- E of a frame; the level of silence is a free value (log entry 40). -/
def levelOf (xs : List Int) (s : State) : Int × State :=
  if sumSquares xs = 0 then (sext 16 (s.draw.1 % 65536), s.draw.2) else (frameLevel xs, s)

/-- A firing of a microphone: which detectors, the score. -/
structure Firing where
  mic       : Nat
  detectors : Nat
  score     : Nat
  deriving DecidableEq, Repr

/-- A frame of one microphone: gain, level, detectors; ACOU_LEVEL and the pre-roll for LISTEN_MIC (R506, R509–R511). -/
def hearMic (c : AcousticCfg) (pcm : List (List Int)) (mic : Nat) (acc : List Firing × State) : List Firing × State :=
  let s := acc.2
  let raw := micSamples pcm mic
  let g := s.micGain mic
  let xs := raw.map (gainSample g)
  let sats := (raw.filter (saturates g)).length
  let l := levelOf xs (s.bump F.acouCount1Sat sats)
  let h := hearFrame c s.acou.count l.1 xs (s.acou.mics.getD mic .reset)
  let s1 := onAcou (fun a => { a with mics := setAt mic h.1 a.mics }) l.2
  let s2 := if mic = c.listenMic then
      recordFrame ⟨xs, false, decide (0 < sats)⟩ (s1.puts [(F.acouLevelEnergy, ofInt 16 l.1),
        (F.acouLevelFloor, ofInt 16 (h.1.floor.elim 0 (fun n => roundRat n 256)))])
    else s1
  (if h.2.1 = 0 then acc.1 else acc.1 ++ [⟨mic, h.2.1, h.2.2⟩], s2)

/-- An acoustic event (R512, R513). -/
def acousticEvent (c : AcousticCfg) (fs : List Firing) (s : State) : State :=
  let dets := fs.foldl (fun m f => Nat.lor m f.detectors) 0
  let score := fs.foldl (fun m f => max m f.score) 0
  let mic := fs.head?.elim 0 (fun f => f.mic)
  let count := fun (b : Nat) => (fs.filter (fun f => bit f.detectors b)).length
  let s1 := ((s.put F.acouStatusFired 1).bump F.acouCount0Glass (count 0)).bump F.acouCount0Alarm (count 1)
  let s2 := s1.wr64 R.acouEvent (s.timeUs / 1000000 % 2 ^ 32 + 2 ^ 32 * dets + 2 ^ 36 * mic + 2 ^ 40 * score +
    2 ^ 48 * s.get F.pwrStatusState)
  let s3 := if s2.acou.frozen.isSome then s2.bump F.acouCount1Missed 1
    else
      let floor := ((s2.acou.mics.getD c.listenMic .reset).floor).elim 0 (fun n => roundRat n 256)
      let f := s2.freezeRoll c dets score floor
      onAcou (fun a => { a with frozen := some f }) (s2.put F.acouStatusFrozen 1)
  wakeEvent 3 (if s.power = 0 ∧ !s.boot.starting then setEvent 12 s3 else s3)

/-- A RELEASE takes effect at the frame's end (R518). -/
def releaseRoll (s : State) : State := if s.acou.releasing then emptyRoll s else s

/-- The microphones that are decoded in the present mode. -/
def State.decodedMics (s : State) (c : AcousticCfg) : List Nat :=
  if s.micMode = MIC_LISTEN then [c.listenMic] else maskList 8 c.micMask

/-- ACOUSTIC_FRAME (R505–R514): a 16 ms frame ends; `pcm` holds each microphone's samples after the decimation filter.
In SETTLING the buffer records zeros and the detectors do not run. -/
def execAcousticFrame (pcm : List (List Int)) (s : State) : Out :=
  .next (match s.acou.cfg with
    | none => s
    | some c =>
      if !s.isOpen 3 ∨ s.micMode = MIC_OFF then s
      else
        let s1 := onAcou (fun a => { a with count := a.count + 1 }) s
        if s.micMode = MIC_SETTLING then releaseRoll (recordFrame ⟨List.replicate 256 0, true, false⟩ s1)
        else
          let r := (s.decodedMics c).foldl (fun a m => hearMic c pcm m a) ([], s1)
          let releasing := r.2.acou.releasing
          let s2 := if r.1.isEmpty then r.2 else acousticEvent c r.1 r.2
          if releasing then releaseRoll s2 else s2)

/-- SETTLING_END (R508): the detectors resume. -/
def execSettlingEnd (s : State) : Out :=
  .next (if s.isOpen 3 ∧ s.micMode = MIC_SETTLING then s.put F.acouStatusMode s.micTarget else s)

/-- The RESULT of an ACOU_CMD write (R516, Table 21.5). -/
def acouResult (w : Writer) (key : Nat) (s : State) : Nat :=
  if key ≠ 0xAC05 ∨ !isPf0 w ∨ !s.hasToken w then 1
  else if s.get F.acouStatusBusy = 1 then 2
  else if !s.inBloom then 3
  else if s.plan.active.acoustic.isNone then 4
  else 0

/-- An ACOU_CMD write. -/
def acouCommand (w : Writer) (key : Nat) (act : AcousticCfg → State → State) (s : State) : State :=
  let r := acouResult w key s
  let s1 := s.put F.acouStatusResult r
  match r, s.plan.active.acoustic with
  | 0, some c => act c s1
  | _, _ => s1

/-- READ (R517): the frozen pre-roll, or as many zeros with LOCKED. -/
def prerollRead (w : Writer) (c : AcousticCfg) (s : State) : State :=
  let dst := s.rd64 R.acouDstAddr / 64 * 64
  match s.acou.frozen with
  | some f => (writeDest w dst (rollBytes c f) s).put F.acouStatusStatus 0
  | none => (writeDest w dst (List.replicate (64 + 32 * c.prerollMs) 0) s).put F.acouStatusStatus 0x80

/-- The value of an ACOU_CMD write. -/
def acouCmdValue (key op : Nat) : Nat := keyed key op

/-- PREROLL_READ (R516, R517). -/
def execPrerollRead (w : Writer) (key : BitVec 16) (s : State) : Out :=
  .next (writeAccess w R.acouCmd (acouCmdValue key.toNat 1) (acouCommand w key.toNat (prerollRead w)) s)

/-- RELEASE (R518) waits for the next frame boundary; a buffer that is not FROZEN is emptied there too. -/
def prerollRelease (_ : AcousticCfg) (s : State) : State := onAcou (fun a => { a with releasing := true }) s

/-- PREROLL_RELEASE (R516, R518). -/
def execPrerollRelease (w : Writer) (key : BitVec 16) (s : State) : Out :=
  .next (writeAccess w R.acouCmd (acouCmdValue key.toNat 2) (acouCommand w key.toNat prerollRelease) s)

/-- FIRED_CLEAR (R512): writing 1 to FIRED clears it, and with it ALERT_N. -/
def execFiredClear (w : Writer) (s : State) : Out :=
  .next (writeAccess w R.acouStatus 8 (plainWrite (writerId w) R.acouStatus 8) s)

end Sys2Proof.Machine
end

