-- ==== Sys2Proof/Machine/BedRegs.lean ====
section
/-! DEFINITION. The rows TRAP_CLEAR and NUMX_CLEAR, which are register writes (spec/13 R346, spec/14 R371). -/
namespace Sys2Proof.Machine

/-- TRAP_CLEAR (R346): writing 1 to BEDn_TRAP.VALID. -/
def execTrapClear (w : Writer) (bed : Fin 48) (s : State) : Out :=
  .next (writeAccess w (R.bedTrap bed) 1 (clearTrap bed) s)

/-- Empty the records that a NUMX_CLEAR write names (Table 14.8). -/
def clearRecords (bed what : Nat) (all : Bool) (s : State) : State :=
  s.each (if all then List.range 48 else if bed < 48 then [bed] else []) (fun n t =>
    let t1 := if bit what 0 then clearNum (R.numxGuard n) t else t
    if bit what 1 then clearNum (R.numxNan n) t1 else t1)

/-- NUMX_CLEAR (R371). -/
def execNumxClear (w : Writer) (bed : BitVec 6) (what : BitVec 2) (all : Bool) (s : State) : Out :=
  .next (writeAccess w R.numxClear (bed.toNat + 2 ^ 8 * what.toNat + 2 ^ 10 * b2n all)
    (clearRecords bed.toNat what.toNat all) s)

end Sys2Proof.Machine
end

