-- ==== Sys2Proof/Machine/Calibration.lean ====
section
/-! DEFINITION. The calibration table: its tests and its application (spec/06 R161–R165, R170). -/
namespace Sys2Proof.Machine

/-- A signed 16-bit entry of the table. -/
def calS16 (t : List Byte) (off : Nat) : Int := sext 16 (bytesAt t off 2)

/-- Every field of a table lies within its range (Table 6.4). -/
def calInRange (t : List Byte) : Bool :=
  bytesAt t 6 1 ≤ 1 &&
    (List.range 24).all (fun i => (calS16 t (0x10 + 2 * i)).natAbs ≤ 160) &&
    (List.range 7).all (fun i => (calS16 t (0x40 + 2 * i)).natAbs ≤ 100) &&
    (calS16 t 0x50).natAbs ≤ 5000 && bytesAt t 0x52 2 ≤ 1023 &&
    (List.range 8).all (fun i => (calS16 t (0x60 + 2 * i)).natAbs ≤ 3072)

/-- Every reserved byte of a table is 0. -/
def calReservedZero (t : List Byte) : Bool :=
  bytesAt t 7 1 == 0 && bytesAt t 0x4E 2 == 0 && bytesAt t 0x54 12 == 0 &&
    ((t.drop 0x80).take 124).all (fun b => b == 0)

/-- The first failing test of a table, as CAL_STATUS.REASON codes it; 0 for a valid table (R162). -/
def calReason (t : List Byte) : Nat :=
  if bytesAt t 0 4 ≠ 0x544C4143 then 1
  else if bytesAt t 5 1 ≠ 1 then 2
  else if bytesAt t 8 4 ≠ 0x100 then 3
  else if bytesAt t 0xFC 4 ≠ crc32 (t.take 0xFC) then 4
  else if !calInRange t then 5
  else if !calReservedZero t then 6
  else 0

/-- The table in the CAL sector. -/
def State.calSector (s : State) : List Byte := s.flashRead 0x20000 256

/-- Apply a table or, where there is none, the defaults: UNCALIBRATED and the thresholds follow, every median filter
refills, every dwell timer restarts, and noise floors are seeded again (R164, R170, R519). -/
def applyCal (t : Option (List Byte)) (s : State) : State :=
  let s1 := s.puts [(F.globalStatusUncalibrated, b2n t.isNone), (F.calStatusAppliedValid, b2n t.isSome),
    (F.calStatusFactory, t.elim 0 (fun x => b2n (bytesAt x 6 1 == 0)))]
  reseedFloors (refreshThresholds { s1 with fence := { s1.fence with
    table := t, filters := List.replicate 12 [], softRun := [(0, 0), (0, 0)] } })

/-- Read the CAL sector, record REASON and SECTOR_VALID, and apply what it holds (R165, R170). -/
def loadCal (s : State) : State :=
  let t := s.calSector
  let r := calReason t
  applyCal (if r = 0 then some t else none)
    (s.puts [(F.calStatusReason, r), (F.calStatusSectorValid, b2n (r == 0))])

/-- The corrected value of sensor n from its raw value, both in 1/16 °C (R163), truncated toward zero. -/
def State.corrected (s : State) (n : Nat) (raw : Int) : Int :=
  match s.fence.table with
  | none => raw
  | some t =>
    let lo := calS16 t (0x10 + 2 * n)
    let hi := calS16 t (0x28 + 2 * n)
    (960 * (raw - lo) - (raw - 400) * (hi - lo)).tdiv 960

end Sys2Proof.Machine
end

