-- ==== Sys2Proof/Machine/Images.lean ====
section
/-! DEFINITION. Firmware images in the boot flash and their acceptance (spec/04 R108–R110, spec/07 R172–R173), and the
stored plan areas (spec/02 R62–R65). -/
namespace Sys2Proof.Machine

/-- Why an image is not accepted: STATUS and DETAIL of Table 4.7. -/
structure ImageErr where
  status : Nat
  detail : Nat
  deriving DecidableEq, Repr

/-- What is known of an accepted image. -/
structure ImageOk where
  version   : Nat
  fwVersion : Nat
  digest    : Nat
  deriving DecidableEq, Repr

/-- The header of an image for a processor is one of Table 4.6. -/
def imageHeaderOk (proc : Nat) (img : List Byte) : Bool :=
  let len := bytesAt img 8 4
  bytesAt img 0 4 == 0x474D4946 && bytesAt img 4 1 == proc && bytesAt img 5 1 ≤ 63 && bytesAt img 6 1 ≤ 1 &&
    bytesAt img 7 1 == 0 && len % 4 == 0 && 256 ≤ len && len ≤ 0x40000 && len ≤ img.length &&
    bytesAt img 0xC 4 == len - 192 && ((img.drop 0x14).take 44).all (fun b => b == 0)

/-- The acceptance of an image under R110: header, key slot, signature, floor. -/
def checkFirmware (fuses : Fuses) (proc : Nat) (img : List Byte) : Except ImageErr ImageOk :=
  if !imageHeaderOk proc img then .error ⟨0xF0, 0x20⟩
  else
    let body := img.take (bytesAt img 8 4)
    match checkKeys fuses.imageKeys (bytesAt img 6 1) body with
    | some e => .error ⟨0x50, if e.detail = 0x23 then 0x21 else 0x22⟩
    | none =>
      if bytesAt img 5 1 < fuses.imageFloor then .error ⟨0x50, 0x23⟩
      else .ok ⟨bytesAt img 5 1, bytesAt img 0x10 4, sha384 body⟩

/-- The flash address of an image region (Table 4.4, R110). -/
def imageBase (slot proc : Nat) : Nat := 0x80000 + slot * 0x200000 + proc * 0x40000

/-- The bytes of an image region. -/
def State.imageRegion (s : State) (slot proc : Nat) : List Byte := s.flashRead (imageBase slot proc) 0x40000

/-- The image of a processor in a slot, checked. -/
def State.slotImage (s : State) (slot proc : Nat) : Except ImageErr ImageOk :=
  checkFirmware s.boot.fuses proc (s.imageRegion slot proc)

/-- The accepted images of a slot in PROCESSOR order, or the first failure with its processor; images that disagree
on SECURITY_VERSION fail as IMG_BAD_HEADER (R110). -/
def State.verifySlot (s : State) (slot : Nat) : Except (ImageErr × Nat) (List ImageOk) :=
  match s.slotImage slot 0, s.slotImage slot 1, s.slotImage slot 2, s.slotImage slot 3 with
  | .error e, _, _, _ => .error (e, 0)
  | _, .error e, _, _ => .error (e, 1)
  | _, _, .error e, _ => .error (e, 2)
  | _, _, _, .error e => .error (e, 3)
  | .ok a, .ok b, .ok c, .ok d =>
    let bad := [b, c, d].findIdx (fun i => i.version ≠ a.version)
    if bad < 3 then .error (⟨0xF0, 0x20⟩, bad + 1) else .ok [a, b, c, d]

/-- The SECURITY_VERSION of the first valid image of a slot; none where the slot holds no valid image. -/
def State.slotVersion (s : State) (slot : Nat) : Option Nat :=
  ((List.range 4).map (s.slotImage slot)).findSome? (fun r => match r with
    | .ok i => some i.version
    | .error _ => none)

/-- The digest of the image that a region holds by its LENGTH, as a reload computes it (R178). -/
def State.regionDigest (s : State) (slot proc : Nat) : Nat :=
  let img := s.imageRegion slot proc
  sha384 (img.take (bytesAt img 8 4))

/-! Stored plan areas (Table 2.7) -/

/-- The flash address of a plan area. -/
def areaBase (a : Nat) : Nat := 0x480000 + a * 0x200000

/-- Split a chain into its images by their LENGTH fields. -/
def splitImages : Nat → List Byte → List (List Byte)
  | 0, _ => []
  | k + 1, bs => bs.take (bytesAt bs 0x20 4) :: splitImages k (bs.drop (bytesAt bs 0x20 4))

/-- The images of a valid area: AREA_MAGIC, COUNT 1–9 and CHAIN_DIGEST match (R64). -/
def State.areaChain (s : State) (a : Nat) : Option (List (List Byte)) :=
  let h := s.flashRead (areaBase a) 64
  let n := bytesAt h 0xC 4
  if bytesAt h 0 4 = 0x414E4C50 ∧ 1 ≤ bytesAt h 8 1 ∧ bytesAt h 8 1 ≤ 9 ∧ n ≤ 2 ^ 21 - 64 then
    let bs := s.flashRead (areaBase a + 0x40) n
    if bytesAt h 0x10 48 = sha384 bs then some (splitImages (bytesAt h 8 1) bs) else none
  else none

/-- STORE_SEQ of an area. -/
def State.areaSeq (s : State) (a : Nat) : Nat := s.flashNat (areaBase a + 4) 4

/-- The valid areas, the one with the higher STORE_SEQ first (R65). -/
def State.areas (s : State) : List Nat :=
  let v := [0, 1].filter (fun a => (s.areaChain a).isSome)
  if v.length = 2 ∧ s.areaSeq 0 < s.areaSeq 1 then [1, 0] else v

/-- The newest valid stored chain. -/
def State.storedChain (s : State) : Option (List (List Byte)) := (s.areas.head?).bind s.areaChain

/-- The digest of a chain: over its images, concatenated (Table 2.7). -/
def chainDigest (imgs : List (List Byte)) : Nat := sha384 imgs.flatten

/-- The RATE of the ISLAND record of the full plan in the area with the higher STORE_SEQ, read without checks; 6,400 MT/s
when no such record is found (Table 4.17). -/
def State.storedRate (s : State) : Nat :=
  let a := if s.areaSeq 0 < s.areaSeq 1 ∧ s.flashNat (areaBase 1) 4 = 0x414E4C50 then 1
    else if s.flashNat (areaBase 0) 4 = 0x414E4C50 then 0 else 1
  let img := s.flashRead (areaBase a + 0x40) (s.flashNat (areaBase a + 0x60) 4)
  match walkRecords img (img.length - 192) 65536 0x100 0 with
  | .ok rs =>
    match rs.find? (fun r => r.typ = 2) with
    | some r => (islandOf 69 (r.w 69)).rate
    | none => 2
  | .error _ => 2

/-- What a plan is checked against now. -/
def State.planCtx (s : State) (runtime : Bool) (active : PlanCfg) (chain : List (List Byte)) : PlanCtx :=
  { keys := s.boot.fuses.planKeys, floor := s.boot.fuses.planFloor, variant := s.boot.fuses.variant,
    usable := s.usable, active := active, grafts := chain.length - 1, bytes := chain.flatten.length,
    runtime := runtime }

/-- The result of checking a stored chain: images that passed with the configuration they give, the clamps and the
skipped records, and the first failure with its image number. -/
structure ChainResult where
  images  : List (List Byte)
  cfg     : PlanCfg
  clamps  : Nat
  skipped : Nat
  err     : Option (PlanErr × Nat)
  deriving DecidableEq, Repr

/-- Check the grafts of a chain in order on top of what has passed (R65). -/
def checkGrafts (s : State) : List (List Byte) → Nat → ChainResult → ChainResult
  | [], _, r => r
  | g :: gs, k, r =>
    match checkImage (s.planCtx false r.cfg r.images) true g with
    | .error e => { r with err := some (e, k) }
    | .ok o => checkGrafts s gs (k + 1)
        { images := r.images ++ [g], cfg := o.cfg, clamps := r.clamps + o.clamps,
          skipped := r.skipped + o.skipped, err := none }

/-- Check a stored chain in full (R65). -/
def State.checkChain (s : State) (imgs : List (List Byte)) : ChainResult :=
  match imgs with
  | [] => ⟨[], .none, 0, 0, some (headerErr 0x40 0x10, 0)⟩
  | p :: gs =>
    match checkImage (s.planCtx false .none []) false p with
    | .error e => ⟨[], .none, 0, 0, some (e, 0)⟩
    | .ok o => checkGrafts s gs 1 ⟨[p], o.cfg, o.clamps, o.skipped, none⟩

end Sys2Proof.Machine
end

