-- ==== Sys2Proof/Machine/Apply.lean ====
section
/-! DEFINITION. Putting a configuration in force: the read-back registers of the plan, VDD_CORE's target, the power of
islands 4–71 (spec/02 R56, R57; spec/23 R546). -/
namespace Sys2Proof.Machine

/-- The newest stored chain differs from a chain (R64). -/
def State.unstored (s : State) (chain : List (List Byte)) : Bool :=
  match s.storedChain with
  | none => !chain.isEmpty
  | some c => chainDigest c ≠ chainDigest chain

/-- Make a configuration with its chain the active one, with its read-back registers (Tables 2.10, 2.13). An empty
chain is the fallback plan. -/
def publishPlan (cfg : PlanCfg) (chain : List (List Byte)) (s : State) : State :=
  let d := chainDigest chain
  let s1 := (s.wr64 R.planActiveId cfg.planId).wr R.planActiveGen (BitVec.ofNat 32 cfg.generation)
  let s2 := s1.puts [(F.planActiveInfoSecurityVersion, cfg.security), (F.planActiveInfoKeyIndex, cfg.keyIndex),
    (F.planActiveInfoGrafts, chain.length - 1), (F.planStatusFallback, b2n chain.isEmpty),
    (F.planStatusUnstored, b2n (s.unstored chain))]
  let s3 := s2.each (List.range 12) (fun i t => t.wr (R.planDigest i) (BitVec.ofNat 32 (d / 2 ^ (32 * i))))
  { s3 with
    plan := { s3.plan with active := cfg, chain := chain },
    fw := { s3.fw with planDigest := some d } }

/-- The highest clock that the active plan gives a powered island whose clock needs VDD_CORE (R546). -/
def PlanCfg.topClock (c : PlanCfg) : Nat :=
  ((List.range 72).map (fun n =>
    let w := c.islands.getD n ⟨false, 0, 0, 0⟩
    if avsIsland n && w.powered then roundClock w.freq else 0)).foldl max 0

/-- The VDD_CORE target that the active plan needs: a raised one is written first and clocks wait for it; for a lower
one the clocks fall first (R546). A request beyond 0.85 V is clamped and counted (R156). -/
def setVoltage (s : State) : State :=
  let t := curveMv s.plan.active.topClock
  let old := s.get F.fenceAvsTargetMv
  let s := s.when (curveRaw s.plan.active.topClock > 850) (fun u => u.bump F.fenceClampsVolt 1)
  if old < t then
    refreshClocks ({ s with fence := { s.fence with raising := some old } }.puts
      [(F.fenceAvsTargetMv, t), (F.fenceAvsSettled, 0)])
  else if t < old then (refreshClocks s).puts [(F.fenceAvsTargetMv, t), (F.fenceAvsSettled, 0)]
  else refreshClocks s

/-- An island that an applied plan powers opens, but a processor only with its image loaded and a memory channel or
shed slice only with DRAM trained (R56, R114). -/
def openPlanned (n : Nat) (s : State) : State :=
  let img := (procOf n).elim true (fun p => s.fw.running.getD p .none != .none)
  let mem := !((52 ≤ n && n ≤ 55) || n == 69 || n == 70) || s.get (F.memcCfgState 0) == 2
  if img && mem then openIsland n s else s

/-- Power and configure island n of 4–71 as the active plan directs at a start (R56, R33). -/
def applyIsland (n : Nat) (s : State) : State :=
  if !s.plan.active.powers n then powerDown n 8 s
  else if s.isOpen n then setClock n (configureIsland n s)
  else openPlanned n (powerUp n 1 s)

/-- Every island of 4–71, memory channels and slices first, so that what an opening island needs is open. -/
def applyOrder : List Nat :=
  [69, 70, 52, 53, 54, 55] ++ (List.range 72).filter (fun n => 4 ≤ n && !(52 ≤ n && n ≤ 55) && n ≠ 69 && n ≠ 70)

/-- The size of usable DRAM for a memory configuration: both channels, less 1/32 with inline ECC (R251). -/
def usableOf (m : Nat × Nat × Nat × Nat) : Nat :=
  let raw := 2 * m.2.2.2 * 2 ^ 30
  if m.2.1 = 1 then raw - raw / 32 else raw

/-- DRAM is active: MEMC_CFG and MEMC_USABLE read what was trained, and the channels and slices that are powered open
(Table 4.17, Table 10.6). -/
def activateMemory (m : Nat × Nat × Nat × Nat) (s : State) : State :=
  let s1 := { s with boot := { s.boot with memCfg := m } }.wr64 R.memcUsable (usableOf m)
  let s2 := s1.each [0, 1] (fun c t => configureChannel c t)
  s2.each [69, 70, 52, 53, 54, 55] (fun n t => openIsland n t)

end Sys2Proof.Machine
end

