-- ==== Sys2Proof/Machine/Power.lean ====
section
/-! DEFINITION. Meanings of the commands of spec/05: requesting a power state, settling, the sequence and the wake
sources. -/
namespace Sys2Proof.Machine

/-- The RESULT of a PWR_REQUEST: 0 accepted, else why it is refused (R130, R134, Table 5.7). -/
def powerResult (w : Writer) (key target : Nat) (s : State) : Nat :=
  if key ≠ 0x5AD0 ∨ !isPf0 w ∨ !s.hasToken w then 1
  else if s.get F.pwrStatusPhase ≠ 0 then 3
  else if 2 ≤ s.power ∨ 4 < target ∨ (target = 0 ∧ s.power ≠ 1) then 2
  else if target = 2 ∧ (s.get F.hostqLinkAspmL1 = 0 ∨ s.get F.hostqLinkL12 = 0) then 6
  else 0

/-- The effect of a PWR_REQUEST write: held before READY (R125), refused with its RESULT, or accepted; in Shade the
device first comes to Bloom (R130). -/
def powerRequest (w : Writer) (value : Nat) (s : State) : State :=
  let target := slice value 0 3
  let drain := slice value 4 1
  if s.boot.starting then { s with boot := { s.boot with heldPower := some (w, value) } }
  else
    let r := powerResult w (value / 2 ^ 16) target s
    let s1 := s.put F.pwrStatusResult r
    if r ≠ 0 then s1
    else
      let s0 := noteOrigin 5 w s1
      let s2 := if 2 ≤ target then { s0 with host := { s0.host with ltrUs := 1000 } } else s0
      if s.power = 1 then
        let s3 := s2.put F.pwrStatusLastTarget target
        shadeExit [] (if target = 0 then s3 else { s3 with pwr := { s3.pwr with after := some (target, drain) } })
      else beginEntry target drain s2

/-- PWR_REQUEST (R130, R131). -/
def execPwrRequest (w : Writer) (key : BitVec 16) (target : BitVec 3) (drain : BitVec 1) (s : State) : Out :=
  let v := keyed key.toNat (target.toNat + 16 * drain.toNat)
  .next (writeAccess w R.pwrRequest v (powerRequest w v) s)

/-- SOFTWARE_SHADE_EXIT (R130): a PWR_REQUEST with TARGET 0. -/
def execSoftwareShadeExit (w : Writer) (key : BitVec 16) (s : State) : Out :=
  .next (writeAccess w R.pwrRequest (keyed key.toNat 0) (powerRequest w (keyed key.toNat 0)) s)

/-- The WAIT and mode fields of a processor in PWR_MODE (Table 5.8). -/
def waitFields (p : Nat) : Field × Field :=
  match p with
  | 0 => (F.pwrModeGkWait, F.pwrModeTarget)
  | 1 => (F.pwrModeG0Wait, F.pwrModeG0Mode)
  | 2 => (F.pwrModeG1Wait, F.pwrModeG1Mode)
  | _ => (F.pwrModeSkWait, F.pwrModeSkMode)

/-- A processor may settle: Gardener 0 once its work is drained and no plan command runs, Gardener 1 once each decoder
has finished its access unit (R131 steps 1 to 3, R70). -/
def State.maySettle (s : State) (p : Nat) : Bool :=
  (p != 1 || (s.host.entries.isEmpty && s.get F.planStatusPhase == 0)) &&
    (p != 2 || s.intake.engines.all (fun e => e.isNone)) && (p != 3 || (s.evid.reqs.isEmpty && s.evid.ops.isEmpty))

/-- What a processor does before the WAIT of a settle: the Groundskeeper has every slice write back before Fallow
(R273); Gardener 1 stops intake and display (step 3); the Seedkeeper writes its checkpoint and sets the NAND clean flag
for Fallow and deeper (R501). -/
def settleProcessor (p target : Nat) (s : State) : State :=
  if p = 0 ∧ target = 2 then s.each (s.mem.lines.filter (fun l => l.dirty)) writeBack
  else if p = 2 then settleStreams s
  else if p = 3 ∧ 2 ≤ target then
    let s1 := if s.get F.nandStatusState = 2 then checkpoint s else s
    { s1 with boot := { s1.boot with nandClean := true } }
  else s

/-- A BOOT_FW_CMD completes. -/
def finishFw (result status detail : Nat) (s : State) : State :=
  setEvent 1 (s.puts [(F.bootFwCmdStatusResult, result), (F.bootFwCmdStatusStatus, status),
    (F.bootFwCmdStatusDetail, detail), (F.bootFwCmdStatusDone, 1), (F.bootFwCmdStatusBusy, 0)])

/-- A processor that settled for HOT_SWAP is closed with cause 5 and opened running the new image (R182 step 4). -/
def runHotSwap (p : Nat) (img : List Byte) (s : State) : State :=
  let n := procIsland p
  let s1 := wdogRecord p 3 0 (closeIsland n 5 s)
  let s2 := { s1 with fw := { s1.fw with
    running := setAt p .hot s1.fw.running, hotSwap := none,
    hotDigest := (p, sha384 (img.take (bytesAt img 8 4))) :: s1.fw.hotDigest.filter (fun e => e.1 ≠ p) } }
  let s3 := (s2.wr (R.bootFwVersion p) (BitVec.ofNat 32 (bytesAt img 0x10 4))).put F.bootFwStatusHot
    (listMask (p :: maskList 4 (s2.get F.bootFwStatusHot)))
  finishFw 0 0 0 (openIsland n s3)

/-- PROCESSOR_WAIT (R174, R131): the mode bits and WAIT; the sequence starts when all four wait with the target's. A
processor that settles for HOT_SWAP gets its new image (R182). -/
def execProcessorWait (proc : Fin 4) (mode : BitVec 3) (s : State) : Out :=
  let f := waitFields proc
  let m := mode.toNat
  let settling := s.get F.pwrStatusPhase = 1 ∧ m ≠ 0 ∧ m = s.get F.pwrStatusLastTarget
  let swap := s.fw.hotSwap.filter (fun h => h.1 = proc.val ∧ s.maySettle proc)
  .next (if !s.isOpen (procIsland proc) then s
    else if swap.isSome then runHotSwap proc (swap.elim [] (fun h => h.2)) s
    else if m = 0 then s.puts [(f.1, 1), (f.2, 0)]
    else if settling ∧ s.maySettle proc then
      tryLeave ((settleProcessor proc m s).puts [(f.1, 1), (f.2, m)])
    else s)

/-- Dormant and Frost: DRAM is off and configuration space is cold (Table 5.3, R135); in Frost islands 0 and 3 lose
their state, the retention store with it (R192). -/
def loseDeep (target : Nat) (s : State) : State :=
  let s1 := if 3 ≤ target then
      { s with
        mem := { s.mem with dram := [], poison := [] },
        boot := { s.boot with linkTraining := false },
        host := { s.host with
          fns := HostUnit.reset.fns, vfEnable := false, bar4Size := 2 ^ 28, linkUp := false } }
    else s
  if target = 4 then
    { s1 with fw := { s1.fw with
      running := [.none, .none, .none, .none], keyStore := [], training := none, waiters := [], planDigest := none } }
  else s1

/-- SEQUENCE_DONE (R128, R131, R144): the state is reached and counted; a latched wake begins the exit at once. -/
def execSequenceDone (s : State) : Out :=
  let t := s.get F.pwrStatusLastTarget
  .next (if s.get F.pwrStatusPhase ≠ 3 then s
    else
      let s1 := s.puts [(F.pwrStatusState, t), (F.pwrStatusPhase, 0), (F.pwrStatusDone, 1)]
      let s2 := s1.bump (if t = 1 then F.pwrCountShade else F.pwrCountDeep) 1
      let s3 := if 2 ≤ t then (settleMics (loseDeep t (loseIslands s2))).put F.fenceAvsTargetMv 550 else s2
      let s4 := refreshClocks s3
      let c := s4.pwr.latched
      let s5 := { s4 with pwr := { s4.pwr with latched := [] } }
      if c.isEmpty then s5 else if t = 1 then shadeExit c s5 else wakeStart (t + 1) c s5)

/-- SETTLE_HALF_TIMEOUT (R131): in FINISH, the orders still running are cut. -/
def execSettleHalfTimeout (s : State) : Out :=
  .next (if s.get F.pwrStatusPhase = 1 ∧ !s.pwr.cut then
      cutForSettle { s with pwr := { s.pwr with cut := true } }
    else s)

/-- SETTLE_TIMEOUT (R133): the entry is abandoned, and PWR_MODE still shows who had not reached WAIT. -/
def execSettleTimeout (s : State) : Out :=
  let m := s.rd R.pwrMode
  let waits := s.get F.pwrModeG0Wait = 1 ∧ s.get F.pwrModeG1Wait = 1 ∧ s.get F.pwrModeSkWait = 1
  .next (if s.get F.pwrStatusPhase = 1 ∧ !decide waits then (abandonEntry 5 s).wr R.pwrMode m else s)

/-- LINK_WAIT_TIMEOUT (R135): island 60 goes off with the link up, which the root port sees as a surprise link-down. -/
def execLinkWaitTimeout (s : State) : Out :=
  .next (if s.get F.pwrStatusPhase = 2 then
      runSequence ({ s with host := { s.host with linkUp := false } }.bump F.hostqLinkDownCount 1)
    else s)

/-- WAKE_N_FALL (R538, R136). -/
def execWakeNFall (s : State) : Out :=
  .next (wakeEvent 0 { s with board := { s.board with wakeN := false } })

/-- RTC_ALARM (R136, Table 5.9): the alarm fires as a wake source and clears. -/
def execRtcAlarm (s : State) : Out :=
  .next (if s.rd R.pwrAlarm = 0 then s else wakeEvent 1 (s.wr R.pwrAlarm 0))

/-- PWR_TIMER_EXPIRY (R136): PWR_TIMER_MS runs from a state's entry. -/
def execPwrTimerExpiry (s : State) : Out :=
  .next (if s.rd R.pwrTimerMs = 0 ∨ s.power = 0 then s else wakeEvent 5 s)

/-- PCIE_WAKE (R136, Table 5.2): an L1.2 exit or training activity. -/
def execPcieWake (s : State) : Out := .next (wakeEvent 4 s)

/-- A port is enabled: its MODE is not off (Table 18.11). -/
def State.portEnabled (s : State) (p : Nat) : Bool := s.get (F.intakePortCfgMode p) != 0

/-- SHADE_FRAME_ARRIVAL (R140): the frame is held where it fits in the port's 32 KiB, else dropped and counted, and it
is an exit event under bit 6. -/
def execShadeFrameArrival (port : Fin 4) (frame : List Byte) (s : State) : Out :=
  let held := (s.pwr.frames.filter (fun f => f.1 = port.val)).foldl (fun n f => n + f.2.length) 0
  .next (if s.power ≠ 1 ∨ !s.portEnabled port then s
    else if held + frame.length ≤ 32768 then
      wakeEvent 6 { s with pwr := { s.pwr with frames := s.pwr.frames ++ [(port.val, frame)] } }
    else wakeEvent 6 (s.bump32 R.pwrShadeDrop 1))

end Sys2Proof.Machine
end

