-- ==== Sys2Proof/Machine/Boot.lean ====
section
/-! DEFINITION. Meanings of the start steps (spec/04 R102–R107, R111–R117, R120, R121; spec/02 R56, R65, R71). A step
command acts only when its step is due. -/
namespace Sys2Proof.Machine

/-- A step command: its effect when the step is due, nothing otherwise. -/
def atStepDo (k : Nat) (f : State → State) (s : State) : Out := .next (if s.atStep k then f s else s)

/-- POWER_GOOD (R102, R107, R550): the starting islands are powered; a wake from Fallow or Dormant powers every island
that the active chain powers, and the boot flash controller opens. -/
def execPowerGood (s : State) : Out :=
  atStepDo 1 (fun s =>
    let k := s.startKind
    let s0 := { s with board := { s.board with crystal := true } }
    let s1 := if k < 3 then s0.each [0, 1, 2, 3] powerUpQuiet
      else if k = 5 then s0.each [0, 3] powerUpWake
      else openIsland 59 (s0.each ((List.range 72).filter (fun n => 4 ≤ n && s0.plan.active.powers n)) powerUpWake)
    stepDone 1 s1) s

/-- The management address that the straps select: L1 and L0 are 0 low, 1 open, 2 high (Table 9.1). -/
def strapAddr (l1 l0 : Nat) : Nat := 0x60 + 3 * l1 + l0

/-- FUSE_LOAD (R102, R536, R539): islands 1 and 2 open, the fuses are shadowed, the straps and TEST_MODE are
sampled. -/
def execFuseLoad (eccOk : Bool) (strap1 strap0 : Fin 3) (testMode : Bool) (s : State) : Out :=
  atStepDo 2 (fun s =>
    let f := s.boot.fuses
    let s0 := { s with board := { s.board with strap0 := strap0, strap1 := strap1, testMode := testMode } }
    let s1 := openIsland 2 (openIsland 1 s0)
    if !eccOk then haltStart 0x10 s1
    else
      let mask := fun (p : KeySlot → Bool) => listMask ((List.range 4).filter (fun i => p (f.planKeys.getD i ⟨0, false, false⟩)))
      let s2 := s1.puts [(F.planKeysProvisioned, mask (fun k => k.provisioned)), (F.planKeysRevoked, mask (fun k => k.revoked)),
        (F.planKeysFloor, f.planFloor), (F.bootSlotFloor, f.imageFloor), (F.globalIdVariant, f.variant),
        (F.mgmtCfgAddr, strapAddr strap1 strap0), (F.mgmtCfgStrap0, strap0), (F.mgmtCfgStrap1, strap1)]
      if testMode then haltStart 0x14 s2 else stepDone 2 s2) s

/-- ROM_CHECK (R102, R115). -/
def execRomCheck (digestOk : Bool) (s : State) : Out :=
  atStepDo 3 (fun s => if digestOk then stepDone 3 s else haltStart 0x11 s) s

/-- The FAILURE record of an attempt that a trip ended (R123). -/
def recordTrip (s : State) : State :=
  match s.boot.tripMark with
  | none => s
  | some k => appendRecord 3 s.recSlot k 0xF0 0x70 0 { s with boot := { s.boot with tripMark := none } }

/-- The slot that R111 chooses: the preferred one with fewer than two failed attempts, else the other, else none. -/
def State.chooseSlot (s : State) : Option Nat :=
  let p := s.dirPreferred
  if s.failedAttempts p < 2 then some p else if s.failedAttempts (1 - p) < 2 then some (1 - p) else none

/-- What BOOT_DIR reads from a usable flash, and its choice of a slot or of safe mode (R109, R111, R114, R116). -/
def readDirectory (s : State) : State :=
  let s1 := recordTrip s
  let p := s1.dirPreferred
  let s2 := s1.puts [(F.bootStatusDirDefault, b2n s1.dirCopy.isNone), (F.bootSlotPreferred, p),
    (F.bootSlotFailsA, min 2 (s1.failedAttempts 0)), (F.bootSlotFailsB, min 2 (s1.failedAttempts 1))]
  let s3 := { s2 with boot := { s2.boot with ecc := s1.dirEcc = 1, rate := s1.storedRate } }
  let s4 := match s3.newestFailure with
    | some r => showFailure r s3
    | none => s3
  match s4.chooseSlot with
  | some c =>
    let s5 := s4.puts [(F.bootSlotRunning, c), (F.bootStatusSlotSwitched, b2n (c ≠ p))]
    stepDone 4 (appendRecord 1 c 4 0 0 0 s5)
  | none =>
    let s5 := s4.put F.bootStatusSafe 1
    stepDone 4 (appendRecord 4 0xFF 4 0 0 0 s5)

/-- BOOT_DIR (R108, R111). -/
def execBootDir (probe : FlashProbe) (s : State) : Out :=
  atStepDo 4 (fun s => match probe with
    | .noResponse => haltStart 0x12 s
    | .tooSmall => haltStart 0x13 s
    | .ok => readDirectory s) s

/-- GK_VERIFY (R110, R173). -/
def execGkVerify (s : State) : Out :=
  atStepDo 5 (fun s =>
    let slot := s.get F.bootSlotRunning
    match s.slotImage slot 0 with
    | .error e => failStart e.status e.detail 0 s
    | .ok i =>
      let s1 := (s.puts [(F.bootSlotRunVersion, i.version),
        (F.bootSlotOtherVersion, (s.slotVersion (1 - slot)).getD 0x3F)]).wr (R.bootFwVersion 0) (BitVec.ofNat 32 i.fwVersion)
      stepDone 5 { s1 with fw := { s1.fw with digests := setAt 0 i.digest s1.fw.digests } }) s

/-- GK_RUN (R102, R106): island 0 opens with its image, or with the ROM's safe-mode monitor; islands 3 and 60 open. -/
def execGkRun (s : State) : Out :=
  atStepDo 6 (fun s =>
    let s1 := { s with fw := { s.fw with running := setAt 0 .slot s.fw.running } }
    stepDone 6 (s1.each [0, 3, 60] openIsland)) s

/-- PCIE_TRAINING_START (R106): after GK_RUN in a cold start or from Frost, at LINKS_UP from Dormant. -/
def execPcieTrainingStart (s : State) : Out :=
  let k := s.startKind
  let step := s.get F.bootStatusStep
  .next (if s.boot.starting ∧ (((k < 3 ∨ k = 5) ∧ 6 < step) ∨ (k = 4 ∧ 14 ≤ step)) then
      { s with boot := { s.boot with linkTraining := true } }
    else s)

/-- Ranks and capacity per channel: fixed on the RZ64-M (Table 10.1). -/
def State.dramSize (s : State) (ranks capGib : Nat) : Nat × Nat :=
  if s.boot.fuses.variant = 0 then (1, 8) else (ranks, capGib)

/-- The 4 KiB training record (Table 10.3). -/
def trainBytes (s : State) (identity data : List Byte) : List Byte :=
  let pad := fun n (bs : List Byte) => bs.take n ++ List.replicate (n - bs.length) 0
  let body := leBytes 4 0x524E5254 ++ leBytes 2 0x0100 ++ leBytes 1 s.wantedRate ++ leBytes 1 (b2n s.boot.ecc) ++
    leBytes 1 (ofInt 8 s.tempC) ++ [0, 0, 0] ++ leBytes 4 0x1000 ++ pad 16 identity ++ pad 4060 data
  body ++ leBytes 4 (crc32 body)

/-- MEM_TRAIN (R104, R250, R256, R114): the record goes to the TRAIN sector and to island 0. -/
def execMemTrain (result : Training) (s : State) : Out :=
  atStepDo 7 (fun s =>
    let s0 := s.put F.bootStatusMemTrained 1
    match result with
    | .failed info => if s.get F.bootStatusSafe = 1 then stepDone 7 s0 else failStart 0xF0 0x30 info s0
    | .trained identity ranks capGib data =>
      let z := s.dramSize ranks capGib
      let r := trainBytes s identity data
      let s1 := flashWrite 0x30000 r (flashErase 0x30000 0x10000 s0)
      let s2 := { s1 with fw := { s1.fw with training := some r } }
      stepDone 7 (activateMemory (s.wantedRate, b2n s.boot.ecc, z.1, z.2) s2)) s

/-- The key slots that the Groundskeeper reloads from the retention store at a warm start (R192). -/
def reloadKeys (s : State) : State :=
  { s with mem := { s.mem with keys := s.fw.keyStore } }.put F.bootKeymbStatusLoaded
    (listMask (s.fw.keyStore.map (fun (k : Nat × List Byte × List Byte) => k.1 - 1)))

/-- MEM_RESTORE (R104): from Fallow the record is applied without a test and a failing read-back fails the start; from
Dormant and Frost a changed identity or a failing read-back leads to MEM_TRAIN in the same start. -/
def execMemRestore (identity : List Byte) (ranks capGib : Nat) (readBack : Bool) (s : State) : Out :=
  atStepDo 8 (fun s =>
    let k := s.startKind
    if k = 3 then
      if readBack then stepDone 8 (reloadKeys (activateMemory s.boot.memCfg s)) else failStart 0xF0 0x31 0 s
    else
      let r := s.trainRecord.getD []
      let z := s.dramSize ranks capGib
      if readBack ∧ (r.drop 0x10).take 16 = identity then
        let s1 := { s with fw := { s.fw with training := some r } }
        stepDone 8 (reloadKeys (activateMemory (bytesAt r 6 1, b2n s.boot.ecc, z.1, z.2) s1))
      else s.put F.bootStatusStep 7) s

/-- Run the checked images of the running slot in islands 56–58. -/
def runImages (oks : List ImageOk) (s : State) : State :=
  let s1 := { s with fw := { s.fw with
    running := [s.fw.running.getD 0 .none, .slot, .slot, .slot], digests := oks.map (fun (i : ImageOk) => i.digest) } }
  let s2 := s1.each oks.zipIdx (fun e t => t.wr (R.bootFwVersion e.2) (BitVec.ofNat 32 e.1.fwVersion))
  s2.each [56, 57, 58] openIsland

/-- IMAGES_VERIFY (R173, Table 4.2): signatures after a cold start or Frost, the digest of the flash image from Dormant,
the digest of the copy in DRAM from Fallow (`copiesOk`). -/
def execImagesVerify (copiesOk : Bool) (s : State) : Out :=
  atStepDo 9 (fun s =>
    let k := s.startKind
    let slot := s.get F.bootSlotRunning
    if k < 3 ∨ k = 5 then
      match s.verifySlot slot with
      | .error e => failStart e.1.status e.1.detail e.2 s
      | .ok oks => stepDone 9 (runImages oks s)
    else
      let bad := [1, 2, 3].find? (fun p =>
        if k = 3 then !copiesOk else s.regionDigest slot p ≠ s.fw.digests.getD p 0)
      match bad with
      | some p => failStart 0xF0 0x24 p s
      | none =>
        let oks := (List.range 4).map (fun p =>
          (⟨0, (s.rd (R.bootFwVersion p)).toNat, s.fw.digests.getD p 0⟩ : ImageOk))
        stepDone 9 (runImages oks s)) s

/-- CAL_LOAD (R165). -/
def execCalLoad (s : State) : Out := atStepDo 10 (fun s => stepDone 10 (loadCal s)) s

/-- PLAN_ERROR and PLAN_STATUS of a failed check; where the spec names no word, WORD is a free value (log entry 1). -/
def showPlanError (e : PlanErr) (image area : Nat) (s : State) : State :=
  let d := s.draw
  let s1 := if e.word.isNone then d.2 else s
  s1.puts [(F.planErrorRecord, e.record), (F.planErrorWord, e.word.getD d.1), (F.planErrorImage, image),
    (F.planErrorArea, area), (F.planStatusResult, e.status), (F.planStatusDetail, e.detail)]

/-- Accept a chain for PLAN_APPLY. -/
def acceptChain (r : ChainResult) (s : State) : State :=
  let s1 := s.puts [(F.planStatusSkipped, min 15 r.skipped)]
  let s2 := if r.err.isNone then
      s1.puts [(F.planStatusResult, 0), (F.planStatusDetail, if r.clamps = 0 then 0 else 1)]
    else s1
  { s2 with boot := { s2.boot with verified := some (r.images, r.cfg, r.clamps) } }

/-- Try the stored areas in order: each in full, the fallback plan when none holds a good full plan (R65). -/
def tryAreas : List Nat → State → State
  | [], s => { s with boot := { s.boot with verified := some ([], fallbackCfg, 0) } }
  | a :: as, s =>
    let r := s.checkChain ((s.areaChain a).getD [])
    let s1 := match r.err with
      | some e => showPlanError e.1 e.2 a s
      | none => s
    if r.images.isEmpty then tryAreas as s1 else acceptChain r s1

/-- PLAN_VERIFY (R65, R71): in full after a cold start or Frost; from Fallow the shadow's digest (`shadowOk`); from
Dormant the newest stored chain by digest, else in full with REVERTED. -/
def execPlanVerify (shadowOk : Bool) (s : State) : Out :=
  atStepDo 11 (fun s =>
    let k := s.startKind
    let keep := { s with boot := { s.boot with verified := some (s.plan.chain, s.plan.active, (s.rd R.planClamps).toNat) } }
    if k = 3 then (if shadowOk then stepDone 11 keep else failStart 0xF0 0x24 0 s)
    else if k = 4 then
      let held := s.fw.planDigest.getD (chainDigest [])
      if s.storedChain.elim (held == chainDigest []) (fun c => chainDigest c == held) then stepDone 11 keep
      else stepDone 11 ((tryAreas s.areas s).put F.planStatusReverted 1)
    else
      let before := ((List.range 12).map (fun i => 2 ^ (32 * i) * (s.rd (R.planDigest i)).toNat)).foldl (fun a b => a + b) 0
      let s1 := tryAreas s.areas s
      let after := chainDigest (s1.boot.verified.elim [] (fun v => v.1))
      stepDone 11 (if k = 5 ∧ before ≠ after then s1.put F.planStatusReverted 1 else s1)) s

/-- PLAN_APPLY (R56, R120, R546): the accepted chain, or in safe mode the fallback plan, is put in force. After data
loss no lock is preloaded. -/
def execPlanApply (s : State) : Out :=
  atStepDo 12 (fun s =>
    let v := if s.get F.bootStatusSafe = 1 then ([], fallbackCfg, 0) else s.boot.verified.getD ([], fallbackCfg, 0)
    let s1 := (publishPlan v.2.1 v.1 s).wr R.planClamps (BitVec.ofNat 32 (min v.2.2 (2 ^ 32 - 1)))
    let s2 := configureCommon { s1 with boot := { s1.boot with verified := none } }
    let s3 := setVoltage (s2.each applyOrder applyIsland)
    let s4 := if s.startKind = 3 then s3.each (List.range 4) preloadSlice else s3
    stepDone 12 (s4.put F.planStatusPhase 0)) s

/-- LINKS_UP (R106, R420): the display trains its link; the start goes on whether or not PCIe has reached L0. -/
def execLinksUp (s : State) : Out :=
  atStepDo 14 (fun s =>
    let s1 := if s.isShut 60 ∧ s.plan.active.powers 60 then openIsland 60 s else s
    let s2 := if s1.isOpen 71 then trainLink s1 else s1
    stepDone 14 (s2.put F.bootStatusLinkPending (b2n !s2.host.linkUp))) s

/-- Lease 5 at READY: to the host with a link up, else to the management port (Table 8.10). -/
def grantToken (s : State) : State :=
  if s.leaseHolder 5 ≠ 0x7F then s
  else if s.host.linkUp then moveToken 0 0 s else moveToken 1 3 s

/-- READY (R102, R117, R121, R125, R155): BOOT_STATUS, the SUCCESS record, lease 5, the LTR, the clearing of DRAM with
ECC, and a power request that waited. -/
def execReady (s : State) : Out :=
  atStepDo 15 (fun s =>
    let k := s.startKind
    let safe := s.get F.bootStatusSafe = 1
    let s1 := (s.wr (R.bootTime 14) (BitVec.ofNat 32 (s.timeUs - s.boot.stepAt))).wr R.bootElapsed
      (BitVec.ofNat 32 (s.timeUs - s.boot.startedAt))
    let s2 := s1.put F.bootStatusReady (b2n !decide safe)
    let s3 := if (k < 3 ∨ k = 5) ∧ !decide safe then appendRecord 2 (s2.get F.bootSlotRunning) 15 0 0 0 s2 else s2
    let s4 := if k = 5 then s3.put F.fenceStateTripLatched 0 else s3
    let clear := s4.boot.memCfg.2.1 = 1 ∧ k ≠ 3
    let held := s4.boot.heldPower
    let s5 := { s4 with
      boot := { s4.boot with
        starting := false, heldPower := none, tripMark := none,
        clearing := if clear then some 0 else none },
      host := { s4.host with ltrUs := 50 } }
    let s5 := if k = 3 ∨ k = 4 then settleMics s5 else s5
    let s5 := if 3 ≤ k ∧ bit (s5.get F.bootKindWakeCause) 3 then setEvent 12 s5 else s5
    let s6 := if s5.runsStep 13 then grantToken s5 else mountAndWork false (grantToken s5)
    match held with
    | some (w, v) => powerRequest w v s6
    | none => s6) s

/-- START_TIMER_EXPIRY (R112, R550): the timer runs from FUSE_LOAD on. -/
def execStartTimerExpiry (s : State) : Out :=
  .next (if s.boot.starting ∧ 1 < s.get F.bootStatusStep then failStart 0xF0 0x01 0 s else s)

/-- DRAM_CLEAR_DONE (R121): the clearing passes one more 2 MiB region. -/
def execDramClearDone (s : State) : Out :=
  .next (match s.boot.clearing with
    | none => s
    | some r => { s with boot := { s.boot with
        clearing := if s.usable ≤ (r + 1) * 2 ^ 21 then none else some (r + 1) } })

end Sys2Proof.Machine
end

