-- ==== Sys2Proof/Machine/BootCmd.lean ====
section
/-! DEFINITION. Meanings of the BOOT_CMD operations (spec/04 R109, R110, R117, R118, R126, R127) and of the reset and
supply pins (spec/04 R122; spec/23 R536, R537, R543, R544). -/
namespace Sys2Proof.Machine

/-- The value of a BOOT_CMD write. -/
def bootCmdValue (key op slot image : Nat) : Nat := keyed key (op + 16 * slot + 32 * image)

/-- The first condition of R127 that a write fails, as RESULT codes it; 0 where all hold. -/
def bootResult (w : Writer) (key : Nat) (s : State) : Nat :=
  if key ≠ 0xB0C7 ∨ !isPf0 w ∨ !s.hasToken w ∨ s.get F.bootCmdStatusBusy = 1 then 1
  else if s.get F.bootStatusReady = 0 ∧ s.get F.bootStatusSafe = 0 then 2
  else 0

/-- A BOOT_CMD completes: RESULT, STATUS, DETAIL, DONE and event BOOT (Table 4.14). -/
def finishBoot (result status detail : Nat) (s : State) : State :=
  setEvent 1 (s.puts [(F.bootCmdStatusResult, result), (F.bootCmdStatusStatus, status), (F.bootCmdStatusDetail, detail),
    (F.bootCmdStatusDone, 1)])

/-- A BOOT_CMD write (R127): refused with its RESULT, or carried out by the Groundskeeper; with island 0 closed an
accepted command ends with LEASE_REVOKED (Table 7.2). -/
def bootCommand (w : Writer) (key : Nat) (act : State → State) (s : State) : State :=
  let r := bootResult w key s
  if r ≠ 0 then s.put F.bootCmdStatusResult r
  else
    let s1 := noteOrigin 1 w s
    if s1.isShut 0 then finishBoot 0 0x12 0 s1 else act s1

/-- WRITE_SLOT's conditions and effect: the region is erased, written from the source and read back. -/
def writeSlot (w : Writer) (slot image : Nat) (s : State) : State :=
  let n := (s.rd R.bootSrcLen).toNat
  if n % 4 ≠ 0 ∨ 0x40000 < n then s.put F.bootCmdStatusResult 1
  else if s.get F.bootStatusSafe = 0 ∧ slot = s.get F.bootSlotRunning then s.put F.bootCmdStatusResult 3
  else
    let r := readSource w (s.rd64 R.bootSrcAddr) n s
    match r.1 with
    | some bs => finishBoot 0 0 0 (flashWrite (imageBase slot image) bs (flashErase (imageBase slot image) 0x40000 r.2))
    | none => finishBoot 0 0xF0 0 r.2

/-- WRITE_SLOT (R126, R127). -/
def execWriteSlot (w : Writer) (key : BitVec 16) (slot : BitVec 1) (image : BitVec 2) (s : State) : Out :=
  .next (writeAccess w R.bootCmd (bootCmdValue key.toNat 1 slot.toNat image.toNat)
    (bootCommand w key.toNat (writeSlot w slot.toNat image.toNat)) s)

/-- VERIFY_SLOT's effect: the four images are checked without running them. -/
def verifySlotCmd (slot : Nat) (s : State) : State :=
  match s.verifySlot slot with
  | .ok _ => finishBoot 0 0 0 s
  | .error e => finishBoot 5 e.1.status e.1.detail s

/-- VERIFY_SLOT (R110, R127). -/
def execVerifySlot (w : Writer) (key : BitVec 16) (slot : BitVec 1) (s : State) : Out :=
  .next (writeAccess w R.bootCmd (bootCmdValue key.toNat 2 slot.toNat 0)
    (bootCommand w key.toNat (verifySlotCmd slot.toNat)) s)

/-- SET_PREFERRED's effect: a slot that verifies is written into the directory. -/
def setPreferredCmd (slot : Nat) (s : State) : State :=
  match s.verifySlot slot with
  | .ok _ => finishBoot 0 0 0 ((writeDir slot s).put F.bootSlotPreferred slot)
  | .error e => finishBoot 5 e.1.status e.1.detail s

/-- SET_PREFERRED (R109, R127). -/
def execSetPreferred (w : Writer) (key : BitVec 16) (slot : BitVec 1) (s : State) : Out :=
  .next (writeAccess w R.bootCmd (bootCmdValue key.toNat 3 slot.toNat 0)
    (bootCommand w key.toNat (setPreferredCmd slot.toNat)) s)

/-- CLEAR_ATTEMPTS's effect: a CLEAR record, from which failed attempts count anew (R111). -/
def clearAttemptsCmd (s : State) : State :=
  let s1 := appendRecord 5 s.recSlot (s.get F.bootStatusStep) 0 0 0 s
  finishBoot 0 0 0 (s1.puts [(F.bootSlotFailsA, min 2 (s1.failedAttempts 0)), (F.bootSlotFailsB, min 2 (s1.failedAttempts 1))])

/-- CLEAR_ATTEMPTS (R127). -/
def execClearAttempts (w : Writer) (key : BitVec 16) (s : State) : Out :=
  .next (writeAccess w R.bootCmd (bootCmdValue key.toNat 4 0 0) (bootCommand w key.toNat clearAttemptsCmd) s)

/-- BURN_FLOOR's effect: the fused image floor rises to the running slot's version unless the other slot is older
(R118). -/
def burnImageFloor (s : State) : State :=
  let v := s.get F.bootSlotRunVersion
  let other := 1 - s.get F.bootSlotRunning
  let allowed := match s.verifySlot other with
    | .ok is => (is.headD ⟨0, 0, 0⟩).version ≥ v
    | .error _ => (s.slotVersion other).isNone
  if !allowed then finishBoot 4 0 0 s
  else
    let f := max s.boot.fuses.imageFloor v
    let s1 := { s with boot := { s.boot with fuses := { s.boot.fuses with imageFloor := f } } }
    finishBoot 0 0 0 (s1.put F.bootSlotFloor f)

/-- BOOT_CMD BURN_FLOOR (R118, R127). -/
def execBootBurnFloor (w : Writer) (key : BitVec 16) (s : State) : Out :=
  .next (writeAccess w R.bootCmd (bootCmdValue key.toNat 5 0 0) (bootCommand w key.toNat burnImageFloor) s)

/-- RESTART_COLD (R127, Table 4.9). -/
def execRestartCold (w : Writer) (key : BitVec 16) (s : State) : Out :=
  .next (writeAccess w R.bootCmd (bootCmdValue key.toNat 6 0 0) (bootCommand w key.toNat (coldStart 2 false)) s)

/-! Reset and supply pins -/

/-- Every reset source has ended: the cold start begins, with START_KIND 0 if the supply was involved (R537). -/
def releaseReset (s : State) : State :=
  if s.board.resetN && s.board.pwrOk && !s.board.detector then coldStart (if s.board.fromOff then 0 else 1) false s else s

/-- RESET_N_ASSERT (R122, R537). -/
def execResetNAssert (s : State) : Out := .next (holdReset { s with board := { s.board with resetN := false } })

/-- RESET_N_DEASSERT (R537). -/
def execResetNDeassert (s : State) : Out :=
  .next (if s.board.resetN then s else releaseReset { s with board := { s.board with resetN := true } })

/-- PWR_OK_RISE (R537, R543). -/
def execPwrOkRise (s : State) : Out :=
  .next (if s.board.pwrOk then s else releaseReset { s with board := { s.board with pwrOk := true } })

/-- PWR_OK falls: the NAND and flash selects are made safe and the device enters reset (R544). -/
def powerFails (s : State) : State := holdReset { s with board := { s.board with pwrOk := false, fromOff := true } }

/-- PWR_OK_FALL (R544). -/
def execPwrOkFall (s : State) : Out := .next (powerFails s)

/-- RAIL_UNDERVOLTAGE (R544): a rail below 85 % acts as PWR_OK falling. -/
def execRailUndervoltage (s : State) : Out := .next (powerFails s)

/-- POWER_ON_DETECT (R537). -/
def execPowerOnDetect (s : State) : Out :=
  .next (holdReset { s with board := { s.board with detector := true, fromOff := true } })

/-- POWER_ON_RELEASE (R537). -/
def execPowerOnRelease (s : State) : Out :=
  .next (if s.board.detector then releaseReset { s with board := { s.board with detector := false } } else s)

end Sys2Proof.Machine
end

