-- ==== Sys2Proof/Machine/Display.lean ====
section
/-! DEFINITION. Meanings of the display's commands (spec/17 R419–R422, R427). -/
namespace Sys2Proof.Machine

/-- HPD_RISE (R420): DP_HPD rises with a sink; the display trains the link. -/
def execHpdRise (sink : Sink) (s : State) : Out :=
  let s1 := { s with disp := { s.disp with sink := some sink } }
  .next (if s1.isOpen 71 then trainLink (s1.put F.dispStatusSink 1) else s1)

/-- HPD_LOW (R420): DP_HPD low for 2 ms takes the link down. -/
def execHpdLow (s : State) : Out :=
  let s1 := { s with disp := { s.disp with sink := none } }
  .next (if s1.isShut 71 then s1 else dropLink (s1.put F.dispStatusSink 0))

/-- The sink reports lost lock at the configuration in use. -/
def State.lockLost (s : State) : Bool :=
  s.get F.dispStatusLink == 2 &&
    s.disp.sink.elim true (fun k => !k.works.contains (s.get F.dispStatusLanes, s.get F.dispStatusRate))

/-- IRQ_HPD (R420): the display reads the link status, as the sink now reports it, and retrains on lost lock. -/
def execIrqHpd (sink : Sink) (s : State) : Out :=
  .next (if s.disp.sink.isNone then s
    else
      let s1 := { s with disp := { s.disp with sink := some sink } }
      if s1.isOpen 71 ∧ s1.lockLost then trainLink s1 else s1)

/-- The value of a DISP_CTRL write with RETRAIN 1. -/
def dispCtrlValue (enable : Bool) : Nat := 2 + b2n enable

/-- A DISP_CTRL write by PF0: ENABLE, and with RETRAIN 1 the link trains again (R420, R427). -/
def writeDispCtrl (w : Writer) (v : Nat) (s : State) : State :=
  if !isPf0 w then s
  else
    let s1 := s.put F.dispCtrlEnable (v % 2)
    if bit v 1 then trainLink s1 else s1

/-- RETRAIN (R420). -/
def execRetrain (w : Writer) (enable : Bool) (s : State) : Out :=
  .next (writeAccess w R.dispCtrl (dispCtrlValue enable) (writeDispCtrl w (dispCtrlValue enable)) s)

/-- A write of a dword of DISP_FB_NEXT by PF0; the high half arms a flip (R421, R427). -/
def writeFbNext (w : Writer) (off : Nat) (v : Word) (s : State) : State :=
  if !isPf0 w then s
  else
    let s1 := plainWrite (writerId w) off v s
    if off = R.dispFbNext + 4 then s1.put F.dispStatusFlipPending 1 else s1

/-- FLIP_ARM (R421). -/
def execFlipArm (w : Writer) (high : Word) (s : State) : Out :=
  .next (writeAccess w (R.dispFbNext + 4) high.toNat
    (fun t => noteReserved (R.dispFbNext + 4) high (writeFbNext w (R.dispFbNext + 4) high t)) s)

/-- An armed flip takes effect; Gardener 1 carries it out, and it waits while island 57 is closed (Table 7.2). -/
def takeFlip (s : State) : State :=
  if s.get F.dispStatusFlipPending = 1 ∧ !s.isShut 57 then
    let s1 := (s.wr64 R.dispFbCur (s.rd64 R.dispFbNext)).put F.dispStatusFlipPending 0
    { s1 with disp := { s1.disp with muted := false } }
  else s

/-- VBLANK_START (R421): a frame has been sent; an armed flip takes effect. After Shade the display first reads the
sink's link status, and retrains on lost lock. -/
def execVblankStart (s : State) : Out :=
  .next (if !s.isOpen 71 then s
    else
      let s1 := { s with disp := { s.disp with idle := false } }
      let s2 := if s.disp.idle ∧ s1.lockLost then trainLink s1 else s1
      if s2.get F.dispStatusLink ≠ 2 then s2
      else
        let s3 := (s2.wrap32 R.dispFrame 1).put F.dispStatusVblank 1
        takeFlip { s3 with disp := { s3.disp with line := 0 } })

/-- A component of `src` bits at a depth of `dst` bits: bit replication when widening, the nearest fraction of full
scale when narrowing (R421, log entry 33). -/
def toDepth (src dst v : Nat) : Nat :=
  if src = dst then v
  else if src < dst then v * 2 ^ (dst - src) + v / 2 ^ (2 * src - dst)
  else (2 * v * (2 ^ dst - 1) + (2 ^ src - 1)) / (2 * (2 ^ src - 1))

/-- Red, green and blue of a pixel word at the link's depth: XRGB8888 or XRGB2101010. -/
def pixelAt (format depth p : Nat) : Nat × Nat × Nat :=
  let n := if format = 0 then 8 else 10
  (toDepth n depth (slice p (2 * n) n), toDepth n depth (slice p n n), toDepth n depth (slice p 0 n))

/-- What a line of the frame buffer gives: its bytes, a translation fault, or an access that failed. -/
def readLine (d : DisplayCfg) (line : Nat) (s : State) : Except VaErr (List Byte) × State :=
  let a := s.get F.dispFbCfgAllot
  let va := s.rd64 R.dispFbCur % 2 ^ 48 + line * 64 * s.get F.dispFbCfgPitch
  vaRead ⟨71, s.plan.active.qos.islands.getD 71 1, 0, false⟩ ((s.allotOwner a).getD 0) a va (4 * d.hActive) .read true s

/-- Black until the next flip, with FB_ERROR (R422). -/
def blackOut (s : State) : State :=
  let s1 := s.put F.dispStatusFbError 1
  { s1 with disp := { s1.disp with muted := true } }

/-- A scan-out translation fault (R422): fatal, black until the next flip, FB_ERROR. -/
def scanFault (reason level va : Nat) (s : State) : State :=
  let a := s.get F.dispFbCfgAllot
  let cls := s.plan.active.qos.islands.getD 71 1
  let fr : FaultRec := {
    stream := .display, va := va, tag := 0, reason := reason, access := .read, allot := a,
    fatal := true, cls := cls, level := level, source := 71, unit := 0xFF, sq := 0xFF, timeUs := 0 }
  let r := reportFault ((s.allotOwner a).getD 0) fr s
  blackOut r.2

/-- The line that was sent, and the next one. -/
def putSent (l : List (Nat × Nat × Nat)) (s : State) : State :=
  { s with disp := { s.disp with sent := l, line := s.disp.line + 1 } }

/-- SCANOUT_LINE (R421, R422): the next active line is sent: black while ENABLE is 0 or no buffer is current, else the
buffer's pixels, those listed in `late` black because their data had not arrived, which DISP_UNDERFLOW counts; so is a
line whose read fails. -/
def execScanoutLine (late : List Nat) (s : State) : Out :=
  .next (match s.plan.active.display with
    | none => s
    | some d =>
      if !s.isOpen 71 ∨ s.get F.dispStatusLink ≠ 2 ∨ d.vActive ≤ s.disp.line then s
      else
        let s1 := s.put F.dispStatusVblank 0
        let black := List.replicate d.hActive (0, 0, 0)
        if s1.get F.dispCtrlEnable = 0 ∨ s1.rd64 R.dispFbCur = 0 ∨ s1.disp.muted then putSent black s1
        else
          let r := readLine d s1.disp.line s1
          match r.1 with
          | .error (.fault reason level va) => putSent black (scanFault reason level va r.2)
          | .error (.err _) => putSent black (r.2.bump32 R.dispUnderflow 1)
          | .ok bs =>
            let px := (List.range d.hActive).map (fun i =>
              if late.contains i then (0, 0, 0)
              else pixelAt (s1.get F.dispFbCfgFormat) (if d.bpc = 0 then 8 else 10) (bytesAt bs (4 * i) 4))
            putSent px (r.2.when (late.any (fun i => i < d.hActive)) (fun t => t.bump32 R.dispUnderflow 1)))

/-! AUX (R427, Table 17.10) -/

/-- The value of a DISP_AUX_CMD write. -/
def auxValue (addr len op : Nat) : Nat := addr + 2 ^ 20 * len + 2 ^ 24 * op

/-- The 16 bytes of DISP_AUX_DATA. -/
def State.auxData (s : State) : List Byte := (List.range 4).flatMap (fun i => leBytes 4 (s.rd (R.dispAuxData i)).toNat)

/-- A DISP_AUX_CMD write by PF0: without a sink it ends with RESULT 4, else the transaction begins. A write while BUSY
or with OP 3 starts none (log entry 33). -/
def auxCommand (w : Writer) (v : Nat) (s : State) : State :=
  let op := slice v 24 2
  if !isPf0 w ∨ s.get F.dispAuxStatusBusy = 1 ∨ op = 3 then s
  else if s.disp.sink.isNone then s.put F.dispAuxStatusResult 4
  else
    let n := slice v 20 4 + 1
    let s1 := s.put F.dispAuxStatusBusy 1
    { s1 with disp := { s1.disp with
      aux := some (op, slice v 0 20, n),
      auxOut := if op = 1 then some (slice v 0 20, s.auxData.take n) else s1.disp.auxOut } }

/-- AUX_NATIVE_READ (R427). -/
def execAuxNativeRead (w : Writer) (addr : BitVec 20) (len : BitVec 4) (s : State) : Out :=
  let v := auxValue addr.toNat len.toNat 0
  .next (writeAccess w R.dispAuxCmd v (auxCommand w v) s)

/-- AUX_I2C_READ (R427): a read of the I2C address 0x50 over AUX. -/
def execAuxI2cRead (w : Writer) (addr : BitVec 20) (len : BitVec 4) (s : State) : Out :=
  let v := auxValue addr.toNat len.toNat 2
  .next (writeAccess w R.dispAuxCmd v (auxCommand w v) s)

/-- AUX_NATIVE_WRITE (R427). -/
def execAuxNativeWrite (w : Writer) (addr : BitVec 20) (len : BitVec 4) (s : State) : Out :=
  let v := auxValue addr.toNat len.toNat 1
  .next (writeAccess w R.dispAuxCmd v (auxCommand w v) s)

/-- Read data lands in DISP_AUX_DATA from byte 0 on. -/
def putAuxData (bs : List Byte) (s : State) : State :=
  let d := bs ++ s.auxData.drop bs.length
  s.each (List.range 4) (fun i t => t.wr (R.dispAuxData i) (BitVec.ofNat 32 (bytesAt d (4 * i) 4)))

/-- AUX_REPLY (R427): the transaction ends with its RESULT; an ACK of a read brings its bytes. -/
def execAuxReply (reply : AuxReply) (s : State) : Out :=
  .next (match s.disp.aux with
    | none => s
    | some (op, _, n) =>
      let s1 := { s with disp := { s.disp with aux := none } }
      let s2 := match reply with
        | .ack bs => (if op = 1 then s1 else putAuxData (bs.take n) s1).put F.dispAuxStatusResult 0
        | .nack => s1.put F.dispAuxStatusResult 1
        | .deferLimit => s1.put F.dispAuxStatusResult 2
        | .timeout => s1.put F.dispAuxStatusResult 3
      s2.put F.dispAuxStatusBusy 0)

end Sys2Proof.Machine
end

