-- ==== Sys2Proof/Machine/Evidence.lean ====
section
/-! DEFINITION. Meanings of the evidence store's commands (spec/20). -/
namespace Sys2Proof.Machine

/-! Requests -/

/-- A row of the store: a dispatched EVIDENCE entry of that OP arrives at island 58 (R488–R490); check 1 is made at
once. While island 58 is shut it completes with ISLAND_RESET (R504). -/
def evidRow (op uid : Nat) (s : State) : Out :=
  .next (match s.entry uid with
    | none => s
    | some e =>
      match e.desc with
      | none => s
      | some d =>
        if e.opcode ≠ 5 ∨ evOp d ≠ op ∨ !s.isOpen 56 ∨ (s.evidReq uid).isSome then s
        else if s.isShut 58 then finishEntry uid (s.islandWord 0x11 58) 0 s
        else if !evOk d then finishEntry uid (dw1 0xF0 0xF0 0) 0 s
        else
          let r : EvidReq := {
            uid := uid, fn := s.sqFn e.sq, allot := s.get (F.sqCfgAllot e.sq), desc := d, begun := false, done := 0,
            pos := 0, buf := [], busy := false, bad := false, ending := none, head := false, lastCount := 0,
            trunc := false, gap := false, past := false }
          workStore (showQueue { s with evid := { s.evid with reqs := s.evid.reqs ++ [r] } }))

/-- QUERY (R488, R502). -/
def execQuery (uid : Nat) (s : State) : Out := evidRow 0 uid s
/-- CREATE (R488). -/
def execCreate (uid : Nat) (s : State) : Out := evidRow 1 uid s
/-- APPEND_MEM (R492). -/
def execAppendMem (uid : Nat) (s : State) : Out := evidRow 2 uid s
/-- APPEND_PKT (R493, R494). -/
def execAppendPkt (uid : Nat) (s : State) : Out := evidRow 3 uid s
/-- SEAL (R488). -/
def execSealClip (uid : Nat) (s : State) : Out := evidRow 4 uid s
/-- READ (R488). -/
def execEvidenceRead (uid : Nat) (s : State) : Out := evidRow 5 uid s
/-- DELETE (R488). -/
def execDelete (uid : Nat) (s : State) : Out := evidRow 6 uid s
/-- VOLUME_CREATE (R487). -/
def execVolumeCreate (uid : Nat) (s : State) : Out := evidRow 7 uid s
/-- VOLUME_DELETE (R488). -/
def execVolumeDelete (uid : Nat) (s : State) : Out := evidRow 8 uid s
/-- FORMAT (R500). -/
def execFormat (uid : Nat) (s : State) : Out := evidRow 9 uid s

/-- APPEND_PKT_TO_NS (R493): device time has passed TO_NS of the running APPEND_PKT of a clip. -/
def execAppendPktToNs (clip : Word) (s : State) : Out :=
  .next (match s.evid.reqs.find? (fun r => r.begun && evOp r.desc == 3 && evClip r.desc == clip.toNat) with
    | none => s
    | some r =>
      if !s.isOpen 58 ∨ (!s.isShut 61 ∧ s.rd64 R.intakeTimeNow < s.evTo r.desc) then s
      else workStore (changeReq r.uid (fun q => { q with past := true }) s))

/-! NAND operations -/

/-- Take the oldest operation under way on a chip enable that a test picks. -/
def takeOp (ce : Nat) (p : NandPurpose → Bool) (s : State) : Option NandOp × State :=
  let t := fun (o : NandOp) => o.loc.ce == ce && p o.purpose
  (s.evid.ops.find? t, { s with evid := { s.evid with ops := s.evid.ops.eraseIdx (s.evid.ops.findIdx t) } })

/-- A journal record names a unit. -/
def markLogged (u : UnitAt) (s : State) : State :=
  { s with nand := { s.nand with units := s.nand.units.map (fun x => if x.loc == u then { x with logged := true } else x) } }

/-- A unit is gone from the medium. -/
def dropUnit (u : UnitAt) (s : State) : State :=
  { s with nand := { s.nand with units := s.nand.units.filter (fun x => x.loc != u) } }

/-- A unit of a request is programmed: journaled, and acknowledged (R492). -/
def ackUnit (u : UnitAt) (uid clip bytes : Nat) (s : State) : State :=
  changeReq uid (fun r => { r with busy := false, done := r.done + bytes }) (journal (.unit clip u bytes) (markLogged u s))

/-- A program of a request fails: its block is retired and the unit is programmed again elsewhere; with the store
read-only the request ends with SPARES_EXHAUSTED, with no free block with OUTPUT_FULL (R492, R499). -/
def failUnit (u : UnitAt) (p : NandPurpose) (uid : Nat) (s : State) : State :=
  let pages := (s.unitAt u).elim [] (fun x => x.pages)
  let s1 := retireBlock u.ce u.blk (dropUnit u s)
  match s1.evidReq uid, s1.nand.superblock with
  | some r, some b =>
    if b.readOnly then endEvid uid (dw1 0x61 0 r.info) r.done s1
    else match s1.nextUnit b with
      | some v => programAt v p pages s1
      | none => endEvid uid (dw1 0x70 0 r.info) r.done s1
  | _, _ => s1

/-- A purpose that programs. -/
def isProgram : NandPurpose → Bool
  | .prog _ _ _ => true
  | .move _ => true
  | _ => false

/-- A purpose that reads. -/
def isRead : NandPurpose → Bool
  | .read _ => true
  | .scrub => true
  | .fetch => true
  | _ => false

/-- A purpose that erases. -/
def isErase : NandPurpose → Bool
  | .erase => true
  | .wipe => true
  | _ => false

/-- The end of a program. -/
def programmed (o : NandOp) (ok : Bool) (s : State) : State :=
  match o.purpose with
  | .prog uid clip bytes => if ok then ackUnit o.loc uid clip bytes s else failUnit o.loc o.purpose uid s
  | .move src => if ok then journal (.moved src o.loc) (markLogged o.loc s) else retireBlock o.loc.ce o.loc.blk (dropUnit o.loc s)
  | _ => s

/-- NAND_PROGRAM_DONE (R492, R498): the oldest program on a chip enable reports success or failure. -/
def execNandProgramDone (ce : Fin 4) (ok : Bool) (s : State) : Out :=
  .next (if !s.isOpen 58 then s
    else match takeOp ce isProgram s with
      | (none, _) => s
      | (some o, s1) => workStore (showStore s.storeShown (programmed o ok s1)))

/-- A codeword's outcome within the ladder: read retry only where it is advertised, hard decode within LIMIT. -/
def ladder (b : Superblock) (w : CwRead) : CwRead :=
  match w with
  | .hard n => if n ≤ cwLimit b.codeB then w else .uncorrectable
  | .retry _ => if b.chip.retries = 0 then .soft else w
  | _ => w

/-- Count a codeword and mark its block for refresh where R485 says so. -/
def countWord (b : Superblock) (ce blk : Nat) (w : CwRead) (s : State) : State :=
  let refresh := setBlock { s.block ce blk with mark := 1 }
  match w with
  | .hard n => if s.evidSet (fun c => c.refreshPct) * cwLimit b.codeB < 100 * n then refresh s else s
  | .retry k => (setBlock { s.block ce blk with mark := 1, retry := some k } s).bump F.nandEcc0Retries 1
  | .soft => (refresh s).bump F.nandEcc0Soft 1
  | .uncorrectable => s.bump F.nandEcc1Uncorrectable 1

/-- Count a read of a block; one whose reads pass 50,000 has its live units read at once (R496). -/
def countRead (ce blk : Nat) (s : State) : State :=
  let k := s.block ce blk
  let s1 := setBlock { k with reads := k.reads + 1 } s
  if k.reads = 50000 then { s1 with evid := { s1.evid with scrub := s1.evid.scrub ++ s1.liveOf ce blk } } else s1

/-- The next unit of a scrub is read; with none left a scrub that fell due is complete. -/
def nextScrub (s : State) : State :=
  if s.evid.ops.any (fun o => o.purpose == .scrub) then s
  else match s.evid.scrub.filter s.isLive with
    | u :: rest => { s with evid := { s.evid with scrub := rest, ops := s.evid.ops ++ [⟨u, .scrub⟩] } }
    | [] =>
      let s1 := { s with evid := { s.evid with scrub := [], scrubDue := false } }
      if s.evid.scrubDue then { s1 with nand := { s1.nand with lastScrub := s.timeUs / 1000000 } } else s1

/-- The bytes of a request's READ in the unit that has been read: first codeword, first byte in the unit, and how many
bytes the request still takes of it. -/
def State.readSpan (s : State) (r : EvidReq) : Nat × Nat × Nat :=
  match s.clip (evClip r.desc) with
  | none => (0, 0, 0)
  | some c =>
    match findUnit c.units (evOffset r.desc + r.done) with
    | none => (0, 0, 0)
    | some u => (u.2.1 / 4096, u.2.1, min (u.2.2 - u.2.1) (evLen r.desc - r.done))

/-- A unit of a READ has been read: the bytes before the first uncorrectable codeword go to memory (R485). -/
def readUnit (b : Superblock) (u : UnitAt) (uid : Nat) (ws : List CwRead) (s : State) : State :=
  match s.evidReq uid with
  | none => s
  | some r =>
    let sp := s.readSpan r
    let n := ceilDiv (sp.2.1 + sp.2.2) 4096 - sp.1
    let good := ((ws.take n).takeWhile (fun w => w != .uncorrectable)).length
    let bad := decide (good < (ws.take n).length)
    let last := if bad then min (sp.2.1 + sp.2.2) (4096 * (sp.1 + good)) else sp.2.1 + sp.2.2
    let data := (s.unitAt u).elim [] (fun x => unitData b x.pages)
    changeReq uid (fun q => { q with busy := false, bad := bad, buf := (data.take last).drop sp.2.1 }) s

/-- A unit that is to be moved has been read: it is programmed as it is at another place (log entry 38). -/
def moveUnit (b : Superblock) (u : UnitAt) (s : State) : State :=
  match s.unitAt u, s.nextUnit b with
  | some x, some v => programAt v (.move u) x.pages s
  | _, _ => s

/-- The end of a read. -/
def readDone (o : NandOp) (words : List CwRead) (s : State) : State :=
  match s.nand.superblock with
  | none => s
  | some b =>
    let ws := words.map (ladder b)
    let s1 := (countRead o.loc.ce o.loc.blk s).each ws (fun w t => countWord b o.loc.ce o.loc.blk w t)
    match o.purpose with
    | .read uid => readUnit b o.loc uid ws s1
    | .fetch => moveUnit b o.loc s1
    | _ => nextScrub s1

/-- NAND_READ_DONE (R485): the oldest read on a chip enable returns, and each codeword climbs the ladder; codewords that
the operand leaves out decode hard without a correction. -/
def execNandReadDone (ce : Fin 4) (words : List CwRead) (s : State) : Out :=
  .next (if !s.isOpen 58 then s
    else match takeOp ce isRead s with
      | (none, _) => s
      | (some o, s1) => workStore (showStore s.storeShown (nextScrub (readDone o words s1))))

/-- A block is erased: its units are gone, and a block that was to be refreshed is counted. -/
def erased (ce blk : Nat) (s : State) : State :=
  let k := s.block ce blk
  let s1 := if k.mark = 1 then s.bump F.nandEcc1Refreshed 1 else s
  setBlock { k with erases := k.erases + 1, reads := 0, fill := 0, mark := 0, shut := false, retry := none }
    { s1 with nand := { s1.nand with units := s1.nand.units.filter (fun u => !(u.loc.ce = ce && u.loc.blk = blk)) } }

/-- An erase of FORMAT ends: the next block follows, and after the last one the store is formatted (R500). -/
def wiped (ce blk : Nat) (ok : Bool) (s : State) : State :=
  let s1 := if ok then erased ce blk s
    else setBlock { s.block ce blk with mark := 1, shut := true } { s with nand := { s.nand with bad := s.nand.bad ++ [(ce, blk, true)] } }
  let s2 := wipeNext ce s1
  match s2.evid.format with
  | none => s2
  | some f => if s2.evid.ops.any (fun o => o.purpose == .wipe) then s2 else endFormat f.1 s2

/-- NAND_ERASE_DONE (R497, R498): the oldest erase on a chip enable ends, or fails and retires the block. -/
def execNandEraseDone (ce : Fin 4) (ok : Bool) (s : State) : Out :=
  .next (if !s.isOpen 58 then s
    else match takeOp ce isErase s with
      | (none, _) => s
      | (some o, s1) => workStore (showStore s.storeShown (
          if o.purpose = .wipe then wiped ce o.loc.blk ok s1
          else if ok then erased ce o.loc.blk s1
          else retireBlock ce o.loc.blk s1)))

/-! Upkeep (R495–R497) -/

/-- A block's work goes one step on: its first live unit is read to be moved, or with none left it is erased unless it
is bad. -/
def upkeepBlock (k : NandBlock) (s : State) : State :=
  match s.liveOf k.ce k.blk with
  | u :: _ => { s with evid := { s.evid with ops := s.evid.ops ++ [⟨u, .fetch⟩] } }
  | [] => { s with evid := { s.evid with ops := s.evid.ops ++ [⟨⟨k.ce, k.blk, 0⟩, .erase⟩] } }

/-- The block with the smallest value of a function. -/
def leastBlock (f : NandBlock → Nat) (l : List NandBlock) : Option NandBlock := l.find? (fun k => l.all (fun j => f k ≤ f j))

/-- The block that upkeep works on (log entry 38): one that is to be moved, else with under 1 % of capacity free the
full one with the fewest live units, else with erase counts more than 500 apart the full one with the lowest, else one
without a live unit. -/
def State.upkeepTarget (s : State) (b : Superblock) : Option NandBlock :=
  let full := s.nand.blocks.filter (fun k => b.chip.units ≤ k.fill && !s.isBad k.ce k.blk)
  let marked := s.nand.blocks.find? (fun k => k.mark ≠ 0 && (!s.isBad k.ce k.blk || !(s.liveOf k.ce k.blk).isEmpty))
  let all := (s.goodBlocks b).map (fun k => (s.block k.1 k.2).erases)
  let high := all.foldl max 0
  let low := all.foldl min high
  match marked with
  | some k => some k
  | none =>
    if 100 * s.freeBlocks b < b.capBlocks ∧ !full.isEmpty then leastBlock (fun k => (s.liveOf k.ce k.blk).length) full
    else if 500 < high - low ∧ full.any (fun k => k.erases = low) then full.find? (fun k => k.erases = low)
    else full.find? (fun k => (s.liveOf k.ce k.blk).isEmpty)

/-- UPKEEP (R495): with no request held and no upkeep under way, one step for one block. -/
def execUpkeep (s : State) : Out :=
  .next (if !s.isOpen 58 ∨ s.get F.nandStatusState ≠ 2 ∨ !s.evid.reqs.isEmpty ∨ !s.evid.ops.isEmpty then s
    else match s.nand.superblock with
      | none => s
      | some b =>
        match s.upkeepTarget b with
        | none => s
        | some k => showStore s.storeShown (upkeepBlock k (setBlock { k with mark := if k.mark = 0 then 2 else k.mark } s)))

/-- SCRUB_DUE (R496): the Seedkeeper reads every unit that holds live data. -/
def execScrubDue (s : State) : Out :=
  .next (if !s.isOpen 58 ∨ (s.get F.nandStatusState ≠ 2 ∧ s.get F.nandStatusState ≠ 3) ∨ s.evid.scrubDue then s
    else
      let live := (s.nand.units.filter (fun u => s.isLive u.loc)).map (fun u => u.loc)
      showStore s.storeShown (nextScrub { s with evid := { s.evid with scrub := live, scrubDue := true } }))

/-! Replay (R501) -/

/-- NAND_REPLAY (R501, R502): the step of a start, or the replay that follows a reload of island 58. -/
def execNandReplay (s : State) : Out :=
  if s.boot.starting then atStepDo 13 (fun t => stepDone 13 (mountAndWork true t)) s
  else .next (if s.isOpen 58 ∧ s.get F.nandStatusState = 1 ∧ s.leaseHolder 1 = 58 then mountAndWork true s else s)

end Sys2Proof.Machine
end

