-- ==== Sys2Proof/Machine/Hose.lean ====
section
/-! DEFINITION. The rows HOSE, SLAB_CREDIT, RELEASE_ADD and HOSE_CFG_WRITE (spec/12 R305–R311, R318). -/
namespace Sys2Proof.Machine

/-- START_SLAB, START_RELEASED, ENGINE and CHANNEL of HOSE ARGS (Table 12.4). -/
def haStart (a : List Byte) : Nat := bytesAt a 0 4
def haReleased (a : List Byte) : Nat := bytesAt a 4 4
def haEngine (a : List Byte) : Nat := slice (bytesAt a 8 1) 0 1
def haChannel (a : List Byte) : Nat := slice (bytesAt a 8 1) 4 4

/-- The named channel is a host channel of a function (R300). -/
def State.hostChannel (s : State) (fn e c : Nat) : Bool := s.get (F.hoseCfgOwner e c) == 0 && s.get (F.hoseCfgFn e c) == fn

/-- Take a HOSE entry through the checks of R305 to its channel. -/
def takeTransfer (x : Entry) (d : List Byte) (s : State) : State :=
  let e := haEngine x.args
  let c := haChannel x.args
  let fn := s.sqFn x.sq
  let start := haStart x.args
  if !s.hostChannel fn e c then completeEntry x.uid (.internal 0x91 0) s
  else if !hdAccepted d e c false then completeEntry x.uid (.internal 0x90 0) s
  else if start < haReleased x.args ∨ hdSlabs d < start then completeEntry x.uid (.internal 0x90 0) s
  else if start = hdSlabs d then completeEntry x.uid (.ok start) s
  else if s.isShut (67 + e) then completeEntry x.uid (s.resultOfIsland 0x11 (67 + e) start) s
  else
    let t : Transfer := { engine := e, channel := c, uid := x.uid, fn := fn, allot := s.get (F.sqCfgAllot x.sq), cls := x.cls,
                          desc := d, slab := start, elem := 0, startReleased := haReleased x.args, begun := false,
                          stopping := false }
    startNext e c { s with hose := { s.hose with transfers := s.hose.transfers ++ [t] } }

/-- HOSE (R305): a dispatched HOSE entry whose descriptor has been read. -/
def execHose (uid : Nat) (s : State) : Out :=
  .next (match s.entry uid with
    | none => s
    | some x =>
      match x.desc with
      | none => s
      | some d => if x.opcode = 2 ∧ s.isOpen 56 ∧ (s.transferOf uid).isNone then takeTransfer x d s else s)

/-- The running transfer may write its next slab: not stalled, its release and its input credit there (R309, R310). -/
def State.slabReady (s : State) (t : Transfer) : Bool :=
  let st := s.channelState t.engine t.channel
  s.isOpen (67 + t.engine) && (st == 1 || st == 5)

/-- SLAB_CREDIT (R307): the slab in progress is written and credited; on a stream channel, the slab of its placement
group (R453). -/
def execSlabCredit (engine : Fin 2) (channel : Fin 16) (s : State) : Out :=
  .next (match s.running engine channel with
    | some t => if s.slabReady t then runSlab t s else s
    | none =>
      let g := groupOf engine channel
      if 12 ≤ channel.val ∧ s.groupReady g then placeSlab g s else s)

/-- RELEASE_ADD (R309, R318). -/
def execReleaseAdd (w : Writer) (engine : Fin 2) (channel : Fin 16) (add : BitVec 16) (s : State) : Out :=
  .next (writeAccess w (R.hoseReleaseAdd engine channel) add.toNat (releaseChannel engine channel add.toNat) s)

/-- The effect of a HOSEn_CFG_c write (R318): refused and counted unless the token's holder writes it, to an idle channel
with no transfer waiting, an upstream channel that is enabled being another one (log entry 22). -/
def writeHoseCfg (w : Writer) (e c : Nat) (v : Word) (s : State) : State :=
  let upE := getBits v 9 1
  let upC := getBits v 12 4
  if !s.hasToken w || s.hose.transfers.any (fun t => t.engine = e && t.channel = c) || (getBits v 8 1 == 1 && upE == e && upC == c) then
    s.bump (F.hoseErrCfgRefused e c) 1
  else noteReserved (R.hoseCfg e c) v (refreshUrgent (s.puts
    [(F.hoseCfgOwner e c, getBits v 0 2), (F.hoseCfgFn e c, getBits v 4 3), (F.hoseCfgUpEn e c, getBits v 8 1),
     (F.hoseCfgUpEngine e c, upE), (F.hoseCfgUpChannel e c, upC)]))

/-- HOSE_CFG_WRITE (R318). -/
def execHoseCfgWrite (w : Writer) (engine : Fin 2) (channel : Fin 16) (value : Word) (s : State) : Out :=
  .next (writeAccess w (R.hoseCfg engine channel) value.toNat (writeHoseCfg w engine channel value) s)

end Sys2Proof.Machine
end

