-- ==== Sys2Proof/Machine/Fetch.lean ====
section
/-! DEFINITION. Gardener 0's fetch and dispatch of submission entries (spec/08 R209–R214; spec/11 R286, R293; spec/22
R520, R528): the rows ENTRY_FETCH, HOST_COMPLETION, COMPLETION_TIMEOUT, NOP and RESUME. -/
namespace Sys2Proof.Machine

/-! Fields of a submission entry (Table 8.5) -/
def seOpcode (b : List Byte) : Nat := bytesAt b 0 1
def seFlags (b : List Byte) : Nat := bytesAt b 1 1
def seClass (b : List Byte) : Nat := slice (seFlags b) 0 2
def seWaitPrior (b : List Byte) : Bool := bit (seFlags b) 2
def seIrqNow (b : List Byte) : Bool := bit (seFlags b) 3
def seDescVirtual (b : List Byte) : Bool := bit (seFlags b) 4
def sePlot (b : List Byte) : Nat := slice (bytesAt b 2 2) 0 4
def seTag (b : List Byte) : Nat := bytesAt b 4 4
def seDesc (b : List Byte) : Nat := bytesAt b 8 8
def seArgs (b : List Byte) : List Byte := b.drop 16

/-- The entry names a plot: WORK and RAKE. -/
def seUsesPlot (b : List Byte) : Bool := seOpcode b == 1 || seOpcode b == 3

/-- Step 2 of R213. -/
def seOk (b : List Byte) : Bool :=
  let op := seOpcode b
  let args := bytesAt b 16 48
  let argsOk := match op with
    | 2 => slice (bytesAt b 0x18 1) 1 3 == 0 && bytesAt b 0x19 39 == 0
    | 6 => bytesAt b 0x16 10 == 0
    | _ => args == 0
  slice (seFlags b) 5 3 == 0 && slice (bytesAt b 2 2) 4 12 == 0 && seClass b != 3 && (seUsesPlot b || sePlot b == 0) &&
    (if op = 0 ∨ op = 6 then seDesc b == 0 else seDesc b % 64 == 0) && argsOk

/-- The URGENT record permits class 0 on an SQ (R92). -/
def State.permitsUrgent (s : State) (r : Nat) : Bool := bit s.plan.active.urgent.rings r

/-- The class of an entry after step 3 of R213. -/
def State.readClass (s : State) (r : Nat) (b : List Byte) : Nat :=
  if seClass b = 0 ∧ !s.permitsUrgent r then 1 else seClass b

/-- What the checks of R213 make of an entry. -/
inductive Checked where
  | fails (status detail : Nat)
  /-- its class after step 5 -/
  | passes (cls : Nat)
  deriving DecidableEq, Repr

/-- Steps 1 to 5 of R213, and for a HOSE entry the channel check that follows step 2 (R305). -/
def State.checkHead (s : State) (r : Nat) (b : List Byte) : Checked :=
  let c := s.readClass r b
  if 6 < seOpcode b then .fails 0xF0 0x40
  else if !seOk b then .fails 0xF0 0x41
  else if seOpcode b = 2 ∧ !s.hostChannel (s.sqFn r) (haEngine (seArgs b)) (haChannel (seArgs b)) then .fails 0xF0 0x91
  else if !seUsesPlot b then .passes c
  else
    match s.plotCfg (sePlot b) with
    | none => .fails 0x41 0x3D
    | some p =>
      match (List.range 3).find? (fun k => c ≤ k && bit p.classes k) with
      | none => .fails 0x41 0x3C
      | some k => .passes k

/-! Heads -/

/-- HEAD passes an entry; a doorbell whose entries have all been taken is forgotten. -/
def advanceHead (r : Nat) (s : State) : State :=
  let h := (s.get (F.sqStatusHead r) + 1) % s.sqSize r
  let s1 := s.put (F.sqStatusHead r) h
  match s1.host.doors.find? (fun d => d.sq = r) with
  | some d => if d.tail = h then { s1 with host := { s1.host with doors := s1.host.doors.erase d } } else s1
  | none => s1

/-- What the urgent lane measures begins for a class-0 WORK entry: T0 and the REASON codes so far (R520, R522). -/
def startUrgent (uid slot : Nat) (wait : Bool) (door : Option Door) (s : State) : State :=
  let t0 := door.elim s.timeUs (fun d => d.us)
  let m := door.elim 0 (fun d => d.reasons)
  let waited := wait || door.elim false (fun d => d.first != some slot)
  let u : Urgent := { uid := uid, t0 := t0, ts := none, reasons := if waited ∧ !bit m 3 then m + 8 else m, queued := false,
                      shade := door.elim false (fun d => d.shade), preempted := 0 }
  refreshUrgent { s with bed := { s.bed with urgent := s.bed.urgent ++ [u] } }

/-- Gardener 0 holds an entry it has read: one that fails a check completes at once, the others wait to be ranked
(R214). -/
def takeHead (r : Nat) (b : List Byte) (s : State) : State :=
  match s.checkHead r b with
  | .fails status detail =>
    let cls := s.readClass r b
    let uid := s.host.nextUid
    let door := s.host.doors.find? (fun d => d.sq = r)
    let s1 := if cls = 0 ∧ seOpcode b = 1 then
        recordUrgent uid (startUrgent uid (s.get (F.sqStatusHead r)) (seWaitPrior b) door s)
      else s
    completeHead r (seTag b) cls (seIrqNow b) ⟨status, detail, 0, 0⟩ (advanceHead r s1)
  | .passes _ => { s with host := { s.host with heads := s.host.heads ++ [(r, b)] } }

/-- Everything is held: a drain for a power state or a HOT_SWAP of Gardener 0, a replan (R131, R182, R57). -/
def State.fetchHeld (s : State) : Bool :=
  let ph := s.get F.planStatusPhase
  s.get F.pwrStatusPhase != 0 || s.fw.hotSwap.elim false (fun h => h.1 == 1) ||
    (decide (ph = 3 ∨ ph = 4) && s.plan.job.elim false (fun j => j.op != 2))

/-- Dispatched entries of an opcode, at a channel for HOSE. -/
def State.inFlight (s : State) (p : Entry → Bool) : Nat := (s.host.entries.filter p).length

/-- The unit of an entry takes no further one: four wait at its hose channel or at the furrow (R306, R473), eight rake
jobs or sixteen evidence requests are held (R411, R490). -/
def State.unitFull (s : State) (b : List Byte) : Bool :=
  match seOpcode b with
  | 2 => 5 ≤ s.inFlight (fun e => e.opcode == 2 && haEngine e.args == haEngine (seArgs b) && haChannel e.args == haChannel (seArgs b))
  | 3 => 8 ≤ s.inFlight (fun e => e.opcode == 3)
  | 4 => 5 ≤ s.inFlight (fun e => e.opcode == 4)
  | 5 => 16 ≤ s.inFlight (fun e => e.opcode == 5)
  | _ => false

/-- Whether a head may be dispatched now (R213, R214, R217, R286, R528). -/
def State.headReady (s : State) (h : Nat × List Byte) (cls : Nat) : Bool :=
  let r := h.1
  let cq := s.get (F.sqCfgCq r)
  s.get (F.sqStatusState r) == RING_ENABLED &&
    !(seWaitPrior h.2 && s.host.entries.any (fun e => e.sq = r)) &&
    !(seUsesPlot h.2 && s.plan.paused.contains (sePlot h.2)) &&
    !s.cqFull cq && s.host.waiting.all (fun c => c.cq != cq) &&
    !s.isStalled (.sqFetch r) && !s.unitFull h.2 &&
    s.inFlight (fun e => e.sq == r) < 256 && s.host.entries.length < (if cls = 0 then 1024 else 1008)

/-- Heads of a class that may be dispatched, by SQ. -/
def State.readyOf (s : State) (k : Nat) : List (Nat × List Byte) :=
  s.host.heads.filter (fun h =>
    match s.checkHead h.1 h.2 with
    | .passes c => c == k && s.headReady h c
    | .fails _ _ => false)

/-- The next SQ in turn after the one served last. -/
def nextInTurn (last : Nat) (l : List (Nat × List Byte)) : Option (Nat × List Byte) :=
  let key := fun (h : Nat × List Byte) => (h.1 + 127 - last) % 64
  l.foldl (fun acc h => match acc with
    | none => some h
    | some a => if key h < key a then some h else acc) none

/-- Whose turn it is in class k: round-robin in class 0, weighted by WEIGHT + 1 in classes 1 and 2 (R214). The second
value is the credit that SQ has left. -/
def State.pick (s : State) (k : Nat) : Option ((Nat × List Byte) × Nat) :=
  let l := s.readyOf k
  let last := s.host.lastServed.getD k 0
  let credit := if k = 0 then 0 else s.host.credit.getD (k - 1) 0
  match l.find? (fun h => h.1 = last && decide (0 < credit)) with
  | some h => some (h, credit - 1)
  | none => (nextInTurn last l).map (fun h => (h, s.get (F.sqCfgWeight h.1)))

/-- The class whose head is dispatched next: class 0 first, then class 1, then class 2; after 15 dispatches of class 1
in a row while a class-2 head waits, class 2 (R214). -/
def State.pickClass (s : State) : Option Nat :=
  if !(s.readyOf 0).isEmpty then some 0
  else if !(s.readyOf 2).isEmpty && 15 ≤ s.host.sinceClass2 then some 2
  else if !(s.readyOf 1).isEmpty then some 1
  else if !(s.readyOf 2).isEmpty then some 2
  else none

/-! Descriptors -/

/-- How many bytes the descriptor of an opcode has. -/
def descBytes (op : Nat) : Nat := if op = 1 ∨ op = 3 then 128 else 64

/-- A descriptor has been read: the entry goes to the row that its operation names; one whose OP names none completes
with its check's code (R380). -/
def giveDesc (uid : Nat) (d : List Byte) (s : State) : State :=
  let s1 := { s with host := { s.host with entries := s.host.entries.map (fun (e : Entry) =>
    if e.uid = uid then { e with desc := some d } else e) } }
  match s1.entry uid with
  | none => s1
  | some e =>
    if e.opcode = 1 ∧ (woOp d = 0 ∨ 9 < woOp d) then finishEntry uid (dw1 0xF0 0xB0 0) 0 s1
    else if e.opcode = 4 ∧ 1 < fdOp d then finishEntry uid (dw1 0xF0 0xE0 0) 0 s1
    else if e.opcode = 5 ∧ 9 < evOp d then
      finishEntry uid (if s1.isShut 58 then s1.islandWord 0x11 58 else dw1 0xF0 0xF0 0) 0 s1
    else s1

/-- Read the descriptor of an entry from device memory, in its class, as Gardener 0 (R262, R286). -/
def readVirtual (e : Entry) (s : State) : State :=
  let fn := s.sqFn e.sq
  let al := s.get (F.sqCfgAllot e.sq)
  let r := vaRead ⟨56, e.readCls, 0, false⟩ fn al e.descAddr (descBytes e.opcode) .read false s
  match r.1 with
  | .ok d => giveDesc e.uid d r.2
  | .error (.err x) => finishEntry e.uid (r.2.errWord x) 0 r.2
  | .error (.fault reason level va) =>
    let fr : FaultRec := { stream := .sqFetch e.sq, va := va, tag := e.tag, reason := reason, access := .read, allot := al,
                           fatal := false, cls := e.readCls, level := level, source := 56, unit := 0xFF, sq := e.sq,
                           timeUs := 0 }
    let f := reportFault fn fr r.2
    let s1 := urgentReason e.uid 6 f.2
    match f.1 with
    | .stalled => s1
    | .ended st => finishEntry e.uid (dw1 st 0 0) 0 s1

/-- A read of host memory goes out (R209, R213). -/
def issueRead (fn addr len : Nat) (p : ReadPurpose) (s : State) : State :=
  { s with host := { s.host with
    nextRead := s.host.nextRead + 1,
    reads := s.host.reads ++ [{ id := s.host.nextRead, fn := fn, addr := addr, len := len, purpose := p, us := s.timeUs }] } }

/-- The descriptor of a dispatched entry is asked for: none for NOP and RESUME; a host read of a function that may not
issue ends with HOST_ABORT (R201, R213). -/
def askDesc (e : Entry) (s : State) : State :=
  if e.opcode = 0 ∨ e.opcode = 6 then giveDesc e.uid [] s
  else if e.descVirtual then readVirtual e s
  else if s.canIssue (s.sqFn e.sq) then issueRead (s.sqFn e.sq) e.descAddr (descBytes e.opcode) (.descriptor e.uid) s
  else finishEntry e.uid (dw1 0xF0 0x42 0) 0 s

/-- Dispatch a head in its class (R213). -/
def dispatch (h : Nat × List Byte) (cls : Nat) (s : State) : State :=
  let r := h.1
  let b := h.2
  let uid := s.host.nextUid
  let slot := s.get (F.sqStatusHead r)
  let door := s.host.doors.find? (fun d => d.sq = r)
  let e : Entry := {
    uid := uid, sq := r, opcode := seOpcode b, cls := cls, readCls := s.readClass r b, waitPrior := seWaitPrior b,
    irqNow := seIrqNow b, descVirtual := seDescVirtual b, plot := sePlot b, tag := seTag b, descAddr := seDesc b,
    args := seArgs b, desc := none, discard := false }
  let s1 := { s with host := { s.host with
    heads := s.host.heads.erase h, nextUid := uid + 1, entries := s.host.entries ++ [e] } }
  let s2 := advanceHead r s1
  askDesc e (if cls = 0 ∧ seOpcode b = 1 then startUrgent uid slot (seWaitPrior b) door s2 else s2)

/-- REASON 4 and 5 for class-0 heads that a paused plot or a full CQ holds (Table 22.2). -/
def noteHeldHeads (s : State) : State :=
  s.each s.host.heads (fun h t =>
    let t1 := if seUsesPlot h.2 ∧ (t.plan.paused.contains (sePlot h.2) ∨ t.fetchHeld) then
        reasonFor 4 (fun r => r == h.1) (fun _ => false) t else t
    if t.cqFull (t.get (F.sqCfgCq h.1)) then reasonFor 5 (fun r => r == h.1) (fun _ => false) t1 else t1)

/-- One dispatch decision (R214). -/
def dispatchOne (s : State) : State :=
  let s0 := noteHeldHeads s
  if !s0.isOpen 56 || s0.isShut 60 || s0.fetchHeld || !s0.inBloom then s0
  else
    match s0.pickClass with
    | none => s0
    | some k =>
      match s0.pick k with
      | none => s0
      | some p =>
        let waits2 := !(s0.readyOf 2).isEmpty
        let hu := { s0.host with
          lastServed := setAt k p.1.1 s0.host.lastServed,
          credit := if k = 0 then s0.host.credit else setAt (k - 1) p.2 s0.host.credit,
          sinceClass2 := if k = 0 then s0.host.sinceClass2 else if k = 1 ∧ waits2 then s0.host.sinceClass2 + 1 else 0 }
        dispatch p.1 k { s0 with host := hu }

/-! Reading the head of a ring -/

/-- Gardener 0 may read the head of an SQ: enabled, not empty, no head held and no read of it under way (R199, R213). -/
def State.mayFetch (s : State) (r : Nat) : Bool :=
  s.get (F.sqStatusState r) == RING_ENABLED && s.isOpen 56 && !s.isShut 60 && s.inBloom && !s.fetchHeld &&
    s.get (F.sqStatusHead r) != s.get (F.sqTailValue r) && s.host.heads.all (fun h => h.1 != r) &&
    s.host.reads.all (fun x => match x.purpose with
      | .entry q => q != r
      | .lost q _ => q != r
      | .descriptor _ => true) &&
    !(s.fn (s.sqFn r)).d3hot && s.host.reads.length < 256

/-- Read the head entry of an SQ: from host memory by a request that a completion answers, from device memory at once
(R208, R209). -/
def fetchHead (r : Nat) (s : State) : State :=
  let fn := s.sqFn r
  let addr := s.rd64 (R.sqBase r) + 64 * s.get (F.sqStatusHead r)
  if s.get (F.sqCfgSpace r) = 0 then
    if s.canIssue fn then issueRead fn addr 64 (.entry r) s else s
  else
    let cls := if s.permitsUrgent r then 0 else 1
    let al := s.get (F.sqCfgAllot r)
    let x := vaRead ⟨56, cls, 0, false⟩ fn al addr 64 .read true s
    match x.1 with
    | .ok b => takeHead r b x.2
    | .error (.err e) => if e.status = 0x10 ∨ e.status = 0x11 then x.2 else haltSq r 3 x.2
    | .error (.fault reason level va) =>
      let fr : FaultRec := { stream := .ring false r, va := va, tag := 0, reason := reason, access := .read, allot := al,
                             fatal := true, cls := cls, level := level, source := 56, unit := 0xFF, sq := 0xFF, timeUs := 0 }
      haltSq r 3 (reportFault fn fr x.2).2

/-- ENTRY_FETCH (R213, R214): Gardener 0 reads the head of an SQ, and takes one dispatch decision. -/
def execEntryFetch (ring : Fin 64) (s : State) : Out :=
  .next (dispatchOne (if s.mayFetch ring then fetchHead ring s else s))

/-! Answers to reads of host memory -/

/-- The outstanding read with a number. -/
def State.readOf (s : State) (id : Nat) : Option HostRead := s.host.reads.find? (fun r => r.id = id)

/-- A read of more than 1.0 µs voids the guarantee for the class-0 entry it serves (Table 22.2 REASON 10). -/
def noteSlowRead (r : HostRead) (s : State) : State :=
  if s.timeUs ≤ r.us + 1 then s
  else
    match r.purpose with
    | .entry q => reasonFor 10 (fun x => x == q) (fun _ => false) s
    | .descriptor uid => urgentReason uid 10 s
    | .lost _ _ => s

/-- Complete an entry that Gardener 0 lost in its close, with the word of that close (Table 7.2). -/
def completeLost (q word : Nat) (b : List Byte) (s : State) : State :=
  completeHead q (seTag b) (s.readClass q b) (seIrqNow b) ⟨slice word 0 8, slice word 8 8, slice word 16 16, 0⟩ (advanceHead q s)

/-- A read ends: with bytes, or with HOST_ABORT (R209, R213). -/
def endRead (id : Nat) (data : Option (List Byte)) (s : State) : State :=
  match s.readOf id with
  | none => s
  | some r =>
    let s0 := { s with host := { s.host with reads := s.host.reads.filter (fun x => x.id ≠ id) } }
    let s1 := noteSlowRead r s0
    match r.purpose, data with
    | .entry q, some b => if s1.get (F.sqStatusState q) = RING_ENABLED then dispatchOne (takeHead q b s1) else s1
    | .entry q, none => if s1.get (F.sqStatusState q) = RING_ENABLED then haltSq q 2 s1 else s1
    | .descriptor uid, some b => giveDesc uid b s1
    | .descriptor uid, none => finishEntry uid (dw1 0xF0 0x42 0) 0 s1
    | .lost q w, some b => completeLost q w b s1
    | .lost q _, none => if s1.get (F.sqStatusState q) = RING_ENABLED then haltSq q 2 s1 else s1

/-- HOST_COMPLETION (R209): a completion for an outstanding read, of as many bytes as it asked for. -/
def execHostCompletion (id : Nat) (result : HostResult) (s : State) : Out :=
  .next (match s.readOf id, result with
    | some r, .data bs => if bs.length = r.len then endRead id (some bs) s else s
    | some _, _ => endRead id none s
    | none, _ => s)

/-- COMPLETION_TIMEOUT (R209). -/
def execCompletionTimeout (id : Nat) (s : State) : Out := .next (endRead id none s)

/-- NOP (R210). -/
def execNop (uid : Nat) (s : State) : Out :=
  .next (match s.entry uid with
    | some e => if e.opcode = 0 ∧ s.isOpen 56 then completeEntry uid (.ok 0) s else s
    | none => s)

/-! RESUME (R289–R291, R295) -/

/-- A stalled stream walks its faulting access again: a descriptor fetch at once, every other stream with its next
command. -/
def retryStream (st : Stream) (s : State) : State :=
  match st with
  | .hose e c => refreshChannel e c (unstall st s)
  | .order uid _ _ => clearOrderStall uid s
  | .rake _ => refreshRake (unstall st s)
  | .evidence _ => workStore (unstall st s)
  | .sqFetch r =>
    let s1 := unstall st s
    match s1.stalledFetch r with
    | some e => readVirtual e s1
    | none => s1
  | _ => unstall st s

/-- The answer for one record: RETRY or ABORT of the stall it made; ignored for a FATAL record or an ended stream, and
counted in LATE where the stall timed out. The first value counts retried records. -/
def answerRecord (fn : Nat) (abort : Bool) (r : FaultRec) (s : State) : Nat × State :=
  if r.fatal then (0, s)
  else if s.mmu.stalls.any (fun x => x.id = r.id) then
    if abort then (0, endStream r.stream 0x30 s) else (1, retryStream r.stream s)
  else (0, if r.late then s.bump (F.mmuFrCountLate fn) 1 else s)

/-- Answer the records of a batch in order. -/
def answerRecords (fn mask : Nat) : Nat → List FaultRec → State → Nat × State
  | _, [], s => (0, s)
  | i, r :: rest, s =>
    let a := answerRecord fn (bit mask i) r s
    let b := answerRecords fn mask (i + 1) rest a.2
    (a.1 + b.1, b.2)

/-- Forget a batch: its slots are free, and a batch that waits for them may be written. -/
def dropBatch (b : Batch) (s : State) : State :=
  writeBatch b.fn { s with mmu := { s.mmu with batches := s.mmu.batches.filter (fun x => !(x.fn = b.fn && x.number = b.number)) } }

/-- Carry out a RESUME entry. -/
def resume (e : Entry) (s : State) : State :=
  let fn := s.sqFn e.sq
  let n := bytesAt e.args 0 4
  match s.mmu.batches.find? (fun b => b.fn = fn && b.number = n && (b.phase == .written || b.phase == .lost)) with
  | none => completeEntry e.uid (.internal 0x60 0) s
  | some b =>
    if b.phase = .lost then completeEntry e.uid (.internal 0x60 0) (dropBatch b s)
    else if bytesAt e.args 4 2 ≠ b.records.length then completeEntry e.uid (.internal 0x61 0) s
    else
      let a := answerRecords fn (bytesAt e.args 16 32) 0 b.records s
      completeEntry e.uid (.ok a.1) (dropBatch b a.2)

/-- RESUME (R290). -/
def execResume (uid : Nat) (s : State) : Out :=
  .next (match s.entry uid with
    | some e => if e.opcode = 6 ∧ s.isOpen 56 then resume e s else s
    | none => s)

end Sys2Proof.Machine
end

