-- ==== Sys2Proof/Machine/Plan.lean ====
section
/-! DEFINITION. Meanings of the plan commands (spec/02 R50–R70; spec/03 R98–R101): PLAN_CMD and the phases of a LOAD,
a graft, a STORE and a FALLBACK. -/
namespace Sys2Proof.Machine

/-- The value of a PLAN_CMD write. -/
def planCmdValue (key op arg drain : Nat) : Nat := keyed key (op + 16 * arg + 64 * drain)

/-- Check 1 of Table 2.5: DETAIL of the first failing condition, 0 where all hold. -/
def planGate (w : Writer) (key : Nat) (s : State) : Nat :=
  if !isPf0 w ∨ !s.hasToken w then 0x01
  else if key ≠ 0x9A17 then 0x04
  else if s.get F.planStatusPhase ≠ 0 then 0x02
  else if !s.inBloom ∨ s.get F.pwrStatusPhase ≠ 0 then 0x03
  else 0

/-- A refusal shows in RESULT and DETAIL and sets DONE; a command in progress goes on. -/
def refusePlan (status detail : Nat) (s : State) : State :=
  setEvent 0 (s.puts [(F.planStatusResult, status), (F.planStatusDetail, detail), (F.planStatusDone, 1)])

/-- A PLAN_CMD write that passes check 1 acts; with island 0 closed it ends with LEASE_REVOKED (R69). -/
def planCommand (w : Writer) (key : Nat) (act : State → State) (s : State) : State :=
  let d := planGate w key s
  if d ≠ 0 then refusePlan 0x41 d s
  else
    let s1 := noteOrigin 0 w s
    if s1.isShut 0 then finishPlan 0x12 0 s1 else act s1

/-- Grant a lease to island 0 for a host or management-port command. -/
def takeLease (l : Nat) (s : State) : State :=
  { s with fw := { s.fw with forCommand := l :: s.fw.forCommand.filter (fun x => x ≠ l) } }.puts [(F.fenceLeaseHolder l, 0), (F.fenceLeaseEpoch l, s.epoch 0), (F.fenceLeaseAgeMs l, 0)]

/-- Island 0 releases a lease at the end of an operation: the next waiter is granted it. -/
def dropLease (l : Nat) (s : State) : State :=
  let s1 := { s with fw := { s.fw with forCommand := s.fw.forCommand.filter (fun x => x ≠ l) } }
  if s1.leaseHolder l = 0 then grantNext l (freeLease l s1) else s1

/-- A plan command ends without being applied: paused plots resume, slices leave write-through, lease 3 is released. -/
def endPlan (status detail : Nat) (s : State) : State :=
  finishPlan status detail (dropLease 3 (endWriteThrough s))

/-- LOAD and GRAFT: check 2, then the copy begins under lease 3 (R53). -/
def startCopy (op : Nat) (w : Writer) (drain : Nat) (s : State) : State :=
  let n := (s.rd R.planSrcLen).toNat
  let off := s.rd64 R.planSrcAddr
  let window := if w = .port then 2 ^ 20 else s.host.bar4Size
  if n < 452 ∨ 2 ^ 20 < n ∨ n % 4 ≠ 0 ∨ off % 4 ≠ 0 ∨ window < off + n then
    finishPlan 0x40 0x10 (showPlanError (headerErr 0x40 0x10) 0 0 s)
  else
    let job : PlanJob := {
      op := op, cut := drain = 1, writer := w, next := s.plan.active, images := [], named := [], detail := 0, area := 0 }
    takeLease 3 ({ s with plan := { s.plan with job := some job } }.put F.planStatusPhase 1)

/-- LOAD (R51, R57). -/
def execLoad (w : Writer) (key : BitVec 16) (drain : BitVec 1) (s : State) : Out :=
  .next (writeAccess w R.planCmd (planCmdValue key.toNat 1 0 drain.toNat)
    (planCommand w key.toNat (startCopy 1 w drain.toNat)) s)

/-- GRAFT (R51, R59). -/
def execGraft (w : Writer) (key : BitVec 16) (drain : BitVec 1) (s : State) : Out :=
  .next (writeAccess w R.planCmd (planCmdValue key.toNat 2 0 drain.toNat)
    (planCommand w key.toNat (startCopy 2 w drain.toNat)) s)

/-- PLAN_COPY_DONE (R53): the staged copy is complete. -/
def execPlanCopyDone (s : State) : Out :=
  .next (match s.plan.job with
    | none => s
    | some j =>
      if s.get F.planStatusPhase ≠ 1 then s
      else
        let r := readSource j.writer (s.rd64 R.planSrcAddr) (s.rd R.planSrcLen).toNat s
        match r.1 with
        | some bs => { r.2 with plan := { r.2.plan with staged := bs } }.put F.planStatusPhase 2
        | none => endPlan 0x40 0x10 (showPlanError (headerErr 0x40 0x10) 0 0 r.2))

/-- A slice switches to write-through and writes back its dirty lines (R99). -/
def writeThrough (sl : Nat) (s : State) : State :=
  let s1 := s.put (F.shedStatusWriteThrough sl) 1
  s1.each (s1.mem.lines.filter (fun l => l.slice = sl && l.dirty)) writeBack

/-- DRAIN begins (R57, R59): the plots pause, the named slices write through, and with CUT running orders are cut. -/
def beginDrain (j : PlanJob) (paused slices : List Nat) (s : State) : State :=
  let s0 := reasonFor 4 (fun _ => j.op != 2) (fun p => j.op != 2 || paused.contains p) s
  let s1 := { s0 with plan := { s0.plan with job := some j, paused := paused } }.put F.planStatusPhase 3
  let s2 := s1.each slices writeThrough
  if j.cut then cutPaused s2 else if j.op = 2 then stopEndpoints s2 else s2

/-- The slices that are powered. -/
def State.poweredSlices (s : State) : List Nat := (List.range 4).filter (fun k => s.hedge (52 + k) ≠ DARK)

/-- The islands that a replan closes: 4–55, 62–68 and 71 (R57). -/
def replanIsland (n : Nat) : Bool := (4 ≤ n && n ≤ 55) || (62 ≤ n && n ≤ 68) || n == 71

/-- A replan's DRAIN: every plot of the active plan pauses and every powered slice writes through. -/
def replanDrain (j : PlanJob) (s : State) : State :=
  beginDrain j (s.plan.active.plots.map (fun p => p.id)) s.poweredSlices s

/-- The plots that a graft pauses: those that contain a named bed or that a PLOT record redefines (R59), and with island
65 named every RASTER and MIXED plot (R426). -/
def graftPauses (active next : PlanCfg) (named : List Nat) (redefined : List Nat) : List Nat :=
  let touched := fun (p : PlotCfg) => named.any (fun n => 4 ≤ n && n < 52 && bit p.beds (n - 4)) ||
    (named.contains 65 && (p.role == 0 || p.role == 3))
  let ids := (active.plots.filter touched).map (fun p => p.id) ++ (next.plots.filter touched).map (fun p => p.id) ++ redefined
  (List.range 64).filter ids.contains

/-- The PLOT_IDs of the PLOT records of an image. -/
def plotRecords (img : List Byte) : List Nat :=
  match walkRecords img (img.length - 192) 65536 0x100 0 with
  | .ok rs => (rs.filter (fun r => r.typ = 3)).map (fun r => (plotOf r).id)
  | .error _ => []

/-- PLAN_CHECK_DONE (R51, R55, R57, R59): the plan is refused, or its drain begins. -/
def execPlanCheckDone (s : State) : Out :=
  .next (match s.plan.job with
    | none => s
    | some j =>
      if s.get F.planStatusPhase ≠ 2 then s
      else
        let img := s.plan.staged
        match checkImage (s.planCtx true s.plan.active s.plan.chain) (j.op = 2) img with
        | .error e =>
          let s1 := showPlanError e 0 0 s
          endPlan e.status e.detail s1
        | .ok o =>
          let s1 := s.put F.planStatusSkipped (min 15 o.skipped)
          let d := if o.clamps = 0 then 0 else 1
          let s2 := s1.wr R.planClamps (BitVec.ofNat 32 (satAdd 32 (if j.op = 2 then (s1.rd R.planClamps).toNat else 0) o.clamps))
          if j.op = 2 then
            let j1 := { j with next := o.cfg, images := s.plan.chain ++ [img], named := o.named, detail := d }
            beginDrain j1 (graftPauses s.plan.active o.cfg o.named (plotRecords img))
              ((List.range 4).filter (fun k => o.named.contains (52 + k))) s2
          else replanDrain { j with next := o.cfg, images := [img], detail := d } s2)

/-- FALLBACK's effect: a replan to Table 2.6 without a copy or checks (R61). -/
def startFallback (w : Writer) (drain : Nat) (s : State) : State :=
  let j : PlanJob := {
    op := 4, cut := drain = 1, writer := w, next := fallbackCfg, images := [], named := [], detail := 0, area := 0 }
  replanDrain j (takeLease 3 (s.wr R.planClamps 0))

/-- FALLBACK (R61, Table 2.9). -/
def execFallback (w : Writer) (key : BitVec 16) (drain : BitVec 1) (s : State) : Out :=
  .next (writeAccess w R.planCmd (planCmdValue key.toNat 4 0 drain.toNat)
    (planCommand w key.toNat (startFallback w drain.toNat)) s)

/-- PLAN_DRAIN_TIMEOUT (R59): the remaining orders are cut. -/
def execPlanDrainTimeout (s : State) : Out :=
  .next (match s.plan.job with
    | none => s
    | some j =>
      if s.get F.planStatusPhase ≠ 3 ∨ j.cut then s
      else cutPaused { s with plan := { s.plan with job := some { j with cut := true } } })

/-- One island at the commit of a replan (R57 step 2): closed with cause 1 or powered up where the new plan powers it,
taken DARK with cause 8 where it does not. -/
def replanClose (next : PlanCfg) (n : Nat) (s : State) : State :=
  let dark := s.hedge n = DARK
  if replanIsland n then
    if next.powers n then (if dark then powerUp n 1 s else closeIsland n 1 s) else powerDown n 8 s
  else if n = 61 then
    if next.powers 61 then (if dark then powerUp 61 1 s else s) else powerDown 61 8 s
  else s

/-- PLAN_DRAIN_DONE (R57, R59): PHASE COMMIT; the named islands close with cause 4, a replan's with cause 1 or 8; the
route and QoS tables are swapped. -/
def execPlanDrainDone (s : State) : Out :=
  .next (match s.plan.job with
    | none => s
    | some j =>
      if s.get F.planStatusPhase ≠ 3 ∨ !s.workDrained then s
      else
        let s1 := s.put F.planStatusPhase 4
        if j.op = 2 then
          let s2 := s1.each j.named (fun n t => closeIsland n 4 t)
          { s2 with plan := { s2.plan with active := j.next } }.puts
            [(F.memcPktPktMib, j.next.intake.elim 0 (fun i => i.pktMib)), (F.memcQosCfgClass0Cap, j.next.qos.class0Cap),
              (F.memcQosCfgClass2Min, j.next.qos.class2Min)]
        else
          let s2 := s1.each ((List.range 72).drop 4) (replanClose j.next)
          let named := (List.range 72).filter (fun n => s2.hedge n == CLOSED && (replanIsland n || n == 61))
          let s3 := configureCommon { s2 with plan := { s2.plan with active := j.next, job := some { j with named := named } } }
          setVoltage (configureUrgent s3))

/-- PLAN_COMMIT_DONE (R57, R59, R100): every named island is open again; the chain, its digest and the read-back
registers are updated, and the command completes. -/
def execPlanCommitDone (s : State) : Out :=
  .next (match s.plan.job with
    | none => s
    | some j =>
      if s.get F.planStatusPhase ≠ 4 ∨ !j.named.all (fun n => s.isOpen n || s.hedge n == STOPPED || s.hedge n == DARK) then s
      else
        let s1 := dropDeleted (publishPlan j.next j.images s)
        remountStore (endPlan 0 j.detail { s1 with fence := { s1.fence with
          avsCap := if j.op = 2 then s1.fence.avsCap else none } }))

/-- ABORT's effect: honoured in COPY, CHECK and DRAIN, ignored otherwise (R67). -/
def abortPlan (s : State) : State :=
  let p := s.get F.planStatusPhase
  if p = 1 ∨ p = 2 ∨ p = 3 then endPlan 0x41 0x3B s else s

/-- An ABORT write needs the token and the KEY like every PLAN_CMD. -/
def abortCommand (w : Writer) (key : Nat) (s : State) : State :=
  if !isPf0 w ∨ !s.hasToken w then refusePlan 0x41 0x01 s
  else if key ≠ 0x9A17 then refusePlan 0x41 0x04 s
  else abortPlan s

/-- ABORT (R67). -/
def execAbort (w : Writer) (key : BitVec 16) (s : State) : Out :=
  .next (writeAccess w R.planCmd (planCmdValue key.toNat 7 0 0) (abortCommand w key.toNat) s)

/-- STORE's effect: the xSPI lease is taken and the area that does not hold the newest valid chain is erased (R64). -/
def startStore (w : Writer) (s : State) : State :=
  let area := 1 - s.areas.headD 1
  let j : PlanJob := {
    op := 3, cut := false, writer := w, next := s.plan.active, images := s.plan.chain, named := [], detail := 0, area := area }
  let s1 := flashErase (areaBase area) 0x200000 { s with plan := { s.plan with job := some j } }
  takeLease 3 (takeLease 0 (s1.put F.planStatusPhase 6))

/-- STORE (R64). -/
def execStore (w : Writer) (key : BitVec 16) (s : State) : Out :=
  .next (writeAccess w R.planCmd (planCmdValue key.toNat 3 0 0) (planCommand w key.toNat (startStore w)) s)

/-- The area header and images of a chain (Table 2.7). -/
def areaBytes (seq : Nat) (chain : List (List Byte)) : List Byte :=
  let bs := chain.flatten
  leBytes 4 0x414E4C50 ++ leBytes 4 seq ++ leBytes 1 chain.length ++ [0, 0, 0] ++ leBytes 4 bs.length ++
    leBytes 48 (chainDigest chain) ++ bs

/-- STORE_DONE (R64): the images, then the header, then the read-back; only a matching area is valid. -/
def execStoreDone (readBackOk : Bool) (s : State) : Out :=
  .next (match s.plan.job with
    | none => s
    | some j =>
      if s.get F.planStatusPhase ≠ 6 then s
      else
        let other := 1 - j.area
        let seq := if (s.areaChain other).isSome then s.areaSeq other + 1 else 1
        let s1 := if readBackOk then flashWrite (areaBase j.area) (areaBytes seq j.images) s else s
        let ok := (s1.areaChain j.area).isSome
        let s2 := s1.put F.planStatusUnstored (b2n (s1.unstored s1.plan.chain))
        finishPlan (if ok then 0 else 0xF0) 0 (dropLease 0 (dropLease 3 s2)))

/-- BURN_FLOOR's effect (R50): refused under the fallback plan; the DETAIL of that refusal is a free value. -/
def burnPlanFloor (s : State) : State :=
  if s.get F.planStatusFallback = 1 then
    let d := s.draw
    refusePlan 0x41 d.1 d.2
  else
    let f := max s.boot.fuses.planFloor (min 63 s.plan.active.security)
    let s1 := { s with boot := { s.boot with fuses := { s.boot.fuses with planFloor := f } } }
    finishPlan 0 0 (s1.put F.planKeysFloor f)

/-- PLAN_CMD BURN_FLOOR (R50). -/
def execPlanBurnFloor (w : Writer) (key : BitVec 16) (s : State) : Out :=
  .next (writeAccess w R.planCmd (planCmdValue key.toNat 5 0 0) (planCommand w key.toNat burnPlanFloor) s)

/-- REVOKE_KEY's effect (R50): refused for a slot that signed an image of the active or the newest stored chain. -/
def revokeKey (k : Nat) (s : State) : State :=
  let used := (s.plan.chain ++ s.storedChain.getD []).any (fun img => bytesAt img 0x0B 1 = k)
  if used then
    let d := s.draw
    refusePlan 0x41 d.1 d.2
  else
    let ks := s.boot.fuses.planKeys
    let ks1 := setAt k { ks.getD k ⟨0, false, false⟩ with revoked := true } ks
    let s1 := { s with boot := { s.boot with fuses := { s.boot.fuses with planKeys := ks1 } } }
    finishPlan 0 0 (s1.put F.planKeysRevoked (listMask (k :: maskList 4 (s1.get F.planKeysRevoked))))

/-- REVOKE_KEY (R50). -/
def execRevokeKey (w : Writer) (key : BitVec 16) (slot : BitVec 2) (s : State) : Out :=
  .next (writeAccess w R.planCmd (planCmdValue key.toNat 6 slot.toNat 0)
    (planCommand w key.toNat (revokeKey slot.toNat)) s)

end Sys2Proof.Machine
end

