-- ==== Sys2Proof/Machine/Firmware.lean ====
section
/-! DEFINITION. Meanings of the firmware, lease and key-mailbox commands (spec/07 R175–R196). The reload of a processor
is in Reload.lean. -/
namespace Sys2Proof.Machine

/-- WATCHDOG_RESTART (R175): only the processor's own firmware restarts its watchdog, while its island is open. -/
def execWatchdogRestart (proc : Fin 4) (s : State) : Out :=
  .next (if s.isOpen (procIsland proc) then
      { s with fw := { s.fw with wdogAt := setAt proc s.timeUs s.fw.wdogAt } }
    else s)

/-- The watchdog of a processor is paused while it waits with the target's mode bits (R132). -/
def State.wdogPaused (s : State) (p : Nat) : Bool :=
  let f := waitFields p
  s.get f.1 == 1 && s.get f.2 != 0 && s.get f.2 == s.get F.pwrStatusLastTarget && s.get F.pwrStatusPhase != 0

/-- A watchdog or exception close (R176, R124): before READY the start fails; afterwards the island closes with cause 3,
BOOT_WDOG records it, and ALERT_N pulses with ALERT_MASK bit 2. -/
def processorFails (p : Nat) (isException : Bool) (s : State) : State :=
  if s.boot.starting then failStart 0xF0 0x02 p s
  else
    let s1 := s.bump (if isException then F.bootWdogExceptions p else F.bootWdogExpiries p) 1
    let s2 := wdogEvent p (b2n isException) 1 (closeIsland (procIsland p) 3 s1)
    if bit s.plan.active.limits.alertMask 2 then
      { s2 with board := { s2.board with alerts := 2 :: s2.board.alerts.filter (fun a => a ≠ 2) } }
    else s2

/-- WATCHDOG_EXPIRY (R176): a watchdog that is not paused, of an open island. -/
def execWatchdogExpiry (proc : Fin 4) (s : State) : Out :=
  .next (if s.isOpen (procIsland proc) && !s.wdogPaused proc then processorFails proc false s else s)

/-- FIRMWARE_EXCEPTION (R176). -/
def execFirmwareException (proc : Fin 4) (s : State) : Out :=
  .next (if s.isOpen (procIsland proc) then processorFails proc true s else s)

/-- ALERT_N_PULSE_END (R176): the pulse of ALERT_N ends. -/
def execAlertNPulseEnd (s : State) : Out := .next { s with board := { s.board with alerts := [] } }

/-- A reload that does not succeed (R179): a FAILURE record at READY's step, then a cold start. -/
def reloadFails (p detail : Nat) (s : State) : State := coldStart 2 true (recordFailure true 15 0xF0 detail p s)

/-- ROM_PORT_FLASH_TIMEOUT (R180). -/
def execRomPortFlashTimeout (proc : Fin 4) (s : State) : Out :=
  .next (if bit (s.get F.bootFwStatusPending) proc then reloadFails proc 0x24 s else s)

/-! Hot swap and forced reload -/

/-- The value of a BOOT_FW_CMD write. -/
def fwCmdValue (key op proc : Nat) : Nat := keyed key (op + 16 * proc)

/-- The RESULT of a BOOT_FW_CMD write by R181. -/
def fwResult (w : Writer) (key proc : Nat) (s : State) : Nat :=
  if key ≠ 0xF1A5 ∨ !isPf0 w ∨ !s.hasToken w ∨ s.get F.bootFwCmdStatusBusy = 1 then 1
  else if s.get F.bootStatusReady = 0 ∨ !s.inBloom then 2
  else if proc = 0 then 3
  else 0

/-- HOT_SWAP's copy and check (R182 steps 1 and 2): an image that R110 accepts, for this processor and not older than
the running slot, is held until the processor settles. -/
def startHotSwap (w : Writer) (p : Nat) (s : State) : State :=
  let r := readSource w (s.rd64 R.bootSrcAddr) (s.rd R.bootSrcLen).toNat s
  let img := r.1.getD []
  match checkFirmware r.2.boot.fuses p img with
  | .error e => finishFw 4 e.status e.detail r.2
  | .ok i =>
    if i.version < r.2.get F.bootSlotRunVersion then finishFw 4 0x50 0x23 r.2
    else (reasonFor 4 (fun _ => p == 1) (fun _ => p == 1) { r.2 with fw := { r.2.fw with hotSwap := some (p, img) } }).puts
      [(F.bootFwCmdStatusBusy, 1), (F.bootFwCmdStatusResult, 0)]

/-- A BOOT_FW_CMD write: refused with its RESULT, or carried out by the Groundskeeper; with island 0 closed an accepted
command ends with LEASE_REVOKED (R181, Table 7.2). -/
def fwCommand (w : Writer) (key p : Nat) (act : State → State) (s : State) : State :=
  let r := fwResult w key p s
  if r ≠ 0 then s.put F.bootFwCmdStatusResult r
  else
    let s1 := noteOrigin 2 w s
    if s1.isShut 0 then finishFw 0 0x12 0 s1 else act s1

/-- HOT_SWAP (R181, R182). -/
def execHotSwap (w : Writer) (key : BitVec 16) (proc : BitVec 2) (s : State) : Out :=
  .next (writeAccess w R.bootFwCmd (fwCmdValue key.toNat 1 proc.toNat)
    (fwCommand w key.toNat proc.toNat (startHotSwap w proc.toNat)) s)

/-- HOT_SWAP_SETTLE_TIMEOUT (R182 step 3): the swap is abandoned and work resumes. -/
def execHotSwapSettleTimeout (s : State) : Out :=
  .next (if s.fw.hotSwap.isSome then finishFw 5 0 0 { s with fw := { s.fw with hotSwap := none } } else s)

/-- RELOAD's effect (R183): the island closes with cause 5 and awaits its slot image; HOT clears. -/
def startReload (p : Nat) (s : State) : State :=
  let s1 := closeIsland (procIsland p) 5 s
  let s2 := s1.puts [(F.bootFwStatusHot, listMask ((maskList 4 (s1.get F.bootFwStatusHot)).filter (fun x => x ≠ p))),
    (F.bootFwStatusPending, listMask (p :: maskList 4 (s1.get F.bootFwStatusPending))),
    (F.bootFwCmdStatusBusy, 1), (F.bootFwCmdStatusResult, 0)]
  wdogRecord p 3 1 { s2 with fw := { s2.fw with
    running := setAt p .none s2.fw.running, hotDigest := s2.fw.hotDigest.filter (fun e => e.1 ≠ p),
    reloadCmd := some p } }

/-- FIRMWARE_RELOAD (R181, R183). -/
def execFirmwareReload (w : Writer) (key : BitVec 16) (proc : BitVec 2) (s : State) : Out :=
  .next (writeAccess w R.bootFwCmd (fwCmdValue key.toNat 2 proc.toNat)
    (fwCommand w key.toNat proc.toNat (startReload proc.toNat)) s)

/-! Leases -/

/-- A lease's listed holders (Table 7.4); island 0 holds lease 1 only during recovery. -/
def leaseListed (l n : Nat) (recovery : Bool) : Bool :=
  match l with
  | 1 => n == 58 || (n == 0 && recovery)
  | _ => n == 0

/-- LEASE_REQUEST (R184, R195): granted to a listed holder with its current epoch when the lease is free; otherwise it
waits in order, a recovery request of the Groundskeeper at the head. -/
def execLeaseRequest (lease : Fin 5) (island : Fin 72) (epoch : BitVec 8) (recovery : Bool) (s : State) : Out :=
  let l := lease.val
  let e := (l, island.val, epoch.toNat)
  .next (if !leaseListed l island recovery ∨ epoch.toNat ≠ s.epoch island then s
    else if s.leaseHolder l = 0x7F ∧ !s.fw.forced.contains l then
      s.puts [(F.fenceLeaseHolder l, island), (F.fenceLeaseEpoch l, epoch.toNat), (F.fenceLeaseAgeMs l, 0)]
    else
      let q := if recovery && island = 0 then e :: s.fw.waiters else s.fw.waiters ++ [e]
      { s with fw := { s.fw with waiters := q } }.put (F.fenceLeaseWaiters l)
        (min 15 (q.filter (fun (x : Nat × Nat × Nat) => x.1 = l)).length))

/-- The holder with its epoch at the grant, as a renewal or release must carry it (R184). -/
def State.holds (s : State) (l n e : Nat) : Bool :=
  s.leaseHolder l == n && s.get (F.fenceLeaseEpoch l) == e && s.epoch n == e

/-- LEASE_RENEW (R184, R187): a progress mark; any other epoch is ignored. -/
def execLeaseRenew (lease : Fin 5) (island : Fin 72) (epoch : BitVec 8) (s : State) : Out :=
  .next (if s.holds lease island epoch.toNat then s.put (F.fenceLeaseAgeMs lease) 0 else s)

/-- LEASE_RELEASE (R184): the next waiter is granted the lease; any other epoch is ignored. -/
def execLeaseRelease (lease : Fin 5) (island : Fin 72) (epoch : BitVec 8) (s : State) : Out :=
  let l := lease.val
  .next (if s.holds l island epoch.toNat then
      grantNext l (freeLease l { s with fw := { s.fw with forCommand := s.fw.forCommand.filter (fun x => x ≠ l) } })
    else s)

/-- NAND_SAFE_POINT_DONE (R185): every die is ready and the keeper releases lease 1. -/
def execNandSafePointDone (s : State) : Out :=
  .next (if s.fw.forced.contains 1 then
      grantNext 1 (freeLease 1 { s with fw := { s.fw with forced := s.fw.forced.filter (fun x => x ≠ 1) } })
    else s)

/-- LEASE_REVOCATION (R186): the Groundskeeper closes island 58, which holds the lease, with cause 6. -/
def execLeaseRevocation (lease : Fin 5) (s : State) : Out :=
  .next (if s.leaseHolder lease = 58 ∧ s.isOpen 0 then
      closeIsland 58 6 (s.bump F.fenceLeaseEventsRevoked 1)
    else s)

/-- The command that a lease was held for ends with LEASE_REVOKED (R188): a plan command before COMMIT, or a STORE. -/
def revokeCommand (l : Nat) (s : State) : State :=
  let ph := s.get F.planStatusPhase
  if (l = 3 ∧ (ph = 1 ∨ ph = 2 ∨ ph = 3 ∨ ph = 6)) ∨ (l = 0 ∧ ph = 6) then finishPlan 0x12 0 (endWriteThrough s) else s

/-- LEASE_TIMER_EXPIRY (R187): the fence releases a lease of island 0 by force. -/
def execLeaseTimerExpiry (lease : Fin 5) (s : State) : Out :=
  let l := lease.val
  .next (if s.leaseHolder l ≠ 0 then s
    else
      let s1 := leaseEnded l (s.bump F.fenceLeaseEventsTimer 1)
      grantNext l (freeLease l (revokeCommand l s1)))

/-! The key-slot mailbox -/

/-- The value of a BOOT_KEYMB_CMD write. -/
def keymbValue (key op slot : Nat) : Nat := keyed key (op + 16 * slot)

/-- The RESULT of a mailbox write by R189. -/
def keymbResult (w : Writer) (key op slot : Nat) (s : State) : Nat :=
  if key ≠ 0x4E7B ∨ !isPf0 w ∨ !s.hasToken w ∨ s.get F.bootKeymbStatusBusy = 1 then 1
  else if !s.inBloom then 2
  else if op ≠ 3 ∧ slot = 0 then 3
  else if !s.isOpen 0 then 6
  else 0

/-- A mailbox command completes. -/
def finishKeymb (result : Nat) (s : State) : State :=
  setEvent 4 (s.puts [(F.bootKeymbStatusResult, result), (F.bootKeymbStatusDone, 1)])

/-- A mailbox write: refused, or carried out (R189). -/
def keymbCommand (w : Writer) (key op slot : Nat) (act : State → State) (s : State) : State :=
  let r := keymbResult w key op slot s
  if r ≠ 0 then s.put F.bootKeymbStatusResult r else act (noteOrigin 3 w s)

/-- Before a commit, every slice writes back and invalidates each unlocked line tagged with an affected selector
(R260). -/
def flushKeys (affected : Nat → Bool) (s : State) : State :=
  s.each (s.mem.lines.filter (fun l => affected l.key && (s.lockOf l.pa).isNone)) evict

/-- The commit: the slots switch in both channels and in the retention store (R190). -/
def commitKeys (affected : Nat → Bool) (new : List (Nat × List Byte × List Byte)) (s : State) : State :=
  let s1 := flushKeys affected s
  let ks := new ++ s1.fw.keyStore.filter (fun e => !affected e.1)
  let s2 := { s1 with fw := { s1.fw with keyStore := ks }, mem := { s1.mem with keys := ks } }
  s2.put F.bootKeymbStatusLoaded (listMask (ks.map (fun (e : Nat × List Byte × List Byte) => e.1 - 1)))

/-- LOAD's effect (R190): equal keys are refused; the source is overwritten with zeros, then the commit and the KCV. -/
def loadKey (w : Writer) (slot : Nat) (s : State) : State :=
  let off := s.rd64 R.bootKeymbAddr
  let r := readSource w off 64 s
  match r.1 with
  | none => finishKeymb 7 r.2
  | some m =>
    let dk := m.take 32
    let tk := m.drop 32
    if dk = tk then finishKeymb 5 r.2
    else
      let s1 := commitKeys (fun k => k == slot) [(slot, dk, tk)] (writeDest w off (List.replicate 64 0) r.2)
      let kcv := leNat ((aesEnc dk (List.replicate 16 0)).take 4)
      finishKeymb 0 (s1.wr R.bootKeymbKcv (BitVec.ofNat 32 kcv))

/-- KEYMB_LOAD (R189, R190). -/
def execKeymbLoad (w : Writer) (key : BitVec 16) (slot : BitVec 4) (s : State) : Out :=
  .next (writeAccess w R.bootKeymbCmd (keymbValue key.toNat 1 slot.toNat)
    (keymbCommand w key.toNat 1 slot.toNat (loadKey w slot.toNat)) s)

/-- KEYMB_CLEAR (R190). -/
def execKeymbClear (w : Writer) (key : BitVec 16) (slot : BitVec 4) (s : State) : Out :=
  .next (writeAccess w R.bootKeymbCmd (keymbValue key.toNat 2 slot.toNat)
    (keymbCommand w key.toNat 2 slot.toNat (fun t => finishKeymb 0 (commitKeys (fun k => k == slot.toNat) [] t))) s)

/-- KEYMB_CLEAR_ALL (R190). -/
def execKeymbClearAll (w : Writer) (key : BitVec 16) (s : State) : Out :=
  .next (writeAccess w R.bootKeymbCmd (keymbValue key.toNat 3 0)
    (keymbCommand w key.toNat 3 0 (fun t => finishKeymb 0 (commitKeys (fun k => k != 0) [] t))) s)

end Sys2Proof.Machine
end

