-- ==== Sys2Proof/Machine/HostCmd.lean ====
section
/-! DEFINITION. Host interface: doorbells, rings, interrupts, the token, functions, the link, configuration space and
BAR4 (spec/08 R197–R225; spec/04 R106). -/
namespace Sys2Proof.Machine

/-! BAR2 (R204) -/

/-- An access to the BAR2 of a function, judged as R557 judges BAR0: unreachable, held in Shade, or dark. -/
def bar2Access (f : Nat) (t : Tlp) (act : State → State) (s : State) : State :=
  let s1 := touchWake (.host (Fin.ofNat 8 f)) s
  if !s1.hostReaches f || s1.get F.bootStatusSafe == 1 then s1
  else if s1.mustHold then holdTlp t s1
  else if s1.isShut 60 then darkAccess 60 s1
  else act s1

/-- A doorbell of a ring written through a function's BAR2: discarded and counted unless that function owns the ring
(R204). `shade` tells that it was held in Shade. -/
def doorbell (f : Nat) (cq : Bool) (r v : Nat) (shade : Bool) (s : State) : State :=
  if cq then (if s.cqFn r = f then ringHead r v s else s.bump (F.cqHeadDiscarded r) 1)
  else if s.sqFn r = f then ringTail r v shade s
  else s.bump (F.sqTailDiscarded r) 1

/-- SQ_DOORBELL (R204, R211). -/
def execSqDoorbell (fn : Fin 8) (ring : Fin 64) (tail : BitVec 16) (s : State) : Out :=
  .next (bar2Access fn (.doorbell fn false ring tail) (doorbell fn false ring tail.toNat false) s)

/-- CQ_DOORBELL (R204, R211). -/
def execCqDoorbell (fn : Fin 8) (ring : Fin 64) (head : BitVec 16) (s : State) : Out :=
  .next (bar2Access fn (.doorbell fn true ring head) (doorbell fn true ring head.toNat false) s)

/-- Send the held messages of a function that nothing holds any more: PBA bits of unmasked vectors (R201, R218). -/
def sendHeld (f : Nat) (s : State) : State :=
  s.each (maskList 64 (s.fn f).pba) (fun v t =>
    let p := t.fn f
    if t.canIssue f && p.msixEnable && !p.msixMask && !(p.msix.getD v (0, 0, true)).2.2 then
      sendMsi f v (t.setFn f { p with pba := p.pba - 2 ^ v })
    else t)

/-- Write an entry of a function's MSI-X table; unmasked, a pending message is sent (R218). -/
def writeMsix (f v addr data : Nat) (mask : Bool) (s : State) : State :=
  let p := s.fn f
  sendHeld f (s.setFn f { p with msix := setAt v (addr, data, mask) p.msix })

/-- MSIX_UNMASK (R218): a write of a vector's table entry. -/
def execMsixUnmask (fn : Fin 8) (vector : Fin 64) (addr : DWord) (data : Word) (mask : Bool) (s : State) : Out :=
  .next (bar2Access fn (.msix fn vector addr data mask) (writeMsix fn vector addr.toNat data.toNat mask) s)

/-! Rings (R207–R209, R224) -/

/-- A refused configuration write (HOSTQ_ERROR). -/
def hostError (code : Nat) (s : State) : State := s.wr R.hostqError (BitVec.ofNat 32 code)

/-- An allotment lies in a function's range (R206). -/
def State.allotOf (s : State) (f a : Nat) : Bool := s.allotOwner a == some f

/-- Why an SQ may not be enabled: the first failed condition of R209, as a HOSTQ_ERROR code. -/
def State.sqRefusal (s : State) (r : Nat) : Option Nat :=
  let lg := s.get (F.sqCfgSizeLog2 r)
  let cq := s.get (F.sqCfgCq r)
  if lg < 4 ∨ 12 < lg ∨ s.rd64 (R.sqBase r) % 4096 ≠ 0 then some 5
  else if s.get (F.cqStatusState cq) ≠ RING_ENABLED ∨ s.cqFn cq ≠ s.sqFn r then some 6
  else if !s.allotOf (s.sqFn r) (s.get (F.sqCfgAllot r)) then some 7
  else none

/-- Why a CQ may not be enabled. -/
def State.cqRefusal (s : State) (r : Nat) : Option Nat :=
  let lg := s.get (F.cqCfgSizeLog2 r)
  if lg < 4 ∨ 12 < lg ∨ s.rd64 (R.cqBase r) % 4096 ≠ 0 then some 5
  else if s.get (F.cqCfgVector r) < 2 then some 8
  else if s.get (F.cqCfgSpace r) = 1 ∧ !s.allotOf (s.cqFn r) (s.get (F.cqCfgAllot r)) then some 7
  else none

/-- ENABLE 1: only a DISABLED ring is enabled, if R209 admits it. -/
def enableRing (cq : Bool) (r : Nat) (s : State) : State :=
  if cq then
    if s.get (F.cqStatusState r) ≠ RING_DISABLED then s
    else match s.cqRefusal r with
      | some e => hostError e s
      | none => s.puts [(F.cqStatusState r, RING_ENABLED), (F.cqStatusHaltReason r, 0), (F.cqCtrlEnable r, 1)]
  else
    if s.get (F.sqStatusState r) ≠ RING_DISABLED then s
    else match s.sqRefusal r with
      | some e => hostError e s
      | none => s.puts [(F.sqStatusState r, RING_ENABLED), (F.sqStatusHaltReason r, 0), (F.sqCtrlEnable r, 1)]

/-- Forget what Gardener 0 and island 60 hold of an SQ that has not been dispatched (R224). -/
def dropUndispatched (r : Nat) (s : State) : State :=
  { s with host := { s.host with
    heads := s.host.heads.filter (fun h => h.1 ≠ r),
    reads := s.host.reads.filter (fun x => match x.purpose with
      | .entry q => q != r
      | _ => true),
    doors := s.host.doors.filter (fun d => d.sq ≠ r),
    latched := s.host.latched.filter (fun l => l.1 ≠ r) } }

/-- Forget what the completion engine holds for a CQ. -/
def dropWaiting (r : Nat) (s : State) : State :=
  { s with host := { s.host with
    waiting := s.host.waiting.filter (fun c => c.cq ≠ r),
    unsignalled := s.host.unsignalled.filter (fun e => e.1 ≠ r) } }

/-- ENABLE 0: an SQ drains (R224); a CQ is disabled unless an SQ in service names it (R209). -/
def disableRing (cq : Bool) (r : Nat) (s : State) : State :=
  if cq then
    let st := s.get (F.cqStatusState r)
    if st ≠ RING_ENABLED ∧ st ≠ RING_HALTED then s
    else if (List.range 64).any (fun q => s.get (F.sqStatusState q) != RING_DISABLED && s.get (F.sqCfgCq q) == r) then hostError 9 s
    else disableCq r (dropWaiting r s)
  else
    let st := s.get (F.sqStatusState r)
    if st ≠ RING_ENABLED ∧ st ≠ RING_HALTED then s
    else settleSq r ((dropUndispatched r s).puts [(F.sqStatusState r, RING_DRAINING), (F.sqCtrlEnable r, 0)])

/-- A write of SQ_CTRL or CQ_CTRL. -/
def writeRingCtrl (cq : Bool) (r : Nat) (v : Word) (s : State) : State :=
  let s1 := noteReserved (if cq then R.cqCtrl r else R.sqCtrl r) v s
  if getBits v 0 1 = 1 then enableRing cq r s1 else disableRing cq r s1

/-- RING_ENABLE (R209). -/
def execRingEnable (fn : Fin 8) (cq : Bool) (ring : Fin 64) (s : State) : Out :=
  .next (writeAccess (.host fn) (if cq then R.cqCtrl ring else R.sqCtrl ring) 1 (writeRingCtrl cq ring 1) s)

/-- RING_DISABLE (R224). -/
def execRingDisable (fn : Fin 8) (cq : Bool) (ring : Fin 64) (s : State) : Out :=
  .next (writeAccess (.host fn) (if cq then R.cqCtrl ring else R.sqCtrl ring) 0 (writeRingCtrl cq ring 0) s)

/-- CQ_COALESCE_TIMER (R218): TIME × 4 µs have passed since the first unsignalled completion of a CQ. -/
def execCqCoalesceTimer (ring : Fin 64) (s : State) : Out :=
  let r := ring.val
  .next (if s.isShut 60 ∨ s.host.unsignalled.all (fun e => e.1 ≠ r) ∨ s.get (F.cqCfgIen r) = 0 ∨ s.get (F.cqCfgTime r) = 0 then s
    else sendMsi (s.cqFn r) (s.get (F.cqCfgVector r))
      { s with host := { s.host with unsignalled := s.host.unsignalled.filter (fun e => e.1 ≠ r) } })

/-! Heartbeat and token (R220–R222) -/

/-- BEAT restarts and arms the timer. -/
def beat (s : State) : State := s.puts [(F.hostqHeartbeatAgeMs, 0), (F.hostqHeartbeatArmed, 1)]

/-- HEARTBEAT_BEAT (R220): acts from PF0 alone. -/
def execHeartbeatBeat (fn : Fin 8) (s : State) : Out :=
  .next (writeAccess (.host fn) R.hostqHeartbeat (2 ^ 31) beat s)

/-- HEARTBEAT_LAPSE (R220). -/
def execHeartbeatLapse (s : State) : Out :=
  .next (if s.get F.hostqHeartbeatArmed = 1 ∧ s.get F.hostqTokenHolder = 0 ∧ s.inBloom then moveToken 1 2 s else s)

/-- A HOSTQ_TOKEN write (R222): refused for another key or function; OP 1 GRANT, 2 RECLAIM. -/
def writeToken (pf0 : Bool) (key op : Nat) (s : State) : State :=
  let holder := s.get F.hostqTokenHolder
  let how := s.get F.hostqTokenHow
  let result := fun (r : Nat) (t : State) => t.put F.hostqTokenResult r
  if !pf0 ∨ key ≠ 0x70C3 then result 1 s
  else if op = 1 then
    if holder ≠ 0 then result 2 s else result 0 (moveToken 1 1 s)
  else if op = 2 then
    if holder ≠ 1 then result 4 s
    else if how = 1 then result 3 s
    else if how = 2 ∨ how = 3 then result 0 (moveToken 0 0 s)
    else result 4 s
  else result 0 s

/-- A HOSTQ_TOKEN write by a host function; a VF's is refused, and the port never writes this register (R222, R241). -/
def tokenAccess (w : Writer) (key op : Nat) (s : State) : State :=
  match w with
  | .port => s
  | .host f =>
    let s1 := touchWake w s
    if f ≠ 0 ∧ s1.judge w R.hostqToken 4 = .zero then writeToken false key op s1
    else writeAccess w R.hostqToken (keyed key (op * 2 ^ 8)) (writeToken true key op) s

/-- GRANT (R222). -/
def execGrant (w : Writer) (key : BitVec 16) (s : State) : Out := .next (tokenAccess w key.toNat 1 s)
/-- RECLAIM (R222). -/
def execReclaim (w : Writer) (key : BitVec 16) (s : State) : Out := .next (tokenAccess w key.toNat 2 s)

/-! Functions and ring owners (R206, R207) -/

/-- A write that only PF0 may make, of a register of the HOSTQ block that a VF sees but that does not act for it: from a
VF it is refused with HOSTQ_ERROR 1 (R206). -/
def pf0Access (w : Writer) (off value : Nat) (act : State → State) (s : State) : State :=
  let s1 := touchWake w s
  match w with
  | .port => writeAccess w off value act s
  | .host f =>
    if f ≠ 0 ∧ (s1.judge w off 4 = .zero ∨ s1.judge w off 4 = .serve) then hostError 1 s1
    else writeAccess w off value act s

/-- A function has a ring that is not DISABLED. -/
def State.hasRing (s : State) (f : Nat) : Bool :=
  (List.range 64).any (fun r => (s.sqFn r == f && s.get (F.sqStatusState r) != RING_DISABLED) ||
    (s.cqFn r == f && s.get (F.cqStatusState r) != RING_DISABLED))

/-- A HOSTQ_FN_f write (R206). -/
def writeFn (w : Writer) (f base count : Nat) (s : State) : State :=
  let lap := fun (g : Nat) =>
    let b := s.get (F.hostqFnAllotBase g)
    let c := s.get (F.hostqFnAllotCount g)
    g != f && base < b + c && b < base + count
  if !isPf0 w then hostError 1 s
  else if !s.hasToken w then hostError 2 s
  else if 64 < base + count then hostError 7 s
  else if (List.range 8).any lap then hostError 3 s
  else if s.hasRing f then hostError 4 s
  else s.puts [(F.hostqFnAllotBase f, base), (F.hostqFnAllotCount f, count)]

/-- FN_WRITE (R206). -/
def execFnWrite (w : Writer) (fn : Fin 8) (base : BitVec 6) (count : BitVec 7) (s : State) : Out :=
  .next (pf0Access w (R.hostqFn fn) (base.toNat + 2 ^ 8 * count.toNat) (writeFn w fn base.toNat count.toNat) s)

/-- A HOSTQ_RING_OWNER_r write (R207). -/
def writeOwner (w : Writer) (r sq cq : Nat) (s : State) : State :=
  let sqNew := s.sqFn r != sq
  let cqNew := s.cqFn r != cq
  if !sqNew && !cqNew then s
  else if !isPf0 w then hostError 1 s
  else if !s.hasToken w then hostError 2 s
  else if (sqNew && s.get (F.sqStatusState r) != RING_DISABLED) || (cqNew && s.get (F.cqStatusState r) != RING_DISABLED) then
    hostError 4 s
  else s.puts [(F.hostqRingOwnerSqFn r, sq), (F.hostqRingOwnerCqFn r, cq)]

/-- RING_OWNER_WRITE (R207). -/
def execRingOwnerWrite (w : Writer) (ring : Fin 64) (sqFn cqFn : Fin 8) (s : State) : Out :=
  .next (pf0Access w (R.hostqRingOwner ring) (sqFn.val + 2 ^ 8 * cqFn.val) (writeOwner w ring sqFn cqFn) s)

/-! Reset of a function (R223, R296) -/

/-- Words of a register block take their Cold values, but those kept. -/
def coldBlock (lo hi : Nat) (kept : Nat → Bool) (s : State) : State :=
  resetRegs (fun _ => 0) (fun off => lo ≤ off && off < hi && !kept off) s

/-- HOSTQ registers that a function reset keeps (R223). -/
def resetKeeps (off : Nat) : Bool :=
  off == R.hostqToken || off == R.hostqLink || (R.hostqUrgentCfg ≤ off && off ≤ R.hostqUrgentCount) ||
    (R.hostqFn 0 ≤ off && off < R.hostqFn 8) || (R.hostqRingOwner 0 ≤ off && off < R.hostqRingOwner 64)

/-- The running entries of a function are cut at their next boundary and their completions discarded; stalled ones end,
and what has not begun is dropped. -/
def cutFunction (f : Nat) (s : State) : State :=
  let mine := fun (e : Entry) => s.sqFn e.sq == f
  let s1 := { s with host := { s.host with entries := s.host.entries.map (fun (e : Entry) =>
    if mine e then { e with discard := true } else e) } }
  let s2 := s1.each (s.mmu.stalls.filter (fun x => x.fn = f)) (fun x t => endStream x.stream 0x30 t)
  let s3 := s2.each (s2.host.entries.filter mine) (fun e t => cutEntry e.uid t)
  s3.each (s3.host.entries.filter (fun e => mine e && !s3.begun e.uid)) (fun e t => finishEntry e.uid 0 0 t)

/-- Rings of a function fall to DISABLED with Cold registers. -/
def coldRings (f : Nat) (s : State) : State :=
  let s1 := s.each ((List.range 64).filter (fun r => s.sqFn r == f)) (fun r t =>
    coldBlock (R.sqBase r) (R.sqBase r + 0x20) (fun _ => false) (dropUndispatched r t))
  s1.each ((List.range 64).filter (fun r => s.cqFn r == f)) (fun r t =>
    coldBlock (R.cqBase r) (R.cqBase r + 0x20) (fun _ => false) (dropWaiting r t))

/-- Allotments of a function at its reset: batches gone, MMU_FN_f Cold, no cached translation (R296). -/
def coldMmu (f : Nat) (s : State) : State :=
  let base := s.get (F.hostqFnAllotBase f)
  let count := s.get (F.hostqFnAllotCount f)
  let s1 := { s with mmu := { s.mmu with
    batches := s.mmu.batches.filter (fun b => b.fn ≠ f),
    nextBatch := setAt f 1 s.mmu.nextBatch, writePos := setAt f 0 s.mmu.writePos,
    tlb := s.mmu.tlb.filter (fun t => !(base ≤ t.allot && t.allot < base + count)) } }
  coldBlock (R.mmuFrBase f) (R.mmuFrBase f + 0x20) (fun _ => false) s1

/-- Reset one function: its work, rings and allotments, and its configuration (R223). -/
def resetOne (f : Nat) (s : State) : State :=
  let s1 := coldMmu f (coldRings f (cutFunction f s))
  let s2 := { s1 with host := { s1.host with heldLow := s1.host.heldLow.filter (fun e => e.1 ≠ f) } }
  s2.setFn f (.reset (s2.fn f).present)

/-- VF Enable clears: every VF is reset and no longer exists. -/
def clearVfs (s : State) : State :=
  let s1 := s.each ((List.range 7).map (· + 1)) (fun f t => (resetOne f t).setFn f (.reset false))
  { s1 with host := { s1.host with vfEnable := false } }

/-- Reset a function; PF0 takes every VF and the rest of the HOSTQ block with it, and the heartbeat disarms (R223). -/
def resetFunction (f : Nat) (s : State) : State :=
  if f ≠ 0 then resetOne f s
  else
    let s1 := clearVfs (resetOne 0 s)
    let s2 := coldBlock 0x060000 0x070000 resetKeeps s1
    { s2 with host := { s2.host with bar4Size := 2 ^ 28 } }

/-- FUNCTION_RESET (R223). -/
def execFunctionReset (fn : Fin 8) (cause : FnReset) (s : State) : Out :=
  .next (if !(s.fn fn).present ∨ s.isShut 60 then s
    else match cause with
      | .flr => resetFunction fn s
      | .d3Return => if (s.fn fn).d3hot then resetFunction fn s else s
      | .vfEnableClear => if s.host.vfEnable then clearVfs s else s)

/-- D3HOT_ENTRY (R199). -/
def execD3hotEntry (fn : Fin 8) (s : State) : Out :=
  .next (if (s.fn fn).present ∧ !s.isShut 60 then s.setFn fn { s.fn fn with d3hot := true } else s)

/-- Bus Master Enable changes (R201). -/
def setBusMaster (f : Nat) (v : Bool) (s : State) : State := sendHeld f (s.setFn f { s.fn f with busMaster := v })

/-- BUS_MASTER_ENABLE (R201). -/
def execBusMasterEnable (fn : Fin 8) (value : Bool) (s : State) : Out :=
  .next (if (s.fn fn).present ∧ !s.isShut 60 then setBusMaster fn value s else s)

/-! The link (R106, R221, R223) -/

/-- The link goes down: every function is reset, what the receive buffer holds is lost, the token moves except in the entry to a power state from LINK_WAIT on,
and an entry that waited for this goes on. -/
def linkDown (s : State) : State :=
  if !s.host.linkUp then s
  else
    let ph := s.get F.pwrStatusPhase
    let s1 := resetFunction 0 { s with host := { s.host with linkUp := false }, pwr := { s.pwr with tlps := [] } }
    let s2 := (s1.puts [(F.hostqLinkSpeed, 0), (F.hostqLinkWidth, 0), (F.hostqLinkAspmL1, 0), (F.hostqLinkL12, 0)]).bump
      F.hostqLinkDownCount 1
    let s3 := if s2.get F.hostqTokenHolder = 0 ∧ ph ≠ 2 ∧ ph ≠ 3 then moveToken 1 3 s2 else s2
    refreshUrgent (if ph = 2 then runSequence s3 else s3)

/-- PCIE_LINK_DOWN (R221). -/
def execPcieLinkDown (s : State) : Out := .next (linkDown s)

/-- PCIE_LINK_UP (R106, Table 8.12): training has begun and reaches L0 at a speed code and a width that R197 allows. -/
def execPcieLinkUp (speed : BitVec 4) (width : BitVec 6) (s : State) : Out :=
  let v := speed.toNat
  let w := width.toNat
  .next (if s.host.linkUp ∨ !s.boot.linkTraining ∨ s.isShut 60 ∨ v = 0 ∨ 4 < v ∨ ¬(w = 1 ∨ w = 2 ∨ w = 4) then s
    else { s with host := { s.host with linkUp := true } }.puts
      [(F.hostqLinkSpeed, v), (F.hostqLinkWidth, w), (F.bootStatusLinkPending, 0)])

/-! Configuration space (Table 8.1) -/

/-- What an item of a function's configuration space reads as; a register of the base specification that the spec gives
no value reads as a free value (log entry 1). -/
def State.configRead (s : State) (f : Nat) (i : ConfigItem) (free : Nat) : Nat :=
  let p := s.fn f
  match i with
  | .ids => 0x1F7A + 2 ^ 16 * (if f = 0 then 0x6400 else 0x6401)
  | .revClass => 0xB0 + 2 ^ 8 * 0x120000
  | .subsystem => 0x1F7A + 2 ^ 16 * 0x6400
  | .interruptPin => 0
  | .interruptDisable => b2n p.intDisable
  | .busMaster => b2n p.busMaster
  | .powerState => if p.d3hot then 3 else 0
  | .flr => 0
  | .relaxedOrdering => b2n p.relaxed
  | .maxPayload => p.maxPayload
  | .maxReadRequest => p.maxRead
  | .aspm => 2 * s.get F.hostqLinkAspmL1
  | .aspmL12 => s.get F.hostqLinkL12
  | .linkStatus => s.get F.hostqLinkSpeed + 2 ^ 4 * s.get F.hostqLinkWidth
  | .msixEnable => b2n p.msixEnable
  | .msixMask => b2n p.msixMask
  | .serialNumber => Config.serialNumber
  | .bar4Size => Nat.log2 s.host.bar4Size - 28
  | .totalVfs => if f = 0 then 7 else 0
  | .vfEnable => if f = 0 then b2n s.host.vfEnable else 0
  | .other _ => free

/-- VF Enable of PF0. -/
def writeVfEnable (on : Bool) (s : State) : State :=
  if on then
    if s.host.vfEnable then s
    else s.each ((List.range 7).map (· + 1)) (fun f t => t.setFn f (.reset true)) |> fun t =>
      { t with host := { t.host with vfEnable := true } }
  else if s.host.vfEnable then clearVfs s
  else s

/-- A write of an item. Items of the link, BAR4 and VF Enable belong to PF0. In D3hot only PowerState acts. -/
def configWrite (f : Nat) (i : ConfigItem) (v : Nat) (s : State) : State :=
  let p := s.fn f
  let on := bit v 0
  if p.d3hot then
    match i with
    | .powerState => if v % 4 = 0 then resetFunction f s else s
    | _ => s
  else match i with
    | .busMaster => setBusMaster f on s
    | .interruptDisable => s.setFn f { p with intDisable := on }
    | .powerState => if v % 4 = 3 then s.setFn f { p with d3hot := true } else s
    | .flr => if on then resetFunction f s else s
    | .relaxedOrdering => s.setFn f { p with relaxed := on }
    | .maxPayload => if v ≤ 2 then s.setFn f { p with maxPayload := v } else s
    | .maxReadRequest => if v ≤ 5 then s.setFn f { p with maxRead := v } else s
    | .aspm => if f = 0 then refreshUrgent (s.put F.hostqLinkAspmL1 (b2n (bit v 1))) else s
    | .aspmL12 => if f = 0 then s.put F.hostqLinkL12 (b2n on) else s
    | .msixEnable => sendHeld f (s.setFn f { p with msixEnable := on })
    | .msixMask => sendHeld f (s.setFn f { p with msixMask := on })
    | .bar4Size => if f = 0 ∧ v ≤ 6 then { s with host := { s.host with bar4Size := 2 ^ (28 + v) } } else s
    | .vfEnable => if f = 0 then writeVfEnable on s else s
    | .ids => s
    | .revClass => s
    | .subsystem => s
    | .interruptPin => s
    | .linkStatus => s
    | .serialNumber => s
    | .totalVfs => s
    | .other _ => s

/-- A configuration request is served: Request Retry Status until LINKS_UP ends, else against configuration space
(R106). -/
def serveConfig (f : Nat) (i : ConfigItem) (v : Option Nat) (s : State) : State :=
  let rrs := s.boot.starting && s.get F.bootStatusStep ≤ 14
  let s1 := { s with host := { s.host with retried := rrs } }
  if rrs then s1
  else match v with
    | some x => configWrite f i x s1
    | none =>
      let d := s1.draw
      let n := if i = .serialNumber then 8 else 4
      { d.2 with host := { d.2.host with readData := leBytes n (s1.configRead f i d.1) } }

/-- CONFIGURATION_REQUEST (R106, R139). -/
def execConfigurationRequest (fn : Fin 8) (item : ConfigItem) (value : Option Nat) (s : State) : Out :=
  let s1 := if s.power = 2 ∧ s.host.linkUp then wakeEvent 4 s else s
  .next (if !s1.host.linkUp ∨ !(s1.fn fn).present then s1
    else if s1.mustHold then holdTlp (.config fn item value) s1
    else serveConfig fn item value s1)

/-! BAR4 (R203, R563) -/

/-- Perform a BAR4 access in Bloom: denied outside what R203 admits, and reported as R563 says where the device refuses
it. -/
def serveBar4 (off len : Nat) (data : Option (List Byte)) (s : State) : State :=
  let pa := s.rd64 R.hostqBar4Base / s.host.bar4Size * s.host.bar4Size + off
  let ones := fun (t : State) => match data with
    | some _ => t
    | none => { t with host := { t.host with readData := List.replicate len 0xFF } }
  let deny := fun (t : State) => ones (t.bump F.hostqBar4CtrlDenied 1)
  let fails := fun (e : MemErr) (t : State) => if e.status = 0x11 then ones (darkAccess e.island t) else deny t
  let q : Req := ⟨60, s.plan.active.qos.islands.getD 60 1, s.get F.hostqBar4CtrlKeySel, false⟩
  if !s.bar4Admits pa len then deny s
  else match data with
    | some bs =>
      let r := physWrite q pa bs s
      r.1.elim r.2 (fun e => fails e r.2)
    | none =>
      let r := physRead q pa len s
      match r.1 with
      | .ok bs => { r.2 with host := { r.2.host with readData := bs } }
      | .error e => fails e r.2

/-- BAR4_ACCESS (R203, R139, R563): an access of `len` bytes inside the window, a write where it carries data. -/
def execBar4Access (off : BitVec 34) (len : Nat) (data : Option (List Byte)) (s : State) : Out :=
  let s1 := touchWake (.host 0) s
  .next (if !s1.hostReaches 0 ∨ s1.host.bar4Size < off.toNat + len ∨ data.elim false (fun bs => bs.length != len) then s1
    else if s1.mustHold then holdTlp (.bar4 off len data) s1
    else if s1.isShut 60 then darkAccess 60 s1
    else serveBar4 off.toNat len data s1)

end Sys2Proof.Machine
end

