-- ==== Sys2Proof/Machine/Switch.lean ====
section
/-! DEFINITION. Meanings of the switch's commands: forwarding, egress queues, the host virtual NIC and time (spec/18
R428–R436). The frame and header layouts of IEEE 802.3, 802.1Q, IPv4, IPv6 and UDP are taken from those standards
(PRESUMED, log entry 35). -/
namespace Sys2Proof.Machine

/-! Frames -/

/-- A MAC address in network byte order. -/
def macAt (bs : List Byte) (o : Nat) : Nat := beNat ((bs.drop o).take 6)

/-- A 16-bit field in network byte order. -/
def be16 (bs : List Byte) (o : Nat) : Nat := beNat ((bs.drop o).take 2)

/-- An address is a group address. -/
def isGroup (mac : Nat) : Bool := bit mac 40

/-- Take a frame without FCS apart; an untagged or priority-tagged frame takes the PVID, and an untagged one PCP 0. -/
def parseFrame (pvid : Nat) (f : List Byte) : EthFrame :=
  if be16 f 12 = 0x8100 then
    let tci := be16 f 14
    ⟨macAt f 0, macAt f 6, if tci % 4096 = 0 then pvid else tci % 4096, tci / 8192, f.drop 16⟩
  else ⟨macAt f 0, macAt f 6, pvid, 0, f.drop 12⟩

/-- The bytes of a frame without FCS, tagged or not. -/
def frameBytes (f : EthFrame) (tagged : Bool) : List Byte :=
  beBytes 6 f.dst ++ beBytes 6 f.src ++ (if tagged then beBytes 2 0x8100 ++ beBytes 2 (8192 * f.pcp + f.vid) else []) ++
    f.body

/-- The FCS of a frame's bytes. -/
def fcsOf (f : List Byte) : List Byte := leBytes 4 (crc32 f)

/-- A UDP datagram in an IP packet: IP version 6, source, destination (network byte order), ports, payload. -/
structure Udp where
  v6   : Bool
  src  : List Byte
  dst  : List Byte
  sport : Nat
  dport : Nat
  pay  : List Byte
  deriving DecidableEq, Repr

/-- The UDP header and payload of an IP payload. -/
def udpOf (v6 : Bool) (src dst p : List Byte) : Option Udp :=
  if p.length < 8 then none
  else some ⟨v6, src, dst, be16 p 0, be16 p 2, (p.take (be16 p 4)).drop 8⟩

/-- An unfragmented IPv4 or IPv6 UDP datagram with no IPv6 extension header (Table 18.2 step 5). -/
def parseUdp (body : List Byte) : Option Udp :=
  let b := body.drop 2
  let at_ := fun i => (b.getD i 0).toNat
  if be16 body 0 = 0x0800 then
    (if at_ 0 / 16 = 4 ∧ be16 b 6 % 16384 = 0 ∧ at_ 9 = 17 then
      udpOf false ((b.drop 12).take 4) ((b.drop 16).take 4) ((b.take (be16 b 2)).drop (4 * (at_ 0 % 16)))
    else none)
  else if be16 body 0 = 0x86DD then
    (if at_ 0 / 16 = 6 ∧ at_ 6 = 17 then
      udpOf true ((b.drop 8).take 16) ((b.drop 24).take 16) ((b.drop 40).take (be16 b 4)) else none)
  else none

/-! Matching (R438) -/

/-- The 16 bytes of a slot's match address. -/
def State.matchIp (s : State) (reg : Nat → Nat) : List Byte := (List.range 4).flatMap (fun j => leBytes 4 (s.rd (reg j)).toNat)

/-- A datagram's addresses and VLAN meet a slot's match. -/
def State.matchIpVid (s : State) (i port vid : Nat) (u : Udp) : Bool :=
  let p := (s.slotPlan i).port
  let n := if u.v6 then 16 else 4
  let src := (s.matchIp (R.intakeMatchSrcIp i)).take n
  let dst := (s.matchIp (R.intakeMatchDstIp i)).take n
  (p == 4 || p == port) && (s.get (F.intakeSlotCfgVid i) == 0 || s.get (F.intakeSlotCfgVid i) == vid) &&
    (s.get (F.intakeSlotCfgIpv6 i) == b2n u.v6) && dst == u.dst && (src.all (fun b => b == 0) || src == u.src)

/-- A datagram is a slot's RTP. -/
def State.isRtp (s : State) (i port vid : Nat) (u : Udp) : Bool :=
  s.matchIpVid i port vid u && s.get (F.intakeMatchPortsDstUdp i) == u.dport &&
    (s.get (F.intakeMatchPortsSrcUdp i) == 0 || s.get (F.intakeMatchPortsSrcUdp i) == u.sport)

/-- A datagram is a slot's RTCP. -/
def State.isRtcp (s : State) (i port vid : Nat) (u : Udp) : Bool :=
  s.matchIpVid i port vid u && s.get (F.intakeMatchRtcpRtcpDst i) != 0 && s.get (F.intakeMatchRtcpRtcpDst i) == u.dport &&
    (s.get (F.intakeMatchRtcpRtcpSrc i) == 0 || s.get (F.intakeMatchRtcpRtcpSrc i) == u.sport)

/-- The lowest running network slot that a datagram matches, and whether as RTCP. -/
def State.matchSlot (s : State) (port vid : Nat) (u : Udp) : Option (Nat × Bool) :=
  let run := (List.range 64).filter (fun i => s.slotRuns i && s.get (F.intakeSlotCfgSource i) == 0)
  match run.find? (fun i => s.isRtp i port vid u || s.isRtcp i port vid u) with
  | some i => some (i, !s.isRtp i port vid u)
  | none => none

/-! Egress queues (R431, R432) -/

/-- The number of the virtual NIC among destinations; an external sub-port is 4 · port + sub-port. -/
def I1 : Nat := 16

/-- Sub-ports that a port has by its MODE (Table 18.1). -/
def State.subPorts (s : State) (p : Nat) : Nat :=
  let m := s.get (F.intakePortCfgMode p)
  if m = 5 then 4 else if m = 0 ∨ 5 < m then 0 else 1

/-- Bytes that wait for destinations that a test picks. -/
def State.queuedBytes (s : State) (p : Nat → Bool) : Nat :=
  (s.switch.queues.filter (fun q => p q.dest)).foldl (fun n q => n + q.frame.body.length + 16) 0

/-- Count in a port's counter: 0 RX_FRAMES, 1 RX_ERR, 2 VLAN_DROP, 3 TX_FRAMES, 4 TX_DROP, 5 PAUSE. -/
def countPort (p j : Nat) (s : State) : State := s.bump32 (R.intakePortCount p j) 1

/-- A frame waits for a destination, or is dropped where the packet memory or the destination's share is full (R432). -/
def enqueue (dest src ns : Nat) (f : EthFrame) (s : State) : State :=
  let n := f.body.length + 16
  if 2 ^ 21 < s.queuedBytes (fun _ => true) + n ∨ 2 ^ 18 < s.queuedBytes (fun d => d == dest) + n then
    (if dest = I1 then s else countPort (dest / 4) 4 s)
  else { s with switch := { s.switch with queues := s.switch.queues ++ [⟨dest, f.pcp, src, ns, f⟩] } }

/-- The VLAN entry of a VID. -/
def State.vlanOf (s : State) (vid : Nat) : Option Nat :=
  (List.range 256).find? (fun v => s.get (F.intakeVlanValid v) == 1 && s.get (F.intakeVlanVid v) == vid)

/-- The member bit of a source or destination: E0–E3 are 0–3, I1 is 5. -/
def memberBit (d : Nat) : Nat := if d = I1 then 5 else d / 4

/-- Destinations of a flood: every member sub-port and I1, except the receiving one (Table 18.2 step 8). -/
def State.floodTo (s : State) (vlan src : Nat) : List Nat :=
  let m := s.get (F.intakeVlanMember vlan)
  ((List.range 16).filter (fun d => bit m (d / 4) && d % 4 < s.subPorts (d / 4)) ++ (if bit m 5 then [I1] else [])).filter
    (fun d => d ≠ src)

/-- Learn a source address (R430, R431): a full table learns no new one, and MAC_FULL counts it. -/
def learn (vid mac port : Nat) (s : State) : State :=
  let rest := s.switch.macs.filter (fun e => !(e.vid = vid && e.mac = mac))
  if rest.length < 8192 then { s with switch := { s.switch with macs := ⟨vid, mac, port⟩ :: rest } }
  else s.bump32 R.intakeMacFull 1

/-- Steps 7 and 8 of Table 18.2. -/
def bridge (vlan src ns : Nat) (flood : Bool) (f : EthFrame) (s : State) : State :=
  match s.switch.macs.find? (fun e => e.vid = f.vid && e.mac = f.dst) with
  | some e => if !flood then (if e.port = src then s else enqueue e.port src ns f s)
    else s.each (s.floodTo vlan src) (fun d t => enqueue d src ns f t)
  | none => s.each (s.floodTo vlan src) (fun d t => enqueue d src ns f t)

/-- A frame is for the time engine (Table 18.2 step 3). -/
def State.isTime (s : State) (f : EthFrame) : Bool :=
  let ip := leBytes 4 (s.rd R.intakeIp4).toNat
  (be16 f.body 0 == 0x88F7 && f.dst == 0x0180C200000E) ||
    (s.plan.active.intake.elim false (fun k => k.timeSrc == 1) &&
      (parseUdp f.body).elim false (fun u => !u.v6 && (u.dport == 319 || u.dport == 320) &&
        (u.dst == ip || u.dst == [224, 0, 1, 129])))

/-- A matched datagram goes to the intake with what holds at its classification (R438, R460). -/
def toIntake (i : Nat) (rtcp : Bool) (src ns : Nat) (f : EthFrame) (u : Udp) (s : State) : State :=
  let d : Datagram := {
    slot := i, rtcp := rtcp, src := src, frame := f, pay := u.pay, ns := ns,
    locked := s.get F.intakeTimeStatusState == 2, gen := ((s.slot i).ctx).elim 0 (fun c => c.gen) }
  { s with intake := { s.intake with i0 := s.intake.i0 ++ [d] } }

/-- Steps 5 to 8 of Table 18.2 for a frame from an external port. -/
def forward (vlan p src ns : Nat) (f : EthFrame) (s : State) : State :=
  let hit : Option (Udp × Nat × Bool) := if s.isShut 62 then none else
    (parseUdp f.body).bind (fun u => (s.matchSlot p f.vid u).map (fun m => (u, m)))
  match hit with
  | some h =>
    let s1 := toIntake h.2.1 h.2.2 src ns f h.1 s
    if isGroup f.dst then bridge vlan src ns true f s1 else s1
  | none => if f.dst = s.rd64 R.intakeMac then enqueue I1 src ns f s else bridge vlan src ns false f s

/-- A frame with FCS received on an external sub-port (Table 18.2). -/
def receive (p sub : Nat) (frame : List Byte) (s : State) : State :=
  let ns := s.rd64 R.intakeTimeNow / 4 * 4
  let data := frame.take (frame.length - 4)
  let src := 4 * p + sub
  if s.subPorts p ≤ sub ∨ !bit (s.get (F.intakePortStatusLink p)) sub then s
  else if frame.length < 64 ∨ 9216 < frame.length ∨ frame.drop (frame.length - 4) ≠ fcsOf data then countPort p 1 s
  else
    let s1 := countPort p 0 s
    let f := parseFrame (s.get (F.intakePortCfgPvid p)) data
    if be16 f.body 0 = 0x8808 then countPort p 5 s1
    else if s1.isTime f then { s1 with switch := { s1.switch with ptp := s1.switch.ptp ++ [(src, f, ns)] } }
    else match s1.vlanOf f.vid with
      | none => countPort p 2 s1
      | some v =>
        if !bit (s1.get (F.intakeVlanMember v)) p then countPort p 2 s1
        else forward v p src ns f (learn f.vid f.src src s1)

/-- Frames that the port buffers held in Shade are classified in arrival order at the exit (R140). -/
def drainShade (s : State) : State :=
  if s.power = 1 ∨ !s.isOpen 61 then s
  else
    let s1 := { s with pwr := { s.pwr with frames := [] } }
    s1.each s.pwr.frames (fun f t => receive f.1 0 f.2 t)

/-- FRAME_RECEIVE (R430): a frame, with its FCS, on a sub-port of an external port. -/
def execFrameReceive (port sub : Fin 4) (frame : List Byte) (s : State) : Out :=
  let s1 := drainShade s
  .next (if s1.isOpen 61 then receive port sub frame s1 else s1)

/-! Transmission (R431, R433) -/

/-- The data rate of a sub-port in Mb/s, as far as its MODE fixes it: 10GBASE-R, USXGMII single 10 Gb/s, 2500BASE-X and
USXGMII quad 2.5 Gb/s, SGMII 1 Gb/s; I1 10 Gb/s. -/
def State.rateMbps (s : State) (d : Nat) : Nat :=
  if d = I1 then 10000
  else match s.get (F.intakePortCfgMode (d / 4)) with
    | 1 => 10000
    | 4 => 10000
    | 3 => 1000
    | _ => 2500

/-- Queue q of a destination is shaped. -/
def State.shaped (s : State) (d q : Nat) : Bool := d != I1 && s.get (F.intakeCbsEn (8 * (d / 4) + q)) == 1

/-- A queue's credit in bits now: it grows at idleSlope while frames wait, and an empty queue holds none above 0. -/
def State.creditOf (s : State) (d q : Nat) : Int :=
  match s.switch.credits.find? (fun c => c.1 = 8 * d + q) with
  | none => 0
  | some c => c.2.1 + ((s.get (F.intakeCbsIdleMbps (8 * (d / 4) + q)) * (s.timeUs - c.2.2) : Nat) : Int)

/-- Set a queue's credit. -/
def putCredit (d q : Nat) (v : Int) (s : State) : State :=
  { s with switch := { s.switch with
    credits := (8 * d + q, v, s.timeUs) :: s.switch.credits.filter (fun c => c.1 ≠ 8 * d + q) } }

/-- The queue that a destination serves: strict priority, queue 7 first, a shaped queue only with credit (R431). -/
def State.servedQueue (s : State) (d : Nat) : Option Nat :=
  (List.range 8).reverse.find? (fun q =>
    s.switch.queues.any (fun x => x.dest = d && x.queue = q) && (!s.shaped d q || decide (0 ≤ s.creditOf d q)))

/-- The bytes of a descriptor ring. -/
def vnicDesc (base size n : Nat) : Nat := base + 16 * (n % size)

/-- Descriptors of the virtual NIC rings. -/
def State.vnicSize (s : State) : Nat := 2 ^ s.get F.intakeVnicCfgSizeLog2

/-- Set FLAGS, LEN and TIME of a descriptor; DONE is written last (R433). -/
def putDesc (addr len flags time : Nat) (s : State) : State :=
  hostWrite 0 (addr + 0xA) (leBytes 2 flags) (hostWrite 0 (addr + 0xC) (leBytes 4 time) (hostWrite 0 (addr + 8) (leBytes 2 len) s))

/-- Posted receive buffers from the head: descriptor address, buffer, size; a LEN outside Table 18.3 has size 0. -/
def State.rxBuffers (s : State) : List (Nat × Nat × Nat) :=
  let base := s.rd64 R.intakeVnicRxBase
  let n := (s.switch.rxTail + s.vnicSize - s.switch.rxHead) % s.vnicSize
  (List.range n).map (fun k =>
    let a := vnicDesc base s.vnicSize (s.switch.rxHead + k)
    let d := (hostRead 0 a 16 s)
    let len := d.elim 0 (fun b => bytesAt b 8 2)
    (a, d.elim 0 (fun b => bytesAt b 0 8), if 64 ≤ len ∧ len ≤ 16384 ∧ len % 64 = 0 then len else 0))

/-- Write a frame into the posted buffers; `fuel` bounds the descriptors. -/
def fillBuffers (flags time : Nat) : List (Nat × Nat × Nat) → List Byte → State → State
  | [], _, s => s
  | b :: rest, bs, s =>
    let next : State → State := fun t => { t with switch := { t.switch with rxHead := (t.switch.rxHead + 1) % t.vnicSize } }
    if bs.isEmpty then s
    else if b.2.2 = 0 then fillBuffers flags time rest bs (next (putDesc b.1 0 1 0 s))
    else
      let part := bs.take b.2.2
      let more := bs.drop b.2.2
      let s1 := putDesc b.1 part.length (flags + 1 + 2 * b2n more.isEmpty) time (hostWrite 0 b.2.1 part s)
      fillBuffers flags time rest more (next s1)

/-- A frame reaches the host (R433): written to posted buffers with PF0's message after it, or dropped and counted where
they do not hold it. -/
def vnicReceive (q : Queued) (tagged : Bool) (s : State) : State :=
  let bs := frameBytes q.frame tagged
  let bufs := s.rxBuffers
  let room := bufs.foldl (fun n b => n + b.2.2) 0
  if s.get F.intakeVnicCfgEn = 0 ∨ !s.canIssue 0 ∨ room < bs.length then s.bump32 R.intakeVnicDrop 1
  else
    let flags := if q.src = I1 then 0 else 16 * (q.src / 4) + 256 * (q.src % 4)
    sendMsi 0 (s.get F.intakeVnicCfgVector) (fillBuffers flags (q.ns % 2 ^ 32) bufs bs s)

/-- A frame leaves a destination: tagged unless its VLAN entry leaves it untagged there. -/
def sendFrame (q : Queued) (s : State) : State :=
  let untag := (s.vlanOf q.frame.vid).elim false (fun v => bit (s.get (F.intakeVlanUntag v)) (memberBit q.dest))
  if q.dest = I1 then vnicReceive q (!untag) s
  else
    let bs := frameBytes q.frame (!untag)
    let s1 := { s with switch := { s.switch with
      sent := (q.dest, bs ++ fcsOf bs, s.rd64 R.intakeTimeNow / 4 * 4) :: s.switch.sent } }
    countPort (q.dest / 4) 3 s1

/-- A destination may send: its link is up, or it is I1. -/
def State.mayTransmit (s : State) (d : Nat) : Bool :=
  d == I1 || (d % 4 < s.subPorts (d / 4) && bit (s.get (F.intakePortStatusLink (d / 4))) (d % 4))

/-- FRAME_TRANSMIT (R431): the next frame of a destination (4 · port + sub-port, 16 for I1) by strict priority and
shaping; a shaped queue's credit falls at sendSlope while its frame is sent. -/
def execFrameTransmit (dest : Fin 17) (s0 : State) : Out :=
  let s := drainShade s0
  .next (if !s.isOpen 61 ∨ !s.mayTransmit dest then s
    else match s.servedQueue dest with
      | none => s
      | some q =>
        match s.switch.queues.find? (fun x => x.dest = dest.val && x.queue = q) with
        | none => s
        | some x =>
          let i := s.switch.queues.findIdx (fun y => y.dest = dest.val && y.queue = q)
          let s1 := { s with switch := { s.switch with queues := s.switch.queues.eraseIdx i } }
          let bits := 8 * (x.frame.body.length + 16)
          let rate := s.rateMbps dest
          let slope : Int := (rate : Int) - (s.get (F.intakeCbsIdleMbps (8 * (dest / 4) + q)) : Int)
          let left := s.creditOf dest q - slope * (bits : Int) / (rate : Int)
          let empty := s1.switch.queues.all (fun y => !(y.dest = dest.val && y.queue = q))
          let s2 := if s.shaped dest q then putCredit dest q (if empty then min left 0 else left) s1 else s1
          sendFrame x s2)

/-- MAC_AGE_OUT (R431): an entry without traffic for AGE_S seconds; AGE_S 0 disables ageing. -/
def execMacAgeOut (vid : BitVec 12) (mac : BitVec 48) (s : State) : Out :=
  .next (if s.isShut 61 ∨ s.get F.intakeSwCfgAgeS = 0 then s
    else { s with switch := { s.switch with
      macs := s.switch.macs.filter (fun e => !(e.vid = vid.toNat && e.mac = mac.toNat)) } })

/-- PORT_LINK_CHANGE (R428): the link of a sub-port that the port's MODE has. -/
def execPortLinkChange (port sub : Fin 4) (up : Bool) (s : State) : Out :=
  let m := (maskList 4 (s.get (F.intakePortStatusLink port))).filter (fun x => x ≠ sub.val)
  .next (if s.isShut 61 ∨ (up ∧ s.subPorts port ≤ sub) then s
    else s.put (F.intakePortStatusLink port) (listMask (if up then sub.val :: m else m)))

/-- A tail doorbell of the virtual NIC by PF0 inside the ring. -/
def vnicTail (w : Writer) (tail : Nat) (act : State → State) (s : State) : State :=
  if !isPf0 w ∨ s.get F.intakeVnicCfgEn = 0 ∨ s.vnicSize ≤ tail then s else act s

/-- Receive buffers up to the tail are posted (R433). -/
def postBuffers (w : Writer) (tail : Nat) (s : State) : State :=
  vnicTail w tail (fun t => { t with switch := { t.switch with rxTail := tail } }) s

/-- VNIC_RX_TAIL (R433). -/
def execVnicRxTail (w : Writer) (tail : BitVec 16) (s : State) : Out :=
  .next (writeAccess w R.intakeVnicRxTail tail.toNat (postBuffers w tail.toNat) s)

/-- A frame from I1 (R430): steps 4, 7 and 8; one addressed to INTAKE_MAC is dropped. -/
def fromHost (data : List Byte) (s : State) : State :=
  let f := parseFrame (Config.vnicPvid % 4096) data
  match s.vlanOf f.vid with
  | none => s
  | some v =>
    if !bit (s.get (F.intakeVlanMember v)) 5 then s
    else
      let s1 := learn f.vid f.src I1 s
      if f.dst = s.rd64 R.intakeMac then s1
      else bridge v I1 (s.rd64 R.intakeTimeNow / 4 * 4) false f s1

/-- Send the transmit ring's frames: `acc` holds the descriptors of the frame under way and its bytes; `fuel` bounds
the descriptors. DONE is set once a frame has been sent. -/
def drainTx (base tail : Nat) : Nat → Nat → List Nat × List Byte → State → State
  | 0, _, _, s => s
  | fuel + 1, n, acc, s =>
    if n = tail then s
    else
      let a := vnicDesc base s.vnicSize n
      match hostRead 0 a 16 s with
      | none => s
      | some d =>
        let bs := acc.2 ++ ((hostRead 0 (bytesAt d 0 8) (bytesAt d 8 2) s).getD [])
        let ds := acc.1 ++ [a]
        let n1 := (n + 1) % s.vnicSize
        if bit (bytesAt d 0xA 2) 1 then
          let s1 := fromHost bs s
          let s2 := s1.each ds (fun x t =>
            let fl := ((hostRead 0 (x + 0xA) 2 t).elim 0 leNat)
            hostWrite 0 (x + 0xA) (leBytes 2 (fl / 2 * 2 + 1)) t)
          drainTx base tail fuel n1 ([], []) { s2 with switch := { s2.switch with txHead := n1 } }
        else drainTx base tail fuel n1 (ds, bs) s

/-- The frames of the transmit ring up to the tail are sent (R433). -/
def sendBuffers (w : Writer) (tail : Nat) (s : State) : State :=
  vnicTail w tail (fun t =>
    drainTx (t.rd64 R.intakeVnicTxBase) tail t.vnicSize t.switch.txHead ([], [])
      { t with switch := { t.switch with txTail := tail } }) s

/-- VNIC_TX_TAIL (R433). -/
def execVnicTxTail (w : Writer) (tail : BitVec 16) (s : State) : Out :=
  .next (writeAccess w R.intakeVnicTxTail tail.toNat (sendBuffers w tail.toNat) s)

/-- A write of INTAKE_VNIC_CFG: where EN passes from 0 to 1, both rings start at slot 0 (DESIGN CHOICE, log entry 42). -/
def writeVnicCfg (f : Nat) (v : Word) (s : State) : State :=
  let s1 := plainWrite f R.intakeVnicCfg v s
  if s.get F.intakeVnicCfgEn = 0 ∧ getBits v 31 1 = 1 then
    { s1 with switch := { s1.switch with rxHead := 0, rxTail := 0, txHead := 0, txTail := 0 } }
  else s1

/-! Time (R434, R435) -/

/-- A Sync with its offset: the offset shown saturates; above 1 ms the time steps, below it slews; LOCKED after 16 Syncs
below 500 ns, left above 2 µs. -/
def takeSync (offset : Int) (s : State) : State :=
  let st := s.get F.intakeTimeStatusState
  let small := -500 < offset ∧ offset < 500
  let good := if small then s.switch.good + 1 else 0
  let far := offset < -2000 ∨ 2000 < offset
  let st1 := if st = 2 then (if far then 1 else 2) else if 16 ≤ good then 2 else 1
  let jump := offset < -1000000 ∨ 1000000 < offset
  let s1 := s.puts [(F.intakeTimeStatusState, st1), (F.intakeTimeStatusOffsetNs, ofInt 16 (clampInt 16 offset))]
  let s2 := if jump then s1.wr64 R.intakeTimeNow (ofInt 64 ((s1.rd64 R.intakeTimeNow : Int) - offset)) else s1
  { s2 with switch := { s2.switch with heard := true, good := good, slew := if jump then 0 else -offset } }

/-- PTP_MESSAGE (R434, R435): the time engine on Gardener 1 handles the oldest time frame. What IEEE 802.1AS and 1588
make of it (the master chosen, the offset measured) is the command's operand. -/
def execPtpMessage (msg : TimeMsg) (s : State) : Out :=
  let s1 := { s with switch := { s.switch with ptp := s.switch.ptp.drop 1 } }
  .next (if s.isShut 61 then s
    else if !s.isOpen 57 ∨ s.plan.active.intake.elim true (fun k => k.timeSrc == 2) then s1
    else match msg with
      | .sync offset => takeSync offset s1
      | .announce =>
        let st := s1.get F.intakeTimeStatusState
        { s1.put F.intakeTimeStatusState (if st = 0 ∨ st = 3 then 1 else st) with switch := { s1.switch with heard := true } }
      | .other => s1)

/-- SYNC_TIMEOUT (R435): three Sync intervals without a Sync while LOCKED: HOLDOVER at the last frequency correction. -/
def execSyncTimeout (s : State) : Out :=
  .next (if s.isShut 61 ∨ s.get F.intakeTimeStatusState ≠ 2 then s
    else { s.put F.intakeTimeStatusState 3 with switch := { s.switch with good := 0 } })

end Sys2Proof.Machine
end

