-- ==== Sys2Proof/Machine/Video.lean ====
section
/-! DEFINITION. Decoded frames: outputs, records, NOTIFY, placement (spec/18 R447–R453). -/
namespace Sys2Proof.Machine

/-! Outputs (R451) -/

/-- The largest picture of a size class (Table 3.9). -/
def classSize (size : Nat) : Nat × Nat :=
  match size with
  | 0 => (1920, 1080)
  | 1 => (1280, 720)
  | 2 => (2560, 1440)
  | 3 => (3840, 2160)
  | 4 => (4096, 2304)
  | _ => (640, 480)

/-- The crop of an output on a picture: whole where CROP_W is 0, else clipped to the picture. -/
def State.outCrop (s : State) (i o : Nat) (p : Picture) : Nat × Nat × Nat × Nat :=
  let cw := s.get (F.decodeOutCropWhW i o)
  if cw = 0 then (0, 0, p.width, p.height)
  else
    let x := s.get (F.decodeOutCropXyX i o)
    let y := s.get (F.decodeOutCropXyY i o)
    (x, y, min cw (p.width - x), min (s.get (F.decodeOutCropWhH i o)) (p.height - y))

/-- The scale of an output lies within R451. -/
def scaleOk (cw ch w h : Nat) : Bool := w ≤ cw && cw ≤ 8 * w && h ≤ ch && ch ≤ 8 * h

/-- The element of an output: the sample itself where nothing is scaled or converted, else by the fixed filter and
conversion, which the spec does not give (log entry 34). -/
def State.outElement (s : State) (i o : Nat) (p : Picture) (plane row col : Nat) : Nat :=
  let f := s.get (F.decodeOutCfgFormat i o)
  let w := s.get (F.decodeOutSizeW i o)
  let h := s.get (F.decodeOutSizeH i o)
  let c := s.outCrop i o p
  let depth := if f = 1 then p.tenBit else (f = 0 || f = 5) && !p.tenBit
  let exact := depth && w = c.2.2.1 && h = c.2.2.2 && (plane = 0 || p.chroma = 1)
  if exact then
    (if plane = 0 then p.y.getD ((c.2.1 + row) * p.width + c.1 + col) 0
      else
        let at_ := (c.2.1 / 2 + row) * (p.width / 2) + c.1 / 2 + col / 2
        if col % 2 = 0 then p.cb.getD at_ 0 else p.cr.getD at_ 0)
  else
    Config.outElement [f, w, h, c.1, c.2.1, c.2.2.1, c.2.2.2, p.width, p.height, b2n p.tenBit, p.chroma, p.matrix,
      b2n p.fullRange] (p.y ++ p.cb ++ p.cr) plane row col

/-- The bytes of a row of an output (Table 18.8). -/
def State.outRow (s : State) (i o : Nat) (p : Picture) (plane row : Nat) : List Byte :=
  let f := s.get (F.decodeOutCfgFormat i o)
  (List.range (s.get (F.decodeOutSizeW i o))).flatMap (fun col =>
    let v := s.outElement i o p plane row col
    if f = 1 then leBytes 2 (v % 1024 * 64) else if f = 4 then leBytes 2 v else if f = 3 then leBytes 1 (v + 128) else leBytes 1 v)

/-- The rows of an output: plane, row. -/
def State.outRows (s : State) (i o : Nat) : List (Nat × Nat) :=
  let f := s.get (F.decodeOutCfgFormat i o)
  (List.range (formatPlanes f)).flatMap (fun pl =>
    (List.range (planeRows f (s.get (F.decodeOutSizeH i o)) pl)).map (fun r => (pl, r)))

/-- The outputs of a slot that are written for a picture, with a destination. -/
def State.outputsTo (s : State) (i dest : Nat) (p : Picture) : List Nat :=
  (List.range 4).filter (fun o =>
    let c := s.outCrop i o p
    s.get (F.decodeOutCfgEn i o) == 1 && s.get (F.decodeOutCfgDest i o) == dest &&
      scaleOk c.2.2.1 c.2.2.2 (s.get (F.decodeOutSizeW i o)) (s.get (F.decodeOutSizeH i o)))

/-- Write pieces of memory of a slot until one fails. -/
def writeOutputs (q : Req) (allot : Nat) : List (Nat × List Byte) → State → Option VaErr × State
  | [], s => (none, s)
  | x :: rest, s =>
    let w := vaWrite q 0 allot x.1 x.2 false s
    match w.1 with
    | some e => (some e, w.2)
    | none => writeOutputs q allot rest w.2

/-- The rows of a DEST 0 output at their addresses in ring entry `entry`. -/
def State.outPieces (s : State) (i o entry : Nat) (p : Picture) : List (Nat × List Byte) :=
  let base := s.rd64 (R.decodeOutBase i o) + entry * (s.rd (R.decodeOutStride i o)).toNat
  (s.outRows i o).map (fun pr =>
    (base + pr.1 * (s.rd (R.decodeOutPlane i o)).toNat + pr.2 * (s.rd (R.decodeOutPitch i o)).toNat,
      s.outRow i o p pr.1 pr.2))

/-! Records (Table 18.9) -/

/-- The capture time of an RTP time (R443); 0 before the first sender report. -/
def State.captureNs (s : State) (i ts : Nat) : Nat :=
  match (s.slot i).sr with
  | none => 0
  | some (sec, frac, rtp) =>
    let d := sext 32 ((ts + 2 ^ 32 - rtp) % 2 ^ 32)
    let whole : Int := ((sec : Int) - 2208988800 + (s.get F.intakeTimeCfgUtcOffset : Int)) * 1000000000
    let parts : Int := (frac : Int) * 1000000000 * 90000 + d * 1000000000 * 2 ^ 32
    ofInt 64 ((whole * (90000 * 2 ^ 32) + parts).tdiv (90000 * 2 ^ 32))

/-- The flags of a record. -/
def recordFlags (a : AccessUnit) (placed main10 : Bool) (outs : List Nat) : Nat :=
  1 + 2 * b2n a.rap + 4 * b2n a.concealed + 8 * b2n placed + 16 * b2n a.locked + 32 * b2n main10 + 2 ^ 8 * listMask outs

/-- The bytes of a frame record. -/
def State.frameRecord (s : State) (i flags slab : Nat) (a : AccessUnit) (p : Picture) : List Byte :=
  leBytes 4 ((s.rd (R.decodeFrames i)).toNat + 2 ^ 32 - 1) ++ leBytes 4 flags ++ leBytes 2 p.width ++ leBytes 2 p.height ++
    leBytes 4 a.ts ++ leBytes 8 (s.captureNs i a.ts) ++ leBytes 8 a.ns ++ leBytes 8 (s.rd64 R.intakeTimeNow) ++
    leBytes 4 slab ++ leBytes 1 i ++ List.replicate 19 0

/-- Stage the placed output of a frame: the first slab where it is staged (R453). -/
def placeFrame (i e : Nat) (p : Picture) (s : State) : Option Nat × State :=
  match s.outputsTo i 1 p with
  | [] => (none, s)
  | o :: _ => offerFrame (s.get (F.decodeOutCfgGroup i o)) i e ((s.outRows i o).flatMap (fun pr => s.outRow i o p pr.1 pr.2)) s

/-- Write a frame to its ring entry: outputs, record, NOTIFY, then WRITTEN (R452). In OVERWRITE mode the entry's record
is first rewritten with VALID 0. -/
def writeFrame (i e : Nat) (a : AccessUnit) (p : Picture) (placed : Option Nat) (s : State) : State :=
  let q := s.streamReq (63 + e)
  let allot := s.slotAllot i
  let w := (s.rd (R.decodeWritten i)).toNat
  let entry := w % (s.slotPlan i).ring
  let rec_ := s.rd64 (R.decodeRecVa i) + 64 * entry
  let outs := s.outputsTo i 0 p
  let record := s.frameRecord i (recordFlags a placed.isSome (s.slot i).main10 outs) (placed.getD 0) a p
  let clear : Option VaErr × State := if s.get (F.intakeSlotCfgRingMode i) = 1 then
      (let r := vaRead q 0 allot (rec_ + 4) 4 .read false s
       match r.1 with
       | .error x => (some x, r.2)
       | .ok bs => vaWrite q 0 allot (rec_ + 4) (leBytes 4 (leNat bs / 2 * 2)) false r.2)
    else (none, s)
  match clear.1 with
  | some x => slotFails i (63 + e) 0xD2 .write x clear.2
  | none =>
    let o := writeOutputs q allot (outs.flatMap (fun k => s.outPieces i k entry p) ++ [(rec_, record)]) clear.2
    match o.1 with
    | some x => slotFails i (63 + e) 0xD2 .write x o.2
    | none =>
      let nv := s.rd64 (R.decodeNotifyVa i)
      let n := if nv = 0 then (none, o.2) else vaWrite q 0 allot nv (leBytes 4 (w + 1)) false o.2
      match n.1 with
      | some x => slotFails i (63 + e) 0xD3 .write x n.2
      | none => n.2.wr (R.decodeWritten i) (BitVec.ofNat 32 (w + 1))

/-- A decoded frame (R452): FRAMES rises, the placed output is staged, and the frame is written, or in RELEASE mode
dropped with a full ring. -/
def frameDone (i e : Nat) (a : AccessUnit) (p : Picture) (s : State) : State :=
  let s1 := s.wrap32 (R.decodeFrames i) 1
  let pl := placeFrame i e p s1
  let s2 := pl.2
  let held := ((s2.rd (R.decodeWritten i)).toNat + 2 ^ 32 - (s2.rd (R.decodeReleased i)).toNat) % 2 ^ 32
  let room := held < (s2.slotPlan i).ring
  if s2.slotState i = SLOT_ERROR then s2
  else if s2.get (F.intakeSlotCfgRingMode i) = 0 ∧ !room then s2.bump (F.decodeDroppedRing i) 1
  else writeFrame i e a p pl.1 s2

/-! The end of a decoding -/

/-- A parameter set activates (R447, R448): UNSUPPORTED, OVERSIZE, or the stream is in force. -/
def activateStream (i : Nat) (info : StreamInfo) (s : State) : State :=
  let c := classSize (s.slotPlan i).size
  let fits := 64 ≤ info.width && info.width ≤ 4096 && 64 ≤ info.height && info.height ≤ 2304
  let ten := info.main10 && s.get (F.intakeSlotCfgTenbit i) == 0
  let st := s.slotState i
  let enter : Nat → State → State := fun k t => if st = SLOT_STOPPING then t else
    (t.put (F.intakeSlotStateState i) k).when (k = SLOT_OVERSIZE || k = SLOT_UNSUPPORTED) (slotEvent i)
  if !info.supported ∨ !fits ∨ ten then enter SLOT_UNSUPPORTED s
  else if c.1 < info.width ∨ c.2 < info.height then enter SLOT_OVERSIZE s
  else
    let s1 := changeSlot i (fun x => { x with main10 := info.main10 }) s
    enter SLOT_DECODING (s1.puts [(F.decodePictureWidth i, info.width), (F.decodePictureHeight i, info.height)])

/-- The slot shows pictures: its stream passed both checks. -/
def State.slotDecodes (s : State) (i : Nat) : Bool :=
  let st := s.slotState i
  st == SLOT_WAIT_RAP || st == SLOT_DECODING || st == SLOT_STOPPING

/-- The decoder touches the DPB at a place of its own; a fault there ends the slot (R450; log entry 34). -/
def touchDpb (i e : Nat) (s : State) : Option VaErr × State :=
  let d := s.draw
  let n := (s.rd (R.intakeDpbKib i)).toNat * 1024
  let r := vaRead (s.streamReq (63 + e)) 0 (s.slotAllot i) (s.rd64 (R.intakeDpbVa i) + d.1 % (n + b2n (n = 0))) 1 .write true d.2
  match r.1 with
  | .error x => (some x, r.2)
  | .ok _ => (none, r.2)

/-- Coded luma samples of a picture: width and height rounded up to multiples of 16 (R449). -/
def codedSamples (w h : Nat) : Nat := 16 * ceilDiv w 16 * (16 * ceilDiv h 16)

/-- DECODE_ENG_LOAD from what was decoded within the last second. -/
def refreshLoad (e : Nat) (s : State) : State :=
  let sum := (s.intake.loads.filter (fun l => l.1 = e)).foldl (fun n l => n + l.2.2) 0
  if s.isShut (63 + e) then s else s.wr (R.decodeEngLoad e) (BitVec.ofNat 32 (sum / 1000000))

/-- Count a picture in an engine's load. -/
def countLoad (e w h : Nat) (s : State) : State :=
  let l := (e, s.timeUs, codedSamples w h) :: s.intake.loads.filter (fun x => s.timeUs < x.2.1 + 1000000)
  refreshLoad e { s with intake := { s.intake with loads := l } }

/-- A frame comes out of a decoder, or the access unit is discarded with its slot's state. -/
def deliverFrame (i e : Nat) (a : AccessUnit) (p : Picture) (s : State) : State :=
  if !s.slotDecodes i then s
  else
    let d := touchDpb i e (countLoad e p.width p.height s)
    match d.1 with
    | some x => slotFails i (63 + e) 0xD1 .write x d.2
    | none => frameDone i e a p d.2

/-- A corrupt access unit is treated as an incomplete one (R448): discarded with RESYNC, shown concealed with
CONCEAL. -/
def corruptAu (i e : Nat) (a : AccessUnit) (p : Picture) (s : State) : State :=
  if s.get (F.intakeSlotCfgLoss i) = 0 then
    (if s.slotState i = SLOT_DECODING then s.put (F.intakeSlotStateState i) SLOT_WAIT_RAP else s)
  else deliverFrame i e { a with concealed := true } p (changeSlot i (fun x => { x with conceal := true }) s)

/-- What the decoder found is applied to the slot. -/
def applyDecoded (i e : Nat) (a : AccessUnit) (r : Decoded) (s : State) : State :=
  match r with
  | .frame info p => deliverFrame i e a p (info.elim s (fun k => activateStream i k s))
  | .corrupt info p => corruptAu i e a p (info.elim s (fun k => activateStream i k s))
  | .noSlice info => info.elim s (fun k => activateStream i k s)

/-- An engine ends its access unit and takes the next (R449). -/
def decodedAu (e : Nat) (r : Decoded) (s : State) : State :=
  match s.decoding e with
  | none => s
  | some (i, a) => feedDecoder e (applyDecoded i e a r (setEngine e none s))

end Sys2Proof.Machine
end

