-- ==== Sys2Proof/Machine/Intake.lean ====
section
/-! DEFINITION. Meanings of the intake's commands: slots, packets, feeds, decoded access units and placement groups
(spec/18 R437–R460). -/
namespace Sys2Proof.Machine

/-! Starting a slot (R437) -/

/-- What a slot matches: configuration, ports, addresses. -/
def State.slotMatch (s : State) (i : Nat) : List Nat :=
  [s.get (F.intakeSlotCfgIpv6 i), s.get (F.intakeSlotCfgVid i), (s.slotPlan i).port, (s.rd (R.intakeMatchPorts i)).toNat,
    beNat (s.matchIp (R.intakeMatchSrcIp i)), beNat (s.matchIp (R.intakeMatchDstIp i))]

/-- The DPB that a slot needs, in sixteenths of a byte (R450). -/
def State.dpbNeed (s : State) (i : Nat) : Nat :=
  7 * sizeSamples (s.slotPlan i).size * (24 * (s.get (F.intakeSlotCfgTenbit i) + 1) + 1)

/-- An output's format, sizes and crop meet R451, as far as they are known before a picture is. -/
def State.outputSizes (s : State) (i o : Nat) : Bool :=
  let w := s.get (F.decodeOutSizeW i o)
  let h := s.get (F.decodeOutSizeH i o)
  let cw := s.get (F.decodeOutCropWhW i o)
  let ch := s.get (F.decodeOutCropWhH i o)
  s.get (F.decodeOutCfgFormat i o) ≤ 5 &&
    [w, h, cw, ch, s.get (F.decodeOutCropXyX i o), s.get (F.decodeOutCropXyY i o)].all (fun n => n % 2 == 0) &&
    16 ≤ w && w ≤ 4096 && 16 ≤ h && h ≤ 4096 && (cw == 0 || scaleOk cw ch w h)

/-- The pitch and strides of a DEST 0 output meet R451. -/
def State.outputRoom (s : State) (i o : Nat) : Bool :=
  let f := s.get (F.decodeOutCfgFormat i o)
  let pitch := (s.rd (R.decodeOutPitch i o)).toNat
  let last := formatPlanes f - 1
  pitch % 64 == 0 && s.get (F.decodeOutSizeW i o) * formatBytes f ≤ pitch &&
    (s.rd (R.decodeOutPlane i o)).toNat * last + pitch * planeRows f (s.get (F.decodeOutSizeH i o)) last ≤
      (s.rd (R.decodeOutStride i o)).toNat

/-- A placed output meets R453. -/
def State.outputPlaced (s : State) (i o : Nat) : Bool :=
  let f := s.get (F.decodeOutCfgFormat i o)
  let g := s.get (F.decodeOutCfgGroup i o)
  (s.slotPlan i).place && 2 ≤ f && f ≤ 5 && f == s.get (F.decodeGroupCfgFormat g) &&
    s.get (F.decodeOutSizeW i o) == s.get (F.decodeGroupSizeOutW g) &&
    s.get (F.decodeOutSizeH i o) == s.get (F.decodeGroupSizeOutH g)

/-- Every enabled output of a slot meets R451 and R453. -/
def State.outputsOk (s : State) (i : Nat) : Bool :=
  let on := (List.range 4).filter (fun o => s.get (F.decodeOutCfgEn i o) == 1)
  on.all (fun o => s.outputSizes i o &&
    (if s.get (F.decodeOutCfgDest i o) = 0 then s.outputRoom i o else s.outputPlaced i o)) &&
    (on.filter (fun o => s.get (F.decodeOutCfgDest i o) == 1)).length ≤ 1

/-- The RESULT of RUN 1: 0 or the first failed check of R437. -/
def State.slotRefusal (s : State) (i : Nat) : Nat :=
  let net := s.get (F.intakeSlotCfgSource i) == 0
  let twin := (List.range 64).any (fun j => j != i && s.slotRuns j && s.get (F.intakeSlotCfgSource j) == 0 &&
    s.slotMatch j == s.slotMatch i)
  let cpb := (s.rd (R.intakeCpbKib i)).toNat
  if !(s.slotPlan i).valid then 1
  else if net ∧ (s.get (F.intakeMatchPortsDstUdp i) = 0 ∨ beNat (s.matchIp (R.intakeMatchDstIp i)) = 0) then 2
  else if net ∧ twin then 6
  else if s.allotOwner (s.slotAllot i) ≠ some 0 ∨ s.rd64 (R.intakeCpbVa i) % 4096 ≠ 0 ∨ s.rd64 (R.intakeDpbVa i) % 4096 ≠ 0 ∨
      s.rd64 (R.decodeRecVa i) % 4096 ≠ 0 ∨ cpb < 256 ∨ 16384 < cpb ∨
      16 * 1024 * (s.rd (R.intakeDpbKib i)).toNat < s.dpbNeed i then 3
  else if !s.outputsOk i then 4
  else if (s.slotPlan i).srtp ∧ s.get (F.intakeSlotStateKeyed i) = 0 then 5
  else 0

/-- The fields of INTAKE_SLOT_s_CFG but RUN. -/
def putSlotCfg (i : Nat) (v : Word) (s : State) : State :=
  s.puts [(F.intakeSlotCfgSource i, getBits v 1 1), (F.intakeSlotCfgIpv6 i, getBits v 2 1), (F.intakeSlotCfgLoss i, getBits v 3 1),
    (F.intakeSlotCfgTenbit i, getBits v 4 1), (F.intakeSlotCfgRingMode i, getBits v 5 1), (F.intakeSlotCfgPt i, getBits v 8 7),
    (F.intakeSlotCfgVid i, getBits v 16 12)]

/-- A slot starts: WAIT_RAP, its counts from 0; its key and its feed ring stay. -/
def startSlot (i : Nat) (s : State) : State :=
  let s1 := s.puts [(F.intakeSlotCfgRun i, 1), (F.intakeSlotStateState i, SLOT_WAIT_RAP), (F.intakeSlotStateResult i, 0),
    (F.intakeSlotStateErrorStatus i, 0), (F.intakeSlotStateDetail i, 0)]
  let s2 := s1.each (List.range 8) (fun c t => t.wr (R.intakeSlotCount i c) 0)
  let s3 := s2.each [R.decodeFrames i, R.decodeWritten i, R.decodeReleased i, R.decodeDropped i, R.intakeSsrc i] (fun r t => t.wr r 0)
  changeSlot i (fun x => { StreamSlot.reset with
    keyWords := x.keyWords, ctx := x.ctx, prev := x.prev, feedTail := x.feedTail }) s3

/-- RUN 0 on a slot that is not IDLE (R456): the access units in its CPB are discarded. -/
def stopSlot (i : Nat) (s : State) : State :=
  changeSlot i (fun x => { x with held := [], asm := none, cpb := [] })
    (s.puts [(F.intakeSlotCfgRun i, 0), (F.intakeSlotStateState i, SLOT_STOPPING)])

/-- A write of INTAKE_SLOT_s_CFG (R437, R456, R461): the fields but RUN are written in IDLE alone. -/
def writeSlotCfg (i : Nat) (v : Word) (s : State) : State :=
  let s1 := noteReserved (R.intakeSlotCfg i) v s
  if s.slotState i = SLOT_IDLE then
    let s2 := putSlotCfg i v s1
    if getBits v 0 1 = 0 then s2
    else
      let e := s2.slotRefusal i
      if e = 0 then startSlot i s2 else s2.put (F.intakeSlotStateResult i) e
  else if getBits v 0 1 = 0 ∧ s.slotState i ≠ SLOT_STOPPING then stopSlot i s1
  else s1

/-- A word with RUN set or clear. -/
def withRun (v : Word) (run : Bool) : Word := BitVec.ofNat 32 (v.toNat / 2 * 2 + b2n run)

/-- SLOT_START (R437): INTAKE_SLOT_s_CFG is written with RUN 1. -/
def execSlotStart (w : Writer) (slot : Fin 64) (cfg : Word) (s : State) : Out :=
  .next (writeAccess w (R.intakeSlotCfg slot) (withRun cfg true).toNat (writeSlotCfg slot (withRun cfg true)) s)

/-- SLOT_STOP (R456): INTAKE_SLOT_s_CFG is written with RUN 0. -/
def execSlotStop (w : Writer) (slot : Fin 64) (cfg : Word) (s : State) : Out :=
  .next (writeAccess w (R.intakeSlotCfg slot) (withRun cfg false).toNat (writeSlotCfg slot (withRun cfg false)) s)

/-- SLOT_STOP_DONE (R456): the last write of a STOPPING slot is performed. -/
def execSlotStopDone (slot : Fin 64) (s : State) : Out :=
  let i := slot.val
  let busy := (List.range 2).any (fun e => (s.decoding e).elim false (fun x => x.1 == i))
  .next (if s.isOpen 62 ∧ s.slotState i = SLOT_STOPPING ∧ !busy then s.put (F.intakeSlotStateState i) SLOT_IDLE else s)

/-! Packets (R438–R443) -/

/-- Take the oldest matched datagram of a kind. -/
def takeDatagram (rtcp : Bool) (s : State) : Option Datagram × State :=
  let i := s.intake.i0.findIdx (fun d => d.rtcp == rtcp)
  (s.intake.i0.find? (fun d => d.rtcp == rtcp), { s with intake := { s.intake with i0 := s.intake.i0.eraseIdx i } })

/-- The SRTP context of a datagram: the one in force at its classification (R460). -/
def State.srtpFor (s : State) (d : Datagram) : Option SrtpCtx :=
  [(s.slot d.slot).ctx, (s.slot d.slot).prev].findSome? (fun c => c.bind (fun x => if x.gen = d.gen then some x else none))

/-- Keep a context after a packet. -/
def putSrtp (i : Nat) (c : SrtpCtx) (s : State) : State :=
  let put : Option SrtpCtx → Option SrtpCtx := fun o => o.map (fun x => if x.gen = c.gen then c else x)
  changeSlot i (fun x => { x with ctx := put x.ctx, prev := put x.prev }) s

/-- A datagram after R440: none where it is dropped. -/
def decryptRtp (d : Datagram) (s : State) : Option (List Byte) × State :=
  if !(s.slotPlan d.slot).srtp then (some d.pay, s)
  else match (s.srtpFor d).bind (fun c => srtpOpen c d.pay) with
    | some r => (some r.1, putSrtp d.slot r.2 s)
    | none => (none, countSlot d.slot C_AUTH_DROP 1 s)

/-- The RTP payload of a packet, without CSRC entries, header extension and padding. -/
def rtpPayload (p : List Byte) : List Byte :=
  let body := p.drop (rtpHeader p)
  if bit (p.getD 0 0).toNat 5 then body.take (body.length - ((body.getLast?).getD 0).toNat) else body

/-- The parts of an RTP packet. -/
def rtpPacket (d : Datagram) (p : List Byte) : RtpPkt := {
  seq := be16 p 2, ts := beNat ((p.drop 4).take 4), ssrc := beNat ((p.drop 8).take 4),
  marker := bit (p.getD 1 0).toNat 7, pay := rtpPayload p, ns := d.ns, locked := d.locked }

/-- A packet of a running slot under R439: locked, counted, or put in order. -/
def acceptRtp (i : Nat) (d : Datagram) (p : List Byte) (s : State) : State :=
  let x := s.slot i
  let k := rtpPacket d p
  let n := d.pay.length
  let shaped := 12 ≤ n && n ≤ 2048 && 12 ≤ p.length && (p.getD 0 0).toNat / 64 == 2 &&
    (p.getD 1 0).toNat % 128 == s.get (F.intakeSlotCfgPt i)
  if !shaped then countSlot i C_BAD_PKT 1 s
  else if x.ssrcLocked ∧ (s.rd (R.intakeSsrc i)).toNat ≠ k.ssrc then
    countSlot i C_BAD_PKT 1 (setSlot i { x with other := some k.ssrc } s)
  else
    let s1 := (setSlot i { x with ssrcLocked := true, other := none } s).wr (R.intakeSsrc i) (BitVec.ofNat 32 k.ssrc)
    if (codecBytes (s.slotPlan i).codec k.pay).isNone then countSlot i C_BAD_PAYLOAD 1 s1
    else reorder i k s1

/-- RTP_PACKET (R439–R441): the intake takes the oldest matched RTP datagram. -/
def execRtpPacket (s : State) : Out :=
  .next (if !s.isOpen 62 then s
    else match takeDatagram false s with
      | (none, _) => s
      | (some d, s1) =>
        if !s1.slotRuns d.slot || s1.slotState d.slot == SLOT_ERROR then s1
        else match decryptRtp d s1 with
          | (none, s2) => s2
          | (some p, s2) => workStore (acceptRtp d.slot d p s2))

/-- A sender report at the head of an RTCP packet: NTP seconds, fraction, RTP time. -/
def senderReport (p : List Byte) : Option (Nat × Nat × Nat) :=
  if p.length < 20 ∨ (p.getD 1 0).toNat ≠ 200 then none
  else some (beNat ((p.drop 8).take 4), beNat ((p.drop 12).take 4), beNat ((p.drop 16).take 4))

/-- A slot's RTCP packet is delivered to I1 as received, and its sender report taken (R443). -/
def takeRtcp (d : Datagram) (p : List Byte) (s : State) : State :=
  let s1 := enqueue I1 d.src d.ns d.frame s
  match senderReport p with
  | some r => changeSlot d.slot (fun x => { x with sr := some r }) s1
  | none => s1

/-- RTCP_PACKET (R440, R443): the intake takes the oldest matched RTCP datagram. -/
def execRtcpPacket (s : State) : Out :=
  .next (if !s.isOpen 62 then s
    else match takeDatagram true s with
      | (none, _) => s
      | (some d, s1) =>
        if !s1.slotRuns d.slot || s1.slotState d.slot == SLOT_ERROR then s1
        else if !(s1.slotPlan d.slot).srtp then takeRtcp d d.pay s1
        else match (s1.srtpFor d).bind (fun c => srtcpOpen c d.pay) with
          | some r => takeRtcp d r.1 (putSrtp d.slot r.2 s1)
          | none => countSlot d.slot C_AUTH_DROP 1 s1)

/-- REORDER_TIMEOUT (R441): the next expected number has not come within REORDER_US: lost, and what follows it is
released up to the next gap. -/
def execReorderTimeout (slot : Fin 64) (s : State) : Out :=
  let i := slot.val
  .next (if !s.isOpen 62 || !s.slotRuns i || (s.slot i).held.isEmpty then s
    else
      let s1 := loseNumbers i 1 s
      workStore (releaseRun i (s1.slot i).held.length s1))

/-- SSRC_SWITCH (R439): for 2 s only packets of one other SSRC have come: it is locked, and tracking starts afresh. -/
def execSsrcSwitch (slot : Fin 64) (s : State) : Out :=
  let i := slot.val
  .next (if !s.isOpen 62 || !s.slotRuns i || s.slotState i == SLOT_ERROR then s
    else match (s.slot i).other with
      | none => s
      | some n =>
        let s1 := changeSlot i (fun x => { x with other := none, next := none, held := [], asm := none, lossNext := false }) s
        slotEvent i ((s1.put (F.intakeSlotStateState i) SLOT_WAIT_RAP).wr (R.intakeSsrc i) (BitVec.ofNat 32 n)))

/-- A write of KEY_7 commits the key (R440): the ROC is loaded, the replay window restarts. -/
def commitKey (i : Nat) (key7 : Word) (s : State) : State :=
  let x := s.slot i
  let ws := setAt 7 key7 x.keyWords
  let bs := ws.flatMap (fun w => leBytes 4 w.toNat)
  let c : SrtpCtx := {
    gen := x.ctx.elim 1 (fun o => o.gen + 1), key := bs.take 16, salt := (bs.drop 16).take 14,
    roc := (s.rd (R.intakeRoc i)).toNat, top := none, window := 0, ctop := none, cwindow := 0 }
  (setSlot i { x with keyWords := ws, ctx := some c, prev := x.ctx } s).put (F.intakeSlotStateKeyed i) 1

/-- SRTP_KEY_COMMIT (R440). -/
def execSrtpKeyCommit (w : Writer) (slot : Fin 64) (key7 : Word) (s : State) : Out :=
  .next (writeAccess w (R.intakeKey slot 7) key7.toNat (commitKey slot key7) s)

/-! Feeds (R444) -/

/-- A FEED_TAIL write is valid as R211 says; an invalid one is discarded. -/
def writeFeedTail (i tail : Nat) (s : State) : State :=
  let size := 2 ^ s.get (F.intakeFeedSizeSizeLog2 i)
  let head := s.get (F.intakeFeedHeadHead i)
  let from_ := fun (t : Nat) => (t + 16 * size - head % size) % size
  if tail < size ∧ from_ (s.slot i).feedTail ≤ from_ tail then changeSlot i (fun x => { x with feedTail := tail }) s else s

/-- FEED_DOORBELL (R444, R211). -/
def execFeedDoorbell (w : Writer) (slot : Fin 64) (tail : BitVec 16) (s : State) : Out :=
  .next (writeAccess w (R.intakeFeedTail slot) tail.toNat (writeFeedTail slot tail.toNat) s)

/-- A failed access of a feed: a fault stalls it; where it cannot stall, and on an error completion, the entry is
skipped. -/
def feedFails (i : Nat) (e : VaErr) (s : State) : State :=
  match e with
  | .err _ => skipFeed i s
  | .fault reason level va =>
    let r := reportFault 0 (slotFault i 62 (s.slotAllot i) (s.streamReq 62).cls reason level va .read false) s
    match r.1 with
    | .stalled => r.2
    | .ended _ => skipFeed i r.2

/-- A feed entry whose data has been read: parameter sets wait for the next access unit; an access unit enters the
CPB with the device time of the copy. -/
def takeFeed (i : Nat) (param : Bool) (ts : Nat) (bs : List Byte) (s : State) : State :=
  let s1 := advanceFeed i s
  if param then changeSlot i (fun x => { x with params := x.params ++ bs }) s1
  else endAu i ts (s.rd64 R.intakeTimeNow) (s.get F.intakeTimeStatusState == 2) false bs s1

/-- The entry at FEED_HEAD is copied; what is longer than the limit of R442 is not read. -/
def copyFeed (i : Nat) (s : State) : State :=
  let q := s.streamReq 62
  let a := s.slotAllot i
  let e := vaRead q 0 a (s.rd64 (R.intakeFeedBase i) + 16 * s.get (F.intakeFeedHeadHead i)) 16 .read false s
  match e.1 with
  | .error x => feedFails i x e.2
  | .ok d =>
    let param := bit (bytesAt d 6 1) 0
    let len := bytesAt d 8 4
    if !param ∧ s.get (F.intakeSlotCfgSource i) = 0 then countSlot i C_BAD_PKT 1 (advanceFeed i e.2)
    else if s.cpbRoom i < 2 * len then takeFeed i param (bytesAt d 12 4) (List.replicate len 0) e.2
    else
      let r := vaRead q 0 a (bytesAt d 0 6) len .read false e.2
      match r.1 with
      | .error x => feedFails i x r.2
      | .ok bs => takeFeed i param (bytesAt d 12 4) bs r.2

/-- FEED_COPY_DONE (R444): the copy of the entry at FEED_HEAD is performed. -/
def execFeedCopyDone (slot : Fin 64) (s : State) : Out :=
  let i := slot.val
  .next (if !s.isOpen 62 || !s.slotRuns i || s.isStalled (.slot i) ||
      s.get (F.intakeFeedHeadHead i) == (s.slot i).feedTail then s
    else copyFeed i s)

/-! Frames and groups (R449–R453) -/

/-- AU_DECODED (R447–R453): an engine ends the access unit in decode, with what the coding standard makes of it. -/
def execAuDecoded (engine : Fin 2) (result : Decoded) (s : State) : Out :=
  .next (if s.isOpen (63 + engine) then decodedAu engine result (refreshLoad engine s) else s)

/-- RELEASE_ADD (R452): RELEASED never exceeds WRITTEN. -/
def releaseFrames (i add : Nat) (s : State) : State :=
  let w := (s.rd (R.decodeWritten i)).toNat
  let r := (s.rd (R.decodeReleased i)).toNat
  s.wr (R.decodeReleased i) (BitVec.ofNat 32 (r + min add ((w + 2 ^ 32 - r) % 2 ^ 32)))

/-- FRAME_RELEASE_ADD (R452). -/
def execFrameReleaseAdd (w : Writer) (slot : Fin 64) (add : BitVec 16) (s : State) : Out :=
  .next (writeAccess w (R.decodeReleaseAdd slot) add.toNat (releaseFrames slot add.toNat) s)

/-- A group may be enabled: its channel has OWNER 2, and its configuration lies within R453. -/
def State.groupOk (s : State) (g : Nat) : Bool :=
  let b := s.get (F.decodeGroupCfgBands g)
  let f := s.get (F.decodeGroupCfgFormat g)
  let m := s.get (F.decodeGroupCreditMode g)
  s.get (F.hoseCfgOwner (groupEngine g) (groupChannel g)) == 2 && 2 ≤ f && f ≤ 5 && b != 0 &&
    s.get (F.decodeGroupSizeOutH g) % b == 0 && s.get (F.decodeGroupRingSlabsCount g) != 0 && (m == 1 || m == 2)

/-- A group starts: slabs are numbered from 0. -/
def startGroup (g : Nat) (s : State) : State :=
  let s1 := (s.puts [(F.decodeGroupCfgEn g, 1), (F.decodeGroupCfgState g, 1)]).wr (R.decodeGroupSlabs g) 0
  let s2 := (s1.wr (R.hoseCursor (groupEngine g) (groupChannel g)) 0).wr (R.hoseRelease (groupEngine g) (groupChannel g)) 0
  refreshChannel (groupEngine g) (groupChannel g) (setGroup g ⟨[], 0⟩ s2)

/-- A group stops. -/
def stopGroup (g : Nat) (s : State) : State :=
  refreshChannel (groupEngine g) (groupChannel g)
    (setGroup g ⟨[], 0⟩ (s.puts [(F.decodeGroupCfgEn g, 0), (F.decodeGroupCfgState g, 0)]))

/-- A write of DECODE_GROUP_g_CFG (R453, R461): with EN 1 only EN is written. -/
def writeGroupCfg (g : Nat) (v : Word) (s : State) : State :=
  let s1 := noteReserved (R.decodeGroupCfg g) v s
  let en := getBits v 0 1
  if s.get (F.decodeGroupCfgEn g) = 1 then (if en = 0 then stopGroup g s1 else s1)
  else
    let s2 := s1.puts [(F.decodeGroupCfgAllot g, getBits v 8 6), (F.decodeGroupCfgBands g, getBits v 16 8),
      (F.decodeGroupCfgFormat g, getBits v 24 3)]
    if en = 1 ∧ s2.groupOk g then startGroup g s2 else s2

/-- GROUP_ENABLE (R453): DECODE_GROUP_g_CFG is written. -/
def execGroupEnable (w : Writer) (group : Fin 8) (cfg : Word) (s : State) : Out :=
  .next (writeAccess w (R.decodeGroupCfg group) cfg.toNat (writeGroupCfg group cfg) s)

end Sys2Proof.Machine
end

