-- ==== Sys2Proof/Machine/Memory.lean ====
section
/-! DEFINITION. Meanings of the commands of the memory channels and the shed (spec/10). -/
namespace Sys2Proof.Machine

/-- An island runs a class-0 work order on its bed (R262). -/
def State.bedClass0 (s : State) (n : Nat) : Bool :=
  isBed n && ((s.bedAt (n - 4)).waves.any (fun w => (s.entry w.uid).elim false (fun e => e.cls == 0)) ||
    (s.bedAt (n - 4)).built.elim false (fun t => t.cls == 0))

/-- The class of a request of an island; a hose's goes by its channel (R262). -/
def State.memClass (s : State) (island channel : Nat) : Nat :=
  if island = 67 ∨ island = 68 then s.hoseClass (island - 67) channel
  else if s.bedClass0 island then 0
  else s.plan.active.qos.islands.getD island 1

/-- The clearing of DRAM has not passed the region of a PA (R121). -/
def State.uncleared (s : State) (pa : Nat) : Bool :=
  match s.boot.clearing with
  | some r => r ≤ pa / 2 ^ 21
  | none => false

/-- SHED_ACCESS (R265): a request of `len` bytes, or a write of `data`, at a PA inside one line. Bed memory answers at
once (R266). A hit, a refusal and the write of a whole line end at once; a miss waits for its line, and so does an
access to a line that others wait for and one to a region not yet cleared. -/
def execShedAccess (src : Fin 72) (channel : BitVec 4) (pa : BitVec 40) (keySel : BitVec 4) (noAlloc : Bool)
    (len : Nat) (data : Option (List Byte)) (s : State) : Out :=
  let a := pa.toNat
  let q0 : Req := ⟨src, s.memClass src channel.toNat, keySel.toNat, noAlloc⟩
  .next (match s.region a with
    | .bed _ =>
      match data with
      | some bs =>
        let r := physWrite q0 a bs s
        answerMem src (match r.1 with | some e => .error e | none => .ok []) r.2
      | none =>
        let r := physRead q0 a len s
        answerMem src r.1 r.2
    | _ =>
      let q := s.reqAt q0 a
      let o := a % 128
      let base := a / 128 * 128
      let bs := data.map (fun b => b.take (128 - o))
      let n := min len (128 - o)
      let whole := bs.elim false (fun b => b.length == 128)
      let fill : Fill := ⟨base, src, q.cls, q.key, noAlloc, o, n, bs⟩
      let queue : State → State := fun t => { t with mem := { t.mem with fills := t.mem.fills ++ [fill] } }
      if !regionAdmits (s.region a) src data.isSome then
        let r := denied a s
        answerMem src (.error r.1) r.2
      else if s.mem.fills.any (fun f => f.pa = base) then queue (s.bump32 (R.shedMisses (s.sliceOf base)) 1)
      else
        let r := lookupLine q base s
        match r.1 with
        | .error e => answerMem src (.error e) r.2
        | .ok (some l) =>
          match bs with
          | some b => answerMem src (.ok []) (writeInto q l o b r.2)
          | none =>
            let d := readFrom l o n r.2
            answerMem src d.1 d.2
        | .ok none =>
          let t := if noAlloc then r.2 else prefetchNext q base r.2
          if whole && !noAlloc && !t.uncleared base then
            let g := giveLine q base (List.replicate 128 0, false, false) t
            answerMem src (.ok []) (writeInto q g.1 o (bs.getD []) g.2)
          else queue t)

/-- An uncorrectable 64-byte unit is poisoned, counted and recorded (R255). -/
def poisonUnit (pa : Nat) (s : State) : State :=
  let u := pa / 64 * 64
  let s1 := { s with mem := { s.mem with poison := u :: s.mem.poison.filter (fun p => p ≠ u) } }
  (s1.bump (F.memcEccUncorrectable (s.channel pa)) 1).wr64 (R.memcEccAddr (s.channel pa)) u

/-- What inline ECC finds in the unit at a PA; without it no error is detected (R254, R255). -/
def eccFinds (pa : Nat) (corrected uncorrectable : Bool) (s : State) : State :=
  if s.get (F.memcCfgEcc (s.channel pa)) = 0 then s
  else if uncorrectable then poisonUnit pa s
  else if corrected then s.bump (F.memcEccCorrected (s.channel pa)) 1
  else s

/-- SHED_FILL_DONE (R265): DRAM data of the line of `pa` returns for the accesses that wait for it, with what ECC found
in the unit at `pa`; nothing returns for a region not yet cleared (R121). -/
def execShedFillDone (pa : BitVec 40) (corrected uncorrectable : Bool) (s : State) : Out :=
  let a := pa.toNat
  let base := a / 128 * 128
  .next (if s.mem.fills.any (fun f => f.pa = base) ∧ !s.uncleared base then
      performFills base (if (s.line base).isSome then s else eccFinds a corrected uncorrectable s)
    else s)

/-- ECC_SCRUB (R254): the daily scrub reads all of usable DRAM in class 2 and finds errors in the units at some PAs. -/
def execEccScrub (corrected uncorrectable : List Nat) (s : State) : Out :=
  let on : Nat → Bool := fun ch => s.isOpen (69 + ch) && s.get (F.memcCfgEcc ch) == 1
  let hits : List Nat → List Nat := fun l => l.filter (fun pa => pa < s.usable && on (s.channel pa))
  let s1 := s.each ([0, 1].filter on) (fun ch t => countUnits ch 2 (s.usable / 128) t)
  let s2 := s1.each (hits corrected) (fun pa t => eccFinds pa true false t)
  .next (s2.each (hits uncorrectable) (fun pa t => eccFinds pa false true t))

/-- QOS_WINDOW (R261): the window of a channel ends, and class 0 has its budget again. -/
def execQosWindow (channel : Fin 2) (s : State) : Out :=
  .next { s with mem := { s.mem with class0 := setAt channel.val 0 s.mem.class0 } }

/-- REFRESH_RATE_CHANGE (R261): MEMC_CFG.REFRESH_X2 of a channel that runs. -/
def execRefreshRateChange (channel : Fin 2) (doubled : Bool) (s : State) : Out :=
  .next (if s.isOpen (69 + channel) then s.put (F.memcCfgRefreshX2 channel) (b2n doubled) else s)

/-! SHED_CMD (R274) -/

/-- The value of a SHED_CMD write. -/
def shedCmdValue (key op slice entry : Nat) : Nat := op + 16 * slice + 256 * entry + 2 ^ 16 * key

/-- The first condition of R274 that a write fails, as RESULT codes it. -/
def shedResult (w : Writer) (key : Nat) (s : State) : Nat :=
  if key ≠ 0x5E1C ∨ !isPf0 w ∨ !s.hasToken w ∨ s.get F.shedCmdStatusBusy = 1 then 1
  else if !s.inBloom ∨ s.get F.planStatusPhase ≠ 0 then 2
  else 0

/-- A SHED_CMD that is carried out sets DONE, and a 0-to-1 change raises the device-event interrupt. No cause bit of
Table 8.9 stands for it: vector 0 is sent without one (DESIGN CHOICE, log entry 28). -/
def shedDone (s : State) : State :=
  let s1 := s.put F.shedCmdStatusResult 0
  if s1.get F.shedCmdStatusDone = 1 then s1 else sendMsi 0 0 (s1.put F.shedCmdStatusDone 1)

/-- The lines of a lock entry. -/
def State.lockLines (s : State) (sl k : Nat) : List ShedLine :=
  s.mem.lines.filter (fun l => s.lockOf l.pa == some (sl, k))

/-- An operation on a lock entry: RESULT 3 where the entry is unused. -/
def onEntry (sl k : Nat) (act : State → State) (s : State) : State :=
  if 12 ≤ k ∨ s.get (F.shedLockWays sl k) = 0 then s.put F.shedCmdStatusResult 3 else shedDone (act s)

/-- A SHED_CMD write: refused with its RESULT, or carried out. -/
def shedCommand (w : Writer) (key op sl k : Nat) (s : State) : State :=
  let r := shedResult w key s
  if r ≠ 0 then s.put F.shedCmdStatusResult r
  else if op = 1 then onEntry sl k (preloadLock sl k) s
  else if op = 2 then onEntry sl k (fun t => t.each (t.lockLines sl k) writeBack) s
  else if op = 3 then shedDone (s.each (s.mem.lines.filter (fun l => (s.lockOf l.pa).isNone)) writeBack)
  else s

/-- SHED_FILL (R274): every invalid line of a lock entry is fetched, except those whose channel is not OPEN. -/
def execShedFill (w : Writer) (key : BitVec 16) (slice : Fin 4) (entry : BitVec 4) (s : State) : Out :=
  .next (writeAccess w R.shedCmd (shedCmdValue key.toNat 1 slice entry.toNat)
    (shedCommand w key.toNat 1 slice entry.toNat) s)

/-- SHED_WRITEBACK (R274): the dirty lines of a lock entry are written back and stay valid and locked. -/
def execShedWriteback (w : Writer) (key : BitVec 16) (slice : Fin 4) (entry : BitVec 4) (s : State) : Out :=
  .next (writeAccess w R.shedCmd (shedCmdValue key.toNat 2 slice entry.toNat)
    (shedCommand w key.toNat 2 slice entry.toNat) s)

/-- SHED_FLUSH (R274): every dirty unlocked line is written back and stays valid. -/
def execShedFlush (w : Writer) (key : BitVec 16) (s : State) : Out :=
  .next (writeAccess w R.shedCmd (shedCmdValue key.toNat 3 0 0) (shedCommand w key.toNat 3 0 0) s)

end Sys2Proof.Machine
end

