-- ==== Sys2Proof/Machine/Port.lean ====
section
/-! DEFINITION. The management port: SMBus packets, MCTP reassembly, the turn of a request, and the responses (spec/09).
The packet and message layouts that DSP0236, DSP0237, DSP0240 and DSP0248 define are taken from those specifications
(PRESUMED, log entry 29). -/
namespace Sys2Proof.Machine

/-- SMBus PEC: CRC-8 with polynomial x^8 + x^2 + x + 1, most significant bit first. -/
def crc8Bits : Nat → Nat → Nat
  | 0, c => c
  | n + 1, c => crc8Bits n (if 128 ≤ c then Nat.xor (2 * c % 256) 7 else 2 * c)

/-- The PEC of a packet's bytes. -/
def crc8 (bs : List Byte) : Nat := bs.foldl (fun c b => crc8Bits 8 (Nat.xor c b.toNat)) 0

/-- A byte of a number. -/
def byteOf (n : Nat) : Byte := BitVec.ofNat 8 n

/-- Replace the waiting requests; MGMT_STATUS.QUEUED counts them. -/
def setRequests (l : List (Requester × List Byte)) (s : State) : State :=
  { s with mgmt := { s.mgmt with requests := l } }.put F.mgmtStatusQueued l.length

/-- One dropped packet or message (R233). -/
def countDropped (s : State) : State := s.bump F.mgmtCount0Dropped 1

/-! Responses -/

/-- The SMBus packets of a response from `own` with EID `eid`: at most 64 bytes of the message each, SOM on the first,
EOM on the last, a rising sequence number, TO 0, the requester's tag, and a PEC (R229, R233). `fuel` bounds them. -/
def respPackets (who : Requester) (own eid : Nat) : Nat → Nat → Bool → List Byte → List (List Byte)
  | 0, _, _, _ => []
  | fuel + 1, seq, first, m =>
    let last := m.length ≤ 64
    let fl := (if first then 128 else 0) + (if last then 64 else 0) + 16 * (seq % 4) + who.tag.toNat
    let pay := m.take 64
    let p := [byteOf (2 * who.addr.toNat), 0x0F, byteOf (pay.length + 5), byteOf (2 * own + 1), 0x01,
      who.eid.zeroExtend 8, byteOf eid, byteOf fl] ++ pay
    (p ++ [byteOf (crc8 p)]) :: (if last then [] else respPackets who own eid fuel (seq + 1) false (m.drop 64))

/-- A response is sent and counted in MESSAGES. -/
def sendResponse (who : Requester) (msg : List Byte) (s : State) : State :=
  let ps := respPackets who (s.get F.mgmtCfgAddr) (s.get F.mgmtCfgEid) 32 0 true msg
  let s1 := { s with mgmt := { s.mgmt with sent := ⟨who, msg, ps, 0⟩ :: s.mgmt.sent } }
  s1.bump F.mgmtCount1Messages 1

/-- The response to an MCTP control request. -/
def answerCtl (who : Requester) (inst : Byte) (cmd cc : Nat) (data : List Byte) (s : State) : State :=
  sendResponse who ([0x00, byteOf (inst.toNat % 32), byteOf cmd, byteOf cc] ++ data) s

/-- The response to a PLDM request. -/
def answerPldm (who : Requester) (inst : Byte) (type cmd cc : Nat) (data : List Byte) (s : State) : State :=
  sendResponse who ([0x01, byteOf (inst.toNat % 32), byteOf type, byteOf cmd, byteOf cc] ++ data) s

/-- What a vendor command answers: CC, STATUS, DETAIL and body (Table 9.5). -/
structure VendorReply where
  cc : Nat
  status : Nat := 0
  detail : Nat := 0
  body : List Byte := []
  deriving DecidableEq, Repr

/-- The response to a vendor request (Table 9.5). -/
def answerVendor (who : Requester) (cmd : Nat) (r : VendorReply) (s : State) : State :=
  sendResponse who ([0x7E, 0x1F, 0x7A, byteOf cmd, 0x80, byteOf r.cc, byteOf r.status, byteOf r.detail] ++ r.body) s

/-! Requests that no command of Tables 9.2, 9.3 and 9.6 serves -/

/-- A complete message that the port answers; any other is discarded: a type that the port does not have, a response,
another vendor's message (log entry 29). -/
def answerable (m : List Byte) : Bool :=
  let b := fun i => (m.getD i 0).toNat
  if b 0 = 0x00 then 3 ≤ m.length && 128 ≤ b 1
  else if b 0 = 0x01 then 4 ≤ m.length && 128 ≤ b 1
  else b 0 == 0x7E && 5 ≤ m.length && b 1 == 0x1F && b 2 == 0x7A && b 4 < 128

/-- The commands of Table 9.3. -/
def pldmHas (type cmd : Nat) : Bool :=
  (type == 0 && 1 ≤ cmd && cmd ≤ 5) || (type == 2 && [0x11, 0x21, 0x50, 0x51].contains cmd)

/-- A command of the opcode table serves the message. -/
def hasRow (m : List Byte) : Bool :=
  let b := fun i => (m.getD i 0).toNat
  if b 0 = 0x00 then 1 ≤ b 2 && b 2 ≤ 6
  else if b 0 = 0x01 then pldmHas (b 2 % 64) (b 3)
  else (1 ≤ b 3 && b 3 ≤ 5) || (b 3 == 6 && b 8 ≤ 1 && 9 ≤ m.length) || b 3 == 7

/-- The answer to an unsupported command (R234, R236, Table 9.7). -/
def answerUnsupported (r : Requester × List Byte) (s : State) : State :=
  let b := fun i => (r.2.getD i 0).toNat
  if b 0 = 0x00 then answerCtl r.1 (r.2.getD 1 0) (b 2) 0x05 [] s
  else if b 0 = 0x01 then answerPldm r.1 (r.2.getD 1 0) (b 2 % 64) (b 3) 0x05 [] s
  else answerVendor r.1 (b 3) { cc := if b 3 = 6 then 0x04 else 0x01 } s

/-- Answer the requests at the head of the queue that no command serves; `fuel` bounds them. -/
def drainUnsupported : Nat → State → State
  | 0, s => s
  | fuel + 1, s =>
    match s.mgmt.requests with
    | r :: rest =>
      if hasRow r.2 then s else drainUnsupported fuel (answerUnsupported r (setRequests rest s))
    | [] => s

/-- A request is served when its turn has come: it is the oldest that waits, or none waits and it comes with its
command (R239). The port acts from the end of FUSE_LOAD of a cold start on (R228). -/
def takeTurn (who : Requester) (msg : List Byte) (act : State → State) (s : State) : State :=
  if !s.isOpen 2 then s
  else match s.mgmt.requests with
    | [] => act s
    | r :: rest =>
      if r = (who, msg) then drainUnsupported rest.length (act (setRequests rest s)) else s

/-- Serve a vendor request. A reserved field or a request field that is not 0 is BAD_ARG. A message for the
Groundskeeper waits during SEQUENCE, and is answered NOT_NOW where island 0 does not serve, with CAUSE in DETAIL
(R238, R248). -/
def serveVendor (who : Requester) (cmd : Nat) (flags : Word) (body : List Byte) (gk : State → Bool)
    (act : State → VendorReply × State) (s : State) : State :=
  let msg := [0x7E, 0x1F, 0x7A, byteOf cmd] ++ leBytes 4 flags.toNat ++ body
  if gk s ∧ s.get F.pwrStatusPhase = 3 ∧ s.isOpen 2 then
    if s.mgmt.requests = [] then setRequests [(who, msg)] s else s
  else takeTurn who msg (fun t =>
    if bit flags.toNat 7 then t
    else if flags ≠ 0 then answerVendor who cmd { cc := 0x04 } t
    else if gk t ∧ !t.gkServing then
      answerVendor who cmd { cc := 0x02, status := 0x11, detail := t.get (F.islandStateLastCause 0) } t
    else
      let r := act t
      answerVendor who cmd r.1 r.2) s

/-! Packets -/

/-- A message type's IC bit is 1 (R233). -/
def badIc (m : List Byte) : Bool := 128 ≤ (m.getD 0 0).toNat

/-- A complete message joins the queue of at most four requests; one with IC 1 is dropped and counted (R233). -/
def completeMessage (who : Requester) (m : List Byte) (s : State) : State :=
  if badIc m ∨ 4 ≤ s.mgmt.requests.length then countDropped s
  else if !answerable m then s
  else
    let l := s.mgmt.requests ++ [(who, m)]
    drainUnsupported l.length (setRequests l s)

/-- The destination EID is 0, the broadcast EID for control messages, or the device's own (R233). -/
def State.eidFits (s : State) (dst : Nat) (type : Nat) : Bool :=
  dst == 0 || dst == s.get F.mgmtCfgEid || (dst == 0xFF && type % 128 == 0)

/-- A reassembly goes on, or is forgotten. -/
def setPartial (who : Requester) (a : Option Assembly) (s : State) : State :=
  let rest := s.mgmt.partials.filter (fun x => x.who ≠ who)
  { s with mgmt := { s.mgmt with partials := a.elim rest (fun x => rest ++ [x]) } }

/-- An MCTP packet with its header fields and payload (R233): a first packet starts a message, a later one must carry
the next sequence number; a message has at most 1,024 bytes and at most two are in reassembly. -/
def mctpPacket (who : Requester) (dst flags : Nat) (pay : List Byte) (s : State) : State :=
  let som := bit flags 7
  let eom := bit flags 6
  let seq := flags / 16 % 4
  if som then
    if !s.eidFits dst (pay.getD 0 0).toNat then countDropped s
    else
      let old := s.mgmt.partials.any (fun x => x.who = who)
      let s1 := setPartial who none (s.when old countDropped)
      if 1024 < pay.length then countDropped s1
      else if eom then completeMessage who pay s1
      else if 2 ≤ s1.mgmt.partials.length then countDropped s1
      else setPartial who (some ⟨who, dst, (seq + 1) % 4, pay⟩) s1
  else
    match s.mgmt.partials.find? (fun x => x.who = who) with
    | none => countDropped s
    | some a =>
      let m := a.bytes ++ pay
      if seq ≠ a.seq ∨ dst ≠ a.dst ∨ 1024 < m.length then countDropped s
      else if eom then completeMessage who m (setPartial who none s)
      else setPartial who (some { a with seq := (seq + 1) % 4, bytes := m }) s

/-- SMBUS_PACKET (R229, R233): the bytes of a block write from the address byte to the PEC. A packet to another address
is not for the device; a missing or wrong PEC is counted; a packet that is no MCTP packet over SMBus, or carries no
request of a message's originator (TO 1), is ignored. -/
def execSmbusPacket (bytes : List Byte) (s : State) : Out :=
  let b := fun i => (bytes.getD i 0).toNat
  let body := bytes.take (bytes.length - 1)
  .next (if !s.isOpen 2 ∨ b 0 ≠ 2 * s.get F.mgmtCfgAddr then s
    else if bytes.length ≠ b 2 + 4 ∨ b (bytes.length - 1) ≠ crc8 body then s.bump F.mgmtCount0PecErr 1
    else if b 1 ≠ 0x0F ∨ b 2 < 5 ∨ b 4 % 16 ≠ 1 ∨ !bit (b 7) 3 then s
    else mctpPacket ⟨BitVec.ofNat 7 (b 3 / 2), BitVec.ofNat 8 (b 6), BitVec.ofNat 3 (b 7)⟩ (b 5) (b 7) (body.drop 8) s)

/-- MCTP_REASSEMBLY_TIMEOUT (R233): the next packet of a message did not come within 100 ms. -/
def execMctpReassemblyTimeout (who : Requester) (s : State) : Out :=
  .next (if s.mgmt.partials.any (fun x => x.who = who) then countDropped (setPartial who none s) else s)

/-- ARBITRATION_RETRY (R231): a packet of the last response lost arbitration; it is sent again after 50 µs of idle
bus, but a third loss abandons the response. -/
def execArbitrationRetry (s : State) : Out :=
  .next (match s.mgmt.sent with
    | [] => s
    | r :: rest =>
      if r.lost < 2 then { s with mgmt := { s.mgmt with sent := { r with lost := r.lost + 1 } :: rest } }
      else { s with mgmt := { s.mgmt with sent := rest } }.bump F.mgmtCount1ArbLost 1)

/-- ALERT_N is driven: in a halt, by WARN, THROTTLE and the acoustic latch under ALERT_MASK, and by 1 ms pulses (R115,
R151, R176, R512). -/
def State.alertDriven (s : State) : Bool :=
  let m := s.plan.active.limits.alertMask
  s.boot.halted || (bit m 0 && s.get F.fenceStateWarn == 1) || (bit m 1 && s.get F.fenceStateSoftThrottle == 1) ||
    (bit m 4 && s.get F.acouStatusFired == 1) || !s.board.alerts.isEmpty

/-- ALERT_RESPONSE (R232): while it drives ALERT_N the device answers with its own address; ALERT_N stays. -/
def execAlertResponse (s : State) : Out :=
  .next { s with mgmt := { s.mgmt with
    alertAnswer := if s.isOpen 2 && s.alertDriven then some (s.get F.mgmtCfgAddr) else none } }

end Sys2Proof.Machine
end

