-- ==== Sys2Proof/Machine/Mgmt.lean ====
section
/-! DEFINITION. Meanings of the requests to the management port: MCTP control, PLDM and vendor commands (spec/09). -/
namespace Sys2Proof.Machine

/-! MCTP control (Table 9.2; layouts of DSP0236, log entry 29) -/

/-- Serve an MCTP control request: a completion code and data. -/
def serveCtl (who : Requester) (inst : Byte) (cmd : Nat) (body : List Byte)
    (act : State → (Nat × List Byte) × State) (s : State) : Out :=
  .next (takeTurn who ([0x00, inst, byteOf cmd] ++ body) (fun t =>
    let r := act t
    answerCtl who inst cmd r.1.1 r.1.2 r.2) s)

/-- A request of a wrong length is answered with ERROR_INVALID_LENGTH. -/
def sized (n : Nat) (body : List Byte) (act : State → (Nat × List Byte) × State) (s : State) :
    (Nat × List Byte) × State :=
  if body.length ≠ n then ((0x03, []), s) else act s

/-- SET_ENDPOINT_ID (R234): the set operations store an EID of 1–254 in island 2; reset and discover, and the EIDs 0
and 0xFF, are answered with ERROR_INVALID_DATA. -/
def execSetEndpointId (who : Requester) (inst : Byte) (body : List Byte) (s : State) : Out :=
  let op := (body.getD 0 0).toNat % 4
  let eid := (body.getD 1 0).toNat
  serveCtl who inst 0x01 body (sized 2 body (fun t =>
    if 2 ≤ op ∨ eid = 0 ∨ eid = 0xFF then ((0x02, []), t)
    else ((0x00, [0x00, byteOf eid, 0x00]), t.put F.mgmtCfgEid eid))) s

/-- GET_ENDPOINT_ID (R234): the EID, a simple endpoint with a dynamic EID; the medium-specific byte is free. -/
def execGetEndpointId (who : Requester) (inst : Byte) (body : List Byte) (s : State) : Out :=
  serveCtl who inst 0x02 body (sized 0 body (fun t =>
    let d := t.draw
    ((0x00, [byteOf (t.get F.mgmtCfgEid), 0x00, byteOf d.1]), d.2))) s

/-- GET_ENDPOINT_UUID (R234): the fused UUID. -/
def execGetEndpointUuid (who : Requester) (inst : Byte) (body : List Byte) (s : State) : Out :=
  serveCtl who inst 0x03 body (sized 0 body (fun t => ((0x00, t.boot.fuses.uuid), t))) s

/-- GET_MCTP_VERSION_SUPPORT (Table 9.2): 1.3.0 for types 0xFF and 0x00, 1.0.0 for 0x01 and 0x7E. -/
def execGetMctpVersionSupport (who : Requester) (inst : Byte) (body : List Byte) (s : State) : Out :=
  let type := (body.getD 0 0).toNat
  serveCtl who inst 0x04 body (sized 1 body (fun t =>
    if type = 0xFF ∨ type = 0x00 then ((0x00, [0x01, 0xF1, 0xF3, 0xF0, 0x00]), t)
    else if type = 0x01 ∨ type = 0x7E then ((0x00, [0x01, 0xF1, 0xF0, 0xF0, 0x00]), t)
    else ((0x80, []), t))) s

/-- GET_MESSAGE_TYPE_SUPPORT (Table 9.2). -/
def execGetMessageTypeSupport (who : Requester) (inst : Byte) (body : List Byte) (s : State) : Out :=
  serveCtl who inst 0x05 body (sized 0 body (fun t => ((0x00, [0x03, 0x00, 0x01, 0x7E]), t))) s

/-- GET_VENDOR_DEFINED_MESSAGE_SUPPORT (Table 9.2): selector 0 alone. -/
def execGetVendorDefinedMessageSupport (who : Requester) (inst : Byte) (body : List Byte) (s : State) : Out :=
  serveCtl who inst 0x06 body (sized 1 body (fun t =>
    if body.getD 0 0 = 0 then ((0x00, [0xFF, 0x00, 0x1F, 0x7A, 0x00, 0x01]), t) else ((0x02, []), t))) s

/-! PLDM base (Table 9.3; layouts of DSP0240, log entry 29) -/

/-- Serve a PLDM request. -/
def servePldm (who : Requester) (inst : Byte) (type cmd : Nat) (body : List Byte)
    (act : State → (Nat × List Byte) × State) (s : State) : Out :=
  .next (takeTurn who ([0x01, inst, byteOf type, byteOf cmd] ++ body) (fun t =>
    let r := act t
    answerPldm who inst type cmd r.1.1 r.1.2 r.2) s)

/-- SET_TID (R236): 0 and 0xFF are no TID. -/
def execSetTid (who : Requester) (inst : Byte) (body : List Byte) (s : State) : Out :=
  let tid := (body.getD 0 0).toNat
  servePldm who inst 0 0x01 body (sized 1 body (fun t =>
    if tid = 0 ∨ tid = 0xFF then ((0x02, []), t)
    else ((0x00, []), { t with mgmt := { t.mgmt with tid := tid } }))) s

/-- GET_TID (R236). -/
def execGetTid (who : Requester) (inst : Byte) (body : List Byte) (s : State) : Out :=
  servePldm who inst 0 0x02 body (sized 0 body (fun t => ((0x00, [byteOf t.mgmt.tid]), t))) s

/-- GET_PLDM_VERSION (R236): 1.1.0 for type 0, 1.2.0 for type 2, with its CRC-32, in one part. -/
def execGetPldmVersion (who : Requester) (inst : Byte) (body : List Byte) (s : State) : Out :=
  let type := (body.getD 5 0).toNat
  let ver : List Byte := if type = 0 then [0x00, 0xF0, 0xF1, 0xF1] else [0x00, 0xF0, 0xF2, 0xF1]
  servePldm who inst 0 0x03 body (sized 6 body (fun t =>
    if body.getD 4 0 ≠ 1 then ((0x81, []), t)
    else if type ≠ 0 ∧ type ≠ 2 then ((0x83, []), t)
    else ((0x00, leBytes 4 0 ++ [0x05] ++ ver ++ leBytes 4 (crc32 ver)), t))) s

/-- GET_PLDM_TYPES (R236): types 0 and 2. -/
def execGetPldmTypes (who : Requester) (inst : Byte) (body : List Byte) (s : State) : Out :=
  servePldm who inst 0 0x04 body (sized 0 body (fun t => ((0x00, leBytes 8 0x05), t))) s

/-- GET_PLDM_COMMANDS (R236, Table 9.3). -/
def execGetPldmCommands (who : Requester) (inst : Byte) (body : List Byte) (s : State) : Out :=
  let type := (body.getD 0 0).toNat
  let ver := bytesAt body 1 4
  servePldm who inst 0 0x05 body (sized 5 body (fun t =>
    if type = 0 then
      (if ver = 0xF1F1F000 then ((0x00, leBytes 32 (listMask [1, 2, 3, 4, 5])), t) else ((0x84, []), t))
    else if type = 2 then
      (if ver = 0xF1F2F000 then ((0x00, leBytes 32 (listMask [0x11, 0x21, 0x50, 0x51])), t) else ((0x84, []), t))
    else ((0x83, []), t))) s

/-! PLDM sensors (Table 9.4; layouts of DSP0248, log entry 29) -/

/-- `n` free bytes. -/
def drawBytes : Nat → State → List Byte × State
  | 0, s => ([], s)
  | n + 1, s =>
    let d := s.draw
    let r := drawBytes n d.2
    (byteOf d.1 :: r.1, r.2)

/-- The numeric sensors in order: sensor ID and data size code (3 sint16, 4 uint32, 2 uint16). -/
def numericSensors : List (Nat × Nat) :=
  (List.range 13).map (fun i => (i + 1, 3)) ++ [(0x10, 4), (0x11, 2)]

/-- The state sensors. -/
def stateSensors : List Nat := [0x20, 0x21, 0x22, 0x23]

/-- The bytes of a reading by its data size code. -/
def readingSize (code : Nat) : Nat := if code = 4 then 4 else 2

/-- The reading of a numeric sensor; none is unavailable. VDD_CORE's is its rail monitor's (R553), and a monitor that
reads 0 mV finds the rail off (log entry 29). -/
def State.numericReading (s : State) (id : Nat) : Option (List Byte) :=
  if id = 1 then some (leBytes 2 (s.get F.fenceTempMaxTemp))
  else if id ≤ 13 then
    (if bit (s.get F.fenceSensorFailFail) (id - 2) then none else some (leBytes 2 (s.get (F.fenceTempTemp (id - 2)))))
  else if id = 0x10 then some (leBytes 4 (s.rd R.fencePowerMw).toNat)
  else if s.get (F.fenceRailMv 0) = 0 then none
  else some (leBytes 2 (s.get (F.fenceRailMv 0)))

/-- GET_SENSOR_READING (R237): data size, operational state (0 enabled, 2 unavailable), no event generation, and the
reading. The three state bytes, and the reading of an unavailable sensor, are free. -/
def execGetSensorReading (who : Requester) (inst : Byte) (body : List Byte) (s : State) : Out :=
  let id := bytesAt body 0 2
  servePldm who inst 2 0x11 body (sized 3 body (fun t =>
    match numericSensors.find? (fun e => e.1 = id) with
    | none => ((0x80, []), t)
    | some e =>
      let d := drawBytes 3 t
      let u := drawBytes (readingSize e.2) d.2
      match t.numericReading id with
      | some bs => ((0x00, [byteOf e.2, 0x00, 0x00] ++ d.1 ++ bs), d.2)
      | none => ((0x00, [byteOf e.2, 0x02, 0x00] ++ d.1 ++ u.1), u.2))) s

/-- The present state of a state sensor (Table 9.4). -/
def State.sensorState (s : State) (id : Nat) : Nat :=
  if id = 0x20 then s.power + 1
  else if id = 0x21 then
    (if s.get F.fenceStateTripLatched = 1 then 5
      else if s.get F.fenceStateHwThrottle = 1 then 4
      else if s.get F.fenceStateSoftThrottle = 1 ∨ s.get F.fenceStatePowerCap = 1 then 3
      else if s.get F.fenceStateWarn = 1 then 2 else 1)
  else if id = 0x22 then
    (if s.boot.halted then 4 else if s.get F.bootStatusSafe = 1 then 3 else if s.get F.bootStatusReady = 1 then 2 else 1)
  else if s.get F.hostqTokenHolder = 0 then 1
  else if s.get F.hostqTokenHolder = 1 then 2
  else 3

/-- GET_STATE_SENSOR_READINGS (R237): one state field; its previous state and event state are free. -/
def execGetStateSensorReadings (who : Requester) (inst : Byte) (body : List Byte) (s : State) : Out :=
  let id := bytesAt body 0 2
  servePldm who inst 2 0x21 body (sized 4 body (fun t =>
    if !stateSensors.contains id then ((0x80, []), t)
    else
      let d := drawBytes 2 t
      ((0x00, [0x01, 0x00, byteOf (t.sensorState id)] ++ d.1), d.2))) s

/-! The PDR repository (R237) -/

/-- The records by handle from 1: PDR type and sensor; the Terminus Locator first. -/
def pdrs : List (Nat × Option Nat) :=
  (1, none) :: numericSensors.map (fun e => (2, some e.1)) ++ stateSensors.map (fun i => (4, some i))

/-- The bytes of record k of the repository, k from 0: the common header, and a body of which a sensor PDR's second
field is the sensor ID; the rest is the implementation's (log entry 31). -/
def pdrRecord (k : Nat) : List Byte :=
  let e := pdrs.getD k (1, none)
  let raw := (List.range (Config.pdrLength k)).map (Config.pdrByte k)
  let body := match e.2 with
    | some id => raw.take 2 ++ leBytes 2 id ++ raw.drop 2
    | none => raw
  leBytes 4 (k + 1) ++ [0x01, byteOf e.1] ++ leBytes 2 0 ++ leBytes 2 body.length ++ body

/-- The sizes of all records. -/
def pdrSizes : List Nat := (List.range pdrs.length).map (fun k => (pdrRecord k).length)

/-- GET_PDR_REPOSITORY_INFO (R237): available, never updated, its records, their sizes; the transfer timeout is
free. -/
def execGetPdrRepositoryInfo (who : Requester) (inst : Byte) (body : List Byte) (s : State) : Out :=
  servePldm who inst 2 0x50 body (sized 0 body (fun t =>
    let d := drawBytes 1 t
    ((0x00, [0x00] ++ List.replicate 26 0 ++ leBytes 4 pdrs.length ++ leBytes 4 pdrSizes.sum ++
      leBytes 4 (pdrSizes.foldl max 0) ++ d.1), d.2))) s

/-- GET_PDR (R237): a record, or a part of it with its transfer handle and flag. -/
def execGetPdr (who : Requester) (inst : Byte) (body : List Byte) (s : State) : Out :=
  let h := bytesAt body 0 4
  let k := if h = 0 then 0 else h - 1
  let off := bytesAt body 4 4
  let first := body.getD 8 0 = 1
  let n := bytesAt body 9 2
  servePldm who inst 2 0x51 body (sized 13 body (fun t =>
    let rec_ := pdrRecord k
    let start := if first then 0 else off
    let part := (rec_.drop start).take n
    let rest := start + part.length < rec_.length
    let flag : Nat := if start = 0 then (if rest then 0x00 else 0x05) else if rest then 0x01 else 0x04
    if 1 < (body.getD 8 0).toNat then ((0x81, []), t)
    else if pdrs.length ≤ k then ((0x82, []), t)
    else if first ∧ bytesAt body 11 2 ≠ 0 then ((0x83, []), t)
    else if rec_.length ≤ start then ((0x80, []), t)
    else ((0x00, leBytes 4 (if k + 1 < pdrs.length then k + 2 else 0) ++
      leBytes 4 (if rest then start + part.length else 0) ++ [byteOf flag] ++ leBytes 2 part.length ++ part ++
      (if flag = 0x04 then [byteOf (crc8 rec_)] else [])), t))) s

/-! Vendor messages of the responder (Table 9.6) -/

/-- A responder's command with no body. -/
def bare (body : List Byte) (r : State → VendorReply) (s : State) : VendorReply × State :=
  (if body = [] then r s else { cc := 0x04 }, s)

/-- GET_STATUS (R238): six registers; the token from its mirror. -/
def execGetStatus (who : Requester) (flags : Word) (body : List Byte) (s : State) : Out :=
  .next (serveVendor who 0x01 flags body (fun _ => false) (bare body (fun t =>
    { cc := 0x00, body := [R.globalId, R.pwrStatus, R.bootStatus, R.fenceState, R.hostqToken, R.planStatus].flatMap
        (fun r => leBytes 4 (t.rd r).toNat) })) s)

/-- GET_BOOT_FAIL (R116, R238): the failure record mirrored in island 2. -/
def execGetBootFail (who : Requester) (flags : Word) (body : List Byte) (s : State) : Out :=
  .next (serveVendor who 0x02 flags body (fun _ => false) (bare body (fun t =>
    { cc := 0x00, body := (t.boot.mirror ++ List.replicate 32 0).take 32 })) s)

/-- The answer to TOKEN: HOSTQ_TOKEN from its mirror. -/
def tokenBody (s : State) : List Byte := leBytes 4 (s.rd R.hostqToken).toNat

/-- TOKEN_QUERY (R238); `body` is what follows OP 0. -/
def execTokenQuery (who : Requester) (flags : Word) (body : List Byte) (s : State) : Out :=
  .next (serveVendor who 0x06 flags (0x00 :: body) (fun _ => false) (fun t =>
    (if body = [0, 0, 0] then { cc := 0x00, body := tokenBody t } else { cc := 0x04 }, t)) s)

/-- TOKEN_YIELD (R245): the port gives the token to the host; REFUSED where it does not hold it or no link is up. -/
def execTokenYield (who : Requester) (flags : Word) (body : List Byte) (s : State) : Out :=
  .next (serveVendor who 0x06 flags (0x01 :: body) (fun _ => false) (fun t =>
    if body ≠ [0, 0, 0] then ({ cc := 0x04 }, t)
    else if !t.hasToken .port ∨ !t.host.linkUp then ({ cc := 0x05, body := tokenBody t }, t)
    else
      let u := moveToken 0 0 t
      ({ cc := 0x00, body := tokenBody u }, u)) s)

/-- ADDRESS_MATCH (R244): a Send Byte or Write Byte with command code 0xA5 is wake source 2; it needs no token. -/
def execAddressMatch (s : State) : Out := .next (if s.isOpen 2 then wakeEvent 2 s else s)

/-! Vendor messages of the Groundskeeper -/

/-- OFFSET and COUNT of READ_REG and WRITE_REG are in range and the reserved bytes are 0. -/
def regArgs (body : List Byte) : Bool :=
  let off := bytesAt body 0 4
  let n := (body.getD 4 0).toNat
  8 ≤ body.length && off % 4 == 0 && off < 2 ^ 24 && 1 ≤ n && n ≤ 16 && bytesAt body 5 3 == 0

/-- The offsets that READ_REG and WRITE_REG name, in ascending order. -/
def regOffsets (body : List Byte) : List Nat :=
  (List.range (body.getD 4 0).toNat).map (fun i => bytesAt body 0 4 + 4 * i)

/-- An offset's register is served by island 1 or 2. -/
def responderServes (off : Nat) : Bool := inBlock off && (serveIsland off == 1 || serveIsland off == 2)

/-- A READ_REG or WRITE_REG whose registers do not all lie in blocks of islands 1 and 2 needs the Groundskeeper; in
Frost it is answered like one that meets a shut island (R240). -/
def readNeedsGk (body : List Byte) (s : State) : Bool := s.power ≠ 4 && !(regOffsets body).all responderServes

/-- One register for the port: its island where it is DARK or CLOSED, else its word. -/
def portReg (off : Nat) (s : State) : Except Nat (List Byte) × State :=
  if inBlock off ∧ s.isShut (serveIsland off) then (.error (serveIsland off), s)
  else match s.judge .port off 4 with
    | .serve =>
      let t := serveRead .port off 4 s
      (.ok t.host.readData, { t with host := { t.host with readData := s.host.readData } })
    | .bad => (.ok [0xFF, 0xFF, 0xFF, 0xFF], badAccess s)
    | .none => (.ok [0xFF, 0xFF, 0xFF, 0xFF], s)
    | _ => (.ok [0, 0, 0, 0], s)

/-- Read registers until one's island is shut (R240). -/
def portRegs : List Nat → State → (Option Nat × List Byte) × State
  | [], s => ((none, []), s)
  | o :: os, s =>
    let r := portReg o s
    match r.1 with
    | .error n => ((some n, []), r.2)
    | .ok bs =>
      let t := portRegs os r.2
      ((t.1.1, bs ++ t.1.2), t.2)

/-- READ_REG (R240): up to 16 registers; DONE counts those read before a shut island. -/
def execReadReg (who : Requester) (flags : Word) (body : List Byte) (s : State) : Out :=
  .next (serveVendor who 0x03 flags body (readNeedsGk body) (fun t =>
    if !regArgs body ∨ body.length ≠ 8 then ({ cc := 0x04 }, t)
    else
      let r := portRegs (regOffsets body) t
      ({ cc := 0x00, status := if r.1.1.isSome then 0x11 else 0, detail := r.1.1.getD 0,
         body := leBytes 4 (r.1.2.length / 4) ++ r.1.2 }, r.2)) s)

/-- STAGE_WRITE (R242): bytes into the staging buffer, in Bloom alone. -/
def execStageWrite (who : Requester) (flags : Word) (body : List Byte) (s : State) : Out :=
  let off := bytesAt body 0 4
  let n := bytesAt body 4 2
  .next (serveVendor who 0x05 flags body (fun _ => true) (fun t =>
    if body.length ≠ 8 + n ∨ off % 4 ≠ 0 ∨ 2 ^ 20 < off + n ∨ n < 4 ∨ 240 < n ∨ n % 4 ≠ 0 ∨ bytesAt body 6 2 ≠ 0 then
      ({ cc := 0x04 }, t)
    else if !t.inBloom then ({ cc := 0x05 }, t)
    else
      let r := physWrite ⟨0, t.plan.active.qos.islands.getD 0 1, 0, false⟩ (t.stageBase + off) (body.drop 8) t
      match r.1 with
      | none => ({ cc := 0x00 }, r.2)
      | some e => ({ cc := 0x00, status := e.status, detail := e.detail }, r.2)) s)

/-- WAKE (R243): a wake event of source 5. -/
def execWake (who : Requester) (flags : Word) (body : List Byte) (s : State) : Out :=
  .next (serveVendor who 0x07 flags body (fun _ => true) (fun t =>
    if body ≠ [] then ({ cc := 0x04 }, t)
    else if !t.wakeEnabled 5 then ({ cc := 0x05 }, t)
    else if t.inBloom then ({ cc := 0x00 }, t)
    else ({ cc := 0x00 }, wakeEvent 5 t)) s)

end Sys2Proof.Machine
end

