-- ==== Sys2Proof/Machine/Mmu.lean ====
section
/-! DEFINITION. Translation, fault batches and invalidation as commands (spec/11 R276–R299). -/
namespace Sys2Proof.Machine

/-! Walks (R276–R286) -/

/-- A stream needs PINNED pages and cannot restart (Table 11.2, R313, R422, R454): rings in device memory, stream
channels, placement groups, scan-out, and a slot's accesses but the reads of a compressed feed, which the intake makes. -/
def cannotRestart (island : Nat) (access : Access) : Stream → Bool
  | .ring _ _ => true
  | .hose _ c => 12 ≤ c
  | .group _ => true
  | .display => true
  | .slot _ => !(island == 62 && access == .read)
  | _ => false

/-- The entry that a stream's fault record names. -/
def State.streamEntry (s : State) (st : Stream) : Option Entry :=
  match st with
  | .order uid _ _ => s.entry uid
  | .rake uid => s.entry uid
  | .furrow uid => s.entry uid
  | .evidence uid => s.entry uid
  | .hose e c => (s.running e c).bind (fun t => s.entry t.uid)
  | .sqFetch r => s.stalledFetch r
  | _ => none

/-- UNIT of a stream's fault record (Table 11.4). -/
def streamUnit : Stream → Nat
  | .hose _ c => c
  | .order _ _ w => w
  | .slot k => k
  | .group g => groupChannel g
  | _ => 0xFF

/-- The region that a slot's access names by its address (Table 18.10). -/
def State.slotRegion (s : State) (i va : Nat) : Nat :=
  let inside := fun (base kib : Nat) => base ≤ va && va < base + kib * 1024
  if va = s.rd64 (R.decodeNotifyVa i) then 0xD3
  else if inside (s.rd64 (R.intakeCpbVa i)) (s.rd (R.intakeCpbKib i)).toNat then 0xD0
  else if inside (s.rd64 (R.intakeDpbVa i)) (s.rd (R.intakeDpbKib i)).toNat then 0xD1
  else 0xD2

/-- A stream that may not go on ends with a status: a ring in device memory halts, a slot or group enters ERROR, and the
display shows black (R293, R422, R453, R454). -/
def failStream (st : Stream) (fatal : Bool) (va status : Nat) (s : State) : State :=
  match st with
  | .ring cq r => if cq then haltCq r 3 s else haltSq r 3 s
  | .group g => groupError g s
  | .display => blackOut s
  | .slot i => if fatal then slotError i status (s.slotRegion i va) s else endStream st status s
  | _ => endStream st status s

/-- TRANSLATION_WALK (R276, R277, R285): an access of an island through an allotment misses its cache; the walk leaves a
cached translation, or the stream faults. A stream that is stalled already waits (R286). -/
def execTranslationWalk (island : Fin 72) (allot : Fin 64) (va : DWord) (access : Access) (stream : Stream) (s : State) : Out :=
  let fn := (s.allotOwner allot).getD 0
  let e := s.streamEntry stream
  let cls := e.elim (s.plan.active.qos.islands.getD island 1) (fun x => x.cls)
  let fatal := cannotRestart island access stream
  let r := translate ⟨island, cls, 0, false⟩ fn allot va.toNat access fatal s
  .next (if s.isStalled stream ∨ !s.isOpen island then s
    else match r.1 with
      | .ok _ => r.2
      | .error x =>
        let fr : FaultRec := { stream := stream, va := va.toNat, tag := e.elim 0 (fun y => y.tag), reason := x.1,
                               access := access, allot := allot, fatal := fatal, cls := cls, level := x.2,
                               source := island, unit := streamUnit stream, sq := e.elim 0xFF (fun y => y.sq), timeUs := 0 }
        let f := reportFault fn fr r.2
        match f.1 with
        | .stalled => f.2
        | .ended status => failStream stream fatal va.toNat status f.2)

/-! Batches (R288, R289, R291) -/

/-- BATCH_TIMEOUT (R288): the open batch of a function closes. -/
def execBatchTimeout (fn : Fin 8) (s : State) : Out := .next (closeBatch fn s)

/-- BATCH_WRITE (R289): the oldest closed batch of a function is written if its slots are free. -/
def execBatchWrite (fn : Fin 8) (s : State) : Out := .next (if s.isShut 60 then s else writeBatch fn s)

/-- The records of a stall that timed out are late to answer (R291). -/
def markLate (id : Nat) (s : State) : State :=
  { s with mmu := { s.mmu with batches := s.mmu.batches.map (fun (b : Batch) => { b with
      records := b.records.map (fun (r : FaultRec) => if r.id = id then { r with late := true } else r) }) } }

/-- FAULT_TIMEOUT (R291): 100 ms after its fault a stalled stream ends; in Shade the timer is checked at the exit
(R297). -/
def execFaultTimeout (stream : Stream) (s : State) : Out :=
  .next (match s.mmu.stalls.find? (fun x => x.stream == stream) with
    | none => s
    | some x =>
      if s.power = 1 then s
      else endStream stream 0x31 ((markLate x.id s).bump (F.mmuAllotStatTimeouts x.allot) 1))

/-! Invalidation (R283, R298) -/

/-- A cached translation matches a scope: all, an allotment, or whole pages of one. -/
def TlbEntry.matchesScope (t : TlbEntry) (scope : Option Nat × Option (Nat × Nat)) : Bool :=
  scope.1.all (fun a => t.allot == a) &&
    scope.2.all (fun r => t.va < r.1 + r.2 * 4096 && r.1 < t.va + t.size)

/-- Remove the translations of a scope from the caches of open and stopped islands (R283). -/
def invalidate (scope : Option Nat × Option (Nat × Nat)) (s : State) : State :=
  { s with mmu := { s.mmu with tlb := s.mmu.tlb.filter (fun t => !t.matchesScope scope) } }

/-- An MMU_INVAL write (R298): OP 1 ALL, 2 ALLOT, 3 RANGE. -/
def writeInval (pf0 : Bool) (key op allot : Nat) (s : State) : State :=
  let result := fun (r : Nat) (t : State) => t.put F.mmuInvalStatusResult r
  let va := s.rd64 R.mmuInvalVa
  let pages := s.get F.mmuInvalPagesPages
  if !pf0 ∨ key ≠ 0x3A11 then result 1 s
  else if s.get F.mmuInvalStatusBusy = 1 then result 2 s
  else if op = 3 ∧ (pages = 0 ∨ 2 ^ 48 ≤ va) then result 3 s
  else if op = 0 then result 0 s
  else
    let scope : Option Nat × Option (Nat × Nat) :=
      if op = 1 then (none, none) else if op = 2 then (some allot, none) else (some allot, some (va / 4096 * 4096, pages))
    let s1 := invalidate scope ((result 0 s).put F.mmuInvalStatusBusy 1)
    { s1 with mmu := { s1.mmu with inval := some scope } }

/-- An MMU_INVAL write of a host function; the MMU block lies outside a VF's reach. -/
def invalAccess (fn : Fin 8) (key op allot : Nat) (s : State) : State :=
  writeAccess (.host fn) R.mmuInval (keyed key (op + 2 ^ 8 * allot)) (writeInval true key op allot) s

/-- INVAL_ALL (R283, R298). -/
def execInvalAll (fn : Fin 8) (key : BitVec 16) (s : State) : Out := .next (invalAccess fn key.toNat 1 0 s)
/-- INVAL_ALLOT (R283, R298). -/
def execInvalAllot (fn : Fin 8) (key : BitVec 16) (allot : Fin 64) (s : State) : Out :=
  .next (invalAccess fn key.toNat 2 allot s)
/-- INVAL_RANGE (R283, R298): from MMU_INVAL_VA, MMU_INVAL_PAGES pages. -/
def execInvalRange (fn : Fin 8) (key : BitVec 16) (allot : Fin 64) (s : State) : Out :=
  .next (invalAccess fn key.toNat 3 allot s)

/-- INVALIDATION_DONE (R283, R284): what a walk in progress left behind is discarded, and DONE sets. -/
def execInvalidationDone (s : State) : Out :=
  .next (match s.mmu.inval with
    | none => s
    | some scope =>
      let s1 := invalidate scope s
      { s1 with mmu := { s1.mmu with inval := none } }.puts [(F.mmuInvalStatusBusy, 0), (F.mmuInvalStatusDone, 1)])

/-! The fault ring (R299) -/

/-- An FR_CFG word passes R299. -/
def frCfgOk (v : Word) (base : Nat) : Bool :=
  let lg := getBits v 0 4
  let m := getBits v 8 8
  let t := getBits v 16 10
  6 ≤ lg && lg ≤ 12 && (if m = 0 then 256 else m) ≤ 2 ^ lg && 1 ≤ t && t ≤ 1000 && base % 4096 == 0

/-- The ring of a function starts afresh: slot 0, PHASE 1, no slot held; batches that waited may be written. -/
def startRing (f : Nat) (s : State) : State :=
  let s1 := { s with mmu := { s.mmu with
    writePos := setAt f 0 s.mmu.writePos,
    batches := s.mmu.batches.map (fun (b : Batch) => if b.fn = f then { b with holds := false } else b) } }
  writeBatch f (s1.puts [(F.mmuFrCfgEnable f, 1), (F.mmuFrStatusPhase f, 1)])

/-- A write of MMU_FN_f.FR_CFG (R299): with ENABLE 1 it changes nothing but ENABLE, and a write that would is discarded;
with ENABLE 0 it sets the fields, and ENABLE only if they pass. -/
def writeFrCfg (f : Nat) (v : Word) (s : State) : State :=
  let off := R.mmuFrCfg f
  let fields := fun (w : Word) => (getBits w 0 4, getBits w 8 8, getBits w 16 10)
  let s1 := noteReserved off v s
  if s.get (F.mmuFrCfgEnable f) = 1 then
    if fields v ≠ fields (s.rd off) then s1
    else s1.put (F.mmuFrCfgEnable f) (getBits v 31 1)
  else
    let s2 := s1.puts [(F.mmuFrCfgSizeLog2 f, getBits v 0 4), (F.mmuFrCfgBatchMax f, getBits v 8 8),
      (F.mmuFrCfgBatchTimeUs f, getBits v 16 10)]
    if getBits v 31 1 = 0 then s2
    else if frCfgOk v (s.rd64 (R.mmuFrBase f)) then startRing f s2
    else hostError 5 s2

/-- FAULT_RING_ENABLE (R299): a function writes ENABLE 1 to a function's ring, the other fields as they stand. -/
def execFaultRingEnable (fn ring : Fin 8) (s : State) : Out :=
  let v := setBits (s.rd (R.mmuFrCfg ring)) 31 1 1
  .next (writeAccess (.host fn) (R.mmuFrCfg ring) v.toNat (writeFrCfg ring v) s)

end Sys2Proof.Machine
end

