-- ==== Sys2Proof/Machine/Thermal.lean ====
section
/-! DEFINITION. Meanings of the thermal, power and calibration commands (spec/06 R147–R171) and of the VDD_CORE
monitor and AVSBus (spec/23 R546–R548, R550). -/
namespace Sys2Proof.Machine

/-- The mean of the two middle values, or the middle one, of a list in 1/16 °C, truncated (R147). -/
def median (l : List Int) : Int :=
  let m := l.mergeSort (fun a b => a ≤ b)
  let k := m.length / 2
  if m.length % 2 = 1 then m.getD k 0 else (m.getD (k - 1) 0 + m.getD k 0).tdiv 2

/-- One sensor's sample: a failed conversion or a raw value outside −55 to 150 °C fails the sensor for good (R148);
otherwise its corrected value enters its filter (R147). -/
def sampleSensor (n : Nat) (raw : Option Int) (s : State) : State :=
  let fails := s.get F.fenceSensorFailFail
  match raw with
  | some r =>
    if bit fails n then s
    else if r < -880 ∨ 2400 < r then s.put F.fenceSensorFailFail (listMask (n :: maskList 12 fails))
    else
      let f := (s.corrected n r :: s.fence.filters.getD n []).take 8
      let s1 := { s with fence := { s.fence with filters := setAt n f s.fence.filters } }
      s1.put (F.fenceTempTemp n) (ofInt 16 (median f))
  | none => s.put F.fenceSensorFailFail (listMask (n :: maskList 12 fails))

/-- The working sensor with the highest filtered value and that value; the lowest number where several share it. -/
def State.hottest (s : State) : Option (Nat × Int) :=
  let fails := s.get F.fenceSensorFailFail
  ((List.range 12).filter (fun n => !bit fails n && (s.fence.filters.getD n []) ≠ [])).foldl
    (fun b n =>
      let v := sext 16 (s.get (F.fenceTempTemp n))
      match b with
      | some (m, x) => if x < v then some (n, v) else some (m, x)
      | none => some (n, v)) none

/-- TEMP_MAX after a sample; with five or more failed sensors it reads the effective HW_THROTTLE value (R148). -/
def updateMax (s : State) : State :=
  if 5 ≤ popCount 12 (s.get F.fenceSensorFailFail) then s.put F.fenceTempMaxTemp (16 * s.get F.fenceThreshHwThrottle)
  else match s.hottest with
    | some (n, v) => s.puts [(F.fenceTempMaxTemp, ofInt 16 v), (F.fenceTempMaxSensor, n)]
    | none => s

/-- TEMP_MAX in 1/16 °C, signed. -/
def State.tempMax (s : State) : Int := sext 16 (s.get F.fenceTempMaxTemp)

/-- The rising value of threshold i (0 WARN, 1 THROTTLE, 2 HW_THROTTLE, 3 HW_TRIP), in 1/16 °C (Table 6.1). -/
def State.rising (s : State) (i : Nat) : Int :=
  16 * (s.get ([F.fenceThreshWarn, F.fenceThreshThrottle, F.fenceThreshHwThrottle, F.fenceThreshHwTrip].getD i F.fenceThreshWarn) : Int)

/-- The falling value of soft threshold i, in 1/16 °C (Table 6.1). -/
def State.falling (s : State) (i : Nat) : Int := s.rising i - 16 * (s.plan.active.limits.hystC : Int)

/-- The HW_THROTTLE release value, in 1/16 °C: five degrees below its rising value (Table 6.1). -/
def State.release (s : State) : Int := s.rising 2 - 80

/-- Crossing counters and the runs of consecutive samples that the thresholds count (R150, R153–R155, R171). -/
def countSamples (s : State) : State :=
  let t := s.tempMax
  let now := (List.range 4).map (fun i => decide (s.rising i ≤ t))
  let crossed := fun i => now.getD i false && !s.fence.above.getD i false
  let counters := [F.fenceThreshCrossings0Warn, F.fenceThreshCrossings0Throttle, F.fenceThreshCrossings1HwThrottle,
    F.fenceThreshCrossings1HwTrip]
  let s1 := s.each counters.zipIdx (fun e u => if crossed e.2 then u.bump e.1 1 else u)
  let soft := (List.range 2).map (fun i =>
    let r := s.fence.softRun.getD i (0, 0)
    (if s.rising i ≤ t then r.1 + 1 else 0, if t ≤ s.falling i then r.2 + 1 else 0))
  { s1 with fence := { s1.fence with
    above := now, softRun := soft,
    hwRun := if s.rising 2 ≤ t then s.fence.hwRun + 1 else 0,
    tripRun := if s.rising 3 ≤ t then s.fence.tripRun + 1 else 0,
    coolRun := if t ≤ s.release then s.fence.coolRun + 1 else 0 } }

/-- A rail monitor reads its raw value, in 0.25 mV, less VMON_n (R163, R553). -/
def sampleRail (n : Nat) (raw : Int) (s : State) : State :=
  let v := raw - s.fence.table.elim 0 (fun t => calS16 t (0x40 + 2 * n))
  s.put (F.fenceRailMv n) (v / 4).toNat

/-- SENSOR_SAMPLE (R147, R148, R163, R171): twelve conversions in 1/16 °C, none where one did not complete, and the
seven rail monitors in 0.25 mV. -/
def execSensorSample (raw : List (Option Int)) (rails : List Int) (s : State) : Out :=
  let s1 := s.each (List.range 12) (fun n t => sampleSensor n (raw.getD n none) t)
  .next (countSamples (updateMax (s1.each (rails.take 7).zipIdx (fun e t => sampleRail e.2 e.1 t))))

/-- Milliseconds between samples: 1 kHz in Bloom and Shade, 10 Hz below (R147). -/
def State.samplePeriod (s : State) : Nat := if s.power < 2 then 1 else 100

/-- The number of samples that a time in milliseconds spans. -/
def State.samplesIn (s : State) (ms : Nat) : Nat := max 1 (ceilDiv ms s.samplePeriod)

/-- SOFT_DWELL_EXPIRY (R150, R151): WARN or THROTTLE changes state after DWELL_MS of qualifying samples, with event
THERMAL; the clocks follow THROTTLE. -/
def execSoftDwellExpiry (throttle : Bool) (s : State) : Out :=
  let i := b2n throttle
  let f := if throttle then F.fenceStateSoftThrottle else F.fenceStateWarn
  let r := s.fence.softRun.getD i (0, 0)
  let n := s.samplesIn s.plan.active.limits.dwellMs
  let on := s.get f = 1
  .next (if (!decide on && n ≤ r.1) || (decide on && n ≤ r.2) then
      let s1 := s.put f (b2n (!decide on))
      setEvent 5 (if throttle then refreshClocks s1 else s1)
    else s)

/-- HW_THROTTLE (R153): 4 samples at the rising value clamp the beds to 400 MHz and drive THERM_N low. -/
def execHwThrottle (s : State) : Out :=
  .next (if s.fence.hwRun < 4 then s
    else refreshClocks ({ s with board := { s.board with thermN := false } }.put F.fenceStateHwThrottle 1))

/-- HW_THROTTLE_RELEASE (R153): after 100 ms at or below the release value; THERM_N rises unless a trip is latched. -/
def execHwThrottleRelease (s : State) : Out :=
  .next (if s.get F.fenceStateHwThrottle = 0 ∨ s.fence.coolRun < s.samplesIn 100 then s
    else
      let s1 := s.put F.fenceStateHwThrottle 0
      refreshClocks { s1 with board := { s1.board with thermN := s1.get F.fenceStateTripLatched == 0 } })

/-- A confirmed trip: in Frost it only latches the mark and holds THERM_N low (R155), elsewhere the trip sequence runs
(R154). -/
def trip (cause : Nat) (s : State) : State :=
  if s.power = 4 then
    { s.put F.fenceStateTripLatched 1 with
      board := { s.board with thermN := false }, fence := { s.fence with tripHold := true, coolRun := 0 } }
  else tripSequence cause s

/-- HW_TRIP (R154, R123): armed from FUSE_LOAD, after 4 samples at the rising value. -/
def execHwTrip (s : State) : Out :=
  .next (if s.fence.tripRun < 4 ∨ (s.boot.starting ∧ s.get F.bootStatusStep < 2) then s else trip 1 s)

/-- TRIP_WAKE_RELEASE (R155): after 100 ms below the release value THERM_N rises and a latched wake begins the start. -/
def execTripWakeRelease (s : State) : Out :=
  .next (if !s.fence.tripHold ∨ s.power ≠ 4 ∨ s.fence.coolRun < s.samplesIn 100 then s
    else
      let c := s.pwr.latched
      let s1 := { s with
        fence := { s.fence with tripHold := false },
        board := { s.board with thermN := true },
        pwr := { s.pwr with latched := [] } }
      if c.isEmpty then s1 else wakeStart 5 c s1)

/-- POWER_CAP_STEP (R152): device power averaged over WINDOW_MS moves the bed clock ceiling by 25 MHz; in Shade and
deeper it is held, and while island 0 is closed too (Table 7.2). -/
def execPowerCapStep (mw : Nat) (s : State) : Out :=
  let s1 := s.wr R.fencePowerMw (BitVec.ofNat 32 mw)
  let cap := s.plan.active.limits.powerMw
  let c := s.get F.fenceStateBedCeiling
  let top := s.planBedClock
  let next := if cap < mw then max (min 200 c) (c - 25) else if 100 * mw ≤ 95 * cap then min top (c + 25) else c
  .next (if !s.inBloom ∨ !s.isOpen 0 then s1
    else refreshClocks (s1.puts [(F.fenceStateBedCeiling, next), (F.fenceStatePowerCap, b2n (next < top))]))

/-- Lower LIMIT_RATIO by one eighth, down to 2/8, and count the step (R157). -/
def stepDown (s : State) : State :=
  let r := s.get F.fenceStateLimitRatio
  if r ≤ 2 then s else refreshUrgent ((s.put F.fenceStateLimitRatio (r - 1)).bump32 R.fenceLimitEvents 1)

/-- CURRENT_LIMIT_SAMPLE (R157): the power of VDD_CORE and VDD_SRAM in a microsecond. Above 18 W the ratio falls at
once and then every 2 µs; once 10 ms above 15 W have passed, it falls in the same steps until 15 W. -/
def execCurrentLimitSample (mw : Nat) (s : State) : Out :=
  let excess := 18000 < mw || (s.fence.sustained && 15000 < mw)
  let run := if excess then s.fence.peakRun + 1 else 0
  let s1 := { s with fence := { s.fence with
    peakRun := run,
    overUs := if 15000 < mw then s.fence.overUs + 1 else 0,
    sustained := s.fence.sustained && 15000 < mw,
    lowUs := if mw ≤ 14000 then s.fence.lowUs + 1 else 0 } }
  .next (if excess && run % 2 = 1 then stepDown s1 else s1)

/-- SUSTAINED_POWER_EXPIRY (R157): 10 ms above 15 W without a break. -/
def execSustainedPowerExpiry (s : State) : Out :=
  .next (if s.fence.overUs < 10000 then s
    else stepDown { s with fence := { s.fence with sustained := true, peakRun := 1 } })

/-- LIMIT_RATIO_RAISE (R157, R548): 100 µs at or below 14 W raise the ratio by one eighth, unless it is held. -/
def execLimitRatioRaise (s : State) : Out :=
  let r := s.get F.fenceStateLimitRatio
  .next (if s.fence.lowUs < 100 ∨ s.fence.uvHeld ∨ 8 ≤ r then s
    else refreshUrgent { s.put F.fenceStateLimitRatio (r + 1) with fence := { s.fence with lowUs := 0 } })

/-- OVERVOLT (R158). -/
def execOvervolt (s : State) : Out := .next (trip 2 s)

/-- UNDERVOLT (R548): while islands 4–71 are powered, LIMIT_RATIO falls to 2/8 and is held. -/
def execUndervolt (s : State) : Out :=
  .next (if 2 ≤ s.power then s
    else
      let s1 := (s.put F.fenceStateLimitRatio (min 2 (s.get F.fenceStateLimitRatio))).bump F.fenceAvsUvEvents 1
      refreshUrgent { s1 with fence := { s1.fence with uvHeld := true } })

/-- UNDERVOLT_RELEASE (R548). -/
def execUndervoltRelease (s : State) : Out := .next { s with fence := { s.fence with uvHeld := false, lowUs := 0 } }

/-- CRYSTAL_LOSS (R550): in any state but Frost the trip sequence runs with cause CLOCK_LOSS. -/
def execCrystalLoss (s : State) : Out :=
  .next (if s.power = 4 then s else tripSequence 3 { s with board := { s.board with crystal := false } })

/-! AVSBus -/

/-- VOLTAGE_SETTLED (R546): the monitor has reached the target; clocks that waited for it are raised. -/
def execVoltageSettled (s : State) : Out :=
  .next (refreshClocks ({ s with fence := { s.fence with raising := none } }.put F.fenceAvsSettled 1))

/-- The AVS is in fault (R547): FAULT, the voltage last reached is held, and each island whose clock needs more is
capped and counted. -/
def avsFault (s : State) : State :=
  let held := s.fence.raising.getD (s.get F.fenceAvsTargetMv)
  let cap := curveMhz (held - 10)
  let n := ((List.range 72).filter (fun n => avsIsland n && s.hedge n ≠ DARK && cap < s.limitedClock n)).length
  let s1 := (s.put F.fenceAvsFault 1).bump F.fenceClampsFreq n
  refreshClocks { s1 with fence := { s1.fence with avsCap := some cap, raising := none, avsTries := 0 } }

/-- AVS_RESPONSE (R547): a good response ends the transaction; a missing or bad one is counted and retried, and the
third failure is a fault. -/
def execAvsResponse (good : Bool) (s : State) : Out :=
  .next (if good then { s with fence := { s.fence with avsTries := 0 } }
    else
      let s1 := s.bump F.fenceAvsAvsErrors 1
      let n := s1.fence.avsTries + 1
      if 3 ≤ n then avsFault s1 else { s1 with fence := { s1.fence with avsTries := n } })

/-- AVS_FAULT (R547): the monitor has not reached a raised target within 1 ms. -/
def execAvsFault (s : State) : Out := .next (if s.fence.raising.isSome then avsFault s else s)

/-! Calibration commands -/

/-- The value of a CAL_CMD write. -/
def calCmdValue (key op arg mic : Nat) : Nat := keyed key (op + 8 * arg + 16 * mic)

/-- The RESULT of a CAL_CMD write by R166; 0 where it is carried out. -/
def calResult (w : Writer) (key : Nat) (s : State) : Nat :=
  if key ≠ 0xCA1B ∨ !isPf0 w ∨ !s.hasToken w then 1
  else if s.get F.calStatusBusy = 1 then 2
  else if !s.inBloom then 3
  else 0

/-- A CAL_CMD completes: RESULT, DONE and event CAL. -/
def finishCal (result : Nat) (s : State) : State :=
  setEvent 2 (s.puts [(F.calStatusResult, result), (F.calStatusDone, 1)])

/-- A CAL_CMD write; with island 0 closed an accepted command ends without effect (Table 7.2). -/
def calCommand (w : Writer) (key : Nat) (act : State → State) (s : State) : State :=
  let r := calResult w key s
  if r ≠ 0 then s.put F.calStatusResult r
  else
    let s1 := noteOrigin 4 w s
    if s1.isShut 0 then finishCal 0 s1 else act s1

/-- CAL_CMD READ (R166, R168): the 256 bytes of the CAL sector go to the window. -/
def calRead (w : Writer) (s : State) : State := finishCal 0 (writeDest w (s.rd64 R.calBufAddr) s.calSector s)

/-- CAL_READ. -/
def execCalRead (w : Writer) (key : BitVec 16) (s : State) : Out :=
  .next (writeAccess w R.calCmd (calCmdValue key.toNat 1 0 0) (calCommand w key.toNat (calRead w)) s)

/-- CAL_CMD WRITE (R167): a valid user table is written to the CAL sector and applied; any other is refused. -/
def calWrite (w : Writer) (s : State) : State :=
  let r := readSource w (s.rd64 R.calBufAddr) 256 s
  match r.1 with
  | none => finishCal 5 (r.2.put F.calStatusReason 7)
  | some t =>
    let c := calReason t
    if c ≠ 0 ∨ bytesAt t 6 1 ≠ 1 then finishCal 5 (r.2.put F.calStatusReason c)
    else finishCal 0 (loadCal (flashWrite 0x20000 t (flashErase 0x20000 0x10000 r.2)))

/-- CAL_WRITE (R167). -/
def execCalWrite (w : Writer) (key : BitVec 16) (s : State) : Out :=
  .next (writeAccess w R.calCmd (calCmdValue key.toNat 2 0 0) (calCommand w key.toNat (calWrite w)) s)

/-- CAL_RELOAD (R170). -/
def execCalReload (w : Writer) (key : BitVec 16) (s : State) : Out :=
  .next (writeAccess w R.calCmd (calCmdValue key.toNat 3 0 0)
    (calCommand w key.toNat (fun t => finishCal 0 (loadCal t))) s)

/-- CAL_CMD MEASURE (R166, Table 6.9): raw sensor values in 1/16 °C, or a microphone level in 1/256 dBFS. -/
def calMeasure (arg : Nat) (readings : List Int) (s : State) : State :=
  finishCal 0 (if arg = 0 then
      s.each (List.range 12) (fun n t => t.put (F.calRawRaw n) (ofInt 16 (readings.getD n 0)))
    else s.put F.calMicLevelLevel (ofInt 16 (readings.getD 0 0)))

/-- CAL_MEASURE. -/
def execCalMeasure (w : Writer) (key : BitVec 16) (arg : BitVec 1) (mic : BitVec 3) (readings : List Int) (s : State) :
    Out :=
  .next (writeAccess w R.calCmd (calCmdValue key.toNat 4 arg.toNat mic.toNat)
    (calCommand w key.toNat (calMeasure arg.toNat readings)) s)

end Sys2Proof.Machine
end

