-- ==== Sys2Proof/Machine/RegWrite.lean ====
section
/-! DEFINITION. A write of any register by its offset (spec/00 R8–R11, spec/24 R554–R559), the row REGISTER_WRITE, and
WRITE_REG of the management port (spec/09 R240, R241, R246). -/
namespace Sys2Proof.Machine

/-! Writes whose effect is more than their field types say -/

/-- A plain write, reserved bits noted (R10, R11). -/
def plainReg (w : Writer) (off : Nat) (v : Word) (s : State) : State :=
  noteReserved off v (plainWrite (writerId w) off v s)

/-- Drop the held low half that a discarded write of a 64-bit register would have taken (R9). -/
def dropLow (f off : Nat) (s : State) : State :=
  { s with host := { s.host with heldLow := s.host.heldLow.filter (fun e => !(e.1 = f && e.2.1 + 4 = off)) } }

/-- A plain write that takes effect only under a condition. A 64-bit register takes effect with its high half (R9), so
that its low half is held whatever the condition. -/
def guardedReg (w : Writer) (off : Nat) (v : Word) (ok : Bool) (refuse : State → State) (s : State) : State :=
  if ok ∨ halfOf off = some 0 then plainReg w off v s
  else noteReserved off v (refuse (dropLow (writerId w) off s))

/-- A plain write of a register whose low `width` bits are clamped into a range (Tables 2.11, 5.9, 13.19). -/
def clampedReg (w : Writer) (off width lo hi : Nat) (v : Word) (s : State) : State :=
  noteReserved off v (plainWrite (writerId w) off (BitVec.ofNat 32 (max lo (min hi (v.toNat % 2 ^ width)))) s)

/-- The fields of a keyed command register. -/
def wKey (v : Word) : Nat := getBits v 16 16

/-- An operation code that names no operation: the register's conditions are tested as for any other, and nothing more
happens (DESIGN CHOICE, log entry 43). -/
def noOperation (s : State) : State := s

/-- ISLAND_CTRL (Table 1.10). -/
def writeIslandCtrl (w : Writer) (v : Word) (s : State) : State :=
  let n := getBits v 0 7
  match getBits v 8 2 with
  | 1 => resetTarget w (wKey v) n s
  | 2 => clearTargets (wKey v) ((List.range 72).filter (fun m => m = n)) s
  | 3 => clearTargets (wKey v) (List.range 72) s
  | _ => s

/-- PLAN_CMD (Table 2.9). -/
def writePlanCmd (w : Writer) (v : Word) (s : State) : State :=
  let key := wKey v
  let drain := getBits v 6 1
  match getBits v 0 4 with
  | 1 => planCommand w key (startCopy 1 w drain) s
  | 2 => planCommand w key (startCopy 2 w drain) s
  | 3 => planCommand w key (startStore w) s
  | 4 => planCommand w key (startFallback w drain) s
  | 5 => planCommand w key burnPlanFloor s
  | 6 => planCommand w key (revokeKey (getBits v 4 2)) s
  | 7 => abortCommand w key s
  | _ =>
    let d := planGate w key s
    if d ≠ 0 then refusePlan 0x41 d s else noOperation s

/-- BOOT_CMD (Table 4.13). -/
def writeBootCmd (w : Writer) (v : Word) (s : State) : State :=
  let slot := getBits v 4 1
  let act : Option (State → State) := match getBits v 0 4 with
    | 1 => some (writeSlot w slot (getBits v 5 2))
    | 2 => some (verifySlotCmd slot)
    | 3 => some (setPreferredCmd slot)
    | 4 => some clearAttemptsCmd
    | 5 => some burnImageFloor
    | 6 => some (coldStart 2 false)
    | _ => none
  match act with
  | some a => bootCommand w (wKey v) a s
  | none => noOperation (s.put F.bootCmdStatusResult (bootResult w (wKey v) s))

/-- BOOT_FW_CMD (Table 7.6). -/
def writeFwCmd (w : Writer) (v : Word) (s : State) : State :=
  let p := getBits v 4 2
  match getBits v 0 3 with
  | 1 => fwCommand w (wKey v) p (startHotSwap w p) s
  | 2 => fwCommand w (wKey v) p (startReload p) s
  | _ => noOperation (s.put F.bootFwCmdStatusResult (fwResult w (wKey v) p s))

/-- BOOT_KEYMB_CMD (Table 7.8). -/
def writeKeymbCmd (w : Writer) (v : Word) (s : State) : State :=
  let slot := getBits v 4 4
  let op := getBits v 0 2
  match op with
  | 1 => keymbCommand w (wKey v) 1 slot (loadKey w slot) s
  | 2 => keymbCommand w (wKey v) 2 slot (fun t => finishKeymb 0 (commitKeys (fun k => k == slot) [] t)) s
  | 3 => keymbCommand w (wKey v) 3 slot (fun t => finishKeymb 0 (commitKeys (fun k => k != 0) [] t)) s
  | _ => noOperation (s.put F.bootKeymbStatusResult (keymbResult w (wKey v) op slot s))

/-- `n` free numbers. -/
def drawList : Nat → State → List Int × State
  | 0, s => ([], s)
  | n + 1, s =>
    let d := s.draw
    let r := drawList n d.2
    ((d.1 : Int) :: r.1, r.2)

/-- CAL_CMD (Table 6.9). What MEASURE finds is free where the write does not say it (log entry 1). -/
def writeCalCmd (w : Writer) (v : Word) (s : State) : State :=
  match getBits v 0 3 with
  | 1 => calCommand w (wKey v) (calRead w) s
  | 2 => calCommand w (wKey v) (calWrite w) s
  | 3 => calCommand w (wKey v) (fun t => finishCal 0 (loadCal t)) s
  | 4 => calCommand w (wKey v) (fun t =>
      let d := drawList 12 t
      calMeasure (getBits v 3 1) d.1 d.2) s
  | _ => noOperation (s.put F.calStatusResult (calResult w (wKey v) s))

/-- ACOU_CMD (Table 21.4). -/
def writeAcouCmd (w : Writer) (v : Word) (s : State) : State :=
  match getBits v 0 2 with
  | 1 => acouCommand w (wKey v) (prerollRead w) s
  | 2 => acouCommand w (wKey v) prerollRelease s
  | _ => acouCommand w (wKey v) (fun _ t => noOperation t) s

/-- HOSTQ_BAR4_BASE: needs the token, and its value is truncated to a multiple of the window (R203, R222). -/
def writeBar4Base (w : Writer) (off : Nat) (v : Word) (s : State) : State :=
  if off = R.hostqBar4Base then plainReg w off v s
  else if !s.hasToken w then hostError 2 (dropLow (writerId w) off s)
  else
    let a := s.joined (writerId w) off v
    dropLow (writerId w) off (s.wr64 R.hostqBar4Base (a / s.host.bar4Size * s.host.bar4Size))

/-- The event registers of a function: a VF's implement bit 9 alone (R205, R219). -/
def writeEvents (w : Writer) (off : Nat) (v : Word) (s : State) : State :=
  match w with
  | .host f =>
    if f = 0 then plainReg w off v s
    else
      let p := s.fn f
      let b9 := bit v.toNat 9
      let p1 := if off = R.hostqEventMask then { p with vfMask := if b9 then 2 ^ 9 else 0 }
        else if b9 then { p with vfCause := 0 } else p
      (s.setFn f p1).when (v.toNat != 2 ^ 9 * b2n b9) badAccess
  | .port => plainReg w off v s

/-- SQ_CFG or CQ_CFG of a ring that is not DISABLED: only the fields of `mask` take effect; a change of any other is
recorded (R208). -/
def writeRingCfg (w : Writer) (off : Nat) (v mask : Word) (disabled : Bool) (s : State) : State :=
  if disabled then plainReg w off v s
  else
    let old := s.rd off
    let v1 := (old &&& ~~~ mask) ||| (v &&& mask)
    let s1 := plainReg w off v1 s
    if writtenWord off old v &&& ~~~ mask ≠ old &&& ~~~ mask then hostError 4 (noteReserved off v s1) else noteReserved off v s1

/-- The registers of SQ r and CQ r, at a distance from the ring's first (Table 8.13). -/
def writeSqReg (w : Writer) (r rel off : Nat) (v : Word) (s : State) : State :=
  let disabled := s.get (F.sqStatusState r) == RING_DISABLED
  if rel < 8 then guardedReg w off v disabled (hostError 4) s
  else if rel = 8 then writeRingCfg w off v 0x0F000000 disabled s
  else if rel = 0xC then writeRingCtrl false r v s
  else plainReg w off v s

/-- The registers of CQ r. -/
def writeCqReg (w : Writer) (r rel off : Nat) (v : Word) (s : State) : State :=
  let disabled := s.get (F.cqStatusState r) == RING_DISABLED
  if rel < 8 then guardedReg w off v disabled (hostError 4) s
  else if rel = 8 then writeRingCfg w off v 0xFF004000 disabled s
  else if rel = 0xC then writeRingCtrl true r v s
  else plainReg w off v s

/-! One block each (Table 24.1) -/

/-- PWR, BOOT, PLAN, ISLAND and CAL. -/
def writeIsland1 (w : Writer) (off : Nat) (v : Word) (s : State) : State :=
  if off = R.pwrRequest then noteReserved off v (powerRequest w v.toNat s)
  else if off = R.pwrSettle then clampedReg w off 14 1 10000 v s
  else if off = R.bootCmd then noteReserved off v (writeBootCmd w v s)
  else if off = R.bootFwCmd then noteReserved off v (writeFwCmd w v s)
  else if off = R.bootKeymbCmd then noteReserved off v (writeKeymbCmd w v s)
  else if off = R.planCmd then noteReserved off v (writePlanCmd w v s)
  else if off = R.planDrain then clampedReg w off 20 100 100000 v s
  else if off = R.islandCtrl then noteReserved off v (writeIslandCtrl w v s)
  else if off = R.calCmd then noteReserved off v (writeCalCmd w v s)
  else if off = R.numxClear then noteReserved off v (clearRecords (getBits v 0 6) (getBits v 8 2) (getBits v 10 1 = 1) s)
  else if R.numxFlags 0 ≤ off ∧ off < R.numxFlags 48 then refreshNumx (plainReg w off v s)
  else if off = R.shedCmd then
    noteReserved off v (shedCommand w (wKey v) (getBits v 0 2) (getBits v 4 2) (getBits v 8 4) s)
  else plainReg w off v s

/-- HOSTQ and MMU. -/
def writeHostq (w : Writer) (off : Nat) (v : Word) (s : State) : State :=
  if off = R.hostqToken then noteReserved off v (writeToken true (wKey v) (getBits v 8 2) s)
  else if off = R.hostqHeartbeat then noteReserved off v (s.when (bit v.toNat 31) beat)
  else if off = R.hostqEventCause ∨ off = R.hostqEventMask then writeEvents w off v s
  else if off = R.hostqBar4Base ∨ off = R.hostqBar4Base + 4 then writeBar4Base w off v s
  else if R.hostqFn 0 ≤ off ∧ off < R.hostqFn 8 then
    noteReserved off v (writeFn w ((off - R.hostqFn 0) / 4) (getBits v 0 6) (getBits v 8 7) s)
  else if R.hostqRingOwner 0 ≤ off ∧ off < R.hostqRingOwner 64 then
    noteReserved off v (writeOwner w ((off - R.hostqRingOwner 0) / 4) (getBits v 0 3) (getBits v 8 3) s)
  else if R.sqBase 0 ≤ off ∧ off < R.sqBase 64 then writeSqReg w ((off - R.sqBase 0) / 0x20) ((off - R.sqBase 0) % 0x20) off v s
  else if R.cqBase 0 ≤ off ∧ off < R.cqBase 64 then writeCqReg w ((off - R.cqBase 0) / 0x20) ((off - R.cqBase 0) % 0x20) off v s
  else if off = R.mmuInval then noteReserved off v (writeInval true (wKey v) (getBits v 0 2) (getBits v 8 6) s)
  else if R.mmuFrBase 0 ≤ off ∧ off < R.mmuFrBase 8 then
    let f := (off - R.mmuFrBase 0) / 0x20
    let rel := (off - R.mmuFrBase 0) % 0x20
    if rel < 8 then guardedReg w off v (s.get (F.mmuFrCfgEnable f) == 0) id s
    else if rel = 8 then writeFrCfg f v s
    else plainReg w off v s
  else plainReg w off v s

/-- HOSE0 and HOSE1. -/
def writeHose (w : Writer) (off : Nat) (v : Word) (s : State) : State :=
  let e := (off - 0x080000) / 0x10000
  let c := off % 0x10000 / 0x100
  let rel := off % 0x100
  if c < 16 ∧ rel = 0 then writeHoseCfg w e c v s
  else if c < 16 ∧ rel = 0x14 then refreshChannel e c (plainReg w off v s)
  else if c < 16 ∧ rel = 0x1C then noteReserved off v (releaseChannel e c (getBits v 0 16) s)
  else plainReg w off v s

/-- DISP (R427). -/
def writeDisp (w : Writer) (off : Nat) (v : Word) (s : State) : State :=
  if off = R.dispCtrl then noteReserved off v (writeDispCtrl w v.toNat s)
  else if off = R.dispFbCfg then guardedReg w off v (s.get F.dispCtrlEnable == 0) id s
  else if off = R.dispFbNext ∨ off = R.dispFbNext + 4 then noteReserved off v (writeFbNext w off v s)
  else if off = R.dispAuxCmd then noteReserved off v (auxCommand w v.toNat s)
  else plainReg w off v s

/-- Keep a word of a key that is being written (R440). -/
def putKeyWord (i k : Nat) (v : Word) (s : State) : State :=
  changeSlot i (fun x => { x with keyWords := setAt k v x.keyWords }) s

/-- INTAKE (R461): the configuration registers of a slot are written in IDLE alone. -/
def writeIntake (w : Writer) (off : Nat) (v : Word) (s : State) : State :=
  if off < R.intakeSlotCfg 0 then
    if off = R.intakeVnicCfg then noteReserved off v (writeVnicCfg (writerId w) v s)
    else if off = R.intakeVnicRxTail then noteReserved off v (postBuffers w (getBits v 0 16) s)
    else if off = R.intakeVnicTxTail then noteReserved off v (sendBuffers w (getBits v 0 16) s)
    else plainReg w off v s
  else
    let i := (off - R.intakeSlotCfg 0) / 0x100
    let rel := off % 0x100
    if rel = 0 then writeSlotCfg i v s
    else if rel = 0x64 then noteReserved off v (writeFeedTail i (getBits v 0 16) s)
    else if 0x70 ≤ rel ∧ rel < 0x8C then putKeyWord i ((rel - 0x70) / 4) v s
    else if rel = 0x8C then commitKey i v s
    else if rel = 0x90 then plainReg w off v s
    else guardedReg w off v (s.slotState i == SLOT_IDLE) id s

/-- DECODE (R461): a slot's registers as in INTAKE; a group's are written while EN is 0. -/
def writeDecode (w : Writer) (off : Nat) (v : Word) (s : State) : State :=
  if off < R.decodeGroupCfg 0 then
    let i := (off - R.decodeRecVa 0) / 0x200
    if off % 0x200 = 0x18 then noteReserved off v (releaseFrames i (getBits v 0 16) s)
    else guardedReg w off v (s.slotState i == SLOT_IDLE) id s
  else if off < R.decodeEngLoad 0 then
    let g := (off - R.decodeGroupCfg 0) / 0x40
    if off % 0x40 = 0 then writeGroupCfg g v s
    else guardedReg w off v (s.get (F.decodeGroupCfgEn g) == 0) id s
  else plainReg w off v s

/-- An APPEND_PKT runs (spec/20). -/
def State.appendsPackets (s : State) : Bool := s.evid.reqs.any (fun q => q.begun && evOp q.desc == 3)

/-- BED n: BEDn_TRAP's VALID clears the whole record with the write's high half (R346, R9); WAIT_MS is clamped. -/
def writeBed (w : Writer) (off : Nat) (v : Word) (s : State) : State :=
  let n := (off - 0x200000) / 0x4000
  let rel := off % 0x4000
  if rel = 4 then clampedReg w off 10 1 1000 v s
  else if rel = 0x14 then
    let low := s.host.heldLow.any (fun e => e.1 = writerId w && e.2.1 + 4 = off && bit e.2.2.toNat 0)
    let s1 := dropLow (writerId w) off s
    noteReserved off v (if low then clearTrap n s1 else s1)
  else plainReg w off v s

/-- A write of a register that acts, by its offset (R557 test 4). -/
def writeReg (w : Writer) (off : Nat) (v : Word) (s : State) : State :=
  if 0x200000 ≤ off then writeBed w off v s
  else
    let b := off / 0x10000
    if b = 0x06 ∨ b = 0x07 then writeHostq w off v s
    else if b = 0x08 ∨ b = 0x09 then writeHose w off v s
    else if b = 0x0D then writeIntake w off v s
    else if b = 0x0E then writeDecode w off v s
    else if b = 0x10 then
      (if off < R.nandStage then plainReg w off v s else guardedReg w off v (!s.appendsPackets) id s)
    else if b = 0x11 then (if off = R.acouCmd then noteReserved off v (writeAcouCmd w v s) else plainReg w off v s)
    else if b = 0x12 then writeDisp w off v s
    else writeIsland1 w off v s

/-- A 32-bit write arrives at BAR0, or from the management port: judged, then performed. A VF's write of HOSTQ_TOKEN,
HOSTQ_FN_f and HOSTQ_RING_OWNER_r is refused under their own rules (R206, R207, R222). -/
def busWrite (w : Writer) (off : Nat) (v : Word) (s : State) : State :=
  if off = R.hostqToken ∧ !isPf0 w then tokenAccess w (wKey v) (getBits v 8 2) s
  else if (R.hostqFn 0 ≤ off ∧ off < R.hostqFn 8) ∨ (R.hostqRingOwner 0 ≤ off ∧ off < R.hostqRingOwner 64) then
    pf0Access w off v.toNat (writeReg w off v) s
  else writeAccess w off v.toNat (writeReg w off v) s

/-- A 64-bit write: its two dwords at once, low half first (R8, R9). -/
def busWrite64 (w : Writer) (off : Nat) (lo hi : Word) (s : State) : State :=
  if off % 8 = 0 then busWrite w (off + 4) hi (busWrite w off lo s)
  else match s.judge w off 8 with
    | .dark n => darkAccess n s
    | .hold => holdTlp (.write (writerFn w) (BitVec.ofNat 24 (off + 4)) hi) (holdTlp (.write (writerFn w) (BitVec.ofNat 24 off) lo) s)
    | .bad => badAccess s
    | _ => s

/-- REGISTER_WRITE (R8–R11, R557): a 32-bit write, or a 64-bit one where `hi` is given. A VF's offset lies in its own
BAR0 (R205). -/
def execRegisterWrite (w : Writer) (off : BitVec 24) (lo : Word) (hi : Option Word) (s : State) : Out :=
  let o := barOffset w off.toNat
  .next (match hi with
    | none => busWrite w o lo s
    | some h => busWrite64 w o lo h s)

/-! WRITE_REG (R240, R241, R246) -/

/-- The write needs the control token (Table 24.4, R318). -/
def needsToken (off : Nat) (v : Word) : Bool :=
  off == R.planCmd || off == R.bootCmd || off == R.bootFwCmd || off == R.bootKeymbCmd || off == R.pwrRequest ||
    off == R.calCmd || off == R.shedCmd || off == R.acouCmd || (off == R.islandCtrl && getBits v 8 2 == 1) ||
    (R.hostqFn 0 ≤ off && off < R.hostqFn 8) || (R.hostqRingOwner 0 ≤ off && off < R.hostqRingOwner 64) ||
    off == R.hostqBar4Base + 4 || (off / 0x20000 == 4 && off % 0x10000 < 0x1000 && off % 0x100 == 0)

/-- The write is a command that reads the staging buffer (R242). -/
def readsStaging (off : Nat) (v : Word) : Bool :=
  (off == R.planCmd && (getBits v 0 4 == 1 || getBits v 0 4 == 2)) || (off == R.bootCmd && getBits v 0 4 == 1) ||
    (off == R.bootFwCmd && getBits v 0 3 == 1) || (off == R.bootKeymbCmd && getBits v 0 2 == 1) ||
    (off == R.calCmd && getBits v 0 3 == 2)

/-- The port's writes in order, until one is not carried out: at a shut island ISLAND_RESET with the island; NO_TOKEN;
REFUSED outside Bloom. The write of a command that is turned away still reaches its register, which records why. -/
def portWrites : List (Nat × Word) → Nat → State → (Nat × VendorReply) × State
  | [], done, s => ((done, { cc := 0x00 }), s)
  | (off, v) :: rest, done, s =>
    let n := serveIsland off
    if inBlock off ∧ s.isShut n then ((done, { cc := 0x00, status := 0x11, detail := n }), s)
    else
      let s1 := busWrite .port off v s
      if needsToken off v ∧ !s.hasToken .port then ((done, { cc := 0x03 }), s1)
      else if readsStaging off v ∧ !s.inBloom then ((done, { cc := 0x05 }), s1)
      else portWrites rest (done + 1) s1

/-- WRITE_REG needs the Groundskeeper; in Frost it is answered as R240 says where its first register is not of island 1
or 2. -/
def writeNeedsGk (body : List Byte) (s : State) : Bool := s.power ≠ 4 || responderServes (bytesAt body 0 4)

/-- Serve WRITE_REG. -/
def serveWriteReg (body : List Byte) (s : State) : VendorReply × State :=
  let offs := regOffsets body
  if !regArgs body ∨ body.length ≠ 8 + 4 * offs.length ∨ offs.contains R.hostqToken then ({ cc := 0x04 }, s)
  else
    let ws := offs.zipIdx.map (fun e => (e.1, BitVec.ofNat 32 (bytesAt body (8 + 4 * e.2) 4)))
    let r := portWrites ws 0 s
    ({ r.1.2 with body := byteOf r.1.1 :: [0, 0, 0] }, r.2)

/-- WRITE_REG (R240, R241, R246). -/
def execWriteReg (who : Requester) (flags : Word) (body : List Byte) (s : State) : Out :=
  .next (serveVendor who 0x04 flags body (writeNeedsGk body) (serveWriteReg body) s)

end Sys2Proof.Machine
end

