-- ==== Sys2Proof/Machine/Front.lean ====
section
/-! DEFINITION. The link front end's receive buffer in Shade and the loss of a reference clock (spec/05 R139; spec/23
R550). -/
namespace Sys2Proof.Machine

/-- Perform a TLP as the access that it is. -/
def performTlp (t : Tlp) (s : State) : State :=
  match t with
  | .write f off v => busWrite (.host f) (barOffset (.host f) off.toNat) v s
  | .read f off size => readAccess (.host f) (barOffset (.host f) off.toNat) size s
  | .bar4 off len data => if s.isShut 60 then darkAccess 60 s else serveBar4 off.toNat len data s
  | .doorbell f cq r v => bar2Access f t (doorbell f cq r v.toNat true) s
  | .msix f v a d m => bar2Access f t (writeMsix f v a.toNat d.toNat m) s
  | .config f i v => serveConfig f i v s

/-- SHADE_TLP_ARRIVAL (R139): an access to an island-1 block is served there, any other TLP is held. -/
def execShadeTlpArrival (tlp : Tlp) (s : State) : Out :=
  .next (if s.power ≠ 1 ∨ !s.host.linkUp then s
    else match tlp with
      | .write _ _ _ => performTlp tlp s
      | .read _ _ _ => performTlp tlp s
      | _ => holdTlp tlp s)

/-- The islands on a TLP's path beside island 60 (R139). -/
def State.tlpPath (s : State) (t : Tlp) : List Nat :=
  match t with
  | .write f off _ => [serveIsland (barOffset (.host f) off.toNat)]
  | .read f off _ => [serveIsland (barOffset (.host f) off.toNat)]
  | .bar4 off _ _ =>
    let pa := s.rd64 R.hostqBar4Base / s.host.bar4Size * s.host.bar4Size + off.toNat
    [52 + s.sliceOf (pa / 128 * 128), 69 + s.channel pa]
  | _ => []

/-- HELD_TLP_SERVE (R139): the oldest held TLP is served once no island on its path is STOPPED or OPENING; a CLOSED or
DARK one answers under R41 or R563. -/
def execHeldTlpServe (s : State) : Out :=
  .next (match s.pwr.tlps with
    | [] => s
    | t :: rest =>
      if s.power = 1 ∨ (60 :: s.tlpPath t).any (fun n => !s.isOpen n && !s.isShut n) then s
      else
        let s1 := performTlp t { s with pwr := { s.pwr with tlps := [] } }
        if s1.host.linkUp ∧ !s1.boot.starting then { s1 with pwr := { s1.pwr with tlps := rest } } else s1)

/-- REFCLK_LOSS (R550): without PCIE_REFCLK outside L1.2 the link goes down; in Fallow it is in L1.2 (Table 5.4), and
`inL12` tells whether an enabled L1.2 holds at another time. Without ETH_REFCLK every external port's link is down. -/
def execRefclkLoss (eth inL12 : Bool) (s : State) : Out :=
  .next (if eth then
      if s.isShut 61 then s else s.each (List.range 4) (fun p t => t.put (F.intakePortStatusLink p) 0)
    else if s.power = 2 ∨ (inL12 ∧ s.get F.hostqLinkL12 = 1) then s
    else linkDown s)

end Sys2Proof.Machine
end

