-- ==== Sys2Proof/Machine/Jtag.lean ====
section
/-! DEFINITION. The test access port's boundary scan (spec/23 R540) and the states of the scanned balls in reset (Table
23.6). Only the RZ64-M is present (log 12). -/
namespace Sys2Proof.Machine

/-- What the device does at a scanned ball while it is in reset (Table 23.6): an output at a level, an input or I/O at high
impedance, an open drain at high impedance. -/
inductive BallDrive where
  | low
  | high
  | highZ
  | openDrain
  deriving DecidableEq, Repr

/-- The 49 scanned balls of the RZ64-M in ascending row index and column (Table 23.1, R540), with their drive in reset. -/
def scanBalls : List (String × BallDrive) :=
  [("XSPI_CLK", .low), ("PDM_CLK", .low), ("SMB_CLK", .openDrain),
   ("XSPI_DS", .highZ), ("PDM_D0", .highZ), ("SMB_DAT", .openDrain),
   ("XSPI_CS_N", .high), ("PDM_D1", .highZ),
   ("XSPI_RESET_N", .low), ("PDM_D2", .highZ),
   ("XSPI_IO0", .highZ), ("PDM_D3", .highZ), ("ALERT_N", .openDrain),
   ("XSPI_IO1", .highZ), ("THERM_N", .openDrain),
   ("XSPI_IO2", .highZ), ("WAKE_N", .highZ),
   ("XSPI_IO3", .highZ),
   ("XSPI_IO4", .highZ),
   ("XSPI_IO5", .highZ), ("PCIE_PERST_N", .highZ),
   ("XSPI_IO6", .highZ), ("PCIE_CLKREQ_N", .openDrain),
   ("XSPI_IO7", .highZ), ("AVS_CLK", .low),
   ("AVS_MDATA", .high),
   ("AVS_SDATA", .highZ)] ++
  [("DP_HPD", .highZ), ("NAND_DQS_T", .highZ), ("NAND_DQS_C", .highZ),
   ("NAND_IO0", .highZ), ("NAND_IO1", .highZ), ("NAND_IO2", .highZ), ("NAND_IO3", .highZ),
   ("NAND_IO4", .highZ), ("NAND_IO5", .highZ), ("NAND_IO6", .highZ), ("NAND_IO7", .highZ),
   ("NAND_RE_T", .high), ("NAND_RE_C", .low), ("NAND_WE_N", .high), ("NAND_ALE", .low)] ++
  [("NAND_CLE", .low), ("NAND_WP_N", .low), ("NAND_RB_N", .highZ),
   ("NAND_CE_N[0]", .high), ("NAND_CE_N[1]", .high), ("NAND_CE_N[2]", .high), ("NAND_CE_N[3]", .high)]

/-- The TAP responds only while RESET_N is low and PWR_OK is high (R540). -/
def State.tapResponds (s : State) : Bool := !s.board.resetN && s.board.pwrOk

/-- Cells i, i + 1 and i + 2 of ball n are its input, output and output-enable cells (R540). -/
def cellAt (cells : List Bool) (n k : Nat) : Bool := cells.getD (3 * n + k) false

/-- The level at ball n: what the device drives there, else what the board applies. EXTEST drives a ball from its update
cells; an open drain drives only a low level. -/
def ballLevel (t : TapUnit) (n : Nat) (d : BallDrive) (board : Bool) : Bool :=
  if t.instr = .extest then
    if cellAt t.latch n 2 then
      if cellAt t.latch n 1 then (if d = .openDrain then board else true) else false
    else board
  else match d with
    | .low => false
    | .high => true
    | _ => board

/-- The three cells captured at ball n. SAMPLE takes what the device drives; the output cell of a ball that is not driven,
and the output and output-enable cells in EXTEST, are free (log 1, R540 does not state them). -/
def captureBall (t : TapUnit) (n : Nat) (d : BallDrive) (board : Bool) (free : Nat) : List Bool :=
  let inp := ballLevel t n d board
  if t.instr = .extest then [inp, bit free (2 * n), bit free (2 * n + 1)]
  else match d with
    | .low => [inp, false, true]
    | .high => [inp, true, true]
    | _ => [inp, bit free (2 * n), false]

/-- The boundary-scan register captured over the balls of a list, the first of them ball n. -/
def captureFrom (t : TapUnit) (board free : Nat) : Nat → List (String × BallDrive) → List Bool
  | _, [] => []
  | n, b :: bs => captureBall t n b.2 (bit board n) free ++ captureFrom t board free (n + 1) bs

/-- Shift bits through a register: each leaves at the head, and the next of JTAG_TDI enters at the tail (log 41). -/
def shiftBits : List Bool → List Bool → List Bool × List Bool
  | reg, [] => (reg, [])
  | reg, b :: bs =>
    match reg with
    | [] => (reg, b :: bs)
    | r :: rs => let p := shiftBits (rs ++ [b]) bs
      (p.1, r :: p.2)

/-- One scan of the boundary-scan register: capture, shift, update. -/
def scanBoundary (ins : TapInstr) (board : Nat) (tdi : List Bool) (s : State) : State :=
  let (free, s1) := s.draw
  let t := { s1.tap with instr := ins }
  let p := shiftBits (captureFrom t board free 0 scanBalls) tdi
  { s1 with tap := { t with cells := p.1, latch := p.1, tdo := p.2 } }

/-- BYPASS, and every other opcode: the bypass register lies between JTAG_TDI and JTAG_TDO, and captures 0 (R540, IEEE
1149.1). -/
def execBypass (tdi : List Bool) (s : State) : Out :=
  .next (if s.tapResponds then
    let p := shiftBits [false] tdi
    { s with tap := { s.tap with instr := .bypass, bypass := p.1.headD false, tdo := p.2 } } else s)

/-- SAMPLE/PRELOAD: the balls are sampled and the update cells loaded, without effect on the balls (R540). -/
def execSamplePreload (balls : BitVec 49) (tdi : List Bool) (s : State) : Out :=
  .next (if s.tapResponds then scanBoundary .samplePreload balls.toNat tdi s else s)

/-- EXTEST: the balls are driven from the update cells, and scanned (R540). -/
def execExtest (balls : BitVec 49) (tdi : List Bool) (s : State) : Out :=
  .next (if s.tapResponds then scanBoundary .extest balls.toNat tdi s else s)

end Sys2Proof.Machine
end

