-- ==== Sys2Proof/Machine/Reload.lean ====
section
/-! DEFINITION. The reload of a firmware processor (spec/07 R178–R180, R183, R187, R193, R194). -/
namespace Sys2Proof.Machine

/-- Processor p has been closed with cause 3 or 10 three times within 10 s (R179). -/
def State.thirdClose (s : State) (p : Nat) : Bool :=
  match (s.fw.closes.filter (fun c => c.1 = p)).map (fun c => c.2) with
  | t0 :: _ :: t2 :: _ => t0 ≤ t2 + 10000000
  | _ => false

/-- A reloaded Groundskeeper releases its leases recorded under its old epoch, lease 3 only after the commit of R69
(R187, R193). -/
def releaseStale (s : State) : State :=
  s.each (List.range 5) (fun l t =>
    if t.leaseHolder l = 0 ∧ t.get (F.fenceLeaseEpoch l) ≠ t.epoch 0 ∧ !(l = 3 && t.get F.planStatusPhase == 4) then
      grantNext l (freeLease l (leaseEnded l t))
    else t)

/-- The reloaded Groundskeeper completes a commit with DETAIL RESUMED (R69). -/
def resumeCommit (s : State) : State :=
  match s.plan.job with
  | some j => if s.get F.planStatusPhase = 4 then { s with plan := { s.plan with job := some { j with detail := 2 } } } else s
  | none => s

/-- The reload's place in the order of R194: the Groundskeeper's own, or with island 0 OPEN the lowest pending. -/
def State.reloadDue (s : State) (p : Nat) : Bool :=
  let pend := maskList 4 (s.get F.bootFwStatusPending)
  pend.contains p && s.hedge (procIsland p) == CLOSED && !s.boot.starting &&
    (p == 0 || (s.isOpen 0 && (pend.filter (fun q => q ≠ 0)).headD 0 == p))

/-- The processor runs its slot image, and its island opens; a RELOAD that waited for it completes (R183). -/
def runSlotImage (p : Nat) (s : State) : State :=
  let slot := s.get F.bootSlotRunning
  let v := bytesAt (s.flashRead (imageBase slot p + 0x10) 4) 0 4
  let s1 := { s with fw := { s.fw with running := setAt p .slot s.fw.running, wdogAt := setAt p s.timeUs s.fw.wdogAt } }
  let s2 := (s1.wr (R.bootFwVersion p) (BitVec.ofNat 32 v)).put F.bootFwStatusPending
    (listMask ((maskList 4 (s1.get F.bootFwStatusPending)).filter (fun q => q ≠ p)))
  let s3 := s2.when (s2.get F.bootWdogEventProcessor == p) (fun t => t.put F.bootWdogEventOutcome 0)
  let s4 := openIsland (procIsland p) s3
  let s5 := if s4.power = 1 then stopHedge (procIsland p) s4 else s4
  let s6 := if p = 0 then releaseStale (resumeCommit s5) else s5
  if s6.fw.reloadCmd = some p then finishFw 0 0 0 { s6 with fw := { s6.fw with reloadCmd := none } } else s6

/-- PROCESSOR_RELOAD (R178, R179): the image read through the ROM port either is readable or not. -/
def execProcessorReload (proc : Fin 4) (readOk : Bool) (s : State) : Out :=
  let p := proc.val
  .next (if !s.reloadDue p then s
    else if s.thirdClose p then reloadFails p 0x02 s
    else if !readOk ∨ s.regionDigest (s.get F.bootSlotRunning) p ≠ s.fw.digests.getD p 0 then reloadFails p 0x24 s
    else runSlotImage p s)

end Sys2Proof.Machine
end

