-- ==== Sys2Proof/Machine/Dispatch.lean ====
section
/-! DEFINITION. The meaning of every command: one arm per constructor of Instr, each one call. -/
namespace Sys2Proof.Machine

def exec (i : Instr) (s : State) : Host.Outcome State Fault Refusal :=
  match i with
  | .resetTarget w key target => Sys2Proof.Machine.execResetTarget w key target s
  | .clearTargetCounters w key target => Sys2Proof.Machine.execClearTargetCounters w key target s
  | .clearAllCounters w key => Sys2Proof.Machine.execClearAllCounters w key s
  | .hedgeOpen island => Sys2Proof.Machine.execHedgeOpen island s
  | .epochViewUpdate stop island => Sys2Proof.Machine.execEpochViewUpdate stop island s
  | .hedgeRequest src dst => Sys2Proof.Machine.execHedgeRequest src dst s
  | .hedgeReply src tag => Sys2Proof.Machine.execHedgeReply src tag s
  | .trellisAged => Sys2Proof.Machine.execTrellisAged s
  | .requestTagFree src => Sys2Proof.Machine.execRequestTagFree src s
  | .responseTimeout src tag hung => Sys2Proof.Machine.execResponseTimeout src tag hung s
  | .darkAccess w off write => Sys2Proof.Machine.execDarkAccess w off write s
  | .badAccess w off size write => Sys2Proof.Machine.execBadAccess w off size write s
  | .registerWrite w off lo hi => Sys2Proof.Machine.execRegisterWrite w off lo hi s
  | .load w key drain => Sys2Proof.Machine.execLoad w key drain s
  | .graft w key drain => Sys2Proof.Machine.execGraft w key drain s
  | .store w key => Sys2Proof.Machine.execStore w key s
  | .storeDone readBackOk => Sys2Proof.Machine.execStoreDone readBackOk s
  | .fallback w key drain => Sys2Proof.Machine.execFallback w key drain s
  | .planBurnFloor w key => Sys2Proof.Machine.execPlanBurnFloor w key s
  | .revokeKey w key slot => Sys2Proof.Machine.execRevokeKey w key slot s
  | .abort w key => Sys2Proof.Machine.execAbort w key s
  | .planCopyDone => Sys2Proof.Machine.execPlanCopyDone s
  | .planCheckDone => Sys2Proof.Machine.execPlanCheckDone s
  | .planDrainTimeout => Sys2Proof.Machine.execPlanDrainTimeout s
  | .planDrainDone => Sys2Proof.Machine.execPlanDrainDone s
  | .planCommitDone => Sys2Proof.Machine.execPlanCommitDone s
  | .resetNAssert => Sys2Proof.Machine.execResetNAssert s
  | .resetNDeassert => Sys2Proof.Machine.execResetNDeassert s
  | .pwrOkRise => Sys2Proof.Machine.execPwrOkRise s
  | .pwrOkFall => Sys2Proof.Machine.execPwrOkFall s
  | .railUndervoltage => Sys2Proof.Machine.execRailUndervoltage s
  | .powerGood => Sys2Proof.Machine.execPowerGood s
  | .fuseLoad eccOk strap1 strap0 testMode => Sys2Proof.Machine.execFuseLoad eccOk strap1 strap0 testMode s
  | .romCheck digestOk => Sys2Proof.Machine.execRomCheck digestOk s
  | .bootDir probe => Sys2Proof.Machine.execBootDir probe s
  | .gkVerify => Sys2Proof.Machine.execGkVerify s
  | .gkRun => Sys2Proof.Machine.execGkRun s
  | .pcieTrainingStart => Sys2Proof.Machine.execPcieTrainingStart s
  | .memTrain result => Sys2Proof.Machine.execMemTrain result s
  | .memRestore identity ranks capGib readBack => Sys2Proof.Machine.execMemRestore identity ranks capGib readBack s
  | .imagesVerify copiesOk => Sys2Proof.Machine.execImagesVerify copiesOk s
  | .calLoad => Sys2Proof.Machine.execCalLoad s
  | .planVerify shadowOk => Sys2Proof.Machine.execPlanVerify shadowOk s
  | .planApply => Sys2Proof.Machine.execPlanApply s
  | .nandReplay => Sys2Proof.Machine.execNandReplay s
  | .linksUp => Sys2Proof.Machine.execLinksUp s
  | .ready => Sys2Proof.Machine.execReady s
  | .startTimerExpiry => Sys2Proof.Machine.execStartTimerExpiry s
  | .dramClearDone => Sys2Proof.Machine.execDramClearDone s
  | .writeSlot w key slot image => Sys2Proof.Machine.execWriteSlot w key slot image s
  | .verifySlot w key slot => Sys2Proof.Machine.execVerifySlot w key slot s
  | .setPreferred w key slot => Sys2Proof.Machine.execSetPreferred w key slot s
  | .clearAttempts w key => Sys2Proof.Machine.execClearAttempts w key s
  | .bootBurnFloor w key => Sys2Proof.Machine.execBootBurnFloor w key s
  | .restartCold w key => Sys2Proof.Machine.execRestartCold w key s
  | .pwrRequest w key target drain => Sys2Proof.Machine.execPwrRequest w key target drain s
  | .softwareShadeExit w key => Sys2Proof.Machine.execSoftwareShadeExit w key s
  | .processorWait proc mode => Sys2Proof.Machine.execProcessorWait proc mode s
  | .sequenceDone => Sys2Proof.Machine.execSequenceDone s
  | .settleHalfTimeout => Sys2Proof.Machine.execSettleHalfTimeout s
  | .settleTimeout => Sys2Proof.Machine.execSettleTimeout s
  | .linkWaitTimeout => Sys2Proof.Machine.execLinkWaitTimeout s
  | .wakeNFall => Sys2Proof.Machine.execWakeNFall s
  | .rtcAlarm => Sys2Proof.Machine.execRtcAlarm s
  | .pwrTimerExpiry => Sys2Proof.Machine.execPwrTimerExpiry s
  | .pcieWake => Sys2Proof.Machine.execPcieWake s
  | .shadeTlpArrival tlp => Sys2Proof.Machine.execShadeTlpArrival tlp s
  | .heldTlpServe => Sys2Proof.Machine.execHeldTlpServe s
  | .shadeFrameArrival port frame => Sys2Proof.Machine.execShadeFrameArrival port frame s
  | .sensorSample raw rails => Sys2Proof.Machine.execSensorSample raw rails s
  | .softDwellExpiry throttle => Sys2Proof.Machine.execSoftDwellExpiry throttle s
  | .hwThrottle => Sys2Proof.Machine.execHwThrottle s
  | .hwThrottleRelease => Sys2Proof.Machine.execHwThrottleRelease s
  | .hwTrip => Sys2Proof.Machine.execHwTrip s
  | .tripWakeRelease => Sys2Proof.Machine.execTripWakeRelease s
  | .powerCapStep mw => Sys2Proof.Machine.execPowerCapStep mw s
  | .currentLimitSample mw => Sys2Proof.Machine.execCurrentLimitSample mw s
  | .sustainedPowerExpiry => Sys2Proof.Machine.execSustainedPowerExpiry s
  | .limitRatioRaise => Sys2Proof.Machine.execLimitRatioRaise s
  | .overvolt => Sys2Proof.Machine.execOvervolt s
  | .undervolt => Sys2Proof.Machine.execUndervolt s
  | .undervoltRelease => Sys2Proof.Machine.execUndervoltRelease s
  | .crystalLoss => Sys2Proof.Machine.execCrystalLoss s
  | .refclkLoss eth inL12 => Sys2Proof.Machine.execRefclkLoss eth inL12 s
  | .calRead w key => Sys2Proof.Machine.execCalRead w key s
  | .calWrite w key => Sys2Proof.Machine.execCalWrite w key s
  | .calReload w key => Sys2Proof.Machine.execCalReload w key s
  | .calMeasure w key arg mic readings => Sys2Proof.Machine.execCalMeasure w key arg mic readings s
  | .watchdogRestart proc => Sys2Proof.Machine.execWatchdogRestart proc s
  | .watchdogExpiry proc => Sys2Proof.Machine.execWatchdogExpiry proc s
  | .firmwareException proc => Sys2Proof.Machine.execFirmwareException proc s
  | .processorReload proc readOk => Sys2Proof.Machine.execProcessorReload proc readOk s
  | .romPortFlashTimeout proc => Sys2Proof.Machine.execRomPortFlashTimeout proc s
  | .hotSwap w key proc => Sys2Proof.Machine.execHotSwap w key proc s
  | .hotSwapSettleTimeout => Sys2Proof.Machine.execHotSwapSettleTimeout s
  | .firmwareReload w key proc => Sys2Proof.Machine.execFirmwareReload w key proc s
  | .leaseRequest lease island epoch recovery => Sys2Proof.Machine.execLeaseRequest lease island epoch recovery s
  | .leaseRenew lease island epoch => Sys2Proof.Machine.execLeaseRenew lease island epoch s
  | .leaseRelease lease island epoch => Sys2Proof.Machine.execLeaseRelease lease island epoch s
  | .nandSafePointDone => Sys2Proof.Machine.execNandSafePointDone s
  | .leaseRevocation lease => Sys2Proof.Machine.execLeaseRevocation lease s
  | .leaseTimerExpiry lease => Sys2Proof.Machine.execLeaseTimerExpiry lease s
  | .keymbLoad w key slot => Sys2Proof.Machine.execKeymbLoad w key slot s
  | .keymbClear w key slot => Sys2Proof.Machine.execKeymbClear w key slot s
  | .keymbClearAll w key => Sys2Proof.Machine.execKeymbClearAll w key s
  | .sqDoorbell fn ring tail => Sys2Proof.Machine.execSqDoorbell fn ring tail s
  | .cqDoorbell fn ring head => Sys2Proof.Machine.execCqDoorbell fn ring head s
  | .ringEnable fn cq ring => Sys2Proof.Machine.execRingEnable fn cq ring s
  | .ringDisable fn cq ring => Sys2Proof.Machine.execRingDisable fn cq ring s
  | .entryFetch ring => Sys2Proof.Machine.execEntryFetch ring s
  | .nop uid => Sys2Proof.Machine.execNop uid s
  | .hose uid => Sys2Proof.Machine.execHose uid s
  | .resume uid => Sys2Proof.Machine.execResume uid s
  | .cqCoalesceTimer ring => Sys2Proof.Machine.execCqCoalesceTimer ring s
  | .msixUnmask fn vector addr data mask => Sys2Proof.Machine.execMsixUnmask fn vector addr data mask s
  | .heartbeatBeat fn => Sys2Proof.Machine.execHeartbeatBeat fn s
  | .heartbeatLapse => Sys2Proof.Machine.execHeartbeatLapse s
  | .grant w key => Sys2Proof.Machine.execGrant w key s
  | .reclaim w key => Sys2Proof.Machine.execReclaim w key s
  | .functionReset fn cause => Sys2Proof.Machine.execFunctionReset fn cause s
  | .d3hotEntry fn => Sys2Proof.Machine.execD3hotEntry fn s
  | .busMasterEnable fn value => Sys2Proof.Machine.execBusMasterEnable fn value s
  | .pcieLinkDown => Sys2Proof.Machine.execPcieLinkDown s
  | .pcieLinkUp speed width => Sys2Proof.Machine.execPcieLinkUp speed width s
  | .fnWrite w fn base count => Sys2Proof.Machine.execFnWrite w fn base count s
  | .ringOwnerWrite w ring sqFn cqFn => Sys2Proof.Machine.execRingOwnerWrite w ring sqFn cqFn s
  | .bar4Access off len data => Sys2Proof.Machine.execBar4Access off len data s
  | .smbusPacket bytes => Sys2Proof.Machine.execSmbusPacket bytes s
  | .mctpReassemblyTimeout who => Sys2Proof.Machine.execMctpReassemblyTimeout who s
  | .setEndpointId who inst body => Sys2Proof.Machine.execSetEndpointId who inst body s
  | .getEndpointId who inst body => Sys2Proof.Machine.execGetEndpointId who inst body s
  | .getEndpointUuid who inst body => Sys2Proof.Machine.execGetEndpointUuid who inst body s
  | .getMctpVersionSupport who inst body => Sys2Proof.Machine.execGetMctpVersionSupport who inst body s
  | .getMessageTypeSupport who inst body => Sys2Proof.Machine.execGetMessageTypeSupport who inst body s
  | .getVendorDefinedMessageSupport who inst body => Sys2Proof.Machine.execGetVendorDefinedMessageSupport who inst body s
  | .setTid who inst body => Sys2Proof.Machine.execSetTid who inst body s
  | .getTid who inst body => Sys2Proof.Machine.execGetTid who inst body s
  | .getPldmVersion who inst body => Sys2Proof.Machine.execGetPldmVersion who inst body s
  | .getPldmTypes who inst body => Sys2Proof.Machine.execGetPldmTypes who inst body s
  | .getPldmCommands who inst body => Sys2Proof.Machine.execGetPldmCommands who inst body s
  | .getSensorReading who inst body => Sys2Proof.Machine.execGetSensorReading who inst body s
  | .getStateSensorReadings who inst body => Sys2Proof.Machine.execGetStateSensorReadings who inst body s
  | .getPdrRepositoryInfo who inst body => Sys2Proof.Machine.execGetPdrRepositoryInfo who inst body s
  | .getPdr who inst body => Sys2Proof.Machine.execGetPdr who inst body s
  | .getStatus who flags body => Sys2Proof.Machine.execGetStatus who flags body s
  | .getBootFail who flags body => Sys2Proof.Machine.execGetBootFail who flags body s
  | .readReg who flags body => Sys2Proof.Machine.execReadReg who flags body s
  | .writeReg who flags body => Sys2Proof.Machine.execWriteReg who flags body s
  | .stageWrite who flags body => Sys2Proof.Machine.execStageWrite who flags body s
  | .tokenQuery who flags body => Sys2Proof.Machine.execTokenQuery who flags body s
  | .tokenYield who flags body => Sys2Proof.Machine.execTokenYield who flags body s
  | .wake who flags body => Sys2Proof.Machine.execWake who flags body s
  | .arbitrationRetry => Sys2Proof.Machine.execArbitrationRetry s
  | .alertResponse => Sys2Proof.Machine.execAlertResponse s
  | .addressMatch => Sys2Proof.Machine.execAddressMatch s
  | .shedAccess src channel pa keySel noAlloc len data => Sys2Proof.Machine.execShedAccess src channel pa keySel noAlloc len data s
  | .shedFillDone pa corrected uncorrectable => Sys2Proof.Machine.execShedFillDone pa corrected uncorrectable s
  | .eccScrub corrected uncorrectable => Sys2Proof.Machine.execEccScrub corrected uncorrectable s
  | .qosWindow channel => Sys2Proof.Machine.execQosWindow channel s
  | .refreshRateChange channel doubled => Sys2Proof.Machine.execRefreshRateChange channel doubled s
  | .shedFill w key slice entry => Sys2Proof.Machine.execShedFill w key slice entry s
  | .shedWriteback w key slice entry => Sys2Proof.Machine.execShedWriteback w key slice entry s
  | .shedFlush w key => Sys2Proof.Machine.execShedFlush w key s
  | .translationWalk island allot va access stream => Sys2Proof.Machine.execTranslationWalk island allot va access stream s
  | .batchTimeout fn => Sys2Proof.Machine.execBatchTimeout fn s
  | .batchWrite fn => Sys2Proof.Machine.execBatchWrite fn s
  | .faultTimeout stream => Sys2Proof.Machine.execFaultTimeout stream s
  | .invalAll fn key => Sys2Proof.Machine.execInvalAll fn key s
  | .invalAllot fn key allot => Sys2Proof.Machine.execInvalAllot fn key allot s
  | .invalRange fn key allot => Sys2Proof.Machine.execInvalRange fn key allot s
  | .invalidationDone => Sys2Proof.Machine.execInvalidationDone s
  | .faultRingEnable fn ring => Sys2Proof.Machine.execFaultRingEnable fn ring s
  | .slabCredit engine channel => Sys2Proof.Machine.execSlabCredit engine channel s
  | .releaseAdd w engine channel add => Sys2Proof.Machine.execReleaseAdd w engine channel add s
  | .hoseCfgWrite w engine channel value => Sys2Proof.Machine.execHoseCfgWrite w engine channel value s
  | .bedNop bed slot => Sys2Proof.Machine.execBedNop bed slot s
  | .endWave bed slot => Sys2Proof.Machine.execEndWave bed slot s
  | .br bed slot => Sys2Proof.Machine.execBr bed slot s
  | .brp bed slot => Sys2Proof.Machine.execBrp bed slot s
  | .call bed slot => Sys2Proof.Machine.execCall bed slot s
  | .ret bed slot => Sys2Proof.Machine.execRet bed slot s
  | .brk bed slot => Sys2Proof.Machine.execBrk bed slot s
  | .sleep bed slot => Sys2Proof.Machine.execSleep bed slot s
  | .sleepExpiry bed slot => Sys2Proof.Machine.execSleepExpiry bed slot s
  | .execp bed slot => Sys2Proof.Machine.execExecp bed slot s
  | .mov bed slot => Sys2Proof.Machine.execMov bed slot s
  | .add bed slot => Sys2Proof.Machine.execAdd bed slot s
  | .sub bed slot => Sys2Proof.Machine.execSub bed slot s
  | .mul bed slot => Sys2Proof.Machine.execMul bed slot s
  | .fma bed slot => Sys2Proof.Machine.execFma bed slot s
  | .mad bed slot => Sys2Proof.Machine.execMad bed slot s
  | .mulhi bed slot => Sys2Proof.Machine.execMulhi bed slot s
  | .min bed slot => Sys2Proof.Machine.execMin bed slot s
  | .max bed slot => Sys2Proof.Machine.execMax bed slot s
  | .and bed slot => Sys2Proof.Machine.execAnd bed slot s
  | .or bed slot => Sys2Proof.Machine.execOr bed slot s
  | .xor bed slot => Sys2Proof.Machine.execXor bed slot s
  | .not bed slot => Sys2Proof.Machine.execNot bed slot s
  | .shl bed slot => Sys2Proof.Machine.execShl bed slot s
  | .shr bed slot => Sys2Proof.Machine.execShr bed slot s
  | .sar bed slot => Sys2Proof.Machine.execSar bed slot s
  | .sel bed slot => Sys2Proof.Machine.execSel bed slot s
  | .clamp bed slot => Sys2Proof.Machine.execClamp bed slot s
  | .floor bed slot => Sys2Proof.Machine.execFloor bed slot s
  | .ceil bed slot => Sys2Proof.Machine.execCeil bed slot s
  | .rndne bed slot => Sys2Proof.Machine.execRndne bed slot s
  | .fract bed slot => Sys2Proof.Machine.execFract bed slot s
  | .rcp bed slot => Sys2Proof.Machine.execRcp bed slot s
  | .rsq bed slot => Sys2Proof.Machine.execRsq bed slot s
  | .sqrt bed slot => Sys2Proof.Machine.execSqrt bed slot s
  | .exp2 bed slot => Sys2Proof.Machine.execExp2 bed slot s
  | .log2 bed slot => Sys2Proof.Machine.execLog2 bed slot s
  | .sin bed slot => Sys2Proof.Machine.execSin bed slot s
  | .cos bed slot => Sys2Proof.Machine.execCos bed slot s
  | .dot4 bed slot => Sys2Proof.Machine.execDot4 bed slot s
  | .dot2 bed slot => Sys2Proof.Machine.execDot2 bed slot s
  | .popc bed slot => Sys2Proof.Machine.execPopc bed slot s
  | .clz bed slot => Sys2Proof.Machine.execClz bed slot s
  | .bfe bed slot => Sys2Proof.Machine.execBfe bed slot s
  | .bfi bed slot => Sys2Proof.Machine.execBfi bed slot s
  | .eq bed slot => Sys2Proof.Machine.execEq bed slot s
  | .ne bed slot => Sys2Proof.Machine.execNe bed slot s
  | .lt bed slot => Sys2Proof.Machine.execLt bed slot s
  | .le bed slot => Sys2Proof.Machine.execLe bed slot s
  | .gt bed slot => Sys2Proof.Machine.execGt bed slot s
  | .ge bed slot => Sys2Proof.Machine.execGe bed slot s
  | .ord bed slot => Sys2Proof.Machine.execOrd bed slot s
  | .unord bed slot => Sys2Proof.Machine.execUnord bed slot s
  | .test bed slot => Sys2Proof.Machine.execTest bed slot s
  | .pand bed slot => Sys2Proof.Machine.execPand bed slot s
  | .por bed slot => Sys2Proof.Machine.execPor bed slot s
  | .pxor bed slot => Sys2Proof.Machine.execPxor bed slot s
  | .pnot bed slot => Sys2Proof.Machine.execPnot bed slot s
  | .cvt bed slot => Sys2Proof.Machine.execCvt bed slot s
  | .ldb bed slot => Sys2Proof.Machine.execLdb bed slot s
  | .stb bed slot => Sys2Proof.Machine.execStb bed slot s
  | .atomb bed slot => Sys2Proof.Machine.execAtomb bed slot s
  | .ldg bed slot => Sys2Proof.Machine.execLdg bed slot s
  | .stg bed slot => Sys2Proof.Machine.execStg bed slot s
  | .atomg bed slot => Sys2Proof.Machine.execAtomg bed slot s
  | .prefetch bed slot => Sys2Proof.Machine.execPrefetch bed slot s
  | .sample bed slot => Sys2Proof.Machine.execSample bed slot s
  | .gather4 bed slot => Sys2Proof.Machine.execGather4 bed slot s
  | .loadtex bed slot => Sys2Proof.Machine.execLoadtex bed slot s
  | .loadDataArrival bed index => Sys2Proof.Machine.execLoadDataArrival bed index s
  | .bar bed slot => Sys2Proof.Machine.execBar bed slot s
  | .fence bed slot => Sys2Proof.Machine.execFence bed slot s
  | .semWait bed slot => Sys2Proof.Machine.execSemWait bed slot s
  | .semTake bed slot => Sys2Proof.Machine.execSemTake bed slot s
  | .semAdd bed slot => Sys2Proof.Machine.execSemAdd bed slot s
  | .semSet bed slot => Sys2Proof.Machine.execSemSet bed slot s
  | .hrelease bed slot => Sys2Proof.Machine.execHrelease bed slot s
  | .semaphoreUpdate bed => Sys2Proof.Machine.execSemaphoreUpdate bed s
  | .waitTimeout bed slot => Sys2Proof.Machine.execWaitTimeout bed slot s
  | .tmma bed slot => Sys2Proof.Machine.execTmma bed slot s
  | .tsparse bed slot => Sys2Proof.Machine.execTsparse bed slot s
  | .taccStore bed slot => Sys2Proof.Machine.execTaccStore bed slot s
  | .taccRead bed slot => Sys2Proof.Machine.execTaccRead bed slot s
  | .taccWrite bed slot => Sys2Proof.Machine.execTaccWrite bed slot s
  | .twait bed slot => Sys2Proof.Machine.execTwait bed slot s
  | .tensorEntryDone bed => Sys2Proof.Machine.execTensorEntryDone bed s
  | .shfl bed slot => Sys2Proof.Machine.execShfl bed slot s
  | .shflx bed slot => Sys2Proof.Machine.execShflx bed slot s
  | .readlane bed slot => Sys2Proof.Machine.execReadlane bed slot s
  | .writelane bed slot => Sys2Proof.Machine.execWritelane bed slot s
  | .radd bed slot => Sys2Proof.Machine.execRadd bed slot s
  | .rmin bed slot => Sys2Proof.Machine.execRmin bed slot s
  | .rmax bed slot => Sys2Proof.Machine.execRmax bed slot s
  | .ballot bed slot => Sys2Proof.Machine.execBallot bed slot s
  | .scan bed slot => Sys2Proof.Machine.execScan bed slot s
  | .trapClear w bed => Sys2Proof.Machine.execTrapClear w bed s
  | .numxClear w bed what all => Sys2Proof.Machine.execNumxClear w bed what all s
  | .gemm uid => Sys2Proof.Machine.execGemm uid s
  | .conv uid => Sys2Proof.Machine.execConv uid s
  | .dwconv uid => Sys2Proof.Machine.execDwconv uid s
  | .pool uid => Sys2Proof.Machine.execPool uid s
  | .eltwise uid => Sys2Proof.Machine.execEltwise uid s
  | .reduce uid => Sys2Proof.Machine.execReduce uid s
  | .gather uid => Sys2Proof.Machine.execGather uid s
  | .embedMatch uid => Sys2Proof.Machine.execEmbedMatch uid s
  | .program uid => Sys2Proof.Machine.execProgram uid s
  | .tileStart bed => Sys2Proof.Machine.execTileStart bed s
  | .tileComplete bed => Sys2Proof.Machine.execTileComplete bed s
  | .maxTileTimeExpiry bed => Sys2Proof.Machine.execMaxTileTimeExpiry bed s
  | .bedRestore bed => Sys2Proof.Machine.execBedRestore bed s
  | .rakeRaster uid => Sys2Proof.Machine.execRakeRaster uid s
  | .rakeFusion uid => Sys2Proof.Machine.execRakeFusion uid s
  | .binningDone => Sys2Proof.Machine.execBinningDone s
  | .resolveDone uid => Sys2Proof.Machine.execResolveDone uid s
  | .hpdRise sink => Sys2Proof.Machine.execHpdRise sink s
  | .hpdLow => Sys2Proof.Machine.execHpdLow s
  | .irqHpd sink => Sys2Proof.Machine.execIrqHpd sink s
  | .retrain w enable => Sys2Proof.Machine.execRetrain w enable s
  | .flipArm w high => Sys2Proof.Machine.execFlipArm w high s
  | .vblankStart => Sys2Proof.Machine.execVblankStart s
  | .auxNativeRead w addr len => Sys2Proof.Machine.execAuxNativeRead w addr len s
  | .auxNativeWrite w addr len => Sys2Proof.Machine.execAuxNativeWrite w addr len s
  | .auxI2cRead w addr len => Sys2Proof.Machine.execAuxI2cRead w addr len s
  | .frameReceive port sub frame => Sys2Proof.Machine.execFrameReceive port sub frame s
  | .frameTransmit dest => Sys2Proof.Machine.execFrameTransmit dest s
  | .macAgeOut vid mac => Sys2Proof.Machine.execMacAgeOut vid mac s
  | .portLinkChange port sub up => Sys2Proof.Machine.execPortLinkChange port sub up s
  | .vnicRxTail w tail => Sys2Proof.Machine.execVnicRxTail w tail s
  | .vnicTxTail w tail => Sys2Proof.Machine.execVnicTxTail w tail s
  | .ptpMessage msg => Sys2Proof.Machine.execPtpMessage msg s
  | .syncTimeout => Sys2Proof.Machine.execSyncTimeout s
  | .slotStart w slot cfg => Sys2Proof.Machine.execSlotStart w slot cfg s
  | .slotStop w slot cfg => Sys2Proof.Machine.execSlotStop w slot cfg s
  | .slotStopDone slot => Sys2Proof.Machine.execSlotStopDone slot s
  | .rtpPacket => Sys2Proof.Machine.execRtpPacket s
  | .reorderTimeout slot => Sys2Proof.Machine.execReorderTimeout slot s
  | .ssrcSwitch slot => Sys2Proof.Machine.execSsrcSwitch slot s
  | .srtpKeyCommit w slot key7 => Sys2Proof.Machine.execSrtpKeyCommit w slot key7 s
  | .rtcpPacket => Sys2Proof.Machine.execRtcpPacket s
  | .feedDoorbell w slot tail => Sys2Proof.Machine.execFeedDoorbell w slot tail s
  | .feedCopyDone slot => Sys2Proof.Machine.execFeedCopyDone slot s
  | .auDecoded engine result => Sys2Proof.Machine.execAuDecoded engine result s
  | .frameReleaseAdd w slot add => Sys2Proof.Machine.execFrameReleaseAdd w slot add s
  | .groupEnable w group cfg => Sys2Proof.Machine.execGroupEnable w group cfg s
  | .compress uid => Sys2Proof.Machine.execCompress uid s
  | .decompress uid => Sys2Proof.Machine.execDecompress uid s
  | .furrowJobDone => Sys2Proof.Machine.execFurrowJobDone s
  | .query uid => Sys2Proof.Machine.execQuery uid s
  | .create uid => Sys2Proof.Machine.execCreate uid s
  | .appendMem uid => Sys2Proof.Machine.execAppendMem uid s
  | .appendPkt uid => Sys2Proof.Machine.execAppendPkt uid s
  | .sealClip uid => Sys2Proof.Machine.execSealClip uid s
  | .evidenceRead uid => Sys2Proof.Machine.execEvidenceRead uid s
  | .delete uid => Sys2Proof.Machine.execDelete uid s
  | .volumeCreate uid => Sys2Proof.Machine.execVolumeCreate uid s
  | .volumeDelete uid => Sys2Proof.Machine.execVolumeDelete uid s
  | .format uid => Sys2Proof.Machine.execFormat uid s
  | .nandProgramDone ce ok => Sys2Proof.Machine.execNandProgramDone ce ok s
  | .nandReadDone ce words => Sys2Proof.Machine.execNandReadDone ce words s
  | .nandEraseDone ce ok => Sys2Proof.Machine.execNandEraseDone ce ok s
  | .upkeep => Sys2Proof.Machine.execUpkeep s
  | .scrubDue => Sys2Proof.Machine.execScrubDue s
  | .acousticFrame pcm => Sys2Proof.Machine.execAcousticFrame pcm s
  | .settlingEnd => Sys2Proof.Machine.execSettlingEnd s
  | .prerollRead w key => Sys2Proof.Machine.execPrerollRead w key s
  | .prerollRelease w key => Sys2Proof.Machine.execPrerollRelease w key s
  | .firedClear w => Sys2Proof.Machine.execFiredClear w s
  | .voltageSettled => Sys2Proof.Machine.execVoltageSettled s
  | .avsResponse good => Sys2Proof.Machine.execAvsResponse good s
  | .avsFault => Sys2Proof.Machine.execAvsFault s
  | .bypass tdi => Sys2Proof.Machine.execBypass tdi s
  | .samplePreload balls tdi => Sys2Proof.Machine.execSamplePreload balls tdi s
  | .extest balls tdi => Sys2Proof.Machine.execExtest balls tdi s
  | .configurationRequest fn item value => Sys2Proof.Machine.execConfigurationRequest fn item value s
  | .hostCompletion id result => Sys2Proof.Machine.execHostCompletion id result s
  | .completionTimeout id => Sys2Proof.Machine.execCompletionTimeout id s
  | .alertNPulseEnd => Sys2Proof.Machine.execAlertNPulseEnd s
  | .scanoutLine late => Sys2Proof.Machine.execScanoutLine late s
  | .auxReply reply => Sys2Proof.Machine.execAuxReply reply s
  | .appendPktToNs clip => Sys2Proof.Machine.execAppendPktToNs clip s
  | .powerOnDetect => Sys2Proof.Machine.execPowerOnDetect s
  | .powerOnRelease => Sys2Proof.Machine.execPowerOnRelease s

end Sys2Proof.Machine
end

