-- ==== Sys2Proof/Machine/Tick.lean ====
section
/-! DEFINITION. What a microsecond of device time does by itself: the timers that the spec lets a register show count
(log entry 16). Everything that a timer then causes is a command of its own. -/
namespace Sys2Proof.Machine

/-- The age fields in milliseconds that count with device time: lease ages while a lease is held (Table 7.4) and the
heartbeat age while the heartbeat is armed (Table 8.10). -/
def tickMs (s : State) : State :=
  let s1 := s.each (List.range 5) (fun l t =>
    if t.get (F.fenceLeaseHolder l) = 0x7F then t else t.bump (F.fenceLeaseAgeMs l) 1)
  if s1.get F.hostqHeartbeatArmed = 1 ∧ s1.inBloom ∧ s1.get F.hostqTokenHolder = 0 then s1.bump F.hostqHeartbeatAgeMs 1 else s1

/-- Device time of the switch goes on by a microsecond while its island has power, and a correction is slewed at 100 ppm:
one nanosecond in 10 µs (R434, R435). -/
def tickNs (s : State) : State :=
  if s.isShut 61 then s
  else
    let n := s.rd64 R.intakeTimeNow + 1000
    if s.switch.slew = 0 ∨ s.timeUs % 10 ≠ 0 then s.wr64 R.intakeTimeNow n
    else if 0 < s.switch.slew then
      { s with switch := { s.switch with slew := s.switch.slew - 1 } }.wr64 R.intakeTimeNow (n + 1)
    else { s with switch := { s.switch with slew := s.switch.slew + 1 } }.wr64 R.intakeTimeNow (n - 1)

/-- One microsecond passes. -/
def tick (s : State) : State :=
  let s1 := tickNs { s with timeUs := s.timeUs + 1 }
  if s1.timeUs % 1000 = 0 then tickMs s1 else s1

end Sys2Proof.Machine
end

