-- ==== Sys2Proof/Safety.lean ====
section
/-! DEFINITION. What claims call a well-formed state and a completed command. -/
namespace Sys2Proof.Machine

/-- Every sparse store is in its canonical form: the register words over their Cold values, and the byte stores over
what an unwritten byte reads as. -/
def State.wf (s : State) : Prop :=
  cellWf coldWord s.regs = true ∧ Memory.wf ramFill s.mem.dram ∧ Memory.wf ramFill s.mem.bedMem ∧
    Memory.wf ramFill s.mem.host ∧ Memory.wf flashFill s.mem.flash

/-- A command completes with a next state that satisfies a property. -/
def Completes (o : Host.Outcome State Fault Refusal) (p : State → Prop) : Prop := ∃ t, o = .next t ∧ p t

/-- The fuses hold four plan key slots and two image key slots, and floors of 0 to 63 (R49, R50, R110, R118). -/
def Fuses.wf (f : Fuses) : Prop :=
  f.planKeys.length = 4 ∧ f.imageKeys.length = 2 ∧ f.planFloor ≤ 63 ∧ f.imageFloor ≤ 63

/-- Fuses g hold everything that is burnt in f: no floor is lower and no revoked slot is usable again; what the factory
fused is the same (R49, R50, R118). -/
def Fuses.burntIn (f g : Fuses) : Prop :=
  f.planFloor ≤ g.planFloor ∧ f.imageFloor ≤ g.imageFloor ∧ g.imageKeys = f.imageKeys ∧ g.variant = f.variant ∧
    g.uuid = f.uuid ∧ ∀ (k : Nat) (x y : KeySlot), f.planKeys[k]? = some x → g.planKeys[k]? = some y →
      y.digest = x.digest ∧ y.provisioned = x.provisioned ∧ (x.revoked = true → y.revoked = true)

/-- A writer's access to a BAR0 register acts at once: the device is not in Fallow, where the access would wake it
first, and the access passes every test of R557. -/
def State.reaches (s : State) (w : Writer) (off : Nat) : Prop := s.power ≠ 2 ∧ s.judge w off 4 = .serve

/-! An instruction of a bed wave (R322–R327, R350) -/

/-- Wave w of order o in a slot of bed n is at the instruction with base word v and extension word x (0 where EXT is 0):
the bed is open, the wave is ready, its program counter is aligned and the words lie in one line of the instruction
cache, CLASS and OP are listed, none of the wave's registers waits for a load or a tensor entry, and no operand is
TIME_LO. -/
def State.issues (s : State) (n slot : Nat) (w : Wave) (o : Order) (v x : Nat) : Prop :=
  s.isOpen (n + 4) = true ∧ s.wave n slot = some w ∧ s.order w.uid = some o ∧ w.wait = .ready ∧ w.pc % 8 = 0 ∧
    w.pc % 64 ≠ 56 ∧
    (∃ bs, (s.bedAt n).icache.find? (fun l => l.1 = o.allot && l.2.1 = w.pc / 64 * 64) = some (o.allot, w.pc / 64 * 64, bs) ∧
      v = bytesAt bs (w.pc % 64) 8 ∧ x = if iExt v then bytesAt bs (w.pc % 64 + 8) 8 else 0) ∧
    listed (iClass v) (iOp v) = true ∧ iA v ≠ 0x126 ∧ iB v ≠ 0x126 ∧ iC v ≠ 0x126 ∧ (s.bedAt n).locked slot = []

/-- What that instruction is executed with. -/
def State.ctx (s : State) (n : Nat) (w : Wave) (o : Order) (v x : Nat) : Ctx :=
  ⟨n, w, o, v, x, s.draw.1 % 2 ^ 32, s.fresh + 1⟩

/-- The state in which it acts: the wave is past it and BEDn_ISSUED has counted it. -/
def State.afterIssue (s : State) (n : Nat) (w : Wave) (v : Nat) : State :=
  let s1 := { s with fresh := s.fresh + 257 }
  putWave n { w with pc := w.pc + if iExt v then 16 else 8 } (s1.wr64 (R.bedIssued n) ((s1.rd64 (R.bedIssued n) + 1) % 2 ^ 64))

/-- The value of a vector register for a thread. -/
def Wave.vreg (w : Wave) (code t : Nat) : Nat := cellGet vZero w.vregs (code * 32 + t)

/-! A block of a furrow stream (R464, R465), without the memory that a job works on -/

/-- The bits of tokens that lie one after another from element p. -/
def tokensBits (get : Nat → Nat) (w : Nat) (table : List Nat) : Nat → List Token → List Bool
  | _, [] => []
  | p, k :: ks => tokenBits get w table p k ++ tokensBits get w table (p + k.len) ks

/-- n elements copied from `dist` elements before, in ascending order (R465). -/
def copyElems (dist : Nat) : Nat → List Nat → List Nat
  | 0, out => out
  | n + 1, out => copyElems dist n (out ++ [out.getD (out.length - dist) 0])

/-- The elements that a block's bits add to those before it, up to END_BLOCK, with what follows; the model's own
`parseToken` reads each token, RAW_POS being what has come out so far. -/
def readBlock (st : FurrowState) : Nat → List Bool → List Nat → Option (List Nat × List Bool)
  | 0, _, _ => none
  | fuel + 1, bits, out =>
    let w := 8 * st.esz
    match parseToken { st with rawPos := out.length * st.esz } bits with
    | .closes r => some (out, r)
    | .lit n r =>
      if r.length < n * w then none
      else readBlock st fuel (r.drop (n * w)) (out ++ (List.range n).map (fun i => bitsNat ((r.drop (i * w)).take w)))
    | .run n r => if r.length < w then none else readBlock st fuel (r.drop w) (out ++ List.replicate n (bitsNat (r.take w)))
    | .row n d r => readBlock st fuel r (copyElems (d * st.row) n out)
    | _ => none

end Sys2Proof.Machine
end

