-- ==== Sys2Proof/Certificates/Slice0/Obligations.lean ====
section
/-! DEFINITION. The statements for the provers (OBLIGATIONS.json): first the queue, then chapter by chapter of spec/. -/
open Sys2Proof Sys2Proof.Machine

/-- A step at a state whose queue has a command in front is exec of that command on the state with the queue's rest. -/
def Obligations.StepRunsFront : Prop :=
  ∀ (s : State) (c : Instr) (rest : List Instr), s.pending = c :: rest → step s = exec c { s with pending := rest }

/-- State.reset is well-formed: canonical stores, four plan and two image key slots, floors of 0 to 63, an empty queue. -/
def Obligations.ResetMeetsInvariants : Prop :=
  State.reset.wf ∧ State.reset.boot.fuses.wf ∧ State.reset.pending = []

/-- R49, R50, R118: the fuses' burns are irreversible, under every command. -/
def Obligations.FusesOnlyRise : Prop :=
  ∀ s t : State, s.boot.fuses.wf → step s = .next t → t.boot.fuses.wf ∧ s.boot.fuses.burntIn t.boot.fuses

/-- R44: RESET_TARGET completes; a refused write sets RESULT alone, an accepted one runs `acceptReset`. -/
def Obligations.IslandCtrlReset : Prop :=
  ∀ (s : State) (w : Writer) (key : BitVec 16) (target : BitVec 7), s.reaches w R.islandCtrl →
    let n := target.toNat
    let r := if key ≠ 0x1A1D then 4 else if s.hasToken w = false then 2
      else if ¬ ((4 ≤ n ∧ n ≤ 51) ∨ (62 ≤ n ∧ n ≤ 66) ∨ n = 71) then 1
      else if (4 ≤ n ∧ n ≤ 51) ∧ bit s.reserveBeds (n - 4) = true then 3
      else if s.hedge n = 0 then 5 else 0
    (r ≠ 0 → ∃ t, exec (.resetTarget w key target) s = .next t ∧ t = s.put F.islandCtrlStatusResult r ∧
      t.get F.islandCtrlStatusResult = r ∧ t.get F.islandCtrlStatusBusy = s.get F.islandCtrlStatusBusy ∧
      ∀ m, m < 72 → t.hedge m = s.hedge m) ∧
    (r = 0 → ∃ t, exec (.resetTarget w key target) s = .next t ∧
      t = noteOrigin 6 w (acceptReset n (s.put F.islandCtrlStatusResult 0)))

/-- R44, Tables 1.8–1.11: CLEAR_TARGET_COUNTERS and CLEAR_ALL_COUNTERS. -/
def Obligations.IslandCtrlCounters : Prop :=
  ∀ (s : State) (w : Writer) (key : BitVec 16) (target : BitVec 7), s.reaches w R.islandCtrl →
    (key ≠ 0x1A1D →
      exec (.clearTargetCounters w key target) s = .next (s.put F.islandCtrlStatusResult 4) ∧
      exec (.clearAllCounters w key) s = .next (s.put F.islandCtrlStatusResult 4)) ∧
    (key = 0x1A1D →
      (target.toNat < 72 → ∃ t, exec (.clearTargetCounters w key target) s = .next t ∧
        t.rd (R.islandCount target.toNat) = 0 ∧ t.rd (R.islandDiscard target.toNat) = 0 ∧
        t.get F.islandCtrlStatusResult = 0 ∧ t = { s with regs := t.regs } ∧
        ∀ o, o ≠ R.islandCtrlStatus → o ≠ R.islandCount target.toNat → o ≠ R.islandDiscard target.toNat → t.rd o = s.rd o) ∧
      ∃ t, exec (.clearAllCounters w key) s = .next t ∧ t.get F.islandCtrlStatusResult = 0 ∧ t = { s with regs := t.regs } ∧
        ∀ n, n < 72 → t.rd (R.islandCount n) = 0 ∧ t.rd (R.islandDiscard n) = 0)

/-- R25 with R22, R32: HEDGE_REQUEST and HEDGE_REPLY at OPEN hedges. -/
def Obligations.OpenHedgeComparesEpochs : Prop :=
  (∀ (s : State) (src dst : Fin 72) (g : Nat), s.hedge src = OPEN → src ≠ dst → s.freeTag src = some g →
    s.stopPowered dst = true → s.hedge dst = OPEN →
    ∃ t, exec (.hedgeRequest src dst) s = .next t ∧
      (s.view src dst = s.epoch dst →
        t = { s with isl := { s.isl with tracked := ⟨src, dst, g, s.epoch dst, s.epoch src, false⟩ :: s.isl.tracked } }) ∧
      (s.view src dst ≠ s.epoch dst →
        t.get (F.islandCountStaleSent dst) = min 0xFFFF (s.get (F.islandCountStaleSent dst) + 1) ∧
        t.isl.errors = (src.val, BitVec.ofNat 32 (s.errorWord 0x10 dst)) :: s.isl.errors ∧
        t.isl.tracked = s.isl.tracked.filter (fun x => x != ⟨src, dst, g, s.view src dst, s.epoch src, false⟩) ∧
        t.mem = s.mem)) ∧
  (∀ (s : State) (src : Fin 72) (tag : Fin 64) (x : Tracked), s.hedge src = OPEN →
    s.isl.tracked.find? (fun t => t.src = src.val && t.tag = tag.val && !t.held) = some x →
    (src.val, tag.val) ∉ s.isl.heldReplies →
    ∃ t, exec (.hedgeReply src tag) s = .next t ∧ t.isl.tracked = s.isl.tracked.filter (fun y => y != x) ∧
      (x.srcEpoch = s.epoch src → t.regs = s.regs) ∧
      (x.srcEpoch ≠ s.epoch src → t.rd (R.islandDiscard src) =
        BitVec.ofNat 32 (min 0xFFFFFFFF ((s.rd (R.islandDiscard src)).toNat + 1))) ∧ t.mem = s.mem)

/-- R20, R21, R28–R30: the events of hedges and trellis stops complete. -/
def Obligations.HedgeEventsComplete : Prop :=
  ∀ s : State,
  (∀ n : Fin 72, s.mayOpen n = true → s.power ≠ 1 → ∃ s1 : State, s1.hedge n = OPEN ∧
    s1.epoch n = (s.epoch n + 1) % 256 ∧ (∀ m, m < 72 → m ≠ n.val → s1.hedge m = s.hedge m ∧ s1.epoch m = s.epoch m) ∧
    s1 = { s with regs := s1.regs } ∧
    ∃ t, exec (.hedgeOpen n) s = .next t ∧ (t = refreshUrgent (releaseHeld n (openUnits n (clearCtrlBusy n
      (setClock n (broadcast n (clearTlb n s1)))))) ∨ t = stopHedge n (refreshUrgent (releaseHeld n (openUnits n (clearCtrlBusy n
      (setClock n (broadcast n (clearTlb n s1)))))))) ) ∧
  (∀ (stop n : Fin 72) (b : Broadcast),
    s.isl.broadcasts.find? (fun b => b.island = n.val && b.stops.contains stop.val) = some b →
    ∃ t, exec (.epochViewUpdate stop n) s = .next t ∧ t.view stop n = b.epoch ∧ t.regs = s.regs ∧ t.mem = s.mem ∧
      ∀ st m : Fin 72, (st, m) ≠ (stop, n) → t.view st m = s.view st m) ∧
  (exec .trellisAged s = .next (s.put F.globalStatusTrellisAged
    (min (s.get F.globalStatusTrellisAged + 1) (2 ^ F.globalStatusTrellisAged.width - 1)))) ∧
  (∀ (src : Fin 72) (g : Nat) (c : Nat × Nat), s.freeTag src = some g →
    s.isl.crossing.find? (fun c => c.1 = src.val) = some c →
    exec (.requestTagFree src) s = .next (arrive src c.2 g { s with isl := { s.isl with
      crossing := s.isl.crossing.eraseIdx (s.isl.crossing.findIdx (fun x => x.1 = src.val)) } })) ∧
  (∀ (src : Fin 72) (tag : Fin 64) (x : Tracked),
    s.isl.tracked.find? (fun t => t.src = src.val && t.tag = tag.val) = some x → s.hedge x.dst ≠ STOPPED →
    (x.dst ≠ 1 → x.dst ≠ 2 → exec (.responseTimeout src tag true) s = .next (closeIsland x.dst 10 s)) ∧
    exec (.responseTimeout src tag false) s = .next (answerError 0x11 11 x s))

/-- R8, R10, R41, R205: DARK_ACCESS, BAD_ACCESS, REGISTER_WRITE. -/
def Obligations.RegisterAccesses : Prop :=
  ∀ (s : State) (f : Fin 8) (off : BitVec 24), s.power ≠ 2 →
  (∀ n, n < 128 → s.judge (.host f) (barOffset (.host f) off.toNat) 4 = .dark n →
    (s.hedge n = DARK ∨ s.hedge n = CLOSED) ∧ n = serveIsland (barOffset (.host f) off.toNat) ∧
    (∃ t, exec (.darkAccess (.host f) off false) s = .next t ∧ t.host.readData = [0xFF, 0xFF, 0xFF, 0xFF] ∧
      t.get F.globalStatusDarkAccess = 1 ∧ t.get F.globalDarkIslandIsland = n ∧ t.mem = s.mem) ∧
    (∃ t, exec (.darkAccess (.host f) off true) s = .next t ∧
      t.get F.globalStatusDarkAccess = 1 ∧ t.get F.globalDarkIslandIsland = n ∧ t.mem = s.mem)) ∧
  (∀ size, s.judge (.host f) (barOffset (.host f) off.toNat) size = .bad →
    (∃ t, exec (.badAccess (.host f) off size false) s = .next t ∧ t.host.readData = List.replicate size 0xFF ∧
      t.get F.globalStatusBadAccess = 1 ∧ t.mem = s.mem) ∧
    (∃ t, exec (.badAccess (.host f) off size true) s = .next t ∧ t.get F.globalStatusBadAccess = 1 ∧ t.mem = s.mem)) ∧
  (∀ v : Word, barOffset (.host f) off.toNat ∉ [R.hostqToken] →
    (∀ n, s.judge (.host f) (barOffset (.host f) off.toNat) 4 = .dark n →
      f = 0 → (off.toNat < R.hostqFn 0 ∨ R.hostqRingOwner 64 ≤ off.toNat) →
      exec (.registerWrite (.host f) off v none) s = .next (Sys2Proof.Machine.darkAccess n s)) ∧
    (s.judge (.host f) (barOffset (.host f) off.toNat) 4 = .zero →
      barOffset (.host f) off.toNat < R.hostqFn 0 ∨ R.hostqRingOwner 64 ≤ barOffset (.host f) off.toNat →
      exec (.registerWrite (.host f) off v none) s = .next s)) ∧
  (∀ (w : Writer) (v : Word), w = .host 0 ∨ w = .port → s.reaches w R.intakeSwCfg → v.toNat < 2 ^ 16 → ∃ t,
    exec (.registerWrite w (BitVec.ofNat 24 R.intakeSwCfg) v none) s = .next t ∧ t.get F.intakeSwCfgAgeS = v.toNat ∧
    t = { s with regs := t.regs } ∧ ∀ o, o ≠ R.intakeSwCfg → t.rd o = s.rd o)

/-- R51 check 1, R53, R50, R61, R64, R67: the PLAN_CMD operations. The order of the four tests within check 1 is the
model's reading (log entry 44). -/
def Obligations.PlanCommands : Prop :=
  ∀ (s : State) (w : Writer) (key : BitVec 16) (drain : BitVec 1) (slot : BitVec 2), s.reaches w R.planCmd →
    let d := if isPf0 w = false ∨ s.hasToken w = false then 0x01 else if key ≠ 0x9A17 then 0x04
      else if s.get F.planStatusPhase ≠ 0 then 0x02 else if s.power ≠ 0 ∨ s.get F.pwrStatusPhase ≠ 0 then 0x03 else 0
    let s0 := noteOrigin 0 w s
    (d ≠ 0 → ∀ c, c = .load w key drain ∨ c = .graft w key drain ∨ c = .store w key ∨ c = .fallback w key drain ∨
      c = .planBurnFloor w key ∨ c = .revokeKey w key slot →
      ∃ t, exec c s = .next t ∧ t.get F.planStatusResult = 0x41 ∧ t.get F.planStatusDetail = d ∧
        t.get F.planStatusDone = 1 ∧ t.get F.planStatusPhase = s.get F.planStatusPhase ∧ t.plan = s.plan ∧
        t.boot = s.boot ∧ t.mem = s.mem) ∧
    (d = 0 → s0.isShut 0 = false →
      exec (.load w key drain) s = .next (startCopy 1 w drain.toNat s0) ∧
      exec (.graft w key drain) s = .next (startCopy 2 w drain.toNat s0) ∧
      exec (.store w key) s = .next (startStore w s0) ∧
      exec (.fallback w key drain) s = .next (startFallback w drain.toNat s0) ∧
      exec (.planBurnFloor w key) s = .next (burnPlanFloor s0) ∧
      exec (.revokeKey w key slot) s = .next (revokeKey slot.toNat s0) ∧
      (∀ n, n = (s0.rd R.planSrcLen).toNat → 452 ≤ n → n ≤ 2 ^ 20 → n % 4 = 0 → s0.rd64 R.planSrcAddr % 4 = 0 →
        s0.rd64 R.planSrcAddr + n ≤ (if w = .port then 2 ^ 20 else s0.host.bar4Size) →
        (startCopy 1 w drain.toNat s0).get F.planStatusPhase = 1 ∧ (startCopy 1 w drain.toNat s0).leaseHolder 3 = 0 ∧
        (startCopy 2 w drain.toNat s0).get F.planStatusPhase = 1 ∧ (startCopy 2 w drain.toNat s0).leaseHolder 3 = 0)) ∧
    (isPf0 w = true → s.hasToken w = true → key = 0x9A17 → exec (.abort w key) s = .next
      (if s.get F.planStatusPhase = 1 ∨ s.get F.planStatusPhase = 2 ∨ s.get F.planStatusPhase = 3 then endPlan 0x41 0x3B s
        else s))

/-- R50: the plan floor and the two irreversible plan operations. -/
def Obligations.PlanFuseBurns : Prop :=
  (∀ (ctx : PlanCtx) (graft : Bool) (img : List Byte) (o : PlanOk), checkImage ctx graft img = .ok o →
    ctx.floor ≤ imgAt img 0x0A 1) ∧
  (∀ s : State, s.boot.fuses.planFloor ≤ 63 → s.boot.fuses.planFloor ≤ (burnPlanFloor s).boot.fuses.planFloor ∧
    (burnPlanFloor s).boot.fuses.planFloor ≤ 63) ∧
  ∀ (s : State) (k : Nat), k < 4 → s.boot.fuses.planKeys.length = 4 →
    (s.get F.planStatusFallback = 0 → (burnPlanFloor s).boot.fuses =
      { s.boot.fuses with planFloor := max s.boot.fuses.planFloor (min 63 s.plan.active.security) } ∧
      (burnPlanFloor s).get F.planStatusResult = 0 ∧ (burnPlanFloor s).get F.planStatusDone = 1) ∧
    (s.get F.planStatusFallback = 1 → (burnPlanFloor s).boot.fuses = s.boot.fuses ∧
      (burnPlanFloor s).get F.planStatusResult = 0x41) ∧
    (let used := ∃ img, (img ∈ s.plan.chain ∨ ∃ c, s.storedChain = some c ∧ img ∈ c) ∧ bytesAt img 0x0B 1 = k
     (¬ used → (∀ j, j < 4 → ((revokeKey k s).boot.fuses.planKeys.getD j ⟨0, false, false⟩) =
        if j = k then { s.boot.fuses.planKeys.getD j ⟨0, false, false⟩ with revoked := true }
        else s.boot.fuses.planKeys.getD j ⟨0, false, false⟩) ∧
        (revokeKey k s).boot.fuses.planFloor = s.boot.fuses.planFloor ∧
        (revokeKey k s).boot.fuses.imageFloor = s.boot.fuses.imageFloor ∧
        (revokeKey k s).get F.planStatusResult = 0 ∧ (revokeKey k s).get F.planStatusDone = 1) ∧
     (used → (revokeKey k s).boot.fuses = s.boot.fuses ∧ (revokeKey k s).get F.planStatusResult = 0x41))

/-- R51, R53, R57, R59, R64: what each phase end does. -/
def Obligations.PlanPhases : Prop :=
  ∀ (s : State) (j : PlanJob), s.plan.job = some j →
    (s.get F.planStatusPhase = 1 → ∀ bs s1, readSource j.writer (s.rd64 R.planSrcAddr) (s.rd R.planSrcLen).toNat s = (some bs, s1) →
      ∃ t, exec .planCopyDone s = .next t ∧ t.plan.staged = bs ∧ t.get F.planStatusPhase = 2 ∧ t.mem = s1.mem) ∧
    (s.get F.planStatusPhase = 2 →
      (∀ e, checkImage (s.planCtx true s.plan.active s.plan.chain) (j.op = 2) s.plan.staged = .error e →
        exec .planCheckDone s = .next (endPlan e.status e.detail (showPlanError e 0 0 s))) ∧
      (∀ o, checkImage (s.planCtx true s.plan.active s.plan.chain) (j.op = 2) s.plan.staged = .ok o →
        ∃ s2, s2.get F.planStatusSkipped = min 15 o.skipped ∧ s2 = { s with regs := s2.regs } ∧
          exec .planCheckDone s = .next (if j.op = 2 then
            beginDrain {
                j with next := o.cfg, images := s.plan.chain ++ [s.plan.staged], named := o.named, detail := if o.clamps = 0 then 0 else 1 }
              (graftPauses s.plan.active o.cfg o.named (plotRecords s.plan.staged))
              ((List.range 4).filter (fun k => o.named.contains (52 + k))) s2
            else replanDrain {
                j with next := o.cfg, images := [s.plan.staged], detail := if o.clamps = 0 then 0 else 1 } s2))) ∧
    (s.get F.planStatusPhase = 3 →
      (j.cut = false → exec .planDrainTimeout s =
        .next (cutPaused { s with plan := { s.plan with job := some { j with cut := true } } })) ∧
      (s.workDrained = true → j.op = 2 → ∃ t, exec .planDrainDone s = .next t ∧ t.plan.active = j.next ∧
        ∃ s2, s2 = (s.put F.planStatusPhase 4).each j.named (fun n t => closeIsland n 4 t) ∧ t.mem = s2.mem ∧
          t.isl = s2.isl)) ∧
    (s.get F.planStatusPhase = 4 → (∀ n ∈ j.named, s.isOpen n = true) →
      let u := dropDeleted (publishPlan j.next j.images s)
      exec .planCommitDone s = .next (remountStore (endPlan 0 j.detail { u with fence := { u.fence with
        avsCap := if j.op = 2 then u.fence.avsCap else none } }))) ∧
    ((publishPlan j.next j.images s).rd R.planActiveGen = BitVec.ofNat 32 j.next.generation ∧
      (publishPlan j.next j.images s).plan.active = j.next ∧ (publishPlan j.next j.images s).plan.chain = j.images ∧
      ∀ i, i < 12 → (publishPlan j.next j.images s).rd (R.planDigest i) =
        BitVec.ofNat 32 (chainDigest j.images / 2 ^ (32 * i))) ∧
    (s.get F.planStatusPhase = 6 → ∃ s1 : State, exec (.storeDone true) s = .next (finishPlan
        (if (s1.areaChain j.area).isSome then 0 else 0xF0) 0 (dropLease 0 (dropLease 3
          (s1.put F.planStatusUnstored (b2n (s1.unstored s1.plan.chain)))))) ∧
      s1 = flashWrite (areaBase j.area) (areaBytes (if (s.areaChain (1 - j.area)).isSome then s.areaSeq (1 - j.area) + 1
        else 1) j.images) s)

/-- R122, R537, R540, R544: the reset and supply pins, BYPASS, SAMPLE/PRELOAD, EXTEST. What survives in the flash and the fuses is the spec's, that the
register file is empty at its Cold values is `State.rd`'s reading. -/
def Obligations.ResetPins : Prop :=
  ∀ s : State,
  (∀ c, c = .resetNAssert ∨ c = .pwrOkFall ∨ c = .railUndervoltage ∨ c = .powerOnDetect →
    ∃ t, exec c s = .next t ∧ (∀ off, t.rd off = coldWord off) ∧ t.mem.dram = [] ∧ t.mem.bedMem = [] ∧
      t.mem.flash = s.mem.flash ∧ t.mem.host = s.mem.host ∧ t.boot.fuses = s.boot.fuses ∧ t.nand = s.nand ∧
      t.boot.starting = false ∧ t.pending = s.pending ∧
      (c = .resetNAssert → t.board.resetN = false) ∧ (c ≠ .resetNAssert → t.board.fromOff = true)) ∧
  (∀ c, c = .resetNDeassert ∨ c = .pwrOkRise ∨ c = .powerOnRelease →
    let s1 : State := if c = .resetNDeassert then { s with board := { s.board with resetN := true } }
      else if c = .pwrOkRise then { s with board := { s.board with pwrOk := true } }
      else { s with board := { s.board with detector := false } }
    s1.board ≠ s.board →
    (s1.board.resetN = true ∧ s1.board.pwrOk = true ∧ s1.board.detector = false →
      ∃ t, exec c s = .next t ∧ t.get F.bootStatusStep = 1 ∧ t.get F.bootStatusReady = 0 ∧
        t.get F.bootKindStartKind = (if s.board.fromOff = true then 0 else 1) ∧ t.get F.bootStatusForced = 0 ∧
        t.boot.starting = true ∧ t.mem.dram = [] ∧ t.mem.flash = s.mem.flash ∧ t.boot.fuses = s.boot.fuses ∧
        t.pending = s.pending) ∧
    (¬ (s1.board.resetN = true ∧ s1.board.pwrOk = true ∧ s1.board.detector = false) → exec c s = .next s1)) ∧
  (∀ (balls : BitVec 49) (tdi : List Bool),
    (s.board.resetN = true ∨ s.board.pwrOk = false → exec (.bypass tdi) s = .next s ∧
      exec (.samplePreload balls tdi) s = .next s ∧ exec (.extest balls tdi) s = .next s) ∧
    (s.board.resetN = false → s.board.pwrOk = true →
      (∃ t, exec (.bypass tdi) s = .next t ∧ t.tap.instr = .bypass ∧ t.tap.tdo = (false :: tdi).take tdi.length ∧
        t = { s with tap := t.tap }) ∧
      (tdi.length = 147 → ∀ c i, (c, i) ∈ [(false, Instr.samplePreload balls tdi), (true, .extest balls tdi)] →
        ∃ t, exec i s = .next t ∧ t.tap.latch = tdi ∧ t.tap.tdo.length = 147 ∧ t = { s with tap := t.tap, fresh := t.fresh } ∧
          ∀ n d, (scanBalls[n]?).map (fun b => b.2) = some d → t.tap.tdo[3 * n]? = some (
            if c = true then
              if cellAt s.tap.latch n 2 = true then
                (if cellAt s.tap.latch n 1 = true then (if d = .openDrain then balls.getLsbD n else true) else false)
              else balls.getLsbD n
            else match d with
              | .low => false
              | .high => true
              | .highZ => balls.getLsbD n
              | .openDrain => balls.getLsbD n))))

/-- R102–R106, R111–R115, R121: the start steps and the events around them. -/
def Obligations.StartSteps : Prop :=
  ∀ s : State, s.boot.starting = true →
  (∀ k, 1 ≤ k → k ≤ 14 → ∃ u : State, u.rd (R.bootTime (k - 1)) = BitVec.ofNat 32 (s.timeUs - s.boot.stepAt) ∧
    u.get F.bootStatusStep = (s.wr (R.bootTime (k - 1)) (BitVec.ofNat 32 (s.timeUs - s.boot.stepAt))).nextStep k ∧
    stepDone k s = enterStep ((s.wr (R.bootTime (k - 1)) (BitVec.ofNat 32 (s.timeUs - s.boot.stepAt))).nextStep k) u) ∧
  (s.get F.bootStatusStep = 1 → s.startKind < 3 →
    exec .powerGood s = .next (stepDone 1 (({ s with board := { s.board with crystal := true } } : State).each [0, 1, 2, 3] powerUpQuiet))) ∧
  (s.get F.bootStatusStep = 2 → ∀ (l1 l0 : Fin 3) (tm : Bool), ∃ s1 : State,
    s1 = openIsland 2 (openIsland 1 { s with board := { s.board with strap0 := l0, strap1 := l1, testMode := tm } }) ∧
    exec (.fuseLoad false l1 l0 tm) s = .next (haltStart 0x10 s1) ∧
    (tm = false → ∃ s2 : State, s2 = { s1 with regs := s2.regs } ∧ s2.get F.planKeysFloor = s.boot.fuses.planFloor % 64 ∧ s2.get F.bootSlotFloor = s.boot.fuses.imageFloor % 64 ∧
      exec (.fuseLoad true l1 l0 tm) s = .next (stepDone 2 s2))) ∧
  (s.get F.bootStatusStep = 3 → exec (.romCheck true) s = .next (stepDone 3 s) ∧
    exec (.romCheck false) s = .next (haltStart 0x11 s)) ∧
  (s.get F.bootStatusStep = 4 → exec (.bootDir .ok) s = .next (readDirectory s) ∧
    exec (.bootDir .noResponse) s = .next (haltStart 0x12 s) ∧ exec (.bootDir .tooSmall) s = .next (haltStart 0x13 s)) ∧
  (s.get F.bootStatusStep = 5 →
    (∀ e, s.slotImage (s.get F.bootSlotRunning) 0 = .error e → exec .gkVerify s = .next (failStart e.status e.detail 0 s)) ∧
    (∀ i, s.slotImage (s.get F.bootSlotRunning) 0 = .ok i → ∃ s1 : State, s1 = { s with regs := s1.regs, fw := s1.fw } ∧
      s1.get F.bootSlotRunVersion = i.version % 64 ∧
      s1.fw.digests = setAt 0 i.digest s.fw.digests ∧ exec .gkVerify s = .next (stepDone 5 s1))) ∧
  (s.get F.bootStatusStep = 6 → exec .gkRun s = .next (stepDone 6
    (({ s with fw := { s.fw with running := setAt 0 .slot s.fw.running } } : State).each [0, 3, 60] openIsland))) ∧
  (s.startKind < 3 → 6 < s.get F.bootStatusStep →
    exec .pcieTrainingStart s = .next { s with boot := { s.boot with linkTraining := true } }) ∧
  (s.get F.bootStatusStep = 7 →
    (s.get F.bootStatusSafe = 0 → ∀ info, exec (.memTrain (.failed info)) s =
      .next (failStart 0xF0 0x30 info (s.put F.bootStatusMemTrained 1))) ∧
    (∀ identity ranks cap data, ∃ s2 : State, s2 = { s with regs := s2.regs, mem := s2.mem, fw := s2.fw } ∧ s2.fw.training = some (trainBytes s identity data) ∧
      s2.get F.bootStatusMemTrained = 1 ∧ s2.mem.flash = Memory.write flashFill
        (Memory.fill flashFill s.mem.flash 0x30000 0x10000 0xFF) 0x30000 (trainBytes s identity data) ∧
      exec (.memTrain (.trained identity ranks cap data)) s = .next (stepDone 7 (activateMemory
        (s.wantedRate, b2n s.boot.ecc, (s.dramSize ranks cap).1, (s.dramSize ranks cap).2) s2)))) ∧
  (s.get F.bootStatusStep = 8 → ∀ identity ranks cap, s.startKind = 3 →
    exec (.memRestore identity ranks cap true) s = .next (stepDone 8 (reloadKeys (activateMemory s.boot.memCfg s))) ∧
    exec (.memRestore identity ranks cap false) s = .next (failStart 0xF0 0x31 0 s)) ∧
  (s.get F.bootStatusStep = 9 → s.startKind < 3 →
    (∀ e p, s.verifySlot (s.get F.bootSlotRunning) = .error (e, p) → ∀ b,
      exec (.imagesVerify b) s = .next (failStart e.status e.detail p s)) ∧
    (∀ oks, s.verifySlot (s.get F.bootSlotRunning) = .ok oks → ∀ b,
      exec (.imagesVerify b) s = .next (stepDone 9 (runImages oks s)))) ∧
  (s.get F.bootStatusStep = 10 → exec .calLoad s = .next (stepDone 10 (loadCal s))) ∧
  (s.get F.bootStatusStep = 11 → s.startKind < 3 → ∀ b, exec (.planVerify b) s = .next (stepDone 11 (tryAreas s.areas s))) ∧
  (s.get F.bootStatusStep = 12 → s.startKind < 3 → s.get F.bootStatusSafe = 0 →
    let v := s.boot.verified.getD ([], fallbackCfg, 0)
    let s1 := (publishPlan v.2.1 v.1 s).wr R.planClamps (BitVec.ofNat 32 (min v.2.2 (2 ^ 32 - 1)))
    exec .planApply s = .next (stepDone 12 ((setVoltage ((configureCommon { s1 with boot := { s1.boot with
      verified := none } }).each applyOrder applyIsland)).put F.planStatusPhase 0))) ∧
  (s.get F.bootStatusStep = 13 → exec .nandReplay s = .next (stepDone 13 (mountAndWork true s))) ∧
  (s.get F.bootStatusStep = 14 → s.isOpen 60 = true →
    let s2 := if s.isOpen 71 = true then trainLink s else s
    exec .linksUp s = .next (stepDone 14 (s2.put F.bootStatusLinkPending (b2n !s2.host.linkUp)))) ∧
  (s.get F.bootStatusStep = 15 → s.startKind < 3 → s.get F.bootStatusSafe = 0 → s.boot.heldPower = none →
    s.plan.active.evidence.isSome = true →
    ∃ t, exec .ready s = .next t ∧ t.boot.starting = false ∧ t.get F.bootStatusReady = 1 ∧ t.host.ltrUs = 50 ∧
      t.get F.bootStatusStep = 15 ∧ t.mem.dram = s.mem.dram ∧
      t.boot.clearing = (if s.boot.memCfg.2.1 = 1 then some 0 else none)) ∧
  (1 < s.get F.bootStatusStep → exec .startTimerExpiry s = .next (failStart 0xF0 0x01 0 s)) ∧
  (∀ st d i, ∃ u, failStart st d i s = coldStart 2 true u ∧ u.boot.fuses = s.boot.fuses)

/-- R127, R109, R110, R126: the BOOT_CMD operations; and R121's DRAM_CLEAR_DONE. -/
def Obligations.BootCommands : Prop :=
  ∀ (s : State) (w : Writer) (key : BitVec 16) (slot : BitVec 1) (image : BitVec 2), s.reaches w R.bootCmd →
    let r := if key ≠ 0xB0C7 ∨ isPf0 w = false ∨ s.hasToken w = false ∨ s.get F.bootCmdStatusBusy = 1 then 1
      else if s.get F.bootStatusReady = 0 ∧ s.get F.bootStatusSafe = 0 then 2 else 0
    let s0 := noteOrigin 1 w s
    (r ≠ 0 → ∀ c, c = .writeSlot w key slot image ∨ c = .verifySlot w key slot ∨ c = .setPreferred w key slot ∨
      c = .clearAttempts w key ∨ c = .bootBurnFloor w key ∨ c = .restartCold w key →
      ∃ t, exec c s = .next t ∧ t = s.put F.bootCmdStatusResult r ∧ t.get F.bootCmdStatusResult = r ∧
        t.mem.flash = s.mem.flash) ∧
    (r = 0 → s0.isShut 0 = false →
      exec (.writeSlot w key slot image) s = .next (writeSlot w slot.toNat image.toNat s0) ∧
      (s0.get F.bootStatusSafe = 0 → slot.toNat = s0.get F.bootSlotRunning → (s0.rd R.bootSrcLen).toNat % 4 = 0 →
        (s0.rd R.bootSrcLen).toNat ≤ 0x40000 →
        exec (.writeSlot w key slot image) s = .next (s0.put F.bootCmdStatusResult 3)) ∧
      (∃ t, exec (.verifySlot w key slot) s = .next t ∧ t.mem.flash = s.mem.flash ∧ t.get F.bootCmdStatusDone = 1 ∧
        (t.get F.bootCmdStatusResult = 0 ↔ ∃ oks, s0.verifySlot slot.toNat = .ok oks)) ∧
      (∀ oks, s0.verifySlot slot.toNat = .ok oks → ∃ t, exec (.setPreferred w key slot) s = .next t ∧
        t.mem.flash = (writeDir slot.toNat s0).mem.flash ∧ t.get F.bootSlotPreferred = slot.toNat ∧
        t.get F.bootCmdStatusResult = 0 ∧ t.get F.bootCmdStatusDone = 1) ∧
      exec (.clearAttempts w key) s = .next (clearAttemptsCmd s0) ∧
      exec (.bootBurnFloor w key) s = .next (burnImageFloor s0) ∧
      exec (.restartCold w key) s = .next (coldStart 2 false s0)) ∧
    (∀ n, s.boot.clearing = some n → exec .dramClearDone s = .next { s with boot := { s.boot with
      clearing := if s.usable ≤ (n + 1) * 2 ^ 21 then none else some (n + 1) } })

/-- R118: BURN_FLOOR of BOOT_CMD. -/
def Obligations.ImageFloorBurn : Prop :=
  ∀ s : State,
    let v := s.get F.bootSlotRunVersion
    let other := 1 - s.get F.bootSlotRunning
    let ok := (∃ is, s.verifySlot other = .ok is ∧ v ≤ (is.headD ⟨0, 0, 0⟩).version) ∨
      ((∃ e, s.verifySlot other = .error e) ∧ s.slotVersion other = none)
    (ok → (burnImageFloor s).boot.fuses = { s.boot.fuses with imageFloor := max s.boot.fuses.imageFloor v } ∧
      (burnImageFloor s).get F.bootCmdStatusResult = 0 ∧ (burnImageFloor s).get F.bootCmdStatusDone = 1) ∧
    (¬ ok → (burnImageFloor s).boot.fuses = s.boot.fuses ∧ (burnImageFloor s).get F.bootCmdStatusResult = 4) ∧
    s.boot.fuses.imageFloor ≤ (burnImageFloor s).boot.fuses.imageFloor ∧
    (s.boot.fuses.imageFloor ≤ 63 → (burnImageFloor s).boot.fuses.imageFloor ≤ 63)

/-- R130, R125, R134: PWR_REQUEST and SOFTWARE_SHADE_EXIT. -/
def Obligations.PowerRequests : Prop :=
  ∀ (s : State) (w : Writer) (key : BitVec 16) (target : BitVec 3) (drain : BitVec 1), s.reaches w R.pwrRequest →
    (s.boot.starting = true → ∃ v, v % 8 = target.toNat ∧ v / 2 ^ 16 = key.toNat ∧
      exec (.pwrRequest w key target drain) s = .next { s with boot := { s.boot with heldPower := some (w, v) } }) ∧
    (s.boot.starting = false →
      let res := fun n : Nat => if key ≠ 0x5AD0 ∨ isPf0 w = false ∨ s.hasToken w = false then 1
        else if s.get F.pwrStatusPhase ≠ 0 then 3
        else if 2 ≤ s.power ∨ 4 < n ∨ (n = 0 ∧ s.power ≠ 1) then 2
        else if n = 2 ∧ (s.get F.hostqLinkAspmL1 = 0 ∨ s.get F.hostqLinkL12 = 0) then 6 else 0
      let n := target.toNat
      let acc := fun k : Nat => let u := noteOrigin 5 w (s.put F.pwrStatusResult 0)
        if 2 ≤ k then { u with host := { u.host with ltrUs := 1000 } } else u
      (res n ≠ 0 → exec (.pwrRequest w key target drain) s = .next (s.put F.pwrStatusResult (res n))) ∧
      (res 0 ≠ 0 → exec (.softwareShadeExit w key) s = .next (s.put F.pwrStatusResult (res 0))) ∧
      (res n = 0 → s.power = 0 → exec (.pwrRequest w key target drain) s = .next (beginEntry n drain.toNat (acc n))) ∧
      (res n = 0 → s.power = 1 → n ≠ 0 → exec (.pwrRequest w key target drain) s = .next (shadeExit [] (
        let u := (acc n).put F.pwrStatusLastTarget n
        { u with pwr := { u.pwr with after := some (n, drain.toNat) } }))) ∧
      (res 0 = 0 → exec (.softwareShadeExit w key) s = .next (shadeExit [] ((acc 0).put F.pwrStatusLastTarget 0)))) ∧
    (∀ (n : Nat) (u : State), n < 8 → (beginEntry n 0 u).get F.pwrStatusPhase = 1 ∧
      (beginEntry n 0 u).get F.pwrStatusResult = 0 ∧ (beginEntry n 0 u).get F.pwrStatusLastTarget = n)

/-- R131, R133, R135, R144: the events of an entry. -/
def Obligations.SettleEvents : Prop :=
  ∀ s : State,
  (∀ p : Fin 4, s.isOpen (procIsland p) = true → s.fw.hotSwap = none →
    (let f := waitFields p
     ∃ t, exec (.processorWait p 0) s = .next t ∧ t = s.puts [(f.1, 1), (f.2, 0)] ∧ t.get f.1 = 1 ∧ t.get f.2 = 0) ∧
    (∀ m : BitVec 3, m ≠ 0 → s.get F.pwrStatusPhase = 1 → m.toNat = s.get F.pwrStatusLastTarget → s.maySettle p = true →
      exec (.processorWait p m) s = .next (tryLeave ((settleProcessor p m.toNat s).puts
        [((waitFields p).1, 1), ((waitFields p).2, m.toNat)])))) ∧
  (s.get F.pwrStatusPhase = 1 → s.pwr.cut = false →
    exec .settleHalfTimeout s = .next (cutForSettle { s with pwr := { s.pwr with cut := true } })) ∧
  (s.get F.pwrStatusPhase = 1 → (s.get F.pwrModeG0Wait = 0 ∨ s.get F.pwrModeG1Wait = 0 ∨ s.get F.pwrModeSkWait = 0) →
    ∃ t, exec .settleTimeout s = .next t ∧ t.rd R.pwrMode = s.rd R.pwrMode ∧ t.get F.pwrStatusResult = 5 ∧
      t.get F.pwrStatusPhase = 0 ∧ t.get F.pwrStatusDone = 1 ∧ t.mem = s.mem) ∧
  (s.get F.pwrStatusPhase = 2 → exec .linkWaitTimeout s = .next (runSequence
    ({ s with host := { s.host with linkUp := false } }.bump F.hostqLinkDownCount 1))) ∧
  (s.get F.pwrStatusPhase = 3 → s.get F.pwrStatusLastTarget = 1 → s.pwr.latched = [] →
    ∃ t, exec .sequenceDone s = .next t ∧ ∃ u : State, t = { refreshClocks u with pwr := { (refreshClocks u).pwr with latched := [] } } ∧
      u.get F.pwrStatusState = 1 ∧ u.get F.pwrStatusPhase = 0 ∧ u.get F.pwrStatusDone = 1 ∧
      u.get F.pwrCountShade = min (s.get F.pwrCountShade + 1) 0xFFFF ∧ u = { s with regs := u.regs })

/-- R136, R138–R140, R143, R144: wakes, held TLPs and held frames. -/
def Obligations.WakeSources : Prop :=
  ∀ s : State, s.boot.starting = false → s.get F.pwrStatusPhase = 0 →
  (∀ b, s.wakeEnabled b = true → wakeMarked b s.power = true → s.power ≠ 0 →
    (s.power = 1 → wakeEvent b s = shadeExit [b] s) ∧
    (2 ≤ s.power → s.fence.tripHold = false → wakeEvent b s = wakeStart (s.power + 1) [b] s)) ∧
  (∀ b, s.wakeEnabled b = false ∨ (s.power ≠ 0 ∧ wakeMarked b s.power = false) ∨
      (s.power = 0 ∧ s.pwr.wakeAt + 10 < s.timeUs) → wakeEvent b s = s) ∧
  exec .wakeNFall s = .next (wakeEvent 0 { s with board := { s.board with wakeN := false } }) ∧
  exec .pcieWake s = .next (wakeEvent 4 s) ∧
  (s.rd R.pwrTimerMs ≠ 0 → s.power ≠ 0 → exec .pwrTimerExpiry s = .next (wakeEvent 5 s)) ∧
  (s.rd R.pwrAlarm ≠ 0 → exec .rtcAlarm s = .next (wakeEvent 1 (s.wr R.pwrAlarm 0))) ∧
  (∀ (p : Fin 4) (fr : List Byte), s.power = 1 → s.portEnabled p = true →
    let held := ((s.pwr.frames.filter (fun f => f.1 = p.val)).map (fun f => f.2.length)).sum
    (held + fr.length ≤ 32768 → exec (.shadeFrameArrival p fr) s =
      .next (wakeEvent 6 { s with pwr := { s.pwr with frames := s.pwr.frames ++ [(p.val, fr)] } })) ∧
    (32768 < held + fr.length → exec (.shadeFrameArrival p fr) s = .next (wakeEvent 6 (s.bump32 R.pwrShadeDrop 1)))) ∧
  (∀ (f : Fin 8) (cq : Bool) (r : Fin 64) (v : BitVec 16), s.power = 1 → s.host.linkUp = true →
    exec (.shadeTlpArrival (.doorbell f cq r v)) s =
      .next (wakeEvent 4 { s with pwr := { s.pwr with tlps := s.pwr.tlps ++ [.doorbell f cq r v] } })) ∧
  (∀ (x : Tlp) (rest : List Tlp), s.power = 0 → s.pwr.tlps = x :: rest →
    (∀ n ∈ 60 :: s.tlpPath x, s.isOpen n = true ∨ s.isShut n = true) →
    let t := performTlp x { s with pwr := { s.pwr with tlps := [] } }
    exec .heldTlpServe s = .next (if t.host.linkUp = true ∧ t.boot.starting = false then
      { t with pwr := { t.pwr with tlps := rest } } else t))

/-- R147, R148: what one sample does to the sensors' marks and filters. -/
def Obligations.SensorSamples : Prop :=
  ∀ (s : State) (raw : List (Option Int)) (rails : List Int), s.fence.filters.length = 12 →
    ∃ t, exec (.sensorSample raw rails) s = .next t ∧ t.mem = s.mem ∧ t.isl = s.isl ∧ t.boot = s.boot ∧
      (∀ n, n < 12 → (bit (t.get F.fenceSensorFailFail) n = true ↔ (bit (s.get F.fenceSensorFailFail) n = true ∨
        raw.getD n none = none ∨ ∃ r, raw.getD n none = some r ∧ (r < -880 ∨ 2400 < r)))) ∧
      (∀ n r, n < 12 → bit (s.get F.fenceSensorFailFail) n = false → raw.getD n none = some r → -880 ≤ r → r ≤ 2400 →
        t.fence.filters.getD n [] = (s.corrected n r :: s.fence.filters.getD n []).take 8)

/-- R150, R151, R153–R155, R158, R550: the threshold events. -/
def Obligations.ThermalEvents : Prop :=
  ∀ s : State,
  (∀ b : Bool, let f := if b then F.fenceStateSoftThrottle else F.fenceStateWarn
    let run := s.fence.softRun.getD (if b then 1 else 0) (0, 0)
    let n := s.samplesIn s.plan.active.limits.dwellMs
    (s.get f = 0 → n ≤ run.1 → exec (.softDwellExpiry b) s =
      .next (setEvent 5 (if b then refreshClocks (s.put f 1) else s.put f 1))) ∧
    (s.get f = 1 → n ≤ run.2 → exec (.softDwellExpiry b) s =
      .next (setEvent 5 (if b then refreshClocks (s.put f 0) else s.put f 0))) ∧
    (s.get f = 0 → run.1 < n → exec (.softDwellExpiry b) s = .next s)) ∧
  (4 ≤ s.fence.hwRun → exec .hwThrottle s = .next (refreshClocks
    ({ s with board := { s.board with thermN := false } }.put F.fenceStateHwThrottle 1))) ∧
  (s.get F.fenceStateHwThrottle = 1 → s.samplesIn 100 ≤ s.fence.coolRun → ∃ u : State,
    exec .hwThrottleRelease s = .next (refreshClocks u) ∧ u.get F.fenceStateHwThrottle = 0 ∧
    u.board.thermN = (s.get F.fenceStateTripLatched == 0) ∧ u = { s with regs := u.regs, board := u.board }) ∧
  (4 ≤ s.fence.tripRun → s.boot.starting = false → s.power ≠ 4 → exec .hwTrip s = .next (tripSequence 1 s)) ∧
  (4 ≤ s.fence.tripRun → s.boot.starting = false → s.power = 4 → ∃ t, exec .hwTrip s = .next t ∧
    t.get F.fenceStateTripLatched = 1 ∧ t.board.thermN = false ∧ t.mem = s.mem ∧ t.power = 4) ∧
  (s.power ≠ 4 → exec .overvolt s = .next (tripSequence 2 s)) ∧
  (s.power ≠ 4 → exec .crystalLoss s = .next (tripSequence 3 { s with board := { s.board with crystal := false } })) ∧
  (s.fence.tripHold = true → s.power = 4 → s.samplesIn 100 ≤ s.fence.coolRun →
    let u : State := { s with
      fence := { s.fence with tripHold := false }, board := { s.board with thermN := true }, pwr := { s.pwr with latched := [] } }
    exec .tripWakeRelease s = .next (if s.pwr.latched = [] then u else wakeStart 5 s.pwr.latched u))

/-- R154: what holds after a trip, in every state. -/
def Obligations.TripEndsInFrost : Prop :=
  ∀ (s : State) (cause : Nat), let t := tripSequence cause s
    t.mem.dram = [] ∧ t.fw.keyStore = [] ∧ t.boot.starting = false ∧ t.host.linkUp = false ∧ t.fence.tripHold = true ∧
    t.boot.fuses = s.boot.fuses ∧ t.mem.flash = s.mem.flash ∧ t.pending = s.pending ∧ t.get F.pwrStatusState = 4 ∧
    t.get F.pwrStatusPhase = 0

/-- R152, R157, R548: the power limiters. -/
def Obligations.PowerLimits : Prop :=
  ∀ s : State,
  (∀ mw, s.power = 0 → s.isOpen 0 = true →
    let c := s.get F.fenceStateBedCeiling
    let n := if s.plan.active.limits.powerMw < mw then max (min 200 c) (c - 25)
      else if 100 * mw ≤ 95 * s.plan.active.limits.powerMw then min s.planBedClock (c + 25) else c
    exec (.powerCapStep mw) s = .next (refreshClocks ((s.wr R.fencePowerMw (BitVec.ofNat 32 mw)).puts
      [(F.fenceStateBedCeiling, n), (F.fenceStatePowerCap, if n < s.planBedClock then 1 else 0)])) ∧
    (200 ≤ c → 200 ≤ n ∨ n = s.planBedClock)) ∧
  (∀ mw, 18000 < mw → s.fence.peakRun % 2 = 0 → ∃ u : State, exec (.currentLimitSample mw) s = .next (stepDown u) ∧
    u = { s with fence := u.fence } ∧ u.fence.peakRun = s.fence.peakRun + 1 ∧ u.fence.overUs = s.fence.overUs + 1 ∧ u.fence.lowUs = 0) ∧
  (∀ mw, mw ≤ 15000 → ∃ t, exec (.currentLimitSample mw) s = .next t ∧ t = { s with fence := t.fence } ∧
    t.fence.peakRun = 0 ∧ t.fence.overUs = 0 ∧ t.fence.sustained = false) ∧
  (10000 ≤ s.fence.overUs → exec .sustainedPowerExpiry s =
    .next (stepDown { s with fence := { s.fence with sustained := true, peakRun := 1 } })) ∧
  (100 ≤ s.fence.lowUs → s.fence.uvHeld = false → s.get F.fenceStateLimitRatio < 8 → exec .limitRatioRaise s =
    .next (refreshUrgent { s.put F.fenceStateLimitRatio (s.get F.fenceStateLimitRatio + 1) with
      fence := { s.fence with lowUs := 0 } })) ∧
  (s.power < 2 → ∃ u : State, exec .undervolt s = .next (refreshUrgent u) ∧
    u.get F.fenceStateLimitRatio = min 2 (s.get F.fenceStateLimitRatio) ∧
    u.get F.fenceAvsUvEvents = min (s.get F.fenceAvsUvEvents + 1) (2 ^ F.fenceAvsUvEvents.width - 1) ∧
    u.fence = { s.fence with uvHeld := true } ∧ u = { s with regs := u.regs, fence := u.fence }) ∧
  exec .undervoltRelease s = .next { s with fence := { s.fence with uvHeld := false, lowUs := 0 } } ∧
  (2 < s.get F.fenceStateLimitRatio → ∃ u : State, stepDown s = refreshUrgent u ∧
    u.get F.fenceStateLimitRatio = s.get F.fenceStateLimitRatio - 1 ∧
    u.rd R.fenceLimitEvents = BitVec.ofNat 32 (min ((s.rd R.fenceLimitEvents).toNat + 1) 0xFFFFFFFF) ∧
    u = { s with regs := u.regs }) ∧
  (s.get F.fenceStateLimitRatio ≤ 2 → stepDown s = s)

/-- R546, R547, R550: AVSBus and reference clock events. -/
def Obligations.VoltageAndClockEvents : Prop :=
  ∀ s : State,
  exec .voltageSettled s = .next (refreshClocks ({ s with fence := { s.fence with raising := none } }.put F.fenceAvsSettled 1)) ∧
  exec (.avsResponse true) s = .next { s with fence := { s.fence with avsTries := 0 } } ∧
  (let s1 := s.bump F.fenceAvsAvsErrors 1
   exec (.avsResponse false) s = .next (if s.fence.avsTries < 2 then { s1 with fence := { s.fence with
     avsTries := s.fence.avsTries + 1 } } else avsFault s1) ∧
   s1.get F.fenceAvsAvsErrors = min (s.get F.fenceAvsAvsErrors + 1) (2 ^ F.fenceAvsAvsErrors.width - 1)) ∧
  (s.fence.raising.isSome = true → exec .avsFault s = .next (avsFault s)) ∧
  (∃ u : State, avsFault s = refreshClocks u ∧ u.get F.fenceAvsFault = 1 ∧ u.fence.raising = none ∧ u.fence.avsTries = 0 ∧
    u.fence.avsCap = some (curveMhz (s.fence.raising.getD (s.get F.fenceAvsTargetMv) - 10)) ∧
    u = { s with regs := u.regs, fence := u.fence }) ∧
  (∀ b, s.power ≠ 2 → (b = false ∨ s.get F.hostqLinkL12 = 0) → exec (.refclkLoss false b) s = .next (linkDown s)) ∧
  (∀ b, s.isShut 61 = false → ∃ t, exec (.refclkLoss true b) s = .next t ∧ (∀ p, p < 4 → t.get (F.intakePortStatusLink p) = 0) ∧
    t = { s with regs := t.regs })

/-- R162, R166, R167, R170: the calibration commands. -/
def Obligations.CalibrationCommands : Prop :=
  ∀ (s : State) (w : Writer) (key : BitVec 16), s.reaches w R.calCmd →
    let r := if key ≠ 0xCA1B ∨ isPf0 w = false ∨ s.hasToken w = false then 1 else if s.get F.calStatusBusy = 1 then 2
      else if s.power ≠ 0 then 3 else 0
    let s0 := noteOrigin 4 w s
    (r ≠ 0 → ∀ c, (c = .calRead w key ∨ c = .calWrite w key ∨ c = .calReload w key ∨ ∃ a m l, c = .calMeasure w key a m l) →
      exec c s = .next (s.put F.calStatusResult r)) ∧
    (r = 0 → s0.isShut 0 = false →
      exec (.calRead w key) s = .next (finishCal 0 (writeDest w (s0.rd64 R.calBufAddr) s0.calSector s0)) ∧
      (∀ t s1, readSource w (s0.rd64 R.calBufAddr) 256 s0 = (some t, s1) →
        (calReason t ≠ 0 ∨ bytesAt t 6 1 ≠ 1 → exec (.calWrite w key) s = .next (finishCal 5 (s1.put F.calStatusReason (calReason t)))) ∧
        (calReason t = 0 → bytesAt t 6 1 = 1 → exec (.calWrite w key) s =
          .next (finishCal 0 (loadCal (flashWrite 0x20000 t (flashErase 0x20000 0x10000 s1)))))) ∧
      exec (.calReload w key) s = .next (finishCal 0 (loadCal s0)) ∧
      (∀ m l, ∃ t, exec (.calMeasure w key 0 m l) s = .next t ∧ t.get F.calStatusDone = 1 ∧ t.mem = s.mem ∧
        ∀ n, n < 12 → t.get (F.calRawRaw n) = ofInt 16 (l.getD n 0)))

/-- R175, R176, R178–R183: the firmware processors. -/
def Obligations.ProcessorEvents : Prop :=
  ∀ (s : State) (p : Fin 4),
  (s.isOpen (procIsland p) = true → exec (.watchdogRestart p) s =
    .next { s with fw := { s.fw with wdogAt := setAt p s.timeUs s.fw.wdogAt } }) ∧
  (s.isOpen (procIsland p) = true → s.boot.starting = true →
    exec (.firmwareException p) s = .next (failStart 0xF0 0x02 p s) ∧
    (s.wdogPaused p = false → exec (.watchdogExpiry p) s = .next (failStart 0xF0 0x02 p s))) ∧
  (s.isOpen (procIsland p) = true → s.boot.starting = false →
    let after := fun (k : Nat) (f : Field) => let u := wdogEvent p k 1 (closeIsland (procIsland p) 3 (s.bump f 1))
      if bit s.plan.active.limits.alertMask 2 = true then
        { u with board := { u.board with alerts := 2 :: u.board.alerts.filter (fun a => a ≠ 2) } } else u
    exec (.firmwareException p) s = .next (after 1 (F.bootWdogExceptions p)) ∧
    (s.wdogPaused p = false → exec (.watchdogExpiry p) s = .next (after 0 (F.bootWdogExpiries p)))) ∧
  (s.reloadDue p = true →
    (s.thirdClose p = true → ∀ b, exec (.processorReload p b) s = .next (reloadFails p 0x02 s)) ∧
    (s.thirdClose p = false → exec (.processorReload p false) s = .next (reloadFails p 0x24 s)) ∧
    (s.thirdClose p = false → s.regionDigest (s.get F.bootSlotRunning) p = s.fw.digests.getD p 0 →
      exec (.processorReload p true) s = .next (runSlotImage p s))) ∧
  (bit (s.get F.bootFwStatusPending) p = true → exec (.romPortFlashTimeout p) s = .next (reloadFails p 0x24 s)) ∧
  (∀ d, ∃ u, reloadFails p d s = coldStart 2 true u ∧ u.boot.fuses = s.boot.fuses) ∧
  (∀ (w : Writer) (key : BitVec 16) (q : BitVec 2), s.reaches w R.bootFwCmd →
    let r := if key ≠ 0xF1A5 ∨ isPf0 w = false ∨ s.hasToken w = false ∨ s.get F.bootFwCmdStatusBusy = 1 then 1
      else if s.get F.bootStatusReady = 0 ∨ s.power ≠ 0 then 2 else if q = 0 then 3 else 0
    (r ≠ 0 → exec (.hotSwap w key q) s = .next (s.put F.bootFwCmdStatusResult r) ∧
      exec (.firmwareReload w key q) s = .next (s.put F.bootFwCmdStatusResult r)) ∧
    (r = 0 → (noteOrigin 2 w s).isShut 0 = false →
      exec (.hotSwap w key q) s = .next (startHotSwap w q.toNat (noteOrigin 2 w s)) ∧
      exec (.firmwareReload w key q) s = .next (startReload q.toNat (noteOrigin 2 w s)))) ∧
  (s.fw.hotSwap.isSome = true → ∃ t, exec .hotSwapSettleTimeout s = .next t ∧ t.fw.hotSwap = none ∧
    t.get F.bootFwCmdStatusResult = 5 ∧ t.get F.bootFwCmdStatusBusy = 0 ∧ t.get F.bootFwCmdStatusDone = 1 ∧ t.mem = s.mem) ∧
  exec .alertNPulseEnd s = .next { s with board := { s.board with alerts := [] } }

/-- R184: LEASE_REQUEST, LEASE_RENEW and LEASE_RELEASE. -/
def Obligations.LeaseRules : Prop :=
  ∀ (s : State) (l : Fin 5) (n : Fin 72) (e : BitVec 8) (rec : Bool),
  (let listed := if l.val = 1 then n.val = 58 ∨ (n.val = 0 ∧ rec = true) else n.val = 0
   (¬ listed ∨ e.toNat ≠ s.epoch n → exec (.leaseRequest l n e rec) s = .next s) ∧
   (listed → e.toNat = s.epoch n → s.leaseHolder l = 0x7F → l.val ∉ s.fw.forced → ∃ t,
     exec (.leaseRequest l n e rec) s = .next t ∧ t.leaseHolder l = n ∧ t.get (F.fenceLeaseEpoch l) = e.toNat ∧
     t.get (F.fenceLeaseAgeMs l) = 0 ∧ t.fw = s.fw ∧ t.mem = s.mem) ∧
   (listed → e.toNat = s.epoch n → s.leaseHolder l ≠ 0x7F → ∃ t, exec (.leaseRequest l n e rec) s = .next t ∧
     t.leaseHolder l = s.leaseHolder l ∧ t.mem = s.mem ∧
     t.fw.waiters = (if rec = true ∧ n.val = 0 then (l.val, n.val, e.toNat) :: s.fw.waiters
       else s.fw.waiters ++ [(l.val, n.val, e.toNat)]))) ∧
  (let held := s.leaseHolder l = n ∧ s.get (F.fenceLeaseEpoch l) = e.toNat ∧ s.epoch n = e.toNat
   (¬ held → exec (.leaseRenew l n e) s = .next s ∧ exec (.leaseRelease l n e) s = .next s) ∧
   (held → exec (.leaseRenew l n e) s = .next (s.put (F.fenceLeaseAgeMs l) 0)) ∧
   (held → (∀ w ∈ s.fw.waiters, w.1 ≠ l.val) → ∃ t, exec (.leaseRelease l n e) s = .next t ∧ t.leaseHolder l = 0x7F ∧
     t.mem = s.mem))

/-- R185–R188: forced releases. -/
def Obligations.ForcedReleases : Prop :=
  ∀ s : State,
  (1 ∈ s.fw.forced → exec .nandSafePointDone s = .next (grantNext 1 (freeLease 1
    { s with fw := { s.fw with forced := s.fw.forced.filter (fun x => x ≠ 1) } }))) ∧
  (∀ l : Fin 5, s.leaseHolder l = 58 → s.isOpen 0 = true →
    exec (.leaseRevocation l) s = .next (closeIsland 58 6 (s.bump F.fenceLeaseEventsRevoked 1))) ∧
  (∀ l : Fin 5, s.leaseHolder l = 0 → exec (.leaseTimerExpiry l) s =
    .next (grantNext l (freeLease l (revokeCommand l (leaseEnded l (s.bump F.fenceLeaseEventsTimer 1)))))) ∧
  (∀ l, l < 5 → (freeLease l s).leaseHolder l = 0x7F ∧ (freeLease l s).get (F.fenceLeaseEpoch l) = 0 ∧
    (freeLease l s) = { s with regs := (freeLease l s).regs })

/-- R189, R190: KEYMB_LOAD, KEYMB_CLEAR and KEYMB_CLEAR_ALL. -/
def Obligations.KeyMailbox : Prop :=
  ∀ (s : State) (w : Writer) (key : BitVec 16) (slot : BitVec 4), s.reaches w R.bootKeymbCmd →
    let r := fun (needsSlot : Bool) => if key ≠ 0x4E7B ∨ isPf0 w = false ∨ s.hasToken w = false ∨
        s.get F.bootKeymbStatusBusy = 1 then 1 else if s.power ≠ 0 then 2
      else if needsSlot = true ∧ slot = 0 then 3 else if s.isOpen 0 = false then 6 else 0
    (r true ≠ 0 → exec (.keymbLoad w key slot) s = .next (s.put F.bootKeymbStatusResult (r true)) ∧
      exec (.keymbClear w key slot) s = .next (s.put F.bootKeymbStatusResult (r true))) ∧
    (r false ≠ 0 → exec (.keymbClearAll w key) s = .next (s.put F.bootKeymbStatusResult (r false))) ∧
    (r true = 0 → ∃ t, exec (.keymbClear w key slot) s = .next t ∧ t.get F.bootKeymbStatusResult = 0 ∧
      t.get F.bootKeymbStatusDone = 1 ∧ t.fw.keyStore = s.fw.keyStore.filter (fun e => e.1 ≠ slot.toNat) ∧
      t.mem.keys = t.fw.keyStore) ∧
    (r false = 0 → ∃ t, exec (.keymbClearAll w key) s = .next t ∧ t.get F.bootKeymbStatusResult = 0 ∧
      ∀ e ∈ t.mem.keys, e.1 = 0) ∧
    (r true = 0 → ∀ m s1, readSource w ((noteOrigin 3 w s).rd64 R.bootKeymbAddr) 64 (noteOrigin 3 w s) = (some m, s1) →
      (m.take 32 = m.drop 32 → exec (.keymbLoad w key slot) s = .next (finishKeymb 5 s1)) ∧
      (m.take 32 ≠ m.drop 32 → ∃ t, exec (.keymbLoad w key slot) s = .next t ∧ t.get F.bootKeymbStatusResult = 0 ∧
        t.get F.bootKeymbStatusDone = 1 ∧ t.mem.keys = t.fw.keyStore ∧
        t.rd R.bootKeymbKcv = BitVec.ofNat 32 (leNat ((aesEnc (m.take 32) (List.replicate 16 0)).take 4)) ∧
        ∃ u : State, t.fw.keyStore = (slot.toNat, m.take 32, m.drop 32) :: u.fw.keyStore.filter (fun e => e.1 ≠ slot.toNat) ∧
          u = flushKeys (fun k => k == slot.toNat) (writeDest w ((noteOrigin 3 w s).rd64 R.bootKeymbAddr) (List.replicate 64 0) s1)))

/-- R204, R208, R211, R217: SQ_DOORBELL and CQ_DOORBELL. -/
def Obligations.DoorbellRules : Prop :=
  ∀ (s : State) (fn : Fin 8) (ring : Fin 64) (v : BitVec 16), s.power ≠ 2 → s.hostReaches fn = true →
    s.get F.bootStatusSafe ≠ 1 → s.mustHold = false → s.isShut 60 = false →
    (s.sqFn ring ≠ fn ∨ s.get (F.sqStatusState ring) ≠ RING_ENABLED →
      exec (.sqDoorbell fn ring v) s = .next (s.bump (F.sqTailDiscarded ring) 1)) ∧
    (s.cqFn ring ≠ fn ∨ s.get (F.cqStatusState ring) ≠ RING_ENABLED →
      exec (.cqDoorbell fn ring v) s = .next (s.bump (F.cqHeadDiscarded ring) 1)) ∧
    (s.sqFn ring = fn → s.get (F.sqStatusState ring) = RING_ENABLED → s.isShut 56 = true →
      exec (.sqDoorbell fn ring v) s = .next { s with host := { s.host with
        latched := (ring.val, v.toNat, s.timeUs) :: s.host.latched.filter (fun l => l.1 ≠ ring.val) } }) ∧
    (s.sqFn ring = fn → s.get (F.sqStatusState ring) = RING_ENABLED → s.isShut 56 = false →
      let size := 2 ^ s.get (F.sqCfgSizeLog2 ring)
      let old := s.get (F.sqTailValue ring)
      let fwd := fun x : Nat => (x + size - s.get (F.sqStatusHead ring)) % size
      let bad := size ≤ v.toNat ∨ fwd v.toNat < fwd old
      (bad → ∃ t, exec (.sqDoorbell fn ring v) s = .next t ∧ t.get (F.sqStatusState ring) = RING_HALTED ∧
        t.get (F.sqStatusHaltReason ring) = 1 ∧ t.get (F.sqTailValue ring) = old ∧ t.mem = s.mem) ∧
      (¬ bad → v.toNat = old → exec (.sqDoorbell fn ring v) s = .next s) ∧
      (¬ bad → v.toNat ≠ old → ∃ t, exec (.sqDoorbell fn ring v) s = .next t ∧ t.get (F.sqTailValue ring) = v.toNat ∧
        (∃ d : Door, d.sq = ring ∧ d.tail = v.toNat ∧ d.us = s.timeUs ∧
          t = { s with regs := t.regs, host := { s.host with doors := s.host.doors ++ [d] } }) ∧
        ∀ o, o ≠ R.sqTail ring → t.rd o = s.rd o)) ∧
    (s.cqFn ring = fn → s.get (F.cqStatusState ring) = RING_ENABLED →
      let size := 2 ^ s.get (F.cqCfgSizeLog2 ring)
      let fwd := fun x : Nat => (x + size - s.get (F.cqHeadValue ring)) % size
      let bad := size ≤ v.toNat ∨ fwd (s.get (F.cqStatusTail ring)) < fwd v.toNat
      (bad → ∃ t, exec (.cqDoorbell fn ring v) s = .next t ∧ t.get (F.cqStatusState ring) = RING_HALTED ∧
        t.get (F.cqStatusHaltReason ring) = 1 ∧ t.mem = s.mem) ∧
      (¬ bad → (∀ c ∈ s.host.waiting, c.cq ≠ ring) →
        exec (.cqDoorbell fn ring v) s = .next (s.put (F.cqHeadValue ring) v.toNat)))

/-- R203, R206–R209, R224: ring control, function ranges and ring owners. -/
def Obligations.RingControl : Prop :=
  ∀ (s : State) (fn : Fin 8) (r : Fin 64),
  (s.reaches (.host fn) (R.sqCtrl r) →
    let st := s.get (F.sqStatusState r)
    let e := if s.get (F.sqCfgSizeLog2 r) < 4 ∨ 12 < s.get (F.sqCfgSizeLog2 r) ∨ s.rd64 (R.sqBase r) % 4096 ≠ 0 then 5
      else if s.get (F.cqStatusState (s.get (F.sqCfgCq r))) ≠ RING_ENABLED ∨ s.cqFn (s.get (F.sqCfgCq r)) ≠ s.sqFn r then 6
      else if s.allotOwner (s.get (F.sqCfgAllot r)) ≠ some (s.sqFn r) then 7 else 0
    (st ≠ RING_DISABLED → exec (.ringEnable fn false r) s = .next s) ∧
    (st = RING_DISABLED → e ≠ 0 → exec (.ringEnable fn false r) s = .next (s.wr R.hostqError (BitVec.ofNat 32 e))) ∧
    (st = RING_DISABLED → e = 0 → exec (.ringEnable fn false r) s =
      .next (s.puts [(F.sqStatusState r, RING_ENABLED), (F.sqStatusHaltReason r, 0), (F.sqCtrlEnable r, 1)])) ∧
    (st = RING_DISABLED ∨ st = RING_DRAINING → exec (.ringDisable fn false r) s = .next s) ∧
    (st = RING_ENABLED ∨ st = RING_HALTED → ∃ t, exec (.ringDisable fn false r) s = .next t ∧
      t.get (F.sqCtrlEnable r) = 0 ∧ t.mem = s.mem ∧ t.host.entries = s.host.entries ∧ (∀ h ∈ t.host.heads, h.1 ≠ r.val) ∧
      ((∃ x ∈ s.host.entries, x.sq = r.val) → t.get (F.sqStatusState r) = RING_DRAINING) ∧
      ((∀ x ∈ s.host.entries, x.sq ≠ r.val) → t.get (F.sqStatusState r) = RING_DISABLED ∧
        t.get (F.sqStatusHead r) = 0 ∧ t.get (F.sqTailValue r) = 0))) ∧
  (s.reaches (.host fn) (R.cqCtrl r) →
    let st := s.get (F.cqStatusState r)
    let e := if s.get (F.cqCfgSizeLog2 r) < 4 ∨ 12 < s.get (F.cqCfgSizeLog2 r) ∨ s.rd64 (R.cqBase r) % 4096 ≠ 0 then 5
      else if s.get (F.cqCfgVector r) < 2 then 8
      else if s.get (F.cqCfgSpace r) = 1 ∧ s.allotOwner (s.get (F.cqCfgAllot r)) ≠ some (s.cqFn r) then 7 else 0
    (st ≠ RING_DISABLED → exec (.ringEnable fn true r) s = .next s) ∧
    (st = RING_DISABLED → e ≠ 0 → exec (.ringEnable fn true r) s = .next (s.wr R.hostqError (BitVec.ofNat 32 e))) ∧
    (st = RING_DISABLED → e = 0 → exec (.ringEnable fn true r) s =
      .next (s.puts [(F.cqStatusState r, RING_ENABLED), (F.cqStatusHaltReason r, 0), (F.cqCtrlEnable r, 1)])) ∧
    (st = RING_DISABLED ∨ st = RING_DRAINING → exec (.ringDisable fn true r) s = .next s) ∧
    (st = RING_ENABLED ∨ st = RING_HALTED →
      (∃ q, q < 64 ∧ s.get (F.sqStatusState q) ≠ RING_DISABLED ∧ s.get (F.sqCfgCq q) = r.val) →
      exec (.ringDisable fn true r) s = .next (s.wr R.hostqError 9))) ∧
  (∀ (g : Fin 8) (base : BitVec 6) (count : BitVec 7), s.reaches (.host 0) (R.hostqFn g) →
    let b := base.toNat
    let c := count.toNat
    let lap := fun h : Nat => h < 8 ∧ h ≠ g.val ∧ b < s.get (F.hostqFnAllotBase h) + s.get (F.hostqFnAllotCount h) ∧
      s.get (F.hostqFnAllotBase h) < b + c
    (s.hasToken (.host 0) = false → exec (.fnWrite (.host 0) g base count) s = .next (s.wr R.hostqError 2)) ∧
    (s.hasToken (.host 0) = true → 64 < b + c → exec (.fnWrite (.host 0) g base count) s = .next (s.wr R.hostqError 7)) ∧
    (s.hasToken (.host 0) = true → b + c ≤ 64 → (∃ h, lap h) →
      exec (.fnWrite (.host 0) g base count) s = .next (s.wr R.hostqError 3)) ∧
    (s.hasToken (.host 0) = true → b + c ≤ 64 → (∀ h, ¬ lap h) → s.hasRing g = true →
      exec (.fnWrite (.host 0) g base count) s = .next (s.wr R.hostqError 4)) ∧
    (s.hasToken (.host 0) = true → b + c ≤ 64 → (∀ h, ¬ lap h) → s.hasRing g = false →
      exec (.fnWrite (.host 0) g base count) s =
        .next (s.puts [(F.hostqFnAllotBase g, b), (F.hostqFnAllotCount g, c)]))) ∧
  (∀ (a b : Fin 8), s.reaches (.host 0) (R.hostqRingOwner r) →
    let changed := s.sqFn r ≠ a.val ∨ s.cqFn r ≠ b.val
    let busy := (s.sqFn r ≠ a.val ∧ s.get (F.sqStatusState r) ≠ RING_DISABLED) ∨
      (s.cqFn r ≠ b.val ∧ s.get (F.cqStatusState r) ≠ RING_DISABLED)
    (¬ changed → exec (.ringOwnerWrite (.host 0) r a b) s = .next s) ∧
    (changed → s.hasToken (.host 0) = false → exec (.ringOwnerWrite (.host 0) r a b) s = .next (s.wr R.hostqError 2)) ∧
    (changed → s.hasToken (.host 0) = true → busy →
      exec (.ringOwnerWrite (.host 0) r a b) s = .next (s.wr R.hostqError 4)) ∧
    (changed → s.hasToken (.host 0) = true → ¬ busy → exec (.ringOwnerWrite (.host 0) r a b) s =
      .next (s.puts [(F.hostqRingOwnerSqFn r, a.val), (F.hostqRingOwnerCqFn r, b.val)])))

/-- R199, R209, R210, R213, R214, R218, R290: the life of an entry. -/
def Obligations.EntryEvents : Prop :=
  ∀ s : State,
  (∀ r : Fin 64, s.mayFetch r = true → s.get (F.sqCfgSpace r) = 0 → s.canIssue (s.sqFn r) = true →
    exec (.entryFetch r) s = .next (dispatchOne { s with host := { s.host with
      nextRead := s.host.nextRead + 1,
      reads := s.host.reads ++ [⟨s.host.nextRead, s.sqFn r,
        s.rd64 (R.sqBase r) + 64 * s.get (F.sqStatusHead r), 64, .entry r, s.timeUs⟩] } })) ∧
  (∀ r : Fin 64, s.mayFetch r = false → exec (.entryFetch r) s = .next (dispatchOne s)) ∧
  (∀ (x : HostRead) (q : Nat) (res : HostResult), s.readOf x.id = some x → x.purpose = .entry q → q < 64 →
    s.get (F.sqStatusState q) = RING_ENABLED → (∀ bs, res = .data bs → bs.length ≠ x.len) →
    ∃ t, exec (.hostCompletion x.id res) s = .next t ∧ exec (.completionTimeout x.id) s = .next t ∧
      t.get (F.sqStatusState q) = RING_HALTED ∧ t.get (F.sqStatusHaltReason q) = 2 ∧ t.mem = s.mem ∧ t.readOf x.id = none) ∧
  (∀ (x : HostRead) (u : Nat) (res : HostResult), s.readOf x.id = some x → x.purpose = .descriptor u →
    s.timeUs ≤ x.us + 1 → (∀ bs, res = .data bs → bs.length ≠ x.len) →
    let t := finishEntry u (dw1 0xF0 0x42 0) 0
      { s with host := { s.host with reads := s.host.reads.filter (fun y => y.id ≠ x.id) } }
    exec (.hostCompletion x.id res) s = .next t ∧ exec (.completionTimeout x.id) s = .next t) ∧
  (∀ e : Entry, s.entry e.uid = some e → s.isOpen 56 = true → e.discard = false →
    let done := fun r : Result => settleSq e.sq (postCompletion
      ⟨e.sq, s.get (F.sqCfgCq e.sq), e.tag, r.status, r.detail, r.info, r.count, e.cls, e.irqNow⟩
      { s with host := { s.host with entries := s.host.entries.filter (fun y => y.uid ≠ e.uid) } })
    (e.opcode = 0 → exec (.nop e.uid) s = .next (done ⟨0, 0, 0, 0⟩)) ∧
    (e.opcode = 6 → (∀ b ∈ s.mmu.batches, b.fn = s.sqFn e.sq → b.number ≠ bytesAt e.args 0 4) →
      exec (.resume e.uid) s = .next (done ⟨0xF0, 0x60, 0, 0⟩)) ∧
    (∀ d, e.opcode = 2 → e.desc = some d → (∀ x ∈ s.hose.transfers, x.uid ≠ e.uid) →
      exec (.hose e.uid) s = .next (takeTransfer e d s))) ∧
  (∀ r : Fin 64, s.isShut 60 = false → s.get (F.cqCfgIen r) = 1 → s.get (F.cqCfgTime r) ≠ 0 →
    (∃ n, (r.val, n) ∈ s.host.unsignalled) → exec (.cqCoalesceTimer r) s =
      .next (sendMsi (s.cqFn r) (s.get (F.cqCfgVector r))
        { s with host := { s.host with unsignalled := s.host.unsignalled.filter (fun e => e.1 ≠ r.val) } }))

/-- R220–R222: HEARTBEAT_BEAT, HEARTBEAT_LAPSE, GRANT and RECLAIM. -/
def Obligations.TokenMoves : Prop :=
  ∀ s : State,
  let moved := fun (holder how : Nat) (t : State) => t.get F.hostqTokenHolder = holder ∧ t.get F.hostqTokenHow = how ∧
    t.get (F.fenceLeaseHolder 5) = (if holder = 0 then 60 else 2) ∧ t.get F.hostqHeartbeatArmed = 0 ∧
    t.mem = s.mem ∧ t.plan = s.plan ∧ t.boot = s.boot ∧ ∀ n, n < 72 → t.hedge n = s.hedge n ∧ t.epoch n = s.epoch n
  (s.reaches (.host 0) R.hostqHeartbeat → ∃ t, exec (.heartbeatBeat 0) s = .next t ∧ t.get F.hostqHeartbeatAgeMs = 0 ∧
    t.get F.hostqHeartbeatArmed = 1 ∧ t = { s with regs := t.regs } ∧ ∀ o, o ≠ R.hostqHeartbeat → t.rd o = s.rd o) ∧
  (s.get F.hostqHeartbeatArmed = 1 ∧ s.get F.hostqTokenHolder = 0 ∧ s.power = 0 →
    ∃ t, exec .heartbeatLapse s = .next t ∧ moved 1 2 t) ∧
  (¬ (s.get F.hostqHeartbeatArmed = 1 ∧ s.get F.hostqTokenHolder = 0 ∧ s.power = 0) →
    exec .heartbeatLapse s = .next s) ∧
  (s.reaches (.host 0) R.hostqToken →
    let holder := s.get F.hostqTokenHolder
    let how := s.get F.hostqTokenHow
    (∀ key, key ≠ 0x70C3 → exec (.grant (.host 0) key) s = .next (s.put F.hostqTokenResult 1) ∧
      exec (.reclaim (.host 0) key) s = .next (s.put F.hostqTokenResult 1)) ∧
    (holder ≠ 0 → exec (.grant (.host 0) 0x70C3) s = .next (s.put F.hostqTokenResult 2)) ∧
    (holder = 0 → ∃ t, exec (.grant (.host 0) 0x70C3) s = .next t ∧ t.get F.hostqTokenResult = 0 ∧ moved 1 1 t) ∧
    (holder ≠ 1 → exec (.reclaim (.host 0) 0x70C3) s = .next (s.put F.hostqTokenResult 4)) ∧
    (holder = 1 → how = 1 → exec (.reclaim (.host 0) 0x70C3) s = .next (s.put F.hostqTokenResult 3)) ∧
    (holder = 1 → how = 2 ∨ how = 3 →
      ∃ t, exec (.reclaim (.host 0) 0x70C3) s = .next t ∧ t.get F.hostqTokenResult = 0 ∧ moved 0 0 t))

/-- R106, R199, R201, R203, R218, R221, R223, R563: functions, link, vectors, configuration space and BAR4. -/
def Obligations.FunctionsAndLink : Prop :=
  ∀ s : State,
  (∀ f : Fin 8, (s.fn f).present = true → s.isShut 60 = false → s.host.fns.length = 8 →
    exec (.functionReset f .flr) s = .next (resetFunction f s) ∧
    ((s.fn f).d3hot = true → exec (.functionReset f .d3Return) s = .next (resetFunction f s)) ∧
    (s.host.vfEnable = true → exec (.functionReset f .vfEnableClear) s = .next (clearVfs s)) ∧
    (∃ t, exec (.d3hotEntry f) s = .next t ∧ t.fn f = { s.fn f with d3hot := true } ∧ t = s.setFn f (t.fn f) ∧
      ∀ g : Fin 8, g ≠ f → t.fn g = s.fn g) ∧
    (∃ t, exec (.busMasterEnable f false) s = .next t ∧ (t.fn f).busMaster = false ∧ t.host.msgs = s.host.msgs ∧
      t.mem = s.mem)) ∧
  (∀ (v : BitVec 4) (w : BitVec 6), s.host.linkUp = false → s.boot.linkTraining = true → s.isShut 60 = false →
    1 ≤ v.toNat ∧ v.toNat ≤ 4 → w.toNat = 1 ∨ w.toNat = 2 ∨ w.toNat = 4 → ∃ t, exec (.pcieLinkUp v w) s = .next t ∧
      t.host = { s.host with linkUp := true } ∧ t.get F.hostqLinkSpeed = v.toNat ∧ t.get F.hostqLinkWidth = w.toNat ∧
      t.get F.bootStatusLinkPending = 0 ∧ t.mem = s.mem) ∧
  (s.host.linkUp = false → exec .pcieLinkDown s = .next s) ∧
  (s.host.linkUp = true → s.get F.hostqTokenHolder ≠ 0 → s.get F.pwrStatusPhase = 0 → ∃ t, exec .pcieLinkDown s = .next t ∧
    ∃ u : State, t = refreshUrgent u ∧ u.get F.hostqLinkSpeed = 0 ∧ u.get F.hostqLinkWidth = 0) ∧
  (∀ (f : Fin 8) (x : Fin 64) (a : DWord) (d : Word), s.power ≠ 2 → s.hostReaches f = true → s.get F.bootStatusSafe ≠ 1 →
    s.mustHold = false → s.isShut 60 = false → exec (.msixUnmask f x a d true) s =
      .next (sendHeld f (s.setFn f { s.fn f with msix := setAt x.val (a.toNat, d.toNat, true) (s.fn f).msix }))) ∧
  (∀ (f : Fin 8) (i : ConfigItem) (v : Option Nat), s.power ≠ 2 → s.host.linkUp = true → (s.fn f).present = true →
    s.mustHold = false →
    (s.boot.starting = true → s.get F.bootStatusStep ≤ 14 → exec (.configurationRequest f i v) s =
      .next { s with host := { s.host with retried := true } }) ∧
    (s.boot.starting = false → i = .ids → v = none → ∃ t, exec (.configurationRequest f i v) s = .next t ∧
      t.host.retried = false ∧ t.host.readData = [0x7A, 0x1F, if f = 0 then 0x00 else 0x01, 0x64] ∧ t.regs = s.regs ∧
      t.mem = s.mem)) ∧
  (∀ (off : BitVec 34) (len : Nat) (data : Option (List Byte)), s.power ≠ 2 → s.hostReaches 0 = true → s.mustHold = false →
    off.toNat + len ≤ s.host.bar4Size → (∀ bs, data = some bs → bs.length = len) →
    (s.isShut 60 = true → exec (.bar4Access off len data) s = .next (darkAccess 60 s)) ∧
    (s.isShut 60 = false →
      s.bar4Admits (s.rd64 R.hostqBar4Base / s.host.bar4Size * s.host.bar4Size + off.toNat) len = false →
      ∃ t, exec (.bar4Access off len data) s = .next t ∧ t.mem = s.mem ∧
        t.get F.hostqBar4CtrlDenied = min 0xFFFF (s.get F.hostqBar4CtrlDenied + 1) ∧
        (data = none → t.host.readData = List.replicate len 0xFF)))

/-- R229, R231–R233, R244: SMBUS_PACKET, MCTP_REASSEMBLY_TIMEOUT, ARBITRATION_RETRY, ALERT_RESPONSE, ADDRESS_MATCH and
the packets of a response. -/
def Obligations.PortPackets : Prop :=
  (∀ (who : Requester) (own eid : Nat) (m : List Byte), own < 128 → m.length ≤ 2048 →
    let ps := respPackets who own eid 32 0 true m
    ps ≠ [] ∧ (ps.map (fun p => (p.drop 8).dropLast)).flatten = m ∧
    ∀ i, ∀ p, ps[i]? = some p →
      9 ≤ p.length ∧ p.length ≤ 73 ∧ p.getLast? = some (BitVec.ofNat 8 (crc8 p.dropLast)) ∧
      p.getD 0 0 = BitVec.ofNat 8 (2 * who.addr.toNat) ∧ p.getD 5 0 = who.eid ∧ p.getD 6 0 = BitVec.ofNat 8 eid ∧
      (bit (p.getD 7 0).toNat 7 = true ↔ i = 0) ∧ (bit (p.getD 7 0).toNat 6 = true ↔ i + 1 = ps.length)) ∧
  (∀ s : State,
    (∀ bs : List Byte, s.isOpen 2 = true → (bs.getD 0 0).toNat = 2 * s.get F.mgmtCfgAddr →
      bs.length ≠ (bs.getD 2 0).toNat + 4 ∨ (bs.getD (bs.length - 1) 0).toNat ≠ crc8 (bs.take (bs.length - 1)) →
      exec (.smbusPacket bs) s = .next (s.bump F.mgmtCount0PecErr 1)) ∧
    (∀ bs : List Byte, (bs.getD 0 0).toNat ≠ 2 * s.get F.mgmtCfgAddr → exec (.smbusPacket bs) s = .next s) ∧
    (∀ x ∈ s.mgmt.partials, exec (.mctpReassemblyTimeout x.who) s = .next ({ s with mgmt := { s.mgmt with
      partials := s.mgmt.partials.filter (fun y => y.who ≠ x.who) } }.bump F.mgmtCount0Dropped 1)) ∧
    (∀ r rest, s.mgmt.sent = r :: rest →
      (r.lost < 2 → exec .arbitrationRetry s =
        .next { s with mgmt := { s.mgmt with sent := { r with lost := r.lost + 1 } :: rest } }) ∧
      (2 ≤ r.lost → exec .arbitrationRetry s =
        .next ({ s with mgmt := { s.mgmt with sent := rest } }.bump F.mgmtCount1ArbLost 1))) ∧
    (s.isOpen 2 = true → exec .alertResponse s = .next { s with mgmt := { s.mgmt with
      alertAnswer := if s.alertDriven = true then some (s.get F.mgmtCfgAddr) else none } }) ∧
    (s.isOpen 2 = true → exec .addressMatch s = .next (wakeEvent 2 s)))

/-- R234, R236, R237: the responses to MCTP control and PLDM requests. -/
def Obligations.ControlAndPldmRequests : Prop :=
  ∀ (s : State) (who : Requester) (inst : Byte), s.isOpen 2 = true → s.mgmt.requests = [] →
    let i : Byte := BitVec.ofNat 8 (inst.toNat % 32)
    let answers := fun (c : Instr) (m : List Byte) => ∃ t, exec c s = .next t ∧ t.mem = s.mem ∧
      t.mgmt.partials = s.mgmt.partials ∧ (∀ o, o ≠ R.mgmtCount1 → o ≠ R.mgmtCfg → t.rd o = s.rd o) ∧
      ∃ r, t.mgmt.sent = r :: s.mgmt.sent ∧ r.who = who ∧ r.lost = 0 ∧ m <+: r.msg
    (∀ op eid : Byte, op.toNat % 4 < 2 → eid ≠ 0 → eid ≠ 0xFF → ∃ t, exec (.setEndpointId who inst [op, eid]) s = .next t ∧
      t.get F.mgmtCfgEid = eid.toNat ∧ t.mem = s.mem ∧ ∃ r, t.mgmt.sent = r :: s.mgmt.sent ∧ r.who = who ∧
      r.msg = [0x00, i, 0x01, 0x00, 0x00, eid, 0x00]) ∧
    (∀ op eid : Byte, 2 ≤ op.toNat % 4 → answers (.setEndpointId who inst [op, eid]) [0x00, i, 0x01, 0x02]) ∧
    answers (.getEndpointId who inst []) [0x00, i, 0x02, 0x00, BitVec.ofNat 8 (s.get F.mgmtCfgEid), 0x00] ∧
    answers (.getEndpointUuid who inst []) ([0x00, i, 0x03, 0x00] ++ s.boot.fuses.uuid) ∧
    answers (.getMctpVersionSupport who inst [0xFF]) [0x00, i, 0x04, 0x00, 0x01, 0xF1, 0xF3, 0xF0, 0x00] ∧
    answers (.getMctpVersionSupport who inst [0x7E]) [0x00, i, 0x04, 0x00, 0x01, 0xF1, 0xF0, 0xF0, 0x00] ∧
    answers (.getMessageTypeSupport who inst []) [0x00, i, 0x05, 0x00, 0x03, 0x00, 0x01, 0x7E] ∧
    answers (.getVendorDefinedMessageSupport who inst [0]) [0x00, i, 0x06, 0x00, 0xFF, 0x00, 0x1F, 0x7A, 0x00, 0x01] ∧
    (∀ tid : Byte, tid ≠ 0 → tid ≠ 0xFF → ∃ t, exec (.setTid who inst [tid]) s = .next t ∧ t.mgmt.tid = tid.toNat ∧
      t.mem = s.mem ∧ ∃ r, t.mgmt.sent = r :: s.mgmt.sent ∧ r.who = who ∧ r.msg = [0x01, i, 0x00, 0x01, 0x00]) ∧
    answers (.getTid who inst []) [0x01, i, 0x00, 0x02, 0x00, BitVec.ofNat 8 s.mgmt.tid] ∧
    answers (.getPldmVersion who inst [0, 0, 0, 0, 1, 0]) [0x01, i, 0x00, 0x03, 0x00, 0, 0, 0, 0, 0x05, 0x00, 0xF0, 0xF1, 0xF1] ∧
    answers (.getPldmVersion who inst [0, 0, 0, 0, 1, 2]) [0x01, i, 0x00, 0x03, 0x00, 0, 0, 0, 0, 0x05, 0x00, 0xF0, 0xF2, 0xF1] ∧
    answers (.getPldmTypes who inst []) [0x01, i, 0x00, 0x04, 0x00, 0x05, 0, 0, 0, 0, 0, 0, 0] ∧
    answers (.getPldmCommands who inst [0, 0x00, 0xF0, 0xF1, 0xF1]) [0x01, i, 0x00, 0x05, 0x00, 0x3E, 0, 0, 0] ∧
    answers (.getSensorReading who inst [0x01, 0x00, 0]) [0x01, i, 0x02, 0x11, 0x00, 0x03, 0x00, 0x00] ∧
    (∀ k : Fin 12, bit (s.get F.fenceSensorFailFail) k = true →
      answers (.getSensorReading who inst [BitVec.ofNat 8 (k + 2), 0x00, 0]) [0x01, i, 0x02, 0x11, 0x00, 0x03, 0x02, 0x00]) ∧
    answers (.getStateSensorReadings who inst [0x20, 0x00, 0, 0])
      [0x01, i, 0x02, 0x21, 0x00, 0x01, 0x00, BitVec.ofNat 8 (s.power + 1)] ∧
    answers (.getPdrRepositoryInfo who inst []) ([0x01, i, 0x02, 0x50, 0x00, 0x00] ++ List.replicate 26 0 ++ [20, 0, 0, 0]) ∧
    (∀ n : Byte, answers (.getPdr who inst [0xFF, 0, 0, 0, 0, 0, 0, 0, 1, n, 0, 0, 0]) [0x01, i, 0x02, 0x51, 0x82])

/-- R238, R240, R242, R243, R245, R248: the vendor commands of Table 9.6. -/
def Obligations.VendorMessages : Prop :=
  ∀ (s : State) (who : Requester), s.isOpen 2 = true → s.mgmt.requests = [] →
    let answers := fun (c : Instr) (cmd cc status detail : Byte) (m : List Byte) => ∃ t, exec c s = .next t ∧ t.mem = s.mem ∧
      ∃ r, t.mgmt.sent = r :: s.mgmt.sent ∧ r.who = who ∧
        r.msg = [0x7E, 0x1F, 0x7A, cmd, 0x80, cc, status, detail] ++ m
    let word := fun off : Nat => leBytes 4 (s.rd off).toNat
    answers (.getStatus who 0 []) 0x01 0 0 0 (word R.globalId ++ word R.pwrStatus ++ word R.bootStatus ++ word R.fenceState ++
      word R.hostqToken ++ word R.planStatus) ∧
    (s.boot.mirror.length = 32 → answers (.getBootFail who 0 []) 0x02 0 0 0 s.boot.mirror) ∧
    answers (.tokenQuery who 0 [0, 0, 0]) 0x06 0 0 0 (word R.hostqToken) ∧
    (s.get (F.fenceLeaseHolder 5) ≠ 2 ∨ s.host.linkUp = false →
      answers (.tokenYield who 0 [0, 0, 0]) 0x06 0x05 0 0 (word R.hostqToken)) ∧
    (s.get (F.fenceLeaseHolder 5) = 2 → s.host.linkUp = true → ∃ t, exec (.tokenYield who 0 [0, 0, 0]) s = .next t ∧
      t.get F.hostqTokenHolder = 0 ∧ t.get F.hostqTokenHow = 0 ∧ t.get (F.fenceLeaseHolder 5) = 60 ∧ t.mem = s.mem) ∧
    (s.isShut 1 = false → s.get F.bootStatusSafe ≠ 1 →
      answers (.readReg who 0 (leBytes 4 R.planStatus ++ [1, 0, 0, 0])) 0x03 0 0 0 ([1, 0, 0, 0] ++ word R.planStatus)) ∧
    (s.get F.pwrStatusPhase ≠ 3 → s.power ≠ 4 → s.gkServing = false →
      let c : Byte := BitVec.ofNat 8 (s.get (F.islandStateLastCause 0))
      ∀ b, answers (.writeReg who 0 b) 0x04 0x02 0x11 c [] ∧ answers (.stageWrite who 0 b) 0x05 0x02 0x11 c [] ∧
        answers (.wake who 0 b) 0x07 0x02 0x11 c []) ∧
    (s.get F.pwrStatusPhase ≠ 3 → s.gkServing = true →
      answers (.writeReg who 0 []) 0x04 0x04 0 0 [] ∧ answers (.stageWrite who 0 []) 0x05 0x04 0 0 [] ∧
      (∀ b0 b1 b2 b3, s.power ≠ 0 →
        answers (.stageWrite who 0 ([0, 0, 0, 0, 4, 0, 0, 0] ++ [b0, b1, b2, b3])) 0x05 0x05 0 0 []) ∧
      (s.wakeEnabled 5 = false → answers (.wake who 0 []) 0x07 0x05 0 0 []) ∧
      (s.wakeEnabled 5 = true → s.power = 0 → answers (.wake who 0 []) 0x07 0 0 0 []))

/-- R24, R253, R255, R259, R265, R271: SHED_ACCESS and SHED_FILL_DONE. -/
def Obligations.ShedAccesses : Prop :=
  ∀ (s : State) (src : Fin 72) (ch : BitVec 4) (pa : BitVec 40) (key : BitVec 4),
  let a := pa.toNat
  let base := a / 128 * 128
  let o := a % 128
  let k := if s.region a = .general then key.toNat else 0
  let q : Req := ⟨src, s.memClass src ch.toNat, k, false⟩
  (∀ n, s.region a ≠ .bed n) →
  (∀ len na, regionAdmits (s.region a) src false = false → ∃ t, exec (.shedAccess src ch pa key na len none) s = .next t ∧
    t.mem.reply = some ⟨src, 0xF0, 0x82, []⟩ ∧ t.mem.lines = s.mem.lines ∧ t.mem.dram = s.mem.dram ∧
    (t.rd (R.memcDenied (s.channel a))).toNat = min 0xFFFFFFFF ((s.rd (R.memcDenied (s.channel a))).toNat + 1)) ∧
  (∀ len, regionAdmits (s.region a) src false = true → o + len ≤ 128 → (∃ f ∈ s.mem.fills, f.pa = base) →
    exec (.shedAccess src ch pa key false len none) s = .next (
      let t := s.bump32 (R.shedMisses (s.sliceOf base)) 1
      { t with mem := { t.mem with fills := s.mem.fills ++ [⟨base, src, q.cls, k, false, o, len, none⟩] } })) ∧
  (∀ len, regionAdmits (s.region a) src false = true → o + len ≤ 128 → (∀ f ∈ s.mem.fills, f.pa ≠ base) →
    s.line base = none → s.keyReady k = true → s.isShut (52 + s.sliceOf base) = false → s.isOpen (69 + s.channel base) = true →
    exec (.shedAccess src ch pa key true len none) s = .next (
      let t := s.bump32 (R.shedMisses (s.sliceOf base)) 1
      { t with mem := { t.mem with fills := s.mem.fills ++ [⟨base, src, q.cls, k, true, o, len, none⟩] } })) ∧
  (∀ l, s.line base = some l → l.slice < 4 → l.key = k → l.poison0 = false → l.poison1 = false → l.data.length = 128 →
    s.keyReady k = true → s.isShut (52 + s.sliceOf base) = false → (∀ f ∈ s.mem.fills, f.pa ≠ base) →
    (∀ len, regionAdmits (s.region a) src false = true → o + len ≤ 128 → ∃ t,
      exec (.shedAccess src ch pa key false len none) s = .next t ∧
      t.mem.reply = some ⟨src, 0, 0, (l.data.drop o).take len⟩ ∧ t.mem.dram = s.mem.dram) ∧
    (∀ bs : List Byte, regionAdmits (s.region a) src true = true → bs ≠ [] → o + bs.length ≤ 128 →
      s.get (F.shedStatusWriteThrough l.slice) = 0 → ∃ t l',
      exec (.shedAccess src ch pa key false bs.length (some bs)) s = .next t ∧ t.mem.reply = some ⟨src, 0, 0, []⟩ ∧
      t.line base = some l' ∧ l'.dirty = true ∧ (l'.data.drop o).take bs.length = bs ∧ l'.data.take o = l.data.take o ∧
      l'.data.drop (o + bs.length) = l.data.drop (o + bs.length) ∧ t.mem.dram = s.mem.dram ∧
      ∀ b, b ≠ base → t.line b = s.line b)) ∧
  (∀ c u, (∀ f ∈ s.mem.fills, f.pa ≠ base) → exec (.shedFillDone pa c u) s = .next s) ∧
  (∀ f ∈ s.mem.fills, f.pa = base → s.boot.clearing = none →
    exec (.shedFillDone pa false false) s = .next (performFills base s) ∧ ∀ g ∈ (performFills base s).mem.fills, g.pa ≠ base)

/-- R254, R255, R261, R274: SHED_FILL, SHED_WRITEBACK, SHED_FLUSH, ECC_SCRUB, QOS_WINDOW, REFRESH_RATE_CHANGE. -/
def Obligations.MemoryCommands : Prop :=
  ∀ s : State,
  (∀ (w : Writer) (key : BitVec 16) (sl : Fin 4) (e : BitVec 4), s.reaches w R.shedCmd →
    let r := if key ≠ 0x5E1C ∨ isPf0 w = false ∨ s.hasToken w = false ∨ s.get F.shedCmdStatusBusy = 1 then 1
      else if s.power ≠ 0 ∨ s.get F.planStatusPhase ≠ 0 then 2 else 0
    let unused := 12 ≤ e.toNat ∨ s.get (F.shedLockWays sl e.toNat) = 0
    (r ≠ 0 → exec (.shedFill w key sl e) s = .next (s.put F.shedCmdStatusResult r) ∧
      exec (.shedWriteback w key sl e) s = .next (s.put F.shedCmdStatusResult r) ∧
      exec (.shedFlush w key) s = .next (s.put F.shedCmdStatusResult r)) ∧
    (r = 0 → unused → exec (.shedFill w key sl e) s = .next (s.put F.shedCmdStatusResult 3) ∧
      exec (.shedWriteback w key sl e) s = .next (s.put F.shedCmdStatusResult 3)) ∧
    (r = 0 → ¬ unused → exec (.shedFill w key sl e) s = .next (shedDone (preloadLock sl e.toNat s)) ∧
      exec (.shedWriteback w key sl e) s =
        .next (shedDone (s.each (s.mem.lines.filter (fun l => s.lockOf l.pa == some (sl.val, e.toNat))) writeBack))) ∧
    (r = 0 → exec (.shedFlush w key) s =
      .next (shedDone (s.each (s.mem.lines.filter (fun l => (s.lockOf l.pa).isNone)) writeBack)))) ∧
  ((shedDone s).get F.shedCmdStatusDone = 1 ∧ (shedDone s).get F.shedCmdStatusResult = 0 ∧ (shedDone s).mem = s.mem) ∧
  (∀ c : Fin 2, exec (.qosWindow c) s = .next { s with mem := { s.mem with class0 := setAt c.val 0 s.mem.class0 } }) ∧
  (∀ (c : Fin 2) (d : Bool), s.isOpen (69 + c) = true →
    exec (.refreshRateChange c d) s = .next (s.put (F.memcCfgRefreshX2 c) (if d = true then 1 else 0))) ∧
  (∀ c u, s.get (F.memcCfgEcc 0) = 0 → s.get (F.memcCfgEcc 1) = 0 → exec (.eccScrub c u) s = .next s) ∧
  (∀ pa, pa < s.usable → s.isOpen 69 = true → s.get (F.memcCfgEcc 0) = 1 → s.channel pa = 0 → ∃ t,
    exec (.eccScrub [] [pa]) s = .next t ∧ pa / 64 * 64 ∈ t.mem.poison ∧
    t.get (F.memcEccUncorrectable 0) = min 0xFFFF (s.get (F.memcEccUncorrectable 0) + 1) ∧
    t.rd64 (R.memcEccAddr 0) = pa / 64 * 64 % 2 ^ 64 ∧ t.mem.dram = s.mem.dram)

/-- R275, R276, R281, R282, R285, R286, R288: TRANSLATION_WALK. -/
def Obligations.TranslationFaults : Prop :=
  ∀ (s : State) (island : Fin 72) (allot : Fin 64) (va : DWord) (acc : Access) (st : Stream) (fn : Nat),
  s.isOpen island = true → s.isShut 60 = false → cannotRestart island acc st = false → s.allotOwner allot = some fn →
  s.get (F.mmuFrCfgEnable fn) = 1 →
  (s.isStalled st = true → exec (.translationWalk island allot va acc st) s = .next s) ∧
  (s.isStalled st = false →
    let faults := fun (reason level : Nat) => ∃ t, exec (.translationWalk island allot va acc st) s = .next t ∧
      t.isStalled st = true ∧ t.get (F.mmuAllotStatFaults allot) = min 0xFFFF (s.get (F.mmuAllotStatFaults allot) + 1) ∧
      ∃ b ∈ t.mmu.batches, b.fn = fn ∧ ∃ r ∈ b.records, r.reason = reason ∧ r.level = level ∧ r.va = va.toNat ∧
        r.access = acc ∧ r.allot = allot.val ∧ r.fatal = false
    let en := bit (s.rd64 (R.mmuAllotRoot allot)) 0
    (en = false → faults 7 0) ∧
    (en = true → 2 ^ 48 ≤ va.toNat → faults 6 0) ∧
    (∀ e, en = true → va.toNat < 2 ^ 48 → s.cached island allot va.toNat = some e →
      (acc = .read → e.r = false → faults 2 e.level) ∧ (acc = .write → e.w = false → faults 3 e.level) ∧
      (acc = .fetch → e.x = false → faults 4 e.level) ∧
      ((acc = .read → e.r = true) → (acc = .write → e.w = true) → (acc = .fetch → e.x = true) →
        exec (.translationWalk island allot va acc st) s = .next s)))

/-- R283, R284, R288, R289, R291, R297–R299: BATCH_TIMEOUT, BATCH_WRITE, FAULT_TIMEOUT, INVAL_*, INVALIDATION_DONE,
FAULT_RING_ENABLE. -/
def Obligations.FaultsAndInvalidation : Prop :=
  ∀ s : State,
  (∀ f : Fin 8, (s.openBatch f = none → exec (.batchTimeout f) s = .next s) ∧
    (∀ b, s.openBatch f = some b → exec (.batchTimeout f) s = .next (writeBatch f (putBatch { b with phase := .closed } s)))) ∧
  (∀ (f : Fin 8) (b : Batch), s.isShut 60 = false → s.mmu.batches.find? (fun x => x.fn = f.val && x.phase == .closed) = some b →
    b.number < 2 ^ 32 → s.get (F.mmuFrCfgEnable f) = 1 →
    b.records.length ≤ s.freeRun f (s.ringSlots f) (s.mmu.writePos.getD f 0) → ∃ t, exec (.batchWrite f) s = .next t ∧
      t.get (F.mmuFrStatusLastBatch f) = b.number % 2 ^ (F.mmuFrStatusLastBatch f).width ∧
      (∃ b' ∈ t.mmu.batches, b'.fn = f ∧ b'.number = b.number ∧ b'.phase = .written ∧ b'.holds = true ∧
        b'.slot = s.mmu.writePos.getD f 0 ∧ b'.records = b.records) ∧ t.mem.dram = s.mem.dram) ∧
  (∀ x ∈ s.mmu.stalls, s.power ≠ 1 → s.mmu.stalls.find? (fun y => y.stream == x.stream) = some x →
    exec (.faultTimeout x.stream) s =
      .next (endStream x.stream 0x31 ((markLate x.id s).bump (F.mmuAllotStatTimeouts x.allot) 1))) ∧
  (∀ st, s.isStalled st = false → exec (.faultTimeout st) s = .next s) ∧
  (∀ (key : BitVec 16) (al : Fin 64), s.reaches (.host 0) R.mmuInval →
    let va := s.rd64 R.mmuInvalVa
    let pages := s.get F.mmuInvalPagesPages
    let r := fun range : Bool => if key ≠ 0x3A11 then 1 else if s.get F.mmuInvalStatusBusy = 1 then 2
      else if range = true ∧ (pages = 0 ∨ 2 ^ 48 ≤ va) then 3 else 0
    let gone := fun (c : Instr) (scope : TlbEntry → Prop) => ∃ t, exec c s = .next t ∧
      t.get F.mmuInvalStatusBusy = 1 ∧ t.get F.mmuInvalStatusResult = 0 ∧ t.mem = s.mem ∧
      (∀ x, x ∈ t.mmu.tlb ↔ x ∈ s.mmu.tlb ∧ ¬ scope x) ∧ ∃ u, exec .invalidationDone t = .next u ∧
      u.get F.mmuInvalStatusBusy = 0 ∧ u.get F.mmuInvalStatusDone = 1 ∧ u.mmu.tlb = t.mmu.tlb ∧ u.mmu.inval = none
    (r false ≠ 0 → exec (.invalAll 0 key) s = .next (s.put F.mmuInvalStatusResult (r false)) ∧
      exec (.invalAllot 0 key al) s = .next (s.put F.mmuInvalStatusResult (r false))) ∧
    (r true ≠ 0 → exec (.invalRange 0 key al) s = .next (s.put F.mmuInvalStatusResult (r true))) ∧
    (r false = 0 → gone (.invalAll 0 key) (fun _ => True) ∧ gone (.invalAllot 0 key al) (fun x => x.allot = al.val)) ∧
    (r true = 0 → gone (.invalRange 0 key al) (fun x => x.allot = al.val ∧
      x.va < va / 4096 * 4096 + pages * 4096 ∧ va / 4096 * 4096 < x.va + x.size))) ∧
  (s.mmu.inval = none → exec .invalidationDone s = .next s) ∧
  (∀ f : Fin 8, s.reaches (.host 0) (R.mmuFrCfg f) → s.get (F.mmuFrCfgEnable f) = 0 →
    let lg := s.get (F.mmuFrCfgSizeLog2 f)
    let m := if s.get (F.mmuFrCfgBatchMax f) = 0 then 256 else s.get (F.mmuFrCfgBatchMax f)
    let tu := s.get (F.mmuFrCfgBatchTimeUs f)
    let ok := 6 ≤ lg ∧ lg ≤ 12 ∧ m ≤ 2 ^ lg ∧ 1 ≤ tu ∧ tu ≤ 1000 ∧ s.rd64 (R.mmuFrBase f) % 4096 = 0
    (¬ ok → ∃ t, exec (.faultRingEnable 0 f) s = .next t ∧ t.get (F.mmuFrCfgEnable f) = 0 ∧
      (t.rd R.hostqError).toNat = 5 ∧ t.mmu = s.mmu ∧ t.mem = s.mem) ∧
    (ok → s.rd (R.mmuFrCfg f) &&& reservedBits (R.mmuFrCfg f) = 0 → s.mmu.batches = [] → s.mmu.writePos.length = 8 →
      ∃ t, exec (.faultRingEnable 0 f) s = .next t ∧
      t.get (F.mmuFrCfgEnable f) = 1 ∧ t.get (F.mmuFrStatusPhase f) = 1 ∧ t.mmu.writePos.getD f 1 = 0 ∧ t.mem = s.mem))

/-- R307, R309, R318: SLAB_CREDIT, RELEASE_ADD, HOSE_CFG_WRITE. -/
def Obligations.HoseChannels : Prop :=
  ∀ (s : State) (e : Fin 2) (c : Fin 16),
  (∀ t, s.running e c = some t → s.slabReady t = true → exec (.slabCredit e c) s = .next (runSlab t s)) ∧
  (∀ t, s.running e c = some t → s.slabReady t = false → exec (.slabCredit e c) s = .next s) ∧
  (s.running e c = none → c.val < 12 → exec (.slabCredit e c) s = .next s) ∧
  (∀ (w : Writer) (add : BitVec 16), s.reaches w (R.hoseReleaseAdd e c) →
    let r := (s.rd (R.hoseRelease e c)).toNat + add.toNat
    let cur := (s.rd (R.hoseCursor e c)).toNat
    (cur < r → exec (.releaseAdd w e c add) s = .next (s.bump (F.hoseErrOverRelease e c) 1)) ∧
    (r ≤ cur → ∃ t, exec (.releaseAdd w e c add) s = .next t ∧ (t.rd (R.hoseRelease e c)).toNat = r ∧
      t.rd (R.hoseCursor e c) = s.rd (R.hoseCursor e c) ∧ t = { s with regs := t.regs })) ∧
  (∀ (w : Writer) (v : Word), s.reaches w (R.hoseCfg e c) →
    let own := getBits v 8 1 = 1 ∧ getBits v 9 1 = e.val ∧ getBits v 12 4 = c.val
    let ok := s.hasToken w = true ∧ (∀ t ∈ s.hose.transfers, ¬ (t.engine = e.val ∧ t.channel = c.val)) ∧ ¬ own
    (¬ ok → exec (.hoseCfgWrite w e c v) s = .next (s.bump (F.hoseErrCfgRefused e c) 1)) ∧
    (ok → v &&& reservedBits (R.hoseCfg e c) = 0 → ∃ t, exec (.hoseCfgWrite w e c v) s = .next t ∧
      t.get (F.hoseCfgOwner e c) = getBits v 0 2 ∧ t.get (F.hoseCfgFn e c) = getBits v 4 3 ∧
      t.get (F.hoseCfgUpEn e c) = getBits v 8 1 ∧ t.get (F.hoseCfgUpEngine e c) = getBits v 9 1 ∧
      t.get (F.hoseCfgUpChannel e c) = getBits v 12 4 ∧ t.mem = s.mem ∧ t.hose = s.hose))

/-- R329, R330, R340, R346: BED_NOP, END, BR, BRP, CALL, RET, BRK, SLEEP, SLEEP_EXPIRY, EXECP. -/
def Obligations.BedControlFlow : Prop :=
  (∀ (s : State) (bed slot : Fin 48) (w : Wave) (o : Order) (v x : Nat), s.issues bed slot w o v x → x / 2 ^ 32 = 0 →
    iClass v = 0 →
    let c := s.ctx bed w o v x
    let u := s.afterIssue bed w v
    let past := { w with pc := w.pc + if iExt v then 16 else 8 }
    let target := (((w.pc : Int) + sext 32 x) % (2 ^ 64 : Int)).toNat
    let moves := fun (i : Instr) (w' : Wave) => ∃ t, exec i s = .next t ∧ t.wave bed slot = some w' ∧ t.mem = s.mem ∧
      t.host = s.host ∧ t.mmu = s.mmu ∧ ∀ r, r ≠ R.bedIssued bed → r ≠ R.bedIssued bed + 4 → t.rd r = s.rd r
    let traps := fun (i : Instr) (kind detail : Nat) => exec i s = .next (trapWave bed w kind 0xF0 detail v u)
    (iOp v = 0 → moves (.bedNop bed slot) past) ∧
    (iOp v = 1 → iExt v = false → (∃ y ∈ (s.bedAt bed).waves, y.slot ≠ slot.val ∧ y.group = w.group ∧ y.wait ≠ .bar) →
      ∃ t, exec (.endWave bed slot) s = .next t ∧ t.wave bed slot = none ∧ t.mem = s.mem ∧
        ∀ k, k ≠ slot.val → t.wave bed k = s.wave bed k) ∧
    (iOp v = 2 → (iExt v = false → traps (.br bed slot) 1 0xA0) ∧ (iExt v = true → x % 8 ≠ 0 → traps (.br bed slot) 2 0xA1) ∧
      (iExt v = true → x % 8 = 0 → moves (.br bed slot) { w with pc := target })) ∧
    (iOp v = 3 → iExt v = true → x % 8 = 0 → isP (iA v) = true →
      let p := Nat.land (c.pred (iA v)) w.exec
      let m := slice (iMod v) 0 2
      let holds := if m = 0 then p ≠ 0 else if m = 1 then p = 0 else p = w.exec
      (m = 3 → traps (.brp bed slot) 1 0xA0) ∧
      (m ≠ 3 → holds → moves (.brp bed slot) { w with pc := target }) ∧
      (m ≠ 3 → ¬ holds → moves (.brp bed slot) past)) ∧
    (iOp v = 4 → (8 ≤ w.stack.length → traps (.call bed slot) 4 0xA3) ∧ (w.stack.length < 8 → iExt v = true → x % 8 = 0 →
      moves (.call bed slot) { w with pc := target, stack := (w.pc + 16) :: w.stack })) ∧
    (iOp v = 5 → (w.stack = [] → traps (.ret bed slot) 4 0xA3) ∧
      (∀ a r, w.stack = a :: r → moves (.ret bed slot) { w with pc := a, stack := r })) ∧
    (iOp v = 6 → traps (.brk bed slot) 3 0xA2) ∧
    (iOp v = 7 → c.srcOk false 4 (iA v) = true →
      (c.src 4 (iA v) 0 = 0 → moves (.sleep bed slot) past) ∧
      (c.src 4 (iA v) 0 ≠ 0 → moves (.sleep bed slot) { past with wait := .sleep })) ∧
    (iOp v = 8 → isP (iA v) = true → 0x100 ≤ iDst v → iDst v ≤ 0x11F →
      let p := c.pred (iA v)
      moves (.execp bed slot) { past with
        sregs := setAt (iDst v - 0x100) (w.exec % 2 ^ 32) w.sregs,
        exec := Nat.land w.exec (if bit (iMod v) 0 = true then 2 ^ 32 - 1 - p else p) })) ∧
  (∀ (s : State) (bed slot : Fin 48) (w : Wave), s.isOpen (bed + 4) = true → s.wave bed slot = some w → w.wait = .sleep →
    exec (.sleepExpiry bed slot) s = .next (putWave bed { w with wait := .ready } s))

/-- R331: the SALU forms of MOV, ADD, SUB, MUL, MAD, MULHI, MIN, MAX, AND, OR, XOR, NOT, SHL, SHR, SAR, CLAMP, POPC, CLZ,
BFE and BFI. -/
def Obligations.ScalarArithmetic : Prop :=
  ∀ (s : State) (bed slot : Fin 48) (w : Wave) (o : Order) (v x : Nat), s.issues bed slot w o v x → x / 2 ^ 32 = 0 →
    iClass v = 1 → iType v = 4 → 0x100 ≤ iDst v → iDst v ≤ 0x11F →
    let c := s.ctx bed w o v x
    c.srcOk false 4 (iA v) = true → c.srcOk false 4 (iB v) = true → c.srcOk false 4 (iC v) = true →
    let a := c.src 4 (iA v) 0 % 2 ^ 32
    let b := c.src 4 (iB v) 0 % 2 ^ 32
    let d := c.src 4 (iC v) 0 % 2 ^ 32
    let gives := fun (op : Nat) (i : Instr) (r : Nat) => iOp v = op → ∃ t, exec i s = .next t ∧
      t.wave bed slot = some { w with
        pc := w.pc + (if iExt v then 16 else 8), sregs := setAt (iDst v - 0x100) r w.sregs } ∧
      t.mem = s.mem ∧ t.host = s.host ∧ t.mmu = s.mmu ∧
      ∀ r, r ≠ R.bedIssued bed → r ≠ R.bedIssued bed + 4 → t.rd r = s.rd r
    let fit := fun (r : Nat) => if bit (iMod v) 4 = true then min r (2 ^ 32 - 1) else r % 2 ^ 32
    gives 0x00 (.mov bed slot) a ∧ gives 0x01 (.add bed slot) (fit (a + b)) ∧
    gives 0x02 (.sub bed slot) (if bit (iMod v) 4 = true then a - b else (a + 2 ^ 32 - b) % 2 ^ 32) ∧
    gives 0x03 (.mul bed slot) (fit (a * b)) ∧ gives 0x05 (.mad bed slot) (fit (a * b + d)) ∧ gives 0x06 (.mulhi bed slot) (a * b / 2 ^ 32) ∧
    gives 0x07 (.min bed slot) (Nat.min a b) ∧ gives 0x08 (.max bed slot) (Nat.max a b) ∧
    gives 0x09 (.and bed slot) (Nat.land a b) ∧ gives 0x0A (.or bed slot) (Nat.lor a b) ∧
    gives 0x0B (.xor bed slot) (Nat.xor a b) ∧ gives 0x0C (.not bed slot) (2 ^ 32 - 1 - a) ∧
    gives 0x0D (.shl bed slot) (a * 2 ^ (b % 32) % 2 ^ 32) ∧ gives 0x0E (.shr bed slot) (a / 2 ^ (b % 32)) ∧
    gives 0x0F (.sar bed slot) ((BitVec.ofNat 32 a).sshiftRight (b % 32)).toNat ∧
    gives 0x11 (.clamp bed slot) (Nat.max (Nat.min a d) b) ∧
    gives 0x1F (.popc bed slot) ((List.range 32).filter (fun i => a / 2 ^ i % 2 = 1)).length ∧
    (∀ k, k < 32 → 2 ^ k ≤ a → a < 2 ^ (k + 1) → gives 0x20 (.clz bed slot) (31 - k)) ∧
    (a = 0 → gives 0x20 (.clz bed slot) 32) ∧
    (b % 32 + d % 64 ≤ 32 → gives 0x21 (.bfe bed slot) (a / 2 ^ (b % 32) % 2 ^ (d % 64))) ∧
    (∀ n k, d = n + 2 ^ 8 * k → n + k ≤ 32 → n < 32 → k < 32 → gives 0x22 (.bfi bed slot)
      (a % 2 ^ n + 2 ^ n * (b % 2 ^ k) + 2 ^ (n + k) * (a / 2 ^ (n + k))))

/-- R326, R331: the VALU forms of ADD, SUB, MUL, FMA, SEL, FLOOR, CEIL, RNDNE, FRACT, RCP, RSQ, SQRT, EXP2, LOG2, SIN,
COS, DOT4 and DOT2. -/
def Obligations.VectorArithmetic : Prop :=
  ∀ (s : State) (bed slot : Fin 48) (w : Wave) (o : Order) (v x : Nat), s.issues bed slot w o v x → x / 2 ^ 32 = 0 →
    iClass v = 2 → iMod v = 0 → iDst v < 0x100 → iDst v < w.vgprs →
    let c := s.ctx bed w o v x
    c.mode = 1 → woTrapNan o.desc = false → c.srcOk true (iType v) (iA v) = true → c.srcOk true (iType v) (iB v) = true →
    let src := fun (code t : Nat) => c.src (iType v) code t % 2 ^ 32
    let gives := fun (op : Nat) (i : Instr) (r : Nat → Nat) => iOp v = op → ∃ t w', exec i s = .next t ∧
      t.wave bed slot = some w' ∧ w' = { w with pc := w.pc + (if iExt v then 16 else 8), vregs := w'.vregs } ∧
      t.mem = s.mem ∧ t.host = s.host ∧
      ∀ th, th < 32 → w'.vreg (iDst v) th = (if c.acts th = true then r th % 2 ^ 32 else w.vreg (iDst v) th) ∧
        ∀ d, d ≠ iDst v → w'.vreg d th = w.vreg d th
    (iType v = 0 → c.srcOk true 0 (iC v) = true →
      gives 0x01 (.add bed slot) (fun t => (fp32.add .rn (src (iA v) t) (src (iB v) t)).bits) ∧
      gives 0x02 (.sub bed slot) (fun t => (fp32.sub .rn (src (iA v) t) (src (iB v) t)).bits) ∧
      gives 0x03 (.mul bed slot) (fun t => (fp32.mul .rn (src (iA v) t) (src (iB v) t)).bits) ∧
      gives 0x04 (.fma bed slot) (fun t => (fp32.fma .rn (src (iA v) t) (src (iB v) t) (src (iC v) t)).bits) ∧
      gives 0x12 (.floor bed slot) (fun t => (fp32.integral .rn 0 (src (iA v) t)).bits) ∧
      gives 0x13 (.ceil bed slot) (fun t => (fp32.integral .rn 1 (src (iA v) t)).bits) ∧
      gives 0x14 (.rndne bed slot) (fun t => (fp32.integral .rn 2 (src (iA v) t)).bits) ∧
      gives 0x15 (.fract bed slot) (fun t => (fp32.fract .rn (src (iA v) t)).bits) ∧
      gives 0x16 (.rcp bed slot) (fun t => (rcp .rn (c.free t 0) (src (iA v) t)).bits) ∧
      gives 0x17 (.rsq bed slot) (fun t => (rsq (c.free t 0) (src (iA v) t)).bits) ∧
      gives 0x18 (.sqrt bed slot) (fun t => (fp32.sqrt .rn (src (iA v) t)).bits) ∧
      gives 0x19 (.exp2 bed slot) (fun t => (exp2 .rn (c.free t 0) (src (iA v) t)).bits) ∧
      gives 0x1A (.log2 bed slot) (fun t => (log2 (c.free t 0) (src (iA v) t)).bits) ∧
      gives 0x1B (.sin bed slot) (fun t => (sinCos false (c.free t 0) (src (iA v) t)).bits) ∧
      gives 0x1C (.cos bed slot) (fun t => (sinCos true (c.free t 0) (src (iA v) t)).bits)) ∧
    (iType v ≤ 10 → isP (iC v) = true → gives 0x10 (.sel bed slot) (fun t =>
      if bit (c.pred (iC v)) t = true then src (iA v) t else src (iB v) t)) ∧
    (iType v = 7 → c.srcOk true 7 (iC v) = true → gives 0x1D (.dot4 bed slot) (fun t =>
      src (iC v) t + ((List.range 4).map (fun e => src (iA v) t / 2 ^ (8 * e) % 2 ^ 8 * (src (iB v) t / 2 ^ (8 * e) % 2 ^ 8))).sum)) ∧
    (iType v = 1 → c.srcOk true 1 (iC v) = true → iOp v = 0x1E → ∃ t w', exec (.dot2 bed slot) s = .next t ∧
      t.wave bed slot = some w' ∧ w'.pc = w.pc + (if iExt v then 16 else 8) ∧ t.mem = s.mem)

/-- R332, R333, R360: EQ to UNORD, TEST, PAND to PNOT, CVT, SHFL, SHFLX, READLANE, WRITELANE, RADD, RMIN, RMAX, BALLOT,
SCAN. -/
def Obligations.ComparesAndLanes : Prop :=
  ∀ (s : State) (bed slot : Fin 48) (w : Wave) (o : Order) (v x : Nat), s.issues bed slot w o v x → x / 2 ^ 32 = 0 →
    let c := s.ctx bed w o v x
    let past := w.pc + if iExt v then 16 else 8
    let src := fun (code t : Nat) => c.src (iType v) code t % 2 ^ 32
    let setsP := fun (cls op : Nat) (i : Instr) (r : Nat → Prop) => iClass v = cls → iOp v = op → isP (iDst v) = true →
      w.pregs.length = 8 → ∃ t w', exec i s = .next t ∧ t.wave bed slot = some w' ∧
        w' = { w with pc := past, pregs := w'.pregs } ∧ t.mem = s.mem ∧
        (∀ th, th < 32 → c.acts th = true → (bit (w'.pregs.getD (iDst v - 0x190) 0) th = true ↔ r th)) ∧
        (∀ th, th < 32 → c.acts th = false →
          bit (w'.pregs.getD (iDst v - 0x190) 0) th = bit (w.pregs.getD (iDst v - 0x190) 0) th) ∧
        ∀ k, k ≠ iDst v - 0x190 → w'.pregs.getD k 0 = w.pregs.getD k 0
    let setsV := fun (cls op : Nat) (i : Instr) (r : Nat → Option Nat) => iClass v = cls → iOp v = op → iDst v < 0x100 →
      iDst v < w.vgprs → ∃ t w', exec i s = .next t ∧ t.wave bed slot = some w' ∧
        w' = { w with pc := past, vregs := w'.vregs } ∧ t.mem = s.mem ∧
        ∀ th, th < 32 → w'.vreg (iDst v) th = ((if c.acts th = true then r th else none).elim (w.vreg (iDst v) th) (· % 2 ^ 32)) ∧
          ∀ d, d ≠ iDst v → w'.vreg d th = w.vreg d th
    let setsS := fun (cls op : Nat) (i : Instr) (r : Nat) => iClass v = cls → iOp v = op → 0x100 ≤ iDst v → iDst v ≤ 0x11F →
      ∃ t, exec i s = .next t ∧ t.mem = s.mem ∧
        t.wave bed slot = some { w with pc := past, sregs := setAt (iDst v - 0x100) (r % 2 ^ 32) w.sregs }
    (iType v = 4 → c.srcOk true 4 (iA v) = true → c.srcOk true 4 (iB v) = true →
      setsP 3 0 (.eq bed slot) (fun t => src (iA v) t = src (iB v) t) ∧
      setsP 3 1 (.ne bed slot) (fun t => src (iA v) t ≠ src (iB v) t) ∧
      setsP 3 2 (.lt bed slot) (fun t => src (iA v) t < src (iB v) t) ∧
      setsP 3 3 (.le bed slot) (fun t => src (iA v) t ≤ src (iB v) t) ∧
      setsP 3 4 (.gt bed slot) (fun t => src (iB v) t < src (iA v) t) ∧
      setsP 3 5 (.ge bed slot) (fun t => src (iB v) t ≤ src (iA v) t) ∧
      setsP 3 6 (.ord bed slot) (fun _ => True) ∧ setsP 3 7 (.unord bed slot) (fun _ => False) ∧
      setsP 3 8 (.test bed slot) (fun t => Nat.land (c.src 4 (iA v) t) (c.src 4 (iB v) t) ≠ 0)) ∧
    (isP (iA v) = true → isP (iB v) = true →
      let p := fun t => bit (c.pred (iA v)) t = true
      let q := fun t => bit (c.pred (iB v)) t = true
      setsP 3 0x10 (.pand bed slot) (fun t => p t ∧ q t) ∧ setsP 3 0x11 (.por bed slot) (fun t => p t ∨ q t) ∧
      setsP 3 0x12 (.pxor bed slot) (fun t => ¬ (p t ↔ q t)) ∧ setsP 3 0x13 (.pnot bed slot) (fun t => ¬ p t)) ∧
    (iType v = 4 → c.srcOk true 4 (iA v) = true → woTrapNan o.desc = false →
      (c.mode = 1 → setsV 4 4 (.cvt bed slot) (fun t => some (src (iA v) t))) ∧
      (c.srcOk true 4 (iB v) = true → setsV 10 0 (.shfl bed slot) (fun t =>
        let f := c.src 4 (iB v) t % 32
        some (if c.acts f = true then src (iA v) f else 0))) ∧
      (c.srcOk false 4 (iB v) = true → c.src 4 (iB v) 0 < 32 →
        setsV 10 1 (.shflx bed slot) (fun t => some (src (iA v) (Nat.xor t (c.src 4 (iB v) 0)))) ∧
        setsS 10 2 (.readlane bed slot) (src (iA v) (c.src 4 (iB v) 0))) ∧
      (c.srcOk false 4 (iA v) = true → c.srcOk false 4 (iB v) = true → setsV 10 3 (.writelane bed slot) (fun t =>
        if t = c.src 4 (iB v) 0 then some (src (iA v) 0) else none)) ∧
      setsS 10 4 (.radd bed slot) ((c.threads.map (src (iA v))).sum) ∧
      (c.threads = [] → setsS 10 5 (.rmin bed slot) 0 ∧ setsS 10 6 (.rmax bed slot) 0) ∧
      (∀ m, m ∈ c.threads.map (src (iA v)) →
        ((∀ y ∈ c.threads.map (src (iA v)), m ≤ y) → setsS 10 5 (.rmin bed slot) m) ∧
        ((∀ y ∈ c.threads.map (src (iA v)), y ≤ m) → setsS 10 6 (.rmax bed slot) m))) ∧
    (isP (iA v) = true → iType v ≤ 10 → setsS 10 7 (.ballot bed slot) (Nat.land (c.pred (iA v)) w.exec)) ∧
    (iType v = 3 → c.srcOk true 3 (iA v) = true → setsV 10 8 (.scan bed slot) (fun t =>
      some ((c.threads.filter (fun u => u < t)).map (fun u => c.src 3 (iA v) u)).sum))

/-- R334–R338: LDB, STB, ATOMB, LDG, STG, ATOMG, PREFETCH, SAMPLE, GATHER4, LOADTEX, LOAD_DATA_ARRIVAL. -/
def Obligations.BedMemoryAccesses : Prop :=
  (∀ (s : State) (bed slot : Fin 48) (w : Wave) (o : Order) (v x th : Nat), s.issues bed slot w o v x → x / 2 ^ 32 = 0 →
    let c := s.ctx bed w o v x
    let u := s.afterIssue bed w v
    c.threads = [th] →
    let traps := fun (i : Instr) (kind detail : Nat) => exec i s = .next (trapWave bed w kind 0xF0 detail v u)
    let loads := fun (i : Instr) (u2 : State) (width : Nat) (writes : List (Nat × Nat × Nat)) => bed.val < u2.bed.beds.length → ∃ t l, exec i s = .next t ∧
      (t.bedAt bed).loads = (u2.bedAt bed).loads ++ [l] ∧ l.slot = w.slot ∧ l.err = none ∧ l.writes = writes ∧
      l.regs = (List.range (max 1 (width / 4))).map (fun k => iDst v + k) ∧ t.mem = u2.mem ∧ t.regs = u2.regs
    (iClass v = 5 → c.offOk = true → (s.bedAt bed).queue = [] →
      let off := c.bedOff th
      (iOp v = 0 → iMod v % 8 = 2 → iDst v < 0x100 → iDst v < w.vgprs →
        (off % 4 ≠ 0 → traps (.ldb bed slot) 2 0xA1) ∧ (off % 4 = 0 → 0xB8000 < off + 4 → traps (.ldb bed slot) 7 0x81) ∧
        (off % 4 = 0 → off + 4 ≤ 0xB8000 → loads (.ldb bed slot) u 4 [(iDst v, th, s.bedNat bed off 4 % 2 ^ 32)])) ∧
      (iOp v = 1 → iMod v % 8 = 2 → c.srcOk true 4 (iB v) = true →
        (off % 4 ≠ 0 → traps (.stb bed slot) 2 0xA1) ∧ (off % 4 = 0 → 0xB8000 < off + 4 → traps (.stb bed slot) 7 0x81) ∧
        (off % 4 = 0 → off + 4 ≤ 0xB8000 → ∃ t, exec (.stb bed slot) s = .next t ∧
          t.bedNat bed off 4 = c.src 4 (iB v) th % 2 ^ 32 ∧
          t.mem.dram = s.mem.dram ∧ ∀ a, a < bedBase bed + off ∨ bedBase bed + off + 4 ≤ a →
            Memory.get ramFill t.mem.bedMem a = Memory.get ramFill s.mem.bedMem a)) ∧
      (iOp v = 2 → iMod v % 8 = 0 → iType v = 4 → iDst v < 0x100 → iDst v < w.vgprs → c.srcOk true 4 (iB v) = true →
        c.srcOk true 4 (iC v) = true → off % 4 = 0 → off + 4 ≤ 0xB8000 → ∃ t w', exec (.atomb bed slot) s = .next t ∧
        t.bedNat bed off 4 = (s.bedNat bed off 4 + c.src 4 (iB v) th) % 2 ^ 32 ∧ t.wave bed slot = some w' ∧
        w'.vreg (iDst v) th = s.bedNat bed off 4 % 2 ^ 32 ∧ ∀ a, a < bedBase bed + off ∨ bedBase bed + off + 4 ≤ a →
          Memory.get ramFill t.mem.bedMem a = Memory.get ramFill s.mem.bedMem a)) ∧
    (iClass v = 6 → c.pairOk = true → s.orderStalled w.uid = false →
      let va := c.va th
      let q := fun na => u.bedReq bed o.cls na
      (iOp v = 0 → iMod v % 8 = 2 → iDst v < 0x100 → iDst v < w.vgprs → va % 4 = 0 →
        ∀ e u1 bs u2, translate (q (bit (iMod v) 4)) o.fn o.allot va .read false u = (.ok e, u1) →
          vaRead (q (bit (iMod v) 4)) o.fn o.allot va 4 .read false u1 = (.ok bs, u2) →
          loads (.ldg bed slot) u2 4 [(iDst v, th, leNat bs % 2 ^ 32)]) ∧
      (iOp v = 1 → iMod v % 8 = 2 → c.srcOk true 4 (iB v) = true → va % 4 = 0 →
        ∀ e u1 u2, translate (q (bit (iMod v) 4)) o.fn o.allot va .write false u = (.ok e, u1) →
          vaWrite (q (bit (iMod v) 4)) o.fn o.allot va (leBytes 4 (c.src 4 (iB v) th % 2 ^ 32)) false u1 = (none, u2) →
          exec (.stg bed slot) s = .next u2) ∧
      (iOp v = 2 → iMod v % 8 = 5 → iDst v < 0x100 → iDst v < w.vgprs → c.srcOk true 4 (iB v) = true →
        c.srcOk true 4 (iC v) = true → va % 4 = 0 →
        ∀ e e' u1 u2 bs u3 u4, translate (q false) o.fn o.allot va .read false u = (.ok e, u1) →
          translate (q false) o.fn o.allot va .write false u1 = (.ok e', u2) → u2.hostPage (q false) o.fn o.allot va = false →
          vaRead (q false) o.fn o.allot va 4 .read false u2 = (.ok bs, u3) →
          vaWrite (q false) o.fn o.allot va (leBytes 4 (c.src 4 (iB v) th)) false u3 = (none, u4) →
          exec (.atomg bed slot) s = .next (c.writeV [(th, leNat bs)] u4)) ∧
      (iOp v = 3 → exec (.prefetch bed slot) s =
        .next (vaRead (q false) o.fn o.allot (va / 128 * 128) 128 .read false u).2)) ∧
    (iClass v = 7 → c.srcOk true 0 (iA v) = true → c.srcOk true 0 (iB v) = true → 0x100 ≤ iC v → iC v ≤ 0x118 →
      iC v % 8 = 0 → iDst v + 4 ≤ 0x100 → iDst v + 4 ≤ w.vgprs →
      let insn := fun k : Nat => if k = 0 then Instr.sample bed slot else if k = 1 then .gather4 bed slot else .loadtex bed slot
      iOp v ≤ 2 →
      (c.img = none → traps (insn (iOp v)) 1 0xA0) ∧
      (∀ i u1 wr u2, c.img = some i → s.orderStalled w.uid = false →
        translateAll (u.bedReq bed o.cls false) o.fn o.allot .read
          ((c.sampleRanges i).flatMap (fun r => [r.1, r.1 + r.2 - 1])) u = (none, u1) →
        sampleAll c (u.bedReq bed o.cls false) i [th] u1 = (.ok wr, u2) → loads (insn (iOp v)) u2 16 wr))) ∧
  (∀ (s : State) (bed : Fin 48) (k : Nat) (l : LoadInFlight) (w : Wave), s.isOpen (bed + 4) = true →
    (s.bedAt bed).loads[k]? = some l → s.wave bed l.slot = some w → bed.val < s.bed.beds.length →
    (l.err = none → ∃ t w', exec (.loadDataArrival bed k) s = .next t ∧ t.wave bed l.slot = some w' ∧
      w' = { w with vregs := w'.vregs } ∧ (t.bedAt bed).loads = (s.bedAt bed).loads.eraseIdx k ∧ t.mem = s.mem ∧
      ∀ d th y, l.writes = [(d, th, y)] → d < 0x100 → th < 32 → w'.vreg d th = y % 2 ^ 32) ∧
    (∀ e, l.err = some e → exec (.loadDataArrival bed k) s = .next (trapAccess bed { w with pc := l.pc }
      ⟨e.status, e.detail, e.island⟩ l.word
      (setBed bed { s.bedAt bed with loads := (s.bedAt bed).loads.eraseIdx k } s))))

/-- R339–R342, R348, R309: BAR, FENCE, SEM_WAIT, SEM_TAKE, SEM_ADD, SEM_SET, HRELEASE, SEMAPHORE_UPDATE, WAIT_TIMEOUT. -/
def Obligations.BedSynchronisation : Prop :=
  (∀ (s : State) (bed slot : Fin 48) (w : Wave) (o : Order) (v x : Nat), s.issues bed slot w o v x → x / 2 ^ 32 = 0 →
    iClass v = 8 →
    let c := s.ctx bed w o v x
    let u := s.afterIssue bed w v
    let past := { w with pc := w.pc + if iExt v then 16 else 8 }
    let moves := fun (i : Instr) (w' : Wave) => ∃ t, exec i s = .next t ∧ t.wave bed slot = some w' ∧ t.mem = s.mem ∧
      ∀ r, r ≠ R.bedIssued bed → r ≠ R.bedIssued bed + 4 → t.rd r = s.rd r
    let waits := fun k : WaveWait => { past with
      wait := k, since := (s.bedAt bed).waitSeq + 1, waitPc := w.pc, waitWord := v }
    (iOp v = 0 → (∃ y ∈ (s.bedAt bed).waves, y.slot ≠ slot.val ∧ y.group = w.group ∧ y.wait ≠ .bar) →
      moves (.bar bed slot) (waits .bar)) ∧
    (iOp v = 0 → (∀ y ∈ (s.bedAt bed).waves, y.slot ≠ slot.val → y.group = w.group → y.wait = .bar) →
      moves (.bar bed slot) { waits .bar with wait := .ready }) ∧
    (iOp v = 1 → slice (iMod v) 0 2 ≤ 2 → moves (.fence bed slot) past) ∧
    (c.srcOk false 4 (iA v) = true → c.srcOk false 4 (iB v) = true →
      let k := c.src 4 (iA v) 0
      let n := c.src 4 (iB v) 0
      (k < 16 → iOp v = 2 → moves (.semWait bed slot) (waits (.semWait k n))) ∧
      (k < 16 → iOp v = 3 → moves (.semTake bed slot) (waits (.semTake k n))) ∧
      (k < 16 → iOp v = 4 → iC v = 0x1FF → ∃ t, exec (.semAdd bed slot) s = .next t ∧ t.wave bed slot = some past ∧
        (t.bedAt bed).incs = (s.bedAt bed).incs ++ [(k, n)] ∧ (∀ j, j < 16 → t.sem bed j = s.sem bed j) ∧ t.mem = s.mem) ∧
      (k < 16 → iOp v = 5 → ∃ t, exec (.semSet bed slot) s = .next t ∧ t.wave bed slot = some past ∧
        (t.bedAt bed).sets = (s.bedAt bed).sets ++ [(k, n)] ∧ (∀ j, j < 16 → t.sem bed j = s.sem bed j) ∧ t.mem = s.mem) ∧
      (iOp v = 6 → k < 256 → slice k 1 3 = 0 → s.get (F.hoseCfgOwner (k % 2) (k / 16)) < 2 → s.isShut (67 + k % 2) = false →
        exec (.hrelease bed slot) s = .next (releaseChannel (k % 2) (k / 16) n u)))) ∧
  (∀ (s : State) (bed : Fin 48) (k : Fin 16), s.isOpen (bed + 4) = true → bed.val < s.bed.beds.length →
    (∀ n, (s.bedAt bed).incs = [(k.val, n)] → (s.bedAt bed).sets = [] → (s.bedAt bed).waves = [] →
      ∃ t, exec (.semaphoreUpdate bed) s = .next t ∧ t.sem bed k = min (2 ^ 32 - 1) (s.sem bed k + n) ∧
        (t.bedAt bed).incs = [] ∧ t.mem = s.mem ∧ (∀ j : Fin 16, j ≠ k → t.sem bed j = s.sem bed j)) ∧
    (∀ (w : Wave) (n : Nat), (s.bedAt bed).incs = [] → (s.bedAt bed).sets = [] → (s.bedAt bed).waves = [w] →
      (w.wait = .semWait k n → n ≤ s.sem bed k → ∃ t, exec (.semaphoreUpdate bed) s = .next t ∧
        t.wave bed w.slot = some { w with wait := .ready } ∧ t.sem bed k = s.sem bed k) ∧
      (w.wait = .semTake k n → n ≤ s.sem bed k → ∃ t, exec (.semaphoreUpdate bed) s = .next t ∧
        t.wave bed w.slot = some { w with wait := .ready } ∧ t.sem bed k = s.sem bed k - n) ∧
      (w.wait = .semWait k n ∨ w.wait = .semTake k n → s.sem bed k < n → ∃ t, exec (.semaphoreUpdate bed) s = .next t ∧
        t.wave bed w.slot = some w ∧ t.sem bed k = s.sem bed k))) ∧
  (∀ (s : State) (bed slot : Fin 48) (w : Wave), s.isOpen (bed + 4) = true → s.wave bed slot = some w →
    (w.waits = true → exec (.waitTimeout bed slot) s = .next (trapWave bed { w with pc := w.waitPc } 5 0xF0 0xA4 w.waitWord s)) ∧
    (w.waits = false → exec (.waitTimeout bed slot) s = .next s))

/-- R343–R346, R371, R390: TMMA, TSPARSE, TACC_STORE, TACC_READ, TACC_WRITE, TWAIT, TENSOR_ENTRY_DONE, TRAP_CLEAR,
NUMX_CLEAR. -/
def Obligations.TensorQueue : Prop :=
  (∀ (s : State) (bed slot : Fin 48) (w : Wave) (o : Order) (v x : Nat), s.issues bed slot w o v x → iClass v = 9 →
    (s.bedAt bed).queue.length < 8 → slice x 28 4 = 0 →
    let c := s.ctx bed w o v x
    let a := c.src 4 (iA v) 0
    let b := c.src 4 (iB v) 0
    let k := c.src 4 (iC v) 0
    let queues := fun (i : Instr) (a b k : Nat) (regs : List Nat) => ∃ t, exec i s = .next t ∧
      (t.bedAt bed).queue = (s.bedAt bed).queue ++ [⟨w.slot, w.uid, w.tile, w.pc, v, x, a, b, k, regs⟩] ∧
      (t.bedAt bed).banks = (s.bedAt bed).banks ∧ t.mem = s.mem ∧
      t.wave bed slot = some { w with pc := w.pc + if iExt v then 16 else 8 }
    let inScratch := fun (base rows stride len : Nat) => ∀ r, r < rows →
      s.get (F.bedSplitTile bed) * 0x8000 ≤ base + r * stride ∧
      base + r * stride + len ≤ s.get (F.bedSplitTile bed) * 0x8000 + s.get (F.bedSplitScratch bed) * 0x8000
    (iOp v ≤ 1 → iExt v = true → tClear x = true → c.tensorSrc (iA v) = true → c.tensorSrc (iB v) = true →
      c.tensorSrc (iC v) = true → 1 ≤ k → k ≤ 4096 → tillerPair (tTypeA x) (tTypeB x) = some (iType v) → tTypeA x ≠ 10 →
      (iOp v = 0 → tSpA x = false → tSpB x = false → tTrans x = true → tStrideA x % 4 = 0 →
        inScratch a (tM x) (tStrideA x) (packBytes (tTypeA x) k) → inScratch b (tN x) (tStrideB x) (packBytes (tTypeB x) k) →
        queues (.tmma bed slot) a b k []) ∧
      (iOp v = 1 → tSpA x = true → tSpB x = false → tTrans x = true → tStrideA x = 0 →
        inScratch b (tN x) (tStrideB x) (packBytes (tTypeB x) k) → queues (.tsparse bed slot) a b k []) ∧
      (iOp v = 1 → tSpA x = true → tSpB x = true → tTrans x = false → tStrideA x = 0 → tStrideB x = 0 →
        queues (.tsparse bed slot) a b k [])) ∧
    (iOp v = 2 → iExt v = true → tSpA x = false → tSpB x = false → iType v ≤ 10 →
      c.tensorSrc (iA v) = true → c.srcOk false 0 (iB v) = true → iB v ≠ 0x1F0 → tStrideA x % 4 = 0 →
      inScratch a (tM x) (tStrideA x) (packBytes (iType v) (tN x)) →
      queues (.taccStore bed slot) a (c.src 0 (iB v) 0) 0 []) ∧
    (iType v = 0 ∨ iType v = 3 →
      (iOp v = 3 → iDst v < 0x100 → iDst v + tM x ≤ w.vgprs → queues (.taccRead bed slot) (listMask c.threads) 0 0 []) ∧
      (iOp v = 4 → iA v < 0x100 → iA v + tM x ≤ w.vgprs → queues (.taccWrite bed slot) (listMask c.threads) 0 0
        ((List.range (tM x)).flatMap (fun i => (List.range 32).map (fun th => c.src 4 (iA v + i) th))))) ∧
    (iOp v = 5 → iExt v = false → ∀ n, n < 8 → iA v = 0x140 + n →
      let mine := ((s.bedAt bed).queue.filter (fun q => q.slot = w.slot)).length
      (mine ≤ n → ∃ t, exec (.twait bed slot) s = .next t ∧ t.wave bed slot = some { w with pc := w.pc + 8 } ∧ t.mem = s.mem) ∧
      (n < mine → ∃ t w', exec (.twait bed slot) s = .next t ∧ t.wave bed slot = some w' ∧ w'.wait = .twait n ∧
        w'.pc = w.pc + 8 ∧ w'.waitPc = w.pc ∧ t.mem = s.mem))) ∧
  (∀ (s : State) (bed : Fin 48), s.isOpen (bed + 4) = true →
    ((s.bedAt bed).queue = [] → exec (.tensorEntryDone bed) s = .next s) ∧
    (∀ q rest o, (s.bedAt bed).queue = q :: rest → s.order q.uid = some o → iOp q.word = 4 → (s.bedAt bed).banks.length = 8 →
      ∃ t bank, exec (.tensorEntryDone bed) s = .next t ∧ (t.bedAt bed).queue = rest ∧ t.mem = s.mem ∧
        (t.bedAt bed).banks[tBank q.ext]? = some bank ∧ bank.fp = (iType q.word == 0) ∧
        ∀ i j, i < tM q.ext → j < tN q.ext → bit q.a j = true →
          let y := q.regs.getD (i * 32 + j) 0
          cellGet zeroInt bank.el (i * 32 + j) = if iType q.word = 0 then (y : Int) else sext 32 y)) ∧
  (∀ (s : State) (w : Writer) (bed : Fin 48), s.reaches w (R.bedTrap bed) → ∃ t, exec (.trapClear w bed) s = .next t ∧
    t.rd64 (R.bedTrap bed) = 0 ∧ t.rd64 (R.bedTrapPc bed) = 0 ∧ t.rd64 (R.bedTrapWord bed) = 0 ∧
    t = { s with regs := t.regs }) ∧
  (∀ (s : State) (w : Writer) (bed : BitVec 6) (what : BitVec 2), s.reaches w R.numxClear → bed.toNat < 48 →
    ∃ t, exec (.numxClear w bed what false) s = .next t ∧ t = { s with regs := t.regs } ∧
      (bit what.toNat 0 = true → ∀ i, i < 8 → t.rd (R.numxGuard bed.toNat i) = 0) ∧
      (bit what.toNat 1 = true → ∀ i, i < 8 → t.rd (R.numxNan bed.toNat i) = 0))

/-- R380: GEMM, CONV, DWCONV, POOL, ELTWISE, REDUCE, GATHER, EMBED_MATCH, PROGRAM. -/
def Obligations.WorkOrderChecks : Prop :=
  ∀ (s : State) (uid : Nat) (e : Entry) (d : List Byte) (p : PlotCfg) (op : Nat) (i : Instr),
  (op, i) ∈ [(1, Instr.gemm uid), (2, .conv uid), (3, .dwconv uid), (4, .pool uid), (5, .eltwise uid), (6, .reduce uid),
    (7, .gather uid), (8, .embedMatch uid), (9, .program uid)] →
  s.entry uid = some e → e.uid = uid → e.desc = some d → e.opcode = 1 → woOp d = op → s.isOpen 56 = true → s.order uid = none →
  s.plotCfg e.plot = some p →
  let beds := s.eligible p (woMask d)
  let c1 := woDescOk d = true
  let c2 := roleOk p d = true
  let c3 := beds ≠ []
  let c4 := op = 9 ∨ ∀ b ∈ beds, woNeedBits d ≤ s.get (F.bedSplitScratch b) * 0x8000 * 8
  let c5 := op ≠ 9 ∨ groupFits (woSize d 2) (woSize d 3) p.waves = true
  let ends := fun status detail count => exec i s = .next (finishEntry uid (dw1 status detail 0) count s)
  (¬ c1 → ends 0xF0 0xB0 0) ∧
  (c1 → ¬ c2 → ends 0x41 0xB1 0) ∧
  (c1 → c2 → ¬ c3 → ends 0x41 0xB3 0) ∧
  (c1 → c2 → c3 → ¬ c4 → ends 0xF0 0xB2 0) ∧
  (c1 → c2 → c3 → c4 → ¬ c5 → ends 0xF0 0xB5 0) ∧
  (c1 → c2 → c3 → c4 → c5 → woStart d = woT d → ends 0 0 (woT d)) ∧
  (c1 → c2 → c3 → c4 → c5 → woStart d ≠ woT d → ∃ t o, exec i s = .next t ∧ t.bed.orders = s.bed.orders ++ [o] ∧
    o.uid = uid ∧ o.desc = d ∧ o.next = woStart d ∧ o.prefix_ = woStart d ∧ o.total = woT d ∧ o.later = [] ∧ o.ending = none ∧
    t.mem = s.mem ∧ t.host = s.host ∧
    (e.cls ≠ 0 → t = { s with bed := { s.bed with orders := s.bed.orders ++ [o] } }))

/-- R349, R381–R385, R526, R527: TILE_START, TILE_COMPLETE, MAX_TILE_TIME_EXPIRY, BED_RESTORE. -/
def Obligations.Tiles : Prop :=
  ∀ (s : State) (n : Fin 48), n.val < s.bed.beds.length →
  let b := s.bedAt n
  (s.nextOrder n = none → exec (.tileStart n) s = .next s) ∧
  (∀ o, s.nextOrder n = some o → s.order o.uid = some o → s.rakeJob o.uid = none →
    let limit := (s.plotCfg o.plot).elim 0 (fun p => p.waves)
    let lowest := (s.bedsFor o).find? (fun k => s.canTake k o limit)
    (lowest ≠ some n.val → exec (.tileStart n) s = .next s) ∧
    (lowest = some n.val → o.isBuiltin = true → ∃ t o', exec (.tileStart n) s = .next t ∧
      (t.bedAt n).built = some ⟨o.uid, o.next, o.cls, false⟩ ∧
      (t.bedAt n).gens = (List.range 128).map (seedGen (woSeed o.desc) o.next) ∧ (t.bedAt n).waves = b.waves ∧
      t.order o.uid = some o' ∧ o' = { o with next := o.next + 1 } ∧ t.mem = s.mem ∧ t.host = s.host) ∧
    (lowest = some n.val → o.isBuiltin = false → o.isRake = false → s.orderStalled o.uid = false →
      s.isShut (s.mover o).q.island = false → ∀ bs s1 k ws,
      vaRead (s.mover o).q o.fn o.allot (woVa o.desc 1 + 64 * o.next) 64 .read false s = (.ok bs, s1) →
      (s1.bedAt n).freeGroup = some k → s1.bed = s.bed →
      placeWaves (launched o.uid o.next k (woSize o.desc 3) (woVa o.desc 0)
        ((List.range 16).map (fun i => bytesAt bs (4 * i) 4))) (woSize o.desc 3) (woSize o.desc 2) 0 b.waves = some ws →
      ∃ t o', exec (.tileStart n) s = .next t ∧ (t.bedAt n).waves = ws ∧
        (t.bedAt n).groups = b.groups ++ [(k, ⟨o.uid, o.next, o.cls, false⟩)] ∧
        t.order o.uid = some o' ∧ o'.next = o.next + 1 ∧ t.mem = s1.mem)) ∧
  (b.built = none → exec (.tileComplete n) s = .next s) ∧
  (∀ tl o, b.built = some tl → s.order tl.uid = some o → s.isOpen (n + 4) = true → s.orderStalled o.uid = false →
    s.isShut (s.mover o).q.island = false → b.yielding = false → o.ending = none → woTrapOvf o.desc = false →
    (advance (o.later.length + 1) o.prefix_ (tl.tile :: o.later)).1 < o.total →
    ∀ w s1 s2, tileWork (s.mover o) tl.tile b.gens s = (.ok w, s1) → w.out.nan = none →
    writePieces (s.mover o) w.pieces s1 = (none, s2) → s2.bed = s.bed → ∃ t, exec (.tileComplete n) s = .next t ∧
      t.mem = s2.mem ∧ (t.bedAt n).built = none ∧ (t.bedAt n).banks = List.replicate 8 ⟨true, []⟩ ∧
      (t.bedAt n).waves = b.waves) ∧
  (b.yielding = false → exec (.maxTileTimeExpiry n) s = .next s) ∧
  (b.yielding = true → s.isOpen (n + 4) = true → b.loads = [] → b.queue = [] → ∃ t v, exec (.maxTileTimeExpiry n) s = .next t ∧
    (t.bedAt n).saved = some v ∧ v.waves = b.waves ∧ v.banks = b.banks ∧ v.gens = b.gens ∧ v.built = b.built ∧
    v.groups = b.groups ∧ v.mem = s.mem.bedMem.filter (fun c => bedBase n ≤ c.1 && c.1 < bedBase n + 0x100000) ∧
    (t.bedAt n).idle = true ∧ (t.bedAt n).waves = [] ∧ (t.bedAt n).yielding = false ∧ t.mem = s.mem) ∧
  (b.saved = none → exec (.bedRestore n) s = .next s) ∧
  (∀ v, b.saved = some v →
    (b.idle = false ∨ s.urgentWaits n = true ∨ s.isOpen (n + 4) = false → exec (.bedRestore n) s = .next s) ∧
    (b.idle = true → s.urgentWaits n = false → s.isOpen (n + 4) = true → ∃ t, exec (.bedRestore n) s = .next t ∧
      (t.bedAt n).waves = v.waves ∧ (t.bedAt n).banks = v.banks ∧ (t.bedAt n).gens = v.gens ∧ (t.bedAt n).built = v.built ∧
      (t.bedAt n).groups = v.groups ∧ (t.bedAt n).saved = none ∧ t.mem.dram = s.mem.dram ∧
      (∀ a, (∀ c ∈ v.mem, c.1 ≠ a) → Memory.get ramFill t.mem.bedMem a =
        if bedBase n ≤ a ∧ a < bedBase n + 0x100000 then 0 else Memory.get ramFill s.mem.bedMem a) ∧
      ∀ c ∈ v.mem, (v.mem.filter (fun x => x.1 = c.1)) = [c] → Memory.get ramFill t.mem.bedMem c.1 = c.2))

/-- R404, R407, R410, R411, R413, R414, R423: RAKE_RASTER, RAKE_FUSION, BINNING_DONE, RESOLVE_DONE. -/
def Obligations.RakeJobs : Prop :=
  ∀ s : State,
  (∀ (uid : Nat) (e : Entry) (d : List Byte) (p : PlotCfg) (m : Bool) (i : Instr),
    (m, i) ∈ [(false, Instr.rakeRaster uid), (true, .rakeFusion uid)] →
    s.entry uid = some e → e.uid = uid → e.desc = some d → e.opcode = 3 → rkFusion d = m → s.isOpen 56 = true → s.order uid = none →
    s.rakeJob uid = none → s.isOpen 65 = true → s.isStalled (.rake uid) = false → s.plotCfg e.plot = some p →
    let edge := tileEdge p.tile
    (rkDescOk d edge = false → exec i s = .next (finishEntry uid (dw1 0xF0 0xC0 0) 0 s)) ∧
    (rkDescOk d edge = true → ∀ bs s1, vaRead s.rakeReq (s.sqFn e.sq) (s.get (F.sqCfgAllot e.sq)) (rkTargetsVa d)
        (32 * rkTargets d) .read false s = (.ok bs, s1) →
      let ts := splitTargets (rkTargets d) bs
      let beds := s1.eligible p (rkMask d)
      let c1 := targetsOk d ts = true
      let c2 := p.role = 0 ∨ p.role = 3
      let c3 := beds ≠ []
      let c4 := ∀ b ∈ beds, edge * edge * (ts.map tgBytes).foldl (· + ·) 0 ≤ s1.get (F.bedSplitTile b) * 0x8000
      let c5 := groupFits (slice (rkGroup d) 0 5) (slice (rkGroup d) 8 9) p.waves = true
      let ends := fun status detail count => exec i s = .next (finishEntry uid (dw1 status detail 0) count s1)
      (¬ c1 → ends 0xF0 0xC0 0) ∧ (c1 → ¬ c2 → ends 0x41 0xC1 0) ∧ (c1 → c2 → ¬ c3 → ends 0x41 0xB3 0) ∧
      (c1 → c2 → c3 → ¬ c4 → ends 0xF0 0xC2 0) ∧ (c1 → c2 → c3 → c4 → ¬ c5 → ends 0xF0 0xB5 0) ∧
      (c1 → c2 → c3 → c4 → c5 → rkStart d = rkT d edge → ends 0 0 (rkT d edge)) ∧
      (c1 → c2 → c3 → c4 → c5 → rkStart d ≠ rkT d edge → ∃ t o j, exec i s = .next t ∧
        t.bed.orders = s1.bed.orders ++ [o] ∧ o.uid = uid ∧ o.total = rkT d edge ∧ o.next = rkStart d ∧ o.prefix_ = rkStart d ∧
        j ∈ t.rake.jobs ∧ j.uid = uid ∧ j.desc = d ∧ j.edge = edge ∧ j.targets = ts ∧ t.mem = s1.mem ∧ t.host = s1.host))) ∧
  ((∀ j ∈ s.rake.jobs, j.phase ≠ 1) → exec .binningDone s = .next s) ∧
  (∀ j o, s.rake.jobs.find? (fun j => j.phase == 1) = some j → s.order j.uid = some o → s.isOpen 65 = true →
    s.orderStalled j.uid = false → ∀ bs s1, binRecords j o (rkPrims j.desc) 0 s = (.ok bs, s1) → s1.rake = s.rake →
    let lists := tileLists o.total bs
    let entries := (lists.map List.length).foldl (· + ·) 0
    let need := 8 * o.total + 4 * entries
    (rkBinBytes j.desc < need → ∃ u, u.mem = s1.mem ∧ u.host = s1.host ∧ u.bed.orders = s1.bed.orders.filter (fun x => x.uid ≠ j.uid) ∧
      u.rd R.rakeEntries = BitVec.ofNat 32 entries ∧
      exec .binningDone s = .next (dropJob j.uid (completeEntry j.uid ⟨0x70, 0, o.flags % 256, need⟩ u))) ∧
    (need ≤ rkBinBytes j.desc → ∀ s2, writeBins j o bs lists s1 = (none, s2) → s2.rake = s.rake →
      ∃ t j', exec .binningDone s = .next t ∧ j' ∈ t.rake.jobs ∧ j'.uid = j.uid ∧ j'.phase = 2 ∧
        j'.table = listTable (8 * o.total) lists ∧ t.rd R.rakeEntries = BitVec.ofNat 32 entries ∧ t.mem = s2.mem ∧
        t.bed = s2.bed)) ∧
  (∀ uid, s.rakeJob uid = none → exec (.resolveDone uid) s = .next s) ∧
  (∀ uid j o, s.rakeJob uid = some j → s.order uid = some o →
    ((∀ x ∈ j.shaded, x.1 ≠ o.prefix_) → exec (.resolveDone uid) s = .next s) ∧
    (∀ n, j.shaded.find? (fun x => x.1 = o.prefix_) = some (o.prefix_, n) → s.isOpen 65 = true → s.orderStalled uid = false →
      s.holdsTile n uid o.prefix_ = true → (s.bedAt n).yielding = false → o.later = [] → o.ending = none →
      woTrapOvf o.desc = false → o.prefix_ + 1 < o.total → ∀ s1, resolveTargets j o o.prefix_ n 0 j.targets s = (none, s1) →
      s1.bed = s.bed → s1.rake = s.rake → ∃ t o', exec (.resolveDone uid) s = .next t ∧ t.mem = s1.mem ∧
        t.order uid = some o' ∧ o'.prefix_ = o.prefix_ + 1 ∧ o'.next = o.next))

/-- R420–R422, R427: HPD_RISE, HPD_LOW, IRQ_HPD, RETRAIN, FLIP_ARM, VBLANK_START, SCANOUT_LINE, AUX_NATIVE_READ,
AUX_NATIVE_WRITE, AUX_I2C_READ, AUX_REPLY (log entry 33 for the choices). -/
def Obligations.DisplayRules : Prop :=
  ∀ s : State,
  (∀ d k, s.plan.active.display = some d → s.disp.sink = some k →
    match (trainOrder d k).find? (fun c => k.works.contains c && carries d c.1 c.2) with
    | some c => (trainLink s).get F.dispStatusLink = 2 ∧ (trainLink s).get F.dispStatusLanes = c.1 % 8 ∧
        (trainLink s).get F.dispStatusRate = c.2 % 4
    | none => (trainLink s).get F.dispStatusLink = 3) ∧
  (∀ k : Sink, let s1 := { s with disp := { s.disp with sink := some k } }
    (s.isOpen 71 = true → exec (.hpdRise k) s = .next (trainLink (s1.put F.dispStatusSink 1))) ∧
    (s.isOpen 71 = false → exec (.hpdRise k) s = .next s1) ∧
    (s.disp.sink = none → exec (.irqHpd k) s = .next s) ∧
    (s.disp.sink ≠ none → s.isOpen 71 = true → s.get F.dispStatusLink = 2 →
      exec (.irqHpd k) s = .next (if (s.get F.dispStatusLanes, s.get F.dispStatusRate) ∈ k.works then s1 else trainLink s1))) ∧
  (s.isShut 71 = false → ∃ t, exec .hpdLow s = .next t ∧ t.disp = { s.disp with sink := none } ∧ t.get F.dispStatusSink = 0 ∧
    t.get F.dispStatusLink = 0 ∧ t.get F.dispStatusLanes = 0 ∧ t.mem = s.mem) ∧
  (∀ (w : Writer) (en : Bool), s.reaches w R.dispCtrl → exec (.retrain w en) s =
    .next (if isPf0 w then trainLink (s.put F.dispCtrlEnable (if en then 1 else 0)) else s)) ∧
  (∀ (w : Writer) (high : Word), s.reaches w (R.dispFbNext + 4) → high.toNat < 2 ^ 16 →
    (isPf0 w = false → exec (.flipArm w high) s = .next s) ∧
    (isPf0 w = true → ∃ t, exec (.flipArm w high) s = .next t ∧ t.rd (R.dispFbNext + 4) &&& 0xFFFF = high ∧
      t.get F.dispStatusFlipPending = 1 ∧ t.rd64 R.dispFbCur = s.rd64 R.dispFbCur ∧ t.mem = s.mem ∧ t.disp = s.disp)) ∧
  (s.isOpen 71 = false → exec .vblankStart s = .next s) ∧
  (s.isOpen 71 = true → s.disp.idle = false → s.get F.dispStatusLink = 2 →
    let flip := s.get F.dispStatusFlipPending = 1 ∧ s.isShut 57 = false
    ∃ t, exec .vblankStart s = .next t ∧ t.rd R.dispFrame = s.rd R.dispFrame + 1 ∧ t.get F.dispStatusVblank = 1 ∧
      t.disp.line = 0 ∧ t.mem = s.mem ∧
      (flip → t.rd64 R.dispFbCur = s.rd64 R.dispFbNext ∧ t.get F.dispStatusFlipPending = 0 ∧ t.disp.muted = false) ∧
      (¬ flip → t.rd64 R.dispFbCur = s.rd64 R.dispFbCur ∧ t.get F.dispStatusFlipPending = s.get F.dispStatusFlipPending ∧
        t.disp.muted = s.disp.muted)) ∧
  (∀ late, s.plan.active.display = none → exec (.scanoutLine late) s = .next s) ∧
  (∀ late d, s.plan.active.display = some d → s.isOpen 71 = true → s.get F.dispStatusLink = 2 → s.disp.line < d.vActive →
    let black := List.replicate d.hActive (0, 0, 0)
    let s1 := s.put F.dispStatusVblank 0
    (s.get F.dispCtrlEnable = 0 ∨ s.rd64 R.dispFbCur = 0 ∨ s.disp.muted = true → exec (.scanoutLine late) s =
      .next { s1 with disp := { s.disp with sent := black, line := s.disp.line + 1 } }) ∧
    (s.get F.dispCtrlEnable = 1 → s.rd64 R.dispFbCur ≠ 0 → s.disp.muted = false →
      (∀ bs s2, readLine d s.disp.line s1 = (.ok bs, s2) → s2.disp = s.disp → ∃ t, exec (.scanoutLine late) s = .next t ∧
        t.disp.line = s.disp.line + 1 ∧ t.disp.sent.length = d.hActive ∧
        (∀ i, i < d.hActive → t.disp.sent[i]? = some (if i ∈ late then (0, 0, 0)
          else pixelAt (s.get F.dispFbCfgFormat) (if d.bpc = 0 then 8 else 10) (bytesAt bs (4 * i) 4))) ∧
        (t.rd R.dispUnderflow).toNat = min 0xFFFFFFFF ((s2.rd R.dispUnderflow).toNat +
          if ∃ i ∈ late, i < d.hActive then 1 else 0)) ∧
      (∀ reason level va s2, readLine d s.disp.line s1 = (.error (.fault reason level va), s2) → s2.disp = s.disp →
        ∃ t, exec (.scanoutLine late) s = .next t ∧ t.disp.sent = black ∧ t.disp.muted = true ∧
          t.get F.dispStatusFbError = 1))) ∧
  (∀ (w : Writer) (addr : BitVec 20) (len : BitVec 4) (op : Nat) (i : Instr),
    (op, i) ∈ [(0, Instr.auxNativeRead w addr len), (1, .auxNativeWrite w addr len), (2, .auxI2cRead w addr len)] →
    s.reaches w R.dispAuxCmd →
    (isPf0 w = false ∨ s.get F.dispAuxStatusBusy = 1 → exec i s = .next s) ∧
    (isPf0 w = true → s.get F.dispAuxStatusBusy = 0 → s.disp.sink = none → exec i s = .next (s.put F.dispAuxStatusResult 4)) ∧
    (isPf0 w = true → s.get F.dispAuxStatusBusy = 0 → s.disp.sink ≠ none → exec i s = .next (
      let s1 := s.put F.dispAuxStatusBusy 1
      { s1 with disp := { s.disp with
        aux := some (op, addr.toNat, len.toNat + 1),
        auxOut := if op = 1 then some (addr.toNat, s.auxData.take (len.toNat + 1)) else s.disp.auxOut } }))) ∧
  (∀ r, s.disp.aux = none → exec (.auxReply r) s = .next s) ∧
  (∀ op addr n, s.disp.aux = some (op, addr, n) →
    (∀ r code, (r, code) ∈ [(AuxReply.nack, 1), (.deferLimit, 2), (.timeout, 3)] → ∃ t, exec (.auxReply r) s = .next t ∧
      t.disp = { s.disp with aux := none } ∧ t.get F.dispAuxStatusResult = code ∧ t.get F.dispAuxStatusBusy = 0 ∧
      t.auxData = s.auxData) ∧
    (∀ bs : List Byte, bs.length = n → n ≤ 16 → ∃ t, exec (.auxReply (.ack bs)) s = .next t ∧
      t.get F.dispAuxStatusResult = 0 ∧ t.get F.dispAuxStatusBusy = 0 ∧ t.disp = { s.disp with aux := none } ∧
      t.auxData = if op = 1 then s.auxData else bs ++ s.auxData.drop n))

/-- R428, R430–R435: FRAME_RECEIVE, FRAME_TRANSMIT, MAC_AGE_OUT, PORT_LINK_CHANGE, VNIC_RX_TAIL, VNIC_TX_TAIL, PTP_MESSAGE,
SYNC_TIMEOUT. -/
def Obligations.SwitchRules : Prop :=
  ∀ s : State,
  (s.isOpen 61 = true → s.power ≠ 1 → s.pwr.frames = [] →
    (∀ (p sub : Fin 4) (frame : List Byte),
      let here := sub.val < s.subPorts p ∧ bit (s.get (F.intakePortStatusLink p)) sub = true
      let data := frame.take (frame.length - 4)
      let good := 64 ≤ frame.length ∧ frame.length ≤ 9216 ∧ frame.drop (frame.length - 4) = fcsOf data
      let src := 4 * p.val + sub.val
      let ns := s.rd64 R.intakeTimeNow / 4 * 4
      let s1 := countPort p 0 s
      let f := parseFrame (s.get (F.intakePortCfgPvid p)) data
      let route := fun (q : Nat) (u : State) =>
        let n := f.body.length + 16
        if 2 ^ 21 < u.queuedBytes (fun _ => true) + n ∨ 2 ^ 18 < u.queuedBytes (fun d => d == q) + n then
          (if q = 16 then u else countPort (q / 4) 4 u)
        else { u with switch := { u.switch with queues := u.switch.queues ++ [⟨q, f.pcp, src, ns, f⟩] } }
      (¬ here → exec (.frameReceive p sub frame) s = .next s) ∧
      (here → ¬ good → exec (.frameReceive p sub frame) s = .next (countPort p 1 s)) ∧
      (here → good → be16 f.body 0 = 0x8808 → exec (.frameReceive p sub frame) s = .next (countPort p 5 s1)) ∧
      (here → good → be16 f.body 0 ≠ 0x8808 → s1.isTime f = true → exec (.frameReceive p sub frame) s =
        .next { s1 with switch := { s1.switch with ptp := s1.switch.ptp ++ [(src, f, ns)] } }) ∧
      (here → good → be16 f.body 0 ≠ 0x8808 → s1.isTime f = false →
        (s1.vlanOf f.vid = none → exec (.frameReceive p sub frame) s = .next (countPort p 2 s1)) ∧
        (∀ v, s1.vlanOf f.vid = some v →
          (bit (s1.get (F.intakeVlanMember v)) p = false → exec (.frameReceive p sub frame) s = .next (countPort p 2 s1)) ∧
          (bit (s1.get (F.intakeVlanMember v)) p = true →
            let s2 := learn f.vid f.src src s1
            (∀ u m, s.isShut 62 = false → parseUdp f.body = some u → s2.matchSlot p f.vid u = some m → isGroup f.dst = false →
              ∃ t d, exec (.frameReceive p sub frame) s = .next t ∧ t.intake.i0 = s.intake.i0 ++ [d] ∧ d.slot = m.1 ∧
                d.rtcp = m.2 ∧ d.pay = u.pay ∧ d.ns = ns ∧ d.src = src ∧ t.switch = s2.switch ∧ t.regs = s2.regs) ∧
            (s.isShut 62 = true ∨ (∀ u, parseUdp f.body = some u → s2.matchSlot p f.vid u = none) →
              (f.dst = s2.rd64 R.intakeMac → exec (.frameReceive p sub frame) s = .next (route 16 s2)) ∧
              (f.dst ≠ s2.rd64 R.intakeMac →
                (∀ e, s2.switch.macs.find? (fun e => e.vid = f.vid && e.mac = f.dst) = some e →
                  exec (.frameReceive p sub frame) s = .next (if e.port = src then s2 else route e.port s2)) ∧
                (s2.switch.macs.find? (fun e => e.vid = f.vid && e.mac = f.dst) = none →
                  exec (.frameReceive p sub frame) s = .next (s2.each (s2.floodTo v src) route)))))))) ∧
    (∀ dest : Fin 17, s.mayTransmit dest = false ∨ s.servedQueue dest = none → exec (.frameTransmit dest) s = .next s) ∧
    (∀ (dest : Fin 17) (q : Nat) (x : Queued), dest.val < 16 → q < 8 → s.mayTransmit dest = true →
      (∀ k, s.shaped dest k = false) → s.switch.queues.find? (fun y => y.dest = dest.val && y.queue = q) = some x →
      (∀ y ∈ s.switch.queues, y.dest = dest.val → y.queue ≤ q) → ∃ t tagged, exec (.frameTransmit dest) s = .next t ∧
        t.switch.queues = s.switch.queues.eraseP (fun y => y.dest = dest.val && y.queue = q) ∧
        t.switch.sent = (dest.val, frameBytes x.frame tagged ++ fcsOf (frameBytes x.frame tagged),
          s.rd64 R.intakeTimeNow / 4 * 4) :: s.switch.sent ∧
        (tagged = false ↔ ∃ v, s.vlanOf x.frame.vid = some v ∧ bit (s.get (F.intakeVlanUntag v)) (dest.val / 4) = true) ∧
        (t.rd (R.intakePortCount (dest.val / 4) 3)).toNat = min 0xFFFFFFFF ((s.rd (R.intakePortCount (dest.val / 4) 3)).toNat + 1)) ∧
    (∀ x, s.switch.queues = [x] → x.dest = 16 → x.queue < 8 → s.get F.intakeVnicCfgEn = 0 → exec (.frameTransmit 16) s =
      .next ({ s with switch := { s.switch with queues := [] } }.bump32 R.intakeVnicDrop 1))) ∧
  (∀ (vid : BitVec 12) (mac : BitVec 48),
    (s.isShut 61 = true ∨ s.get F.intakeSwCfgAgeS = 0 → exec (.macAgeOut vid mac) s = .next s) ∧
    (s.isShut 61 = false → s.get F.intakeSwCfgAgeS ≠ 0 → exec (.macAgeOut vid mac) s = .next { s with switch := { s.switch with
      macs := s.switch.macs.filter (fun e => !(e.vid = vid.toNat && e.mac = mac.toNat)) } })) ∧
  (∀ (p sub : Fin 4) (up : Bool), s.isShut 61 = false →
    (up = true → s.subPorts p ≤ sub.val → exec (.portLinkChange p sub up) s = .next s) ∧
    (up = false ∨ sub.val < s.subPorts p → ∃ t, exec (.portLinkChange p sub up) s = .next t ∧
      (∀ k, k < 4 → bit (t.get (F.intakePortStatusLink p)) k = if k = sub.val then up else bit (s.get (F.intakePortStatusLink p)) k) ∧
      ∀ g : Field, g.off ≠ (F.intakePortStatusLink p).off → t.get g = s.get g)) ∧
  (∀ (w : Writer) (tail : BitVec 16),
    let bad := isPf0 w = false ∨ s.get F.intakeVnicCfgEn = 0 ∨ s.vnicSize ≤ tail.toNat
    (s.reaches w R.intakeVnicRxTail → exec (.vnicRxTail w tail) s =
      .next (if bad then s else { s with switch := { s.switch with rxTail := tail.toNat } })) ∧
    (s.reaches w R.intakeVnicTxTail → bad → exec (.vnicTxTail w tail) s = .next s) ∧
    (s.reaches w R.intakeVnicTxTail → ¬ bad →
      let s1 := { s with switch := { s.switch with txTail := tail.toNat } }
      let a := vnicDesc (s.rd64 R.intakeVnicTxBase) s.vnicSize s.switch.txHead
      (tail.toNat = s.switch.txHead → exec (.vnicTxTail w tail) s = .next s1) ∧
      (tail.toNat ≠ s.switch.txHead → tail.toNat = (s.switch.txHead + 1) % s.vnicSize → ∀ d bs, hostRead 0 a 16 s1 = some d →
        bit (bytesAt d 0xA 2) 1 = true → hostRead 0 (bytesAt d 0 8) (bytesAt d 8 2) s1 = some bs →
        exec (.vnicTxTail w tail) s = .next (
          let s2 := fromHost bs s1
          let s3 := hostWrite 0 (a + 0xA) (leBytes 2 ((hostRead 0 (a + 0xA) 2 s2).elim 0 leNat / 2 * 2 + 1)) s2
          { s3 with switch := { s3.switch with txHead := tail.toNat } })))) ∧
  (s.isShut 61 = false →
    let s1 := { s with switch := { s.switch with ptp := s.switch.ptp.drop 1 } }
    let st := s.get F.intakeTimeStatusState
    (∀ m, s.isOpen 57 = false ∨ s.plan.active.intake = none ∨ m = .other → exec (.ptpMessage m) s = .next s1) ∧
    (∀ k, s.plan.active.intake = some k → s.isOpen 57 = true →
      (∀ m, k.timeSrc = 2 → exec (.ptpMessage m) s = .next s1) ∧
      (k.timeSrc ≠ 2 → ∃ t, exec (.ptpMessage .announce) s = .next t ∧
        t.get F.intakeTimeStatusState = (if st = 0 ∨ st = 3 then 1 else st) ∧ t.rd64 R.intakeTimeNow = s.rd64 R.intakeTimeNow) ∧
      (∀ o : Int, k.timeSrc ≠ 2 → ∃ t, exec (.ptpMessage (.sync o)) s = .next t ∧
        t.get F.intakeTimeStatusState = (if st = 2 then (if o < -2000 ∨ 2000 < o then 1 else 2)
          else if -500 < o ∧ o < 500 ∧ 15 ≤ s.switch.good then 2 else 1) ∧
        t.switch.good = (if -500 < o ∧ o < 500 then s.switch.good + 1 else 0) ∧
        t.get F.intakeTimeStatusOffsetNs = ofInt 16 (clampInt 16 o) ∧
        (o < -1000000 ∨ 1000000 < o → t.rd64 R.intakeTimeNow = ofInt 64 ((s.rd64 R.intakeTimeNow : Int) - o)) ∧
        (-1000000 ≤ o → o ≤ 1000000 → t.rd64 R.intakeTimeNow = s.rd64 R.intakeTimeNow ∧ t.switch.slew = -o)))) ∧
  (s.get F.intakeTimeStatusState ≠ 2 → exec .syncTimeout s = .next s) ∧
  (s.isShut 61 = false → s.get F.intakeTimeStatusState = 2 → ∃ t, exec .syncTimeout s = .next t ∧
    t.get F.intakeTimeStatusState = 3 ∧ t.rd64 R.intakeTimeNow = s.rd64 R.intakeTimeNow ∧ t.switch.good = 0)

/-- R437, R440, R444, R452, R453, R456, R461: SLOT_START, SLOT_STOP, SLOT_STOP_DONE, SRTP_KEY_COMMIT, FEED_DOORBELL,
FRAME_RELEASE_ADD, GROUP_ENABLE. -/
def Obligations.SlotControl : Prop :=
  ∀ (s : State) (w : Writer) (i : Fin 64), s.intake.slots.length = 64 →
  (∀ cfg : Word, s.reaches w (R.intakeSlotCfg i) → withRun cfg true &&& reservedBits (R.intakeSlotCfg i) = 0 →
    let s2 := putSlotCfg i (withRun cfg true) s
    let e := s2.slotRefusal i
    (s.slotState i ≠ 0 → exec (.slotStart w i cfg) s = .next s) ∧
    (s.slotState i = 0 → e ≠ 0 → exec (.slotStart w i cfg) s = .next (s2.put (F.intakeSlotStateResult i) e)) ∧
    ((s.slotPlan i).valid = false → e = 1) ∧
    ((s.slotPlan i).valid = true → getBits cfg 1 1 = 0 → s.get (F.intakeMatchPortsDstUdp i) = 0 → e = 2) ∧
    (s.slotState i = 0 → e = 0 → ∃ t, exec (.slotStart w i cfg) s = .next t ∧ t.slotState i = 1 ∧
      t.get (F.intakeSlotCfgRun i) = 1 ∧ t.get (F.intakeSlotStateResult i) = 0 ∧
      (∀ c, c < 8 → t.rd (R.intakeSlotCount i c) = 0) ∧ t.rd (R.decodeFrames i) = 0 ∧ t.rd (R.decodeWritten i) = 0 ∧
      t.rd (R.decodeReleased i) = 0 ∧ t.get (F.intakeSlotCfgVid i) = getBits cfg 16 12 ∧
      (t.slot i).ctx = (s.slot i).ctx ∧ (t.slot i).cpb = [] ∧ (t.slot i).ssrcLocked = false ∧ t.mem = s.mem)) ∧
  (∀ cfg : Word, s.reaches w (R.intakeSlotCfg i) → withRun cfg false &&& reservedBits (R.intakeSlotCfg i) = 0 →
    (s.slotState i = 0 → exec (.slotStop w i cfg) s = .next (putSlotCfg i (withRun cfg false) s)) ∧
    (s.slotState i = 6 → exec (.slotStop w i cfg) s = .next s) ∧
    (s.slotState i ≠ 0 → s.slotState i ≠ 6 → ∃ t, exec (.slotStop w i cfg) s = .next t ∧ t.slotState i = 6 ∧
      t.get (F.intakeSlotCfgRun i) = 0 ∧ (t.slot i).cpb = [] ∧ (t.slot i).held = [] ∧ (t.slot i).asm = none ∧
      t.intake.engines = s.intake.engines ∧ t.mem = s.mem)) ∧
  (∀ busy : Prop, (busy ↔ ∃ e, e < 2 ∧ ∃ a, s.decoding e = some (i.val, a)) →
    (s.isOpen 62 = false ∨ s.slotState i ≠ 6 ∨ busy → exec (.slotStopDone i) s = .next s) ∧
    (s.isOpen 62 = true → s.slotState i = 6 → ¬ busy →
      exec (.slotStopDone i) s = .next (s.put (F.intakeSlotStateState i) 0))) ∧
  (∀ key7 : Word, s.reaches w (R.intakeKey i 7) → (s.slot i).keyWords.length = 8 →
    let bs := ((s.slot i).keyWords.take 7 ++ [key7]).flatMap (fun k => leBytes 4 k.toNat)
    ∃ t c, exec (.srtpKeyCommit w i key7) s = .next t ∧ t.get (F.intakeSlotStateKeyed i) = 1 ∧ (t.slot i).ctx = some c ∧
      c.key = bs.take 16 ∧ c.salt = (bs.drop 16).take 14 ∧ c.roc = (s.rd (R.intakeRoc i)).toNat ∧ c.top = none ∧
      c.ctop = none ∧ (∀ o, (s.slot i).ctx = some o → c.gen ≠ o.gen) ∧ (t.slot i).prev = (s.slot i).ctx ∧
      (∀ j, j ≠ i.val → t.slot j = s.slot j) ∧ t.mem = s.mem) ∧
  (∀ tail : BitVec 16, s.reaches w (R.intakeFeedTail i) →
    let size := 2 ^ s.get (F.intakeFeedSizeSizeLog2 i)
    let past := fun t => (t + 16 * size - s.get (F.intakeFeedHeadHead i) % size) % size
    let valid := tail.toNat < size ∧ past (s.slot i).feedTail ≤ past tail.toNat
    (¬ valid → exec (.feedDoorbell w i tail) s = .next s) ∧
    (valid → ∃ t, exec (.feedDoorbell w i tail) s = .next t ∧ t.slot i = { s.slot i with feedTail := tail.toNat } ∧
      t.regs = s.regs ∧ t.mem = s.mem)) ∧
  (∀ add : BitVec 16, s.reaches w (R.decodeReleaseAdd i) →
    let r := (s.rd (R.decodeReleased i)).toNat
    let n := (s.rd (R.decodeWritten i)).toNat
    r ≤ n → ∃ t, exec (.frameReleaseAdd w i add) s = .next t ∧ (t.rd (R.decodeReleased i)).toNat = min (r + add.toNat) n ∧
      t = { s with regs := t.regs } ∧ ∀ off, off ≠ R.decodeReleased i → t.rd off = s.rd off) ∧
  (∀ (g : Fin 8) (cfg : Word), s.reaches w (R.decodeGroupCfg g) → cfg &&& reservedBits (R.decodeGroupCfg g) = 0 →
    let s2 := s.puts [(F.decodeGroupCfgAllot g, getBits cfg 8 6), (F.decodeGroupCfgBands g, getBits cfg 16 8),
      (F.decodeGroupCfgFormat g, getBits cfg 24 3)]
    let en := getBits cfg 0 1
    (s.get (F.decodeGroupCfgEn g) = 1 → en = 1 → exec (.groupEnable w g cfg) s = .next s) ∧
    (s.get (F.decodeGroupCfgEn g) = 1 → en = 0 → ∃ t, exec (.groupEnable w g cfg) s = .next t ∧
      t.get (F.decodeGroupCfgEn g) = 0 ∧ t.get (F.decodeGroupCfgState g) = 0 ∧
      t.get (F.decodeGroupCfgBands g) = s.get (F.decodeGroupCfgBands g) ∧ t.mem = s.mem) ∧
    (s.get (F.decodeGroupCfgEn g) = 0 → en = 0 ∨ s2.groupOk g = false → exec (.groupEnable w g cfg) s = .next s2) ∧
    (s2.get (F.hoseCfgOwner (groupEngine g) (groupChannel g)) ≠ 2 → s2.groupOk g = false) ∧
    (s.get (F.decodeGroupCfgEn g) = 0 → en = 1 → s2.groupOk g = true → ∃ t, exec (.groupEnable w g cfg) s = .next t ∧
      t.get (F.decodeGroupCfgEn g) = 1 ∧ t.get (F.decodeGroupCfgState g) = 1 ∧ t.rd (R.decodeGroupSlabs g) = 0 ∧
      t.rd (R.hoseRelease (groupEngine g) (groupChannel g)) = 0 ∧ t.mem = s.mem))

/-- R439–R445, R448, R452: RTP_PACKET, RTCP_PACKET, REORDER_TIMEOUT, SSRC_SWITCH, FEED_COPY_DONE, AU_DECODED. -/
def Obligations.StreamPackets : Prop :=
  ∀ s : State, s.intake.slots.length = 64 →
  (∀ b : Bool, s.isOpen 62 = false ∨ (∀ d ∈ s.intake.i0, d.rtcp ≠ b) → exec (if b then .rtcpPacket else .rtpPacket) s = .next s) ∧
  (∀ d, s.isOpen 62 = true → s.intake.i0.find? (fun d => d.rtcp == false) = some d → d.slot < 64 →
    let s1 := { s with intake := { s.intake with i0 := s.intake.i0.eraseP (fun d => d.rtcp == false) } }
    let i := d.slot
    let x := s.slot i
    let k := rtpPacket d d.pay
    let count := fun c u => exec .rtpPacket s = .next (workStore (countSlot i c 1 u))
    (s.slotRuns i = false ∨ s.slotState i = 5 → exec .rtpPacket s = .next s1) ∧
    (s.slotRuns i = true → s.slotState i ≠ 5 →
      ((s.slotPlan i).srtp = true → (s1.srtpFor d).bind (fun c => srtpOpen c d.pay) = none →
        exec .rtpPacket s = .next (countSlot i C_AUTH_DROP 1 s1)) ∧
      ((s.slotPlan i).srtp = false →
        let shaped := 12 ≤ d.pay.length ∧ d.pay.length ≤ 2048 ∧ (d.pay.getD 0 0).toNat / 64 = 2 ∧
          (d.pay.getD 1 0).toNat % 128 = s.get (F.intakeSlotCfgPt i)
        let other := x.ssrcLocked = true ∧ (s.rd (R.intakeSsrc i)).toNat ≠ k.ssrc
        let s2 := (setSlot i { x with ssrcLocked := true, other := none } s1).wr (R.intakeSsrc i) (BitVec.ofNat 32 k.ssrc)
        let y := { x with ssrcLocked := true, other := none }
        let n := x.next.getD k.seq
        let dist := (k.seq + 65536 - n) % 65536
        (¬ shaped → count C_BAD_PKT s1) ∧
        (shaped → other → count C_BAD_PKT (setSlot i { x with other := some k.ssrc } s1)) ∧
        (shaped → ¬ other → codecBytes (s.slotPlan i).codec k.pay = none → count C_BAD_PAYLOAD s2) ∧
        (shaped → ¬ other → codecBytes (s.slotPlan i).codec k.pay ≠ none →
          (dist = 0 → x.held = [] → exec .rtpPacket s =
            .next (workStore (releasePkt i k (setSlot i { y with next := some ((k.seq + 1) % 65536) } s2)))) ∧
          (1 ≤ dist → dist ≤ 3000 → dist < s.plan.active.intake.elim 32 (fun k => k.reorder) →
            (∀ q ∈ x.held, q.seq ≠ k.seq) → exec .rtpPacket s =
              .next (workStore (setSlot i { y with next := some n, held := holdPkt n k x.held } s2))) ∧
          (62536 ≤ dist → count C_LATE s2) ∧
          (3000 < dist → dist < 62536 → x.held = [] →
            let u := countSlot i C_RESYNCS 1 (releasePkt i k (setSlot i { y with next := some ((k.seq + 1) % 65536) } s2))
            exec .rtpPacket s = .next (workStore (if u.slotState i = 2 then u.put (F.intakeSlotStateState i) 1 else u))))))) ∧
  (∀ i k, k.marker = false → (s.slot i).asm = none →
    let n := 32 + 64 * ceilDiv k.pay.length 64
    s.get F.intakePktHeadOffset + n ≤ s.pktBytes →
    (releasePkt i k s).get F.intakePktHeadCount = (s.get F.intakePktHeadCount + 1) % 2 ^ 32 ∧
    (releasePkt i k s).get F.intakePktHeadOffset = (s.get F.intakePktHeadOffset + n) % s.pktBytes % 2 ^ 32) ∧
  (∀ d, s.isOpen 62 = true → s.intake.i0.find? (fun d => d.rtcp == true) = some d → s.slotRuns d.slot = true →
    s.slotState d.slot ≠ 5 → (s.slotPlan d.slot).srtp = false →
    let s1 := { s with intake := { s.intake with i0 := s.intake.i0.eraseP (fun d => d.rtcp == true) } }
    let s2 := enqueue I1 d.src d.ns d.frame s1
    exec .rtcpPacket s = .next ((senderReport d.pay).elim s2 (fun r => changeSlot d.slot (fun x => { x with sr := some r }) s2))) ∧
  (∀ i : Fin 64,
    let x := s.slot i
    (s.isOpen 62 = false ∨ s.slotRuns i = false ∨ x.held = [] → exec (.reorderTimeout i) s = .next s) ∧
    (∀ n p rest, s.isOpen 62 = true → s.slotRuns i = true → x.next = some n → x.held = p :: rest → p.seq ≠ n →
      let s1 := countSlot i C_LOST 1 (setSlot i { x with next := some ((n + 1) % 65536), lossNext := true } s)
      exec (.reorderTimeout i) s = .next (workStore (releaseRun i x.held.length s1))) ∧
    (s.isOpen 62 = false ∨ s.slotRuns i = false ∨ s.slotState i = 5 ∨ x.other = none → exec (.ssrcSwitch i) s = .next s) ∧
    (∀ n, s.isOpen 62 = true → s.slotRuns i = true → s.slotState i ≠ 5 → x.other = some n → ∃ t,
      exec (.ssrcSwitch i) s = .next t ∧ t.rd (R.intakeSsrc i) = BitVec.ofNat 32 n ∧ t.slotState i = 1 ∧
      (t.slot i).next = none ∧ (t.slot i).held = [] ∧ (t.slot i).other = none ∧ bit (t.rd64 R.intakeEventSlots) i = true) ∧
    (s.isOpen 62 = false ∨ s.slotRuns i = false ∨ s.isStalled (.slot i) = true ∨ s.get (F.intakeFeedHeadHead i) = x.feedTail →
      exec (.feedCopyDone i) s = .next s) ∧
    (s.isOpen 62 = true → s.slotRuns i = true → s.isStalled (.slot i) = false → s.get (F.intakeFeedHeadHead i) ≠ x.feedTail →
      ∀ d s1, vaRead (s.streamReq 62) 0 (s.slotAllot i) (s.rd64 (R.intakeFeedBase i) + 16 * s.get (F.intakeFeedHeadHead i)) 16
          .read false s = (.ok d, s1) →
        let param := bit (bytesAt d 6 1) 0
        (param = false → s.get (F.intakeSlotCfgSource i) = 0 → exec (.feedCopyDone i) s =
          .next (countSlot i C_BAD_PKT 1 (advanceFeed i s1))) ∧
        (param = true ∨ s.get (F.intakeSlotCfgSource i) = 1 → 2 * bytesAt d 8 4 ≤ s.cpbRoom i →
          ∀ bs s2, vaRead (s.streamReq 62) 0 (s.slotAllot i) (bytesAt d 0 6) (bytesAt d 8 4) .read false s1 = (.ok bs, s2) →
          exec (.feedCopyDone i) s = .next (if param then changeSlot i (fun x => { x with params := x.params ++ bs }) (advanceFeed i s2)
            else endAu i (bytesAt d 12 4) (s2.rd64 R.intakeTimeNow) (s2.get F.intakeTimeStatusState == 2) false bs
              (advanceFeed i s2))))) ∧
  (∀ e : Fin 2,
    (∀ r, s.isOpen (63 + e) = false → exec (.auDecoded e r) s = .next s) ∧
    (∀ i a, s.isOpen (63 + e) = true → i < 64 → s.decoding e = some (i, a) →
      let s1 := setEngine e none (refreshLoad e s)
      exec (.auDecoded e (.noSlice none)) s = .next (feedDecoder e s1) ∧
      (∀ p, s.get (F.intakeSlotCfgLoss i) = 0 → s.slotState i = 2 → exec (.auDecoded e (.corrupt none p)) s =
        .next (feedDecoder e (s1.put (F.intakeSlotStateState i) 1))) ∧
      (∀ k p, k.supported = false → s.slotState i ≠ 6 → exec (.auDecoded e (.frame (some k) p)) s =
        .next (feedDecoder e (slotEvent i (s1.put (F.intakeSlotStateState i) 4)))) ∧
      (∀ p s2, s.slotState i = 2 → touchDpb i e (countLoad e p.width p.height s1) = (none, s2) →
        exec (.auDecoded e (.frame none p)) s = .next (feedDecoder e (frameDone i e a p s2))))) ∧
  (∀ i e a p, s.outputsTo i 1 p = [] → s.slotState i ≠ 5 → s.get (F.intakeSlotCfgRingMode i) = 0 →
    let n := (s.rd (R.decodeWritten i)).toNat
    let r := (s.rd (R.decodeReleased i)).toNat
    let ring := (s.slotPlan i).ring
    let s1 := s.wrap32 (R.decodeFrames i) 1
    r ≤ n → i < 64 →
    (r + ring ≤ n → frameDone i e a p s = s1.bump (F.decodeDroppedRing i) 1) ∧
    (n < r + ring → s.rd64 (R.decodeNotifyVa i) = 0 → ∀ s2, writeOutputs (s1.streamReq (63 + e)) (s1.slotAllot i)
        ((s1.outputsTo i 0 p).flatMap (fun o => s1.outPieces i o (n % ring) p) ++ [(s1.rd64 (R.decodeRecVa i) + 64 * (n % ring),
          s1.frameRecord i (recordFlags a false (s1.slot i).main10 (s1.outputsTo i 0 p)) 0 a p)]) s1 = (none, s2) →
      frameDone i e a p s = s2.wr (R.decodeWritten i) (BitVec.ofNat 32 (n + 1))))

/-- R470–R474, R476: COMPRESS, DECOMPRESS, FURROW_JOB_DONE. -/
def Obligations.FurrowJobs : Prop :=
  ∀ s : State,
  (∀ (uid : Nat) (e : Entry) (d : List Byte) (op : Nat) (i : Instr), (op, i) ∈ [(0, Instr.compress uid), (1, .decompress uid)] →
    s.entry uid = some e → e.desc = some d → e.opcode = 4 → fdOp d = op → s.isOpen 56 = true → s.furrowJob uid = none →
    (fdOk d = false → exec i s = .next (finishEntry uid (dw1 0xF0 0xE0 0) 0
      ((s.bump F.furrowJobsOther 1).puts [(F.furrowLastErrorStatus, 0xF0), (F.furrowLastErrorDetail, 0xE0)]))) ∧
    (fdOk d = true → s.isShut 66 = true → exec i s = .next (finishEntry uid (s.islandWord 0x11 66) 0 s)) ∧
    (fdOk d = true → s.isShut 66 = false → s.furrow.jobs.length ≤ 4 → ∃ t j, exec i s = .next t ∧
      t.furrow.jobs = s.furrow.jobs ++ [j] ∧ j.uid = uid ∧ j.desc = d ∧ j.allot = s.get (F.sqCfgAllot e.sq) ∧ j.count = 0 ∧
      t.get F.furrowStatusBusy = 1 ∧ t.get F.furrowStatusQueued = s.furrow.jobs.length ∧ t.mem = s.mem ∧ t.host = s.host)) ∧
  (s.furrow.jobs = [] → exec .furrowJobDone s = .next s) ∧
  (∀ j rest, s.furrow.jobs = j :: rest →
    (s.isStalled (.furrow j.uid) = true ∨ s.isOpen 66 = false → exec .furrowJobDone s = .next s) ∧
    (s.isStalled (.furrow j.uid) = false → s.isOpen 66 = true →
      (fdResume j.desc = false → exec .furrowJobDone s = .next (workFurrow j (fdStart j.desc) none none s)) ∧
      (fdResume j.desc = true → ∀ b s1, vaRead s.furrowReq j.fn j.allot (fdStateVa j.desc) 64 .read false s = (.ok b, s1) →
        (fdStateOk j.desc b = false → exec .furrowJobDone s = .next (endFurrow j.uid (dw1 0xF0 0xE3 0) 0 s1)) ∧
        (fdStateOk j.desc b = true → (FurrowState.parse b).phase = 2 →
          exec .furrowJobDone s = .next (endFurrow j.uid 0 0 s1)) ∧
        (fdStateOk j.desc b = true → (FurrowState.parse b).phase ≠ 2 →
          exec .furrowJobDone s = .next (workFurrow j (FurrowState.parse b) none none s1))))) ∧
  (∀ j st status detail w s1 s2, fdOp j.desc = 0 →
    let cap := 8 * fdCodedBytes j.desc
    let head := if fdResume j.desc then st.pend else
      bitsOf 16 0x5246 ++ bitsOf 8 1 ++ bitsOf 8 (fdElem j.desc + 4 * fdLevel j.desc) ++ bitsOf 16 (fdRow j.desc) ++ bitsOf 16 0
    compressFrom j.fn j.allot j.desc cap (cap + 1) (cap + 1) ⟨st, head, 0, 0⟩ s = (.done status detail, w, s1) →
    vaWrite s1.furrowReq j.fn j.allot (fdCodedVa j.desc) (bitsBytes (w.out.length / 8) w.out) false s1 = (none, s2) →
    ∃ v, v.st.pend.length ≤ 7 ∧ bytesBits (bitsBytes (w.out.length / 8) w.out) ++ v.st.pend = w.out ∧
      v.used = w.out.length / 8 ∧ v.raw = w.raw ∧ workFurrow j st none none s = closeFurrow j status detail v none s2) ∧
  (∀ j status detail w, status ≠ 0xF0 →
    let s1 := s.wr64 R.furrowRawTotal ((s.rd64 R.furrowRawTotal + w.raw) % 2 ^ 64)
    let s2 := s1.wr64 R.furrowCodedTotal ((s.rd64 R.furrowCodedTotal + w.used) % 2 ^ 64)
    ∀ s3, vaWrite s2.furrowReq j.fn j.allot (fdStateVa j.desc)
        ({ w.st with coded := w.st.coded + w.used }.bytes (fdCtrl j.desc)) false s2 = (none, s3) →
      closeFurrow j status detail w none s = endFurrow j.uid (dw1 status detail 0) w.used s3) ∧
  (∀ uid j word count, s.furrowJob uid = some j → s.entry uid = none →
    (endFurrow uid word count s).furrow.jobs = s.furrow.jobs.erase j ∧
    (let f := if word % 256 = 0 then F.furrowJobsOk else F.furrowJobsOther
     (endFurrow uid word count s).get f = min 0xFFFF (s.get f + 1)))

/-- R462, R464–R467: decoding a compressed static block gives the raw elements back. -/
def Obligations.StaticBlockReadsBack : Prop :=
  (∀ (st : FurrowState) (get : Nat → Nat) (depth p stop : Nat) (rest : List Bool), st.block = 1 → 1 ≤ st.row → depth ≤ 64 →
    p ≤ stop → (∀ q, q < stop → get q < 2 ^ (8 * st.esz)) →
    readBlock st (stop - p + 1) (tokensBits get (8 * st.esz) staticTable p (tokensFrom get st.row depth stop (stop - p) p) ++
      codeBits staticTable 24 ++ rest) ((List.range p).map get) = some ((List.range stop).map get, rest)) ∧
  (∀ (st : FurrowState) (get : Nat → Nat) (w p : Nat) (rest : List Bool), st.block = 1 →
    (∀ n, 1 ≤ n → n ≤ 4160 → parseToken st (tokenBits get w staticTable p (.lit n) ++ rest) =
      .lit n ((List.range n).flatMap (fun i => bitsOf w (get (p + i))) ++ rest)) ∧
    (∀ n, 1 ≤ n → n ≤ 4160 → parseToken st (tokenBits get w staticTable p (.run n) ++ rest) = .run n (bitsOf w (get p) ++ rest)) ∧
    (∀ n d, 1 ≤ n → n ≤ 4160 → 1 ≤ d → d ≤ 64 → d * st.row ≤ st.rawPos / st.esz →
      parseToken st (tokenBits get w staticTable p (.row n d) ++ rest) = .row n d rest) ∧
    parseToken st (codeBits staticTable 24 ++ rest) = .closes rest)

/-- R487–R490, R500, R502, R504: QUERY, CREATE, APPEND_MEM, APPEND_PKT, SEAL, READ, DELETE, VOLUME_CREATE, VOLUME_DELETE,
FORMAT (log entry 39 for the order of requests and FORMAT's state check). -/
def Obligations.EvidenceRequests : Prop :=
  (∀ (s : State) (uid : Nat) (e : Entry) (d : List Byte) (op : Nat) (i : Instr),
    (op, i) ∈ [(0, Instr.query uid), (1, .create uid), (2, .appendMem uid), (3, .appendPkt uid), (4, .sealClip uid),
      (5, .evidenceRead uid), (6, .delete uid), (7, .volumeCreate uid), (8, .volumeDelete uid), (9, .format uid)] →
    s.entry uid = some e → e.desc = some d → e.opcode = 5 → evOp d = op → s.isOpen 56 = true → s.evidReq uid = none →
    (s.isShut 58 = true → exec i s = .next (finishEntry uid (s.islandWord 0x11 58) 0 s)) ∧
    (s.isShut 58 = false → evOk d = false → exec i s = .next (finishEntry uid (dw1 0xF0 0xF0 0) 0 s)) ∧
    (evOk d = true → s.isOpen 58 = true → s.evid.reqs = [] → s.get F.nandStatusState ≠ 1 → s.isStalled (.evidence uid) = false →
      ∃ r u, r.uid = uid ∧ r.fn = s.sqFn e.sq ∧ r.desc = d ∧ r.begun = false ∧ r.done = 0 ∧ r.ending = none ∧
        u = showQueue { s with evid := { s.evid with reqs := [r] } } ∧
        let after := fun (t : State) => exec i s = .next (
          let t1 := showStore u.storeShown t
          if t1.isShut 68 then t1 else refreshChannel 1 15 t1)
        (∀ w n, u.evidRefusal r = some (w, n) → after (endEvid uid w n u)) ∧
        (u.evidRefusal r = none →
          (∀ c, u.clip (evClip d) = some c →
            (∀ u2, op = 0 → vaWrite u.evidReqOf r.fn r.allot (evVa d) c.record false u = (none, u2) →
              after (if c.cut then endEvid uid (dw1 0x62 0 0) c.length (journal (.clearCut c.num) u2)
                else endEvid uid 0 c.length u2)) ∧
            (op = 4 → after (endEvid uid 0 c.length (journal (.sealClip c.num) u))) ∧
            (op = 6 → after (endEvid uid 0 0 (journal (.delete c.num) u))) ∧
            (op = 2 → after (goAppendMem { r with begun := true } (changeReq uid (fun q => { q with begun := true }) u))) ∧
            (op = 5 → after (goRead { r with begun := true } (changeReq uid (fun q => { q with begun := true }) u))) ∧
            (op = 3 → ∃ q, (startAppend r c u).evidReq uid = some q ∧ q.begun = true ∧ after (goAppendPkt q (startAppend r c u)))) ∧
          (∀ bs u2, op = 1 → vaRead u.evidReqOf r.fn r.allot (evVa d) 32 .read false u = (.ok bs, u2) →
            after (endEvid uid 0 u.evid.index.nextClip (journal (.create {
              num := u.evid.index.nextClip, volume := evVolume d, length := 0, shutDown := false, packets := false,
              created := u.timeUs / 1000000 % 2 ^ 32, note := bs, units := [], cut := false }) u2))) ∧
          (op = 7 → after (endEvid uid 0 0 (journal (.volume (evVolume d)) (onSuper (fun b => { b with
            volumes := b.volumes ++ [⟨evVolume d, evLen d, evPolicy d⟩] }) u)))) ∧
          (op = 8 → (u.evid.index.clips.map (fun c => c.num)).Nodup → ∃ u2, u2.evid.index.clips = u.evid.index.clips.filter (fun c => c.volume ≠ evVolume d) ∧
            u2.volumes = u.volumes.filter (fun v => v.num ≠ evVolume d) ∧
            after (endEvid uid 0 (u.evid.index.clips.filter (fun c => c.volume = evVolume d)).length u2)) ∧
          (op = 9 → after (startFormat r u))))) ∧
  (∀ (s : State) (r : EvidReq),
    let st := s.get F.nandStatusState
    let op := evOp r.desc
    (op < 9 → st ≠ 2 → st ≠ 3 → s.evidRefusal r = some (dw1 0xF0 0xF1 0, 0)) ∧
    (op < 9 → op ≠ 0 → op ≠ 5 → st = 3 → s.get F.nandStatusRoReason = 2 → s.evidRefusal r = some (dw1 0x61 0 0, 0)) ∧
    (st = 2 → op = 7 ∨ op = 8 → r.fn ≠ 0 → s.evidRefusal r = some (dw1 0x41 0xF2 0, 0)) ∧
    (st = 2 → namesClip r.desc = true → s.clip (evClip r.desc) = none → s.evidRefusal r = some (dw1 0xF0 0xF3 0, 0)) ∧
    (∀ c, st = 2 → s.clip (evClip r.desc) = some c → op = 2 ∨ op = 3 →
      (c.shutDown = true → s.evidRefusal r = some (dw1 0xF0 0xF4 0, 0)) ∧
      (c.shutDown = false → evOffset r.desc ≠ 0xFFFFFFFF → evOffset r.desc ≠ c.length →
        s.evidRefusal r = some (dw1 0xF0 0xF6 0, c.length)) ∧
      (c.shutDown = false → evOffset r.desc = 0xFFFFFFFF ∨ evOffset r.desc = c.length →
        (op = 3 → s.channelReady = false → s.evidRefusal r = some (dw1 0xF0 0xF5 0, 0)) ∧
        (op = 2 ∨ s.channelReady = true → s.evidRefusal r = none))))

/-- R484, R485, R492, R493, R495–R498: NAND_PROGRAM_DONE, NAND_READ_DONE, NAND_ERASE_DONE, APPEND_PKT_TO_NS, UPKEEP,
SCRUB_DUE. -/
def Obligations.NandOperations : Prop :=
  (∀ (s : State) (ce : Fin 4) (ok : Bool) (words : List CwRead),
    let rest := fun (p : NandPurpose → Bool) => { s with evid := { s.evid with
      ops := s.evid.ops.eraseP (fun o => o.loc.ce == ce.val && p o.purpose) } }
    let first := fun (p : NandPurpose → Bool) => s.evid.ops.find? (fun o => o.loc.ce == ce.val && p o.purpose)
    (s.isOpen 58 = false ∨ first isProgram = none → exec (.nandProgramDone ce ok) s = .next s) ∧
    (s.isOpen 58 = false ∨ first isRead = none → exec (.nandReadDone ce words) s = .next s) ∧
    (s.isOpen 58 = false ∨ first isErase = none → exec (.nandEraseDone ce ok) s = .next s) ∧
    (s.isOpen 58 = true →
      (∀ u uid clip bytes, first isProgram = some ⟨u, .prog uid clip bytes⟩ → exec (.nandProgramDone ce ok) s =
        .next (workStore (showStore s.storeShown (if ok then ackUnit u uid clip bytes (rest isProgram)
          else failUnit u (.prog uid clip bytes) uid (rest isProgram))))) ∧
      (∀ o, first isRead = some o → exec (.nandReadDone ce words) s =
        .next (workStore (showStore s.storeShown (nextScrub (readDone o words (rest isRead)))))) ∧
      (∀ u, first isErase = some ⟨u, .erase⟩ → exec (.nandEraseDone ce ok) s =
        .next (workStore (showStore s.storeShown (if ok then erased ce u.blk (rest isErase)
          else retireBlock ce u.blk (rest isErase))))))) ∧
  (∀ (s : State) (u : UnitAt) (uid clip bytes : Nat),
    (∀ c, s.clip clip = some c → (ackUnit u uid clip bytes s).clip clip =
      some { c with units := c.units ++ [(u, bytes)], length := c.length + bytes }) ∧
    (∀ r, s.evidReq uid = some r → (ackUnit u uid clip bytes s).evidReq uid = some { r with busy := false, done := r.done + bytes }) ∧
    (failUnit u (.prog uid clip bytes) uid s).isBad u.ce u.blk = true ∧
    (let t := retireBlock u.ce u.blk (dropUnit u s)
     ∀ r b v, t.evidReq uid = some r → t.nand.superblock = some b → b.readOnly = false → t.nextUnit b = some v →
      failUnit u (.prog uid clip bytes) uid s = programAt v (.prog uid clip bytes) ((s.unitAt u).elim [] (fun x => x.pages)) t)) ∧
  (∀ (s : State) (b : Superblock) (ce blk n k : Nat),
    ladder b (.hard n) = (if n ≤ (if b.codeB then 140 else 80) then .hard n else .uncorrectable) ∧
    ladder b (.retry k) = (if b.chip.retries = 0 then .soft else .retry k) ∧
    (countWord b ce blk .soft s).get F.nandEcc0Soft = min 0xFFFF (s.get F.nandEcc0Soft + 1) ∧
    (countWord b ce blk .uncorrectable s).get F.nandEcc1Uncorrectable = min 0xFFFF (s.get F.nandEcc1Uncorrectable + 1) ∧
    (∀ x ∈ (erased ce blk s).nand.units, ¬ (x.loc.ce = ce ∧ x.loc.blk = blk)) ∧
    ((s.block ce blk).ce = ce → (s.block ce blk).blk = blk → ((erased ce blk s).block ce blk).fill = 0 ∧
      ((erased ce blk s).block ce blk).erases = (s.block ce blk).erases + 1)) ∧
  (∀ (s : State) (clip : Word),
    let own := s.evid.reqs.find? (fun r => r.begun && evOp r.desc == 3 && evClip r.desc == clip.toNat)
    (own = none → exec (.appendPktToNs clip) s = .next s) ∧
    (∀ r, own = some r → s.isOpen 58 = false ∨ (s.isShut 61 = false ∧ s.rd64 R.intakeTimeNow < s.evTo r.desc) →
      exec (.appendPktToNs clip) s = .next s) ∧
    (∀ r, own = some r → s.isOpen 58 = true → s.isShut 61 = true ∨ s.evTo r.desc ≤ s.rd64 R.intakeTimeNow →
      exec (.appendPktToNs clip) s = .next (workStore (changeReq r.uid (fun q => { q with past := true }) s)))) ∧
  (∀ s : State,
    (s.isOpen 58 = false ∨ s.get F.nandStatusState ≠ 2 ∨ s.evid.reqs ≠ [] ∨ s.evid.ops ≠ [] → exec .upkeep s = .next s) ∧
    (∀ b k, s.isOpen 58 = true → s.get F.nandStatusState = 2 → s.evid.reqs = [] → s.evid.ops = [] →
      s.nand.superblock = some b → s.upkeepTarget b = some k →
      let u := setBlock { k with mark := if k.mark = 0 then 2 else k.mark } s
      exec .upkeep s = .next (showStore s.storeShown { u with evid := { u.evid with
        ops := [match s.liveOf k.ce k.blk with | x :: _ => ⟨x, .fetch⟩ | [] => ⟨⟨k.ce, k.blk, 0⟩, .erase⟩] } })) ∧
    (s.isOpen 58 = false ∨ (s.get F.nandStatusState ≠ 2 ∧ s.get F.nandStatusState ≠ 3) ∨ s.evid.scrubDue = true →
      exec .scrubDue s = .next s) ∧
    (∀ x, s.isOpen 58 = true → s.get F.nandStatusState = 2 ∨ s.get F.nandStatusState = 3 → s.evid.scrubDue = false →
      s.evid.ops = [] → (s.nand.units.filter (fun u => s.isLive u.loc)).map (fun u => u.loc) = [x] →
      exec .scrubDue s = .next (showStore s.storeShown { s with evid := { s.evid with
        scrub := [], scrubDue := true, ops := [⟨x, .scrub⟩] } })))

/-- R505, R508, R509, R512, R514, R516–R518: ACOUSTIC_FRAME, SETTLING_END, PREROLL_READ, PREROLL_RELEASE, FIRED_CLEAR (log
entry 40 for rounding and the level of silence). -/
def Obligations.AcousticRules : Prop :=
  ∀ s : State,
  (∀ pcm, s.acou.cfg = none ∨ s.isOpen 3 = false ∨ s.get F.acouStatusMode = 0 → exec (.acousticFrame pcm) s = .next s) ∧
  (∀ c pcm, s.acou.cfg = some c → s.isOpen 3 = true → s.get F.acouStatusMode = 3 → ∃ t, exec (.acousticFrame pcm) s = .next t ∧
    t.acou.mics = s.acou.mics ∧ t.acou.count = s.acou.count + 1 ∧ t.mem = s.mem ∧ t.get F.acouStatusMode = 3 ∧
    (s.acou.releasing = true → t.acou.roll = [] ∧ t.acou.frozen = none ∧ t.acou.releasing = false) ∧
    (s.acou.releasing = false → s.acou.frozen = none →
      t.acou.roll = (⟨List.replicate 256 0, true, false⟩ :: s.acou.roll).take 125) ∧
    (s.acou.releasing = false → s.acou.frozen ≠ none → t.acou.roll = s.acou.roll ∧ t.acou.frozen = s.acou.frozen)) ∧
  (∀ c pcm, s.acou.cfg = some c → s.isOpen 3 = true → s.get F.acouStatusMode = 1 ∨ s.get F.acouStatusMode = 2 →
    let s1 := { s with acou := { s.acou with count := s.acou.count + 1 } }
    let mics := if s.get F.acouStatusMode = 2 then [c.listenMic] else maskList 8 c.micMask
    let r := mics.foldl (fun a m => hearMic c pcm m a) ([], s1)
    let end_ := fun (t : State) => if r.2.acou.releasing && t.acou.releasing then emptyRoll t else t
    exec (.acousticFrame pcm) s = .next (end_ (if r.1 = [] then r.2 else acousticEvent c r.1 r.2))) ∧
  (∀ c fs, s.boot.starting = true →
    (acousticEvent c fs s).get F.acouStatusFired = 1 ∧
    (s.acou.frozen = none → (acousticEvent c fs s).get F.acouStatusFrozen = 1 ∧
      ∃ f, (acousticEvent c fs s).acou.frozen = some f ∧ f.samples.length = 16 * c.prerollMs ∧ f.timeUs = s.timeUs) ∧
    (s.acou.frozen ≠ none → (acousticEvent c fs s).acou.frozen = s.acou.frozen ∧
      (acousticEvent c fs s).get F.acouCount1Missed = min (2 ^ F.acouCount1Missed.width - 1) (s.get F.acouCount1Missed + 1))) ∧
  (∀ c now (e : Int) xs (m : MicState),
    (m.floor = none → (hearFrame c now e xs m).1.floor = some (max (-6291456) (min 0 (256 * e)))) ∧
    (∀ n, m.floor = some n → n + 65536 * (c.marginDb : Int) < 256 * e → (hearFrame c now e xs m).1.floor = some n) ∧
    (∀ n, m.floor = some n → 256 * e ≤ n + 65536 * (c.marginDb : Int) → (hearFrame c now e xs m).1.floor =
      some (max (-6291456) (min 0 (n + roundRat ((256 * e - n) * 16) (1000 * (c.noiseTauS : Int))))))) ∧
  (s.isOpen 3 = false ∨ s.get F.acouStatusMode ≠ 3 → exec .settlingEnd s = .next s) ∧
  (s.isOpen 3 = true → s.get F.acouStatusMode = 3 → exec .settlingEnd s = .next (s.put F.acouStatusMode s.micTarget)) ∧
  (s.boot.starting = false → s.power ≤ 1 → s.get F.pwrStatusState ≤ 1 → s.micTarget = 1) ∧
  (∀ (w : Writer) (key : BitVec 16), s.reaches w R.acouCmd →
    let r := if key ≠ 0xAC05 ∨ isPf0 w = false ∨ s.hasToken w = false then 1 else if s.get F.acouStatusBusy = 1 then 2
      else if s.inBloom = false then 3 else if s.plan.active.acoustic = none then 4 else 0
    let s1 := s.put F.acouStatusResult r
    (r ≠ 0 → exec (.prerollRead w key) s = .next s1 ∧ exec (.prerollRelease w key) s = .next s1) ∧
    (∀ c, r = 0 → s.plan.active.acoustic = some c →
      exec (.prerollRelease w key) s = .next { s1 with acou := { s1.acou with releasing := true } } ∧
      (let dst := s1.rd64 R.acouDstAddr / 64 * 64
       (∀ f, s.acou.frozen = some f →
        exec (.prerollRead w key) s = .next ((writeDest w dst (rollBytes c f) s1).put F.acouStatusStatus 0)) ∧
       (s.acou.frozen = none → exec (.prerollRead w key) s =
        .next ((writeDest w dst (List.replicate (64 + 32 * c.prerollMs) 0) s1).put F.acouStatusStatus 0x80))))) ∧
  (∀ w : Writer, s.reaches w R.acouStatus → ∃ t, exec (.firedClear w) s = .next t ∧ t.get F.acouStatusFired = 0 ∧
    t.get F.acouStatusFrozen = s.get F.acouStatusFrozen ∧ t.get F.acouStatusMode = s.get F.acouStatusMode ∧
    t = { s with regs := t.regs } ∧ ∀ off, off ≠ R.acouStatus → t.rd off = s.rd off)
end

