-- ==== Sys2Proof/Laws/State.lean ====
section
/-! SUPPORT. What the register operations leave: one lemma per field of State and update, and reading back what was
written. -/
namespace Sys2Proof.Machine

/-! Sparse storage -/

theorem cellGet_drop_ne {α : Type} (d : Nat → α) (m : List (Nat × α)) (j k : Nat) (h : j ≠ k) :
    cellGet d (cellDrop m k) j = cellGet d m j := by
  induction m with
  | nil => rfl
  | cons e r ih =>
    obtain ⟨i, v⟩ := e
    by_cases hi : i = k
    · subst hi
      simpa [cellDrop, cellGet, Ne.symm h] using ih
    · simp only [cellDrop, List.filter_cons, cellGet] at ih ⊢
      simp only [hi, ne_eq, not_false_eq_true, decide_true, if_true, cellGet]
      split
      · rfl
      · exact ih

theorem cellGet_drop_same {α : Type} (d : Nat → α) (m : List (Nat × α)) (k : Nat) : cellGet d (cellDrop m k) k = d k := by
  induction m with
  | nil => rfl
  | cons e r ih =>
    obtain ⟨i, v⟩ := e
    by_cases hi : i = k
    · subst hi
      simpa [cellDrop] using ih
    · simp only [cellDrop, List.filter_cons, ne_eq, hi, not_false_eq_true, decide_true, if_true, cellGet, if_false]
      simpa [cellDrop] using ih

theorem cellGet_insert_ne {α : Type} (d : Nat → α) (m : List (Nat × α)) (j k : Nat) (v : α) (h : j ≠ k) :
    cellGet d (cellInsert k v m) j = cellGet d m j := by
  induction m with
  | nil => simp [cellInsert, cellGet, Ne.symm h]
  | cons e r ih =>
    simp only [cellInsert]
    split
    · simp [cellGet, Ne.symm h]
    · simp only [cellGet, ih]

theorem cellGet_insert_same {α : Type} (d : Nat → α) (m : List (Nat × α)) (k : Nat) (v : α)
    (h : ∀ e ∈ m, e.1 ≠ k) : cellGet d (cellInsert k v m) k = v := by
  induction m with
  | nil => simp [cellInsert, cellGet]
  | cons e r ih =>
    simp only [cellInsert]
    split
    · simp [cellGet]
    · simp only [cellGet]
      rw [if_neg (h e (by simp)), ih (fun x hx => h x (by simp [hx]))]

theorem cellDrop_mem_ne {α : Type} (m : List (Nat × α)) (k : Nat) : ∀ e ∈ cellDrop m k, e.1 ≠ k := by
  intro e he
  simpa using (List.mem_filter.mp he).2

/-- Reading the key that was written gives the value. -/
theorem cellGet_set_same {α : Type} [DecidableEq α] (d : Nat → α) (m : List (Nat × α)) (k : Nat) (v : α) :
    cellGet d (cellSet d m k v) k = v := by
  simp only [cellSet]
  split
  · next h => rw [cellGet_drop_same, h]
  · exact cellGet_insert_same d _ k v (cellDrop_mem_ne m k)

/-- Reading another key gives what it gave before. -/
theorem cellGet_set_ne {α : Type} [DecidableEq α] (d : Nat → α) (m : List (Nat × α)) (j k : Nat) (v : α) (h : j ≠ k) :
    cellGet d (cellSet d m k v) j = cellGet d m j := by
  simp only [cellSet]
  split
  · exact cellGet_drop_ne d m j k h
  · rw [cellGet_insert_ne d _ j k v h, cellGet_drop_ne d m j k h]

/-! Register words -/

@[simp] theorem State.rd_wr_same (s : State) (o : Nat) (v : Word) : (s.wr o v).rd o = v :=
  cellGet_set_same coldWord s.regs o v

theorem State.rd_wr_ne (s : State) (o p : Nat) (v : Word) (h : p ≠ o) : (s.wr o v).rd p = s.rd p :=
  cellGet_set_ne coldWord s.regs p o v h

/-! Fields that an update leaves -/

@[simp] theorem State.isl_wr (s : State) (o : Nat) (v : Word) : (s.wr o v).isl = s.isl := rfl
@[simp] theorem State.mem_wr (s : State) (o : Nat) (v : Word) : (s.wr o v).mem = s.mem := rfl
@[simp] theorem State.mmu_wr (s : State) (o : Nat) (v : Word) : (s.wr o v).mmu = s.mmu := rfl
@[simp] theorem State.host_wr (s : State) (o : Nat) (v : Word) : (s.wr o v).host = s.host := rfl
@[simp] theorem State.fw_wr (s : State) (o : Nat) (v : Word) : (s.wr o v).fw = s.fw := rfl
@[simp] theorem State.plan_wr (s : State) (o : Nat) (v : Word) : (s.wr o v).plan = s.plan := rfl
@[simp] theorem State.boot_wr (s : State) (o : Nat) (v : Word) : (s.wr o v).boot = s.boot := rfl
@[simp] theorem State.board_wr (s : State) (o : Nat) (v : Word) : (s.wr o v).board = s.board := rfl
@[simp] theorem State.pwr_wr (s : State) (o : Nat) (v : Word) : (s.wr o v).pwr = s.pwr := rfl
@[simp] theorem State.fence_wr (s : State) (o : Nat) (v : Word) : (s.wr o v).fence = s.fence := rfl
@[simp] theorem State.hose_wr (s : State) (o : Nat) (v : Word) : (s.wr o v).hose = s.hose := rfl
@[simp] theorem State.bed_wr (s : State) (o : Nat) (v : Word) : (s.wr o v).bed = s.bed := rfl
@[simp] theorem State.rake_wr (s : State) (o : Nat) (v : Word) : (s.wr o v).rake = s.rake := rfl
@[simp] theorem State.furrow_wr (s : State) (o : Nat) (v : Word) : (s.wr o v).furrow = s.furrow := rfl
@[simp] theorem State.mgmt_wr (s : State) (o : Nat) (v : Word) : (s.wr o v).mgmt = s.mgmt := rfl
@[simp] theorem State.disp_wr (s : State) (o : Nat) (v : Word) : (s.wr o v).disp = s.disp := rfl
@[simp] theorem State.switch_wr (s : State) (o : Nat) (v : Word) : (s.wr o v).switch = s.switch := rfl
@[simp] theorem State.intake_wr (s : State) (o : Nat) (v : Word) : (s.wr o v).intake = s.intake := rfl
@[simp] theorem State.nand_wr (s : State) (o : Nat) (v : Word) : (s.wr o v).nand = s.nand := rfl
@[simp] theorem State.evid_wr (s : State) (o : Nat) (v : Word) : (s.wr o v).evid = s.evid := rfl
@[simp] theorem State.acou_wr (s : State) (o : Nat) (v : Word) : (s.wr o v).acou = s.acou := rfl
@[simp] theorem State.tap_wr (s : State) (o : Nat) (v : Word) : (s.wr o v).tap = s.tap := rfl
@[simp] theorem State.timeUs_wr (s : State) (o : Nat) (v : Word) : (s.wr o v).timeUs = s.timeUs := rfl
@[simp] theorem State.fresh_wr (s : State) (o : Nat) (v : Word) : (s.wr o v).fresh = s.fresh := rfl
@[simp] theorem State.pending_wr (s : State) (o : Nat) (v : Word) : (s.wr o v).pending = s.pending := rfl
@[simp] theorem State.isl_put (s : State) (f : Field) (v : Nat) : (s.put f v).isl = s.isl := rfl
@[simp] theorem State.mem_put (s : State) (f : Field) (v : Nat) : (s.put f v).mem = s.mem := rfl
@[simp] theorem State.mmu_put (s : State) (f : Field) (v : Nat) : (s.put f v).mmu = s.mmu := rfl
@[simp] theorem State.host_put (s : State) (f : Field) (v : Nat) : (s.put f v).host = s.host := rfl
@[simp] theorem State.fw_put (s : State) (f : Field) (v : Nat) : (s.put f v).fw = s.fw := rfl
@[simp] theorem State.plan_put (s : State) (f : Field) (v : Nat) : (s.put f v).plan = s.plan := rfl
@[simp] theorem State.boot_put (s : State) (f : Field) (v : Nat) : (s.put f v).boot = s.boot := rfl
@[simp] theorem State.board_put (s : State) (f : Field) (v : Nat) : (s.put f v).board = s.board := rfl
@[simp] theorem State.pwr_put (s : State) (f : Field) (v : Nat) : (s.put f v).pwr = s.pwr := rfl
@[simp] theorem State.fence_put (s : State) (f : Field) (v : Nat) : (s.put f v).fence = s.fence := rfl
@[simp] theorem State.hose_put (s : State) (f : Field) (v : Nat) : (s.put f v).hose = s.hose := rfl
@[simp] theorem State.bed_put (s : State) (f : Field) (v : Nat) : (s.put f v).bed = s.bed := rfl
@[simp] theorem State.rake_put (s : State) (f : Field) (v : Nat) : (s.put f v).rake = s.rake := rfl
@[simp] theorem State.furrow_put (s : State) (f : Field) (v : Nat) : (s.put f v).furrow = s.furrow := rfl
@[simp] theorem State.mgmt_put (s : State) (f : Field) (v : Nat) : (s.put f v).mgmt = s.mgmt := rfl
@[simp] theorem State.disp_put (s : State) (f : Field) (v : Nat) : (s.put f v).disp = s.disp := rfl
@[simp] theorem State.switch_put (s : State) (f : Field) (v : Nat) : (s.put f v).switch = s.switch := rfl
@[simp] theorem State.intake_put (s : State) (f : Field) (v : Nat) : (s.put f v).intake = s.intake := rfl
@[simp] theorem State.nand_put (s : State) (f : Field) (v : Nat) : (s.put f v).nand = s.nand := rfl
@[simp] theorem State.evid_put (s : State) (f : Field) (v : Nat) : (s.put f v).evid = s.evid := rfl
@[simp] theorem State.acou_put (s : State) (f : Field) (v : Nat) : (s.put f v).acou = s.acou := rfl
@[simp] theorem State.tap_put (s : State) (f : Field) (v : Nat) : (s.put f v).tap = s.tap := rfl
@[simp] theorem State.timeUs_put (s : State) (f : Field) (v : Nat) : (s.put f v).timeUs = s.timeUs := rfl
@[simp] theorem State.fresh_put (s : State) (f : Field) (v : Nat) : (s.put f v).fresh = s.fresh := rfl
@[simp] theorem State.pending_put (s : State) (f : Field) (v : Nat) : (s.put f v).pending = s.pending := rfl
@[simp] theorem State.isl_bump (s : State) (f : Field) (n : Nat) : (s.bump f n).isl = s.isl := rfl
@[simp] theorem State.mem_bump (s : State) (f : Field) (n : Nat) : (s.bump f n).mem = s.mem := rfl
@[simp] theorem State.mmu_bump (s : State) (f : Field) (n : Nat) : (s.bump f n).mmu = s.mmu := rfl
@[simp] theorem State.host_bump (s : State) (f : Field) (n : Nat) : (s.bump f n).host = s.host := rfl
@[simp] theorem State.fw_bump (s : State) (f : Field) (n : Nat) : (s.bump f n).fw = s.fw := rfl
@[simp] theorem State.plan_bump (s : State) (f : Field) (n : Nat) : (s.bump f n).plan = s.plan := rfl
@[simp] theorem State.boot_bump (s : State) (f : Field) (n : Nat) : (s.bump f n).boot = s.boot := rfl
@[simp] theorem State.board_bump (s : State) (f : Field) (n : Nat) : (s.bump f n).board = s.board := rfl
@[simp] theorem State.pwr_bump (s : State) (f : Field) (n : Nat) : (s.bump f n).pwr = s.pwr := rfl
@[simp] theorem State.fence_bump (s : State) (f : Field) (n : Nat) : (s.bump f n).fence = s.fence := rfl
@[simp] theorem State.hose_bump (s : State) (f : Field) (n : Nat) : (s.bump f n).hose = s.hose := rfl
@[simp] theorem State.bed_bump (s : State) (f : Field) (n : Nat) : (s.bump f n).bed = s.bed := rfl
@[simp] theorem State.rake_bump (s : State) (f : Field) (n : Nat) : (s.bump f n).rake = s.rake := rfl
@[simp] theorem State.furrow_bump (s : State) (f : Field) (n : Nat) : (s.bump f n).furrow = s.furrow := rfl
@[simp] theorem State.mgmt_bump (s : State) (f : Field) (n : Nat) : (s.bump f n).mgmt = s.mgmt := rfl
@[simp] theorem State.disp_bump (s : State) (f : Field) (n : Nat) : (s.bump f n).disp = s.disp := rfl
@[simp] theorem State.switch_bump (s : State) (f : Field) (n : Nat) : (s.bump f n).switch = s.switch := rfl
@[simp] theorem State.intake_bump (s : State) (f : Field) (n : Nat) : (s.bump f n).intake = s.intake := rfl
@[simp] theorem State.nand_bump (s : State) (f : Field) (n : Nat) : (s.bump f n).nand = s.nand := rfl
@[simp] theorem State.evid_bump (s : State) (f : Field) (n : Nat) : (s.bump f n).evid = s.evid := rfl
@[simp] theorem State.acou_bump (s : State) (f : Field) (n : Nat) : (s.bump f n).acou = s.acou := rfl
@[simp] theorem State.tap_bump (s : State) (f : Field) (n : Nat) : (s.bump f n).tap = s.tap := rfl
@[simp] theorem State.timeUs_bump (s : State) (f : Field) (n : Nat) : (s.bump f n).timeUs = s.timeUs := rfl
@[simp] theorem State.fresh_bump (s : State) (f : Field) (n : Nat) : (s.bump f n).fresh = s.fresh := rfl
@[simp] theorem State.pending_bump (s : State) (f : Field) (n : Nat) : (s.bump f n).pending = s.pending := rfl
@[simp] theorem State.isl_bump32 (s : State) (o n : Nat) : (s.bump32 o n).isl = s.isl := rfl
@[simp] theorem State.mem_bump32 (s : State) (o n : Nat) : (s.bump32 o n).mem = s.mem := rfl
@[simp] theorem State.mmu_bump32 (s : State) (o n : Nat) : (s.bump32 o n).mmu = s.mmu := rfl
@[simp] theorem State.host_bump32 (s : State) (o n : Nat) : (s.bump32 o n).host = s.host := rfl
@[simp] theorem State.fw_bump32 (s : State) (o n : Nat) : (s.bump32 o n).fw = s.fw := rfl
@[simp] theorem State.plan_bump32 (s : State) (o n : Nat) : (s.bump32 o n).plan = s.plan := rfl
@[simp] theorem State.boot_bump32 (s : State) (o n : Nat) : (s.bump32 o n).boot = s.boot := rfl
@[simp] theorem State.board_bump32 (s : State) (o n : Nat) : (s.bump32 o n).board = s.board := rfl
@[simp] theorem State.pwr_bump32 (s : State) (o n : Nat) : (s.bump32 o n).pwr = s.pwr := rfl
@[simp] theorem State.fence_bump32 (s : State) (o n : Nat) : (s.bump32 o n).fence = s.fence := rfl
@[simp] theorem State.hose_bump32 (s : State) (o n : Nat) : (s.bump32 o n).hose = s.hose := rfl
@[simp] theorem State.bed_bump32 (s : State) (o n : Nat) : (s.bump32 o n).bed = s.bed := rfl
@[simp] theorem State.rake_bump32 (s : State) (o n : Nat) : (s.bump32 o n).rake = s.rake := rfl
@[simp] theorem State.furrow_bump32 (s : State) (o n : Nat) : (s.bump32 o n).furrow = s.furrow := rfl
@[simp] theorem State.mgmt_bump32 (s : State) (o n : Nat) : (s.bump32 o n).mgmt = s.mgmt := rfl
@[simp] theorem State.disp_bump32 (s : State) (o n : Nat) : (s.bump32 o n).disp = s.disp := rfl
@[simp] theorem State.switch_bump32 (s : State) (o n : Nat) : (s.bump32 o n).switch = s.switch := rfl
@[simp] theorem State.intake_bump32 (s : State) (o n : Nat) : (s.bump32 o n).intake = s.intake := rfl
@[simp] theorem State.nand_bump32 (s : State) (o n : Nat) : (s.bump32 o n).nand = s.nand := rfl
@[simp] theorem State.evid_bump32 (s : State) (o n : Nat) : (s.bump32 o n).evid = s.evid := rfl
@[simp] theorem State.acou_bump32 (s : State) (o n : Nat) : (s.bump32 o n).acou = s.acou := rfl
@[simp] theorem State.tap_bump32 (s : State) (o n : Nat) : (s.bump32 o n).tap = s.tap := rfl
@[simp] theorem State.timeUs_bump32 (s : State) (o n : Nat) : (s.bump32 o n).timeUs = s.timeUs := rfl
@[simp] theorem State.fresh_bump32 (s : State) (o n : Nat) : (s.bump32 o n).fresh = s.fresh := rfl
@[simp] theorem State.pending_bump32 (s : State) (o n : Nat) : (s.bump32 o n).pending = s.pending := rfl
@[simp] theorem State.isl_wrap32 (s : State) (o n : Nat) : (s.wrap32 o n).isl = s.isl := rfl
@[simp] theorem State.mem_wrap32 (s : State) (o n : Nat) : (s.wrap32 o n).mem = s.mem := rfl
@[simp] theorem State.mmu_wrap32 (s : State) (o n : Nat) : (s.wrap32 o n).mmu = s.mmu := rfl
@[simp] theorem State.host_wrap32 (s : State) (o n : Nat) : (s.wrap32 o n).host = s.host := rfl
@[simp] theorem State.fw_wrap32 (s : State) (o n : Nat) : (s.wrap32 o n).fw = s.fw := rfl
@[simp] theorem State.plan_wrap32 (s : State) (o n : Nat) : (s.wrap32 o n).plan = s.plan := rfl
@[simp] theorem State.boot_wrap32 (s : State) (o n : Nat) : (s.wrap32 o n).boot = s.boot := rfl
@[simp] theorem State.board_wrap32 (s : State) (o n : Nat) : (s.wrap32 o n).board = s.board := rfl
@[simp] theorem State.pwr_wrap32 (s : State) (o n : Nat) : (s.wrap32 o n).pwr = s.pwr := rfl
@[simp] theorem State.fence_wrap32 (s : State) (o n : Nat) : (s.wrap32 o n).fence = s.fence := rfl
@[simp] theorem State.hose_wrap32 (s : State) (o n : Nat) : (s.wrap32 o n).hose = s.hose := rfl
@[simp] theorem State.bed_wrap32 (s : State) (o n : Nat) : (s.wrap32 o n).bed = s.bed := rfl
@[simp] theorem State.rake_wrap32 (s : State) (o n : Nat) : (s.wrap32 o n).rake = s.rake := rfl
@[simp] theorem State.furrow_wrap32 (s : State) (o n : Nat) : (s.wrap32 o n).furrow = s.furrow := rfl
@[simp] theorem State.mgmt_wrap32 (s : State) (o n : Nat) : (s.wrap32 o n).mgmt = s.mgmt := rfl
@[simp] theorem State.disp_wrap32 (s : State) (o n : Nat) : (s.wrap32 o n).disp = s.disp := rfl
@[simp] theorem State.switch_wrap32 (s : State) (o n : Nat) : (s.wrap32 o n).switch = s.switch := rfl
@[simp] theorem State.intake_wrap32 (s : State) (o n : Nat) : (s.wrap32 o n).intake = s.intake := rfl
@[simp] theorem State.nand_wrap32 (s : State) (o n : Nat) : (s.wrap32 o n).nand = s.nand := rfl
@[simp] theorem State.evid_wrap32 (s : State) (o n : Nat) : (s.wrap32 o n).evid = s.evid := rfl
@[simp] theorem State.acou_wrap32 (s : State) (o n : Nat) : (s.wrap32 o n).acou = s.acou := rfl
@[simp] theorem State.tap_wrap32 (s : State) (o n : Nat) : (s.wrap32 o n).tap = s.tap := rfl
@[simp] theorem State.timeUs_wrap32 (s : State) (o n : Nat) : (s.wrap32 o n).timeUs = s.timeUs := rfl
@[simp] theorem State.fresh_wrap32 (s : State) (o n : Nat) : (s.wrap32 o n).fresh = s.fresh := rfl
@[simp] theorem State.pending_wrap32 (s : State) (o n : Nat) : (s.wrap32 o n).pending = s.pending := rfl
@[simp] theorem State.isl_wr64 (s : State) (o v : Nat) : (s.wr64 o v).isl = s.isl := rfl
@[simp] theorem State.mem_wr64 (s : State) (o v : Nat) : (s.wr64 o v).mem = s.mem := rfl
@[simp] theorem State.mmu_wr64 (s : State) (o v : Nat) : (s.wr64 o v).mmu = s.mmu := rfl
@[simp] theorem State.host_wr64 (s : State) (o v : Nat) : (s.wr64 o v).host = s.host := rfl
@[simp] theorem State.fw_wr64 (s : State) (o v : Nat) : (s.wr64 o v).fw = s.fw := rfl
@[simp] theorem State.plan_wr64 (s : State) (o v : Nat) : (s.wr64 o v).plan = s.plan := rfl
@[simp] theorem State.boot_wr64 (s : State) (o v : Nat) : (s.wr64 o v).boot = s.boot := rfl
@[simp] theorem State.board_wr64 (s : State) (o v : Nat) : (s.wr64 o v).board = s.board := rfl
@[simp] theorem State.pwr_wr64 (s : State) (o v : Nat) : (s.wr64 o v).pwr = s.pwr := rfl
@[simp] theorem State.fence_wr64 (s : State) (o v : Nat) : (s.wr64 o v).fence = s.fence := rfl
@[simp] theorem State.hose_wr64 (s : State) (o v : Nat) : (s.wr64 o v).hose = s.hose := rfl
@[simp] theorem State.bed_wr64 (s : State) (o v : Nat) : (s.wr64 o v).bed = s.bed := rfl
@[simp] theorem State.rake_wr64 (s : State) (o v : Nat) : (s.wr64 o v).rake = s.rake := rfl
@[simp] theorem State.furrow_wr64 (s : State) (o v : Nat) : (s.wr64 o v).furrow = s.furrow := rfl
@[simp] theorem State.mgmt_wr64 (s : State) (o v : Nat) : (s.wr64 o v).mgmt = s.mgmt := rfl
@[simp] theorem State.disp_wr64 (s : State) (o v : Nat) : (s.wr64 o v).disp = s.disp := rfl
@[simp] theorem State.switch_wr64 (s : State) (o v : Nat) : (s.wr64 o v).switch = s.switch := rfl
@[simp] theorem State.intake_wr64 (s : State) (o v : Nat) : (s.wr64 o v).intake = s.intake := rfl
@[simp] theorem State.nand_wr64 (s : State) (o v : Nat) : (s.wr64 o v).nand = s.nand := rfl
@[simp] theorem State.evid_wr64 (s : State) (o v : Nat) : (s.wr64 o v).evid = s.evid := rfl
@[simp] theorem State.acou_wr64 (s : State) (o v : Nat) : (s.wr64 o v).acou = s.acou := rfl
@[simp] theorem State.tap_wr64 (s : State) (o v : Nat) : (s.wr64 o v).tap = s.tap := rfl
@[simp] theorem State.timeUs_wr64 (s : State) (o v : Nat) : (s.wr64 o v).timeUs = s.timeUs := rfl
@[simp] theorem State.fresh_wr64 (s : State) (o v : Nat) : (s.wr64 o v).fresh = s.fresh := rfl
@[simp] theorem State.pending_wr64 (s : State) (o v : Nat) : (s.wr64 o v).pending = s.pending := rfl
@[simp] theorem State.regs_setFn (s : State) (f : Nat) (p : PcieFn) : (s.setFn f p).regs = s.regs := rfl
@[simp] theorem State.isl_setFn (s : State) (f : Nat) (p : PcieFn) : (s.setFn f p).isl = s.isl := rfl
@[simp] theorem State.mem_setFn (s : State) (f : Nat) (p : PcieFn) : (s.setFn f p).mem = s.mem := rfl
@[simp] theorem State.mmu_setFn (s : State) (f : Nat) (p : PcieFn) : (s.setFn f p).mmu = s.mmu := rfl
@[simp] theorem State.fw_setFn (s : State) (f : Nat) (p : PcieFn) : (s.setFn f p).fw = s.fw := rfl
@[simp] theorem State.plan_setFn (s : State) (f : Nat) (p : PcieFn) : (s.setFn f p).plan = s.plan := rfl
@[simp] theorem State.boot_setFn (s : State) (f : Nat) (p : PcieFn) : (s.setFn f p).boot = s.boot := rfl
@[simp] theorem State.board_setFn (s : State) (f : Nat) (p : PcieFn) : (s.setFn f p).board = s.board := rfl
@[simp] theorem State.pwr_setFn (s : State) (f : Nat) (p : PcieFn) : (s.setFn f p).pwr = s.pwr := rfl
@[simp] theorem State.fence_setFn (s : State) (f : Nat) (p : PcieFn) : (s.setFn f p).fence = s.fence := rfl
@[simp] theorem State.hose_setFn (s : State) (f : Nat) (p : PcieFn) : (s.setFn f p).hose = s.hose := rfl
@[simp] theorem State.bed_setFn (s : State) (f : Nat) (p : PcieFn) : (s.setFn f p).bed = s.bed := rfl
@[simp] theorem State.rake_setFn (s : State) (f : Nat) (p : PcieFn) : (s.setFn f p).rake = s.rake := rfl
@[simp] theorem State.furrow_setFn (s : State) (f : Nat) (p : PcieFn) : (s.setFn f p).furrow = s.furrow := rfl
@[simp] theorem State.mgmt_setFn (s : State) (f : Nat) (p : PcieFn) : (s.setFn f p).mgmt = s.mgmt := rfl
@[simp] theorem State.disp_setFn (s : State) (f : Nat) (p : PcieFn) : (s.setFn f p).disp = s.disp := rfl
@[simp] theorem State.switch_setFn (s : State) (f : Nat) (p : PcieFn) : (s.setFn f p).switch = s.switch := rfl
@[simp] theorem State.intake_setFn (s : State) (f : Nat) (p : PcieFn) : (s.setFn f p).intake = s.intake := rfl
@[simp] theorem State.nand_setFn (s : State) (f : Nat) (p : PcieFn) : (s.setFn f p).nand = s.nand := rfl
@[simp] theorem State.evid_setFn (s : State) (f : Nat) (p : PcieFn) : (s.setFn f p).evid = s.evid := rfl
@[simp] theorem State.acou_setFn (s : State) (f : Nat) (p : PcieFn) : (s.setFn f p).acou = s.acou := rfl
@[simp] theorem State.tap_setFn (s : State) (f : Nat) (p : PcieFn) : (s.setFn f p).tap = s.tap := rfl
@[simp] theorem State.timeUs_setFn (s : State) (f : Nat) (p : PcieFn) : (s.setFn f p).timeUs = s.timeUs := rfl
@[simp] theorem State.fresh_setFn (s : State) (f : Nat) (p : PcieFn) : (s.setFn f p).fresh = s.fresh := rfl
@[simp] theorem State.pending_setFn (s : State) (f : Nat) (p : PcieFn) : (s.setFn f p).pending = s.pending := rfl
@[simp] theorem State.regs_draw (s : State) : s.draw.2.regs = s.regs := rfl
@[simp] theorem State.isl_draw (s : State) : s.draw.2.isl = s.isl := rfl
@[simp] theorem State.mem_draw (s : State) : s.draw.2.mem = s.mem := rfl
@[simp] theorem State.mmu_draw (s : State) : s.draw.2.mmu = s.mmu := rfl
@[simp] theorem State.host_draw (s : State) : s.draw.2.host = s.host := rfl
@[simp] theorem State.fw_draw (s : State) : s.draw.2.fw = s.fw := rfl
@[simp] theorem State.plan_draw (s : State) : s.draw.2.plan = s.plan := rfl
@[simp] theorem State.boot_draw (s : State) : s.draw.2.boot = s.boot := rfl
@[simp] theorem State.board_draw (s : State) : s.draw.2.board = s.board := rfl
@[simp] theorem State.pwr_draw (s : State) : s.draw.2.pwr = s.pwr := rfl
@[simp] theorem State.fence_draw (s : State) : s.draw.2.fence = s.fence := rfl
@[simp] theorem State.hose_draw (s : State) : s.draw.2.hose = s.hose := rfl
@[simp] theorem State.bed_draw (s : State) : s.draw.2.bed = s.bed := rfl
@[simp] theorem State.rake_draw (s : State) : s.draw.2.rake = s.rake := rfl
@[simp] theorem State.furrow_draw (s : State) : s.draw.2.furrow = s.furrow := rfl
@[simp] theorem State.mgmt_draw (s : State) : s.draw.2.mgmt = s.mgmt := rfl
@[simp] theorem State.disp_draw (s : State) : s.draw.2.disp = s.disp := rfl
@[simp] theorem State.switch_draw (s : State) : s.draw.2.switch = s.switch := rfl
@[simp] theorem State.intake_draw (s : State) : s.draw.2.intake = s.intake := rfl
@[simp] theorem State.nand_draw (s : State) : s.draw.2.nand = s.nand := rfl
@[simp] theorem State.evid_draw (s : State) : s.draw.2.evid = s.evid := rfl
@[simp] theorem State.acou_draw (s : State) : s.draw.2.acou = s.acou := rfl
@[simp] theorem State.tap_draw (s : State) : s.draw.2.tap = s.tap := rfl
@[simp] theorem State.timeUs_draw (s : State) : s.draw.2.timeUs = s.timeUs := rfl
@[simp] theorem State.pending_draw (s : State) : s.draw.2.pending = s.pending := rfl

@[simp] theorem State.rd_setFn (s : State) (f : Nat) (p : PcieFn) (o : Nat) : (s.setFn f p).rd o = s.rd o := rfl
@[simp] theorem State.rd_draw (s : State) (o : Nat) : s.draw.2.rd o = s.rd o := rfl
@[simp] theorem State.get_setFn (s : State) (f : Nat) (p : PcieFn) (g : Field) : (s.setFn f p).get g = s.get g := rfl
@[simp] theorem State.get_draw (s : State) (g : Field) : s.draw.2.get g = s.get g := rfl


@[simp] theorem State.isl_puts (s : State) (l : List (Field × Nat)) : (s.puts l).isl = s.isl := by
  induction l generalizing s with
  | nil => rfl
  | cons e r ih => exact ih (s.put e.1 e.2)
@[simp] theorem State.mem_puts (s : State) (l : List (Field × Nat)) : (s.puts l).mem = s.mem := by
  induction l generalizing s with
  | nil => rfl
  | cons e r ih => exact ih (s.put e.1 e.2)
@[simp] theorem State.mmu_puts (s : State) (l : List (Field × Nat)) : (s.puts l).mmu = s.mmu := by
  induction l generalizing s with
  | nil => rfl
  | cons e r ih => exact ih (s.put e.1 e.2)
@[simp] theorem State.host_puts (s : State) (l : List (Field × Nat)) : (s.puts l).host = s.host := by
  induction l generalizing s with
  | nil => rfl
  | cons e r ih => exact ih (s.put e.1 e.2)
@[simp] theorem State.fw_puts (s : State) (l : List (Field × Nat)) : (s.puts l).fw = s.fw := by
  induction l generalizing s with
  | nil => rfl
  | cons e r ih => exact ih (s.put e.1 e.2)
@[simp] theorem State.plan_puts (s : State) (l : List (Field × Nat)) : (s.puts l).plan = s.plan := by
  induction l generalizing s with
  | nil => rfl
  | cons e r ih => exact ih (s.put e.1 e.2)
@[simp] theorem State.boot_puts (s : State) (l : List (Field × Nat)) : (s.puts l).boot = s.boot := by
  induction l generalizing s with
  | nil => rfl
  | cons e r ih => exact ih (s.put e.1 e.2)
@[simp] theorem State.board_puts (s : State) (l : List (Field × Nat)) : (s.puts l).board = s.board := by
  induction l generalizing s with
  | nil => rfl
  | cons e r ih => exact ih (s.put e.1 e.2)
@[simp] theorem State.pwr_puts (s : State) (l : List (Field × Nat)) : (s.puts l).pwr = s.pwr := by
  induction l generalizing s with
  | nil => rfl
  | cons e r ih => exact ih (s.put e.1 e.2)
@[simp] theorem State.fence_puts (s : State) (l : List (Field × Nat)) : (s.puts l).fence = s.fence := by
  induction l generalizing s with
  | nil => rfl
  | cons e r ih => exact ih (s.put e.1 e.2)
@[simp] theorem State.hose_puts (s : State) (l : List (Field × Nat)) : (s.puts l).hose = s.hose := by
  induction l generalizing s with
  | nil => rfl
  | cons e r ih => exact ih (s.put e.1 e.2)
@[simp] theorem State.bed_puts (s : State) (l : List (Field × Nat)) : (s.puts l).bed = s.bed := by
  induction l generalizing s with
  | nil => rfl
  | cons e r ih => exact ih (s.put e.1 e.2)
@[simp] theorem State.rake_puts (s : State) (l : List (Field × Nat)) : (s.puts l).rake = s.rake := by
  induction l generalizing s with
  | nil => rfl
  | cons e r ih => exact ih (s.put e.1 e.2)
@[simp] theorem State.furrow_puts (s : State) (l : List (Field × Nat)) : (s.puts l).furrow = s.furrow := by
  induction l generalizing s with
  | nil => rfl
  | cons e r ih => exact ih (s.put e.1 e.2)
@[simp] theorem State.mgmt_puts (s : State) (l : List (Field × Nat)) : (s.puts l).mgmt = s.mgmt := by
  induction l generalizing s with
  | nil => rfl
  | cons e r ih => exact ih (s.put e.1 e.2)
@[simp] theorem State.disp_puts (s : State) (l : List (Field × Nat)) : (s.puts l).disp = s.disp := by
  induction l generalizing s with
  | nil => rfl
  | cons e r ih => exact ih (s.put e.1 e.2)
@[simp] theorem State.switch_puts (s : State) (l : List (Field × Nat)) : (s.puts l).switch = s.switch := by
  induction l generalizing s with
  | nil => rfl
  | cons e r ih => exact ih (s.put e.1 e.2)
@[simp] theorem State.intake_puts (s : State) (l : List (Field × Nat)) : (s.puts l).intake = s.intake := by
  induction l generalizing s with
  | nil => rfl
  | cons e r ih => exact ih (s.put e.1 e.2)
@[simp] theorem State.nand_puts (s : State) (l : List (Field × Nat)) : (s.puts l).nand = s.nand := by
  induction l generalizing s with
  | nil => rfl
  | cons e r ih => exact ih (s.put e.1 e.2)
@[simp] theorem State.evid_puts (s : State) (l : List (Field × Nat)) : (s.puts l).evid = s.evid := by
  induction l generalizing s with
  | nil => rfl
  | cons e r ih => exact ih (s.put e.1 e.2)
@[simp] theorem State.acou_puts (s : State) (l : List (Field × Nat)) : (s.puts l).acou = s.acou := by
  induction l generalizing s with
  | nil => rfl
  | cons e r ih => exact ih (s.put e.1 e.2)
@[simp] theorem State.tap_puts (s : State) (l : List (Field × Nat)) : (s.puts l).tap = s.tap := by
  induction l generalizing s with
  | nil => rfl
  | cons e r ih => exact ih (s.put e.1 e.2)
@[simp] theorem State.timeUs_puts (s : State) (l : List (Field × Nat)) : (s.puts l).timeUs = s.timeUs := by
  induction l generalizing s with
  | nil => rfl
  | cons e r ih => exact ih (s.put e.1 e.2)
@[simp] theorem State.fresh_puts (s : State) (l : List (Field × Nat)) : (s.puts l).fresh = s.fresh := by
  induction l generalizing s with
  | nil => rfl
  | cons e r ih => exact ih (s.put e.1 e.2)
@[simp] theorem State.pending_puts (s : State) (l : List (Field × Nat)) : (s.puts l).pending = s.pending := by
  induction l generalizing s with
  | nil => rfl
  | cons e r ih => exact ih (s.put e.1 e.2)
/-! Register fields -/

/-- What `setBits` holds as a number. -/
theorem setBits_toNat (w : Word) (lo n v : Nat) (h : lo + n ≤ 32) :
    (setBits w lo n v).toNat = w.toNat % 2 ^ lo + 2 ^ lo * (v % 2 ^ n + 2 ^ n * (w.toNat / 2 ^ (lo + n))) := by
  have hw : w.toNat < 2 ^ 32 := w.isLt
  have ha : w.toNat % 2 ^ lo < 2 ^ lo := Nat.mod_lt _ (Nat.two_pow_pos lo)
  have hb : v % 2 ^ n < 2 ^ n := Nat.mod_lt _ (Nat.two_pow_pos n)
  have hc : w.toNat / 2 ^ (lo + n) < 2 ^ (32 - (lo + n)) := by
    rw [Nat.div_lt_iff_lt_mul (Nat.two_pow_pos _), ← Nat.pow_add]
    rwa [Nat.sub_add_cancel h]
  have hbc : v % 2 ^ n + 2 ^ n * (w.toNat / 2 ^ (lo + n)) < 2 ^ n * 2 ^ (32 - (lo + n)) := by
    calc v % 2 ^ n + 2 ^ n * (w.toNat / 2 ^ (lo + n))
        < 2 ^ n + 2 ^ n * (w.toNat / 2 ^ (lo + n)) := by omega
      _ = 2 ^ n * (w.toNat / 2 ^ (lo + n) + 1) := by rw [Nat.mul_add_one, Nat.add_comm]
      _ ≤ 2 ^ n * 2 ^ (32 - (lo + n)) := Nat.mul_le_mul_left _ hc
  have ht : w.toNat % 2 ^ lo + 2 ^ lo * (v % 2 ^ n + 2 ^ n * (w.toNat / 2 ^ (lo + n))) < 2 ^ 32 := by
    calc w.toNat % 2 ^ lo + 2 ^ lo * (v % 2 ^ n + 2 ^ n * (w.toNat / 2 ^ (lo + n)))
        < 2 ^ lo + 2 ^ lo * (v % 2 ^ n + 2 ^ n * (w.toNat / 2 ^ (lo + n))) := by omega
      _ = 2 ^ lo * (v % 2 ^ n + 2 ^ n * (w.toNat / 2 ^ (lo + n)) + 1) := by rw [Nat.mul_add_one, Nat.add_comm]
      _ ≤ 2 ^ lo * (2 ^ n * 2 ^ (32 - (lo + n))) := Nat.mul_le_mul_left _ hbc
      _ = 2 ^ 32 := by rw [← Nat.pow_add, ← Nat.pow_add]; congr 1; omega
  have he : w.toNat % 2 ^ lo + 2 ^ lo * (v % 2 ^ n) + 2 ^ (lo + n) * (w.toNat / 2 ^ (lo + n)) =
      w.toNat % 2 ^ lo + 2 ^ lo * (v % 2 ^ n + 2 ^ n * (w.toNat / 2 ^ (lo + n))) := by
    rw [Nat.mul_add, ← Nat.mul_assoc, ← Nat.pow_add, Nat.add_assoc]
  simp only [setBits, BitVec.toNat_ofNat]
  rw [he, Nat.mod_eq_of_lt ht]

theorem getBits_setBits_same (w : Word) (lo n v : Nat) (h : lo + n ≤ 32) : getBits (setBits w lo n v) lo n = v % 2 ^ n := by
  have ha : w.toNat % 2 ^ lo < 2 ^ lo := Nat.mod_lt _ (Nat.two_pow_pos lo)
  simp only [getBits, setBits_toNat w lo n v h]
  rw [Nat.add_mul_div_left _ _ (Nat.two_pow_pos lo), Nat.div_eq_of_lt ha, Nat.zero_add, Nat.add_mul_mod_self_left, Nat.mod_mod]

/-- A field above the one that is set. -/
theorem getBits_setBits_above (w : Word) (lo n v lo' n' : Nat) (h : lo + n ≤ 32) (hd : lo + n ≤ lo') :
    getBits (setBits w lo n v) lo' n' = getBits w lo' n' := by
  have ha : w.toNat % 2 ^ lo < 2 ^ lo := Nat.mod_lt _ (Nat.two_pow_pos lo)
  have hb : v % 2 ^ n < 2 ^ n := Nat.mod_lt _ (Nat.two_pow_pos n)
  have hq : (setBits w lo n v).toNat / 2 ^ (lo + n) = w.toNat / 2 ^ (lo + n) := by
    rw [setBits_toNat w lo n v h, Nat.pow_add, ← Nat.div_div_eq_div_mul, Nat.add_mul_div_left _ _ (Nat.two_pow_pos lo),
      Nat.div_eq_of_lt ha, Nat.zero_add, Nat.add_mul_div_left _ _ (Nat.two_pow_pos n), Nat.div_eq_of_lt hb, Nat.zero_add]
  simp only [getBits]
  obtain ⟨k, rfl⟩ := Nat.exists_eq_add_of_le hd
  rw [Nat.pow_add, ← Nat.div_div_eq_div_mul, ← Nat.div_div_eq_div_mul, hq]

/-- A field depends only on the number modulo a power of two above it. -/
theorem field_mod (x lo n k : Nat) (h : lo + n ≤ k) : x % 2 ^ k / 2 ^ lo % 2 ^ n = x / 2 ^ lo % 2 ^ n := by
  obtain ⟨j, rfl⟩ := Nat.exists_eq_add_of_le h
  have : 2 ^ (lo + n + j) = 2 ^ lo * (2 ^ n * 2 ^ j) := by rw [Nat.add_assoc, Nat.pow_add, Nat.pow_add]
  rw [this, Nat.mod_mul_right_div_self, Nat.mod_mul_right_mod]

/-- A field below the one that is set. -/
theorem getBits_setBits_below (w : Word) (lo n v lo' n' : Nat) (h : lo + n ≤ 32) (hd : lo' + n' ≤ lo) :
    getBits (setBits w lo n v) lo' n' = getBits w lo' n' := by
  have hm : (setBits w lo n v).toNat % 2 ^ lo = w.toNat % 2 ^ lo := by
    rw [setBits_toNat w lo n v h, Nat.add_mul_mod_self_left, Nat.mod_mod]
  simp only [getBits]
  rw [← field_mod _ lo' n' lo hd, hm, field_mod _ lo' n' lo hd]

/-- Two fields share no bit. -/
def apart (f g : Field) : Bool := f.off ≠ g.off || f.lo + f.width ≤ g.lo || g.lo + g.width ≤ f.lo

/-- A field lies in its word. -/
def fits (f : Field) : Bool := f.lo + f.width ≤ 32

@[simp] theorem State.get_put_same (s : State) (f : Field) (v : Nat) (h : fits f = true) :
    (s.put f v).get f = v % 2 ^ f.width := by
  simp only [State.get, State.put, State.rd_wr_same]
  exact getBits_setBits_same _ _ _ _ (by simpa [fits] using h)

theorem State.get_put_apart (s : State) (f g : Field) (v : Nat) (h : fits f = true) (ha : apart f g = true) :
    (s.put f v).get g = s.get g := by
  simp only [State.get, State.put]
  by_cases ho : g.off = f.off
  · have hf : f.lo + f.width ≤ 32 := by simpa [fits] using h
    simp only [apart, ho, ne_eq, not_true_eq_false, decide_false, Bool.false_or, Bool.or_eq_true, decide_eq_true_eq] at ha
    rw [ho, State.rd_wr_same]
    rcases ha with ha | ha
    · exact getBits_setBits_above _ _ _ _ _ _ hf ha
    · exact getBits_setBits_below _ _ _ _ _ _ hf ha
  · rw [State.rd_wr_ne _ _ _ _ ho]

theorem State.get_wr_ne (s : State) (o : Nat) (v : Word) (g : Field) (h : g.off ≠ o) : (s.wr o v).get g = s.get g := by
  simp only [State.get, State.rd_wr_ne _ _ _ _ h]

theorem State.rd_put_ne (s : State) (f : Field) (v o : Nat) (h : o ≠ f.off) : (s.put f v).rd o = s.rd o :=
  State.rd_wr_ne _ _ _ _ h

theorem State.get_puts_apart (s : State) (l : List (Field × Nat)) (g : Field)
    (h : ∀ e ∈ l, fits e.1 = true ∧ apart e.1 g = true) : (s.puts l).get g = s.get g := by
  induction l generalizing s with
  | nil => rfl
  | cons e r ih =>
    have h1 := h e (by simp)
    exact (ih (s.put e.1 e.2) (fun x hx => h x (by simp [hx]))).trans (State.get_put_apart s e.1 g e.2 h1.1 h1.2)

theorem State.rd_puts_ne (s : State) (l : List (Field × Nat)) (o : Nat) (h : ∀ e ∈ l, o ≠ e.1.off) :
    (s.puts l).rd o = s.rd o := by
  induction l generalizing s with
  | nil => rfl
  | cons e r ih =>
    exact (ih (s.put e.1 e.2) (fun x hx => h x (by simp [hx]))).trans (State.rd_put_ne s e.1 e.2 o (h e (by simp)))

end Sys2Proof.Machine
end

