-- ==== Sys2Proof/Laws/Bed.lean ====
section
/-! SUPPORT. What the issue of a bed instruction does (spec/13 R322–R327). -/
namespace Sys2Proof.Machine

/-- `issue` runs the body of a matching instruction in the state after issue. -/
theorem issue_runs {s : State} {n slot : Nat} {w : Wave} {o : Order} {v x : Nat} (h : s.issues n slot w o v x)
    {mine : Nat → Nat → Bool} (hm : mine (iClass v) (iOp v) = true) (body : Ctx → State → State) :
    issue n slot mine body s = body (s.ctx n w o v x) (s.afterIssue n w v) := by
  obtain ⟨h1, h2, h3, h4, h5, h6, ⟨bs, h7, h8, h9⟩, h10, h11, h12, h13, h14⟩ := h
  have hf : fetchWord n o w.pc s = (.word v, s) := by simp [fetchWord, h7, h8]
  have hp : (w.pc + 8) / 64 * 64 = w.pc / 64 * 64 := by omega
  have hq : (w.pc + 8) % 64 = w.pc % 64 + 8 := by omega
  have hg : (if iExt v then fetchWord n o (w.pc + 8) s else ((.word 0, s) : Fetched × State)) = (.word x, s) := by
    by_cases he : iExt v
    · simp [he, fetchWord, hp, hq, h7, h9]
    · simp [he, h9]
  unfold issue
  simp only [h2, h3, h1, h4, h5, hf, hg, h10, hm, h14]
  simp [h11, h12, h13, State.ctx, State.afterIssue, State.draw, Ctx.touched]

end Sys2Proof.Machine
end

