-- ==== Sys2Proof/Laws/Memory.lean ====
section
/-! SUPPORT. The laws of sparse storage: every operation keeps the canonical form, a read after a write gives what was
written, and every other address keeps what it had. -/
namespace Sys2Proof.Machine

/-! The canonical form -/

theorem risesFrom_weaken {α : Type} (lo : Nat) (m : List (Nat × α)) (h : risesFrom (some lo) m = true) (x : Option Nat)
    (hx : ∀ y, x = some y → y ≤ lo) : risesFrom x m = true := by
  cases m with
  | nil => rfl
  | cons e r =>
    simp only [risesFrom, Bool.and_eq_true, decide_eq_true_eq] at h
    cases x with
    | none => exact h.2
    | some y =>
      have := hx y rfl
      simp only [risesFrom, Bool.and_eq_true, decide_eq_true_eq]
      exact ⟨by omega, h.2⟩

theorem risesFrom_cons {α : Type} (x : Option Nat) (e : Nat × α) (r : List (Nat × α)) :
    risesFrom x (e :: r) = true ↔ (∀ y, x = some y → y < e.1) ∧ risesFrom (some e.1) r = true := by
  cases x with
  | none => simp [risesFrom]
  | some y => simp [risesFrom]

theorem risesFrom_filter {α : Type} (p : Nat × α → Bool) (m : List (Nat × α)) (x : Option Nat)
    (h : risesFrom x m = true) : risesFrom x (m.filter p) = true := by
  induction m generalizing x with
  | nil => rfl
  | cons e r ih =>
    rw [risesFrom_cons] at h
    rw [List.filter_cons]
    split
    · rw [risesFrom_cons]
      exact ⟨h.1, ih _ h.2⟩
    · exact ih x (risesFrom_weaken e.1 r h.2 x (fun y hy => Nat.le_of_lt (h.1 y hy)))

theorem risesFrom_insert {α : Type} (k : Nat) (v : α) (m : List (Nat × α)) (x : Option Nat)
    (h : risesFrom x m = true) (hk : ∀ y, x = some y → y < k) (hn : ∀ e ∈ m, e.1 ≠ k) :
    risesFrom x (cellInsert k v m) = true := by
  induction m generalizing x with
  | nil =>
    rw [cellInsert, risesFrom_cons]
    exact ⟨hk, rfl⟩
  | cons e r ih =>
    have h' := (risesFrom_cons x e r).mp h
    simp only [cellInsert]
    split
    · next hlt =>
      rw [risesFrom_cons]
      refine ⟨hk, ?_⟩
      rw [risesFrom_cons]
      exact ⟨fun y hy => by cases hy; exact hlt, h'.2⟩
    · next hge =>
      rw [risesFrom_cons]
      refine ⟨h'.1, ih _ h'.2 (fun y hy => ?_) (fun x hx => hn x (by simp [hx]))⟩
      cases hy
      have := hn e (by simp)
      omega

theorem cellInsert_all {α : Type} (p : Nat × α → Bool) (k : Nat) (v : α) (m : List (Nat × α)) :
    (cellInsert k v m).all p = (p (k, v) && m.all p) := by
  induction m with
  | nil => simp [cellInsert]
  | cons e r ih =>
    simp only [cellInsert]
    split
    · simp
    · simp only [List.all_cons, ih]
      cases p e <;> cases p (k, v) <;> rfl

theorem all_filter {α : Type} (p q : α → Bool) (m : List α) (h : m.all p = true) : (m.filter q).all p = true := by
  rw [List.all_eq_true] at h ⊢
  exact fun x hx => h x (List.mem_filter.mp hx).1

/-- Removing entries keeps the canonical form. -/
theorem cellWf_filter {α : Type} [DecidableEq α] (d : Nat → α) (p : Nat × α → Bool) (m : List (Nat × α))
    (h : cellWf d m = true) : cellWf d (m.filter p) = true := by
  simp only [cellWf, Bool.and_eq_true] at h ⊢
  exact ⟨risesFrom_filter p m none h.1, all_filter _ p m h.2⟩

/-- A write keeps the canonical form. -/
theorem cellWf_set {α : Type} [DecidableEq α] (d : Nat → α) (m : List (Nat × α)) (k : Nat) (v : α)
    (h : cellWf d m = true) : cellWf d (cellSet d m k v) = true := by
  have hd : cellWf d (cellDrop m k) = true := cellWf_filter d _ m h
  simp only [cellSet]
  split
  · exact hd
  · next hv =>
    simp only [cellWf, Bool.and_eq_true] at hd ⊢
    refine ⟨risesFrom_insert k v _ none hd.1 (fun _ h => by cases h) (cellDrop_mem_ne m k), ?_⟩
    rw [cellInsert_all]
    simp only [Bool.and_eq_true, decide_eq_true_eq]
    exact ⟨hv, hd.2⟩

theorem cellWf_nil {α : Type} [DecidableEq α] (d : Nat → α) : cellWf d [] = true := rfl

/-! Byte stores -/

theorem Memory.wf_set (d : Nat → Byte) (m : Memory) (a : Nat) (b : Byte) (h : Memory.wf d m) :
    Memory.wf d (Memory.set d m a b) := cellWf_set d m a b h

theorem Memory.wf_write (d : Nat → Byte) (m : Memory) (a : Nat) (bs : List Byte) (h : Memory.wf d m) :
    Memory.wf d (Memory.write d m a bs) := by
  induction bs generalizing m a with
  | nil => exact h
  | cons b bs ih => exact ih _ _ (Memory.wf_set d m a b h)

theorem Memory.wf_writeNat (d : Nat → Byte) (m : Memory) (a n v : Nat) (h : Memory.wf d m) :
    Memory.wf d (Memory.writeNat d m a n v) := Memory.wf_write d m a _ h

theorem Memory.wf_fill (d : Nat → Byte) (m : Memory) (a n : Nat) (b : Byte) (h : Memory.wf d m) :
    Memory.wf d (Memory.fill d m a n b) := by
  simp only [Memory.fill]
  split
  · exact cellWf_filter d _ m h
  · exact Memory.wf_write d m a _ h

@[simp] theorem Memory.get_set_same (d : Nat → Byte) (m : Memory) (a : Nat) (b : Byte) :
    Memory.get d (Memory.set d m a b) a = b := cellGet_set_same d m a b

theorem Memory.get_set_ne (d : Nat → Byte) (m : Memory) (a c : Nat) (b : Byte) (h : c ≠ a) :
    Memory.get d (Memory.set d m a b) c = Memory.get d m c := cellGet_set_ne d m c a b h

/-- A write leaves every byte outside it. -/
theorem Memory.get_write_outside (d : Nat → Byte) (m : Memory) (a c : Nat) (bs : List Byte) (h : c < a ∨ a + bs.length ≤ c) :
    Memory.get d (Memory.write d m a bs) c = Memory.get d m c := by
  induction bs generalizing m a with
  | nil => rfl
  | cons b bs ih =>
    simp only [List.length_cons] at h
    rw [Memory.write, ih _ _ (by omega), Memory.get_set_ne _ _ _ _ _ (by omega)]

/-- A byte of a write reads back. -/
theorem Memory.get_write_inside (d : Nat → Byte) (m : Memory) (a i : Nat) (bs : List Byte) (h : i < bs.length) :
    Memory.get d (Memory.write d m a bs) (a + i) = bs.getD i 0 := by
  induction bs generalizing m a i with
  | nil => simp at h
  | cons b bs ih =>
    rw [Memory.write]
    cases i with
    | zero => rw [Memory.get_write_outside _ _ _ _ _ (by omega)]; simp
    | succ j =>
      have := ih (Memory.set d m a b) (a + 1) j (by simpa using h)
      rw [show a + (j + 1) = a + 1 + j by omega, this]
      simp

theorem Memory.length_read (d : Nat → Byte) (m : Memory) (a n : Nat) : (Memory.read d m a n).length = n := by
  induction n generalizing a with
  | zero => rfl
  | succ n ih => simp [Memory.read, ih]

/-- A read is the read of its first part followed by that of the rest. -/
theorem Memory.read_add (d : Nat → Byte) (m : Memory) (a k n : Nat) :
    Memory.read d m a (k + n) = Memory.read d m a k ++ Memory.read d m (a + k) n := by
  induction k generalizing a with
  | zero => simp [Memory.read]
  | succ k ih =>
    rw [show k + 1 + n = k + n + 1 by omega, Memory.read, ih, Memory.read, List.cons_append, show a + 1 + k = a + (k + 1) by omega]

/-- What a write stored is read back. -/
theorem Memory.read_write (d : Nat → Byte) (m : Memory) (a : Nat) (bs : List Byte) :
    Memory.read d (Memory.write d m a bs) a bs.length = bs := by
  induction bs generalizing m a with
  | nil => rfl
  | cons b bs ih =>
    simp only [List.length_cons, Memory.read, Memory.write]
    rw [ih, Memory.get_write_outside _ _ _ _ _ (by omega), Memory.get_set_same]

/-- A read outside what a write stored is unchanged. -/
theorem Memory.read_write_outside (d : Nat → Byte) (m : Memory) (a b n : Nat) (bs : List Byte)
    (h : b + n ≤ a ∨ a + bs.length ≤ b) : Memory.read d (Memory.write d m a bs) b n = Memory.read d m b n := by
  induction n generalizing b with
  | zero => rfl
  | succ n ih => rw [Memory.read, Memory.read, ih (b + 1) (by omega), Memory.get_write_outside _ _ _ _ _ (by omega)]

end Sys2Proof.Machine
end

