-- ==== Sys2Proof/Laws/Ops.lean ====
section
/-! SUPPORT. What the shared operations can do: events and messages, host memory, the token, and how an access is judged
before it acts. Each lemma is cited in place of unfolding its operation. -/
namespace Sys2Proof.Machine

/-! Messages and events (R201, R218, R219) -/

/-- A message changes nothing but the host interface. -/
theorem sendMsi_host (f v : Nat) (s : State) : ∃ h, sendMsi f v s = { s with host := h } := by
  unfold sendMsi State.setFn
  dsimp only
  split
  · exact ⟨_, rfl⟩
  · split
    · exact ⟨s.host, rfl⟩
    · exact ⟨_, rfl⟩

theorem sendMsi_get (f v : Nat) (s : State) (g : Field) : (sendMsi f v s).get g = s.get g := by
  obtain ⟨h, e⟩ := sendMsi_host f v s
  rw [e]; rfl

/-- An event changes HOSTQ_EVENT_CAUSE and the host interface at most. -/
theorem setEvent_effect (b : Nat) (s : State) :
    ∃ h, setEvent b s = { s with host := h } ∨
      setEvent b s = { s.wr R.hostqEventCause (BitVec.ofNat 32 ((s.rd R.hostqEventCause).toNat + 2 ^ b)) with host := h } := by
  unfold setEvent
  split
  · split
    · exact ⟨s.host, .inl rfl⟩
    · exact ⟨_, .inl rfl⟩
  · split
    · exact ⟨s.host, .inl rfl⟩
    · split
      · obtain ⟨h, e⟩ := sendMsi_host 0 0
          (s.wr R.hostqEventCause (BitVec.ofNat 32 ((s.rd R.hostqEventCause).toNat + 2 ^ b)))
        exact ⟨h, .inr e⟩
      · exact ⟨s.host, .inr rfl⟩

theorem setEvent_get (b : Nat) (s : State) (g : Field) (h : g.off ≠ R.hostqEventCause) :
    (setEvent b s).get g = s.get g := by
  obtain ⟨x, e | e⟩ := setEvent_effect b s
  · rw [e]; rfl
  · rw [e]; exact State.get_wr_ne _ _ _ _ h

@[simp] theorem setEvent_mem (b : Nat) (s : State) : (setEvent b s).mem = s.mem := by
  obtain ⟨x, e | e⟩ := setEvent_effect b s <;> rw [e] <;> rfl

@[simp] theorem setEvent_plan (b : Nat) (s : State) : (setEvent b s).plan = s.plan := by
  obtain ⟨x, e | e⟩ := setEvent_effect b s <;> rw [e] <;> rfl

@[simp] theorem setEvent_boot (b : Nat) (s : State) : (setEvent b s).boot = s.boot := by
  obtain ⟨x, e | e⟩ := setEvent_effect b s <;> rw [e] <;> rfl

@[simp] theorem setEvent_pwr (b : Nat) (s : State) : (setEvent b s).pwr = s.pwr := by
  obtain ⟨x, e | e⟩ := setEvent_effect b s <;> rw [e] <;> rfl

@[simp] theorem setEvent_fence (b : Nat) (s : State) : (setEvent b s).fence = s.fence := by
  obtain ⟨x, e | e⟩ := setEvent_effect b s <;> rw [e] <;> rfl

@[simp] theorem setEvent_pending (b : Nat) (s : State) : (setEvent b s).pending = s.pending := by
  obtain ⟨x, e | e⟩ := setEvent_effect b s <;> rw [e] <;> rfl

@[simp] theorem setEvent_fresh (b : Nat) (s : State) : (setEvent b s).fresh = s.fresh := by
  obtain ⟨x, e | e⟩ := setEvent_effect b s <;> rw [e] <;> rfl

/-- A bit of GLOBAL_STATUS leaves every other register word alone, but for HOSTQ_EVENT_CAUSE. -/
theorem setGlobal_get (f g : Field) (s : State) (h : g.off ≠ R.hostqEventCause) (ho : g.off ≠ f.off) :
    (setGlobal f s).get g = s.get g := by
  unfold setGlobal
  split
  · rfl
  · rw [setEvent_get _ _ _ h]; exact State.get_wr_ne _ _ _ _ ho

/-- The bit is set afterwards. -/
theorem setGlobal_set (f : Field) (s : State) (h : f.off ≠ R.hostqEventCause) (hf : fits f = true) (hw : f.width = 1) :
    (setGlobal f s).get f = 1 := by
  unfold setGlobal
  split
  · assumption
  · rw [setEvent_get _ _ _ h]; simp [hf, hw]

@[simp] theorem setGlobal_mem (f : Field) (s : State) : (setGlobal f s).mem = s.mem := by
  unfold setGlobal; split <;> simp

theorem badAccess_set (s : State) : (badAccess s).get F.globalStatusBadAccess = 1 :=
  setGlobal_set _ _ (by decide) (by decide) rfl

@[simp] theorem badAccess_mem (s : State) : (badAccess s).mem = s.mem := setGlobal_mem _ _

@[simp] theorem darkAccess_mem (n : Nat) (s : State) : (darkAccess n s).mem = s.mem := by simp [darkAccess]

/-! The token (R220–R222) -/

@[simp] theorem moveToken_mem (holder how : Nat) (s : State) : (moveToken holder how s).mem = s.mem := by simp [moveToken]

/-- HOLDER and HOW after the token has moved. -/
theorem moveToken_holder (holder how : Nat) (s : State) :
    (moveToken holder how s).get F.hostqTokenHolder = holder % 2 ^ F.hostqTokenHolder.width := by
  unfold moveToken
  rw [setEvent_get _ _ _ (by decide)]
  simp only [State.puts, List.foldl]
  rw [State.get_put_apart _ _ _ _ (by decide) (by decide), State.get_put_apart _ _ _ _ (by decide) (by decide),
    State.get_put_same _ _ _ (by decide)]

theorem moveToken_how (holder how : Nat) (s : State) :
    (moveToken holder how s).get F.hostqTokenHow = how % 2 ^ F.hostqTokenHow.width := by
  unfold moveToken
  rw [setEvent_get _ _ _ (by decide)]
  simp only [State.puts, List.foldl]
  rw [State.get_put_apart _ _ _ _ (by decide) (by decide), State.get_put_same _ _ _ (by decide)]

/-! Host memory (R201) -/

/-- A posted write keeps host memory canonical and touches no other memory. -/
theorem hostWrite_mem (f addr : Nat) (bs : List Byte) (s : State) :
    (hostWrite f addr bs s).mem.dram = s.mem.dram ∧ (hostWrite f addr bs s).mem.flash = s.mem.flash ∧
      (Memory.wf ramFill s.mem.host → Memory.wf ramFill (hostWrite f addr bs s).mem.host) := by
  unfold hostWrite
  split
  · exact ⟨rfl, rfl, fun h => Memory.wf_write _ _ _ _ h⟩
  · simp [State.bump32]

/-! Accesses (R557, R204) -/

/-- Outside Fallow no access wakes the device. -/
theorem touchWake_awake (w : Writer) {s : State} (h : s.power ≠ 2) : touchWake w s = s := by
  cases w <;> simp [touchWake, h]

/-- A write that reaches its register acts. -/
theorem writeAccess_serve {s : State} {w : Writer} {off : Nat} (h : s.reaches w off) (v : Nat) (act : State → State) :
    writeAccess w off v act s = act s := by
  obtain ⟨hp, hj⟩ := h
  simp [writeAccess, touchWake_awake w hp, hj]

/-- A write that R557 turns away does exactly what its verdict says. -/
theorem writeAccess_turned {s : State} {w : Writer} {off : Nat} (hp : s.power ≠ 2) (v : Nat) (act : State → State) :
    (∀ n, s.judge w off 4 = .dark n → writeAccess w off v act s = darkAccess n s) ∧
      (s.judge w off 4 = .bad ∨ s.judge w off 4 = .absent → writeAccess w off v act s = badAccess s) ∧
      (s.judge w off 4 = .none ∨ s.judge w off 4 = .zero → writeAccess w off v act s = s) := by
  refine ⟨?_, ?_, ?_⟩
  · intro n h; simp [writeAccess, touchWake_awake w hp, h]
  · rintro (h | h) <;> simp [writeAccess, touchWake_awake w hp, h]
  · rintro (h | h) <;> simp [writeAccess, touchWake_awake w hp, h]

/-- A BAR2 access of a function that reaches island 60 acts. -/
theorem bar2Access_serve {s : State} (f : Fin 8) (t : Tlp) (act : State → State) (h1 : s.power ≠ 2)
    (h2 : s.hostReaches f = true) (h3 : s.get F.bootStatusSafe ≠ 1) (h4 : s.mustHold = false)
    (h5 : s.isShut 60 = false) : bar2Access f t act s = act s := by
  simp [bar2Access, touchWake_awake _ h1, h2, h3, h4, h5]

end Sys2Proof.Machine
end

