-- ==== Sys2Proof/Laws/PerInstr.lean ====
section
/-! SUPPORT. The family Row: every command has a row of the opcode table (spec/opcode_table.json), numbered from 0. -/
namespace Sys2Proof

/-- The number of a command's row in spec/opcode_table.json. -/
def Instr.row : Instr → Nat
  | .resetTarget _ _ _ => 0
  | .clearTargetCounters _ _ _ => 1
  | .clearAllCounters _ _ => 2
  | .hedgeOpen _ => 3
  | .epochViewUpdate _ _ => 4
  | .hedgeRequest _ _ => 5
  | .hedgeReply _ _ => 6
  | .trellisAged => 7
  | .requestTagFree _ => 8
  | .responseTimeout _ _ _ => 9
  | .darkAccess _ _ _ => 10
  | .badAccess _ _ _ _ => 11
  | .registerWrite _ _ _ _ => 12
  | .load _ _ _ => 13
  | .graft _ _ _ => 14
  | .store _ _ => 15
  | .storeDone _ => 16
  | .fallback _ _ _ => 17
  | .planBurnFloor _ _ => 18
  | .revokeKey _ _ _ => 19
  | .abort _ _ => 20
  | .planCopyDone => 21
  | .planCheckDone => 22
  | .planDrainTimeout => 23
  | .planDrainDone => 24
  | .planCommitDone => 25
  | .resetNAssert => 26
  | .resetNDeassert => 27
  | .pwrOkRise => 28
  | .pwrOkFall => 29
  | .railUndervoltage => 30
  | .powerGood => 31
  | .fuseLoad _ _ _ _ => 32
  | .romCheck _ => 33
  | .bootDir _ => 34
  | .gkVerify => 35
  | .gkRun => 36
  | .pcieTrainingStart => 37
  | .memTrain _ => 38
  | .memRestore _ _ _ _ => 39
  | .imagesVerify _ => 40
  | .calLoad => 41
  | .planVerify _ => 42
  | .planApply => 43
  | .nandReplay => 44
  | .linksUp => 45
  | .ready => 46
  | .startTimerExpiry => 47
  | .dramClearDone => 48
  | .writeSlot _ _ _ _ => 49
  | .verifySlot _ _ _ => 50
  | .setPreferred _ _ _ => 51
  | .clearAttempts _ _ => 52
  | .bootBurnFloor _ _ => 53
  | .restartCold _ _ => 54
  | .pwrRequest _ _ _ _ => 55
  | .softwareShadeExit _ _ => 56
  | .processorWait _ _ => 57
  | .sequenceDone => 58
  | .settleHalfTimeout => 59
  | .settleTimeout => 60
  | .linkWaitTimeout => 61
  | .wakeNFall => 62
  | .rtcAlarm => 63
  | .pwrTimerExpiry => 64
  | .pcieWake => 65
  | .shadeTlpArrival _ => 66
  | .heldTlpServe => 67
  | .shadeFrameArrival _ _ => 68
  | .sensorSample _ _ => 69
  | .softDwellExpiry _ => 70
  | .hwThrottle => 71
  | .hwThrottleRelease => 72
  | .hwTrip => 73
  | .tripWakeRelease => 74
  | .powerCapStep _ => 75
  | .currentLimitSample _ => 76
  | .sustainedPowerExpiry => 77
  | .limitRatioRaise => 78
  | .overvolt => 79
  | .undervolt => 80
  | .undervoltRelease => 81
  | .crystalLoss => 82
  | .refclkLoss _ _ => 83
  | .calRead _ _ => 84
  | .calWrite _ _ => 85
  | .calReload _ _ => 86
  | .calMeasure _ _ _ _ _ => 87
  | .watchdogRestart _ => 88
  | .watchdogExpiry _ => 89
  | .firmwareException _ => 90
  | .processorReload _ _ => 91
  | .romPortFlashTimeout _ => 92
  | .hotSwap _ _ _ => 93
  | .hotSwapSettleTimeout => 94
  | .firmwareReload _ _ _ => 95
  | .leaseRequest _ _ _ _ => 96
  | .leaseRenew _ _ _ => 97
  | .leaseRelease _ _ _ => 98
  | .nandSafePointDone => 99
  | .leaseRevocation _ => 100
  | .leaseTimerExpiry _ => 101
  | .keymbLoad _ _ _ => 102
  | .keymbClear _ _ _ => 103
  | .keymbClearAll _ _ => 104
  | .sqDoorbell _ _ _ => 105
  | .cqDoorbell _ _ _ => 106
  | .ringEnable _ _ _ => 107
  | .ringDisable _ _ _ => 108
  | .entryFetch _ => 109
  | .nop _ => 110
  | .hose _ => 111
  | .resume _ => 112
  | .cqCoalesceTimer _ => 113
  | .msixUnmask _ _ _ _ _ => 114
  | .heartbeatBeat _ => 115
  | .heartbeatLapse => 116
  | .grant _ _ => 117
  | .reclaim _ _ => 118
  | .functionReset _ _ => 119
  | .d3hotEntry _ => 120
  | .busMasterEnable _ _ => 121
  | .pcieLinkDown => 122
  | .pcieLinkUp _ _ => 123
  | .fnWrite _ _ _ _ => 124
  | .ringOwnerWrite _ _ _ _ => 125
  | .bar4Access _ _ _ => 126
  | .smbusPacket _ => 127
  | .mctpReassemblyTimeout _ => 128
  | .setEndpointId _ _ _ => 129
  | .getEndpointId _ _ _ => 130
  | .getEndpointUuid _ _ _ => 131
  | .getMctpVersionSupport _ _ _ => 132
  | .getMessageTypeSupport _ _ _ => 133
  | .getVendorDefinedMessageSupport _ _ _ => 134
  | .setTid _ _ _ => 135
  | .getTid _ _ _ => 136
  | .getPldmVersion _ _ _ => 137
  | .getPldmTypes _ _ _ => 138
  | .getPldmCommands _ _ _ => 139
  | .getSensorReading _ _ _ => 140
  | .getStateSensorReadings _ _ _ => 141
  | .getPdrRepositoryInfo _ _ _ => 142
  | .getPdr _ _ _ => 143
  | .getStatus _ _ _ => 144
  | .getBootFail _ _ _ => 145
  | .readReg _ _ _ => 146
  | .writeReg _ _ _ => 147
  | .stageWrite _ _ _ => 148
  | .tokenQuery _ _ _ => 149
  | .tokenYield _ _ _ => 150
  | .wake _ _ _ => 151
  | .arbitrationRetry => 152
  | .alertResponse => 153
  | .addressMatch => 154
  | .shedAccess _ _ _ _ _ _ _ => 155
  | .shedFillDone _ _ _ => 156
  | .eccScrub _ _ => 157
  | .qosWindow _ => 158
  | .refreshRateChange _ _ => 159
  | .shedFill _ _ _ _ => 160
  | .shedWriteback _ _ _ _ => 161
  | .shedFlush _ _ => 162
  | .translationWalk _ _ _ _ _ => 163
  | .batchTimeout _ => 164
  | .batchWrite _ => 165
  | .faultTimeout _ => 166
  | .invalAll _ _ => 167
  | .invalAllot _ _ _ => 168
  | .invalRange _ _ _ => 169
  | .invalidationDone => 170
  | .faultRingEnable _ _ => 171
  | .slabCredit _ _ => 172
  | .releaseAdd _ _ _ _ => 173
  | .hoseCfgWrite _ _ _ _ => 174
  | .bedNop _ _ => 175
  | .endWave _ _ => 176
  | .br _ _ => 177
  | .brp _ _ => 178
  | .call _ _ => 179
  | .ret _ _ => 180
  | .brk _ _ => 181
  | .sleep _ _ => 182
  | .sleepExpiry _ _ => 183
  | .execp _ _ => 184
  | .mov _ _ => 185
  | .add _ _ => 186
  | .sub _ _ => 187
  | .mul _ _ => 188
  | .fma _ _ => 189
  | .mad _ _ => 190
  | .mulhi _ _ => 191
  | .min _ _ => 192
  | .max _ _ => 193
  | .and _ _ => 194
  | .or _ _ => 195
  | .xor _ _ => 196
  | .not _ _ => 197
  | .shl _ _ => 198
  | .shr _ _ => 199
  | .sar _ _ => 200
  | .sel _ _ => 201
  | .clamp _ _ => 202
  | .floor _ _ => 203
  | .ceil _ _ => 204
  | .rndne _ _ => 205
  | .fract _ _ => 206
  | .rcp _ _ => 207
  | .rsq _ _ => 208
  | .sqrt _ _ => 209
  | .exp2 _ _ => 210
  | .log2 _ _ => 211
  | .sin _ _ => 212
  | .cos _ _ => 213
  | .dot4 _ _ => 214
  | .dot2 _ _ => 215
  | .popc _ _ => 216
  | .clz _ _ => 217
  | .bfe _ _ => 218
  | .bfi _ _ => 219
  | .eq _ _ => 220
  | .ne _ _ => 221
  | .lt _ _ => 222
  | .le _ _ => 223
  | .gt _ _ => 224
  | .ge _ _ => 225
  | .ord _ _ => 226
  | .unord _ _ => 227
  | .test _ _ => 228
  | .pand _ _ => 229
  | .por _ _ => 230
  | .pxor _ _ => 231
  | .pnot _ _ => 232
  | .cvt _ _ => 233
  | .ldb _ _ => 234
  | .stb _ _ => 235
  | .atomb _ _ => 236
  | .ldg _ _ => 237
  | .stg _ _ => 238
  | .atomg _ _ => 239
  | .prefetch _ _ => 240
  | .sample _ _ => 241
  | .gather4 _ _ => 242
  | .loadtex _ _ => 243
  | .loadDataArrival _ _ => 244
  | .bar _ _ => 245
  | .fence _ _ => 246
  | .semWait _ _ => 247
  | .semTake _ _ => 248
  | .semAdd _ _ => 249
  | .semSet _ _ => 250
  | .hrelease _ _ => 251
  | .semaphoreUpdate _ => 252
  | .waitTimeout _ _ => 253
  | .tmma _ _ => 254
  | .tsparse _ _ => 255
  | .taccStore _ _ => 256
  | .taccRead _ _ => 257
  | .taccWrite _ _ => 258
  | .twait _ _ => 259
  | .tensorEntryDone _ => 260
  | .shfl _ _ => 261
  | .shflx _ _ => 262
  | .readlane _ _ => 263
  | .writelane _ _ => 264
  | .radd _ _ => 265
  | .rmin _ _ => 266
  | .rmax _ _ => 267
  | .ballot _ _ => 268
  | .scan _ _ => 269
  | .trapClear _ _ => 270
  | .numxClear _ _ _ _ => 271
  | .gemm _ => 272
  | .conv _ => 273
  | .dwconv _ => 274
  | .pool _ => 275
  | .eltwise _ => 276
  | .reduce _ => 277
  | .gather _ => 278
  | .embedMatch _ => 279
  | .program _ => 280
  | .tileStart _ => 281
  | .tileComplete _ => 282
  | .maxTileTimeExpiry _ => 283
  | .bedRestore _ => 284
  | .rakeRaster _ => 285
  | .rakeFusion _ => 286
  | .binningDone => 287
  | .resolveDone _ => 288
  | .hpdRise _ => 289
  | .hpdLow => 290
  | .irqHpd _ => 291
  | .retrain _ _ => 292
  | .flipArm _ _ => 293
  | .vblankStart => 294
  | .auxNativeRead _ _ _ => 295
  | .auxNativeWrite _ _ _ => 296
  | .auxI2cRead _ _ _ => 297
  | .frameReceive _ _ _ => 298
  | .frameTransmit _ => 299
  | .macAgeOut _ _ => 300
  | .portLinkChange _ _ _ => 301
  | .vnicRxTail _ _ => 302
  | .vnicTxTail _ _ => 303
  | .ptpMessage _ => 304
  | .syncTimeout => 305
  | .slotStart _ _ _ => 306
  | .slotStop _ _ _ => 307
  | .slotStopDone _ => 308
  | .rtpPacket => 309
  | .reorderTimeout _ => 310
  | .ssrcSwitch _ => 311
  | .srtpKeyCommit _ _ _ => 312
  | .rtcpPacket => 313
  | .feedDoorbell _ _ _ => 314
  | .feedCopyDone _ => 315
  | .auDecoded _ _ => 316
  | .frameReleaseAdd _ _ _ => 317
  | .groupEnable _ _ _ => 318
  | .compress _ => 319
  | .decompress _ => 320
  | .furrowJobDone => 321
  | .query _ => 322
  | .create _ => 323
  | .appendMem _ => 324
  | .appendPkt _ => 325
  | .sealClip _ => 326
  | .evidenceRead _ => 327
  | .delete _ => 328
  | .volumeCreate _ => 329
  | .volumeDelete _ => 330
  | .format _ => 331
  | .nandProgramDone _ _ => 332
  | .nandReadDone _ _ => 333
  | .nandEraseDone _ _ => 334
  | .upkeep => 335
  | .scrubDue => 336
  | .acousticFrame _ => 337
  | .settlingEnd => 338
  | .prerollRead _ _ => 339
  | .prerollRelease _ _ => 340
  | .firedClear _ => 341
  | .voltageSettled => 342
  | .avsResponse _ => 343
  | .avsFault => 344
  | .bypass _ => 345
  | .samplePreload _ _ => 346
  | .extest _ _ => 347
  | .configurationRequest _ _ _ => 348
  | .hostCompletion _ _ => 349
  | .completionTimeout _ => 350
  | .alertNPulseEnd => 351
  | .scanoutLine _ => 352
  | .auxReply _ => 353
  | .appendPktToNs _ => 354
  | .powerOnDetect => 355
  | .powerOnRelease => 356

/-- A command's row lies in the table. -/
def Laws.Row.Statement (i : Instr) : Prop := i.row < 357

theorem Laws.Row.resetTarget (w : Writer) (key : BitVec 16) (target : BitVec 7) : Laws.Row.Statement (.resetTarget w key target) := (by decide : 0 < 357)
theorem Laws.Row.clearTargetCounters (w : Writer) (key : BitVec 16) (target : BitVec 7) : Laws.Row.Statement (.clearTargetCounters w key target) := (by decide : 1 < 357)
theorem Laws.Row.clearAllCounters (w : Writer) (key : BitVec 16) : Laws.Row.Statement (.clearAllCounters w key) := (by decide : 2 < 357)
theorem Laws.Row.hedgeOpen (island : Fin 72) : Laws.Row.Statement (.hedgeOpen island) := (by decide : 3 < 357)
theorem Laws.Row.epochViewUpdate (stop island : Fin 72) : Laws.Row.Statement (.epochViewUpdate stop island) := (by decide : 4 < 357)
theorem Laws.Row.hedgeRequest (src dst : Fin 72) : Laws.Row.Statement (.hedgeRequest src dst) := (by decide : 5 < 357)
theorem Laws.Row.hedgeReply (src : Fin 72) (tag : Fin 64) : Laws.Row.Statement (.hedgeReply src tag) := (by decide : 6 < 357)
theorem Laws.Row.trellisAged : Laws.Row.Statement .trellisAged := (by decide : 7 < 357)
theorem Laws.Row.requestTagFree (src : Fin 72) : Laws.Row.Statement (.requestTagFree src) := (by decide : 8 < 357)
theorem Laws.Row.responseTimeout (src : Fin 72) (tag : Fin 64) (hung : Bool) : Laws.Row.Statement (.responseTimeout src tag hung) := (by decide : 9 < 357)
theorem Laws.Row.darkAccess (w : Writer) (off : BitVec 24) (write : Bool) : Laws.Row.Statement (.darkAccess w off write) := (by decide : 10 < 357)
theorem Laws.Row.badAccess (w : Writer) (off : BitVec 24) (size : Nat) (write : Bool) : Laws.Row.Statement (.badAccess w off size write) := (by decide : 11 < 357)
theorem Laws.Row.registerWrite (w : Writer) (off : BitVec 24) (lo : Word) (hi : Option Word) : Laws.Row.Statement (.registerWrite w off lo hi) := (by decide : 12 < 357)
theorem Laws.Row.load (w : Writer) (key : BitVec 16) (drain : BitVec 1) : Laws.Row.Statement (.load w key drain) := (by decide : 13 < 357)
theorem Laws.Row.graft (w : Writer) (key : BitVec 16) (drain : BitVec 1) : Laws.Row.Statement (.graft w key drain) := (by decide : 14 < 357)
theorem Laws.Row.store (w : Writer) (key : BitVec 16) : Laws.Row.Statement (.store w key) := (by decide : 15 < 357)
theorem Laws.Row.storeDone (readBackOk : Bool) : Laws.Row.Statement (.storeDone readBackOk) := (by decide : 16 < 357)
theorem Laws.Row.fallback (w : Writer) (key : BitVec 16) (drain : BitVec 1) : Laws.Row.Statement (.fallback w key drain) := (by decide : 17 < 357)
theorem Laws.Row.planBurnFloor (w : Writer) (key : BitVec 16) : Laws.Row.Statement (.planBurnFloor w key) := (by decide : 18 < 357)
theorem Laws.Row.revokeKey (w : Writer) (key : BitVec 16) (slot : BitVec 2) : Laws.Row.Statement (.revokeKey w key slot) := (by decide : 19 < 357)
theorem Laws.Row.abort (w : Writer) (key : BitVec 16) : Laws.Row.Statement (.abort w key) := (by decide : 20 < 357)
theorem Laws.Row.planCopyDone : Laws.Row.Statement .planCopyDone := (by decide : 21 < 357)
theorem Laws.Row.planCheckDone : Laws.Row.Statement .planCheckDone := (by decide : 22 < 357)
theorem Laws.Row.planDrainTimeout : Laws.Row.Statement .planDrainTimeout := (by decide : 23 < 357)
theorem Laws.Row.planDrainDone : Laws.Row.Statement .planDrainDone := (by decide : 24 < 357)
theorem Laws.Row.planCommitDone : Laws.Row.Statement .planCommitDone := (by decide : 25 < 357)
theorem Laws.Row.resetNAssert : Laws.Row.Statement .resetNAssert := (by decide : 26 < 357)
theorem Laws.Row.resetNDeassert : Laws.Row.Statement .resetNDeassert := (by decide : 27 < 357)
theorem Laws.Row.pwrOkRise : Laws.Row.Statement .pwrOkRise := (by decide : 28 < 357)
theorem Laws.Row.pwrOkFall : Laws.Row.Statement .pwrOkFall := (by decide : 29 < 357)
theorem Laws.Row.railUndervoltage : Laws.Row.Statement .railUndervoltage := (by decide : 30 < 357)
theorem Laws.Row.powerGood : Laws.Row.Statement .powerGood := (by decide : 31 < 357)
theorem Laws.Row.fuseLoad (eccOk : Bool) (strap1 strap0 : Fin 3) (testMode : Bool) : Laws.Row.Statement (.fuseLoad eccOk strap1 strap0 testMode) := (by decide : 32 < 357)
theorem Laws.Row.romCheck (digestOk : Bool) : Laws.Row.Statement (.romCheck digestOk) := (by decide : 33 < 357)
theorem Laws.Row.bootDir (probe : FlashProbe) : Laws.Row.Statement (.bootDir probe) := (by decide : 34 < 357)
theorem Laws.Row.gkVerify : Laws.Row.Statement .gkVerify := (by decide : 35 < 357)
theorem Laws.Row.gkRun : Laws.Row.Statement .gkRun := (by decide : 36 < 357)
theorem Laws.Row.pcieTrainingStart : Laws.Row.Statement .pcieTrainingStart := (by decide : 37 < 357)
theorem Laws.Row.memTrain (result : Training) : Laws.Row.Statement (.memTrain result) := (by decide : 38 < 357)
theorem Laws.Row.memRestore (identity : List Byte) (ranks capGib : Nat) (readBack : Bool) : Laws.Row.Statement (.memRestore identity ranks capGib readBack) := (by decide : 39 < 357)
theorem Laws.Row.imagesVerify (copiesOk : Bool) : Laws.Row.Statement (.imagesVerify copiesOk) := (by decide : 40 < 357)
theorem Laws.Row.calLoad : Laws.Row.Statement .calLoad := (by decide : 41 < 357)
theorem Laws.Row.planVerify (shadowOk : Bool) : Laws.Row.Statement (.planVerify shadowOk) := (by decide : 42 < 357)
theorem Laws.Row.planApply : Laws.Row.Statement .planApply := (by decide : 43 < 357)
theorem Laws.Row.nandReplay : Laws.Row.Statement .nandReplay := (by decide : 44 < 357)
theorem Laws.Row.linksUp : Laws.Row.Statement .linksUp := (by decide : 45 < 357)
theorem Laws.Row.ready : Laws.Row.Statement .ready := (by decide : 46 < 357)
theorem Laws.Row.startTimerExpiry : Laws.Row.Statement .startTimerExpiry := (by decide : 47 < 357)
theorem Laws.Row.dramClearDone : Laws.Row.Statement .dramClearDone := (by decide : 48 < 357)
theorem Laws.Row.writeSlot (w : Writer) (key : BitVec 16) (slot : BitVec 1) (image : BitVec 2) : Laws.Row.Statement (.writeSlot w key slot image) := (by decide : 49 < 357)
theorem Laws.Row.verifySlot (w : Writer) (key : BitVec 16) (slot : BitVec 1) : Laws.Row.Statement (.verifySlot w key slot) := (by decide : 50 < 357)
theorem Laws.Row.setPreferred (w : Writer) (key : BitVec 16) (slot : BitVec 1) : Laws.Row.Statement (.setPreferred w key slot) := (by decide : 51 < 357)
theorem Laws.Row.clearAttempts (w : Writer) (key : BitVec 16) : Laws.Row.Statement (.clearAttempts w key) := (by decide : 52 < 357)
theorem Laws.Row.bootBurnFloor (w : Writer) (key : BitVec 16) : Laws.Row.Statement (.bootBurnFloor w key) := (by decide : 53 < 357)
theorem Laws.Row.restartCold (w : Writer) (key : BitVec 16) : Laws.Row.Statement (.restartCold w key) := (by decide : 54 < 357)
theorem Laws.Row.pwrRequest (w : Writer) (key : BitVec 16) (target : BitVec 3) (drain : BitVec 1) : Laws.Row.Statement (.pwrRequest w key target drain) := (by decide : 55 < 357)
theorem Laws.Row.softwareShadeExit (w : Writer) (key : BitVec 16) : Laws.Row.Statement (.softwareShadeExit w key) := (by decide : 56 < 357)
theorem Laws.Row.processorWait (proc : Fin 4) (mode : BitVec 3) : Laws.Row.Statement (.processorWait proc mode) := (by decide : 57 < 357)
theorem Laws.Row.sequenceDone : Laws.Row.Statement .sequenceDone := (by decide : 58 < 357)
theorem Laws.Row.settleHalfTimeout : Laws.Row.Statement .settleHalfTimeout := (by decide : 59 < 357)
theorem Laws.Row.settleTimeout : Laws.Row.Statement .settleTimeout := (by decide : 60 < 357)
theorem Laws.Row.linkWaitTimeout : Laws.Row.Statement .linkWaitTimeout := (by decide : 61 < 357)
theorem Laws.Row.wakeNFall : Laws.Row.Statement .wakeNFall := (by decide : 62 < 357)
theorem Laws.Row.rtcAlarm : Laws.Row.Statement .rtcAlarm := (by decide : 63 < 357)
theorem Laws.Row.pwrTimerExpiry : Laws.Row.Statement .pwrTimerExpiry := (by decide : 64 < 357)
theorem Laws.Row.pcieWake : Laws.Row.Statement .pcieWake := (by decide : 65 < 357)
theorem Laws.Row.shadeTlpArrival (tlp : Tlp) : Laws.Row.Statement (.shadeTlpArrival tlp) := (by decide : 66 < 357)
theorem Laws.Row.heldTlpServe : Laws.Row.Statement .heldTlpServe := (by decide : 67 < 357)
theorem Laws.Row.shadeFrameArrival (port : Fin 4) (frame : List Byte) : Laws.Row.Statement (.shadeFrameArrival port frame) := (by decide : 68 < 357)
theorem Laws.Row.sensorSample (raw : List (Option Int)) (rails : List Int) : Laws.Row.Statement (.sensorSample raw rails) := (by decide : 69 < 357)
theorem Laws.Row.softDwellExpiry (throttle : Bool) : Laws.Row.Statement (.softDwellExpiry throttle) := (by decide : 70 < 357)
theorem Laws.Row.hwThrottle : Laws.Row.Statement .hwThrottle := (by decide : 71 < 357)
theorem Laws.Row.hwThrottleRelease : Laws.Row.Statement .hwThrottleRelease := (by decide : 72 < 357)
theorem Laws.Row.hwTrip : Laws.Row.Statement .hwTrip := (by decide : 73 < 357)
theorem Laws.Row.tripWakeRelease : Laws.Row.Statement .tripWakeRelease := (by decide : 74 < 357)
theorem Laws.Row.powerCapStep (mw : Nat) : Laws.Row.Statement (.powerCapStep mw) := (by decide : 75 < 357)
theorem Laws.Row.currentLimitSample (mw : Nat) : Laws.Row.Statement (.currentLimitSample mw) := (by decide : 76 < 357)
theorem Laws.Row.sustainedPowerExpiry : Laws.Row.Statement .sustainedPowerExpiry := (by decide : 77 < 357)
theorem Laws.Row.limitRatioRaise : Laws.Row.Statement .limitRatioRaise := (by decide : 78 < 357)
theorem Laws.Row.overvolt : Laws.Row.Statement .overvolt := (by decide : 79 < 357)
theorem Laws.Row.undervolt : Laws.Row.Statement .undervolt := (by decide : 80 < 357)
theorem Laws.Row.undervoltRelease : Laws.Row.Statement .undervoltRelease := (by decide : 81 < 357)
theorem Laws.Row.crystalLoss : Laws.Row.Statement .crystalLoss := (by decide : 82 < 357)
theorem Laws.Row.refclkLoss (eth inL12 : Bool) : Laws.Row.Statement (.refclkLoss eth inL12) := (by decide : 83 < 357)
theorem Laws.Row.calRead (w : Writer) (key : BitVec 16) : Laws.Row.Statement (.calRead w key) := (by decide : 84 < 357)
theorem Laws.Row.calWrite (w : Writer) (key : BitVec 16) : Laws.Row.Statement (.calWrite w key) := (by decide : 85 < 357)
theorem Laws.Row.calReload (w : Writer) (key : BitVec 16) : Laws.Row.Statement (.calReload w key) := (by decide : 86 < 357)
theorem Laws.Row.calMeasure (w : Writer) (key : BitVec 16) (arg : BitVec 1) (mic : BitVec 3) (readings : List Int) : Laws.Row.Statement (.calMeasure w key arg mic readings) := (by decide : 87 < 357)
theorem Laws.Row.watchdogRestart (proc : Fin 4) : Laws.Row.Statement (.watchdogRestart proc) := (by decide : 88 < 357)
theorem Laws.Row.watchdogExpiry (proc : Fin 4) : Laws.Row.Statement (.watchdogExpiry proc) := (by decide : 89 < 357)
theorem Laws.Row.firmwareException (proc : Fin 4) : Laws.Row.Statement (.firmwareException proc) := (by decide : 90 < 357)
theorem Laws.Row.processorReload (proc : Fin 4) (readOk : Bool) : Laws.Row.Statement (.processorReload proc readOk) := (by decide : 91 < 357)
theorem Laws.Row.romPortFlashTimeout (proc : Fin 4) : Laws.Row.Statement (.romPortFlashTimeout proc) := (by decide : 92 < 357)
theorem Laws.Row.hotSwap (w : Writer) (key : BitVec 16) (proc : BitVec 2) : Laws.Row.Statement (.hotSwap w key proc) := (by decide : 93 < 357)
theorem Laws.Row.hotSwapSettleTimeout : Laws.Row.Statement .hotSwapSettleTimeout := (by decide : 94 < 357)
theorem Laws.Row.firmwareReload (w : Writer) (key : BitVec 16) (proc : BitVec 2) : Laws.Row.Statement (.firmwareReload w key proc) := (by decide : 95 < 357)
theorem Laws.Row.leaseRequest (lease : Fin 5) (island : Fin 72) (epoch : BitVec 8) (recovery : Bool) : Laws.Row.Statement (.leaseRequest lease island epoch recovery) := (by decide : 96 < 357)
theorem Laws.Row.leaseRenew (lease : Fin 5) (island : Fin 72) (epoch : BitVec 8) : Laws.Row.Statement (.leaseRenew lease island epoch) := (by decide : 97 < 357)
theorem Laws.Row.leaseRelease (lease : Fin 5) (island : Fin 72) (epoch : BitVec 8) : Laws.Row.Statement (.leaseRelease lease island epoch) := (by decide : 98 < 357)
theorem Laws.Row.nandSafePointDone : Laws.Row.Statement .nandSafePointDone := (by decide : 99 < 357)
theorem Laws.Row.leaseRevocation (lease : Fin 5) : Laws.Row.Statement (.leaseRevocation lease) := (by decide : 100 < 357)
theorem Laws.Row.leaseTimerExpiry (lease : Fin 5) : Laws.Row.Statement (.leaseTimerExpiry lease) := (by decide : 101 < 357)
theorem Laws.Row.keymbLoad (w : Writer) (key : BitVec 16) (slot : BitVec 4) : Laws.Row.Statement (.keymbLoad w key slot) := (by decide : 102 < 357)
theorem Laws.Row.keymbClear (w : Writer) (key : BitVec 16) (slot : BitVec 4) : Laws.Row.Statement (.keymbClear w key slot) := (by decide : 103 < 357)
theorem Laws.Row.keymbClearAll (w : Writer) (key : BitVec 16) : Laws.Row.Statement (.keymbClearAll w key) := (by decide : 104 < 357)
theorem Laws.Row.sqDoorbell (fn : Fin 8) (ring : Fin 64) (tail : BitVec 16) : Laws.Row.Statement (.sqDoorbell fn ring tail) := (by decide : 105 < 357)
theorem Laws.Row.cqDoorbell (fn : Fin 8) (ring : Fin 64) (head : BitVec 16) : Laws.Row.Statement (.cqDoorbell fn ring head) := (by decide : 106 < 357)
theorem Laws.Row.ringEnable (fn : Fin 8) (cq : Bool) (ring : Fin 64) : Laws.Row.Statement (.ringEnable fn cq ring) := (by decide : 107 < 357)
theorem Laws.Row.ringDisable (fn : Fin 8) (cq : Bool) (ring : Fin 64) : Laws.Row.Statement (.ringDisable fn cq ring) := (by decide : 108 < 357)
theorem Laws.Row.entryFetch (ring : Fin 64) : Laws.Row.Statement (.entryFetch ring) := (by decide : 109 < 357)
theorem Laws.Row.nop (uid : Nat) : Laws.Row.Statement (.nop uid) := (by decide : 110 < 357)
theorem Laws.Row.hose (uid : Nat) : Laws.Row.Statement (.hose uid) := (by decide : 111 < 357)
theorem Laws.Row.resume (uid : Nat) : Laws.Row.Statement (.resume uid) := (by decide : 112 < 357)
theorem Laws.Row.cqCoalesceTimer (ring : Fin 64) : Laws.Row.Statement (.cqCoalesceTimer ring) := (by decide : 113 < 357)
theorem Laws.Row.msixUnmask (fn : Fin 8) (vector : Fin 64) (addr : DWord) (data : Word) (mask : Bool) : Laws.Row.Statement (.msixUnmask fn vector addr data mask) := (by decide : 114 < 357)
theorem Laws.Row.heartbeatBeat (fn : Fin 8) : Laws.Row.Statement (.heartbeatBeat fn) := (by decide : 115 < 357)
theorem Laws.Row.heartbeatLapse : Laws.Row.Statement .heartbeatLapse := (by decide : 116 < 357)
theorem Laws.Row.grant (w : Writer) (key : BitVec 16) : Laws.Row.Statement (.grant w key) := (by decide : 117 < 357)
theorem Laws.Row.reclaim (w : Writer) (key : BitVec 16) : Laws.Row.Statement (.reclaim w key) := (by decide : 118 < 357)
theorem Laws.Row.functionReset (fn : Fin 8) (cause : FnReset) : Laws.Row.Statement (.functionReset fn cause) := (by decide : 119 < 357)
theorem Laws.Row.d3hotEntry (fn : Fin 8) : Laws.Row.Statement (.d3hotEntry fn) := (by decide : 120 < 357)
theorem Laws.Row.busMasterEnable (fn : Fin 8) (value : Bool) : Laws.Row.Statement (.busMasterEnable fn value) := (by decide : 121 < 357)
theorem Laws.Row.pcieLinkDown : Laws.Row.Statement .pcieLinkDown := (by decide : 122 < 357)
theorem Laws.Row.pcieLinkUp (speed : BitVec 4) (width : BitVec 6) : Laws.Row.Statement (.pcieLinkUp speed width) := (by decide : 123 < 357)
theorem Laws.Row.fnWrite (w : Writer) (fn : Fin 8) (base : BitVec 6) (count : BitVec 7) : Laws.Row.Statement (.fnWrite w fn base count) := (by decide : 124 < 357)
theorem Laws.Row.ringOwnerWrite (w : Writer) (ring : Fin 64) (sqFn cqFn : Fin 8) : Laws.Row.Statement (.ringOwnerWrite w ring sqFn cqFn) := (by decide : 125 < 357)
theorem Laws.Row.bar4Access (off : BitVec 34) (len : Nat) (data : Option (List Byte)) : Laws.Row.Statement (.bar4Access off len data) := (by decide : 126 < 357)
theorem Laws.Row.smbusPacket (bytes : List Byte) : Laws.Row.Statement (.smbusPacket bytes) := (by decide : 127 < 357)
theorem Laws.Row.mctpReassemblyTimeout (who : Requester) : Laws.Row.Statement (.mctpReassemblyTimeout who) := (by decide : 128 < 357)
theorem Laws.Row.setEndpointId (who : Requester) (inst : Byte) (body : List Byte) : Laws.Row.Statement (.setEndpointId who inst body) := (by decide : 129 < 357)
theorem Laws.Row.getEndpointId (who : Requester) (inst : Byte) (body : List Byte) : Laws.Row.Statement (.getEndpointId who inst body) := (by decide : 130 < 357)
theorem Laws.Row.getEndpointUuid (who : Requester) (inst : Byte) (body : List Byte) : Laws.Row.Statement (.getEndpointUuid who inst body) := (by decide : 131 < 357)
theorem Laws.Row.getMctpVersionSupport (who : Requester) (inst : Byte) (body : List Byte) : Laws.Row.Statement (.getMctpVersionSupport who inst body) := (by decide : 132 < 357)
theorem Laws.Row.getMessageTypeSupport (who : Requester) (inst : Byte) (body : List Byte) : Laws.Row.Statement (.getMessageTypeSupport who inst body) := (by decide : 133 < 357)
theorem Laws.Row.getVendorDefinedMessageSupport (who : Requester) (inst : Byte) (body : List Byte) : Laws.Row.Statement (.getVendorDefinedMessageSupport who inst body) := (by decide : 134 < 357)
theorem Laws.Row.setTid (who : Requester) (inst : Byte) (body : List Byte) : Laws.Row.Statement (.setTid who inst body) := (by decide : 135 < 357)
theorem Laws.Row.getTid (who : Requester) (inst : Byte) (body : List Byte) : Laws.Row.Statement (.getTid who inst body) := (by decide : 136 < 357)
theorem Laws.Row.getPldmVersion (who : Requester) (inst : Byte) (body : List Byte) : Laws.Row.Statement (.getPldmVersion who inst body) := (by decide : 137 < 357)
theorem Laws.Row.getPldmTypes (who : Requester) (inst : Byte) (body : List Byte) : Laws.Row.Statement (.getPldmTypes who inst body) := (by decide : 138 < 357)
theorem Laws.Row.getPldmCommands (who : Requester) (inst : Byte) (body : List Byte) : Laws.Row.Statement (.getPldmCommands who inst body) := (by decide : 139 < 357)
theorem Laws.Row.getSensorReading (who : Requester) (inst : Byte) (body : List Byte) : Laws.Row.Statement (.getSensorReading who inst body) := (by decide : 140 < 357)
theorem Laws.Row.getStateSensorReadings (who : Requester) (inst : Byte) (body : List Byte) : Laws.Row.Statement (.getStateSensorReadings who inst body) := (by decide : 141 < 357)
theorem Laws.Row.getPdrRepositoryInfo (who : Requester) (inst : Byte) (body : List Byte) : Laws.Row.Statement (.getPdrRepositoryInfo who inst body) := (by decide : 142 < 357)
theorem Laws.Row.getPdr (who : Requester) (inst : Byte) (body : List Byte) : Laws.Row.Statement (.getPdr who inst body) := (by decide : 143 < 357)
theorem Laws.Row.getStatus (who : Requester) (flags : Word) (body : List Byte) : Laws.Row.Statement (.getStatus who flags body) := (by decide : 144 < 357)
theorem Laws.Row.getBootFail (who : Requester) (flags : Word) (body : List Byte) : Laws.Row.Statement (.getBootFail who flags body) := (by decide : 145 < 357)
theorem Laws.Row.readReg (who : Requester) (flags : Word) (body : List Byte) : Laws.Row.Statement (.readReg who flags body) := (by decide : 146 < 357)
theorem Laws.Row.writeReg (who : Requester) (flags : Word) (body : List Byte) : Laws.Row.Statement (.writeReg who flags body) := (by decide : 147 < 357)
theorem Laws.Row.stageWrite (who : Requester) (flags : Word) (body : List Byte) : Laws.Row.Statement (.stageWrite who flags body) := (by decide : 148 < 357)
theorem Laws.Row.tokenQuery (who : Requester) (flags : Word) (body : List Byte) : Laws.Row.Statement (.tokenQuery who flags body) := (by decide : 149 < 357)
theorem Laws.Row.tokenYield (who : Requester) (flags : Word) (body : List Byte) : Laws.Row.Statement (.tokenYield who flags body) := (by decide : 150 < 357)
theorem Laws.Row.wake (who : Requester) (flags : Word) (body : List Byte) : Laws.Row.Statement (.wake who flags body) := (by decide : 151 < 357)
theorem Laws.Row.arbitrationRetry : Laws.Row.Statement .arbitrationRetry := (by decide : 152 < 357)
theorem Laws.Row.alertResponse : Laws.Row.Statement .alertResponse := (by decide : 153 < 357)
theorem Laws.Row.addressMatch : Laws.Row.Statement .addressMatch := (by decide : 154 < 357)
theorem Laws.Row.shedAccess (src : Fin 72) (channel : BitVec 4) (pa : BitVec 40) (keySel : BitVec 4) (noAlloc : Bool) (len : Nat) (data : Option (List Byte)) : Laws.Row.Statement (.shedAccess src channel pa keySel noAlloc len data) := (by decide : 155 < 357)
theorem Laws.Row.shedFillDone (pa : BitVec 40) (corrected uncorrectable : Bool) : Laws.Row.Statement (.shedFillDone pa corrected uncorrectable) := (by decide : 156 < 357)
theorem Laws.Row.eccScrub (corrected uncorrectable : List Nat) : Laws.Row.Statement (.eccScrub corrected uncorrectable) := (by decide : 157 < 357)
theorem Laws.Row.qosWindow (channel : Fin 2) : Laws.Row.Statement (.qosWindow channel) := (by decide : 158 < 357)
theorem Laws.Row.refreshRateChange (channel : Fin 2) (doubled : Bool) : Laws.Row.Statement (.refreshRateChange channel doubled) := (by decide : 159 < 357)
theorem Laws.Row.shedFill (w : Writer) (key : BitVec 16) (slice : Fin 4) (entry : BitVec 4) : Laws.Row.Statement (.shedFill w key slice entry) := (by decide : 160 < 357)
theorem Laws.Row.shedWriteback (w : Writer) (key : BitVec 16) (slice : Fin 4) (entry : BitVec 4) : Laws.Row.Statement (.shedWriteback w key slice entry) := (by decide : 161 < 357)
theorem Laws.Row.shedFlush (w : Writer) (key : BitVec 16) : Laws.Row.Statement (.shedFlush w key) := (by decide : 162 < 357)
theorem Laws.Row.translationWalk (island : Fin 72) (allot : Fin 64) (va : DWord) (access : Access) (stream : Stream) : Laws.Row.Statement (.translationWalk island allot va access stream) := (by decide : 163 < 357)
theorem Laws.Row.batchTimeout (fn : Fin 8) : Laws.Row.Statement (.batchTimeout fn) := (by decide : 164 < 357)
theorem Laws.Row.batchWrite (fn : Fin 8) : Laws.Row.Statement (.batchWrite fn) := (by decide : 165 < 357)
theorem Laws.Row.faultTimeout (stream : Stream) : Laws.Row.Statement (.faultTimeout stream) := (by decide : 166 < 357)
theorem Laws.Row.invalAll (fn : Fin 8) (key : BitVec 16) : Laws.Row.Statement (.invalAll fn key) := (by decide : 167 < 357)
theorem Laws.Row.invalAllot (fn : Fin 8) (key : BitVec 16) (allot : Fin 64) : Laws.Row.Statement (.invalAllot fn key allot) := (by decide : 168 < 357)
theorem Laws.Row.invalRange (fn : Fin 8) (key : BitVec 16) (allot : Fin 64) : Laws.Row.Statement (.invalRange fn key allot) := (by decide : 169 < 357)
theorem Laws.Row.invalidationDone : Laws.Row.Statement .invalidationDone := (by decide : 170 < 357)
theorem Laws.Row.faultRingEnable (fn ring : Fin 8) : Laws.Row.Statement (.faultRingEnable fn ring) := (by decide : 171 < 357)
theorem Laws.Row.slabCredit (engine : Fin 2) (channel : Fin 16) : Laws.Row.Statement (.slabCredit engine channel) := (by decide : 172 < 357)
theorem Laws.Row.releaseAdd (w : Writer) (engine : Fin 2) (channel : Fin 16) (add : BitVec 16) : Laws.Row.Statement (.releaseAdd w engine channel add) := (by decide : 173 < 357)
theorem Laws.Row.hoseCfgWrite (w : Writer) (engine : Fin 2) (channel : Fin 16) (value : Word) : Laws.Row.Statement (.hoseCfgWrite w engine channel value) := (by decide : 174 < 357)
theorem Laws.Row.bedNop (bed slot : Fin 48) : Laws.Row.Statement (.bedNop bed slot) := (by decide : 175 < 357)
theorem Laws.Row.endWave (bed slot : Fin 48) : Laws.Row.Statement (.endWave bed slot) := (by decide : 176 < 357)
theorem Laws.Row.br (bed slot : Fin 48) : Laws.Row.Statement (.br bed slot) := (by decide : 177 < 357)
theorem Laws.Row.brp (bed slot : Fin 48) : Laws.Row.Statement (.brp bed slot) := (by decide : 178 < 357)
theorem Laws.Row.call (bed slot : Fin 48) : Laws.Row.Statement (.call bed slot) := (by decide : 179 < 357)
theorem Laws.Row.ret (bed slot : Fin 48) : Laws.Row.Statement (.ret bed slot) := (by decide : 180 < 357)
theorem Laws.Row.brk (bed slot : Fin 48) : Laws.Row.Statement (.brk bed slot) := (by decide : 181 < 357)
theorem Laws.Row.sleep (bed slot : Fin 48) : Laws.Row.Statement (.sleep bed slot) := (by decide : 182 < 357)
theorem Laws.Row.sleepExpiry (bed slot : Fin 48) : Laws.Row.Statement (.sleepExpiry bed slot) := (by decide : 183 < 357)
theorem Laws.Row.execp (bed slot : Fin 48) : Laws.Row.Statement (.execp bed slot) := (by decide : 184 < 357)
theorem Laws.Row.mov (bed slot : Fin 48) : Laws.Row.Statement (.mov bed slot) := (by decide : 185 < 357)
theorem Laws.Row.add (bed slot : Fin 48) : Laws.Row.Statement (.add bed slot) := (by decide : 186 < 357)
theorem Laws.Row.sub (bed slot : Fin 48) : Laws.Row.Statement (.sub bed slot) := (by decide : 187 < 357)
theorem Laws.Row.mul (bed slot : Fin 48) : Laws.Row.Statement (.mul bed slot) := (by decide : 188 < 357)
theorem Laws.Row.fma (bed slot : Fin 48) : Laws.Row.Statement (.fma bed slot) := (by decide : 189 < 357)
theorem Laws.Row.mad (bed slot : Fin 48) : Laws.Row.Statement (.mad bed slot) := (by decide : 190 < 357)
theorem Laws.Row.mulhi (bed slot : Fin 48) : Laws.Row.Statement (.mulhi bed slot) := (by decide : 191 < 357)
theorem Laws.Row.min (bed slot : Fin 48) : Laws.Row.Statement (.min bed slot) := (by decide : 192 < 357)
theorem Laws.Row.max (bed slot : Fin 48) : Laws.Row.Statement (.max bed slot) := (by decide : 193 < 357)
theorem Laws.Row.and (bed slot : Fin 48) : Laws.Row.Statement (.and bed slot) := (by decide : 194 < 357)
theorem Laws.Row.or (bed slot : Fin 48) : Laws.Row.Statement (.or bed slot) := (by decide : 195 < 357)
theorem Laws.Row.xor (bed slot : Fin 48) : Laws.Row.Statement (.xor bed slot) := (by decide : 196 < 357)
theorem Laws.Row.not (bed slot : Fin 48) : Laws.Row.Statement (.not bed slot) := (by decide : 197 < 357)
theorem Laws.Row.shl (bed slot : Fin 48) : Laws.Row.Statement (.shl bed slot) := (by decide : 198 < 357)
theorem Laws.Row.shr (bed slot : Fin 48) : Laws.Row.Statement (.shr bed slot) := (by decide : 199 < 357)
theorem Laws.Row.sar (bed slot : Fin 48) : Laws.Row.Statement (.sar bed slot) := (by decide : 200 < 357)
theorem Laws.Row.sel (bed slot : Fin 48) : Laws.Row.Statement (.sel bed slot) := (by decide : 201 < 357)
theorem Laws.Row.clamp (bed slot : Fin 48) : Laws.Row.Statement (.clamp bed slot) := (by decide : 202 < 357)
theorem Laws.Row.floor (bed slot : Fin 48) : Laws.Row.Statement (.floor bed slot) := (by decide : 203 < 357)
theorem Laws.Row.ceil (bed slot : Fin 48) : Laws.Row.Statement (.ceil bed slot) := (by decide : 204 < 357)
theorem Laws.Row.rndne (bed slot : Fin 48) : Laws.Row.Statement (.rndne bed slot) := (by decide : 205 < 357)
theorem Laws.Row.fract (bed slot : Fin 48) : Laws.Row.Statement (.fract bed slot) := (by decide : 206 < 357)
theorem Laws.Row.rcp (bed slot : Fin 48) : Laws.Row.Statement (.rcp bed slot) := (by decide : 207 < 357)
theorem Laws.Row.rsq (bed slot : Fin 48) : Laws.Row.Statement (.rsq bed slot) := (by decide : 208 < 357)
theorem Laws.Row.sqrt (bed slot : Fin 48) : Laws.Row.Statement (.sqrt bed slot) := (by decide : 209 < 357)
theorem Laws.Row.exp2 (bed slot : Fin 48) : Laws.Row.Statement (.exp2 bed slot) := (by decide : 210 < 357)
theorem Laws.Row.log2 (bed slot : Fin 48) : Laws.Row.Statement (.log2 bed slot) := (by decide : 211 < 357)
theorem Laws.Row.sin (bed slot : Fin 48) : Laws.Row.Statement (.sin bed slot) := (by decide : 212 < 357)
theorem Laws.Row.cos (bed slot : Fin 48) : Laws.Row.Statement (.cos bed slot) := (by decide : 213 < 357)
theorem Laws.Row.dot4 (bed slot : Fin 48) : Laws.Row.Statement (.dot4 bed slot) := (by decide : 214 < 357)
theorem Laws.Row.dot2 (bed slot : Fin 48) : Laws.Row.Statement (.dot2 bed slot) := (by decide : 215 < 357)
theorem Laws.Row.popc (bed slot : Fin 48) : Laws.Row.Statement (.popc bed slot) := (by decide : 216 < 357)
theorem Laws.Row.clz (bed slot : Fin 48) : Laws.Row.Statement (.clz bed slot) := (by decide : 217 < 357)
theorem Laws.Row.bfe (bed slot : Fin 48) : Laws.Row.Statement (.bfe bed slot) := (by decide : 218 < 357)
theorem Laws.Row.bfi (bed slot : Fin 48) : Laws.Row.Statement (.bfi bed slot) := (by decide : 219 < 357)
theorem Laws.Row.eq (bed slot : Fin 48) : Laws.Row.Statement (.eq bed slot) := (by decide : 220 < 357)
theorem Laws.Row.ne (bed slot : Fin 48) : Laws.Row.Statement (.ne bed slot) := (by decide : 221 < 357)
theorem Laws.Row.lt (bed slot : Fin 48) : Laws.Row.Statement (.lt bed slot) := (by decide : 222 < 357)
theorem Laws.Row.le (bed slot : Fin 48) : Laws.Row.Statement (.le bed slot) := (by decide : 223 < 357)
theorem Laws.Row.gt (bed slot : Fin 48) : Laws.Row.Statement (.gt bed slot) := (by decide : 224 < 357)
theorem Laws.Row.ge (bed slot : Fin 48) : Laws.Row.Statement (.ge bed slot) := (by decide : 225 < 357)
theorem Laws.Row.ord (bed slot : Fin 48) : Laws.Row.Statement (.ord bed slot) := (by decide : 226 < 357)
theorem Laws.Row.unord (bed slot : Fin 48) : Laws.Row.Statement (.unord bed slot) := (by decide : 227 < 357)
theorem Laws.Row.test (bed slot : Fin 48) : Laws.Row.Statement (.test bed slot) := (by decide : 228 < 357)
theorem Laws.Row.pand (bed slot : Fin 48) : Laws.Row.Statement (.pand bed slot) := (by decide : 229 < 357)
theorem Laws.Row.por (bed slot : Fin 48) : Laws.Row.Statement (.por bed slot) := (by decide : 230 < 357)
theorem Laws.Row.pxor (bed slot : Fin 48) : Laws.Row.Statement (.pxor bed slot) := (by decide : 231 < 357)
theorem Laws.Row.pnot (bed slot : Fin 48) : Laws.Row.Statement (.pnot bed slot) := (by decide : 232 < 357)
theorem Laws.Row.cvt (bed slot : Fin 48) : Laws.Row.Statement (.cvt bed slot) := (by decide : 233 < 357)
theorem Laws.Row.ldb (bed slot : Fin 48) : Laws.Row.Statement (.ldb bed slot) := (by decide : 234 < 357)
theorem Laws.Row.stb (bed slot : Fin 48) : Laws.Row.Statement (.stb bed slot) := (by decide : 235 < 357)
theorem Laws.Row.atomb (bed slot : Fin 48) : Laws.Row.Statement (.atomb bed slot) := (by decide : 236 < 357)
theorem Laws.Row.ldg (bed slot : Fin 48) : Laws.Row.Statement (.ldg bed slot) := (by decide : 237 < 357)
theorem Laws.Row.stg (bed slot : Fin 48) : Laws.Row.Statement (.stg bed slot) := (by decide : 238 < 357)
theorem Laws.Row.atomg (bed slot : Fin 48) : Laws.Row.Statement (.atomg bed slot) := (by decide : 239 < 357)
theorem Laws.Row.prefetch (bed slot : Fin 48) : Laws.Row.Statement (.prefetch bed slot) := (by decide : 240 < 357)
theorem Laws.Row.sample (bed slot : Fin 48) : Laws.Row.Statement (.sample bed slot) := (by decide : 241 < 357)
theorem Laws.Row.gather4 (bed slot : Fin 48) : Laws.Row.Statement (.gather4 bed slot) := (by decide : 242 < 357)
theorem Laws.Row.loadtex (bed slot : Fin 48) : Laws.Row.Statement (.loadtex bed slot) := (by decide : 243 < 357)
theorem Laws.Row.loadDataArrival (bed : Fin 48) (index : Nat) : Laws.Row.Statement (.loadDataArrival bed index) := (by decide : 244 < 357)
theorem Laws.Row.bar (bed slot : Fin 48) : Laws.Row.Statement (.bar bed slot) := (by decide : 245 < 357)
theorem Laws.Row.fence (bed slot : Fin 48) : Laws.Row.Statement (.fence bed slot) := (by decide : 246 < 357)
theorem Laws.Row.semWait (bed slot : Fin 48) : Laws.Row.Statement (.semWait bed slot) := (by decide : 247 < 357)
theorem Laws.Row.semTake (bed slot : Fin 48) : Laws.Row.Statement (.semTake bed slot) := (by decide : 248 < 357)
theorem Laws.Row.semAdd (bed slot : Fin 48) : Laws.Row.Statement (.semAdd bed slot) := (by decide : 249 < 357)
theorem Laws.Row.semSet (bed slot : Fin 48) : Laws.Row.Statement (.semSet bed slot) := (by decide : 250 < 357)
theorem Laws.Row.hrelease (bed slot : Fin 48) : Laws.Row.Statement (.hrelease bed slot) := (by decide : 251 < 357)
theorem Laws.Row.semaphoreUpdate (bed : Fin 48) : Laws.Row.Statement (.semaphoreUpdate bed) := (by decide : 252 < 357)
theorem Laws.Row.waitTimeout (bed slot : Fin 48) : Laws.Row.Statement (.waitTimeout bed slot) := (by decide : 253 < 357)
theorem Laws.Row.tmma (bed slot : Fin 48) : Laws.Row.Statement (.tmma bed slot) := (by decide : 254 < 357)
theorem Laws.Row.tsparse (bed slot : Fin 48) : Laws.Row.Statement (.tsparse bed slot) := (by decide : 255 < 357)
theorem Laws.Row.taccStore (bed slot : Fin 48) : Laws.Row.Statement (.taccStore bed slot) := (by decide : 256 < 357)
theorem Laws.Row.taccRead (bed slot : Fin 48) : Laws.Row.Statement (.taccRead bed slot) := (by decide : 257 < 357)
theorem Laws.Row.taccWrite (bed slot : Fin 48) : Laws.Row.Statement (.taccWrite bed slot) := (by decide : 258 < 357)
theorem Laws.Row.twait (bed slot : Fin 48) : Laws.Row.Statement (.twait bed slot) := (by decide : 259 < 357)
theorem Laws.Row.tensorEntryDone (bed : Fin 48) : Laws.Row.Statement (.tensorEntryDone bed) := (by decide : 260 < 357)
theorem Laws.Row.shfl (bed slot : Fin 48) : Laws.Row.Statement (.shfl bed slot) := (by decide : 261 < 357)
theorem Laws.Row.shflx (bed slot : Fin 48) : Laws.Row.Statement (.shflx bed slot) := (by decide : 262 < 357)
theorem Laws.Row.readlane (bed slot : Fin 48) : Laws.Row.Statement (.readlane bed slot) := (by decide : 263 < 357)
theorem Laws.Row.writelane (bed slot : Fin 48) : Laws.Row.Statement (.writelane bed slot) := (by decide : 264 < 357)
theorem Laws.Row.radd (bed slot : Fin 48) : Laws.Row.Statement (.radd bed slot) := (by decide : 265 < 357)
theorem Laws.Row.rmin (bed slot : Fin 48) : Laws.Row.Statement (.rmin bed slot) := (by decide : 266 < 357)
theorem Laws.Row.rmax (bed slot : Fin 48) : Laws.Row.Statement (.rmax bed slot) := (by decide : 267 < 357)
theorem Laws.Row.ballot (bed slot : Fin 48) : Laws.Row.Statement (.ballot bed slot) := (by decide : 268 < 357)
theorem Laws.Row.scan (bed slot : Fin 48) : Laws.Row.Statement (.scan bed slot) := (by decide : 269 < 357)
theorem Laws.Row.trapClear (w : Writer) (bed : Fin 48) : Laws.Row.Statement (.trapClear w bed) := (by decide : 270 < 357)
theorem Laws.Row.numxClear (w : Writer) (bed : BitVec 6) (what : BitVec 2) (all : Bool) : Laws.Row.Statement (.numxClear w bed what all) := (by decide : 271 < 357)
theorem Laws.Row.gemm (uid : Nat) : Laws.Row.Statement (.gemm uid) := (by decide : 272 < 357)
theorem Laws.Row.conv (uid : Nat) : Laws.Row.Statement (.conv uid) := (by decide : 273 < 357)
theorem Laws.Row.dwconv (uid : Nat) : Laws.Row.Statement (.dwconv uid) := (by decide : 274 < 357)
theorem Laws.Row.pool (uid : Nat) : Laws.Row.Statement (.pool uid) := (by decide : 275 < 357)
theorem Laws.Row.eltwise (uid : Nat) : Laws.Row.Statement (.eltwise uid) := (by decide : 276 < 357)
theorem Laws.Row.reduce (uid : Nat) : Laws.Row.Statement (.reduce uid) := (by decide : 277 < 357)
theorem Laws.Row.gather (uid : Nat) : Laws.Row.Statement (.gather uid) := (by decide : 278 < 357)
theorem Laws.Row.embedMatch (uid : Nat) : Laws.Row.Statement (.embedMatch uid) := (by decide : 279 < 357)
theorem Laws.Row.program (uid : Nat) : Laws.Row.Statement (.program uid) := (by decide : 280 < 357)
theorem Laws.Row.tileStart (bed : Fin 48) : Laws.Row.Statement (.tileStart bed) := (by decide : 281 < 357)
theorem Laws.Row.tileComplete (bed : Fin 48) : Laws.Row.Statement (.tileComplete bed) := (by decide : 282 < 357)
theorem Laws.Row.maxTileTimeExpiry (bed : Fin 48) : Laws.Row.Statement (.maxTileTimeExpiry bed) := (by decide : 283 < 357)
theorem Laws.Row.bedRestore (bed : Fin 48) : Laws.Row.Statement (.bedRestore bed) := (by decide : 284 < 357)
theorem Laws.Row.rakeRaster (uid : Nat) : Laws.Row.Statement (.rakeRaster uid) := (by decide : 285 < 357)
theorem Laws.Row.rakeFusion (uid : Nat) : Laws.Row.Statement (.rakeFusion uid) := (by decide : 286 < 357)
theorem Laws.Row.binningDone : Laws.Row.Statement .binningDone := (by decide : 287 < 357)
theorem Laws.Row.resolveDone (uid : Nat) : Laws.Row.Statement (.resolveDone uid) := (by decide : 288 < 357)
theorem Laws.Row.hpdRise (sink : Sink) : Laws.Row.Statement (.hpdRise sink) := (by decide : 289 < 357)
theorem Laws.Row.hpdLow : Laws.Row.Statement .hpdLow := (by decide : 290 < 357)
theorem Laws.Row.irqHpd (sink : Sink) : Laws.Row.Statement (.irqHpd sink) := (by decide : 291 < 357)
theorem Laws.Row.retrain (w : Writer) (enable : Bool) : Laws.Row.Statement (.retrain w enable) := (by decide : 292 < 357)
theorem Laws.Row.flipArm (w : Writer) (high : Word) : Laws.Row.Statement (.flipArm w high) := (by decide : 293 < 357)
theorem Laws.Row.vblankStart : Laws.Row.Statement .vblankStart := (by decide : 294 < 357)
theorem Laws.Row.auxNativeRead (w : Writer) (addr : BitVec 20) (len : BitVec 4) : Laws.Row.Statement (.auxNativeRead w addr len) := (by decide : 295 < 357)
theorem Laws.Row.auxNativeWrite (w : Writer) (addr : BitVec 20) (len : BitVec 4) : Laws.Row.Statement (.auxNativeWrite w addr len) := (by decide : 296 < 357)
theorem Laws.Row.auxI2cRead (w : Writer) (addr : BitVec 20) (len : BitVec 4) : Laws.Row.Statement (.auxI2cRead w addr len) := (by decide : 297 < 357)
theorem Laws.Row.frameReceive (port : Fin 4) (sub : Fin 4) (frame : List Byte) : Laws.Row.Statement (.frameReceive port sub frame) := (by decide : 298 < 357)
theorem Laws.Row.frameTransmit (dest : Fin 17) : Laws.Row.Statement (.frameTransmit dest) := (by decide : 299 < 357)
theorem Laws.Row.macAgeOut (vid : BitVec 12) (mac : BitVec 48) : Laws.Row.Statement (.macAgeOut vid mac) := (by decide : 300 < 357)
theorem Laws.Row.portLinkChange (port : Fin 4) (sub : Fin 4) (up : Bool) : Laws.Row.Statement (.portLinkChange port sub up) := (by decide : 301 < 357)
theorem Laws.Row.vnicRxTail (w : Writer) (tail : BitVec 16) : Laws.Row.Statement (.vnicRxTail w tail) := (by decide : 302 < 357)
theorem Laws.Row.vnicTxTail (w : Writer) (tail : BitVec 16) : Laws.Row.Statement (.vnicTxTail w tail) := (by decide : 303 < 357)
theorem Laws.Row.ptpMessage (msg : TimeMsg) : Laws.Row.Statement (.ptpMessage msg) := (by decide : 304 < 357)
theorem Laws.Row.syncTimeout : Laws.Row.Statement .syncTimeout := (by decide : 305 < 357)
theorem Laws.Row.slotStart (w : Writer) (slot : Fin 64) (cfg : Word) : Laws.Row.Statement (.slotStart w slot cfg) := (by decide : 306 < 357)
theorem Laws.Row.slotStop (w : Writer) (slot : Fin 64) (cfg : Word) : Laws.Row.Statement (.slotStop w slot cfg) := (by decide : 307 < 357)
theorem Laws.Row.slotStopDone (slot : Fin 64) : Laws.Row.Statement (.slotStopDone slot) := (by decide : 308 < 357)
theorem Laws.Row.rtpPacket : Laws.Row.Statement .rtpPacket := (by decide : 309 < 357)
theorem Laws.Row.reorderTimeout (slot : Fin 64) : Laws.Row.Statement (.reorderTimeout slot) := (by decide : 310 < 357)
theorem Laws.Row.ssrcSwitch (slot : Fin 64) : Laws.Row.Statement (.ssrcSwitch slot) := (by decide : 311 < 357)
theorem Laws.Row.srtpKeyCommit (w : Writer) (slot : Fin 64) (key7 : Word) : Laws.Row.Statement (.srtpKeyCommit w slot key7) := (by decide : 312 < 357)
theorem Laws.Row.rtcpPacket : Laws.Row.Statement .rtcpPacket := (by decide : 313 < 357)
theorem Laws.Row.feedDoorbell (w : Writer) (slot : Fin 64) (tail : BitVec 16) : Laws.Row.Statement (.feedDoorbell w slot tail) := (by decide : 314 < 357)
theorem Laws.Row.feedCopyDone (slot : Fin 64) : Laws.Row.Statement (.feedCopyDone slot) := (by decide : 315 < 357)
theorem Laws.Row.auDecoded (engine : Fin 2) (result : Decoded) : Laws.Row.Statement (.auDecoded engine result) := (by decide : 316 < 357)
theorem Laws.Row.frameReleaseAdd (w : Writer) (slot : Fin 64) (add : BitVec 16) : Laws.Row.Statement (.frameReleaseAdd w slot add) := (by decide : 317 < 357)
theorem Laws.Row.groupEnable (w : Writer) (group : Fin 8) (cfg : Word) : Laws.Row.Statement (.groupEnable w group cfg) := (by decide : 318 < 357)
theorem Laws.Row.compress (uid : Nat) : Laws.Row.Statement (.compress uid) := (by decide : 319 < 357)
theorem Laws.Row.decompress (uid : Nat) : Laws.Row.Statement (.decompress uid) := (by decide : 320 < 357)
theorem Laws.Row.furrowJobDone : Laws.Row.Statement .furrowJobDone := (by decide : 321 < 357)
theorem Laws.Row.query (uid : Nat) : Laws.Row.Statement (.query uid) := (by decide : 322 < 357)
theorem Laws.Row.create (uid : Nat) : Laws.Row.Statement (.create uid) := (by decide : 323 < 357)
theorem Laws.Row.appendMem (uid : Nat) : Laws.Row.Statement (.appendMem uid) := (by decide : 324 < 357)
theorem Laws.Row.appendPkt (uid : Nat) : Laws.Row.Statement (.appendPkt uid) := (by decide : 325 < 357)
theorem Laws.Row.sealClip (uid : Nat) : Laws.Row.Statement (.sealClip uid) := (by decide : 326 < 357)
theorem Laws.Row.evidenceRead (uid : Nat) : Laws.Row.Statement (.evidenceRead uid) := (by decide : 327 < 357)
theorem Laws.Row.delete (uid : Nat) : Laws.Row.Statement (.delete uid) := (by decide : 328 < 357)
theorem Laws.Row.volumeCreate (uid : Nat) : Laws.Row.Statement (.volumeCreate uid) := (by decide : 329 < 357)
theorem Laws.Row.volumeDelete (uid : Nat) : Laws.Row.Statement (.volumeDelete uid) := (by decide : 330 < 357)
theorem Laws.Row.format (uid : Nat) : Laws.Row.Statement (.format uid) := (by decide : 331 < 357)
theorem Laws.Row.nandProgramDone (ce : Fin 4) (ok : Bool) : Laws.Row.Statement (.nandProgramDone ce ok) := (by decide : 332 < 357)
theorem Laws.Row.nandReadDone (ce : Fin 4) (words : List CwRead) : Laws.Row.Statement (.nandReadDone ce words) := (by decide : 333 < 357)
theorem Laws.Row.nandEraseDone (ce : Fin 4) (ok : Bool) : Laws.Row.Statement (.nandEraseDone ce ok) := (by decide : 334 < 357)
theorem Laws.Row.upkeep : Laws.Row.Statement .upkeep := (by decide : 335 < 357)
theorem Laws.Row.scrubDue : Laws.Row.Statement .scrubDue := (by decide : 336 < 357)
theorem Laws.Row.acousticFrame (pcm : List (List Int)) : Laws.Row.Statement (.acousticFrame pcm) := (by decide : 337 < 357)
theorem Laws.Row.settlingEnd : Laws.Row.Statement .settlingEnd := (by decide : 338 < 357)
theorem Laws.Row.prerollRead (w : Writer) (key : BitVec 16) : Laws.Row.Statement (.prerollRead w key) := (by decide : 339 < 357)
theorem Laws.Row.prerollRelease (w : Writer) (key : BitVec 16) : Laws.Row.Statement (.prerollRelease w key) := (by decide : 340 < 357)
theorem Laws.Row.firedClear (w : Writer) : Laws.Row.Statement (.firedClear w) := (by decide : 341 < 357)
theorem Laws.Row.voltageSettled : Laws.Row.Statement .voltageSettled := (by decide : 342 < 357)
theorem Laws.Row.avsResponse (good : Bool) : Laws.Row.Statement (.avsResponse good) := (by decide : 343 < 357)
theorem Laws.Row.avsFault : Laws.Row.Statement .avsFault := (by decide : 344 < 357)
theorem Laws.Row.bypass (tdi : List Bool) : Laws.Row.Statement (.bypass tdi) := (by decide : 345 < 357)
theorem Laws.Row.samplePreload (balls : BitVec 49) (tdi : List Bool) : Laws.Row.Statement (.samplePreload balls tdi) := (by decide : 346 < 357)
theorem Laws.Row.extest (balls : BitVec 49) (tdi : List Bool) : Laws.Row.Statement (.extest balls tdi) := (by decide : 347 < 357)
theorem Laws.Row.configurationRequest (fn : Fin 8) (item : ConfigItem) (value : Option Nat) : Laws.Row.Statement (.configurationRequest fn item value) := (by decide : 348 < 357)
theorem Laws.Row.hostCompletion (id : Nat) (result : HostResult) : Laws.Row.Statement (.hostCompletion id result) := (by decide : 349 < 357)
theorem Laws.Row.completionTimeout (id : Nat) : Laws.Row.Statement (.completionTimeout id) := (by decide : 350 < 357)
theorem Laws.Row.alertNPulseEnd : Laws.Row.Statement .alertNPulseEnd := (by decide : 351 < 357)
theorem Laws.Row.scanoutLine (late : List Nat) : Laws.Row.Statement (.scanoutLine late) := (by decide : 352 < 357)
theorem Laws.Row.auxReply (reply : AuxReply) : Laws.Row.Statement (.auxReply reply) := (by decide : 353 < 357)
theorem Laws.Row.appendPktToNs (clip : Word) : Laws.Row.Statement (.appendPktToNs clip) := (by decide : 354 < 357)
theorem Laws.Row.powerOnDetect : Laws.Row.Statement .powerOnDetect := (by decide : 355 < 357)
theorem Laws.Row.powerOnRelease : Laws.Row.Statement .powerOnRelease := (by decide : 356 < 357)

end Sys2Proof
end

