-- ==== Sys2Proof/WellFormed.lean ====
section
/-! DEFINITION. Well-formed commands: operands of the sizes that the spec gives them. The meanings do not rest on this;
a command that is not well-formed names nothing that the spec describes. -/
namespace Sys2Proof

/-- A write carries as many bytes as it is long. -/
def dataFits (len : Nat) (data : Option (List Byte)) : Bool :=
  match data with
  | none => true
  | some bs => bs.length == len

/-- A host access is 1 to 8 bytes of BAR0 (R8, R9), or 1 to 4,096 bytes of BAR4 (R203). -/
def Tlp.wf : Tlp → Bool
  | .read _ _ size => 1 ≤ size && size ≤ 8
  | .bar4 _ len data => 1 ≤ len && len ≤ 4096 && dataFits len data
  | _ => true

/-- A frame holds at least its FCS; one of another length than R429 allows can arrive and is dropped (Table 18.2). -/
def frameFits (frame : List Byte) : Bool := 4 ≤ frame.length

/-- A sink has 1, 2 or 4 lanes and a rate code of 0 to 3 (Table 3.12), and trains at no others. -/
def Sink.wf (k : Sink) : Bool :=
  let ok : Nat → Nat → Bool := fun lanes rate => (lanes == 1 || lanes == 2 || lanes == 4) && rate ≤ 3
  ok k.lanes k.rate && k.works.all (fun p => ok p.1 p.2)

/-- A picture has as many samples as its size and chroma format ask for (R447). -/
def Picture.wf (p : Picture) : Bool :=
  let n := match p.chroma with
    | 0 => 0
    | 1 => ((p.width + 1) / 2) * ((p.height + 1) / 2)
    | 2 => ((p.width + 1) / 2) * p.height
    | _ => p.width * p.height
  p.chroma ≤ 3 && p.y.length == p.width * p.height && p.cb.length == n && p.cr.length == n

/-- A command's operands have sizes that the spec allows. -/
def Instr.wf : Instr → Bool
  | .badAccess _ _ size _ => 1 ≤ size && size ≤ 8
  | .darkAccess _ off _ => off.toNat % 4 == 0
  | .shadeTlpArrival tlp => tlp.wf
  | .shadeFrameArrival _ frame | .frameReceive _ _ frame => frameFits frame
  | .bar4Access _ len data => 1 ≤ len && len ≤ 4096 && dataFits len data
  | .shedAccess _ _ pa _ _ len data => 1 ≤ len && pa.toNat % 128 + len ≤ 128 && dataFits len data
  | .eccScrub c u => (c ++ u).all (fun pa => pa % 64 == 0 && pa < 2 ^ 40)
  | .sensorSample raw rails => raw.length == 12 && rails.length == 7
  | .calMeasure _ _ arg _ readings => readings.length == if arg = 0 then 12 else 1
  | .smbusPacket bytes => 1 ≤ bytes.length && bytes.length ≤ 259
  | .setEndpointId _ _ body | .getEndpointId _ _ body | .getEndpointUuid _ _ body | .getMctpVersionSupport _ _ body
  | .getMessageTypeSupport _ _ body | .getVendorDefinedMessageSupport _ _ body => body.length ≤ 1021
  | .setTid _ _ body | .getTid _ _ body | .getPldmVersion _ _ body | .getPldmTypes _ _ body | .getPldmCommands _ _ body
  | .getSensorReading _ _ body | .getStateSensorReadings _ _ body | .getPdrRepositoryInfo _ _ body
  | .getPdr _ _ body => body.length ≤ 1020
  | .getStatus _ _ body | .getBootFail _ _ body | .readReg _ _ body | .writeReg _ _ body | .stageWrite _ _ body
  | .tokenQuery _ _ body | .tokenYield _ _ body | .wake _ _ body => body.length ≤ 1016
  | .pcieLinkUp speed width => 1 ≤ speed.toNat && speed.toNat ≤ 4 && (width == 1 || width == 2 || width == 4)
  | .hpdRise sink | .irqHpd sink => sink.wf
  | .auxReply (.ack data) => data.length ≤ 16
  | .auDecoded _ (.frame _ pic) | .auDecoded _ (.corrupt _ pic) => pic.wf
  | .numxClear _ bed _ _ => bed.toNat < 48
  | .acousticFrame pcm => pcm.length ≤ 8 && pcm.all (fun xs => xs.length == 256 && xs.all (fun x => -32768 ≤ x && x ≤ 32767))
  | _ => true

end Sys2Proof
end

