-- ==== Sys2Proof/Tests/Slice0.lean ====
section
/-! SUPPORT. Tests: ill-formed commands are refused by the well-formedness check, worked examples of the spec, and for
every statement with hypotheses a concrete state and operands that meet them. -/
set_option Elab.async false
namespace Sys2Proof.Tests
open Sys2Proof.Machine

/-- Register words with one field set: the words stay in ascending order of their offsets. -/
def setF (f : Field) (v : Nat) : List (Nat × Word) → List (Nat × Word)
  | [] => [(f.off, setBits 0 f.lo f.width v)]
  | e :: l =>
    if e.1 = f.off then (e.1, setBits e.2 f.lo f.width v) :: l
    else if f.off < e.1 then (f.off, setBits 0 f.lo f.width v) :: e :: l
    else e :: setF f v l

/-- A state with some fields set. -/
def withF (s : State) (l : List (Field × Nat)) : State := { s with regs := l.foldl (fun r e => setF e.1 e.2 r) s.regs }

/-- A 32-bit word of a register as a field. -/
def word (off : Nat) : Field := ⟨off, 0, 32⟩

/-- A device that has started under the fallback plan, in Bloom, with every island open, 16 GiB of usable DRAM, a link,
and the token at the host. -/
def up : State :=
  withF { State.reset with
      regs := (List.range 72).map (fun n => (R.islandState n, BitVec.ofNat 32 OPEN))
      boot := { BootUnit.reset with starting := false }
      host := { HostUnit.reset with linkUp := true }
      plan := { State.reset.plan with active := fallbackCfg } }
    [(F.bootStatusReady, 1), (F.fenceLeaseHolder 5, 60), (F.hostqTokenHolder, 0), (word (R.memcUsable + 4), 4)]

/-- A state in which a start is under way. -/
def starting (s : State) : State := { s with boot := { s.boot with starting := true } }

/-- `up` with some bytes of DRAM. -/
def withDram (m : Memory) (s : State) : State := { s with mem := { s.mem with dram := m } }

/-! An ill-formed command for every check of the well-formedness predicate: the check refuses it -/

theorem test_wf_badAccess : Instr.wf (.badAccess .port 0 9 false) = false := by decide
theorem test_wf_darkAccess : Instr.wf (.darkAccess .port 2 true) = false := by decide
theorem test_wf_shadeRead : Instr.wf (.shadeTlpArrival (.read 0 0 0)) = false := by decide
theorem test_wf_shadeBar4 : Instr.wf (.shadeTlpArrival (.bar4 0 4 (some [0]))) = false := by decide
theorem test_wf_shadeFrame : Instr.wf (.shadeFrameArrival 0 [1, 2, 3]) = false := by decide
theorem test_wf_frameReceive : Instr.wf (.frameReceive 0 0 []) = false := by decide
theorem test_wf_bar4Empty : Instr.wf (.bar4Access 0 0 none) = false := by decide
theorem test_wf_bar4Long : Instr.wf (.bar4Access 0 4097 none) = false := by decide
theorem test_wf_shedCrosses : Instr.wf (.shedAccess 4 0 0x7C 0 false 8 none) = false := by decide
theorem test_wf_shedData : Instr.wf (.shedAccess 4 0 0 0 false 4 (some [1])) = false := by decide
theorem test_wf_eccScrub : Instr.wf (.eccScrub [1] []) = false := by decide
theorem test_wf_sensorSample : Instr.wf (.sensorSample [] (List.replicate 7 0)) = false := by decide
theorem test_wf_sensorRails : Instr.wf (.sensorSample (List.replicate 12 none) []) = false := by decide
theorem test_wf_calMeasure : Instr.wf (.calMeasure .port 0 0 0 [1]) = false := by decide
theorem test_wf_calMeasureMic : Instr.wf (.calMeasure .port 0 1 0 []) = false := by decide
theorem test_wf_smbusPacket : Instr.wf (.smbusPacket []) = false := by decide
theorem test_wf_mctpBody : Instr.wf (.setEndpointId ⟨0, 0, 0⟩ 0 (List.replicate 1022 0)) = false := by
  decide +kernel
theorem test_wf_pldmBody : Instr.wf (.getTid ⟨0, 0, 0⟩ 0 (List.replicate 1021 0)) = false := by
  decide +kernel
theorem test_wf_vendorBody : Instr.wf (.getStatus ⟨0, 0, 0⟩ 0 (List.replicate 1017 0)) = false := by
  decide +kernel
theorem test_wf_linkSpeed : Instr.wf (.pcieLinkUp 0 4) = false := by decide
theorem test_wf_linkWidth : Instr.wf (.pcieLinkUp 4 3) = false := by decide
theorem test_wf_sinkLanes : Instr.wf (.hpdRise ⟨3, 0, []⟩) = false := by decide
theorem test_wf_sinkWorks : Instr.wf (.irqHpd ⟨4, 3, [(4, 4)]⟩) = false := by decide
theorem test_wf_auxReply : Instr.wf (.auxReply (.ack (List.replicate 17 0))) = false := by decide
theorem test_wf_picture : Instr.wf (.auDecoded 0 (.frame none ⟨2, 2, false, 1, 0, false, [0, 0, 0, 0], [0], []⟩)) = false := by
  decide
theorem test_wf_numxClear : Instr.wf (.numxClear .port 48 0 false) = false := by decide
theorem test_wf_mics : Instr.wf (.acousticFrame (List.replicate 9 [])) = false := by decide
theorem test_wf_frameLength : Instr.wf (.acousticFrame [[0]]) = false := by decide
/-- The checks refuse no command of the sizes that the spec gives. -/
theorem test_wf_admits : ([.badAccess .port 1 4 true, .darkAccess .port 0x200000 false, .bar4Access 0 4096 none,
    .shedAccess 4 0 0x78 0 false 8 none, .pcieLinkUp 4 4, .hpdRise ⟨4, 3, [(2, 1)]⟩, .smbusPacket [0xC0],
    .numxClear .port 47 3 true] : List Instr).all Instr.wf = true := by decide

/-- The public key of the tests' images: the point 0x1234567 · G of P-384, X and Y in little-endian order (R46). -/
def testKey : List Byte :=
  leBytes 48 0x7ae9e1db1160794c70c1ef071be5191f6c66240f4608fbe8a44ecd36c3ed5db97500f2e4d84e3fb45850fd6f4303302b ++
  leBytes 48 0xd8ac21444cd80d241538d8034b399a0dee3636eb5cb00b9499d061a571db0f14bb47ed79453948ed63f3a6ccbbf6e74f

/-- A fused slot with the digest of that key. -/
def testSlot : KeySlot :=
  ⟨0xa8e3d3bc924aeb3b013cc776cc026ebd5f4487c41015e68bfed6236d0ce702eaa6cd248c26f54b22dcd61c533124dcf3, true, false⟩

/-- A graft on the fallback plan that names island 52 and carries only END, with SECURITY_VERSION 3 (Tables 2.1 to 2.4), and
its signature under `testKey`. -/
def graftImage : List Byte :=
  leBytes 4 0x544F4C50 ++ [0, 1, 0x00, 0x64, 0, 1, 3, 0, 1, 0, 0, 0] ++ leBytes 8 0 ++ leBytes 4 1 ++ leBytes 4 0 ++
    leBytes 4 452 ++ leBytes 4 260 ++ leBytes 2 1 ++ leBytes 2 0 ++ leBytes 4 0 ++ leBytes 16 (2 ^ 52) ++
    List.replicate 192 0 ++ leBytes 4 14 ++ testKey ++
    leBytes 48 0x69a19bed04766dcb3a0f272d66236d7c993dc3625783183aa92ddc1e0cc6508501904f19f229c7e0e012255279ce8be4 ++
    leBytes 48 0x7f6e1708b8a45af7f42f98ef13827d5a17744862cd432307113644849183781a44e15743fc107dbaedfb90c6a233b4de

/-- The image of processor 0 at SECURITY_VERSION 5 (Table 4.6), signed under `testKey`. -/
def fwImage0 : List Byte :=
  leBytes 4 0x474D4946 ++ [0, 5, 0, 0] ++ leBytes 4 256 ++ leBytes 4 64 ++ leBytes 4 7 ++ List.replicate 44 0 ++ testKey ++
    leBytes 48 0x69a19bed04766dcb3a0f272d66236d7c993dc3625783183aa92ddc1e0cc6508501904f19f229c7e0e012255279ce8be4 ++
    leBytes 48 0x34ef16593f5cc0470db018867a917077e5cda74cc95827b34dcc5a841bd704c5627ce295de4c932f78c551581a1597d7

/-- The image of processor 1 at SECURITY_VERSION 5 (Table 4.6), signed under `testKey`. -/
def fwImage1 : List Byte :=
  leBytes 4 0x474D4946 ++ [1, 5, 0, 0] ++ leBytes 4 256 ++ leBytes 4 64 ++ leBytes 4 7 ++ List.replicate 44 0 ++ testKey ++
    leBytes 48 0x69a19bed04766dcb3a0f272d66236d7c993dc3625783183aa92ddc1e0cc6508501904f19f229c7e0e012255279ce8be4 ++
    leBytes 48 0x62b6f23c4e4baf62667f9e01eca8fcf923bdd7d9e6b59a2251e946f51e128f499087dd9ba2bf05e4373ca5ae414c6484

/-- The image of processor 2 at SECURITY_VERSION 5 (Table 4.6), signed under `testKey`. -/
def fwImage2 : List Byte :=
  leBytes 4 0x474D4946 ++ [2, 5, 0, 0] ++ leBytes 4 256 ++ leBytes 4 64 ++ leBytes 4 7 ++ List.replicate 44 0 ++ testKey ++
    leBytes 48 0x69a19bed04766dcb3a0f272d66236d7c993dc3625783183aa92ddc1e0cc6508501904f19f229c7e0e012255279ce8be4 ++
    leBytes 48 0x385e35ded18618e2cb0668bef87037a09b3d1a7e60f2e5736afbc2b3be55101f197495b0bc1f0b51e0ed7c62a71518a4

/-- The image of processor 3 at SECURITY_VERSION 5 (Table 4.6), signed under `testKey`. -/
def fwImage3 : List Byte :=
  leBytes 4 0x474D4946 ++ [3, 5, 0, 0] ++ leBytes 4 256 ++ leBytes 4 64 ++ leBytes 4 7 ++ List.replicate 44 0 ++ testKey ++
    leBytes 48 0x69a19bed04766dcb3a0f272d66236d7c993dc3625783183aa92ddc1e0cc6508501904f19f229c7e0e012255279ce8be4 ++
    leBytes 48 0xb9c68619b54cef6e7bf119fded0c86dfa35e1aa830178b342ee4d9549f5551cef0b9ae08616d38b3143aa09eeac76de7

/-! ## Witnesses: every hypothesis of a statement is met -/

theorem wit_StepRunsFront : ({ up with pending := [.trellisAged] } : State).pending = .trellisAged :: [] := rfl

theorem wit_FusesOnlyRise : up.boot.fuses.wf ∧ ∃ t, step up = .next t := ⟨by unfold Fuses.wf; decide +kernel, tick up, rfl⟩

theorem wit_IslandCtrlReset : up.reaches (.host 0) R.islandCtrl ∧ up.hasToken (.host 0) = true ∧
    (4 ≤ 51 ∧ up.hedge 51 ≠ 0) ∧ bit up.reserveBeds 47 = false ∧ up.hedge 71 ≠ 0 := by
  unfold State.reaches; decide +kernel

/-- The refusals of IslandCtrlReset: the token elsewhere, a target outside the list, a DARK one. -/
theorem wit_IslandCtrlReset_refused : (up.reaches .port R.islandCtrl ∧ up.hasToken .port = false) ∧
    ¬ ((4 ≤ 52 ∧ 52 ≤ 51) ∨ (62 ≤ 52 ∧ 52 ≤ 66) ∨ 52 = 71) ∧ (withF up [(F.islandStateState 4, 0)]).hedge 4 = 0 := by
  unfold State.reaches; decide +kernel

theorem wit_IslandCtrlCounters : up.reaches .port R.islandCtrl ∧ (71 : BitVec 7).toNat < 72 := by
  unfold State.reaches; decide +kernel

/-- A device with a pending request of island 0, one of island 8, a request that waits for a tag, and a broadcast. -/
def busyTrellis : State :=
  { up with
    isl := {
      up.isl with
      tracked := [⟨0, 9, 0, 0, 0, false⟩]
      crossing := [(5, 6)]
      broadcasts := [⟨7, 9, [3]⟩] } }

theorem wit_OpenHedgeComparesEpochs :
    (up.hedge 0 = OPEN ∧ up.freeTag 0 = some 0 ∧ up.stopPowered 71 = true ∧ up.hedge 71 = OPEN ∧ up.view 0 71 = up.epoch 71) ∧
    (let s := withF up [(F.islandStateEpoch 71, 255)]; s.hedge 71 = OPEN ∧ s.view 0 71 ≠ s.epoch 71) ∧
    (let s := busyTrellis; s.hedge 0 = OPEN ∧ (0, 0) ∉ s.isl.heldReplies ∧
      s.isl.tracked.find? (fun t => t.src = 0 && t.tag = 0 && !t.held) = some ⟨0, 9, 0, 0, 0, false⟩) := by
  decide +kernel

theorem wit_HedgeEventsComplete :
    (let s := withF up [(F.islandStateState 71, CLOSED)]; s.mayOpen 71 = true ∧ s.power ≠ 1) ∧
    (busyTrellis.isl.broadcasts.find? (fun b => b.island = 7 && b.stops.contains 3) = some ⟨7, 9, [3]⟩) ∧
    (busyTrellis.freeTag 5 = some 0 ∧ busyTrellis.isl.crossing.find? (fun c => c.1 = 5) = some (5, 6)) ∧
    (busyTrellis.isl.tracked.find? (fun t => t.src = 0 && t.tag = 0) = some ⟨0, 9, 0, 0, 0, false⟩ ∧
      busyTrellis.hedge 9 ≠ STOPPED) := by
  decide +kernel

/-- A dark island, an offset without a register, a size that is none, a dark island of a VF-free access, a VF's view. -/
theorem wit_RegisterAccesses :
    (let s := withF up [(F.islandStateState 71, DARK)]
     s.power ≠ 2 ∧ s.judge (.host 0) (barOffset (.host 0) R.dispCtrl) 4 = .dark 71 ∧ 71 < 128 ∧
      (R.dispCtrl < R.hostqFn 0 ∨ R.hostqRingOwner 64 ≤ R.dispCtrl)) ∧
    up.judge (.host 0) (barOffset (.host 0) 0xFFFFFC) 4 = .bad ∧ up.judge (.host 0) (barOffset (.host 0) R.dispCtrl) 2 = .bad ∧
    (let s := { up with host := { up.host with fns := List.replicate 8 (PcieFn.reset true) } }
     s.judge (.host 7) (barOffset (.host 7) R.hostqBar4Base) 4 = .zero ∧
      (barOffset (.host 7) R.hostqBar4Base < R.hostqFn 0 ∨ R.hostqRingOwner 64 ≤ barOffset (.host 7) R.hostqBar4Base)) ∧
    (up.judge (.host 0) R.intakeSwCfg 4 = .serve ∧ up.judge .port R.intakeSwCfg 4 = .serve ∧ up.power ≠ 2) := by
  decide +kernel

/-- `up` with the tests' key in every fused slot. -/
def keyed : State :=
  { up with
    boot := {
      up.boot with
      fuses := { up.boot.fuses with planKeys := List.replicate 4 testSlot, imageKeys := List.replicate 2 testSlot } } }

/-- `keyed` in a phase of a plan job whose image is the graft. -/
def planning (phase op : Nat) : State :=
  let s := withF keyed [(F.planStatusPhase, phase), (word R.planSrcLen, 452)]
  { s with
    plan := {
      s.plan with
      staged := graftImage
      job := some ⟨op, false, .host 0, fallbackCfg, [], [52], 0, 0⟩ } }

theorem wit_PlanCommands :
    (up.reaches (.host 0) R.planCmd ∧ up.hasToken (.host 0) = true ∧ up.hasToken .port = false ∧ isPf0 (.host 1) = false ∧
      up.get F.planStatusPhase = 0 ∧ up.power = 0 ∧ up.get F.pwrStatusPhase = 0 ∧ (noteOrigin 0 (.host 0) up).isShut 0 = false) ∧
    (let s := withF up [(word R.planSrcLen, 2 ^ 20)]; (s.rd R.planSrcLen).toNat = 2 ^ 20 ∧
      s.rd64 R.planSrcAddr % 4 = 0 ∧ s.rd64 R.planSrcAddr + 2 ^ 20 ≤ s.host.bar4Size) ∧
    (planning 3 2).get F.planStatusPhase = 3 := by
  unfold State.reaches; decide +kernel

/-- An accepted image: signed, under a provisioned key, with all its fields right. -/
theorem wit_PlanFuseBurns_accepted : (checkImage ((planning 2 2).planCtx true fallbackCfg []) true graftImage).isOk = true := by
  decide +kernel

theorem wit_PlanFuseBurns : keyed.boot.fuses.planFloor ≤ 63 ∧ keyed.boot.fuses.planKeys.length = 4 ∧
    keyed.get F.planStatusFallback = 0 ∧ (withF keyed [(F.planStatusFallback, 1)]).get F.planStatusFallback = 1 ∧
    keyed.plan.chain = [] ∧ bytesAt graftImage 0x0B 1 = 0 ∧ graftImage ∈ [graftImage] := by
  decide +kernel

theorem wit_PlanPhases :
    ((planning 1 1).get F.planStatusPhase = 1 ∧ (planning 1 1).plan.job.isSome = true ∧
      (readSource (.host 0) ((planning 1 1).rd64 R.planSrcAddr) ((planning 1 1).rd R.planSrcLen).toNat (planning 1 1)).1.isSome = true) ∧
    ((planning 2 2).get F.planStatusPhase = 2 ∧ (planning 2 2).plan.active = fallbackCfg ∧ (planning 2 2).plan.chain = [] ∧
      (planning 2 2).plan.staged = graftImage) ∧
    ((planning 3 2).get F.planStatusPhase = 3 ∧ (planning 3 2).workDrained = true) ∧
    ((planning 4 2).get F.planStatusPhase = 4 ∧ ∀ n ∈ [52], (planning 4 2).isOpen n = true) ∧
    (planning 6 3).get F.planStatusPhase = 6 := by
  decide +kernel

/-- An image that fails check 3. -/
theorem wit_PlanPhases_refused : (checkImage ((planning 2 1).planCtx true fallbackCfg []) false []).isOk = false := by
  decide +kernel

/-- A state with another boot flash. -/
def withFlash (m : Memory) (s : State) : State := { s with mem := { s.mem with flash := m } }

/-- The boot flash with the four images in slot 0; slot 1 is blank. -/
def imagedFlash : Memory :=
  Memory.write flashFill (Memory.write flashFill (Memory.write flashFill
    (Memory.write flashFill [] 0x80000 fwImage0) 0xC0000 fwImage1) 0x100000 fwImage2) 0x140000 fwImage3

/-- `keyed` with the four images in slot 0; slot 1 is blank. -/
def imaged : State := withFlash imagedFlash keyed

theorem withFlash_flash (m : Memory) (s : State) : (withFlash m s).mem.flash = m := rfl

theorem withFlash_boot (m : Memory) (s : State) : (withFlash m s).boot = s.boot := rfl

/-- An image region is its first 256 bytes and the rest. -/
theorem region_split (s : State) (slot proc : Nat) : s.imageRegion slot proc =
    Memory.read flashFill s.mem.flash (imageBase slot proc) 256 ++
      Memory.read flashFill s.mem.flash (imageBase slot proc + 256) 0x3FF00 := Memory.read_add _ _ _ 256 0x3FF00

theorem read_back {m : Memory} {a n : Nat} {bs : List Byte} (h : bs.length = n) :
    Memory.read flashFill (Memory.write flashFill m a bs) a n = bs := by
  rw [← h, Memory.read_write]

theorem imaged_length0 : fwImage0.length = 256 := by decide +kernel

theorem imaged_length1 : fwImage1.length = 256 := by decide +kernel

theorem imaged_length2 : fwImage2.length = 256 := by decide +kernel

theorem imaged_length3 : fwImage3.length = 256 := by decide +kernel

theorem imaged_reads : Memory.read flashFill imagedFlash 0x80000 256 = fwImage0 ∧
    Memory.read flashFill imagedFlash 0xC0000 256 = fwImage1 ∧ Memory.read flashFill imagedFlash 0x100000 256 = fwImage2 ∧
    Memory.read flashFill imagedFlash 0x140000 256 = fwImage3 := by
  have l1 := imaged_length1
  have l2 := imaged_length2
  have l3 := imaged_length3
  have o := fun (m : Memory) (a b : Nat) (bs : List Byte) h => Memory.read_write_outside flashFill m a b 256 bs h
  exact ⟨(o _ _ 0x80000 _ (by omega)).trans ((o _ _ _ _ (by omega)).trans ((o _ _ _ _ (by omega)).trans (read_back imaged_length0))),
    (o _ _ 0xC0000 _ (by omega)).trans ((o _ _ _ _ (by omega)).trans (read_back imaged_length1)),
    (o _ _ 0x100000 _ (by omega)).trans (read_back imaged_length2), read_back imaged_length3⟩

/-- An image is judged by its 256 bytes, whatever the rest of its region holds. -/
theorem slotImage_eq {s : State} {m : Memory} {slot proc a : Nat} {img : List Byte} (ha : imageBase slot proc = a)
    (h : Memory.read flashFill m a 256 = img) : (withFlash m s).slotImage slot proc =
      checkFirmware s.boot.fuses proc (img ++ Memory.read flashFill m (a + 256) 0x3FF00) := by
  rw [State.slotImage, region_split, withFlash_flash, withFlash_boot, ha, h]

/-- The version of an accepted image. -/
def acceptedVersion (r : Except ImageErr ImageOk) : Option Nat :=
  match r with
  | .ok i => some i.version
  | .error _ => none

theorem imaged_accepts : acceptedVersion (imaged.slotImage 0 0) = some 5 ∧ acceptedVersion (imaged.slotImage 0 1) = some 5 ∧
    acceptedVersion (imaged.slotImage 0 2) = some 5 ∧ acceptedVersion (imaged.slotImage 0 3) = some 5 := by
  obtain ⟨r0, r1, r2, r3⟩ := imaged_reads
  refine ⟨?_, ?_, ?_, ?_⟩
  · rw [imaged, slotImage_eq (a := 0x80000) (by decide) r0]
    simp only [checkFirmware, imageHeaderOk, List.length_append, Memory.length_read, imaged_length0]
    decide +kernel
  · rw [imaged, slotImage_eq (a := 0xC0000) (by decide) r1]
    simp only [checkFirmware, imageHeaderOk, List.length_append, Memory.length_read, imaged_length1]
    decide +kernel
  · rw [imaged, slotImage_eq (a := 0x100000) (by decide) r2]
    simp only [checkFirmware, imageHeaderOk, List.length_append, Memory.length_read, imaged_length2]
    decide +kernel
  · rw [imaged, slotImage_eq (a := 0x140000) (by decide) r3]
    simp only [checkFirmware, imageHeaderOk, List.length_append, Memory.length_read, imaged_length3]
    decide +kernel

theorem acceptedVersion_some {r : Except ImageErr ImageOk} {v : Nat} (h : acceptedVersion r = some v) :
    ∃ i, r = .ok i ∧ i.version = v := by
  cases r with
  | ok i => exact ⟨i, rfl, by simpa [acceptedVersion] using h⟩
  | error e => simp [acceptedVersion] at h

theorem verifySlot_of {s : State} {slot : Nat} {a b c d : ImageOk} (h0 : s.slotImage slot 0 = .ok a)
    (h1 : s.slotImage slot 1 = .ok b) (h2 : s.slotImage slot 2 = .ok c) (h3 : s.slotImage slot 3 = .ok d)
    (hb : b.version = a.version) (hc : c.version = a.version) (hd : d.version = a.version) :
    s.verifySlot slot = .ok [a, b, c, d] := by
  unfold State.verifySlot
  rw [h0, h1, h2, h3]
  have hx : ∀ x y z : ImageOk, x.version = a.version → y.version = a.version → z.version = a.version →
      [x, y, z].findIdx (fun i => i.version ≠ a.version) = 3 := by
    intro x y z hx hy hz
    simp [List.findIdx_cons, hx, hy, hz]
  simp only [hx b c d hb hc hd, Nat.lt_irrefl, if_false]

/-- What a slot's images are depends on the flash and the fuses alone. -/
theorem slotImage_congr {s t : State} (hf : t.boot.fuses = s.boot.fuses) (hm : t.mem.flash = s.mem.flash) (slot proc : Nat) :
    t.slotImage slot proc = s.slotImage slot proc := by
  unfold State.slotImage State.imageRegion State.flashRead
  rw [hf, hm]

theorem verifySlot_congr {s t : State} (hf : t.boot.fuses = s.boot.fuses) (hm : t.mem.flash = s.mem.flash) (slot : Nat) :
    t.verifySlot slot = s.verifySlot slot := by
  unfold State.verifySlot
  simp only [slotImage_congr hf hm]

theorem withF_fuses (s : State) (l : List (Field × Nat)) : (withF s l).boot.fuses = s.boot.fuses := rfl

theorem withF_flash (s : State) (l : List (Field × Nat)) : (withF s l).mem.flash = s.mem.flash := rfl

/-- The images of slot 0 agree and are accepted. -/
theorem imaged_verifies : ∃ is, imaged.verifySlot 0 = .ok is ∧ (is.headD ⟨0, 0, 0⟩).version = 5 := by
  obtain ⟨a0, a1, a2, a3⟩ := imaged_accepts
  obtain ⟨a, h0, ha⟩ := acceptedVersion_some a0
  obtain ⟨b, h1, hb⟩ := acceptedVersion_some a1
  obtain ⟨c, h2, hc⟩ := acceptedVersion_some a2
  obtain ⟨d, h3, hd⟩ := acceptedVersion_some a3
  exact ⟨[a, b, c, d], verifySlot_of h0 h1 h2 h3 (hb.trans ha.symm) (hc.trans ha.symm) (hd.trans ha.symm), ha⟩

/-- Slot 1 is blank: its MAGIC is no image's. -/
theorem imaged_blank (p : Nat) (hp : p < 4) : ∃ e, imaged.slotImage 1 p = .error e := by
  have hr : Memory.read flashFill imagedFlash (imageBase 1 p) 4 = [0xFF, 0xFF, 0xFF, 0xFF] := by
    have l0 := imaged_length0
    have l1 := imaged_length1
    have l2 := imaged_length2
    have l3 := imaged_length3
    have hb : 0x280000 ≤ imageBase 1 p := by unfold imageBase; omega
    unfold imagedFlash
    rw [Memory.read_write_outside _ _ _ _ _ _ (by omega), Memory.read_write_outside _ _ _ _ _ _ (by omega),
      Memory.read_write_outside _ _ _ _ _ _ (by omega), Memory.read_write_outside _ _ _ _ _ _ (by omega)]
    rfl
  have hm : imageHeaderOk p (Memory.read flashFill imagedFlash (imageBase 1 p) 0x40000) = false := by
    rw [show 0x40000 = 4 + 0x3FFFC from rfl, Memory.read_add, hr]
    rfl
  refine ⟨⟨0xF0, 0x20⟩, ?_⟩
  unfold State.slotImage State.imageRegion State.flashRead checkFirmware
  rw [imaged, withFlash_flash, hm]
  rfl

theorem wit_ResetPins :
    (let s := { up with board := { up.board with resetN := false, pwrOk := true, detector := false } }
     ({ s.board with resetN := true } ≠ s.board) ∧ s.board.resetN = false ∧ s.board.pwrOk = true) ∧
    (let s := { up with board := { up.board with resetN := true, pwrOk := false, detector := true } }
     ({ s.board with pwrOk := true } ≠ s.board) ∧ s.board.detector = true ∧ { s.board with detector := false } ≠ s.board) ∧
    up.board.resetN = true ∧ (List.replicate 147 false).length = 147 ∧ (scanBalls[48]?).isSome = true := by
  decide +kernel

theorem starting_fuses (s : State) : (starting s).boot.fuses = s.boot.fuses := rfl

theorem starting_flash (s : State) : (starting s).mem.flash = s.mem.flash := rfl

/-- A start of kind `kind` at step `step`. -/
def startAt (step kind : Nat) : State :=
  starting (withF imaged [(F.bootStatusStep, step), (F.bootKindStartKind, kind), (F.bootStatusReady, 0)])

theorem wit_StartSteps :
    (∀ k ∈ [1, 2, 3, 4, 5, 6, 7, 8, 9, 10, 11, 12, 13, 14, 15], (startAt k 0).boot.starting = true ∧
      (startAt k 0).get F.bootStatusStep = k ∧ (startAt k 0).startKind < 3 ∧ (startAt k 0).get F.bootStatusSafe = 0) ∧
    (startAt 8 3).startKind = 3 ∧ (startAt 14 2).isOpen 60 = true ∧ (startAt 14 2).isOpen 71 = true ∧
    (let c : PlanCfg := { fallbackCfg with evidence := some ⟨1, 1, 2, 30, 40, 800, 0, 0⟩ }
     let s := { startAt 15 2 with plan := { (startAt 15 2).plan with active := c } }
     s.boot.heldPower = none ∧ s.plan.active.evidence.isSome = true) := by
  decide +kernel

theorem wit_StartSteps_images : (∃ i, imaged.slotImage 0 0 = .ok i) ∧ (∃ e, imaged.slotImage 1 0 = .error e) ∧
    ∃ oks, imaged.verifySlot 0 = .ok oks := by
  obtain ⟨a, h, -⟩ := acceptedVersion_some imaged_accepts.1
  obtain ⟨is, hi, -⟩ := imaged_verifies
  exact ⟨⟨a, h⟩, imaged_blank 0 (by decide), is, hi⟩

/-- The state at a step has `imaged`'s fuses and flash. -/
theorem startAt_image (step kind slot proc : Nat) : (startAt step kind).slotImage slot proc = imaged.slotImage slot proc :=
  slotImage_congr ((starting_fuses _).trans (withF_fuses _ _)) ((starting_flash _).trans (withF_flash _ _)) _ _

theorem wit_BootCommands : imaged.reaches (.host 0) R.bootCmd ∧ imaged.hasToken (.host 0) = true ∧ imaged.hasToken .port = false ∧
    imaged.get F.bootCmdStatusBusy = 0 ∧ imaged.get F.bootStatusReady = 1 ∧ (noteOrigin 1 (.host 0) imaged).isShut 0 = false ∧
    (noteOrigin 1 (.host 0) imaged).get F.bootStatusSafe = 0 ∧ (noteOrigin 1 (.host 0) imaged).get F.bootSlotRunning = 0 ∧
    (let s := withF imaged [(word R.bootSrcLen, 0x40000)]; (s.rd R.bootSrcLen).toNat % 4 = 0 ∧ (s.rd R.bootSrcLen).toNat ≤ 0x40000) ∧
    { imaged.boot with clearing := some 7 }.clearing = some 7 := by
  unfold State.reaches; decide +kernel

theorem noteOrigin_fuses (s : State) : (noteOrigin 1 (.host 0) s).boot.fuses = s.boot.fuses := rfl

theorem noteOrigin_flash (s : State) : (noteOrigin 1 (.host 0) s).mem.flash = s.mem.flash := rfl

/-- `noteOrigin` writes a register: the images and fuses are the same. -/
theorem wit_BootCommands_images : ∃ oks, (noteOrigin 1 (.host 0) imaged).verifySlot 0 = .ok oks := by
  obtain ⟨is, hi, -⟩ := imaged_verifies
  exact ⟨is, by rw [verifySlot_congr (noteOrigin_fuses imaged) (noteOrigin_flash imaged), hi]⟩

/-- `imaged` with slot 1 running at a version. -/
def running1 (v : Nat) : State := withF imaged [(F.bootSlotRunning, 1), (F.bootSlotRunVersion, v)]

theorem running1_fields : (running1 5).get F.bootSlotRunning = 1 ∧ (running1 5).get F.bootSlotRunVersion = 5 ∧
    (running1 6).get F.bootSlotRunVersion = 6 ∧ imaged.get F.bootSlotRunning = 0 ∧ imaged.boot.fuses.imageFloor ≤ 63 := by
  decide +kernel

/-- The other slot is accepted at the running version: 5 allows the burn, 6 does not. -/
theorem wit_ImageFloorBurn (v : Nat) : ∃ is, (running1 v).verifySlot 0 = .ok is ∧ (is.headD ⟨0, 0, 0⟩).version = 5 := by
  obtain ⟨is, hi, hv⟩ := imaged_verifies
  exact ⟨is, (verifySlot_congr (withF_fuses _ _) (withF_flash _ _) 0).trans hi, hv⟩

theorem slotVersion_none {s : State} {slot : Nat} (h : ∀ p, p < 4 → ∃ e, s.slotImage slot p = .error e) :
    s.slotVersion slot = none := by
  obtain ⟨e0, h0⟩ := h 0 (by decide)
  obtain ⟨e1, h1⟩ := h 1 (by decide)
  obtain ⟨e2, h2⟩ := h 2 (by decide)
  obtain ⟨e3, h3⟩ := h 3 (by decide)
  unfold State.slotVersion
  simp [List.range, List.range.loop, h0, h1, h2, h3]

theorem verifySlot_error {s : State} {slot : Nat} {e : ImageErr} (h : s.slotImage slot 0 = .error e) :
    s.verifySlot slot = .error (e, 0) := by
  unfold State.verifySlot
  rw [h]

/-- The other slot is blank. -/
theorem wit_ImageFloorBurn_blank : (∃ e, imaged.verifySlot 1 = .error e) ∧ imaged.slotVersion 1 = none := by
  obtain ⟨e0, h0⟩ := imaged_blank 0 (by decide)
  exact ⟨⟨(e0, 0), verifySlot_error h0⟩, slotVersion_none imaged_blank⟩

/-- `up` in a power state: 1 Shade, 2 Fallow, 3 Dormant, 4 Frost. -/
def inPower (n : Nat) : State := withF up [(F.pwrStatusState, n), (F.pwrWakeEnSources, 0x3F)]

/-- A target of 0 to 4 that is allowed, one that is not, the link's state for Fallow, Shade. -/
theorem wit_PowerRequests :
    (up.reaches (.host 0) R.pwrRequest ∧ up.boot.starting = false ∧ up.hasToken (.host 0) = true ∧ up.get F.pwrStatusPhase = 0 ∧
      up.power = 0 ∧ (up.get F.hostqLinkAspmL1 = 0 ∨ up.get F.hostqLinkL12 = 0)) ∧
    ((starting up).reaches (.host 0) R.pwrRequest ∧ (starting up).boot.starting = true) ∧
    ((inPower 1).reaches (.host 0) R.pwrRequest ∧ (inPower 1).power = 1 ∧ (inPower 1).boot.starting = false ∧
      (inPower 1).get F.pwrStatusPhase = 0 ∧ (inPower 1).hasToken (.host 0) = true) := by
  unfold State.reaches; decide +kernel

theorem wit_SettleEvents :
    (up.isOpen (procIsland 3) = true ∧ up.fw.hotSwap = none) ∧
    (let s := withF up [(F.pwrStatusPhase, 1), (F.pwrStatusLastTarget, 4)]
     s.get F.pwrStatusPhase = 1 ∧ (4 : BitVec 3).toNat = s.get F.pwrStatusLastTarget ∧ s.maySettle 3 = true ∧ s.pwr.cut = false ∧
       s.get F.pwrModeG0Wait = 0) ∧
    (withF up [(F.pwrStatusPhase, 2)]).get F.pwrStatusPhase = 2 ∧
    (let s := withF up [(F.pwrStatusPhase, 3), (F.pwrStatusLastTarget, 1)]
     s.get F.pwrStatusPhase = 3 ∧ s.get F.pwrStatusLastTarget = 1 ∧ s.pwr.latched = []) := by
  decide +kernel

/-- Every source in the deepest state in which it acts, and sources that do not act. -/
theorem wit_WakeSources :
    (∀ b ∈ [0, 1, 2, 3, 4, 5, 6], (inPower 1).wakeEnabled b = true ∧ wakeMarked b (inPower 1).power = true) ∧
    (let s := { up with timeUs := up.pwr.wakeAt + 11 }; s.power = 0 ∧ s.pwr.wakeAt + 10 < s.timeUs) ∧
    (inPower 1).power = 1 ∧ (inPower 4).power = 4 ∧ (inPower 4).wakeEnabled 2 = true ∧ wakeMarked 2 4 = true ∧
    (inPower 4).fence.tripHold = false ∧ wakeMarked 6 2 = false ∧ wakeMarked 3 4 = false ∧ up.wakeEnabled 1 = false ∧
    (inPower 1).boot.starting = false ∧ (inPower 1).get F.pwrStatusPhase = 0 ∧ (inPower 1).host.linkUp = true ∧
    (let s := withF (inPower 1) [(word R.pwrTimerMs, 1), (word R.pwrAlarm, 1), (F.intakePortCfgMode 3, 1)]
     s.rd R.pwrTimerMs ≠ 0 ∧ s.rd R.pwrAlarm ≠ 0 ∧ s.portEnabled 3 = true ∧ s.pwr.frames = []) ∧
    (let s := { up with pwr := { up.pwr with tlps := [.read 0 (BitVec.ofNat 24 R.dispCtrl) 4] } }
     s.power = 0 ∧ ∀ n ∈ 60 :: s.tlpPath (.read 0 (BitVec.ofNat 24 R.dispCtrl) 4), s.isOpen n = true) := by
  decide +kernel

theorem wit_SensorSamples : up.fence.filters.length = 12 ∧ bit (up.get F.fenceSensorFailFail) 11 = false ∧
    (List.replicate 12 (some 2400)).getD 11 none = some 2400 ∧ (List.replicate 12 (some (-880 : Int))).getD 0 none = some (-880) := by
  decide +kernel

/-- `up` with a fence that has counted `n` samples for every test. -/
def counted (n : Nat) : State :=
  { up with
    fence := {
      up.fence with
      softRun := [(n, n), (n, n)]
      hwRun := n
      tripRun := n
      coolRun := n
      tripHold := true } }

theorem wit_ThermalEvents :
    (let s := counted 4
     s.get F.fenceStateWarn = 0 ∧ s.samplesIn s.plan.active.limits.dwellMs ≤ 100 ∧ 4 ≤ s.fence.hwRun ∧ 4 ≤ s.fence.tripRun ∧
       s.boot.starting = false ∧ s.power ≠ 4) ∧
    (let s := counted 100
     s.samplesIn s.plan.active.limits.dwellMs ≤ (s.fence.softRun.getD 1 (0, 0)).1 ∧
     s.samplesIn s.plan.active.limits.dwellMs ≤ (s.fence.softRun.getD 0 (0, 0)).2 ∧ s.samplesIn 100 ≤ s.fence.coolRun) ∧
    ((counted 0).fence.softRun.getD 0 (0, 0)).1 < (counted 0).samplesIn (counted 0).plan.active.limits.dwellMs ∧
    (let s := withF (counted 100) [(F.fenceStateWarn, 1), (F.fenceStateSoftThrottle, 1), (F.fenceStateHwThrottle, 1)]
     s.get F.fenceStateWarn = 1 ∧ s.get F.fenceStateSoftThrottle = 1 ∧ s.get F.fenceStateHwThrottle = 1) ∧
    (let s := withF (counted 4) [(F.pwrStatusState, 4)]
     s.power = 4 ∧ s.fence.tripHold = true ∧ s.samplesIn 100 ≤ 4) := by
  decide +kernel

theorem wit_PowerLimits :
    (up.power = 0 ∧ up.isOpen 0 = true ∧ 200 ≤ (withF up [(F.fenceStateBedCeiling, 200)]).get F.fenceStateBedCeiling) ∧
    (up.fence.peakRun % 2 = 0 ∧ up.power < 2) ∧
    (let s := { withF up [(F.fenceStateLimitRatio, 7)] with fence := { up.fence with overUs := 10000, lowUs := 100 } }
     10000 ≤ s.fence.overUs ∧ 100 ≤ s.fence.lowUs ∧ s.fence.uvHeld = false ∧ s.get F.fenceStateLimitRatio < 8 ∧
       2 < s.get F.fenceStateLimitRatio) ∧
    (withF up [(F.fenceStateLimitRatio, 2)]).get F.fenceStateLimitRatio ≤ 2 := by
  decide +kernel

theorem wit_VoltageAndClockEvents : { up.fence with raising := some 700 }.raising.isSome = true ∧ up.power ≠ 2 ∧
    up.get F.hostqLinkL12 = 0 ∧ up.isShut 61 = false := by
  decide +kernel

/-- A calibration table of zeros is refused for its MAGIC; the source is readable by host and port. -/
theorem wit_CalibrationCommands :
    (up.reaches (.host 0) R.calCmd ∧ up.hasToken (.host 0) = true ∧ up.hasToken .port = false ∧ up.get F.calStatusBusy = 0 ∧
      up.power = 0 ∧ (noteOrigin 4 (.host 0) up).isShut 0 = false) ∧
    (readSource (.host 0) ((noteOrigin 4 (.host 0) up).rd64 R.calBufAddr) 256 (noteOrigin 4 (.host 0) up)).1.isSome = true ∧
    calReason (List.replicate 256 0) = 1 := by
  unfold State.reaches; decide +kernel

/-- A calibration table of version 1 without points, before its CRC word. -/
def calBody : List Byte := [0x43, 0x41, 0x4C, 0x54, 0, 1, 1, 0, 0, 1, 0, 0] ++ List.replicate 240 0

theorem wit_CalibrationCommands_accepted :
    calReason (calBody ++ leBytes 4 (crc32 calBody)) = 0 := by
  decide +kernel

/-- `up` with processor 0 closed and its reload pending. -/
def reloading : State := withF up [(F.bootFwStatusPending, 1), (F.islandStateState 0, CLOSED)]

/-- A state whose retention store holds the digest of what slot 0 holds. -/
def withDigest (s : State) : State := { s with fw := { s.fw with digests := [s.regionDigest 0 0] } }

theorem wit_ProcessorEvents_digest (s : State) :
    (withDigest s).regionDigest 0 0 = (withDigest s).fw.digests.getD 0 0 := rfl

theorem withDigest_keeps (s : State) : (withDigest s).reloadDue 0 = s.reloadDue 0 ∧
    (withDigest s).thirdClose 0 = s.thirdClose 0 ∧ (withDigest s).get F.bootSlotRunning = s.get F.bootSlotRunning :=
  ⟨rfl, rfl, rfl⟩

theorem wit_ProcessorEvents :
    (∀ p ∈ [(0 : Fin 4), 3], up.isOpen (procIsland p) = true ∧ up.wdogPaused p = false) ∧ up.boot.starting = false ∧
    (∀ p ∈ [(0 : Fin 4), 3], (starting up).isOpen (procIsland p) = true) ∧ (starting up).boot.starting = true ∧
    (reloading.reloadDue 0 = true ∧ reloading.thirdClose 0 = false ∧ reloading.get F.bootSlotRunning = 0) ∧
    (let s := { reloading with fw := { reloading.fw with closes := [(0, 10000000), (0, 5), (0, 0)] } }
     s.reloadDue 0 = true ∧ s.thirdClose 0 = true) ∧
    bit (reloading.get F.bootFwStatusPending) 0 = true ∧
    { up.fw with hotSwap := some (1, []) }.hotSwap.isSome = true := by
  decide +kernel

/-- BOOT_FW_CMD: accepted, and each refusal. -/
theorem wit_ProcessorEvents_commands :
    up.reaches (.host 0) R.bootFwCmd ∧ up.hasToken (.host 0) = true ∧ up.get F.bootFwCmdStatusBusy = 0 ∧
    up.get F.bootStatusReady = 1 ∧ up.power = 0 ∧ (noteOrigin 2 (.host 0) up).isShut 0 = false ∧
    isPf0 (.host 1) = false ∧ (withF up [(F.bootFwCmdStatusBusy, 1)]).get F.bootFwCmdStatusBusy = 1 ∧
    (withF up [(F.bootStatusReady, 0)]).get F.bootStatusReady = 0 ∧ (inPower 1).reaches (.host 0) R.bootFwCmd ∧ (inPower 1).power ≠ 0 := by
  unfold State.reaches; decide +kernel

/-- Leases 0 to 4 free. -/
def leases (s : State) : State := withF s ((List.range 5).map (fun l => (F.fenceLeaseHolder l, 0x7F)))

/-- A lease with a holder. -/
def leased (l holder : Nat) (s : State) : State := withF (leases s) [(F.fenceLeaseHolder l, holder)]

theorem wit_LeaseRules :
    ((0 : BitVec 8).toNat = (leases up).epoch 0 ∧ (leases up).leaseHolder 0 = 0x7F ∧ 0 ∉ (leases up).fw.forced) ∧
    ((1 : BitVec 8).toNat ≠ up.epoch 58) ∧
    ((leases up).leaseHolder 4 = 0x7F ∧ 4 ∉ (leases up).fw.forced ∧ (leases up).leaseHolder 1 = 0x7F) ∧
    ((leased 1 58 up).leaseHolder 1 ≠ 0x7F ∧ (0 : BitVec 8).toNat = (leased 1 58 up).epoch 0) ∧
    ((leased 1 58 up).leaseHolder 1 = (58 : Fin 72) ∧ (leased 1 58 up).get (F.fenceLeaseEpoch 1) = (0 : BitVec 8).toNat ∧
      (leased 1 58 up).epoch 58 = (0 : BitVec 8).toNat ∧ ∀ w ∈ (leased 1 58 up).fw.waiters, w.1 ≠ 1) := by
  decide +kernel

theorem wit_ForcedReleases : 1 ∈ { up.fw with forced := [1] }.forced ∧
    ((leased 1 58 up).leaseHolder 1 = 58 ∧ (leased 1 58 up).isOpen 0 = true) ∧
    (leased 4 0 up).leaseHolder 4 = 0 := by
  decide +kernel

/-- The mailbox's source: 64 equal bytes, and 64 bytes whose halves differ. -/
theorem wit_KeyMailbox :
    (up.reaches (.host 0) R.bootKeymbCmd ∧ up.hasToken (.host 0) = true ∧ up.get F.bootKeymbStatusBusy = 0 ∧ up.power = 0 ∧
      up.isOpen 0 = true) ∧
    ((0x4E7C : BitVec 16) ≠ 0x4E7B ∧ (inPower 1).reaches (.host 0) R.bootKeymbCmd ∧ (inPower 1).power ≠ 0 ∧
      (reloading.reaches (.host 0) R.bootKeymbCmd ∧ reloading.isOpen 0 = false)) ∧
    ((readSource (.host 0) ((noteOrigin 3 (.host 0) up).rd64 R.bootKeymbAddr) 64 (noteOrigin 3 (.host 0) up)).1 =
      some (List.replicate 64 0)) ∧
    (let s := noteOrigin 3 (.host 0) (withDram [(0, 1)] up)
     (readSource (.host 0) (s.rd64 R.bootKeymbAddr) 64 s).1 = some (1 :: List.replicate 63 0)) := by
  unfold State.reaches; decide +kernel

/-- `up` with SQ r and CQ r of 16 entries, enabled, owned by PF0, interrupts on, HEAD 2 and TAIL 5, and PF0 allotments 0–63. -/
def ringed (r : Nat) : State :=
  let s := withF up [(F.sqStatusState r, 1), (F.cqStatusState r, 1), (F.sqCfgSizeLog2 r, 4), (F.cqCfgSizeLog2 r, 4),
    (F.sqStatusHead r, 2), (F.sqTailValue r, 5), (F.cqHeadValue r, 2), (F.cqStatusTail r, 5), (F.cqCfgVector r, 2),
    (F.sqCfgCq r, r), (F.cqCfgIen r, 1), (F.cqCfgTime r, 1), (F.hostqFnAllotCount 0, 64)]
  { s with host := { s.host with fns := { PcieFn.reset true with busMaster := true } :: List.replicate 7 (PcieFn.reset true) } }

/-- Rings 0 and 63: a valid tail, the old tail, tails behind HEAD and past the end, a valid and an invalid head. -/
theorem wit_DoorbellRules : ∀ r ∈ [0, 63], let s := ringed r
    s.power ≠ 2 ∧ s.hostReaches 0 = true ∧ s.get F.bootStatusSafe ≠ 1 ∧ s.mustHold = false ∧ s.isShut 60 = false ∧
    s.sqFn r = 0 ∧ s.cqFn r = 0 ∧ s.sqFn r ≠ 7 ∧ s.hostReaches 7 = true ∧ s.get (F.sqStatusState r) = RING_ENABLED ∧
    s.get (F.cqStatusState r) = RING_ENABLED ∧ s.isShut 56 = false ∧
    (let size := 2 ^ s.get (F.sqCfgSizeLog2 r)
     let fwd := fun x : Nat => (x + size - s.get (F.sqStatusHead r)) % size
     size = 16 ∧ s.get (F.sqTailValue r) = 5 ∧ fwd 4 < fwd 5 ∧ ¬ fwd 15 < fwd 5 ∧ ¬ fwd 5 < fwd 5) ∧
    (let size := 2 ^ s.get (F.cqCfgSizeLog2 r)
     let fwd := fun x : Nat => (x + size - s.get (F.cqHeadValue r)) % size
     fwd (s.get (F.cqStatusTail r)) < fwd 6 ∧ ¬ fwd (s.get (F.cqStatusTail r)) < fwd 5) ∧ s.host.waiting = [] := by
  decide +kernel

/-- Doorbells without effect: Gardener 0 CLOSED, and a ring that is disabled. -/
theorem wit_DoorbellRules_latched : (withF (ringed 0) [(F.islandStateState 56, CLOSED)]).isShut 56 = true ∧
    up.get (F.sqStatusState 0) ≠ RING_ENABLED := by
  decide +kernel

/-- Disabled rings 0 and 63 whose conditions hold, and an enabled ring; SQ_CFG and CQ_CFG of 0 are of no legal size. -/
theorem wit_RingControl : ∀ r ∈ [0, 63],
    let s := withF (ringed r) [(F.sqStatusState r, 0)]
    (s.reaches (.host 0) (R.sqCtrl r) ∧ s.get (F.sqStatusState r) = RING_DISABLED ∧ s.get (F.sqCfgSizeLog2 r) = 4 ∧
      s.rd64 (R.sqBase r) % 4096 = 0 ∧ s.get (F.cqStatusState (s.get (F.sqCfgCq r))) = RING_ENABLED ∧
      s.cqFn (s.get (F.sqCfgCq r)) = s.sqFn r ∧ s.allotOwner (s.get (F.sqCfgAllot r)) = some (s.sqFn r)) ∧
    up.get (F.sqCfgSizeLog2 r) < 4 ∧ up.reaches (.host 0) (R.sqCtrl r) ∧ up.reaches (.host 0) (R.cqCtrl r) ∧
    ((ringed r).reaches (.host 0) (R.sqCtrl r) ∧ (ringed r).get (F.sqStatusState r) = RING_ENABLED) ∧
    (let c := withF (ringed r) [(F.cqStatusState r, 0)]
     c.reaches (.host 0) (R.cqCtrl r) ∧ c.get (F.cqStatusState r) = RING_DISABLED ∧ ¬ c.get (F.cqCfgVector r) < 2 ∧
      c.rd64 (R.cqBase r) % 4096 = 0 ∧ c.get (F.cqCfgSpace r) = 0) ∧
    ((ringed r).get (F.cqStatusState r) = RING_ENABLED ∧ (ringed r).get (F.sqStatusState r) ≠ RING_DISABLED ∧
      (ringed r).get (F.sqCfgCq r) = r) := by
  unfold State.reaches; decide +kernel

/-- Ranges and owners: free, too long, overlapping, of a function with a ring, without the token. -/
theorem wit_RingControl_functions :
    (up.reaches (.host 0) (R.hostqFn 7) ∧ up.hasToken (.host 0) = true ∧ up.hasRing 7 = false ∧
      (∀ h < 7, up.get (F.hostqFnAllotBase h) + up.get (F.hostqFnAllotCount h) ≤ 64)) ∧
    ((ringed 0).reaches (.host 0) (R.hostqFn 0) ∧ (ringed 0).hasRing 0 = true ∧ (ringed 0).reaches (.host 0) (R.hostqFn 7) ∧
      0 < (ringed 0).get (F.hostqFnAllotBase 0) + (ringed 0).get (F.hostqFnAllotCount 0)) ∧
    (let s := withF up [(F.fenceLeaseHolder 5, 2)]; s.reaches (.host 0) (R.hostqFn 0) ∧ s.hasToken (.host 0) = false) ∧
    (up.reaches (.host 0) (R.hostqRingOwner 63) ∧ up.sqFn 63 = 0 ∧ up.get (F.sqStatusState 63) = RING_DISABLED) ∧
    ((ringed 63).reaches (.host 0) (R.hostqRingOwner 63) ∧ (ringed 63).sqFn 63 = 0 ∧
      (ringed 63).get (F.sqStatusState 63) ≠ RING_DISABLED) := by
  unfold State.reaches; decide +kernel

/-- A dispatched entry of SQ 0. -/
def entryOf (op : Nat) : Entry := ⟨1, 0, op, 1, 1, false, false, false, 0, 7, 0, List.replicate 16 0, some (List.replicate 64 0), false⟩

/-- `ringed 0` with an entry and a read. -/
def dispatched (op : Nat) (p : ReadPurpose) : State :=
  let s := ringed 0
  { s with host := { s.host with entries := [entryOf op], reads := [⟨5, 0, 0, 64, p, 0⟩], unsignalled := [(0, 3)] } }

theorem wit_EntryEvents :
    (∀ r ∈ [0, 63], (ringed r).mayFetch r = true ∧ (ringed r).get (F.sqCfgSpace r) = 0 ∧ (ringed r).canIssue ((ringed r).sqFn r) = true) ∧
    up.mayFetch 0 = false ∧
    ((dispatched 0 (.entry 0)).readOf 5 = some ⟨5, 0, 0, 64, .entry 0, 0⟩ ∧
      (dispatched 0 (.entry 0)).get (F.sqStatusState 0) = RING_ENABLED) ∧
    ((dispatched 0 (.descriptor 1)).readOf 5 = some ⟨5, 0, 0, 64, .descriptor 1, 0⟩ ∧ (dispatched 0 (.descriptor 1)).timeUs ≤ 1) ∧
    (∀ op ∈ [0, 2, 6], (dispatched op (.entry 0)).entry (entryOf op).uid = some (entryOf op) ∧ (entryOf op).opcode = op ∧
      (entryOf op).discard = false ∧ (entryOf op).desc.isSome = true) ∧
    ((dispatched 0 (.entry 0)).isOpen 56 = true ∧ (dispatched 6 (.entry 0)).mmu.batches = [] ∧
      (dispatched 2 (.entry 0)).hose.transfers = []) ∧
    (let s := dispatched 0 (.entry 0)
     s.isShut 60 = false ∧ s.get (F.cqCfgIen 0) = 1 ∧ s.get (F.cqCfgTime 0) ≠ 0 ∧ (0, 3) ∈ s.host.unsignalled) ∧
    (∀ bs : List Byte, HostResult.data [] = .data bs → bs.length ≠ 64) := by
  refine ⟨by decide +kernel, by decide +kernel, by decide +kernel, by decide +kernel, by decide +kernel, by decide +kernel,
    by decide +kernel, ?_⟩
  intro bs h
  cases h
  decide

/-- The token at the host with the timer armed, at the port after a GRANT and after a lapse. -/
theorem wit_TokenMoves :
    (up.reaches (.host 0) R.hostqHeartbeat ∧ up.reaches (.host 0) R.hostqToken ∧ up.get F.hostqTokenHolder = 0) ∧
    (let s := withF up [(F.hostqHeartbeatArmed, 1)]; s.get F.hostqHeartbeatArmed = 1 ∧ s.get F.hostqTokenHolder = 0 ∧ s.power = 0) ∧
    up.get F.hostqHeartbeatArmed ≠ 1 ∧
    (∀ how ∈ [1, 2, 3], let s := withF up [(F.hostqTokenHolder, 1), (F.hostqTokenHow, how)]
      s.reaches (.host 0) R.hostqToken ∧ s.get F.hostqTokenHolder = 1 ∧ s.get F.hostqTokenHow = how) := by
  unfold State.reaches; decide +kernel

theorem wit_FunctionsAndLink :
    (let s := { up with host := { up.host with vfEnable := true, fns := List.replicate 8 { PcieFn.reset true with d3hot := true } } }
     (∀ f < 8, (s.fn f).present = true ∧ (s.fn f).d3hot = true) ∧ s.isShut 60 = false ∧ s.host.fns.length = 8 ∧ s.host.vfEnable = true) ∧
    (let s := { up with host := { up.host with linkUp := false }, boot := { up.boot with linkTraining := true } }
     s.host.linkUp = false ∧ s.boot.linkTraining = true ∧ s.isShut 60 = false) ∧
    (let s := withF up [(F.hostqTokenHolder, 1)]; s.host.linkUp = true ∧ s.get F.hostqTokenHolder ≠ 0 ∧ s.get F.pwrStatusPhase = 0) ∧
    (up.power ≠ 2 ∧ up.hostReaches 0 = true ∧ up.get F.bootStatusSafe ≠ 1 ∧ up.mustHold = false ∧ (ringed 0).hostReaches 7 = true ∧
      (ringed 0).mustHold = false ∧ ((ringed 0).fn 7).present = true) ∧
    ((starting up).power ≠ 2 ∧ (starting up).host.linkUp = true ∧ ((starting up).fn 0).present = true ∧
      (starting up).mustHold = false ∧ (starting up).boot.starting = true ∧ (starting up).get F.bootStatusStep ≤ 14) ∧
    up.boot.starting = false := by
  decide +kernel

/-- BAR4: the window's last bytes are beyond what R203 admits; island 60 shut. -/
theorem wit_FunctionsAndLink_bar4 :
    (let s := withF up [(word (R.memcUsable + 4), 1), (word R.hostqBar4Base, 0xF0000000)]
     0x0F000000 + 4 ≤ s.host.bar4Size ∧ s.hostReaches 0 = true ∧ s.mustHold = false ∧ s.isShut 60 = false ∧
      s.bar4Admits (s.rd64 R.hostqBar4Base / s.host.bar4Size * s.host.bar4Size + 0x0F000000) 4 = false) ∧
    (withF up [(F.islandStateState 60, CLOSED)]).isShut 60 = true := by
  decide +kernel

/-- A requester at address 0x10 with EID 8. -/
def who0 : Requester := ⟨0x10, 8, 0⟩

/-- A packet to the device with a wrong PEC, and one to another address. -/
theorem wit_PortPackets :
    (let s := withF up [(F.mgmtCfgAddr, 0x32)]; s.isOpen 2 = true ∧ (0x64 : Byte).toNat = 2 * s.get F.mgmtCfgAddr) ∧
    (([0x64, 0x0F, 0, 0] : List Byte).getD 3 0).toNat ≠ crc8 [0x64, 0x0F, 0] ∧
    ((0x64 : Byte).toNat ≠ 2 * up.get F.mgmtCfgAddr) ∧
    (∃ m : List Byte, m.length = 2048) ∧ (127 < 128) ∧
    (⟨who0, 0, 0, []⟩ : Assembly) ∈ [(⟨who0, 0, 0, []⟩ : Assembly)] ∧
    (∀ n ∈ [0, 1, 2], ([⟨who0, [], [], n⟩] : List MgmtSent) = ⟨who0, [], [], n⟩ :: []) := by
  refine ⟨by decide +kernel, by decide +kernel, by decide +kernel, ⟨List.replicate 2048 0, List.length_replicate⟩, by decide,
    by decide, by decide⟩

theorem wit_ControlAndPldmRequests : up.isOpen 2 = true ∧ up.mgmt.requests = [] ∧
    ((0xF0 : Byte).toNat % 4 < 2 ∧ (1 : Byte) ≠ 0 ∧ (1 : Byte) ≠ 0xFF ∧ 2 ≤ (0xF2 : Byte).toNat % 4) ∧
    (∀ k ∈ [0, 11], bit ((withF up [(F.fenceSensorFailFail, 0xFFF)]).get F.fenceSensorFailFail) k = true) := by
  decide +kernel

theorem wit_VendorMessages : up.isOpen 2 = true ∧ up.mgmt.requests = [] ∧ up.get F.pwrStatusPhase ≠ 3 ∧ up.gkServing = true ∧
    up.power = 0 ∧ up.isShut 1 = false ∧ up.get F.bootStatusSafe ≠ 1 ∧ up.get (F.fenceLeaseHolder 5) ≠ 2 ∧
    { up.boot with mirror := List.replicate 32 0 }.mirror.length = 32 ∧
    ((withF up [(F.fenceLeaseHolder 5, 2)]).get (F.fenceLeaseHolder 5) = 2 ∧ up.host.linkUp = true) ∧
    (let s := withF up [(F.islandStateState 0, CLOSED)]; s.gkServing = false ∧ s.power ≠ 4 ∧ s.isOpen 2 = true) ∧
    ((inPower 1).power ≠ 0 ∧ (inPower 1).gkServing = true ∧ (inPower 1).mgmt.requests = []) ∧
    (up.wakeEnabled 5 = false ∧ (withF up [(F.pwrWakeEnSources, 16)]).wakeEnabled 5 = true) := by
  decide +kernel

/-- `up` with a held line at a PA. -/
def lined (pa : Nat) : State :=
  { up with mem := { up.mem with lines := [⟨0, 0, 0, pa, false, 0, false, false, false, List.replicate 128 0x5A⟩] } }

theorem fills_of_one (f : Fill) : ∃ g ∈ [f], g.pa = f.pa := ⟨f, by simp, rfl⟩

/-- A general PA, the packet ring and the scratch region; the last byte of a line, a whole line. -/
theorem wit_ShedAccesses :
    (up.region 0 = .general ∧ regionAdmits (up.region 0) 0 true = true ∧ up.region (16 * 2 ^ 30 - 1) = .scratch ∧
      regionAdmits (up.region (16 * 2 ^ 30 - 1)) 0 false = false) ∧
    (up.mem.fills = [] ∧ up.line 0 = none ∧ up.keyReady 0 = true ∧ up.isShut (52 + up.sliceOf 0) = false ∧
      up.isOpen (69 + up.channel 0) = true) ∧
    (0 % 128 + 128 ≤ 128 ∧ 127 % 128 + 1 ≤ 128) ∧
    ((lined 0).line 0 = some ⟨0, 0, 0, 0, false, 0, false, false, false, List.replicate 128 0x5A⟩ ∧
      (List.replicate 128 (0x5A : Byte)).length = 128 ∧ (lined 0).keyReady 0 = true ∧
      (lined 0).isShut (52 + (lined 0).sliceOf 0) = false ∧ (lined 0).get (F.shedStatusWriteThrough 0) = 0) ∧
    (⟨0, 0, 1, 0, false, 0, 4, none⟩ : Fill).pa = 0 ∧ up.boot.clearing = none := by
  decide +kernel

theorem wit_MemoryCommands :
    (up.reaches (.host 0) R.shedCmd ∧ up.hasToken (.host 0) = true ∧ up.get F.shedCmdStatusBusy = 0 ∧ up.power = 0 ∧
      up.get F.planStatusPhase = 0) ∧
    ((0 : BitVec 16) ≠ 0x5E1C ∧ (let s := withF (inPower 1) [(F.fenceLeaseHolder 5, 2)]; s.reaches .port R.shedCmd ∧ s.hasToken .port = true ∧ s.power ≠ 0) ∧
      (planning 2 2).get F.planStatusPhase ≠ 0) ∧
    (up.get (F.shedLockWays 0 0) = 0 ∧ (withF up [(F.shedLockWays 3 11, 1)]).get (F.shedLockWays 3 11) ≠ 0) ∧
    (up.isOpen (69 + 0) = true ∧ up.isOpen (69 + 1) = true) ∧
    (up.get (F.memcCfgEcc 0) = 0 ∧ up.get (F.memcCfgEcc 1) = 0) ∧
    (let s := withF up [(F.memcCfgEcc 0, 1)]
     0 < s.usable ∧ s.isOpen 69 = true ∧ s.get (F.memcCfgEcc 0) = 1 ∧ s.channel 0 = 0) := by
  unfold State.reaches; decide +kernel

/-- `up` with allotment a enabled and a cached translation without permissions at level 0, and PF0's fault ring on. -/
def allotted (a : Nat) (rwx : Bool) : State :=
  let s := withF up [(word (R.mmuAllotRoot a), 1), (F.mmuFrCfgEnable 0, 1), (F.mmuFrCfgSizeLog2 0, 6), (F.mmuFrCfgBatchTimeUs 0, 1),
    (F.hostqFnAllotCount 0, 64)]
  { s with mmu := { s.mmu with tlb := [⟨4, a, 0, 4096, 0, rwx, rwx, rwx, false, false, 0⟩] } }

theorem wit_TranslationFaults : ∀ a ∈ [0, 63],
    (let s := allotted a false
     s.isOpen 4 = true ∧ s.isShut 60 = false ∧ cannotRestart 4 .read (.order 0 0 0) = false ∧ s.allotOwner a = some 0 ∧
     s.get (F.mmuFrCfgEnable 0) = 1 ∧ s.isStalled (.order 0 0 0) = false ∧ bit (s.rd64 (R.mmuAllotRoot a)) 0 = true ∧
     (s.cached 4 a 4095).isSome = true ∧ (s.cached 4 a 0).map (fun e => e.r) = some false) ∧
    ((allotted a true).cached 4 a 0).map (fun e => (e.r, e.w, e.x)) = some (true, true, true) ∧
    bit ((withF (allotted a true) [(word (R.mmuAllotRoot a), 0)]).rd64 (R.mmuAllotRoot a)) 0 = false ∧
    (let s := { allotted a true with mmu := { up.mmu with stalls := [⟨.order 0 0 0, 0, 4, a, 0, .read, 0⟩] } }
     s.isStalled (.order 0 0 0) = true) ∧
    2 ^ 48 ≤ (0x1000000000000 : DWord).toNat ∧ (0xFFFFFFFFFFFF : DWord).toNat < 2 ^ 48 := by
  decide +kernel

/-- A batch of PF0 with one record. -/
def batched (p : BatchPhase) : State :=
  let s := allotted 0 true
  { s with mmu := { s.mmu with batches := [⟨0, 7, p, 0, false, [⟨.order 0 0 0, 0, 0, 1, .read, 0, false, 1, 0, 4, 0, 0, 0, 0, false⟩]⟩] } }

theorem wit_FaultsAndInvalidation :
    (up.openBatch 0 = none ∧ ((batched .opened).openBatch 0).isSome = true) ∧
    ((batched .closed).isShut 60 = false ∧
      ((batched .closed).mmu.batches.find? (fun x => x.fn = 0 && x.phase == .closed)).isSome = true ∧ 7 < 2 ^ 32 ∧
      (batched .closed).get (F.mmuFrCfgEnable 0) = 1 ∧
      1 ≤ (batched .closed).freeRun 0 ((batched .closed).ringSlots 0) ((batched .closed).mmu.writePos.getD 0 0)) ∧
    (let x : Stall := ⟨.order 0 0 0, 0, 4, 0, 0, .read, 0⟩
     x ∈ [x] ∧ up.power ≠ 1 ∧ [x].find? (fun y => y.stream == x.stream) = some x) ∧
    up.isStalled .display = false ∧
    (up.reaches (.host 0) R.mmuInval ∧ up.get F.mmuInvalStatusBusy = 0 ∧ up.get F.mmuInvalPagesPages = 0 ∧
      (withF up [(F.mmuInvalPagesPages, 1)]).get F.mmuInvalPagesPages ≠ 0 ∧ up.rd64 R.mmuInvalVa < 2 ^ 48) ∧
    (up.mmu.inval = none ∧ up.mmu.batches = [] ∧ up.mmu.writePos.length = 8 ∧
      (withF up [(F.mmuInvalStatusBusy, 1)]).get F.mmuInvalStatusBusy = 1) ∧
    (∀ f ∈ [0, 7], let s := withF up [(F.mmuFrCfgSizeLog2 f, 12), (F.mmuFrCfgBatchTimeUs f, 1000)]
      s.reaches (.host 0) (R.mmuFrCfg f) ∧ s.get (F.mmuFrCfgEnable f) = 0 ∧ 6 ≤ s.get (F.mmuFrCfgSizeLog2 f) ∧
      s.get (F.mmuFrCfgSizeLog2 f) ≤ 12 ∧ s.get (F.mmuFrCfgBatchMax f) ≤ 2 ^ 12 ∧ 1 ≤ s.get (F.mmuFrCfgBatchTimeUs f) ∧
      s.get (F.mmuFrCfgBatchTimeUs f) ≤ 1000 ∧ s.rd64 (R.mmuFrBase f) % 4096 = 0 ∧
      s.rd (R.mmuFrCfg f) &&& reservedBits (R.mmuFrCfg f) = 0) ∧
    up.get (F.mmuFrCfgSizeLog2 0) < 6 := by
  unfold State.reaches; decide +kernel

/-- A transfer at a channel that may write its next slab. -/
def hosing : State :=
  { up with hose := { transfers := [⟨1, 15, 1, 0, 0, 1, List.replicate 64 0, 0, 0, 0, true, false⟩] } }

theorem wit_HoseChannels :
    ((hosing.running 1 15).isSome = true ∧ (hosing.running 1 15).map hosing.slabReady = some true) ∧
    (let s := withF hosing [(F.islandStateState 68, CLOSED)]; (s.running 1 15).map s.slabReady = some false) ∧
    (up.running 0 11 = none ∧ up.running 0 0 = none) ∧
    (up.reaches (.host 0) (R.hoseReleaseAdd 1 15) ∧ (up.rd (R.hoseCursor 1 15)).toNat = 0 ∧
      (up.rd (R.hoseRelease 1 15)).toNat = 0) ∧
    (up.reaches (.host 0) (R.hoseCfg 1 15) ∧ up.hasToken (.host 0) = true ∧ up.hose.transfers = [] ∧
      getBits (0xE321 : Word) 8 1 = 1 ∧ getBits (0xE321 : Word) 12 4 ≠ 15 ∧ (0xE321 : Word) &&& reservedBits (R.hoseCfg 1 15) = 0) ∧
    (hosing.reaches (.host 0) (R.hoseCfg 1 15) ∧ hosing.hose.transfers ≠ [] ∧ up.hasToken .port = false ∧
      (up.reaches .port (R.hoseCfg 1 15))) ∧
    (getBits (0xF300 : Word) 8 1 = 1 ∧ getBits (0xF300 : Word) 9 1 = 1 ∧ getBits (0xF300 : Word) 12 4 = 15) := by
  unfold State.reaches; decide +kernel

/-- An order of a PROGRAM in class 1 with a descriptor of zeros. -/
def order0 : Order := ⟨1, 0, 0, 0, 1, List.replicate 128 0, 1, 0, 0, [], 0, false, false, none⟩

/-- A base word from its fields CLASS, OP, EXT, TYPE, DST, SRCA, SRCB, SRCC and MOD (Table 13.5). -/
def encode (cls op ext typ dst a b c md : Nat) : Nat :=
  cls + 2 ^ 4 * op + 2 ^ 12 * ext + 2 ^ 17 * typ + 2 ^ 23 * dst + 2 ^ 32 * a + 2 ^ 41 * b + 2 ^ 50 * c + 2 ^ 59 * md

/-- A wave in slot 0 at 1000h with eight vector registers. -/
def wave0 : Wave :=
  ⟨0, 1, 0, 0, 0, 8, 0x1000, 0xFFFFFFFF, [5, 3, 0x204, 0x80000000] ++ List.replicate 28 0, [0xFFFFFFFF, 0xF0, 0, 0, 0, 0, 0, 0],
    [(0, 7), (1, 9), (2, 0xFFFFFFFF), (32, 7), (33, 1)], [], 0, .ready, 0, 0, 0⟩

/-- `wave0` with one acting thread. -/
def wave1 : Wave := { wave0 with exec := 1 }

/-- The line of the instruction cache with a base word and an extension word. -/
def lineOf (v x : Nat) : List Byte := leBytes 8 v ++ leBytes 8 x ++ List.replicate 48 0

/-- `up` with an order and waves on bed 0, the first of them at an instruction. -/
def atBed (v x : Nat) (ws : List Wave) : State :=
  { up with
    bed := {
      up.bed with
      orders := [order0]
      beds := setAt 0 { Bed.reset with waves := ws, icache := [(0, 0x1000, lineOf v x)] } up.bed.beds } }

theorem issues_of {s : State} {n slot : Nat} {w : Wave} {o : Order} {v x : Nat} (bs : List Byte)
    (h : s.isOpen (n + 4) = true ∧ s.wave n slot = some w ∧ s.order w.uid = some o ∧ w.wait = .ready ∧ w.pc % 8 = 0 ∧
      w.pc % 64 ≠ 56 ∧
      (s.bedAt n).icache.find? (fun l => l.1 = o.allot && l.2.1 = w.pc / 64 * 64) = some (o.allot, w.pc / 64 * 64, bs) ∧
      v = bytesAt bs (w.pc % 64) 8 ∧ (x = if iExt v then bytesAt bs (w.pc % 64 + 8) 8 else 0) ∧
      listed (iClass v) (iOp v) = true ∧ iA v ≠ 0x126 ∧ iB v ≠ 0x126 ∧ iC v ≠ 0x126 ∧ (s.bedAt n).locked slot = []) :
    s.issues n slot w o v x := by
  obtain ⟨h1, h2, h3, h4, h5, h6, h7, h8, h9, h10⟩ := h
  exact ⟨h1, h2, h3, h4, h5, h6, ⟨bs, h7, h8, h9⟩, h10⟩

/-- A control instruction of every OP of class 0, with and without EXT, and its extension word. -/
def controls : List (Nat × Nat) :=
  [(encode 0 0 0 0 0 0 0 0 0, 0), (encode 0 1 0 0 0 0 0 0 0, 0), (encode 0 2 0 0 0 0 0 0 0, 0), (encode 0 2 1 0 0 0 0 0 0, 4),
    (encode 0 2 1 0 0 0 0 0 0, 0xFFFFFFF8), (encode 0 3 1 0 0 0x190 0 0 0, 8), (encode 0 3 1 0 0 0x192 0 0 1, 8),
    (encode 0 3 1 0 0 0x197 0 0 3, 8), (encode 0 4 1 0 0 0 0 0 0, 8), (encode 0 5 0 0 0 0 0 0 0, 0),
    (encode 0 6 0 0 0 0 0 0 0, 0), (encode 0 7 0 0 0 0x140 0 0 0, 0), (encode 0 7 0 0 0 0x100 0 0 0, 0),
    (encode 0 8 0 0 0x100 0x190 0 0 0, 0), (encode 0 8 0 0 0x11F 0x197 0 0 1, 0)]

/-- `wave0` beside a wave of its group. -/
def pair (w : Wave) : List Wave := [w, { wave0 with slot := 47 }]

theorem wit_BedControlFlow : (∀ e ∈ controls, (atBed e.1 e.2 (pair wave0)).issues 0 0 wave0 order0 e.1 e.2 ∧
      e.2 / 2 ^ 32 = 0 ∧ iClass e.1 = 0) ∧
    (∀ y ∈ (pair wave0).drop 1, y.slot ≠ (0 : Fin 48).val ∧ y.group = wave0.group ∧ y.wait ≠ .bar) := by
  refine ⟨fun e he => ⟨issues_of (lineOf e.1 e.2) ?_, ?_⟩, by decide⟩ <;> revert e <;> decide +kernel

/-- BRP's test holds and does not hold, SLEEP's count is 0 and is not, the stack is full, one below, and empty. -/
theorem wit_BedControlFlow_cases :
    (let c := (atBed 0 0 (pair wave0)).ctx 0 wave0 order0 0 0
     Nat.land (c.pred 0x190) wave0.exec = wave0.exec ∧ Nat.land (c.pred 0x192) wave0.exec = 0 ∧
      c.src 4 0x140 0 = 0 ∧ c.src 4 0x100 0 ≠ 0 ∧ c.srcOk false 4 0x140 = true ∧ c.srcOk false 4 0x100 = true) ∧
    wave0.stack = [] ∧ ({ wave0 with stack := List.replicate 7 0 } : Wave).stack.length < 8 ∧
    8 ≤ ({ wave0 with stack := List.replicate 8 0 } : Wave).stack.length ∧
    (let w := { wave0 with wait := .sleep }
     (atBed 0 0 [w]).isOpen (0 + 4) = true ∧ (atBed 0 0 [w]).wave 0 0 = some w ∧ w.wait = .sleep) := by
  decide +kernel

/-- The operations of ScalarArithmetic. -/
def scalarOps : List Nat :=
  [0x00, 0x01, 0x02, 0x03, 0x05, 0x06, 0x07, 0x08, 0x09, 0x0A, 0x0B, 0x0C, 0x0D, 0x0E, 0x0F, 0x11, 0x1F, 0x20, 0x21, 0x22]

/-- Every operation into S0 and S31; S0 is 5, S1 is 3, S2 is 204h, S3 is 80000000h, S4 is 0. -/
theorem wit_ScalarArithmetic : ∀ op ∈ scalarOps, ∀ dst ∈ [0x100, 0x11F], ∀ md ∈ [0, 31],
    let v := encode 1 op 0 4 dst 0x100 0x101 0x102 md
    (atBed v 0 [wave0]).issues 0 0 wave0 order0 v 0 ∧ iClass v = 1 ∧ iType v = 4 ∧ iDst v = dst ∧ iOp v = op ∧
    (let c := (atBed v 0 [wave0]).ctx 0 wave0 order0 v 0
     c.srcOk false 4 (iA v) = true ∧ c.srcOk false 4 (iB v) = true ∧ c.srcOk false 4 (iC v) = true ∧
     c.src 4 0x100 0 = 5 ∧ c.src 4 0x103 0 = 2 ^ 31 ∧ c.src 4 0x104 0 = 0 ∧ c.src 4 0x101 0 % 32 + c.src 4 0x102 0 % 64 ≤ 32 ∧
     c.src 4 0x102 0 = 4 + 2 ^ 8 * 2) := by
  intro op ho dst hd md hm
  exact ⟨issues_of (lineOf (encode 1 op 0 4 dst 0x100 0x101 0x102 md) 0) (by revert op dst md; decide +kernel),
    by revert op dst md; decide +kernel⟩

/-- The FP32 operations of VectorArithmetic. -/
def vectorOps : List Nat := [0x01, 0x02, 0x03, 0x04, 0x12, 0x13, 0x14, 0x15, 0x16, 0x17, 0x18, 0x19, 0x1A, 0x1B, 0x1C]

/-- The operations of VectorArithmetic with their TYPE and third operand. -/
def vectorForms : List (Nat × Nat × Nat) :=
  vectorOps.map (fun op => (op, 0, 7)) ++ [(0x10, 0, 0x190), (0x10, 10, 0x197), (0x1D, 7, 0), (0x1E, 1, 0)]

theorem wit_VectorArithmetic : ∀ f ∈ vectorForms, ∀ dst ∈ [0, 7],
    let v := encode 2 f.1 0 f.2.1 dst 0 1 f.2.2 0
    (atBed v 0 [wave0]).issues 0 0 wave0 order0 v 0 ∧ iClass v = 2 ∧ iMod v = 0 ∧ iDst v = dst ∧ dst < wave0.vgprs ∧
    iOp v = f.1 ∧ iType v = f.2.1 ∧
    (let c := (atBed v 0 [wave0]).ctx 0 wave0 order0 v 0
     c.mode = 1 ∧ woTrapNan order0.desc = false ∧ c.srcOk true (iType v) (iA v) = true ∧ c.srcOk true (iType v) (iB v) = true ∧
     (c.srcOk true (iType v) (iC v) = true ∨ isP (iC v) = true) ∧ c.acts 0 = true ∧ c.acts 31 = true) := by
  intro f hf dst hd
  exact ⟨issues_of (lineOf (encode 2 f.1 0 f.2.1 dst 0 1 f.2.2 0) 0) (by revert f dst; decide +kernel),
    by revert f dst; decide +kernel⟩

/-- The forms of ComparesAndLanes: CLASS, OP, TYPE, DST, SRCA and SRCB. -/
def laneForms : List (Nat × Nat × Nat × Nat × Nat × Nat) :=
  ((List.range 9).map (fun op => (3, op, 4, 0x190, 0, 7))) ++ ([0x10, 0x11, 0x12, 0x13].map (fun op => (3, op, 4, 0x197, 0x190, 0x197))) ++
  [(4, 4, 4, 7, 0, 0), (10, 0, 4, 0, 0, 1), (10, 1, 4, 7, 0, 0x15F), (10, 2, 4, 0x100, 0, 0x140), (10, 3, 4, 0, 0x100, 0x15F),
    (10, 4, 4, 0x11F, 0, 0), (10, 5, 4, 0x100, 0, 0), (10, 6, 4, 0x11F, 0, 0), (10, 7, 0, 0x100, 0x190, 0),
    (10, 7, 10, 0x11F, 0x197, 0), (10, 8, 3, 7, 0, 0)]

theorem wit_ComparesAndLanes : ∀ f ∈ laneForms,
    let v := encode f.1 f.2.1 0 f.2.2.1 f.2.2.2.1 f.2.2.2.2.1 f.2.2.2.2.2 0 0
    (atBed v 0 [wave0]).issues 0 0 wave0 order0 v 0 ∧ iClass v = f.1 ∧ iOp v = f.2.1 ∧ iType v = f.2.2.1 ∧ iDst v = f.2.2.2.1 ∧
    (let c := (atBed v 0 [wave0]).ctx 0 wave0 order0 v 0
     (iDst v < wave0.vgprs ∨ (0x100 ≤ iDst v ∧ iDst v ≤ 0x11F) ∨ (isP (iDst v) = true ∧ wave0.pregs.length = 8)) ∧
     (c.srcOk true (iType v) (iA v) = true ∨ isP (iA v) = true) ∧ (c.srcOk true (iType v) (iB v) = true ∨ isP (iB v) = true)) := by
  intro f hf
  exact ⟨issues_of (lineOf (encode f.1 f.2.1 0 f.2.2.1 f.2.2.2.1 f.2.2.2.2.1 f.2.2.2.2.2 0 0) 0) (by revert f; decide +kernel),
    by revert f; decide +kernel⟩

/-- Acting threads with a least and a greatest source, no acting thread, and lanes 0 and 31. -/
theorem wit_ComparesAndLanes_cases :
    (let c := (atBed 0 0 [wave0]).ctx 0 wave0 order0 0 0
     c.mode = 1 ∧ c.acts 0 = true ∧ c.src 4 0x15F 0 = 31 ∧ c.src 4 0x140 0 = 0 ∧
      0 ∈ c.threads.map (fun t => c.src 4 0 t % 2 ^ 32) ∧ 0xFFFFFFFF ∈ c.threads.map (fun t => c.src 4 0 t % 2 ^ 32)) ∧
    (let w := { wave0 with exec := 0 }
     ((atBed 0 0 [w]).ctx 0 w order0 0 0).threads = [] ∧ ((atBed 0 0 [w]).ctx 0 w order0 0 0).acts 0 = false) := by
  decide +kernel

/-- A bed state whose allotment 0 maps the first page with every permission. -/
def mapped (v x : Nat) (ws : List Wave) : State :=
  let s := withF (atBed v x ws) [(word (R.mmuAllotRoot 0), 1)]
  { s with
    mmu := {
      s.mmu with
      tlb := [⟨4, 0, 0, 4096, 0, true, true, true, false, false, 0⟩, ⟨67, 0, 0, 4096, 0, true, true, true, false, false, 0⟩] } }

/-- `wave1` with an address in S6:S7, an image descriptor in S8 to S15 (one texel of FORMAT 2 at 0) and an offset in S16. -/
def waveM (off : Nat) : Wave :=
  { wave1 with
    sregs := [5, 3, 0x204, 0x80000000, 0, 0, 0x40, 0, 0, 0, 0, 64, 2, 0, 0, 0, off] ++ List.replicate 15 0 }

/-- The forms of BedMemoryAccesses: CLASS, OP, TYPE, SRCA, SRCC, MOD, with the bed-memory offset. -/
def memoryForms : List (Nat × Nat × Nat × Nat × Nat × Nat × Nat) :=
  [(5, 0, 4, 0x110, 0, 2, 0xB7FFC), (5, 0, 4, 0x110, 0, 2, 0xB8000), (5, 0, 4, 0x110, 0, 2, 2), (5, 1, 4, 0x110, 0, 2, 0),
    (5, 1, 4, 0x110, 0, 2, 0xB8000), (5, 1, 4, 0x110, 0, 2, 1), (5, 2, 4, 0x110, 0, 0, 0xB7FFC), (6, 0, 4, 0x106, 0, 2, 0),
    (6, 1, 4, 0x106, 0, 2, 0), (6, 2, 4, 0x106, 0, 5, 0), (6, 3, 4, 0x106, 0, 0, 0), (7, 0, 0, 0x104, 0x108, 0, 0),
    (7, 1, 0, 0x104, 0x108, 0, 0), (7, 2, 0, 0x104, 0x108, 0, 0), (7, 2, 0, 0x104, 0x100, 0, 0)]

theorem wit_BedMemoryAccesses : ∀ f ∈ memoryForms,
    let v := encode f.1 f.2.1 0 f.2.2.1 0 f.2.2.2.1 0x100 f.2.2.2.2.1 f.2.2.2.2.2.1
    let w := waveM f.2.2.2.2.2.2
    (mapped v 0 [w]).issues 0 0 w order0 v 0 ∧ iClass v = f.1 ∧ iOp v = f.2.1 ∧ iType v = f.2.2.1 ∧ iDst v = 0 ∧
    iDst v + 4 ≤ w.vgprs ∧ iMod v = f.2.2.2.2.2.1 ∧
    (let c := (mapped v 0 [w]).ctx 0 w order0 v 0
     c.threads = [0] ∧ (if iClass v = 5 then c.offOk = true else c.srcOk true (if iClass v = 7 then 0 else 4) (iA v) = true) ∧
     c.srcOk true (if iClass v = 7 then 0 else 4) (iB v) = true ∧
     c.srcOk true 4 (iC v) = true ∧ (iClass v = 5 → c.bedOff 0 = f.2.2.2.2.2.2) ∧
     (iClass v = 6 → c.pairOk = true ∧ c.va 0 = 0x40) ∧ (iClass v = 7 → c.img.isSome = (iC v == 0x108))) ∧
    ((mapped v 0 [w]).bedAt 0).queue = [] ∧ (mapped v 0 [w]).orderStalled w.uid = false := by
  intro f hf
  refine ⟨issues_of (lineOf (encode f.1 f.2.1 0 f.2.2.1 0 f.2.2.2.1 0x100 f.2.2.2.2.1 f.2.2.2.2.2.1) 0) ?_, ?_⟩ <;>
    revert f <;> decide +kernel

/-- An access to the mapped page: its translation, its read and its write succeed. -/
theorem wit_BedMemoryAccesses_pages :
    let v := encode 6 2 0 4 0 0x106 0x100 0 5
    let u := (mapped v 0 [waveM 0]).afterIssue 0 (waveM 0) v
    let q := u.bedReq 0 1 false
    (translate q 0 0 0x40 .read false u).1.isOk = true ∧ (vaRead q 0 0 0x40 4 .read false (translate q 0 0 0x40 .read false u).2).1.isOk = true ∧
    (translate q 0 0 0x40 .write false u).1.isOk = true ∧
    (vaWrite q 0 0 0x40 [1, 2, 3, 4] false (translate q 0 0 0x40 .write false u).2).1.isNone = true ∧
    (let u1 := (translate q 0 0 0x40 .read false u).2
     let u2 := (translate q 0 0 0x40 .write false u1).2
     u2.hostPage q 0 0 0x40 = false ∧ (vaRead q 0 0 0x40 4 .read false u2).1.isOk = true ∧
     (vaWrite q 0 0 0x40 (leBytes 4 5) false (vaRead q 0 0 0x40 4 .read false u2).2).1.isNone = true) := by
  decide +kernel

/-- The texels of the image are mapped and read. -/
theorem wit_BedMemoryAccesses_texels : ∀ op ∈ [0, 1, 2],
    let v := encode 7 op 0 0 0 0x104 0x104 0x108 0
    let s := mapped v 0 [waveM 0]
    let u := s.afterIssue 0 (waveM 0) v
    let c := s.ctx 0 (waveM 0) order0 v 0
    (match c.img with
     | some i =>
       let t := translateAll (u.bedReq 0 1 false) 0 0 .read ((c.sampleRanges i).flatMap (fun r => [r.1, r.1 + r.2 - 1])) u
       t.1.isNone && (sampleAll c (u.bedReq 0 1 false) i [0] t.2).1.isOk
     | none => false) = true := by
  decide +kernel

/-- A load in flight, without and with an error. -/
theorem wit_BedMemoryAccesses_arrival :
    let s := { atBed 0 0 [wave0] with
      bed := {
        (atBed 0 0 [wave0]).bed with
        beds := setAt 0 { Bed.reset with
          waves := [wave0]
          loads := [⟨0, [7], [(7, 31, 5)], none, 0x1000, 0⟩, ⟨0, [7], [], some ⟨0xF0, 0x42, 4⟩, 0x1000, 0⟩] } up.bed.beds } }
    s.isOpen (0 + 4) = true ∧ (s.bedAt 0).loads[0]? = some ⟨0, [7], [(7, 31, 5)], none, 0x1000, 0⟩ ∧
    (s.bedAt 0).loads[1]? = some ⟨0, [7], [], some ⟨0xF0, 0x42, 4⟩, 0x1000, 0⟩ ∧ s.wave 0 0 = some wave0 ∧ 0 < s.bed.beds.length := by
  decide +kernel

/-- The forms of BedSynchronisation: OP, SRCA, SRCB, SRCC and MOD. -/
def syncForms : List (Nat × Nat × Nat × Nat × Nat) :=
  [(0, 0, 0, 0, 0), (1, 0, 0, 0, 2), (2, 0x140, 0x101, 0, 0), (3, 0x14F, 0x101, 0, 0), (4, 0x14F, 0x101, 0x1FF, 0),
    (5, 0x140, 0x101, 0, 0), (6, 0x150, 0x101, 0, 0), (6, 0x110, 0x101, 0, 0)]

theorem wit_BedSynchronisation : ∀ f ∈ syncForms,
    let v := encode 8 f.1 0 0 0 f.2.1 f.2.2.1 f.2.2.2.1 f.2.2.2.2
    let w := waveM 0xA1
    (atBed v 0 [w]).issues 0 0 w order0 v 0 ∧ iClass v = 8 ∧ iOp v = f.1 ∧ slice (iMod v) 0 2 ≤ 2 ∧
    (let c := (atBed v 0 [w]).ctx 0 w order0 v 0
     2 ≤ f.1 → c.srcOk false 4 (iA v) = true ∧ c.srcOk false 4 (iB v) = true ∧ (f.1 < 6 → c.src 4 (iA v) 0 < 16) ∧
       (f.1 = 6 → c.src 4 (iA v) 0 < 256 ∧ slice (c.src 4 (iA v) 0) 1 3 = 0 ∧
         (atBed v 0 [w]).get (F.hoseCfgOwner (c.src 4 (iA v) 0 % 2) (c.src 4 (iA v) 0 / 16)) < 2 ∧
         (atBed v 0 [w]).isShut (67 + c.src 4 (iA v) 0 % 2) = false)) := by
  intro f hf
  refine ⟨issues_of (lineOf (encode 8 f.1 0 0 0 f.2.1 f.2.2.1 f.2.2.2.1 f.2.2.2.2) 0) ?_, ?_⟩ <;> revert f <;> decide +kernel

/-- Groups at a BAR, posted increments, waits that are met and not met, waiting and other waves. -/
theorem wit_BedSynchronisation_cases :
    ((∃ y ∈ pair wave0, y.slot ≠ (0 : Fin 48).val ∧ y.group = wave0.group ∧ y.wait ≠ .bar) ∧
      ∀ y ∈ [wave0], y.slot ≠ (0 : Fin 48).val → y.group = wave0.group → y.wait = .bar) ∧
    (let s := atBed 0 0 []
     s.isOpen (0 + 4) = true ∧ 0 < s.bed.beds.length ∧ (s.bedAt 0).incs = [] ∧ (s.bedAt 0).sets = [] ∧ (s.bedAt 0).waves = []) ∧
    ({ Bed.reset with incs := [(15, 0xFFFFFFFF)] } : Bed).incs = [(15, 0xFFFFFFFF)] ∧
    (∀ n ∈ [0, 1], let w := { wave0 with wait := .semWait 15 n }
      ((atBed 0 0 [w]).bedAt 0).waves = [w] ∧ (n ≤ (atBed 0 0 [w]).sem 0 15 ∨ (atBed 0 0 [w]).sem 0 15 < n) ∧ w.waits = true) ∧
    ((atBed 0 0 [wave0]).wave 0 0 = some wave0 ∧ wave0.waits = false) := by
  refine ⟨⟨⟨{ wave0 with slot := 47 }, by decide, by decide⟩, by decide⟩, by decide +kernel, by decide, by decide +kernel, by decide +kernel⟩

/-- `wave0` with a scratch offset in S4 and k in S5. -/
def waveT (k : Nat) : Wave := { wave0 with sregs := [5, 3, 0x204, 0x80000000, 0x40000, k] ++ List.replicate 26 0 }

/-- A bed of 8 tile and 12 scratch units. -/
def tensorBed (v x : Nat) (w : Wave) : State := withF (atBed v x [w]) [(F.bedSplitTile 0, 8), (F.bedSplitScratch 0, 12)]

/-- The forms of TensorQueue: OP, TYPE, DST, SRCA, extension word. 16 rows and 32 columns of FP16 at k 4,096; 8 registers. -/
def tensorForms : List (Nat × Nat × Nat × Nat × Nat × Nat) :=
  let dims := 15 * 2 ^ 12 + 31 * 2 ^ 16
  let pairs := 8 + 2 ^ 4 + 2 ^ 8
  [(0, 0, 0, 0x104, 1, pairs + dims + 2 ^ 21 + 8192 * 2 ^ 32 + 8192 * 2 ^ 48),
    (1, 0, 0, 0x104, 1, pairs + dims + 2 ^ 21 + 2 ^ 23 + 8192 * 2 ^ 48), (1, 0, 0, 0x104, 1, pairs + dims + 2 ^ 23 + 2 ^ 24),
    (2, 10, 0, 0x104, 1, dims + 8192 * 2 ^ 32), (3, 0, 0, 0, 1, 7 * 2 ^ 12 + 31 * 2 ^ 16), (4, 3, 0, 0, 1, 7 * 2 ^ 12 + 7),
    (5, 0, 0, 0x140, 0, 0), (5, 0, 0, 0x147, 0, 0)]

theorem wit_TensorQueue : ∀ f ∈ tensorForms,
    let v := encode 9 f.1 f.2.2.2.2.1 f.2.1 f.2.2.1 f.2.2.2.1 0x104 0x105 0
    let x := f.2.2.2.2.2
    (tensorBed v x (waveT 4096)).issues 0 0 (waveT 4096) order0 v x ∧ iClass v = 9 ∧ iOp v = f.1 ∧ iType v = f.2.1 ∧
    ((tensorBed v x (waveT 4096)).bedAt 0).queue.length < 8 ∧ slice x 28 4 = 0 := by
  intro f hf
  refine ⟨issues_of (lineOf (encode 9 f.1 f.2.2.2.2.1 f.2.1 f.2.2.1 f.2.2.2.1 0x104 0x105 0) f.2.2.2.2.2) ?_, ?_⟩ <;>
    revert f <;> decide +kernel

/-- The operands, types and byte ranges of those forms. -/
theorem wit_TensorQueue_forms :
    let dims := 15 * 2 ^ 12 + 31 * 2 ^ 16
    let pairs := 8 + 2 ^ 4 + 2 ^ 8
    let x0 := pairs + dims + 2 ^ 21 + 8192 * 2 ^ 32 + 8192 * 2 ^ 48
    let x1 := pairs + dims + 2 ^ 21 + 2 ^ 23 + 8192 * 2 ^ 48
    let x2 := pairs + dims + 2 ^ 23 + 2 ^ 24
    let x3 := dims + 8192 * 2 ^ 32
    let c := (tensorBed 0 0 (waveT 4096)).ctx 0 (waveT 4096) order0 (encode 9 0 1 0 0 0x104 0x104 0x105 0) x0
    (c.tensorSrc 0x104 = true ∧ c.tensorSrc 0x105 = true ∧ c.src 4 0x105 0 = 4096 ∧ c.src 4 0x104 0 = 8 * 0x8000) ∧
    (tRelu x0 = false ∧ tClear x0 = true ∧ tillerPair (tTypeA x0) (tTypeB x0) = some 0 ∧ tTypeA x0 ≠ 10 ∧ tSpA x0 = false ∧
      tSpB x0 = false ∧ tCh x0 = 0 ∧ tTrans x0 = true ∧ tStrideA x0 = 8192 ∧ tStrideB x0 = 8192 ∧ tM x0 = 16 ∧ tN x0 = 32 ∧
      packBytes 1 4096 ≤ 8192 ∧ 31 * 8192 + 8192 ≤ 12 * 0x8000) ∧
    (tSpA x1 = true ∧ tSpB x1 = false ∧ tTrans x1 = true ∧ tStrideA x1 = 0 ∧ tStrideB x1 = 8192) ∧
    (tSpA x2 = true ∧ tSpB x2 = true ∧ tTrans x2 = false ∧ tStrideA x2 = 0 ∧ tStrideB x2 = 0 ∧ tRelu x2 = false ∧ tClear x2 = true) ∧
    (tClear x3 = false ∧ tSpA x3 = false ∧ tSpB x3 = false ∧ tStrideA x3 % 4 = 0 ∧ packBytes 10 (tN x3) ≤ 8192 ∧
      c.srcOk false 0 0x104 = true) ∧
    0 + tM (7 * 2 ^ 12 + 31 * 2 ^ 16) ≤ (waveT 4096).vgprs := by
  decide +kernel

theorem wit_TensorQueue_entries :
    (let q : TensorEntry := ⟨0, 1, 0, 0x1000, encode 9 4 0 3 0 0 0 0 0, 7, 1, 0, 0, [5]⟩
     let b := { Bed.reset with waves := [wave0], queue := [q] }
     b.queue = q :: [] ∧ iOp q.word = 4 ∧ bit q.a 0 = true ∧ b.banks.length = 8 ∧ (atBed 0 0 [wave0]).order q.uid = some order0 ∧
       (b.queue.filter (fun q => q.slot = wave0.slot)).length = 1) ∧
    up.isOpen (0 + 4) = true ∧ (up.bedAt 0).queue = [] ∧
    (up.reaches (.host 0) (R.bedTrap 0) ∧ up.reaches (.host 0) (R.bedTrap 47) ∧ up.reaches (.host 0) R.numxClear ∧
      (47 : BitVec 6).toNat < 48) := by
  unfold State.reaches; decide +kernel

/-- A descriptor of OP over two rows of one FP32 element, tiles of one row, and START_TILE; for OP 9 two tiles of a
one-wave group of 8 registers. -/
def descOf (op start mask : Nat) : List Byte :=
  if op = 9 then leBytes 4 9 ++ List.replicate 8 0 ++ leBytes 4 start ++ leBytes 8 mask ++ List.replicate 32 0 ++ [2, 0, 0, 0, 1, 0, 8, 0] ++ List.replicate 64 0
  else leBytes 4 op ++ List.replicate 8 0 ++ leBytes 4 start ++ leBytes 8 mask ++ List.replicate 32 0 ++ [2, 0, 1, 0, 0, 0, 0, 0] ++
    List.replicate 16 0 ++ [4, 0, 0, 0, 4, 0, 0, 0, 4, 0, 0, 0, 0, 0, 0x80, 0x3F, 1, 0, 0, 0] ++ List.replicate 28 0

/-- A dispatched WORK entry for a plot. -/
def workEntry (plot : Nat) (d : List Byte) : Entry := ⟨1, 0, 1, 1, 1, false, false, false, plot, 7, 0, List.replicate 16 0, some d, false⟩

/-- `up` with that entry and two plots beside the fallback's: 1 with a ROLE that takes no built-in operation, 2 with no wave. -/
def working (plot : Nat) (d : List Byte) : State :=
  let s := withF up [(F.bedSplitScratch 0, 12), (word (R.mmuAllotRoot 0), 1)]
  { s with
    host := { s.host with entries := [workEntry plot d] }
    plan := { s.plan with active := { fallbackCfg with plots := [⟨0, 3, 7, 2 ^ 48 - 1, 0, 48⟩, ⟨1, 0, 7, 1, 0, 48⟩, ⟨2, 3, 7, 1, 0, 0⟩] } } }

/-- For every OP: the entry's hypotheses, and START_TILE below and equal to T for the ones the small descriptor suits. -/
theorem wit_WorkOrderChecks :
    (∀ op ∈ [1, 2, 3, 4, 5, 6, 7, 8, 9], let s := working 0 (descOf op 0 1)
      s.entry 1 = some (workEntry 0 (descOf op 0 1)) ∧ woOp (descOf op 0 1) = op ∧ s.isOpen 56 = true ∧ s.order 1 = none ∧
      s.plotCfg 0 = some ⟨0, 3, 7, 2 ^ 48 - 1, 0, 48⟩) ∧
    (∀ op ∈ [5, 9], ∀ start ∈ [0, 2], let s := working 0 (descOf op start 1)
      woDescOk (descOf op start 1) = true ∧ roleOk ⟨0, 3, 7, 2 ^ 48 - 1, 0, 48⟩ (descOf op start 1) = true ∧
      s.eligible ⟨0, 3, 7, 2 ^ 48 - 1, 0, 48⟩ 1 = [0] ∧ woT (descOf op start 1) = 2 ∧
      woNeedBits (descOf op start 1) ≤ s.get (F.bedSplitScratch 0) * 0x8000 * 8 ∧ groupFits 1 8 48 = true) := by
  decide +kernel

/-- Each failing check: the fields, the role, no bed, no scratch, a group that does not fit. -/
theorem wit_WorkOrderChecks_failing :
    woDescOk (descOf 1 0 1) = false ∧ roleOk ⟨1, 0, 7, 1, 0, 48⟩ (descOf 5 0 1) = false ∧
    (working 1 (descOf 5 0 1)).plotCfg 1 = some ⟨1, 0, 7, 1, 0, 48⟩ ∧
    (working 2 (descOf 5 0 2)).eligible ⟨2, 3, 7, 1, 0, 0⟩ 2 = [] ∧
    (let s := withF (working 0 (descOf 5 0 1)) [(F.bedSplitScratch 0, 0)]
     ¬ woNeedBits (descOf 5 0 1) ≤ s.get (F.bedSplitScratch 0) * 0x8000 * 8) ∧
    groupFits 1 8 0 = false ∧ (working 2 (descOf 9 0 1)).eligible ⟨2, 3, 7, 1, 0, 0⟩ 1 = [0] := by
  decide +kernel

/-- An order of two tiles on bed 0 with an OP. -/
def tileOrder (op : Nat) : Order := ⟨1, 0, 0, 0, 1, descOf op 0 1, 2, 0, 0, [], 0, false, false, none⟩

/-- `working` with that order, its memory mapped for the hose engines. -/
def tiling (op : Nat) (b : Bed) : State :=
  let s := working 0 (descOf op 0 1)
  { s with
    bed := { s.bed with orders := [tileOrder op], beds := setAt 0 b s.bed.beds }
    mmu := {
      s.mmu with
      tlb := [⟨67, 0, 0, 4096, 0, true, true, true, false, false, 0⟩, ⟨68, 0, 0, 4096, 0, true, true, true, false, false, 0⟩] } }

/-- Bed 0 is the lowest-numbered bed of the order, bed 1 is not, and without an order no bed is. -/
theorem wit_Tiles_start :
    up.nextOrder 0 = none ∧ 0 < up.bed.beds.length ∧
    (∀ op ∈ [5, 9], let s := tiling op Bed.reset
      s.nextOrder 0 = some (tileOrder op) ∧ s.order 1 = some (tileOrder op) ∧ s.rakeJob 1 = none ∧
      (s.bedsFor (tileOrder op)).find? (fun k => s.canTake k (tileOrder op) 48) = some 0 ∧
      (tileOrder op).isBuiltin = (op == 5) ∧ (tileOrder op).isRake = false ∧ s.orderStalled 1 = false ∧
      s.isShut (s.mover (tileOrder op)).q.island = false) := by
  decide +kernel

/-- A PROGRAM tile: its argument block is read, and its one wave has a place. -/
theorem wit_Tiles_program :
    let s := tiling 9 Bed.reset
    let o := tileOrder 9
    let r := vaRead (s.mover o).q 0 0 (woVa o.desc 1 + 64 * o.next) 64 .read false s
    r.1.isOk = true ∧ (r.2.bedAt 0).freeGroup = some 0 ∧ r.2.bed = s.bed ∧
    (placeWaves (launched 1 0 0 (woSize o.desc 3) (woVa o.desc 0) (List.replicate 16 0)) (woSize o.desc 3) (woSize o.desc 2) 0 []).isSome = true := by
  decide +kernel

/-- A built-in tile: its operands are read, no NaN traps, its outputs are written, and one tile is left. -/
theorem wit_Tiles_complete :
    let s := tiling 5 { Bed.reset with built := some ⟨1, 0, 1, false⟩ }
    let o := tileOrder 5
    (s.bedAt 0).built = some ⟨1, 0, 1, false⟩ ∧ s.isOpen (0 + 4) = true ∧ (s.bedAt 0).yielding = false ∧ o.ending = none ∧
    woTrapOvf o.desc = false ∧ (advance (o.later.length + 1) o.prefix_ (0 :: o.later)).1 < o.total ∧
    (match tileWork (s.mover o) 0 (s.bedAt 0).gens s with
     | (.ok w, s1) => w.out.nan.isNone && (writePieces (s.mover o) w.pieces s1).1.isNone &&
         decide ((writePieces (s.mover o) w.pieces s1).2.bed = s.bed)
     | _ => false) = true := by
  decide +kernel

/-- Beds that are asked to yield, that hold a saved state and are idle, and that are not. -/
theorem wit_Tiles_yield :
    (let s := tiling 5 { Bed.reset with yielding := true }
     (s.bedAt 0).yielding = true ∧ s.isOpen (0 + 4) = true ∧ (s.bedAt 0).loads = [] ∧ (s.bedAt 0).queue = []) ∧
    (let v : BedSave := ⟨[wave0], [], [], [], none, [], [(bedBase 0, 5)]⟩
     let s := tiling 5 { Bed.reset with saved := some v }
     (s.bedAt 0).saved = some v ∧ (s.bedAt 0).idle = true ∧ s.urgentWaits 0 = false ∧
       v.mem.filter (fun x => x.1 = bedBase 0) = [(bedBase 0, 5)] ∧
       ((tiling 5 { Bed.reset with saved := some v, built := some ⟨1, 0, 1, false⟩ }).bedAt 0).idle = false) := by
  decide +kernel

/-- Bytes of a record: `n` bytes, 0 but for the values placed at offsets with their widths. -/
def record (n : Nat) (l : List (Nat × Nat × Nat)) : List Byte :=
  (List.range n).map (fun i => match l.find? (fun e => e.1 ≤ i && i < e.1 + e.2.1) with
    | some e => BitVec.ofNat 8 (e.2.2 / 2 ^ (8 * (i - e.1)))
    | none => 0)

/-- A rake descriptor of a MODE over two 32-pixel tiles, with one target whose table is at 400h and BIN at C00h. -/
def rakeDesc (fusion : Bool) (start bins : Nat) : List Byte :=
  record 128 ([(0, 4, 2 + (if fusion then 1 else 0)), (8, 4, start), (0x10, 8, 1), (0x20, 8, 0xC00), (0x28, 4, bins),
    (0x2C, 2, 64), (0x2E, 2, 32), (0x30, 8, 0x400), (0x48, 4, 1 + 8 * 2 ^ 8)] ++ (if fusion then [(0x68, 4, 0x3F800000)] else []))

/-- A target of FORMAT 0 at 0 with a pitch that holds 64 pixels. -/
def target0 : List Byte := record 32 [(8, 4, 1024)]

/-- `up` with a dispatched RAKE entry for a plot, the job, and its memory mapped. -/
def raking (plot : Nat) (d : List Byte) (bytes : Memory) : State :=
  let s := withDram bytes (withF up [(F.bedSplitTile 0, 8), (word (R.mmuAllotRoot 0), 1)])
  { s with
    host := { s.host with entries := [{ workEntry plot d with opcode := 3 }] }
    plan := { s.plan with active := { fallbackCfg with plots := [⟨0, 3, 7, 2 ^ 48 - 1, 0, 48⟩, ⟨1, 1, 7, 1, 0, 48⟩, ⟨2, 3, 7, 1, 0, 0⟩] } }
    mmu := {
      s.mmu with
      tlb := (List.range 2).map (fun k => ⟨65, 0, 4096 * k, 4096, 4096 * k, true, true, true, false, false, 0⟩) } }

/-- The target table in DRAM. -/
def tableDram : Memory := Memory.write ramFill [] 0x400 target0

/-- Both modes: the entry, its descriptor, its target table read and right, START_TILE below and equal to T. -/
theorem wit_RakeJobs : ∀ m ∈ [false, true], ∀ start ∈ [0, 2],
    let d := rakeDesc m start 16
    let s := raking 0 d tableDram
    (s.entry 1).isSome = true ∧ rkFusion d = m ∧ s.isOpen 56 = true ∧ s.order 1 = none ∧ s.rakeJob 1 = none ∧ s.isOpen 65 = true ∧
    s.isStalled (.rake 1) = false ∧ s.plotCfg 0 = some ⟨0, 3, 7, 2 ^ 48 - 1, 0, 48⟩ ∧ rkDescOk d 32 = true ∧ tileEdge 0 = 32 ∧
    rkT d 32 = 2 ∧
    (let r := vaRead s.rakeReq (s.sqFn 0) (s.get (F.sqCfgAllot 0)) (rkTargetsVa d) (32 * rkTargets d) .read false s
     (match r.1 with
      | .ok bs => splitTargets (rkTargets d) bs
      | .error _ => []) = [target0] ∧ r.2.eligible ⟨0, 3, 7, 2 ^ 48 - 1, 0, 48⟩ (rkMask d) = [0] ∧
      32 * 32 * tgBytes target0 ≤ r.2.get (F.bedSplitTile 0) * 0x8000) ∧
    targetsOk d [target0] = true ∧ groupFits (slice (rkGroup d) 0 5) (slice (rkGroup d) 8 9) 48 = true := by
  decide +kernel

/-- Each failing check. -/
theorem wit_RakeJobs_failing :
    rkDescOk (record 128 []) 32 = false ∧ targetsOk (rakeDesc false 0 16) [record 32 []] = false ∧
    ((raking 1 (rakeDesc false 0 16) []).plotCfg 1 = some ⟨1, 1, 7, 1, 0, 48⟩ ∧ (1 ≠ 0 ∧ 1 ≠ 3)) ∧
    (raking 2 (record 128 [(0x10, 8, 2)]) []).eligible ⟨2, 3, 7, 1, 0, 0⟩ 2 = [] ∧
    ¬ 32 * 32 * tgBytes target0 ≤ (withF up [(F.bedSplitTile 0, 0)]).get (F.bedSplitTile 0) * 0x8000 ∧ groupFits 1 8 0 = false := by
  decide +kernel

/-- A target that is not kept. -/
def discarded : List Byte := record 32 [(6, 1, 0x40)]

/-- The order of a rake job. -/
def rakeOrder (bins : Nat) : Order :=
  ⟨1, 0, 0, 0, 1, rakeOrderDesc (rakeDesc false 0 bins), 2, 1, 0, [], 0, false, false, none⟩

/-- `raking` with the job in a phase, its next tile shaded on bed 0. -/
def rakeJobs (phase bins : Nat) : State :=
  let s := raking 0 (rakeDesc false 0 bins) []
  let b : Bed := { Bed.reset with groups := [(0, ⟨1, 0, 1, true⟩)] }
  { s with
    rake := { jobs := [⟨1, rakeDesc false 0 bins, [discarded], 32, phase, [(16, 0), (16, 0)], if phase = 2 then [(0, 0)] else []⟩] }
    bed := { s.bed with orders := [rakeOrder bins], beds := setAt 0 b s.bed.beds } }

/-- Binning with lists that fit and that do not; no job in binning. -/
theorem wit_RakeJobs_binning :
    up.rake.jobs = [] ∧
    (∀ bins ∈ [15, 16], let s := rakeJobs 1 bins
      (s.rake.jobs.find? (fun j => j.phase == 1)).isSome = true ∧ (s.order 1).isSome = true ∧ s.isOpen 65 = true ∧ s.orderStalled 1 = false ∧
      (match s.rake.jobs.find? (fun j => j.phase == 1), s.order 1 with
       | some j, some o =>
         let r := binRecords j o (rkPrims j.desc) 0 s
         let lists := tileLists o.total []
         r.1.isOk && decide (r.2.rake = s.rake) && decide (8 * o.total = 16) && decide ((lists.map List.length).foldl (· + ·) 0 = 0) &&
           decide (rkBinBytes j.desc = bins) && (bins == 15 || ((writeBins j o [] lists r.2).1.isNone &&
             decide ((writeBins j o [] lists r.2).2.rake = s.rake)))
       | _, _ => false) = true) := by
  decide +kernel

/-- A resolve whose targets are written with a tile to come; no job, and a next tile that is not shaded. -/
theorem wit_RakeJobs_resolve :
    up.rakeJob 1 = none ∧ ((rakeJobs 1 16).rakeJob 1).elim false (fun j => j.shaded.isEmpty) = true ∧
    (let s := rakeJobs 2 16
     s.holdsTile 0 1 0 = true ∧ (s.bedAt 0).yielding = false ∧ (rakeOrder 16).later = [] ∧ (rakeOrder 16).ending = none ∧
     woTrapOvf (rakeOrder 16).desc = false ∧ (rakeOrder 16).prefix_ + 1 < (rakeOrder 16).total ∧ s.orderStalled 1 = false ∧
     s.order 1 = some (rakeOrder 16) ∧
     (match s.rakeJob 1 with
      | some j => decide (j.shaded.find? (fun x => x.1 = 0) = some (0, 0)) && decide (j.targets = [discarded])
      | none => false) = true) := by
  decide +kernel

/-- That resolve's writes succeed. -/
theorem wit_RakeJobs_discard (j : RakeJob) (o : Order) (s : State) : resolveTargets j o 0 0 0 [discarded] s = (none, s) := by
  have h : tgDiscard discarded = true := by decide +kernel
  simp [resolveTargets, h]

/-- A display record of 2 by 2 pixels and a sink of 4 lanes at rate 2 that trains with 2 lanes at rate 1. -/
def disp0 : DisplayCfg := ⟨2, 2, 4, 4, 1, 1, 1, 1, 1000, 4, 2, 0, 0, 0⟩

/-- `up` with that display, a trained link, and a mapped frame buffer at VA 40h. -/
def lit (works : List (Nat × Nat)) (l : List (Field × Nat)) : State :=
  let s := withF up ([(F.dispStatusLink, 2), (F.dispCtrlEnable, 1), (word R.dispFbCur, 0x40), (word (R.mmuAllotRoot 0), 1)] ++ l)
  { s with
    plan := { s.plan with active := { fallbackCfg with display := some disp0 } }
    disp := { s.disp with sink := some ⟨4, 2, works⟩, line := 1, idle := false, muted := false }
    mmu := { s.mmu with tlb := [⟨71, 0, 0, 4096, 0, true, true, true, true, false, 0⟩] } }

theorem wit_DisplayRules :
    (let s := lit [(2, 1)] []
     s.plan.active.display = some disp0 ∧ s.disp.sink = some ⟨4, 2, [(2, 1)]⟩ ∧
      (trainOrder disp0 ⟨4, 2, [(2, 1)]⟩).find? (fun c => [(2, 1)].contains c && carries disp0 c.1 c.2) = some (2, 1) ∧
      (trainOrder disp0 ⟨4, 2, []⟩).find? (fun c => ([] : List (Nat × Nat)).contains c && carries disp0 c.1 c.2) = none) ∧
    (up.isOpen 71 = true ∧ up.isShut 71 = false ∧ up.disp.sink = none ∧ up.plan.active.display = none ∧
      (withF up [(F.islandStateState 71, CLOSED)]).isOpen 71 = false) ∧
    (let s := lit [(0, 0)] []
     s.disp.sink ≠ none ∧ s.get F.dispStatusLink = 2 ∧ (s.get F.dispStatusLanes, s.get F.dispStatusRate) ∈ [(0, 0)] ∧
      (s.get F.dispStatusLanes, s.get F.dispStatusRate) ∉ ([] : List (Nat × Nat))) ∧
    (up.reaches (.host 0) R.dispCtrl ∧ up.reaches (.host 0) (R.dispFbNext + 4) ∧ (0xFFFF : Word).toNat < 2 ^ 16 ∧
      up.reaches (.host 0) R.dispAuxCmd ∧ isPf0 (.host 0) = true ∧ isPf0 (.host 1) = false) := by
  unfold State.reaches; decide +kernel

/-- A frame start with and without an armed flip, a line that is sent, one that is black, one that faults. -/
theorem wit_DisplayRules_frames :
    (let s := lit [] [(F.dispStatusFlipPending, 1)]
     s.isOpen 71 = true ∧ s.disp.idle = false ∧ s.get F.dispStatusLink = 2 ∧ s.get F.dispStatusFlipPending = 1 ∧ s.isShut 57 = false) ∧
    (let s := lit [] []; s.get F.dispStatusFlipPending ≠ 1) ∧
    (let s := lit [] []
     s.disp.line < disp0.vActive ∧ s.get F.dispCtrlEnable = 1 ∧ s.rd64 R.dispFbCur ≠ 0 ∧ s.disp.muted = false ∧
      (readLine disp0 s.disp.line (s.put F.dispStatusVblank 0)).1.isOk = true ∧
      (readLine disp0 s.disp.line (s.put F.dispStatusVblank 0)).2.disp = s.disp) ∧
    (let s := lit [] [(F.dispCtrlEnable, 0)]; s.get F.dispCtrlEnable = 0) ∧
    (let s := withF (lit [] []) [(word (R.mmuAllotRoot 0), 0)]
     (match (readLine disp0 s.disp.line (s.put F.dispStatusVblank 0)).1 with
      | .error (.fault _ _ _) => true
      | _ => false) = true ∧ (readLine disp0 s.disp.line (s.put F.dispStatusVblank 0)).2.disp = s.disp) := by
  decide +kernel

theorem wit_DisplayRules_aux :
    (up.get F.dispAuxStatusBusy = 0 ∧ up.disp.sink = none ∧ (lit [] []).disp.sink ≠ none ∧ (lit [] []).get F.dispAuxStatusBusy = 0 ∧
      (withF up [(F.dispAuxStatusBusy, 1)]).get F.dispAuxStatusBusy = 1 ∧ up.disp.aux = none) ∧
    ({ up.disp with aux := some (0, 5, 16) } : DisplayUnit).aux = some (0, 5, 16) ∧ (List.replicate 16 (0 : Byte)).length = 16 := by
  decide +kernel

/-- A frame without FCS: destination, source, and what follows, padded to 60 bytes. -/
def frameOf (dst src : Nat) (rest : List Byte) : List Byte :=
  let d := beBytes 6 dst ++ beBytes 6 src ++ rest
  d ++ List.replicate (60 - d.length) 0

/-- `up` with VLAN 1 on ports 0 and 1 and the virtual NIC, port 0 of four sub-ports, ports 1 and 2 of one, all links up, an
intake plan of TIME_SRC 0 whose slot 63 is VALID and runs for UDP port 5004 of 10.0.0.1. -/
def switched : State :=
  let s := withF up [(F.intakePortCfgMode 0, 5), (F.intakePortCfgMode 1, 1), (F.intakePortCfgMode 2, 1), (F.intakePortStatusLink 0, 15),
    (F.intakePortStatusLink 1, 1), (F.intakePortStatusLink 2, 1), (F.intakePortCfgPvid 0, 1), (F.intakePortCfgPvid 1, 1),
    (F.intakePortCfgPvid 2, 1), (F.intakeVlanVid 0, 1), (F.intakeVlanMember 0, 0x23), (F.intakeVlanValid 0, 1),
    (word R.intakeMac, 0xAA), (F.intakeSlotStateState 63, 2), (F.intakeMatchPortsDstUdp 63, 5004),
    (word (R.intakeMatchDstIp 63 0), 0x0100000A), (F.intakeSlotCfgPt 63, 96), (F.intakeSwCfgAgeS, 1)]
  { s with
    plan := { s.plan with active := { fallbackCfg with
      intake := some ⟨32, 0, 64, 0, 0, List.replicate 63 ⟨false, 0, 0, false, 0, 0, 0, 0, false⟩ ++ [⟨true, 0, 0, false, 4, 0, 0, 2, false⟩]⟩ } } }

/-- An IPv4 UDP datagram to that slot. -/
def udpBody : List Byte :=
  [0x08, 0x00, 0x45, 0, 0, 32, 0, 0, 0, 0, 64, 17, 0, 0, 10, 0, 0, 9, 10, 0, 0, 1, 0x10, 0, 0x13, 0x8C, 0, 12, 0, 0, 1, 2, 3, 4]

/-- The received frame of a frame without FCS. -/
def withFcs (d : List Byte) : List Byte := d ++ fcsOf d

/-- Frames at port 0: short, damaged, PAUSE, time, in no VLAN, at a port outside the VLAN, for a slot, for the virtual NIC,
for a learned port, for the receiving port, unknown. -/
theorem wit_SwitchRules_receive :
    let s := switched
    let f := fun d : List Byte => parseFrame (s.get (F.intakePortCfgPvid 0)) d
    let s1 := countPort 0 0 s
    (s.isOpen 61 = true ∧ s.power ≠ 1 ∧ s.pwr.frames = [] ∧ 3 < s.subPorts 0 ∧ bit (s.get (F.intakePortStatusLink 0)) 3 = true ∧
      ¬ 3 < s.subPorts 1) ∧
    (let d := frameOf 0x020000000002 0x020000000001 [0x12, 0x34]
     (withFcs d).length = 64 ∧ (withFcs d).take 60 = d ∧ (withFcs d).drop 60 = fcsOf d ∧ ¬ 64 ≤ d.length ∧
      be16 (f d).body 0 ≠ 0x8808 ∧ s1.isTime (f d) = false ∧ s1.vlanOf (f d).vid = some 0 ∧
      bit (s1.get (F.intakeVlanMember 0)) 0 = true ∧ bit (s1.get (F.intakeVlanMember 0)) 2 = false ∧
      parseUdp (f d).body = none ∧ (f d).dst ≠ s1.rd64 R.intakeMac) ∧
    (frameOf 0x020000000002 0x020000000001 [0x12, 0x34] ++ [0, 0, 0, 0]).drop 60 ≠ fcsOf (frameOf 0x020000000002 0x020000000001 [0x12, 0x34]) ∧
    be16 (f (frameOf 0x0180C2000001 1 [0x88, 0x08])).body 0 = 0x8808 ∧
    s1.isTime (f (frameOf 0x0180C200000E 1 [0x88, 0xF7])) = true ∧
    (s1.vlanOf (f (frameOf 2 1 [0x81, 0x00, 0x00, 0x02, 0x12, 0x34])).vid = none) ∧
    (let d := frameOf 2 1 udpBody
     let u := parseUdp (f d).body
     u.isSome = true ∧ (match u with | some x => s1.matchSlot 0 1 x | none => none) = some (63, false) ∧ isGroup (f d).dst = false ∧
      s.isShut 62 = false) ∧
    (f (frameOf 0xAA 1 [0x12, 0x34])).dst = s1.rd64 R.intakeMac ∧
    (let e : MacEntry := ⟨1, 2, 4⟩
     [e].find? (fun e => e.vid = (f (frameOf 2 1 [0x12, 0x34])).vid && e.mac = (f (frameOf 2 1 [0x12, 0x34])).dst) = some e) := by
  decide +kernel

/-- A frame that waits for a destination. -/
def queued (dest : Nat) : State :=
  { switched with switch := { switched.switch with queues := [⟨dest, 7, 0, 0, parseFrame 1 (frameOf 2 1 [0x12, 0x34])⟩] } }

theorem wit_SwitchRules :
    ((queued 4).mayTransmit 4 = true ∧ (∀ k < 8, (queued 4).shaped 4 k = false) ∧ (queued 4).servedQueue 4 = some 7 ∧
      switched.servedQueue 4 = none ∧ switched.mayTransmit 8 = true ∧ switched.mayTransmit 15 = false) ∧
    ((queued 4).switch.queues.map (fun x => x.dest) = [4] ∧ (queued 16).switch.queues.map (fun x => x.dest) = [16] ∧
      (queued 16).get F.intakeVnicCfgEn = 0) ∧
    (switched.isShut 61 = false ∧ switched.get F.intakeSwCfgAgeS ≠ 0 ∧ (withF switched [(F.intakeSwCfgAgeS, 0)]).get F.intakeSwCfgAgeS = 0 ∧
      switched.subPorts 1 = 1 ∧ switched.subPorts 0 = 4) := by
  decide +kernel

theorem shaped_queued (k : Nat) : (queued 4).shaped 16 k = false := rfl

/-- The virtual NIC's rings: valid and invalid tails; a descriptor with END and its frame are read. -/
theorem wit_SwitchRules_vnic :
    let s := withF (ringed 0) [(F.intakeVnicCfgEn, 1), (F.intakeVnicCfgSizeLog2, 6)]
    (s.reaches (.host 0) R.intakeVnicRxTail ∧ s.reaches (.host 0) R.intakeVnicTxTail ∧ isPf0 (.host 0) = true ∧
      s.get F.intakeVnicCfgEn = 1 ∧ s.vnicSize = 64 ∧ s.switch.txHead = 0 ∧ isPf0 (.host 1) = false) ∧
    (let t := { s with mem := { s.mem with host := Memory.write ramFill [] 0 (record 16 [(8, 2, 60), (0xA, 2, 2)]) } }
     (match hostRead 0 0 16 t with
      | some d => bit (bytesAt d 0xA 2) 1 && (hostRead 0 (bytesAt d 0 8) (bytesAt d 8 2) t).isSome
      | none => false) = true) := by
  unfold State.reaches; decide +kernel

theorem wit_SwitchRules_time :
    (switched.isOpen 57 = true ∧ switched.plan.active.intake.isSome = true ∧ switched.plan.active.intake.elim 2 (fun k => k.timeSrc) = 0 ∧
      up.plan.active.intake = none ∧ (500 < (501 : Int) ∧ (-1000001 : Int) < -1000000)) ∧
    (∀ st < 4, (withF switched [(F.intakeTimeStatusState, st)]).get F.intakeTimeStatusState = st) ∧
    (15 ≤ ({ up.switch with good := 15 } : SwitchUnit).good) := by
  decide +kernel

/-- `up` whose plan has slot 63 VALID for H.265 in a ring of two, and whose slot 63 is in a state, its registers set. -/
def streaming (st : Nat) (srtp : Bool) (l : List (Field × Nat)) : State :=
  let s := withF up ([(F.intakeSlotStateState 63, st), (word (R.mmuAllotRoot 0), 1)] ++ l)
  { s with
    plan := { s.plan with active := { fallbackCfg with
      intake := some ⟨32, 0, 64, 0, 0, List.replicate 63 ⟨false, 0, 0, false, 0, 0, 0, 0, false⟩ ++ [⟨true, 0, 0, srtp, 4, 0, 0, 2, false⟩]⟩ } }
    mmu := {
      s.mmu with
      tlb := [62, 63, 64].map (fun n => ⟨n, 0, 0, 4096, 0, true, true, true, true, false, 0⟩) } }

/-- The slot with something changed. -/
def withSlot (f : StreamSlot → StreamSlot) (s : State) : State := changeSlot 63 f s

/-- Registers with which slot 63 starts: SOURCE 1 with a CPB of 256 KiB and a DPB that suffices. -/
def startable : List (Field × Nat) := [(word (R.intakeCpbKib 63), 256), (word (R.intakeDpbKib 63), 2 ^ 17)]

theorem wit_SlotControl_start :
    ((streaming 0 false startable).intake.slots.length = 64 ∧ (streaming 0 false startable).reaches (.host 0) (R.intakeSlotCfg 63) ∧
      withRun 0x0FFF7F3E true &&& reservedBits (R.intakeSlotCfg 63) = 0 ∧ (streaming 0 false startable).slotState 63 = 0 ∧
      (putSlotCfg 63 (withRun 2 true) (streaming 0 false startable)).slotRefusal 63 = 0) ∧
    ((streaming 0 false []).slotPlan 0).valid = false ∧ ((streaming 0 false []).slotPlan 63).valid = true ∧
    getBits (0 : Word) 1 1 = 0 ∧ (streaming 0 false []).get (F.intakeMatchPortsDstUdp 63) = 0 ∧
    (∀ st ∈ [1, 2, 6], (streaming st false []).slotState 63 = st) := by
  unfold State.reaches; decide +kernel

theorem wit_SlotControl_stop :
    (streaming 6 false []).isOpen 62 = true ∧ (streaming 6 false []).slotState 63 = 6 ∧
    (¬ ∃ e, e < 2 ∧ ∃ a, (streaming 6 false []).decoding e = some (63, a)) ∧
    (let s := { streaming 6 false [] with intake := { up.intake with engines := [none, some (63, ⟨0, 0, false, true, false, [], 0⟩)] } }
     ∃ e, e < 2 ∧ ∃ a, s.decoding e = some (63, a)) := by
  refine ⟨by decide +kernel, by decide +kernel, ?_, 1, by decide, ⟨0, 0, false, true, false, [], 0⟩, by decide +kernel⟩
  rintro ⟨e, he, a, h⟩
  have : (streaming 6 false []).decoding e = none := by
    rcases e with _ | _ | e
    · decide +kernel
    · decide +kernel
    · omega
  rw [this] at h
  cases h

theorem wit_SlotControl :
    (up.reaches (.host 0) (R.intakeKey 63 7) ∧ (up.slot 63).keyWords.length = 8) ∧
    (let s := withSlot (fun x => { x with feedTail := 3 }) (withF up [(F.intakeFeedHeadHead 63, 1)])
     s.reaches (.host 0) (R.intakeFeedTail 63) ∧
     (let size := 2 ^ s.get (F.intakeFeedSizeSizeLog2 63)
      let past := fun t => (t + 16 * size - s.get (F.intakeFeedHeadHead 63) % size) % size
      0 < size ∧ past ((s.slot 63).feedTail) ≤ past ((s.slot 63).feedTail) ∧ ¬ (0xFFFF : BitVec 16).toNat < size)) ∧
    (let s := withF up [(word (R.decodeWritten 63), 5), (word (R.decodeReleased 63), 3)]
     s.reaches (.host 0) (R.decodeReleaseAdd 63) ∧ (s.rd (R.decodeReleased 63)).toNat ≤ (s.rd (R.decodeWritten 63)).toNat) := by
  unfold State.reaches; decide +kernel

/-- Groups 0 and 7 with EN 0 inside R453, with another OWNER, and with EN 1. -/
theorem wit_SlotControl_groups : ∀ g ∈ [0, 7],
    let s := withF up [(F.decodeGroupSizeOutH g, 4), (F.decodeGroupRingSlabsCount g, 1), (F.decodeGroupCreditMode g, 1)]
    let cfg : Word := 0x02010001
    let fields := [(F.decodeGroupCfgAllot g, getBits cfg 8 6), (F.decodeGroupCfgBands g, getBits cfg 16 8), (F.decodeGroupCfgFormat g, getBits cfg 24 3)]
    s.reaches (.host 0) (R.decodeGroupCfg g) ∧ cfg &&& reservedBits (R.decodeGroupCfg g) = 0 ∧ s.get (F.decodeGroupCfgEn g) = 0 ∧
    getBits cfg 0 1 = 1 ∧ (s.puts fields).groupOk g = true ∧
    (withF s [(F.hoseCfgOwner (groupEngine g) (groupChannel g), 0)]).get (F.hoseCfgOwner (groupEngine g) (groupChannel g)) ≠ 2 ∧
    (withF s [(F.decodeGroupCfgEn g, 1)]).get (F.decodeGroupCfgEn g) = 1 := by
  unfold State.reaches; decide +kernel

/-- An RTP packet of PT 96: sequence number, SSRC, payload. -/
def rtp (seq ssrc : Nat) (pay : List Byte) : List Byte := [0x80, 96] ++ beBytes 2 seq ++ [0, 0, 0, 0] ++ beBytes 4 ssrc ++ pay

/-- A matched datagram of slot 63. -/
def datagram (rtcp : Bool) (pay : List Byte) : Datagram := ⟨63, rtcp, 0, ⟨0, 0, 1, 0, []⟩, pay, 0, true, 0⟩

/-- A running slot that has such a datagram and expects a sequence number of SSRC 7. -/
def hearing (d : Datagram) (x : StreamSlot → StreamSlot) : State :=
  let s := withSlot x (streaming 2 false [(F.intakeSlotCfgPt 63, 96), (word (R.intakeSsrc 63), 7)])
  { s with intake := { s.intake with i0 := [d] } }

/-- The slot of those tests: locked to SSRC 7, expecting 10. -/
def locked (x : StreamSlot) : StreamSlot := { x with ssrcLocked := true, next := some 10 }

/-- Datagrams next in order, held, late, far ahead, of another SSRC, not shaped, of a bad payload. -/
theorem wit_StreamPackets_rtp :
    (let s := hearing (datagram false (rtp 10 7 [2, 1, 0x80])) locked
     s.isOpen 62 = true ∧ s.intake.i0.find? (fun d => d.rtcp == false) = some (datagram false (rtp 10 7 [2, 1, 0x80])) ∧
      s.intake.slots.length = 64 ∧ s.slotRuns 63 = true ∧ s.slotState 63 ≠ 5 ∧ (s.slotPlan 63).srtp = false ∧
      s.get (F.intakeSlotCfgPt 63) = 96 ∧ (s.slot 63).ssrcLocked = true ∧ (s.rd (R.intakeSsrc 63)).toNat = 7 ∧
      (s.slot 63).next = some 10 ∧ (s.slot 63).held = [] ∧ (s.slotPlan 63).codec = 0 ∧
      s.plan.active.intake.elim 32 (fun k => k.reorder) = 32) ∧
    (∀ e ∈ [(10, 0), (11, 1), (41, 31), (3010, 3000), (3011, 3001), (62545, 62535), (62546, 62536), (9, 65535)],
      let k := rtpPacket (datagram false (rtp e.1 7 [2, 1, 0x80])) (rtp e.1 7 [2, 1, 0x80])
      (k.seq + 65536 - 10) % 65536 = e.2 ∧ k.ssrc = 7 ∧ (codecBytes 0 k.pay).isSome = true) ∧
    (rtpPacket (datagram false (rtp 10 8 [])) (rtp 10 8 [])).ssrc = 8 ∧
    codecBytes 0 (rtpPacket (datagram false (rtp 10 7 [])) (rtp 10 7 [])).pay = none ∧
    (let p := rtp 10 7 [2, 1, 0x80]
     12 ≤ p.length ∧ p.length ≤ 2048 ∧ (p.getD 0 0).toNat / 64 = 2 ∧ (p.getD 1 0).toNat % 128 = 96) ∧ (rtp 10 7 []).length = 12 ∧
    ¬ 12 ≤ ([] : List Byte).length := by
  decide +kernel

/-- Slots that do not run or are in ERROR, SRTP without a context, an RTCP datagram, no datagram. -/
theorem wit_StreamPackets_other :
    ((streaming 0 false []).slotRuns 63 = false ∧ (streaming 5 false []).slotState 63 = 5 ∧ (streaming 2 false []).intake.i0 = []) ∧
    (let s := streaming 2 true []
     s.slotRuns 63 = true ∧ (s.slotPlan 63).srtp = true ∧ (s.srtpFor (datagram false [])).isNone = true) ∧
    (let s := hearing (datagram true []) locked
     s.intake.i0.find? (fun d => d.rtcp == true) = some (datagram true []) ∧ s.slotRuns 63 = true ∧ s.isOpen 62 = true) ∧
    (let k : RtpPkt := ⟨10, 0, 7, false, [1], 0, true⟩
     let s := withF (streaming 2 false []) [(F.memcPktPktMib, 16)]
     k.marker = false ∧ (s.slot 63).asm = none ∧ s.get F.intakePktHeadOffset + (32 + 64 * ceilDiv k.pay.length 64) ≤ s.pktBytes) ∧
    (let s := hearing (datagram true []) (fun x => { locked x with held := [⟨12, 0, 7, false, [], 0, true⟩], other := some 9 })
     (s.slot 63).next = some 10 ∧ (s.slot 63).held.map (fun p => p.seq) = [12] ∧ (s.slot 63).other = some 9) := by
  decide +kernel

/-- A feed ring with an entry: an access unit and a parameter set of 4 bytes, of a feed slot and of a network slot. -/
theorem wit_StreamPackets_feed : ∀ source ∈ [0, 1], ∀ flags ∈ [0, 1],
    let s := withDram (Memory.write ramFill [] 0 (record 16 [(0, 6, 64), (6, 2, flags), (8, 4, 4)]))
      (withSlot (fun x => { x with feedTail := 1 }) (streaming 2 false ((F.intakeSlotCfgSource 63, source) :: startable)))
    s.isOpen 62 = true ∧ s.slotRuns 63 = true ∧ s.isStalled (.slot 63) = false ∧ s.get (F.intakeFeedHeadHead 63) = 0 ∧
    (s.slot 63).feedTail = 1 ∧ s.get (F.intakeSlotCfgSource 63) = source ∧
    (let r := vaRead (s.streamReq 62) 0 (s.slotAllot 63) (s.rd64 (R.intakeFeedBase 63)) 16 .read false s
     (match r.1 with
      | .ok d => decide (bit (bytesAt d 6 1) 0 = (flags == 1)) && decide (2 * bytesAt d 8 4 ≤ s.cpbRoom 63) &&
          (vaRead (s.streamReq 62) 0 (s.slotAllot 63) (bytesAt d 0 6) (bytesAt d 8 4) .read false r.2).1.isOk
      | .error _ => false) = true) := by
  decide +kernel

/-- A picture of two by two pixels. -/
def picture0 : Picture := ⟨2, 2, false, 1, 1, false, [1, 2, 3, 4], [5], [6]⟩

/-- Engine 1 decodes for slot 63. -/
def engaged (l : List (Field × Nat)) : State :=
  { streaming 2 false l with intake := { up.intake with engines := [none, some (63, ⟨0, 0, false, true, false, [], 0⟩)] } }

theorem wit_StreamPackets_decode :
    ((engaged []).isOpen (63 + 1) = true ∧ (engaged []).decoding 1 = some (63, ⟨0, 0, false, true, false, [], 0⟩) ∧
      (engaged []).get (F.intakeSlotCfgLoss 63) = 0 ∧ (engaged []).slotState 63 = 2 ∧
      (withF up [(F.islandStateState 64, CLOSED)]).isOpen (63 + 1) = false) ∧
    ((engaged []).outputsTo 63 1 picture0 = [] ∧ (engaged []).get (F.intakeSlotCfgRingMode 63) = 0 ∧
      ((engaged []).slotPlan 63).ring = 2 ∧ (engaged []).rd64 (R.decodeNotifyVa 63) = 0 ∧ (engaged []).rd64 (R.decodeRecVa 63) = 0) ∧
    (let s := engaged [(word (R.decodeWritten 63), 2)]
     (s.rd (R.decodeReleased 63)).toNat + 2 ≤ (s.rd (R.decodeWritten 63)).toNat) := by
  decide +kernel

/-- The DPB's page is written, whatever the free value that picks it. -/
theorem wit_StreamPackets_dpb : (touchDpb 63 1 (countLoad 1 2 2 (setEngine 1 none (refreshLoad 1 (engaged []))))).1 = none := by
  have h : ((countLoad 1 2 2 (setEngine 1 none (refreshLoad 1 (engaged [])))).rd (R.intakeDpbKib 63)).toNat * 1024 = 0 := by
    decide +kernel
  simp only [touchDpb, h]
  rw [show b2n (decide True) = 1 from rfl, Nat.zero_add, Nat.mod_one, Nat.add_zero]
  decide +kernel

/-- A frame's record is written. -/
theorem wit_StreamPackets_record :
    let s := (engaged []).wrap32 (R.decodeFrames 63) 1
    let a : AccessUnit := ⟨0, 0, false, true, false, [], 0⟩
    (writeOutputs (s.streamReq (63 + 1)) (s.slotAllot 63)
      ((s.outputsTo 63 0 picture0).flatMap (fun o => s.outPieces 63 o 0 picture0) ++ [(s.rd64 (R.decodeRecVa 63),
        s.frameRecord 63 (recordFlags a false (s.slot 63).main10 (s.outputsTo 63 0 picture0)) 0 a picture0)]) s).1.isNone = true := by
  decide +kernel

/-- A furrow descriptor of 8 raw bytes at 40h, coded at 400h, state at 0: COMPRESS with the static table, FINAL. -/
def furrowDesc (op resume : Nat) : List Byte :=
  record 64 [(0, 4, op + 2 ^ 16 + 2 ^ 17 * resume), (4, 2, if op = 0 then 4 else 0), (8, 8, 0x40), (0x10, 8, 8),
    (0x18, 8, 0x400), (0x20, 4, 17408)]

/-- `up` with a dispatched FURROW entry, the pages mapped for the codec, and jobs. -/
def furrowing (d : List Byte) (jobs : List FurrowJob) (bytes : Memory) : State :=
  let s := withDram bytes (withF up [(word (R.mmuAllotRoot 0), 1)])
  { s with
    host := { s.host with entries := [{ workEntry 0 d with opcode := 4 }] }
    furrow := { jobs := jobs }
    mmu := { s.mmu with tlb := [⟨66, 0, 0, 4096, 0, true, true, true, false, false, 0⟩] } }

/-- The job of a descriptor. -/
def furrowJob0 (d : List Byte) : FurrowJob := ⟨1, 0, 0, d, 0⟩

/-- A saved state: SIGNATURE, PHASE, SETTINGS 0 and 4 elements a row. -/
def furrowSaved (phase : Nat) : List Byte := record 64 [(0, 2, 0x5346), (3, 1, phase), (4, 4, 4 * 2 ^ 16)]

theorem wit_FurrowJobs_checks :
    (∀ op ∈ [0, 1], let d := furrowDesc op 0
      let s := furrowing d [] []
      (s.entry 1).isSome = true ∧ fdOp d = op ∧ s.isOpen 56 = true ∧ s.furrowJob 1 = none ∧ fdOk d = true ∧ s.isShut 66 = false ∧
        s.furrow.jobs.length ≤ 4) ∧
    fdOk (record 64 [(0, 4, 1), (8, 8, 2 ^ 48)]) = false ∧ fdOp (record 64 [(0, 4, 1), (8, 8, 2 ^ 48)]) = 1 ∧
    (withF up [(F.islandStateState 66, CLOSED)]).isShut 66 = true ∧ up.furrow.jobs = [] := by
  decide +kernel

/-- The first job with RESUME 0, and with RESUME 1 and a saved state that is wrong, closed, and open. -/
theorem wit_FurrowJobs_runs :
    (let s := furrowing (furrowDesc 0 0) [furrowJob0 (furrowDesc 0 0)] []
     s.isStalled (.furrow 1) = false ∧ s.isOpen 66 = true ∧ fdResume (furrowDesc 0 0) = false) ∧
    (∀ e ∈ [([], 0), (furrowSaved 2, 1), (furrowSaved 0, 2)],
      let d := furrowDesc 0 1
      let s := furrowing d [furrowJob0 d] (Memory.write ramFill [] 0 e.1)
      fdResume d = true ∧ (match (vaRead s.furrowReq 0 0 (fdStateVa d) 64 .read false s).1 with
        | .ok b => if fdStateOk d b then (if (FurrowState.parse b).phase = 2 then 1 else 2) else 0
        | .error _ => 3) = e.2) := by
  decide +kernel

/-- A compressing job's work succeeds, its coded bytes and its state are written. -/
theorem wit_FurrowJobs_compress :
    let d := furrowDesc 0 0
    let s := furrowing d [furrowJob0 d] (Memory.write ramFill [] 0x40 [1, 2, 3, 4, 1, 2, 3, 4])
    let r := compressFrom 0 0 d (8 * 17408) (8 * 17408 + 1) (8 * 17408 + 1) ⟨fdStart d, bitsOf 16 0x5246, 0, 0⟩ s
    r.1 = .done 0 0 ∧ (vaWrite r.2.2.furrowReq 0 0 (fdCodedVa d) (bitsBytes (r.2.1.out.length / 8) r.2.1.out) false r.2.2).1.isNone = true ∧
    (vaWrite s.furrowReq 0 0 (fdStateVa d) (List.replicate 64 0) false s).1.isNone = true := by
  decide +kernel

theorem wit_FurrowJobs_end :
    ((furrowing [] [furrowJob0 []] []).furrowJob 1).isSome = true ∧
    ({ furrowing [] [furrowJob0 []] [] with host := up.host } : State).entry 1 = none := by
  decide +kernel

/-- One whole block from its start, its last element at the width's greatest value; row copies of distance 64. -/
theorem wit_StaticBlockReadsBack :
    let st := { fdStart (furrowDesc 0 0) with block := 1, row := 1, rawPos := 64 }
    st.block = 1 ∧ 1 ≤ st.row ∧ 64 ≤ 64 ∧ 0 ≤ 65536 ∧ (∀ q < 65536, (fun _ : Nat => 255) q < 2 ^ (8 * st.esz)) ∧
      64 * st.row ≤ st.rawPos / st.esz ∧ 4160 ≤ 4160 := by
  refine ⟨rfl, by decide, by decide, by decide, ?_, by decide +kernel, by decide⟩
  intro q _
  show (255 : Nat) < 2 ^ (8 * _)
  decide +kernel

/-- A small chip, its superblock, a block with a live unit, and a clip. -/
def chip0 : NandChip := ⟨1, 1, 272, 1, 4, 16, 3000, [400], 0, 0, true, []⟩

/-- A superblock over one chip enable with volume 1. -/
def super0 : Superblock := ⟨chip0, false, 1, 2, 8, 2, 2, [⟨1, 1, 0⟩], false⟩

/-- An unsealed and a sealed clip of volume 1. -/
def clip0 (closed : Bool) : Clip := ⟨7, 1, 4096, closed, false, 0, List.replicate 32 0, [(⟨0, 5, 0⟩, 4096)], false⟩

/-- An evidence descriptor: OP, volume, clip, OFFSET, LEN, VA 40h. -/
def evidDesc (op volume clip off len : Nat) : List Byte :=
  record 64 [(0, 4, op + 2 ^ 8 * volume), (4, 4, clip), (8, 4, off), (0xC, 4, len), (0x10, 8, 0x40)]

/-- `up` with a mounted store in a STATE and a dispatched EVIDENCE entry. -/
def storing (st : Nat) (closed : Bool) (d : List Byte) (l : List (Field × Nat)) : State :=
  let s := withF up ([(F.nandStatusState, st), (word (R.mmuAllotRoot 0), 1)] ++ l)
  { s with
    host := { s.host with entries := [{ workEntry 0 d with opcode := 5 }] }
    nand := {
      s.nand with
      chips := [some chip0, none, none, none]
      superblock := some super0
      blocks := [⟨0, 5, 1, 0, 1, 0, false, none⟩]
      units := [⟨⟨0, 5, 0⟩, [List.replicate 4096 0], true⟩] }
    evid := { s.evid with index := ⟨[clip0 closed], 8, 0⟩ }
    mmu := {
      s.mmu with
      tlb := [⟨58, 0, 0, 4096, 0, true, true, true, false, false, 0⟩] } }

/-- A request as it is first held. -/
def request (fn : Nat) (d : List Byte) : EvidReq :=
  ⟨1, fn, 0, d, false, 0, 0, [], false, false, none, false, 0, false, false, false⟩

/-- Every OP's entry: right and wrong descriptor, island 58 shut. -/
theorem wit_EvidenceRequests_entry :
    (∀ op ∈ [0, 1, 2, 3, 4, 5, 6, 7, 8, 9], let d := evidDesc op 1 7 0xFFFFFFFF 1
      let s := storing 2 false d []
      (s.entry 1).isSome = true ∧ evOp d = op ∧ evOk d = true ∧ s.isOpen 56 = true ∧ s.evidReq 1 = none ∧ s.isShut 58 = false ∧
        s.isOpen 58 = true ∧ s.evid.reqs = [] ∧ s.get F.nandStatusState ≠ 1 ∧ s.isStalled (.evidence 1) = false) ∧
    evOk (record 64 [(0x31, 1, 1)]) = false ∧ (withF up [(F.islandStateState 58, CLOSED)]).isShut 58 = true := by
  decide +kernel

/-- Requests of which no check fails, of every OP but FORMAT; the buffers of QUERY and CREATE are read and written. -/
theorem wit_EvidenceRequests_pass :
    (∀ e ∈ [(0, 1), (1, 1), (2, 1), (4, 1), (5, 1), (6, 1), (7, 2), (8, 1)],
      let d := evidDesc e.1 e.2 7 0xFFFFFFFF 0
      (storing 2 false d []).evidRefusal (request 0 d) = none) ∧
    ((storing 2 false [] []).clip 7).isSome = true ∧
    (let s := storing 2 false [] []
     (vaWrite s.evidReqOf 0 0 0x40 (clip0 false).record false s).1.isNone = true ∧
     (vaRead s.evidReqOf 0 0 0x40 32 .read false s).1.isOk = true ∧ (s.evid.index.clips.map (fun c => c.num)).Nodup) := by
  decide +kernel

/-- APPEND_PKT with its channel, and FORMAT with its record and chip. -/
theorem wit_EvidenceRequests_pass_more :
    (let d := evidDesc 3 1 7 4096 1
     let s := storing 2 false d [(F.nandStageEn, 1)]
     s.channelReady = true ∧ s.evidRefusal (request 0 d) = none) ∧
    (let d := evidDesc 9 1 7 0 1
     let s := storing 2 false d []
     let u := { s with plan := { s.plan with active := { fallbackCfg with evidence := some ⟨1, 1, 10, 0, 0, 400, 0, 0⟩ } } }
     u.evidRefusal (request 0 d) = none) := by
  decide +kernel

/-- Every failing check. -/
theorem wit_EvidenceRequests_refused :
    ((storing 0 false [] []).get F.nandStatusState ≠ 2 ∧ (storing 0 false [] []).get F.nandStatusState ≠ 3) ∧
    (let s := storing 3 false [] [(F.nandStatusRoReason, 2)]; s.get F.nandStatusState = 3 ∧ s.get F.nandStatusRoReason = 2) ∧
    ((request 1 (evidDesc 7 2 0 0 0)).fn ≠ 0 ∧ evOp (request 1 (evidDesc 7 2 0 0 0)).desc = 7) ∧
    ((storing 2 false [] []).clip 8 = none ∧ namesClip (evidDesc 0 0 8 0 0) = true) ∧
    ((storing 2 true [] []).clip 7).elim false (fun c => c.shutDown) = true ∧
    (evOffset (evidDesc 2 1 7 4095 1) ≠ 0xFFFFFFFF ∧ evOffset (evidDesc 2 1 7 4095 1) ≠ (clip0 false).length ∧
      evOffset (evidDesc 2 1 7 4096 1) = (clip0 false).length) ∧
    (storing 2 false [] [(F.nandStageEn, 0)]).channelReady = false := by
  decide +kernel

/-- `storing` with operations under way. -/
def operating (l : List NandOp) : State :=
  let s := storing 2 false [] []
  { s with evid := { s.evid with ops := l } }

theorem wit_NandOperations :
    (∀ p ∈ [NandPurpose.prog 1 7 4096, .read 1, .erase], let s := operating [⟨⟨0, 5, 1⟩, p⟩]
      s.isOpen 58 = true ∧ s.evid.ops.find? (fun o => o.loc.ce == 0 && (isProgram o.purpose || isRead o.purpose || isErase o.purpose)) =
        some ⟨⟨0, 5, 1⟩, p⟩) ∧
    ((operating []).evid.ops = [] ∧ isProgram (.prog 1 7 4096) = true ∧ isRead (.read 1) = true ∧ isErase .erase = true) ∧
    ((operating []).clip 7).isSome = true ∧
    (let s := operating []
     let t := { s with evid := { s.evid with reqs := [request 0 (evidDesc 2 1 7 0 1)] } }
     let u := retireBlock 0 5 (dropUnit ⟨0, 5, 1⟩ t)
     (t.evidReq 1).isSome = true ∧ (u.evidReq 1).isSome = true ∧ u.nand.superblock.isSome = true ∧
      u.nand.superblock.elim true (fun b => b.readOnly) = false ∧ (u.nand.superblock.bind (fun b => u.nextUnit b)).isSome = true) ∧
    ((operating []).block 0 5).ce = 0 ∧ ((operating []).block 0 5).blk = 5 := by
  decide +kernel

/-- An append whose TO_NS lies ahead and has passed; upkeep of a block with a live unit; a scrub of one unit. -/
theorem wit_NandOperations_clocked :
    (let d := record 64 [(0, 4, 3), (4, 4, 7), (0x20, 8, 5)]
     let s := operating []
     let t := { s with evid := { s.evid with reqs := [{ request 0 d with begun := true }] } }
     (t.evid.reqs.find? (fun r => r.begun && evOp r.desc == 3 && evClip r.desc == 7)).isSome = true ∧ t.isOpen 58 = true ∧
      t.isShut 61 = false ∧ (withF up [(F.islandStateState 61, CLOSED)]).isShut 61 = true) ∧
    (let s := operating []
     let m := { s with nand := { s.nand with blocks := [⟨0, 5, 1, 0, 1, 1, true, none⟩] } }
     m.isOpen 58 = true ∧ m.get F.nandStatusState = 2 ∧ m.evid.reqs = [] ∧ m.evid.ops = [] ∧ (m.upkeepTarget super0).isSome = true ∧
      s.evid.scrubDue = false ∧ (s.nand.units.filter (fun u => s.isLive u.loc)).map (fun u => u.loc) = [⟨0, 5, 0⟩]) := by
  decide +kernel

/-- An ACOUSTIC record of all microphones. -/
def acoustic0 : AcousticCfg := ⟨0xFF, 0, true, true, 10, 5, 2000, 4000, 500, 50, 2000⟩

/-- `up` with that record and the front end in a MODE. -/
def listening (mode : Nat) : State :=
  let s := withF up [(F.acouStatusMode, mode)]
  { s with
    acou := { s.acou with cfg := some acoustic0 }
    plan := { s.plan with active := { fallbackCfg with acoustic := some acoustic0 } } }

/-- A frozen pre-roll. -/
def frozen0 : FrozenRoll := ⟨List.replicate 32000 0, 0, 0, 0, 0, false, false, 0, 0⟩

theorem wit_AcousticRules :
    (∀ m ∈ [0, 1, 2, 3], (listening m).acou.cfg = some acoustic0 ∧ (listening m).isOpen 3 = true ∧ (listening m).get F.acouStatusMode = m) ∧
    (up.acou.cfg = none ∧ (listening 3).acou.releasing = false ∧ (listening 3).acou.frozen = none) ∧
    (starting (listening 1)).boot.starting = true ∧
    (let m : MicState := { MicState.reset with floor := some (-6291456) }
     m.floor = some (-6291456) ∧ (-6291456 + 65536 * (acoustic0.marginDb : Int) < 256 * 0 ∧
       256 * (-24576) ≤ -6291456 + 65536 * (acoustic0.marginDb : Int)) ∧ MicState.reset.floor = none) ∧
    (up.boot.starting = false ∧ up.power ≤ 1 ∧ up.get F.pwrStatusState ≤ 1) := by
  decide +kernel

theorem wit_AcousticRules_commands :
    ((listening 1).reaches (.host 0) R.acouCmd ∧ (listening 1).hasToken (.host 0) = true ∧ (listening 1).get F.acouStatusBusy = 0 ∧
      (listening 1).inBloom = true ∧ (listening 1).plan.active.acoustic = some acoustic0 ∧ (listening 1).acou.frozen = none) ∧
    ({ (listening 1).acou with frozen := some frozen0 } : AcouUnit).frozen.isSome = true ∧
    (up.plan.active.acoustic = none ∧ (withF up [(F.acouStatusBusy, 1)]).get F.acouStatusBusy = 1 ∧ up.hasToken .port = false ∧
      up.reaches .port R.acouCmd ∧ (withF (inPower 1) [(F.fenceLeaseHolder 5, 2)]).inBloom = false ∧
      (withF (inPower 1) [(F.fenceLeaseHolder 5, 2)]).reaches .port R.acouCmd ∧
      (withF (inPower 1) [(F.fenceLeaseHolder 5, 2)]).hasToken .port = true) ∧
    (up.reaches (.host 0) R.acouStatus ∧ (0 : BitVec 16) ≠ 0xAC05) := by
  unfold State.reaches; decide +kernel

/-! Worked examples of the spec and published test vectors: their expected results come from there -/

/-- Chapter 19, the example: after the header of eight bytes the bits start F8 FF 07 00 E8 FF 0F (BTYPE 0, a RUN of 4,160
zeros, a ROW_MATCH of 4,160 elements one row back), and the next token starts at bit 58. -/
theorem test_furrow_example :
    let bits := [false, false] ++ tokenBits (fun _ => 0) 16 staticTable 0 (.run 4160) ++
      tokenBits (fun _ => 0) 16 staticTable 4160 (.row 4160 1)
    bits.length = 58 ∧ (bitsBytes 8 bits).take 7 = [0xF8, 0xFF, 0x07, 0x00, 0xE8, 0xFF, 0x0F] := by decide +kernel

/-- Chapter 19, the example: the header is 46 52 01 0D C0 03 00 00, of C1_F16 at level 3 with 960 elements a row. -/
theorem test_furrow_header :
    parseHeader (bytesBits [0x46, 0x52, 0x01, 0x0D, 0xC0, 0x03, 0x00, 0x00]) = .header 1 960 [] := by decide +kernel

/-- The check value of IEEE 802.3's CRC-32: "123456789" gives 0xCBF4_3926. -/
theorem test_crc32 : crc32 [0x31, 0x32, 0x33, 0x34, 0x35, 0x36, 0x37, 0x38, 0x39] = 0xCBF43926 := by decide +kernel

/-- FIPS 180-4: SHA-384 of "abc". -/
theorem test_sha384 : sha384 [0x61, 0x62, 0x63] =
    0xcb00753f45a35e8bb5a03d699ac65007272c32ab0eded1631a8b605a43ff5bed8086072ba1e7cc2358baeca134c825a7 := by
  decide +kernel

/-- RFC 3174: SHA-1 of "abc". -/
theorem test_sha1 : sha1 [0x61, 0x62, 0x63] =
    [0xA9, 0x99, 0x3E, 0x36, 0x47, 0x06, 0x81, 0x6A, 0xBA, 0x3E, 0x25, 0x71, 0x78, 0x50, 0xC2, 0x6C, 0x9C, 0xD0, 0xD8,
      0x9D] := by decide +kernel

/-- FIPS 197, C.3: AES-256 of 00112233…EEFF under the key 000102…1F. -/
theorem test_aes256 :
    let key := (List.range 32).map (BitVec.ofNat 8)
    let plain := (List.range 16).map (fun i => BitVec.ofNat 8 (17 * i))
    let coded := [0x8E, 0xA2, 0xB7, 0xCA, 0x51, 0x67, 0x45, 0xBF, 0xEA, 0xFC, 0x49, 0x90, 0x4B, 0x49, 0x60, 0x89]
    aesEnc key plain = coded := by decide +kernel

/-- Chapter 10, the example: the frame line at PA 0x0_8A12_3500 has slice 2 and set 443, its next line slice 3. -/
theorem test_shed_place : lineSlice 0x08A123500 = 2 ∧ lineSet 0x08A123500 = 443 ∧ lineSlice 0x08A123580 = 3 := by decide

/-- Chapter 10, the example: with U 16 GiB the line's channel is 1; the reserve lies on channel 0, the top on channel 1. -/
theorem test_channel : up.channel 0x08A123500 = 1 ∧ up.channel 0x3FF000000 = 0 ∧ up.channel 0x3FF800000 = 1 := by
  decide +kernel

/-- Chapter 8, the example: the completion of the order on bed 9 has DW1 0x172C_0D11. -/
theorem test_completion_word :
    let s := { State.reset with regs := [(R.islandState 13, 0)] }
    (withF s [(F.islandStateState 13, 1), (F.islandStateEpoch 13, 0x2C), (F.islandStateLastCause 13, 7)]).errorWord 0x11 13
      = 0x172C0D11 := by decide +kernel

/-- Chapter 14, the example: 2^39 − 1 becomes 2^39 in FP32 under RN, scaled by 2^−24 it is 32,768.0, inexactly. -/
theorem test_guard_store :
    let r := storeElem false 1 0 0x33800000 0 false (2 ^ 39 - 1)
    r.bits = 0x47000000 ∧ r.flags = INEXACT := by decide +kernel

/-- Chapter 14, the example: product 8,454,531 of 65,025 exhausts the guard; the element is frozen and OVF raised. -/
theorem test_guard_freezes :
    let o : AccOut := ⟨549755813250, 0, none, none⟩
    (accInt o 386 65025).v = 2 ^ 39 - 1 ∧ (accInt o 386 65025).flags = OVF ∧
      (accInt (accInt o 386 65025) 387 65025).v = 2 ^ 39 - 1 := by decide +kernel

/-- Table 14.1 and R356: E4M3's largest finite value is 448; FP16 overflows to infinity under RN and to 65,504 under RZ. -/
theorem test_overflow :
    (convert .rn 0 8 0x43FA0000).bits = 0x7E ∧ (convert .rn 0 1 0x47C35000).bits = 0x7C00 ∧
      (convert .rz 0 1 0x47C35000).bits = 0x7BFF := by decide +kernel

/-- R358: one draw of the generator, from 1: 1, 0x2001, 0x2001, 0x4_2021. -/
theorem test_xorshift : xorshift 1 = 0x42021 := by decide

/-- Chapter 16, the example: the INDEX8 block 03 04 03 00 05 11 C8 00 FD 07 0C 00 holds −3, 7 and 12 at k = 5, 17, 200. -/
theorem test_sieve_block :
    parseBlock [0x03, 0x04, 0x03, 0x00, 0x05, 0x11, 0xC8, 0x00, 0xFD, 0x07, 0x0C, 0x00] 256 8 =
      some ([(5, 0xFD), (17, 7), (200, 12)], 12) := by decide +kernel

/-- Chapter 21, the example: a rise of 62 dB, a high-band share of 0.62 and a decay of 24 dB score 203. -/
theorem test_glass_score :
    glassScore ⟨16, -84 * 256, -24 * 256, -22 * 256, 62, 100⟩ (-46 * 256) = 203 := by decide

/-- The descriptor of chapter 15's example. -/
def convExample : List Byte :=
  [0x02, 0xB0, 0x66, 0x06] ++ List.replicate 23 0 ++ [0x40, 0x02, 0, 0, 0] ++
  [0, 0, 0, 0, 1, 0, 0, 0, 0, 0, 0, 0x41, 2, 0, 0, 0] ++
  [0, 0, 0x60, 0, 1, 0, 0, 0, 1, 0, 0x60, 0, 0xA0, 0, 0x40, 0] ++
  [0x80, 0, 0, 0, 0, 0, 0, 0, 0x33, 0x11, 0x11, 0x11, 0x11, 0, 0, 0] ++
  [0, 0x28, 0, 0, 0x40, 2, 0, 0, 0, 0x50, 0, 0, 0, 0, 0x80, 0x3A] ++
  [0xA0, 0, 0x80, 0, 0, 0, 0, 0, 0, 0, 0, 0, 0, 0, 0, 0] ++ List.replicate 16 0

/-- Chapter 15, the example: Ho 96, Wo 160, M 15,360, N 128, K 576, T 96; the descriptor passes the first check. -/
theorem test_conv_example : (woHo convExample, woWo convExample, woM convExample, woN convExample, woK convExample,
    woT convExample, woDescOk convExample) = (96, 160, 15360, 128, 576, 96, true) := by decide +kernel

/-- Chapter 21, the example: the header of the pre-roll read back. -/
theorem test_preroll_header :
    let c : AcousticCfg := ⟨255, 0, true, true, 12, 10, 2500, 3500, 500, 160, 2000⟩
    (rollBytes c ⟨[], 0, 1, 203, 3, false, false, -84 * 256, 0x2F3A4978 * 1000000 + 413250⟩).take 24 =
      [0x50, 0x52, 0x52, 0x4C, 0x00, 0x7D, 0x00, 0x00, 0x00, 0x01, 0xCB, 0x03, 0x00, 0x00, 0x00, 0xAC,
       0x78, 0x49, 0x3A, 0x2F, 0x42, 0x4E, 0x06, 0x00] := by decide +kernel

/-- Chapter 8, the example: the completion of the exit-gate query, TAG 0x0A01, two tiles, SQ_HEAD 1, SQ 60, PHASE 1. -/
theorem test_completion_bytes :
    let s := withF State.reset [(F.sqStatusHead 60, 1), (F.cqStatusPhase 60, 1)]
    completionBytes s ⟨60, 60, 0x0A01, 0, 0, 0, 2, 0, false⟩ =
      [0x01, 0x0A, 0, 0, 0, 0, 0, 0, 0x02, 0, 0, 0, 0x01, 0, 0x3C, 0x80] := by decide +kernel

end Sys2Proof.Tests
end

section
/-! PROOFS. Requests and replies at OPEN hedges (spec/01 R20, R22, R25): what a counter holds after it was raised, what
a request meets at its target's hedge, and what a reply meets at its requester's. -/
namespace Sys2Proof.Machine

/-! Raised counters -/

theorem satAdd_eq_min (width a b : Nat) : satAdd width a b = min (2 ^ width - 1) (a + b) := Nat.min_comm _ _

/-- A raised counter field reads one sum higher, and stops at its all-ones value. -/
theorem State.get_bump_same (s : State) (f : Field) (n : Nat) (h : fits f = true) :
    (s.bump f n).get f = satAdd f.width (s.get f) n := by
  have hlt : satAdd f.width (s.get f) n < 2 ^ f.width := by
    have := Nat.two_pow_pos f.width
    unfold satAdd
    omega
  rw [State.bump, State.get_put_same _ _ _ h, Nat.mod_eq_of_lt hlt]

theorem State.rd_bump32_same (s : State) (o n : Nat) :
    (s.bump32 o n).rd o = BitVec.ofNat 32 (satAdd 32 (s.rd o).toNat n) := State.rd_wr_same _ _ _

/-! OPEN hedges -/

theorem State.isOpen_of_hedge {s : State} {n : Nat} (h : s.hedge n = OPEN) : s.isOpen n = true := by
  exact beq_iff_eq.mpr h

theorem State.isShut_of_hedge_open {s : State} {n : Nat} (h : s.hedge n = OPEN) : s.isShut n = false := by
  rw [State.isShut, h]
  decide

/-! Requests (R22, R25) -/

/-- The request that a stop issues: the target epoch of its view and the requester's own epoch (R22). -/
def State.issued (s : State) (src dst tag : Nat) : Tracked := ⟨src, dst, tag, s.view src dst, s.epoch src, false⟩

/-- A stop tracks one more request. -/
def State.track (s : State) (t : Tracked) : State := { s with isl := { s.isl with tracked := t :: s.isl.tracked } }

/-- A request that arrives at an OPEN hedge is tracked and has its epoch compared there. -/
theorem arrive_open {s : State} {src dst : Nat} (tag : Nat) (hp : s.stopPowered dst = true) (ho : s.hedge dst = OPEN) :
    arrive src dst tag s = meetOpen (s.issued src dst tag) (s.track (s.issued src dst tag)) := by
  have hserved : ¬ ((!s.stopPowered dst) = true ∨ s.isShut dst = true) := by
    rw [hp, State.isShut_of_hedge_open ho]
    decide
  exact (if_neg hserved).trans (if_pos (State.isOpen_of_hedge ho))

/-- A request of the current epoch that no crossing holds passes an OPEN hedge without a further effect. -/
theorem meetOpen_current {s : State} {t : Tracked} (hh : t.held = false) (he : t.dstEpoch = s.epoch t.dst) :
    meetOpen t s = s := by
  have hid : (fun x : Tracked => if x = t then { x with held := false } else x) = id := by
    funext x
    split
    · next hx =>
      subst hx
      exact congrArg (fun b => { x with held := b }) hh.symm
    · rfl
  rw [meetOpen, if_pos he, hid, List.map_id]

/-- A request of another epoch is answered with STALE_EPOCH at an OPEN hedge. -/
theorem meetOpen_stale {s : State} {t : Tracked} (he : t.dstEpoch ≠ s.epoch t.dst) :
    meetOpen t s = answerError 0x10 0 t s := if_neg he

/-- STALE_EPOCH raises STALE_SENT of the target, gives the requester the word of Table 1.3 and frees the tag. -/
theorem answerError_stale (t : Tracked) (s : State) :
    (answerError 0x10 0 t s).get (F.islandCountStaleSent t.dst) =
        min 0xFFFF (s.get (F.islandCountStaleSent t.dst) + 1) ∧
      (answerError 0x10 0 t s).isl.errors = (t.src, BitVec.ofNat 32 (s.errorWord 0x10 t.dst)) :: s.isl.errors ∧
      (answerError 0x10 0 t s).isl.tracked = s.isl.tracked.filter (fun x => x != t) ∧
      (answerError 0x10 0 t s).mem = s.mem := by
  have hget : (answerError 0x10 0 t s).get (F.islandCountStaleSent t.dst) =
      (s.bump (F.islandCountStaleSent t.dst) 1).get (F.islandCountStaleSent t.dst) := rfl
  have hfits : fits (F.islandCountStaleSent t.dst) = true := rfl
  exact ⟨hget.trans ((State.get_bump_same _ _ _ hfits).trans (satAdd_eq_min 16 _ 1)), rfl, rfl, rfl⟩

theorem exec_hedgeRequest (src dst : Fin 72) (s : State) :
    exec (.hedgeRequest src dst) s = execHedgeRequest src dst s := rfl

/-- HEDGE_REQUEST of an OPEN island with a free tag: the request arrives at its target. -/
theorem exec_hedgeRequest_issues {s : State} {src dst : Fin 72} {g : Nat} (ho : s.hedge src = OPEN) (hne : src ≠ dst)
    (hg : s.freeTag src = some g) : exec (.hedgeRequest src dst) s = .next (arrive src dst g s) := by
  have hissue : ¬ ((!s.isOpen src) = true ∨ src = dst) := by
    rw [State.isOpen_of_hedge ho]
    rintro (hshut | heq)
    · cases hshut
    · exact hne heq
  rw [exec_hedgeRequest, execHedgeRequest, if_neg hissue, hg]

/-! Replies (R25) -/

theorem exec_hedgeReply (src : Fin 72) (tag : Fin 64) (s : State) :
    exec (.hedgeReply src tag) s = execHedgeReply src tag s := rfl

/-- HEDGE_REPLY to a tracked request whose reply no crossing holds: the reply meets the requester's OPEN hedge. -/
theorem exec_hedgeReply_meets {s : State} {src : Fin 72} {tag : Fin 64} {x : Tracked} (ho : s.hedge src = OPEN)
    (hx : s.isl.tracked.find? (fun t => t.src = src.val && t.tag = tag.val && !t.held) = some x)
    (hh : (src.val, tag.val) ∉ s.isl.heldReplies) : exec (.hedgeReply src tag) s = .next (replyOpen x s) := by
  have hnone : ¬ s.isl.heldReplies.contains (src.val, tag.val) = true := fun h => hh (List.contains_iff_mem.mp h)
  have hshut : ¬ s.isShut src = true := by
    rw [State.isShut_of_hedge_open ho]
    decide
  simp only [exec_hedgeReply, execHedgeReply, hx, if_neg hnone, if_neg hshut, if_pos (State.isOpen_of_hedge ho)]

/-- A reply at an OPEN hedge retires its request, whether it is delivered or discarded. -/
theorem replyOpen_retires (t : Tracked) (s : State) :
    (replyOpen t s).isl.tracked = s.isl.tracked.filter (fun y => y != t) ∧ (replyOpen t s).mem = s.mem := by
  unfold replyOpen
  split
  · exact ⟨rfl, rfl⟩
  · exact ⟨rfl, rfl⟩

theorem replyOpen_current_regs {s : State} {t : Tracked} (he : t.srcEpoch = s.epoch t.src) :
    (replyOpen t s).regs = s.regs := by
  have hopen : replyOpen t s = retire t s := if_pos he
  have hregs : (retire t s).regs = s.regs := rfl
  rw [hopen, hregs]

theorem replyOpen_stale_discards {s : State} {t : Tracked} (he : t.srcEpoch ≠ s.epoch t.src) :
    (replyOpen t s).rd (R.islandDiscard t.src) =
      BitVec.ofNat 32 (min 0xFFFFFFFF ((s.rd (R.islandDiscard t.src)).toNat + 1)) := by
  have hopen : replyOpen t s = retire t (s.bump32 (R.islandDiscard t.src) 1) := if_neg he
  have hrd : (retire t (s.bump32 (R.islandDiscard t.src) 1)).rd (R.islandDiscard t.src) =
      (s.bump32 (R.islandDiscard t.src) 1).rd (R.islandDiscard t.src) := rfl
  calc (replyOpen t s).rd (R.islandDiscard t.src)
      = (s.bump32 (R.islandDiscard t.src) 1).rd (R.islandDiscard t.src) :=
        (congrArg (State.rd · (R.islandDiscard t.src)) hopen).trans hrd
    _ = BitVec.ofNat 32 (satAdd 32 (s.rd (R.islandDiscard t.src)).toNat 1) := State.rd_bump32_same _ _ _
    _ = BitVec.ofNat 32 (min 0xFFFFFFFF ((s.rd (R.islandDiscard t.src)).toNat + 1)) :=
        congrArg (BitVec.ofNat 32) (satAdd_eq_min 32 _ 1)

end Sys2Proof.Machine

namespace Sys2Proof
open Sys2Proof.Machine

/-- Settles O6: each half runs the command to the OPEN hedge that compares the epochs, and splits on the comparison. -/
theorem openHedgeComparesEpochs : Obligations.OpenHedgeComparesEpochs := by
  unfold Obligations.OpenHedgeComparesEpochs
  refine ⟨fun s src dst g hsrc hne hg hp hdst => ?_, fun s src tag x hsrc hx hh => ?_⟩
  · have hexec := (exec_hedgeRequest_issues hsrc hne hg).trans (congrArg _ (arrive_open g hp hdst))
    refine ⟨_, hexec, fun he => ?_, fun he => ?_⟩
    · rw [meetOpen_current rfl he, State.track, State.issued, he]
    · rw [meetOpen_stale he]
      obtain ⟨hcount, herr, htracked, hmem⟩ := answerError_stale (s.issued src dst g) (s.track (s.issued src dst g))
      have hself : (s.issued src dst g != s.issued src dst g) = false := bne_self_eq_false _
      exact ⟨hcount, herr, htracked.trans (List.filter_cons_of_neg (by rw [hself]; decide)), hmem⟩
  · have hsrcx : x.src = src.val := by
      have hfound := List.find?_some hx
      simp only [Bool.and_eq_true, decide_eq_true_eq] at hfound
      obtain ⟨⟨hsrcx, -⟩, -⟩ := hfound
      exact hsrcx
    obtain ⟨htracked, hmem⟩ := replyOpen_retires x s
    refine ⟨_, exec_hedgeReply_meets hsrc hx hh, htracked, fun he => ?_, fun he => ?_, hmem⟩
    · exact replyOpen_current_regs (hsrcx ▸ he)
    · exact hsrcx ▸ replyOpen_stale_discards (hsrcx ▸ he)

end Sys2Proof
end

section
/-! PROOFS. What the two irreversible plan operations burn (spec/02 R50): what the end of a plan command and its refusal
leave, one key slot set, the floor test of an image, and each operation's two ends. -/
namespace Sys2Proof.Machine

/-! Register fields and lists -/

/-- Of several field updates the last one to a field is read back, when those after it touch other bits. -/
theorem State.get_puts_last (s : State) (before after : List (Field × Nat)) (f : Field) (v : Nat) (hf : fits f = true)
    (hafter : after.all (fun e => fits e.1 && apart e.1 f) = true) :
    (s.puts (before ++ (f, v) :: after)).get f = v % 2 ^ f.width := by
  have hapart : ∀ e ∈ after, fits e.1 = true ∧ apart e.1 f = true := fun e he =>
    (Bool.and_eq_true _ _).mp (List.all_eq_true.mp hafter e he)
  calc (s.puts (before ++ (f, v) :: after)).get f
      = (((s.puts before).put f v).puts after).get f := by rw [State.puts, List.foldl_append]; rfl
    _ = ((s.puts before).put f v).get f := State.get_puts_apart _ _ _ hapart
    _ = v % 2 ^ f.width := State.get_put_same _ _ _ hf

/-- The model's `setAt` is the library's `List.set`. -/
theorem setAt_eq_set {α : Type} (l : List α) (i : Nat) (x : α) : setAt i x l = l.set i x := by
  induction l generalizing i with
  | nil => rw [setAt, List.set_nil]
  | cons y ys ih =>
    cases i with
    | zero => rfl
    | succ i => exact congrArg (y :: ·) (ih i)

theorem getD_setAt {α : Type} (l : List α) (i j : Nat) (x d : α) (hi : i < l.length) :
    (setAt i x l).getD j d = if j = i then x else l.getD j d := by
  rw [setAt_eq_set]
  split
  · next hj => rw [hj, List.getD_eq_getElem?_getD, List.getElem?_set_self hi, Option.getD_some]
  · next hj => rw [List.getD_eq_getElem?_getD, List.getElem?_set_ne (Ne.symm hj), ← List.getD_eq_getElem?_getD]

/-! The end and the refusal of a plan command -/

theorem finishPlan_boot (status detail : Nat) (s : State) : (finishPlan status detail s).boot = s.boot := by
  rw [finishPlan, setEvent_boot]
  exact State.boot_puts _ _

theorem finishPlan_result (status detail : Nat) (s : State) :
    (finishPlan status detail s).get F.planStatusResult = status % 2 ^ 8 :=
  (setEvent_get _ _ _ (by decide)).trans
    (State.get_puts_last s [(F.planStatusPhase, 0)] [(F.planStatusDetail, detail), (F.planStatusDone, 1)] _ _ rfl rfl)

theorem finishPlan_done (status detail : Nat) (s : State) : (finishPlan status detail s).get F.planStatusDone = 1 :=
  (setEvent_get _ _ _ (by decide)).trans
    (State.get_puts_last s [(F.planStatusPhase, 0), (F.planStatusResult, status), (F.planStatusDetail, detail)] [] _ _
      rfl rfl)

theorem refusePlan_boot (status detail : Nat) (s : State) : (refusePlan status detail s).boot = s.boot := by
  rw [refusePlan, setEvent_boot, State.boot_puts]

theorem refusePlan_result (status detail : Nat) (s : State) :
    (refusePlan status detail s).get F.planStatusResult = status % 2 ^ 8 :=
  (setEvent_get _ _ _ (by decide)).trans
    (State.get_puts_last s [] [(F.planStatusDetail, detail), (F.planStatusDone, 1)] _ _ rfl rfl)

/-! The floor test of an image (check 10 of Table 2.5) -/

theorem checkHeader_floor {ctx : PlanCtx} {graft : Bool} {img : List Byte} (h : checkHeader ctx graft img = none) :
    ctx.floor ≤ imgAt img 0x0A 1 := by
  rcases Nat.lt_or_ge (imgAt img 0x0A 1) ctx.floor with hlow | hfloor
  · -- Checks 7 to 10 remain, and each branch of them is an error.
    simp only [checkHeader, if_pos hlow] at h
    split at h
    · cases h
    · split at h
      · cases h
      · split at h <;> cases h
  · exact hfloor

/-- An accepted image passed the checks on its header. -/
theorem checkImage_ok_header {ctx : PlanCtx} {graft : Bool} {img : List Byte} {o : PlanOk}
    (h : checkImage ctx graft img = .ok o) : checkHeader ctx graft img = none := by
  cases hheader : checkHeader ctx graft img with
  | none => rfl
  | some e =>
    -- What is left of the checks ends with the header's: each branch is an error.
    simp only [checkImage, hheader] at h
    split at h
    · cases h
    · split at h
      · cases h
      · split at h
        · cases h
        · split at h <;> cases h

/-! BURN_FLOOR -/

theorem burnPlanFloor_refused {s : State} (h : s.get F.planStatusFallback = 1) :
    (burnPlanFloor s).boot = s.boot ∧ (burnPlanFloor s).get F.planStatusResult = 0x41 := by
  rw [burnPlanFloor, if_pos h]
  exact ⟨refusePlan_boot _ _ _, refusePlan_result _ _ _⟩

theorem burnPlanFloor_burns {s : State} (h : s.get F.planStatusFallback ≠ 1) :
    (burnPlanFloor s).boot.fuses =
        { s.boot.fuses with planFloor := max s.boot.fuses.planFloor (min 63 s.plan.active.security) } ∧
      (burnPlanFloor s).get F.planStatusResult = 0 ∧ (burnPlanFloor s).get F.planStatusDone = 1 := by
  rw [burnPlanFloor, if_neg h]
  exact ⟨congrArg BootUnit.fuses (finishPlan_boot _ _ _), finishPlan_result _ _ _, finishPlan_done _ _ _⟩

/-- BURN_FLOOR never lowers the floor, and never takes it past 63. -/
theorem burnPlanFloor_floor (s : State) (h : s.boot.fuses.planFloor ≤ 63) :
    s.boot.fuses.planFloor ≤ (burnPlanFloor s).boot.fuses.planFloor ∧ (burnPlanFloor s).boot.fuses.planFloor ≤ 63 := by
  by_cases hfall : s.get F.planStatusFallback = 1
  · obtain ⟨hboot, -⟩ := burnPlanFloor_refused hfall
    rw [hboot]
    exact ⟨Nat.le_refl _, h⟩
  · obtain ⟨hfuses, -, -⟩ := burnPlanFloor_burns hfall
    rw [hfuses]
    exact ⟨Nat.le_max_left _ _, Nat.max_le.mpr ⟨h, Nat.min_le_left _ _⟩⟩

/-! REVOKE_KEY -/

/-- Slot k signed an image of the active chain or of the newest stored chain. -/
def State.signedBy (s : State) (k : Nat) : Prop :=
  ∃ img, (img ∈ s.plan.chain ∨ ∃ c, s.storedChain = some c ∧ img ∈ c) ∧ bytesAt img 0x0B 1 = k

/-- The test of REVOKE_KEY. -/
theorem any_signed_iff (s : State) (k : Nat) :
    (s.plan.chain ++ s.storedChain.getD []).any (fun img => bytesAt img 0x0B 1 = k) = true ↔ s.signedBy k := by
  have hstored : ∀ img, img ∈ s.storedChain.getD [] ↔ ∃ c, s.storedChain = some c ∧ img ∈ c := by
    intro img
    cases s.storedChain with
    | none =>
      refine ⟨fun himg => ?_, fun ⟨c, hc, _⟩ => by cases hc⟩
      cases himg
    | some c =>
      refine ⟨fun himg => ⟨c, rfl, himg⟩, fun ⟨c', hc, himg⟩ => ?_⟩
      cases hc
      exact himg
  simp only [State.signedBy, List.any_eq_true, List.mem_append, hstored, decide_eq_true_eq]

theorem revokeKey_refused {s : State} {k : Nat} (h : s.signedBy k) :
    (revokeKey k s).boot = s.boot ∧ (revokeKey k s).get F.planStatusResult = 0x41 := by
  rw [revokeKey, if_pos ((any_signed_iff s k).mpr h)]
  exact ⟨refusePlan_boot _ _ _, refusePlan_result _ _ _⟩

theorem revokeKey_burns {s : State} {k : Nat} (h : ¬ s.signedBy k) :
    (revokeKey k s).boot.fuses = { s.boot.fuses with
        planKeys := setAt k { s.boot.fuses.planKeys.getD k ⟨0, false, false⟩ with revoked := true }
          s.boot.fuses.planKeys } ∧
      (revokeKey k s).get F.planStatusResult = 0 ∧ (revokeKey k s).get F.planStatusDone = 1 := by
  rw [revokeKey, if_neg (mt (any_signed_iff s k).mp h)]
  exact ⟨congrArg BootUnit.fuses (finishPlan_boot _ _ _), finishPlan_result _ _ _, finishPlan_done _ _ _⟩

/-- A key slot after one slot's revoked bit was burnt. -/
theorem getD_setAt_revoked (keys : List KeySlot) (k j : Nat) (d : KeySlot) (hk : k < keys.length) :
    (setAt k { keys.getD k d with revoked := true } keys).getD j d =
      if j = k then { keys.getD j d with revoked := true } else keys.getD j d := by
  rw [getD_setAt _ _ _ _ _ hk]
  split
  · next hj => rw [hj]
  · rfl

end Sys2Proof.Machine

namespace Sys2Proof
open Sys2Proof.Machine

/-- Settles O10: the header's test gives the floor of an accepted image, and each operation has its refused and its
burning end. -/
theorem planFuseBurns : Obligations.PlanFuseBurns := by
  unfold Obligations.PlanFuseBurns
  refine ⟨fun ctx graft img o hok => checkHeader_floor (checkImage_ok_header hok), burnPlanFloor_floor,
    fun s k hk hslots => ⟨fun hplan => ?_, fun hfall => ?_, fun hfree => ?_, fun hsigned => ?_⟩⟩
  · exact burnPlanFloor_burns (by rw [hplan]; decide)
  · obtain ⟨hboot, hresult⟩ := burnPlanFloor_refused hfall
    exact ⟨congrArg BootUnit.fuses hboot, hresult⟩
  · obtain ⟨hfuses, hresult, hdone⟩ := revokeKey_burns hfree
    rw [hfuses]
    exact ⟨fun j _ => getD_setAt_revoked _ _ _ _ (hslots ▸ hk), rfl, rfl, hresult, hdone⟩
  · obtain ⟨hboot, hresult⟩ := revokeKey_refused hsigned
    exact ⟨congrArg BootUnit.fuses hboot, hresult⟩

end Sys2Proof
end

section
/-! PROOFS. BURN_FLOOR of BOOT_CMD (spec/04 R118): what the end of a boot command leaves, the condition on the slot that
is not running, and the operation's burning and refused ends. -/
namespace Sys2Proof.Machine

/-! The end of a boot command -/

theorem finishBoot_boot (result status detail : Nat) (s : State) :
    (finishBoot result status detail s).boot = s.boot := by
  rw [finishBoot, setEvent_boot, State.boot_puts]

theorem finishBoot_result (result status detail : Nat) (s : State) :
    (finishBoot result status detail s).get F.bootCmdStatusResult = result % 2 ^ 3 :=
  (setEvent_get _ _ _ (by decide)).trans
    (State.get_puts_last s []
      [(F.bootCmdStatusStatus, status), (F.bootCmdStatusDetail, detail), (F.bootCmdStatusDone, 1)] _ _ rfl rfl)

theorem finishBoot_done (result status detail : Nat) (s : State) :
    (finishBoot result status detail s).get F.bootCmdStatusDone = 1 :=
  (setEvent_get _ _ _ (by decide)).trans
    (State.get_puts_last s
      [(F.bootCmdStatusResult, result), (F.bootCmdStatusStatus, status), (F.bootCmdStatusDetail, detail)] [] _ _ rfl rfl)

/-! A floor of at most 63 -/

theorem State.get_lt (s : State) (f : Field) : s.get f < 2 ^ f.width :=
  Nat.mod_lt _ (Nat.two_pow_pos _)

/-- BOOT_SLOT.RUN_VERSION is a field of 6 bits. -/
theorem State.runVersion_le (s : State) : s.get F.bootSlotRunVersion ≤ 63 :=
  Nat.le_of_lt_succ (s.get_lt F.bootSlotRunVersion)

/-! BURN_FLOOR -/

/-- The slot that is not running lets the floor rise: it verifies with a SECURITY_VERSION at least RUN_VERSION, or holds
no valid image (R118). -/
def State.AllowsFloorBurn (s : State) : Prop :=
  (∃ is, s.verifySlot (1 - s.get F.bootSlotRunning) = .ok is ∧
    s.get F.bootSlotRunVersion ≤ (is.headD ⟨0, 0, 0⟩).version) ∨
  ((∃ e, s.verifySlot (1 - s.get F.bootSlotRunning) = .error e) ∧
    s.slotVersion (1 - s.get F.bootSlotRunning) = none)

/-- The fused image floor is raised to version v, and BOOT_SLOT.FLOOR shows it. -/
def State.raiseImageFloor (v : Nat) (s : State) : State :=
  let f := max s.boot.fuses.imageFloor v
  State.put { s with boot := { s.boot with fuses := { s.boot.fuses with imageFloor := f } } } F.bootSlotFloor f

theorem State.raiseImageFloor_fuses (v : Nat) (s : State) : (s.raiseImageFloor v).boot.fuses =
    { s.boot.fuses with imageFloor := max s.boot.fuses.imageFloor v } := by
  rw [State.raiseImageFloor, State.boot_put]

theorem burnImageFloor_allowed {s : State} (h : s.AllowsFloorBurn) :
    burnImageFloor s = finishBoot 0 0 0 (s.raiseImageFloor (s.get F.bootSlotRunVersion)) := by
  obtain ⟨is, hverify, hversion⟩ | ⟨⟨e, hverify⟩, hempty⟩ := h
  · have hallowed : decide ((is.headD ⟨0, 0, 0⟩).version ≥ s.get F.bootSlotRunVersion) = true :=
      decide_eq_true hversion
    simp only [burnImageFloor, hverify, hallowed, Bool.not_true, Bool.false_eq_true, if_false, State.raiseImageFloor]
  · simp only [burnImageFloor, hverify, hempty, Option.isNone_none, Bool.not_true, Bool.false_eq_true, if_false,
      State.raiseImageFloor]

theorem burnImageFloor_refused {s : State} (h : ¬ s.AllowsFloorBurn) : burnImageFloor s = finishBoot 4 0 0 s := by
  cases hverify : s.verifySlot (1 - s.get F.bootSlotRunning) with
  | ok is =>
    have holder : decide ((is.headD ⟨0, 0, 0⟩).version ≥ s.get F.bootSlotRunVersion) = false :=
      decide_eq_false (fun hversion => h (.inl ⟨is, hverify, hversion⟩))
    simp only [burnImageFloor, hverify, holder, Bool.not_false, if_true]
  | error e =>
    have hheld : (s.slotVersion (1 - s.get F.bootSlotRunning)).isNone = false :=
      Bool.eq_false_iff.mpr (fun hempty => h (.inr ⟨⟨e, hverify⟩, Option.isNone_iff_eq_none.mp hempty⟩))
    simp only [burnImageFloor, hverify, hheld, Bool.not_false, if_true]

theorem burnImageFloor_allowed_fuses {s : State} (h : s.AllowsFloorBurn) : (burnImageFloor s).boot.fuses =
    { s.boot.fuses with imageFloor := max s.boot.fuses.imageFloor (s.get F.bootSlotRunVersion) } := by
  rw [burnImageFloor_allowed h, finishBoot_boot, State.raiseImageFloor_fuses]

theorem burnImageFloor_refused_fuses {s : State} (h : ¬ s.AllowsFloorBurn) :
    (burnImageFloor s).boot.fuses = s.boot.fuses := by
  rw [burnImageFloor_refused h, finishBoot_boot]

/-- BURN_FLOOR leaves the floor or raises it to RUN_VERSION. -/
theorem burnImageFloor_floor (s : State) :
    (burnImageFloor s).boot.fuses.imageFloor = s.boot.fuses.imageFloor ∨
      (burnImageFloor s).boot.fuses.imageFloor = max s.boot.fuses.imageFloor (s.get F.bootSlotRunVersion) := by
  by_cases h : s.AllowsFloorBurn
  · exact .inr (congrArg Fuses.imageFloor (burnImageFloor_allowed_fuses h))
  · exact .inl (congrArg Fuses.imageFloor (burnImageFloor_refused_fuses h))

theorem le_burnImageFloor_floor (s : State) :
    s.boot.fuses.imageFloor ≤ (burnImageFloor s).boot.fuses.imageFloor := by
  obtain hkept | hraised := burnImageFloor_floor s
  · exact Nat.le_of_eq hkept.symm
  · exact hraised ▸ Nat.le_max_left _ _

theorem burnImageFloor_floor_le {s : State} (h : s.boot.fuses.imageFloor ≤ 63) :
    (burnImageFloor s).boot.fuses.imageFloor ≤ 63 := by
  obtain hkept | hraised := burnImageFloor_floor s
  · exact hkept ▸ h
  · exact hraised ▸ Nat.max_le.mpr ⟨h, s.runVersion_le⟩

end Sys2Proof.Machine

namespace Sys2Proof
open Sys2Proof.Machine

/-- Settles O15: the burn ends in its carried out or its refused form by the test of the other slot, and the floor it
leaves is the old one or RUN_VERSION, a field of 6 bits. -/
theorem imageFloorBurn : Obligations.ImageFloorBurn := by
  unfold Obligations.ImageFloorBurn
  refine fun s => ⟨fun hallowed => ⟨burnImageFloor_allowed_fuses hallowed, ?_⟩, fun hrefused =>
    ⟨burnImageFloor_refused_fuses hrefused, ?_⟩, le_burnImageFloor_floor s, burnImageFloor_floor_le⟩
  · rw [burnImageFloor_allowed hallowed]
    exact ⟨finishBoot_result _ _ _ _, finishBoot_done _ _ _ _⟩
  · rw [burnImageFloor_refused hrefused]
    exact finishBoot_result _ _ _ _

end Sys2Proof
end

section
/-! PROOFS. Leases (spec/07 R184, R195): the three fields that record a holder, the two ends of a request that is not
ignored, and a release that no request waits for. -/
namespace Sys2Proof.Machine

/-! The record of a holder -/

/-- Record island n with epoch e as the holder of lease l, at age 0. -/
def State.recordLease (s : State) (l n e : Nat) : State :=
  s.puts [(F.fenceLeaseHolder l, n), (F.fenceLeaseEpoch l, e), (F.fenceLeaseAgeMs l, 0)]

/-- A field that ends below another one shares no bit with it. -/
theorem apart_of_below {f g : Field} (h : g.lo + g.width ≤ f.lo) : apart f g = true := by
  rw [apart, decide_eq_true h, Bool.or_true]

theorem State.leaseHolder_recordLease (s : State) (l n e : Nat) : (s.recordLease l n e).leaseHolder l = n % 2 ^ 7 := by
  have hepoch : apart (F.fenceLeaseEpoch l) (F.fenceLeaseHolder l) = true := apart_of_below (by decide : 0 + 7 ≤ 8)
  have hage : apart (F.fenceLeaseAgeMs l) (F.fenceLeaseHolder l) = true := apart_of_below (by decide : 0 + 7 ≤ 20)
  exact State.get_puts_last s [] [(F.fenceLeaseEpoch l, e), (F.fenceLeaseAgeMs l, 0)] _ _ rfl
    (by rw [List.all_cons, List.all_cons, hepoch, hage]; rfl)

theorem State.leaseEpoch_recordLease (s : State) (l n e : Nat) :
    (s.recordLease l n e).get (F.fenceLeaseEpoch l) = e % 2 ^ 8 := by
  have hage : apart (F.fenceLeaseAgeMs l) (F.fenceLeaseEpoch l) = true := apart_of_below (by decide : 8 + 8 ≤ 20)
  exact State.get_puts_last s [(F.fenceLeaseHolder l, n)] [(F.fenceLeaseAgeMs l, 0)] _ _ rfl
    (by rw [List.all_cons, hage]; rfl)

theorem State.leaseAge_recordLease (s : State) (l n e : Nat) :
    (s.recordLease l n e).get (F.fenceLeaseAgeMs l) = 0 :=
  State.get_puts_last s [(F.fenceLeaseHolder l, n), (F.fenceLeaseEpoch l, e)] [] _ _ rfl rfl

theorem State.fw_recordLease (s : State) (l n e : Nat) : (s.recordLease l n e).fw = s.fw := State.fw_puts _ _

theorem State.mem_recordLease (s : State) (l n e : Nat) : (s.recordLease l n e).mem = s.mem := State.mem_puts _ _

/-- The WAITERS count of a lease leaves its HOLDER. -/
theorem State.leaseHolder_put_waiters (s : State) (l k : Nat) :
    (s.put (F.fenceLeaseWaiters l) k).leaseHolder l = s.leaseHolder l :=
  State.get_put_apart _ _ _ _ rfl (apart_of_below (by decide : 0 + 7 ≤ 16))

/-! Requests -/

/-- Table 7.4: the islands that a lease is open to. -/
theorem leaseListed_iff (l : Fin 5) (n : Nat) (recovery : Bool) : leaseListed l n recovery = true ↔
    if l.val = 1 then n = 58 ∨ (n = 0 ∧ recovery = true) else n = 0 := by
  by_cases hnand : l.val = 1
  · rw [if_pos hnand, hnand, leaseListed, Bool.or_eq_true, Bool.and_eq_true, beq_iff_eq, beq_iff_eq]
  · rw [if_neg hnand, leaseListed, beq_iff_eq]
    exact hnand

/-- The queue that a request of island n joins: at the end, or at the head for the Groundskeeper's recovery (R184). -/
def State.leaseQueue (s : State) (l n e : Nat) (recovery : Bool) : List (Nat × Nat × Nat) :=
  if recovery = true ∧ n = 0 then (l, n, e) :: s.fw.waiters else s.fw.waiters ++ [(l, n, e)]

theorem exec_leaseRequest (l : Fin 5) (n : Fin 72) (e : BitVec 8) (recovery : Bool) (s : State) :
    exec (.leaseRequest l n e recovery) s = execLeaseRequest l n e recovery s := rfl

section Request
variable {s : State} {l : Fin 5} {n : Fin 72} {e : BitVec 8} {recovery : Bool}

theorem exec_leaseRequest_ignored (h : ¬ leaseListed l n recovery = true ∨ e.toNat ≠ s.epoch n) :
    exec (.leaseRequest l n e recovery) s = .next s := by
  have hignored : (!leaseListed l n recovery) = true ∨ e.toNat ≠ s.epoch n :=
    h.imp_left (fun hunlisted => by rw [eq_false_of_ne_true hunlisted, Bool.not_false])
  rw [exec_leaseRequest, execLeaseRequest, if_pos hignored]

theorem exec_leaseRequest_granted (hlisted : leaseListed l n recovery = true) (hepoch : e.toNat = s.epoch n)
    (hfree : s.leaseHolder l = 0x7F) (hforced : l.val ∉ s.fw.forced) :
    exec (.leaseRequest l n e recovery) s = .next (s.recordLease l n e.toNat) := by
  simp [exec_leaseRequest, execLeaseRequest, hlisted, ← hepoch, hfree, hforced, State.recordLease]

theorem exec_leaseRequest_queued (hlisted : leaseListed l n recovery = true) (hepoch : e.toNat = s.epoch n)
    (hheld : s.leaseHolder l ≠ 0x7F) : ∃ k, exec (.leaseRequest l n e recovery) s =
      .next (State.put { s with fw := { s.fw with waiters := s.leaseQueue l n e.toNat recovery } }
        (F.fenceLeaseWaiters l) k) := by
  refine ⟨min 15 ((s.leaseQueue l n e.toNat recovery).filter (fun x => x.1 = l.val)).length, ?_⟩
  simp [exec_leaseRequest, execLeaseRequest, hlisted, ← hepoch, hheld, State.leaseQueue]

end Request

/-! Renewals and releases -/

theorem State.holds_iff (s : State) (l n e : Nat) : s.holds l n e = true ↔
    s.leaseHolder l = n ∧ s.get (F.fenceLeaseEpoch l) = e ∧ s.epoch n = e := by
  simp only [State.holds, Bool.and_eq_true, beq_iff_eq, and_assoc]

theorem exec_leaseRenew (l : Fin 5) (n : Fin 72) (e : BitVec 8) (s : State) : exec (.leaseRenew l n e) s =
    .next (if s.holds l n e.toNat then s.put (F.fenceLeaseAgeMs l) 0 else s) := rfl

/-- A release leaves no host or management-port command with the lease (R188). -/
def State.forgetCommand (s : State) (l : Nat) : State :=
  { s with fw := { s.fw with forCommand := s.fw.forCommand.filter (fun x => x ≠ l) } }

theorem exec_leaseRelease (l : Fin 5) (n : Fin 72) (e : BitVec 8) (s : State) : exec (.leaseRelease l n e) s =
    .next (if s.holds l n e.toNat then grantNext l (freeLease l (s.forgetCommand l)) else s) := rfl

theorem freeLease_eq_recordLease (l : Nat) (s : State) : freeLease l s = s.recordLease l 0x7F 0 := rfl

theorem grantNext_no_waiter {l : Nat} {s : State} (h : ∀ w ∈ s.fw.waiters, w.1 ≠ l) : grantNext l s = s := by
  have hnone : s.fw.waiters.find? (fun w => w.1 = l) = none :=
    List.find?_eq_none.mpr (fun w hw => mt of_decide_eq_true (h w hw))
  simp only [grantNext, hnone, ite_self]

/-- A freed lease that no request waits for stays free. -/
theorem grantNext_freeLease_no_waiter {l : Nat} {s : State} (h : ∀ w ∈ s.fw.waiters, w.1 ≠ l) :
    grantNext l (freeLease l s) = s.recordLease l 0x7F 0 := by
  rw [freeLease_eq_recordLease]
  exact grantNext_no_waiter (by rwa [State.fw_recordLease])

end Sys2Proof.Machine

namespace Sys2Proof
open Sys2Proof.Machine

/-- Settles O26: a request is ignored, granted or queued by its island, its epoch and the lease's holder; a renewal or
a release acts for the recorded holder alone. -/
theorem leaseRules : Obligations.LeaseRules := by
  unfold Obligations.LeaseRules
  intro s l n e recovery
  have hn : n.val % 2 ^ 7 = n.val := Nat.mod_eq_of_lt (Nat.lt_trans n.isLt (by decide))
  simp only [← leaseListed_iff, ← State.holds_iff]
  refine ⟨⟨exec_leaseRequest_ignored, fun hlisted hepoch hfree hforced => ?_, fun hlisted hepoch hheld => ?_⟩,
    fun hother => ?_, fun hheld => ?_, fun hheld hwaiters => ?_⟩
  · refine ⟨_, exec_leaseRequest_granted hlisted hepoch hfree hforced, ?_, ?_, State.leaseAge_recordLease _ _ _ _,
      State.fw_recordLease _ _ _ _, State.mem_recordLease _ _ _ _⟩
    · rw [State.leaseHolder_recordLease, hn]
    · rw [State.leaseEpoch_recordLease, Nat.mod_eq_of_lt e.isLt]
  · obtain ⟨k, hexec⟩ := exec_leaseRequest_queued hlisted hepoch hheld
    exact ⟨_, hexec, State.leaseHolder_put_waiters _ _ _, rfl, rfl⟩
  · exact ⟨by rw [exec_leaseRenew, if_neg hother], by rw [exec_leaseRelease, if_neg hother]⟩
  · rw [exec_leaseRenew, if_pos hheld]
  · refine ⟨(s.forgetCommand l).recordLease l 0x7F 0, ?_, State.leaseHolder_recordLease _ _ _ _,
      State.mem_recordLease _ _ _ _⟩
    rw [exec_leaseRelease, if_pos hheld, grantNext_freeLease_no_waiter (s := s.forgetCommand l) hwaiters]

end Sys2Proof
end

section
/-! PROOFS. Work orders (spec/15 R380): the check of Table 15.4 that answers, what an entry that is checked becomes, and
what the urgent lane's part of it leaves unchanged. -/
namespace Sys2Proof.Machine

/-! The rows -/

theorem exec_work {op uid : Nat} {i : Instr} (hi : (op, i) ∈ [(1, Instr.gemm uid), (2, .conv uid), (3, .dwconv uid),
    (4, .pool uid), (5, .eltwise uid), (6, .reduce uid), (7, .gather uid), (8, .embedMatch uid), (9, .program uid)])
    (s : State) : exec i s = workRow op uid s := by
  simp only [List.mem_cons, Prod.mk.injEq, List.not_mem_nil, or_false] at hi
  obtain ⟨rfl, rfl⟩ | ⟨rfl, rfl⟩ | ⟨rfl, rfl⟩ | ⟨rfl, rfl⟩ | ⟨rfl, rfl⟩ | ⟨rfl, rfl⟩ | ⟨rfl, rfl⟩ | ⟨rfl, rfl⟩ |
    ⟨rfl, rfl⟩ := hi <;> rfl

theorem workRow_accepts {op uid : Nat} {s : State} {e : Entry} {d : List Byte} (he : s.entry uid = some e)
    (hd : e.desc = some d) (hop : e.opcode = 1) (hwo : woOp d = op) (hopen : s.isOpen 56 = true)
    (hnew : s.order uid = none) : workRow op uid s = .next (acceptOrder e d s) := by
  have hnone : (s.order uid).isNone = true := Option.isNone_iff_eq_none.mpr hnew
  simp only [workRow, he, hd, hop, hwo, hopen, hnone, and_self, if_true]

/-! The checks -/

/-- The checks of Table 15.4 as conditions that hold, in their order. -/
theorem State.woCheck_eq (s : State) (p : PlotCfg) (d : List Byte) : s.woCheck p d =
    if woDescOk d = true then
      if roleOk p d = true then
        if s.eligible p (woMask d) ≠ [] then
          if woOp d = 9 ∨ ∀ b ∈ s.eligible p (woMask d), woNeedBits d ≤ s.get (F.bedSplitScratch b) * 0x8000 * 8 then
            if woOp d ≠ 9 ∨ groupFits (woSize d 2) (woSize d 3) p.waves = true then none
            else some (dw1 0xF0 0xB5 0)
          else some (dw1 0xF0 0xB2 0)
        else some (dw1 0x41 0xB3 0)
      else some (dw1 0x41 0xB1 0)
    else some (dw1 0xF0 0xB0 0) := by
  have scratch : (woOp d ≠ 9 ∧ ((s.eligible p (woMask d)).any
        (fun b => s.get (F.bedSplitScratch b) * 0x8000 * 8 < woNeedBits d)) = true) ↔
      ¬ (woOp d = 9 ∨ ∀ b ∈ s.eligible p (woMask d), woNeedBits d ≤ s.get (F.bedSplitScratch b) * 0x8000 * 8) := by
    simp only [List.any_eq_true, decide_eq_true_eq, not_or, Classical.not_forall, Nat.not_le, exists_prop, ne_eq]
  have group : (woOp d = 9 ∧ ¬ groupFits (woSize d 2) (woSize d 3) p.waves = true) ↔
      ¬ (woOp d ≠ 9 ∨ groupFits (woSize d 2) (woSize d 3) p.waves = true) := by
    rw [not_or, Classical.not_not]
  simp only [State.woCheck, scratch, group, Bool.not_eq_true', ← Bool.not_eq_true, List.isEmpty_iff, ite_not]

/-! What an entry becomes -/

/-- The order that an entry becomes: START_TILE is its next tile and its count of completed tiles. -/
def State.newOrder (s : State) (e : Entry) (d : List Byte) : Order :=
  { uid := e.uid, fn := s.sqFn e.sq, allot := s.get (F.sqCfgAllot e.sq), plot := e.plot, cls := e.cls, desc := d,
    total := woT d, next := woStart d, prefix_ := woStart d, later := [], flags := 0, saturated := false,
    badIndex := false, ending := none }

/-- An order becomes the newest. -/
def State.addOrder (s : State) (o : Order) : State := { s with bed := { s.bed with orders := s.bed.orders ++ [o] } }

/-- What an urgent order does beside becoming the newest: it voids its guarantee without a channel of its class, notes
that it waits, and asks beds to yield (R526, R529). -/
def urgentOrder (e : Entry) (d : List Byte) (beds : List Nat) (p : PlotCfg) (s : State) : State :=
  let s2 := noteQueued e.uid beds (if s.noClass0 then urgentReason e.uid 7 s else s)
  askYield e.uid (woT d - woStart d) (s2.eligible p (woMask d)) s2

section Accept
variable {s : State} {e : Entry} {d : List Byte} {p : PlotCfg}

theorem acceptOrder_refused {w : Nat} (hp : s.plotCfg e.plot = some p) (hw : s.woCheck p d = some w) :
    acceptOrder e d s = finishEntry e.uid w 0 s := by
  simp only [acceptOrder, hp, hw]

theorem acceptOrder_complete (hp : s.plotCfg e.plot = some p) (hw : s.woCheck p d = none) (hT : woStart d = woT d) :
    acceptOrder e d s = finishEntry e.uid 0 (woT d) s := by
  simp only [acceptOrder, hp, hw, if_pos hT]

theorem acceptOrder_becomes (hp : s.plotCfg e.plot = some p) (hw : s.woCheck p d = none) (hT : woStart d ≠ woT d) :
    acceptOrder e d s = if e.cls ≠ 0 then s.addOrder (s.newOrder e d)
      else urgentOrder e d (s.eligible p (woMask d)) p (s.addOrder (s.newOrder e d)) := by
  simp only [acceptOrder, hp, hw, if_neg hT]
  rfl

end Accept

/-! What asking beds to yield leaves unchanged -/

/-- The orders, the memory and the host state are the same. -/
def State.SameOrders (s t : State) : Prop := t.bed.orders = s.bed.orders ∧ t.mem = s.mem ∧ t.host = s.host

theorem State.SameOrders.refl (s : State) : s.SameOrders s := ⟨rfl, rfl, rfl⟩

theorem State.SameOrders.trans {s t u : State} (h : s.SameOrders t) (k : t.SameOrders u) : s.SameOrders u := by
  obtain ⟨horders, hmem, hhost⟩ := h
  obtain ⟨korders, kmem, khost⟩ := k
  exact ⟨korders.trans horders, kmem.trans hmem, khost.trans hhost⟩

theorem State.sameOrders_each {α : Type} {f : α → State → State} (hf : ∀ a t, State.SameOrders t (f a t)) (l : List α)
    (s : State) : s.SameOrders (s.each l f) := by
  induction l generalizing s with
  | nil => exact .refl s
  | cons a l ih => exact (hf a s).trans (ih (f a s))

theorem sameOrders_urgentReason (uid code : Nat) (s : State) : s.SameOrders (urgentReason uid code s) := ⟨rfl, rfl, rfl⟩

theorem sameOrders_setBed (n : Nat) (b : Bed) (s : State) : s.SameOrders (setBed n b s) := ⟨rfl, rfl, rfl⟩

theorem sameOrders_noteQueued (uid : Nat) (beds : List Nat) (s : State) : s.SameOrders (noteQueued uid beds s) := by
  rw [noteQueued]
  split
  · exact .refl s
  · exact ⟨rfl, rfl, rfl⟩

theorem sameOrders_askYield (uid need : Nat) (beds : List Nat) (s : State) : s.SameOrders (askYield uid need beds s) :=
  (State.sameOrders_each (fun n t => sameOrders_setBed n { t.bedAt n with yielding := true } t) _ s).trans
    ⟨rfl, rfl, rfl⟩

theorem sameOrders_urgentOrder (e : Entry) (d : List Byte) (beds : List Nat) (p : PlotCfg) (s : State) :
    s.SameOrders (urgentOrder e d beds p s) := by
  have hreason : s.SameOrders (if s.noClass0 then urgentReason e.uid 7 s else s) := by
    split
    · exact sameOrders_urgentReason e.uid 7 s
    · exact .refl s
  exact (hreason.trans (sameOrders_noteQueued e.uid beds _)).trans (sameOrders_askYield ..)

/-- An entry that becomes an order is the newest, whatever its class; memory and host state stay. -/
theorem acceptOrder_newest {s : State} {e : Entry} {d : List Byte} {p : PlotCfg} (hp : s.plotCfg e.plot = some p)
    (hw : s.woCheck p d = none) (hT : woStart d ≠ woT d) :
    (s.addOrder (s.newOrder e d)).SameOrders (acceptOrder e d s) := by
  rw [acceptOrder_becomes hp hw hT]
  split
  · exact .refl _
  · exact sameOrders_urgentOrder ..

end Sys2Proof.Machine

namespace Sys2Proof
open Sys2Proof.Machine

/-- Settles O49: the row accepts the entry, and the answer is that of the first failing check; with none failing the
entry completes at START_TILE = T and becomes the newest order otherwise. -/
theorem workOrderChecks : Obligations.WorkOrderChecks := by
  unfold Obligations.WorkOrderChecks
  intro s uid e d p op i hi he huid hd hopcode hop hopen hnew hp
  subst huid hop
  have hexec : exec i s = .next (acceptOrder e d s) :=
    (exec_work hi s).trans (workRow_accepts he hd hopcode rfl hopen hnew)
  have refused : ∀ {w}, s.woCheck p d = some w → exec i s = .next (finishEntry e.uid w 0 s) :=
    fun hw => hexec.trans (congrArg _ (acceptOrder_refused hp hw))
  have hcheck := s.woCheck_eq p d
  refine ⟨fun h1 => refused ?_, fun h1 h2 => refused ?_, fun h1 h2 h3 => refused ?_, fun h1 h2 h3 h4 => refused ?_,
    fun h1 h2 h3 h4 h5 => refused ?_, fun h1 h2 h3 h4 h5 hT => ?_, fun h1 h2 h3 h4 h5 hT => ?_⟩
  · rw [hcheck, if_neg h1]
  · rw [hcheck, if_pos h1, if_neg h2]
  · rw [hcheck, if_pos h1, if_pos h2, if_neg h3]
  · rw [hcheck, if_pos h1, if_pos h2, if_pos h3, if_neg h4]
  · rw [hcheck, if_pos h1, if_pos h2, if_pos h3, if_pos h4, if_neg h5]
  all_goals rw [if_pos h1, if_pos h2, if_pos h3, if_pos h4, if_pos h5] at hcheck
  · exact hexec.trans (congrArg _ (acceptOrder_complete hp hcheck hT))
  · obtain ⟨horders, hmem, hhost⟩ := acceptOrder_newest hp hcheck hT
    refine ⟨_, s.newOrder e d, hexec, horders, rfl, rfl, rfl, rfl, rfl, rfl, rfl, hmem, hhost, fun hcls => ?_⟩
    exact (acceptOrder_becomes hp hcheck hT).trans (if_pos hcls)

end Sys2Proof
end

section
/-! PROOFS. What every operation of the model that is no burn does to the fuses (spec/02 R49, R50; spec/04 R110, R118):
nothing. One equation per operation, in the order of the model's files, so that a caller's equation follows from those of
its callees. The operations that reach a burn (PLAN_CMD, BOOT_CMD and the register writes and TLPs that carry them) are
left out here and treated after this part. -/
namespace Sys2Proof.Machine

/-- The fuses of a state. -/
def State.fuses (s : State) : Fuses := s.boot.fuses

/-- The fuses of the state that an operation with a result leaves. -/
def fusesAfter {α : Type} (x : α × State) : Fuses := x.2.fuses

@[simp] theorem boot_fuses (s : State) : s.boot.fuses = s.fuses := by rw [State.fuses]
@[simp] theorem fuses_snd {α : Type} (x : α × State) : x.2.fuses = fusesAfter x := by rw [fusesAfter]
@[simp] theorem fusesAfter_mk {α : Type} (a : α) (s : State) : fusesAfter (a, s) = s.fuses := by rw [fusesAfter]
@[simp] theorem fuses_mk (regs isl mem mmu host fw plan boot board pwr fence hose bed rake furrow mgmt disp switch intake
    nand evid acou tap timeUs fresh pending) :
    State.fuses ⟨regs, isl, mem, mmu, host, fw, plan, boot, board, pwr, fence, hose, bed, rake, furrow, mgmt, disp, switch,
      intake, nand, evid, acou, tap, timeUs, fresh, pending⟩ = boot.fuses := by rw [State.fuses]
@[simp] theorem fuses_mk_boot (regs isl mem mmu host fw plan board pwr fence hose bed rake furrow mgmt disp switch intake
    nand evid acou tap timeUs fresh pending) (fuses starting startedAt stepAt halted mirror tripMark nandClean ecc rate
    memCfg heldPower linkTraining clearing verified) :
    State.fuses ⟨regs, isl, mem, mmu, host, fw, plan, ⟨fuses, starting, startedAt, stepAt, halted, mirror, tripMark,
      nandClean, ecc, rate, memCfg, heldPower, linkTraining, clearing, verified⟩, board, pwr, fence, hose, bed, rake,
      furrow, mgmt, disp, switch, intake, nand, evid, acou, tap, timeUs, fresh, pending⟩ = fuses := by rw [State.fuses]
@[simp] theorem fuses_ite (c : Prop) [Decidable c] (s t : State) :
    (if c then s else t).fuses = if c then s.fuses else t.fuses := apply_ite ..
@[simp] theorem fusesAfter_ite {α : Type} (c : Prop) [Decidable c] (x y : α × State) :
    fusesAfter (if c then x else y) = if c then fusesAfter x else fusesAfter y := apply_ite ..
@[simp] theorem fuses_each {α : Type} (s : State) (l : List α) (f : α → State → State)
    (h : ∀ a t, (f a t).fuses = t.fuses) : (s.each l f).fuses = s.fuses := by
  induction l generalizing s with
  | nil => rfl
  | cons a l ih => exact (ih (f a s)).trans (h a s)
@[simp] theorem fuses_when (s : State) (c : Bool) (f : State → State)
    (h : ∀ t, (f t).fuses = t.fuses) : (s.when c f).fuses = s.fuses := by
  unfold State.when; split <;> simp [h]
@[simp] theorem completes_next (t : State) (p : State → Prop) : Completes (.next t) p ↔ p t := by simp [Completes]
@[simp] theorem fuses_puts (s : State) (l : List (Field × Nat)) : (s.puts l).fuses = s.fuses :=
  congrArg BootUnit.fuses (State.boot_puts s l)

theorem foldl_keeps {α β γ : Type} (g : β → γ) (f : β → α → β) (h : ∀ x a, g (f x a) = g x) (l : List α) (x : β) :
    g (l.foldl f x) = g x := by
  induction l generalizing x with
  | nil => rfl
  | cons a l ih => exact (ih (f x a)).trans (h x a)

/-- Induction over a function by structural recursion on a list, for those whose equations the kernel cannot check
(it would run the accesses that they match on). -/
theorem list_brecOn_keeps {α : Type} {C : List α → Type} (P : ∀ l, C l → Prop)
    (F : ∀ l, List.below (motive := C) l → C l) (hnil : ∀ b, P [] (F [] b))
    (hcons : ∀ a l b, P l b.1 → P (a :: l) (F (a :: l) b)) (l : List α) : P l (List.brecOn l F) := by
  induction l with
  | nil => exact hnil _
  | cons a l ih => exact hcons a l _ ih

/-! Machine/Ops -/

@[simp] theorem fuses_wr (s : State) (off) (v) : (State.wr s off v).fuses = s.fuses := by simp [State.wr]
@[simp] theorem fuses_put (s : State) (f) (v) : (State.put s f v).fuses = s.fuses := by simp [State.put]
@[simp] theorem fuses_bump (s : State) (f) (n) : (State.bump s f n).fuses = s.fuses := by simp [State.bump]
@[simp] theorem fuses_bump32 (s : State) (off) (n) : (State.bump32 s off n).fuses = s.fuses := by simp [State.bump32]
@[simp] theorem fuses_wrap32 (s : State) (off) (n) : (State.wrap32 s off n).fuses = s.fuses := by simp [State.wrap32]
@[simp] theorem fuses_wr64 (s : State) (off) (v) : (State.wr64 s off v).fuses = s.fuses := by simp [State.wr64]
@[simp] theorem fuses_draw (s : State) : fusesAfter (State.draw s) = s.fuses := by simp [State.draw]
@[simp] theorem fuses_setFn (s : State) (f) (p) : (State.setFn s f p).fuses = s.fuses := by simp [State.setFn]
@[simp] theorem fuses_sendMsi (f) (v) (s : State) : (sendMsi f v s).fuses = s.fuses := by simp [sendMsi]
@[simp] theorem fuses_setEvent (b) (s : State) : (setEvent b s).fuses = s.fuses := by simp [setEvent]
@[simp] theorem fuses_setRingEvent (f) (s : State) : (setRingEvent f s).fuses = s.fuses := by simp [setRingEvent]
@[simp] theorem fuses_setGlobal (f) (s : State) : (setGlobal f s).fuses = s.fuses := by simp [setGlobal]
@[simp] theorem fuses_badAccess (s : State) : (badAccess s).fuses = s.fuses := by simp [badAccess]
@[simp] theorem fuses_darkAccess (n) (s : State) : (darkAccess n s).fuses = s.fuses := by simp [darkAccess]
@[simp] theorem fuses_moveToken (holder) (how) (s : State) : (moveToken holder how s).fuses = s.fuses := by
  simp [moveToken]
@[simp] theorem fuses_hostWrite (f) (addr) (bs) (s : State) : (hostWrite f addr bs s).fuses = s.fuses := by
  simp [hostWrite]

/-! Machine/Phys -/

@[simp] theorem fuses_putDramUnit (pa) (k) (poisoned) (d) (s : State) :
    (putDramUnit pa k poisoned d s).fuses = s.fuses := by
  simp [putDramUnit]
@[simp] theorem fuses_urgentReason (uid) (code) (s : State) : (urgentReason uid code s).fuses = s.fuses := by
  simp [urgentReason]
@[simp] theorem fuses_reasonFor (code) (sq) (plot) (s : State) : (reasonFor code sq plot s).fuses = s.fuses := by
  simp [reasonFor]
@[simp] theorem fuses_countUnits (ch) (cls) (n) (s : State) : (countUnits ch cls n s).fuses = s.fuses := by
  simp [countUnits]
@[simp] theorem fuses_refreshDirty (s : State) : (refreshDirty s).fuses = s.fuses := by simp [refreshDirty]
@[simp] theorem fuses_putLine (l) (s : State) : (putLine l s).fuses = s.fuses := by simp [putLine]
@[simp] theorem fuses_dropLine (pa) (s : State) : (dropLine pa s).fuses = s.fuses := by simp [dropLine]
@[simp] theorem fuses_writeBack (l) (s : State) : (writeBack l s).fuses = s.fuses := by simp [writeBack]
@[simp] theorem fuses_evict (l) (s : State) : (evict l s).fuses = s.fuses := by
  unfold evict
  dsimp only
  split <;> simp
@[simp] theorem fuses_allocWay (sl) (set) (s : State) : fusesAfter (allocWay sl set s) = s.fuses := by
  unfold allocWay
  dsimp only
  (repeat' split) <;> simp
@[simp] theorem fuses_placeLine (pa) (s : State) : fusesAfter (placeLine pa s) = s.fuses := by
  unfold placeLine
  split <;> simp
@[simp] theorem fuses_fetchLine (q) (pa) (s : State) : fusesAfter (fetchLine q pa s) = s.fuses := by simp [fetchLine]
@[simp] theorem fuses_refreshLock (sl) (k) (s : State) : (refreshLock sl k s).fuses = s.fuses := by simp [refreshLock]
@[simp] theorem fuses_insertLine (q) (pa) (pre) (d) (s : State) : (insertLine q pa pre d s).fuses = s.fuses := by
  unfold insertLine
  dsimp only
  (repeat' split) <;> simp
@[simp] theorem fuses_prefetchNext (q) (pa) (s : State) : (prefetchNext q pa s).fuses = s.fuses := by
  simp [prefetchNext]
@[simp] theorem fuses_islandReset (n) (s : State) : fusesAfter (islandReset n s) = s.fuses := by simp [islandReset]
@[simp] theorem fuses_lookupLine (q) (pa) (s : State) : fusesAfter (lookupLine q pa s) = s.fuses := by
  unfold lookupLine
  dsimp only
  (repeat' split) <;> simp
@[simp] theorem fuses_giveLine (q) (pa) (d) (s : State) : fusesAfter (giveLine q pa d s) = s.fuses := by
  simp [giveLine]
@[simp] theorem fuses_fillLine (q) (pa) (s : State) : fusesAfter (fillLine q pa s) = s.fuses := by simp [fillLine]
@[simp] theorem fuses_lineFor (q) (whole) (pa) (s : State) : fusesAfter (lineFor q whole pa s) = s.fuses := by
  unfold lineFor
  dsimp only
  split <;> simp
@[simp] theorem fuses_denied (pa) (s : State) : fusesAfter (denied pa s) = s.fuses := by simp [denied]
@[simp] theorem fuses_readFrom (l) (o) (n) (s : State) : fusesAfter (readFrom l o n s) = s.fuses := by simp [readFrom]
@[simp] theorem fuses_writeInto (q) (l) (o) (bs) (s : State) : (writeInto q l o bs s).fuses = s.fuses := by
  simp [writeInto]
@[simp] theorem fuses_answerMem (island) (r) (s : State) : (answerMem island r s).fuses = s.fuses := by
  simp [answerMem]
@[simp] theorem fuses_performFill (f) (s : State) : (performFill f s).fuses = s.fuses := by
  unfold performFill
  (repeat' split) <;> simp
@[simp] theorem fuses_performFills (base) (s : State) : (performFills base s).fuses = s.fuses := by
  simp [performFills]
@[simp] theorem fuses_abortFills (n) (p) (s : State) : (abortFills n p s).fuses = s.fuses := by simp [abortFills]
@[simp] theorem fuses_readInLine (q0) (pa) (n) (s0 : State) : fusesAfter (readInLine q0 pa n s0) = s0.fuses := by
  unfold readInLine
  dsimp only
  (repeat' split) <;> simp
@[simp] theorem fuses_writeInLine (q0) (pa) (bs) (s0 : State) : fusesAfter (writeInLine q0 pa bs s0) = s0.fuses := by
  unfold writeInLine
  dsimp only
  (repeat' split) <;> simp
@[simp] theorem fuses_bedAccess (q) (n) (off) (len) (write) (s : State) :
    fusesAfter (bedAccess q n off len write s) = s.fuses := by
  simp [bedAccess]
@[simp] theorem fuses_readLines (q) (x1) (x2) (x3) (x4 : State) :
    fusesAfter (readLines q x1 x2 x3 x4) = x4.fuses := by
  fun_induction readLines <;> simp +zetaDelta [*]
@[simp] theorem fuses_writeLines (q) (x1) (x2) (x3) (x4 : State) :
    fusesAfter (writeLines q x1 x2 x3 x4) = x4.fuses := by
  fun_induction writeLines <;> simp +zetaDelta [*]
@[simp] theorem fuses_physRead (q) (pa) (n) (s : State) : fusesAfter (physRead q pa n s) = s.fuses := by
  unfold physRead
  dsimp only
  (repeat' split) <;> simp
@[simp] theorem fuses_physWrite (q) (pa) (bs) (s : State) : fusesAfter (physWrite q pa bs s) = s.fuses := by
  unfold physWrite
  dsimp only
  (repeat' split) <;> simp
@[simp] theorem fuses_readSource (w) (off) (n) (s : State) : fusesAfter (readSource w off n s) = s.fuses := by
  unfold readSource
  dsimp only
  (repeat' split) <;> simp
@[simp] theorem fuses_writeDest (w) (off) (bs) (s : State) : (writeDest w off bs s).fuses = s.fuses := by
  unfold writeDest
  split <;> simp

/-! Machine/Listen -/

@[simp] theorem fuses_onAcou (f) (s : State) : (onAcou f s).fuses = s.fuses := by simp [onAcou]
@[simp] theorem fuses_settleMics (s : State) : (settleMics s).fuses = s.fuses := by simp [settleMics]
@[simp] theorem fuses_emptyRoll (s : State) : (emptyRoll s).fuses = s.fuses := by simp [emptyRoll]
@[simp] theorem fuses_configureAcoustic (s : State) : (configureAcoustic s).fuses = s.fuses := by
  simp [configureAcoustic]
@[simp] theorem fuses_reseedFloors (s : State) : (reseedFloors s).fuses = s.fuses := by simp [reseedFloors]
@[simp] theorem fuses_recordFrame (f) (s : State) : (recordFrame f s).fuses = s.fuses := by simp [recordFrame]

/-! Machine/Configure -/

@[simp] theorem fuses_putLock (sl) (k) (l) (way) (s : State) : (putLock sl k l way s).fuses = s.fuses := by
  simp [putLock]
@[simp] theorem fuses_clearLock (sl) (k) (s : State) : (clearLock sl k s).fuses = s.fuses := by simp [clearLock]
@[simp] theorem fuses_configureSlice (sl) (s : State) : (configureSlice sl s).fuses = s.fuses := by
  simp [configureSlice]
@[simp] theorem fuses_preloadLock (sl) (k) (s : State) : (preloadLock sl k s).fuses = s.fuses := by simp [preloadLock]
@[simp] theorem fuses_preloadSlice (sl) (s : State) : (preloadSlice sl s).fuses = s.fuses := by simp [preloadSlice]
@[simp] theorem fuses_configureBed (b) (s : State) : (configureBed b s).fuses = s.fuses := by simp [configureBed]
@[simp] theorem fuses_configureChannel (c) (s : State) : (configureChannel c s).fuses = s.fuses := by
  simp [configureChannel]
@[simp] theorem fuses_configureUrgent (s : State) : (configureUrgent s).fuses = s.fuses := by simp [configureUrgent]
@[simp] theorem fuses_configureIsland (n) (s : State) : (configureIsland n s).fuses = s.fuses := by
  simp [configureIsland]
@[simp] theorem fuses_refreshThresholds (s : State) : (refreshThresholds s).fuses = s.fuses := by
  simp [refreshThresholds]
@[simp] theorem fuses_configureCommon (s : State) : (configureCommon s).fuses = s.fuses := by simp [configureCommon]

/-! Machine/Walk -/

@[simp] theorem fuses_tableEntry (q) (fn) (hostSpace) (addr) (s : State) :
    fusesAfter (tableEntry q fn hostSpace addr s) = s.fuses := by
  unfold tableEntry
  dsimp only
  (repeat' split) <;> simp

@[simp] theorem fuses_walkFrom (q fn allot hs va l tb) (s : State) :
    fusesAfter (walkFrom q fn allot hs va l tb s) = s.fuses := by
  induction l generalizing tb s with
  | zero =>
    rw [walkFrom]
    dsimp only
    (repeat' split) <;> simp
  | succ l ih =>
    rw [walkFrom]
    dsimp only
    (repeat' split) <;> simp [ih]

@[simp] theorem fuses_cacheEntry (t) (s : State) : (cacheEntry t s).fuses = s.fuses := by simp [cacheEntry]
@[simp] theorem fuses_translate (q) (fn) (allot) (va) (a) (pinned) (s : State) :
    fusesAfter (translate q fn allot va a pinned s) = s.fuses := by
  unfold translate
  dsimp only
  (repeat' split) <;> simp

@[simp] theorem fuses_vaReadFrom (q fn allot a pinned fuel va n) (s : State) :
    fusesAfter (vaReadFrom q fn allot a pinned fuel va n s) = s.fuses := by
  induction fuel generalizing va n s with
  | zero => simp [vaReadFrom]
  | succ fuel ih =>
    unfold vaReadFrom
    dsimp only
    (repeat' split) <;> simp [ih]

@[simp] theorem fuses_vaRead (q) (fn) (allot) (va) (n) (a) (pinned) (s : State) :
    fusesAfter (vaRead q fn allot va n a pinned s) = s.fuses := by
  simp [vaRead]
@[simp] theorem fuses_vaWriteFrom (q) (fn) (allot) (pinned) (x4) (x5) (x6) (x7 : State) :
    fusesAfter (vaWriteFrom q fn allot pinned x4 x5 x6 x7) = x7.fuses := by
  fun_induction vaWriteFrom <;> simp +zetaDelta [*]
@[simp] theorem fuses_vaWrite (q) (fn) (allot) (va) (bs) (pinned) (s : State) :
    fusesAfter (vaWrite q fn allot va bs pinned s) = s.fuses := by
  simp [vaWrite]
@[simp] theorem fuses_putBatch (b) (s : State) : (putBatch b s).fuses = s.fuses := by simp [putBatch]
@[simp] theorem fuses_refreshRing (fn) (s : State) : (refreshRing fn s).fuses = s.fuses := by simp [refreshRing]

@[simp] theorem fuses_writeRecords (fn number i rs) (s : State) : (writeRecords fn number i rs s).fuses = s.fuses := by
  induction rs generalizing i s with
  | nil => simp [writeRecords]
  | cons r rs ih => simp [writeRecords, ih]

@[simp] theorem fuses_writeBatch (fn) (s : State) : (writeBatch fn s).fuses = s.fuses := by
  unfold writeBatch
  split <;> simp
@[simp] theorem fuses_closeBatch (fn) (s : State) : (closeBatch fn s).fuses = s.fuses := by
  unfold closeBatch
  split <;> simp
@[simp] theorem fuses_joinBatch (fn) (r) (s : State) : (joinBatch fn r s).fuses = s.fuses := by
  unfold joinBatch
  dsimp only
  (repeat' split) <;> simp
@[simp] theorem fuses_reportFault (fn) (r) (s : State) : fusesAfter (reportFault fn r s) = s.fuses := by
  simp [reportFault]
@[simp] theorem fuses_unstall (st) (s : State) : (unstall st s).fuses = s.fuses := by simp [unstall]

/-! Machine/Complete -/

@[simp] theorem fuses_haltSq (r) (reason) (s : State) : (haltSq r reason s).fuses = s.fuses := by simp [haltSq]
@[simp] theorem fuses_haltCq (r) (reason) (s : State) : (haltCq r reason s).fuses = s.fuses := by simp [haltCq]
@[simp] theorem fuses_disableSq (r) (s : State) : (disableSq r s).fuses = s.fuses := by simp [disableSq]
@[simp] theorem fuses_disableCq (r) (s : State) : (disableCq r s).fuses = s.fuses := by simp [disableCq]
@[simp] theorem fuses_cqWrite (r) (slot) (bs) (s : State) : fusesAfter (cqWrite r slot bs s) = s.fuses := by
  simp [cqWrite]
@[simp] theorem fuses_signalCq (r) (now) (s : State) : (signalCq r now s).fuses = s.fuses := by simp [signalCq]
@[simp] theorem fuses_countFull (r) (s : State) : (countFull r s).fuses = s.fuses := by simp [countFull]
@[simp] theorem fuses_writeCompletion (c) (s : State) : (writeCompletion c s).fuses = s.fuses := by
  unfold writeCompletion
  dsimp only
  split <;> simp
@[simp] theorem fuses_postCompletion (c) (s : State) : (postCompletion c s).fuses = s.fuses := by
  simp [postCompletion]
@[simp] theorem fuses_drainCq (r) (x1) (x2 : State) : (drainCq r x1 x2).fuses = x2.fuses := by
  fun_induction drainCq <;> simp [*]
@[simp] theorem fuses_settleSq (r) (s : State) : (settleSq r s).fuses = s.fuses := by simp [settleSq]
@[simp] theorem fuses_completeEntry (uid) (r) (s : State) : (completeEntry uid r s).fuses = s.fuses := by
  unfold completeEntry
  split <;> simp
@[simp] theorem fuses_completeHead (sq) (tag) (cls) (irqNow) (r) (s : State) :
    (completeHead sq tag cls irqNow r s).fuses = s.fuses := by
  simp [completeHead]

/-! Machine/Doorbell -/

@[simp] theorem fuses_takeTail (r) (tail) (us) (shade) (reasons) (s : State) :
    (takeTail r tail us shade reasons s).fuses = s.fuses := by
  simp [takeTail]
@[simp] theorem fuses_ringTail (r) (tail) (shade) (s : State) : (ringTail r tail shade s).fuses = s.fuses := by
  simp [ringTail]
@[simp] theorem fuses_readLatched (s : State) : (readLatched s).fuses = s.fuses := by simp [readLatched]
@[simp] theorem fuses_ringHead (r) (head) (s : State) : (ringHead r head s).fuses = s.fuses := by simp [ringHead]

/-! Machine/Link -/

@[simp] theorem fuses_trainLink (s : State) : (trainLink s).fuses = s.fuses := by
  fun_cases trainLink <;> simp
@[simp] theorem fuses_dropLink (s : State) : (dropLink s).fuses = s.fuses := by simp [dropLink]
@[simp] theorem fuses_openDisplay (s : State) : (openDisplay s).fuses = s.fuses := by
  unfold openDisplay
  dsimp only
  split <;> simp
@[simp] theorem fuses_closeDisplay (s : State) : (closeDisplay s).fuses = s.fuses := by simp [closeDisplay]

/-! Machine/Close -/

@[simp] theorem fuses_resetRegs (kept) (named) (s : State) : (resetRegs kept named s).fuses = s.fuses := by
  simp [resetRegs]
@[simp] theorem fuses_wakeRegs (n) (s : State) : (wakeRegs n s).fuses = s.fuses := by simp [wakeRegs]
@[simp] theorem fuses_coldRegs (n) (s : State) : (coldRegs n s).fuses = s.fuses := by simp [coldRegs]
@[simp] theorem fuses_recordClose (n) (cause) (s : State) : (recordClose n cause s).fuses = s.fuses := by
  simp [recordClose]
@[simp] theorem fuses_answerError (status) (cause) (t) (s : State) :
    (answerError status cause t s).fuses = s.fuses := by
  simp [answerError]
@[simp] theorem fuses_answerPending (n) (s : State) : (answerPending n s).fuses = s.fuses := by simp [answerPending]
@[simp] theorem fuses_clearTlb (n) (s : State) : (clearTlb n s).fuses = s.fuses := by simp [clearTlb]
@[simp] theorem fuses_clearBedMem (n) (s : State) : (clearBedMem n s).fuses = s.fuses := by simp [clearBedMem]
@[simp] theorem fuses_loseSlice (sl) (cause) (s : State) : (loseSlice sl cause s).fuses = s.fuses := by
  simp [loseSlice]
@[simp] theorem fuses_freeLease (l) (s : State) : (freeLease l s).fuses = s.fuses := by simp [freeLease]
@[simp] theorem fuses_grantNext (l) (s : State) : (grantNext l s).fuses = s.fuses := by
  unfold grantNext
  (repeat' split) <;> simp
@[simp] theorem fuses_leaseEnded (l) (s : State) : (leaseEnded l s).fuses = s.fuses := by simp [leaseEnded]
@[simp] theorem fuses_forceLeases (n) (s : State) : (forceLeases n s).fuses = s.fuses := by simp [forceLeases]
@[simp] theorem fuses_loseIsland60 (s : State) : (loseIsland60 s).fuses = s.fuses := by simp [loseIsland60]

/-! Machine/Transfers -/

@[simp] theorem fuses_refreshChannel (e) (c) (s : State) : (refreshChannel e c s).fuses = s.fuses := by
  unfold refreshChannel
  dsimp only
  split <;> simp
@[simp] theorem fuses_putTransfer (t) (s : State) : (putTransfer t s).fuses = s.fuses := by simp [putTransfer]
@[simp] theorem fuses_dropTransfer (e) (c) (uid) (s : State) : (dropTransfer e c uid s).fuses = s.fuses := by
  simp [dropTransfer]
@[simp] theorem fuses_startNext (e) (c) (s : State) : (startNext e c s).fuses = s.fuses := by
  unfold startNext
  split <;> simp
@[simp] theorem fuses_endTransfer (e) (c) (r) (s : State) : (endTransfer e c r s).fuses = s.fuses := by
  unfold endTransfer
  split <;> simp
@[simp] theorem fuses_releaseChannel (e) (c) (n) (s : State) : (releaseChannel e c n s).fuses = s.fuses := by
  simp [releaseChannel]
@[simp] theorem fuses_setBed (n) (b) (s : State) : (setBed n b s).fuses = s.fuses := by simp [setBed]
@[simp] theorem fuses_postIncrement (n) (sem) (k) (s : State) : (postIncrement n sem k s).fuses = s.fuses := by
  simp [postIncrement]

@[simp] theorem fuses_copySlab (t fuel e) (s : State) : fusesAfter (copySlab t fuel e s).2 = s.fuses := by
  induction fuel generalizing e s with
  | zero => simp [copySlab]
  | succ fuel ih =>
    unfold copySlab
    dsimp only
    (repeat' split) <;> simp [ih]

@[simp] theorem fuses_stallTransfer (t) (elem) (reason) (level) (va) (access) (s : State) :
    (stallTransfer t elem reason level va access s).fuses = s.fuses := by
  unfold stallTransfer
  dsimp only
  split <;> simp
@[simp] theorem fuses_giveCredit (t) (s : State) : fusesAfter (giveCredit t s) = s.fuses := by
  unfold giveCredit
  dsimp only
  (repeat' split) <;> simp
@[simp] theorem fuses_creditSlab (t) (s : State) : (creditSlab t s).fuses = s.fuses := by simp [creditSlab]

@[simp] theorem fuses_runSlab (t) (s : State) : (runSlab t s).fuses = s.fuses := by
  unfold runSlab
  dsimp only
  split
  · simp
  · simp
  · split <;> simp

@[simp] theorem fuses_drainChannel (e) (c) (s : State) : (drainChannel e c s).fuses = s.fuses := by
  unfold drainChannel
  split <;> simp
@[simp] theorem fuses_closeHose (e) (s : State) : (closeHose e s).fuses = s.fuses := by simp [closeHose]

/-! Machine/Waves -/

@[simp] theorem fuses_putOrder (o) (s : State) : (putOrder o s).fuses = s.fuses := by simp [putOrder]
@[simp] theorem fuses_refreshBed (n) (s : State) : (refreshBed n s).fuses = s.fuses := by simp [refreshBed]
@[simp] theorem fuses_changeBed (n) (f) (s : State) : (changeBed n f s).fuses = s.fuses := by simp [changeBed]
@[simp] theorem fuses_stopTiles (uid) (s : State) : (stopTiles uid s).fuses = s.fuses := by simp [stopTiles]
@[simp] theorem fuses_clearOrderStall (uid) (s : State) : (clearOrderStall uid s).fuses = s.fuses := by
  simp [clearOrderStall]
@[simp] theorem fuses_recordUrgent (uid) (s : State) : (recordUrgent uid s).fuses = s.fuses := by
  unfold recordUrgent
  split <;> simp
@[simp] theorem fuses_putJob (j) (s : State) : (putJob j s).fuses = s.fuses := by simp [putJob]
@[simp] theorem fuses_refreshRake (s : State) : (refreshRake s).fuses = s.fuses := by
  unfold refreshRake
  dsimp only
  split <;> simp
@[simp] theorem fuses_startBinning (s : State) : (startBinning s).fuses = s.fuses := by
  fun_cases startBinning <;> simp
@[simp] theorem fuses_dropJob (uid) (s : State) : (dropJob uid s).fuses = s.fuses := by simp [dropJob]
@[simp] theorem fuses_endOrder (uid) (word) (s : State) : (endOrder uid word s).fuses = s.fuses := by
  unfold endOrder
  split <;> simp
@[simp] theorem fuses_endAtBoundary (uid) (word) (s : State) : (endAtBoundary uid word s).fuses = s.fuses := by
  unfold endAtBoundary
  split <;> simp
@[simp] theorem fuses_orderTileDone (uid) (tile) (s : State) : (orderTileDone uid tile s).fuses = s.fuses := by
  unfold orderTileDone
  dsimp only
  (repeat' split) <;> simp
@[simp] theorem fuses_recordTrap (n) (kind) (slot) (status) (detail) (tag) (pc) (word) (s : State) :
    (recordTrap n kind slot status detail tag pc word s).fuses = s.fuses := by
  simp [recordTrap]
@[simp] theorem fuses_trapWave (n) (w) (kind) (status) (detail) (word) (s : State) :
    (trapWave n w kind status detail word s).fuses = s.fuses := by
  simp [trapWave]
@[simp] theorem fuses_trapIllegal (n) (w) (word) (s : State) : (trapIllegal n w word s).fuses = s.fuses := by
  simp [trapIllegal]
@[simp] theorem fuses_trapMisaligned (n) (w) (word) (s : State) : (trapMisaligned n w word s).fuses = s.fuses := by
  simp [trapMisaligned]
@[simp] theorem fuses_trapRange (n) (w) (word) (s : State) : (trapRange n w word s).fuses = s.fuses := by
  simp [trapRange]
@[simp] theorem fuses_trapAccess (n) (w) (e) (word) (s : State) : (trapAccess n w e word s).fuses = s.fuses := by
  simp [trapAccess]
@[simp] theorem fuses_refreshNumx (s : State) : (refreshNumx s).fuses = s.fuses := by simp [refreshNumx]
@[simp] theorem fuses_raiseFlags (n) (uid) (tiller) (fl) (s : State) :
    (raiseFlags n uid tiller fl s).fuses = s.fuses := by
  unfold raiseFlags
  dsimp only
  (repeat' split) <;> simp
@[simp] theorem fuses_recordNum (n) (kind) (e) (s : State) : (recordNum n kind e s).fuses = s.fuses := by
  simp [recordNum]
@[simp] theorem fuses_clearNum (at_0) (s : State) : (clearNum at_0 s).fuses = s.fuses := by simp [clearNum]
@[simp] theorem fuses_cutOrder (uid) (s : State) : (cutOrder uid s).fuses = s.fuses := by simp [cutOrder]
@[simp] theorem fuses_closeBed (n) (s : State) : (closeBed n s).fuses = s.fuses := by simp [closeBed]

/-! Machine/BedCore -/

@[simp] theorem fuses_putWave (n) (w) (s : State) : (putWave n w s).fuses = s.fuses := by simp [putWave]
@[simp] theorem fuses_stallWave (n) (w) (o) (reason) (level) (va) (a) (s : State) :
    (stallWave n w o reason level va a s).fuses = s.fuses := by
  unfold stallWave
  dsimp only
  split <;> simp
@[simp] theorem fuses_fetchWord (n) (o) (va) (s : State) : fusesAfter (fetchWord n o va s) = s.fuses := by
  unfold fetchWord
  dsimp only
  (repeat' split) <;> simp
@[simp] theorem fuses_ctx_change (c) (f) (s : State) : (Ctx.change c f s).fuses = s.fuses := by
  unfold Ctx.change
  split <;> simp
@[simp] theorem fuses_ctx_writeS (c) (v) (s : State) : (Ctx.writeS c v s).fuses = s.fuses := by simp [Ctx.writeS]
@[simp] theorem fuses_ctx_writeV (c) (vals) (s : State) : (Ctx.writeV c vals s).fuses = s.fuses := by
  simp [Ctx.writeV]
@[simp] theorem fuses_ctx_illegal (c) (s : State) : (Ctx.illegal c s).fuses = s.fuses := by simp [Ctx.illegal]
@[simp] theorem fuses_ctx_misaligned (c) (s : State) : (Ctx.misaligned c s).fuses = s.fuses := by
  simp [Ctx.misaligned]
@[simp] theorem fuses_ctx_range (c) (s : State) : (Ctx.range c s).fuses = s.fuses := by simp [Ctx.range]
@[simp] theorem fuses_ctx_nanTrap (c) (t) (e) (kind) (s : State) : (Ctx.nanTrap c t e kind s).fuses = s.fuses := by
  simp [Ctx.nanTrap]
@[simp] theorem fuses_ctx_finish (c) (o) (done) (s : State) (hdone : ∀ x0 t, (done x0 t).fuses = t.fuses) :
    (Ctx.finish c o done s).fuses = s.fuses := by
  unfold Ctx.finish
  dsimp only
  split <;> simp [*]
@[simp] theorem fuses_issue (n) (slot) (mine) (body) (s : State) (hbody : ∀ x0 t, (body x0 t).fuses = t.fuses) :
    (issue n slot mine body s).fuses = s.fuses := by
  unfold issue
  dsimp only
  (repeat' split) <;> simp [*]
@[simp] theorem fuses_ctx_stall (c) (reason) (level) (va) (a) (s : State) :
    (Ctx.stall c reason level va a s).fuses = s.fuses := by
  simp [Ctx.stall]

@[simp] theorem fuses_ctx_hold (c : Ctx) (s : State) : (c.hold s).fuses = s.fuses := by
  rw [Ctx.hold, fuses_putWave, fuses_wr64]

/-! Machine/Accum -/

@[simp] theorem fuses_guardEvent (n) (uid) (e) (s : State) : (guardEvent n uid e s).fuses = s.fuses := by
  unfold guardEvent
  dsimp only
  split <;> simp

/-! Machine/Alu -/

@[simp] theorem fuses_alu (op) (c) (s : State) : (alu op c s).fuses = s.fuses := by simp [alu]
@[simp] theorem fuses_issueAlu (n) (slot) (code) (op) (s : State) :
    Completes (issueAlu n slot code op s) (fun t => t.fuses = s.fuses) := by
  simp [issueAlu]
@[simp] theorem fuses_execMov (bed) (slot) (s : State) :
    Completes (execMov bed slot s) (fun t => t.fuses = s.fuses) := by
  simp [execMov]
@[simp] theorem fuses_execAdd (bed) (slot) (s : State) :
    Completes (execAdd bed slot s) (fun t => t.fuses = s.fuses) := by
  simp [execAdd]
@[simp] theorem fuses_execSub (bed) (slot) (s : State) :
    Completes (execSub bed slot s) (fun t => t.fuses = s.fuses) := by
  simp [execSub]
@[simp] theorem fuses_execMul (bed) (slot) (s : State) :
    Completes (execMul bed slot s) (fun t => t.fuses = s.fuses) := by
  simp [execMul]
@[simp] theorem fuses_execFma (bed) (slot) (s : State) :
    Completes (execFma bed slot s) (fun t => t.fuses = s.fuses) := by
  simp [execFma]
@[simp] theorem fuses_execMad (bed) (slot) (s : State) :
    Completes (execMad bed slot s) (fun t => t.fuses = s.fuses) := by
  simp [execMad]
@[simp] theorem fuses_execMulhi (bed) (slot) (s : State) :
    Completes (execMulhi bed slot s) (fun t => t.fuses = s.fuses) := by
  simp [execMulhi]
@[simp] theorem fuses_execMin (bed) (slot) (s : State) :
    Completes (execMin bed slot s) (fun t => t.fuses = s.fuses) := by
  simp [execMin]
@[simp] theorem fuses_execMax (bed) (slot) (s : State) :
    Completes (execMax bed slot s) (fun t => t.fuses = s.fuses) := by
  simp [execMax]
@[simp] theorem fuses_execAnd (bed) (slot) (s : State) :
    Completes (execAnd bed slot s) (fun t => t.fuses = s.fuses) := by
  simp [execAnd]
@[simp] theorem fuses_execOr (bed) (slot) (s : State) :
    Completes (execOr bed slot s) (fun t => t.fuses = s.fuses) := by
  simp [execOr]
@[simp] theorem fuses_execXor (bed) (slot) (s : State) :
    Completes (execXor bed slot s) (fun t => t.fuses = s.fuses) := by
  simp [execXor]
@[simp] theorem fuses_execNot (bed) (slot) (s : State) :
    Completes (execNot bed slot s) (fun t => t.fuses = s.fuses) := by
  simp [execNot]
@[simp] theorem fuses_execShl (bed) (slot) (s : State) :
    Completes (execShl bed slot s) (fun t => t.fuses = s.fuses) := by
  simp [execShl]
@[simp] theorem fuses_execShr (bed) (slot) (s : State) :
    Completes (execShr bed slot s) (fun t => t.fuses = s.fuses) := by
  simp [execShr]
@[simp] theorem fuses_execSar (bed) (slot) (s : State) :
    Completes (execSar bed slot s) (fun t => t.fuses = s.fuses) := by
  simp [execSar]
@[simp] theorem fuses_execSel (bed) (slot) (s : State) :
    Completes (execSel bed slot s) (fun t => t.fuses = s.fuses) := by
  simp [execSel]
@[simp] theorem fuses_execClamp (bed) (slot) (s : State) :
    Completes (execClamp bed slot s) (fun t => t.fuses = s.fuses) := by
  simp [execClamp]
@[simp] theorem fuses_execFloor (bed) (slot) (s : State) :
    Completes (execFloor bed slot s) (fun t => t.fuses = s.fuses) := by
  simp [execFloor]
@[simp] theorem fuses_execCeil (bed) (slot) (s : State) :
    Completes (execCeil bed slot s) (fun t => t.fuses = s.fuses) := by
  simp [execCeil]
@[simp] theorem fuses_execRndne (bed) (slot) (s : State) :
    Completes (execRndne bed slot s) (fun t => t.fuses = s.fuses) := by
  simp [execRndne]
@[simp] theorem fuses_execFract (bed) (slot) (s : State) :
    Completes (execFract bed slot s) (fun t => t.fuses = s.fuses) := by
  simp [execFract]
@[simp] theorem fuses_execRcp (bed) (slot) (s : State) :
    Completes (execRcp bed slot s) (fun t => t.fuses = s.fuses) := by
  simp [execRcp]
@[simp] theorem fuses_execRsq (bed) (slot) (s : State) :
    Completes (execRsq bed slot s) (fun t => t.fuses = s.fuses) := by
  simp [execRsq]
@[simp] theorem fuses_execSqrt (bed) (slot) (s : State) :
    Completes (execSqrt bed slot s) (fun t => t.fuses = s.fuses) := by
  simp [execSqrt]
@[simp] theorem fuses_execExp2 (bed) (slot) (s : State) :
    Completes (execExp2 bed slot s) (fun t => t.fuses = s.fuses) := by
  simp [execExp2]
@[simp] theorem fuses_execLog2 (bed) (slot) (s : State) :
    Completes (execLog2 bed slot s) (fun t => t.fuses = s.fuses) := by
  simp [execLog2]
@[simp] theorem fuses_execSin (bed) (slot) (s : State) :
    Completes (execSin bed slot s) (fun t => t.fuses = s.fuses) := by
  simp [execSin]
@[simp] theorem fuses_execCos (bed) (slot) (s : State) :
    Completes (execCos bed slot s) (fun t => t.fuses = s.fuses) := by
  simp [execCos]
@[simp] theorem fuses_dot (code) (types) (f) (bed) (slot) (s : State) :
    Completes (dot code types f bed slot s) (fun t => t.fuses = s.fuses) := by
  simp [dot]
@[simp] theorem fuses_execDot4 (bed) (slot) (s : State) :
    Completes (execDot4 bed slot s) (fun t => t.fuses = s.fuses) := by
  simp [execDot4]
@[simp] theorem fuses_execDot2 (bed) (slot) (s : State) :
    Completes (execDot2 bed slot s) (fun t => t.fuses = s.fuses) := by
  simp [execDot2]
@[simp] theorem fuses_execPopc (bed) (slot) (s : State) :
    Completes (execPopc bed slot s) (fun t => t.fuses = s.fuses) := by
  simp [execPopc]
@[simp] theorem fuses_execClz (bed) (slot) (s : State) :
    Completes (execClz bed slot s) (fun t => t.fuses = s.fuses) := by
  simp [execClz]
@[simp] theorem fuses_execBfe (bed) (slot) (s : State) :
    Completes (execBfe bed slot s) (fun t => t.fuses = s.fuses) := by
  simp [execBfe]
@[simp] theorem fuses_execBfi (bed) (slot) (s : State) :
    Completes (execBfi bed slot s) (fun t => t.fuses = s.fuses) := by
  simp [execBfi]
@[simp] theorem fuses_ctx_writeP (c) (f) (s : State) : (Ctx.writeP c f s).fuses = s.fuses := by simp [Ctx.writeP]
@[simp] theorem fuses_compare (code) (f) (bed) (slot) (s : State) :
    Completes (compare code f bed slot s) (fun t => t.fuses = s.fuses) := by
  simp [compare]
@[simp] theorem fuses_execEq (bed) (slot) (s : State) :
    Completes (execEq bed slot s) (fun t => t.fuses = s.fuses) := by
  simp [execEq]
@[simp] theorem fuses_execNe (bed) (slot) (s : State) :
    Completes (execNe bed slot s) (fun t => t.fuses = s.fuses) := by
  simp [execNe]
@[simp] theorem fuses_execLt (bed) (slot) (s : State) :
    Completes (execLt bed slot s) (fun t => t.fuses = s.fuses) := by
  simp [execLt]
@[simp] theorem fuses_execLe (bed) (slot) (s : State) :
    Completes (execLe bed slot s) (fun t => t.fuses = s.fuses) := by
  simp [execLe]
@[simp] theorem fuses_execGt (bed) (slot) (s : State) :
    Completes (execGt bed slot s) (fun t => t.fuses = s.fuses) := by
  simp [execGt]
@[simp] theorem fuses_execGe (bed) (slot) (s : State) :
    Completes (execGe bed slot s) (fun t => t.fuses = s.fuses) := by
  simp [execGe]
@[simp] theorem fuses_execOrd (bed) (slot) (s : State) :
    Completes (execOrd bed slot s) (fun t => t.fuses = s.fuses) := by
  simp [execOrd]
@[simp] theorem fuses_execUnord (bed) (slot) (s : State) :
    Completes (execUnord bed slot s) (fun t => t.fuses = s.fuses) := by
  simp [execUnord]
@[simp] theorem fuses_execTest (bed) (slot) (s : State) :
    Completes (execTest bed slot s) (fun t => t.fuses = s.fuses) := by
  simp [execTest]
@[simp] theorem fuses_predOp (code) (two) (f) (bed) (slot) (s : State) :
    Completes (predOp code two f bed slot s) (fun t => t.fuses = s.fuses) := by
  simp [predOp]
@[simp] theorem fuses_execPand (bed) (slot) (s : State) :
    Completes (execPand bed slot s) (fun t => t.fuses = s.fuses) := by
  simp [execPand]
@[simp] theorem fuses_execPor (bed) (slot) (s : State) :
    Completes (execPor bed slot s) (fun t => t.fuses = s.fuses) := by
  simp [execPor]
@[simp] theorem fuses_execPxor (bed) (slot) (s : State) :
    Completes (execPxor bed slot s) (fun t => t.fuses = s.fuses) := by
  simp [execPxor]
@[simp] theorem fuses_execPnot (bed) (slot) (s : State) :
    Completes (execPnot bed slot s) (fun t => t.fuses = s.fuses) := by
  simp [execPnot]
@[simp] theorem fuses_execCvt (bed) (slot) (s : State) :
    Completes (execCvt bed slot s) (fun t => t.fuses = s.fuses) := by
  simp [execCvt]
@[simp] theorem fuses_xlane (code) (ok) (body) (bed) (slot) (s : State) (hbody : ∀ x0 t,
    (body x0 t).fuses = t.fuses) :
    Completes (xlane code ok body bed slot s) (fun t => t.fuses = s.fuses) := by
  simp [xlane, hbody]
@[simp] theorem fuses_execShfl (bed) (slot) (s : State) :
    Completes (execShfl bed slot s) (fun t => t.fuses = s.fuses) := by
  simp [execShfl]
@[simp] theorem fuses_execShflx (bed) (slot) (s : State) :
    Completes (execShflx bed slot s) (fun t => t.fuses = s.fuses) := by
  simp [execShflx]
@[simp] theorem fuses_execReadlane (bed) (slot) (s : State) :
    Completes (execReadlane bed slot s) (fun t => t.fuses = s.fuses) := by
  simp [execReadlane]
@[simp] theorem fuses_execWritelane (bed) (slot) (s : State) :
    Completes (execWritelane bed slot s) (fun t => t.fuses = s.fuses) := by
  simp [execWritelane]
@[simp] theorem fuses_reduce (code) (f) (bed) (slot) (s : State) :
    Completes (reduce code f bed slot s) (fun t => t.fuses = s.fuses) := by
  simp [reduce]
@[simp] theorem fuses_execRadd (bed) (slot) (s : State) :
    Completes (execRadd bed slot s) (fun t => t.fuses = s.fuses) := by
  simp [execRadd]
@[simp] theorem fuses_execRmin (bed) (slot) (s : State) :
    Completes (execRmin bed slot s) (fun t => t.fuses = s.fuses) := by
  simp [execRmin]
@[simp] theorem fuses_execRmax (bed) (slot) (s : State) :
    Completes (execRmax bed slot s) (fun t => t.fuses = s.fuses) := by
  simp [execRmax]
@[simp] theorem fuses_execBallot (bed) (slot) (s : State) :
    Completes (execBallot bed slot s) (fun t => t.fuses = s.fuses) := by
  simp [execBallot]
@[simp] theorem fuses_execScan (bed) (slot) (s : State) :
    Completes (execScan bed slot s) (fun t => t.fuses = s.fuses) := by
  simp [execScan]
@[simp] theorem fuses_control (code) (body) (bed) (slot) (s : State) (hbody : ∀ x0 t, (body x0 t).fuses = t.fuses) :
    Completes (control code body bed slot s) (fun t => t.fuses = s.fuses) := by
  simp [control, hbody]
@[simp] theorem fuses_execBedNop (bed) (slot) (s : State) :
    Completes (execBedNop bed slot s) (fun t => t.fuses = s.fuses) := by
  simp [execBedNop]
@[simp] theorem fuses_ctx_branchTo (c) (f) (s : State) : (Ctx.branchTo c f s).fuses = s.fuses := by
  simp [Ctx.branchTo]
@[simp] theorem fuses_execBr (bed) (slot) (s : State) :
    Completes (execBr bed slot s) (fun t => t.fuses = s.fuses) := by
  simp [execBr]
@[simp] theorem fuses_execBrp (bed) (slot) (s : State) :
    Completes (execBrp bed slot s) (fun t => t.fuses = s.fuses) := by
  simp [execBrp]
@[simp] theorem fuses_execCall (bed) (slot) (s : State) :
    Completes (execCall bed slot s) (fun t => t.fuses = s.fuses) := by
  simp [execCall]

@[simp] theorem fuses_execRet (bed slot) (s : State) : Completes (execRet bed slot s) (fun t => t.fuses = s.fuses) := by
  refine fuses_control _ _ _ _ _ fun c t => ?_
  split <;> simp

@[simp] theorem fuses_execBrk (bed) (slot) (s : State) :
    Completes (execBrk bed slot s) (fun t => t.fuses = s.fuses) := by
  simp [execBrk]
@[simp] theorem fuses_execSleep (bed) (slot) (s : State) :
    Completes (execSleep bed slot s) (fun t => t.fuses = s.fuses) := by
  simp [execSleep]
@[simp] theorem fuses_execSleepExpiry (bed) (slot) (s : State) :
    Completes (execSleepExpiry bed slot s) (fun t => t.fuses = s.fuses) := by
  unfold execSleepExpiry
  split <;> simp
@[simp] theorem fuses_execExecp (bed) (slot) (s : State) :
    Completes (execExecp bed slot s) (fun t => t.fuses = s.fuses) := by
  simp [execExecp]

/-! Machine/BedMem -/

@[simp] theorem fuses_ctx_pendLoad (c) (width) (writes) (err) (s : State) :
    (Ctx.pendLoad c width writes err s).fuses = s.fuses := by
  simp [Ctx.pendLoad]
@[simp] theorem fuses_bedStore (n) (off) (k) (v) (s : State) : (bedStore n off k v s).fuses = s.fuses := by
  simp [bedStore]
@[simp] theorem fuses_localAccess (code) (ok) (regsOk) (body) (bed) (slot) (s : State) (hbody : ∀ x0 t,
    (body x0 t).fuses = t.fuses) :
    Completes (localAccess code ok regsOk body bed slot s) (fun t => t.fuses = s.fuses) := by
  simp [localAccess, hbody]
@[simp] theorem fuses_execLdb (bed) (slot) (s : State) :
    Completes (execLdb bed slot s) (fun t => t.fuses = s.fuses) := by
  simp [execLdb]
@[simp] theorem fuses_execStb (bed) (slot) (s : State) :
    Completes (execStb bed slot s) (fun t => t.fuses = s.fuses) := by
  simp [execStb]

@[simp] theorem fuses_execAtomb (bed slot) (s : State) :
    Completes (execAtomb bed slot s) (fun t => t.fuses = s.fuses) := by
  refine fuses_localAccess _ _ _ _ _ _ _ fun c t => ?_
  simp [foldl_keeps fusesAfter]

@[simp] theorem fuses_translateAll (q) (fn) (allot) (a) (x4) (x5 : State) :
    fusesAfter (translateAll q fn allot a x4 x5) = x5.fuses := by
  fun_induction translateAll <;> simp +zetaDelta [*]

@[simp] theorem fuses_globalAccess (code ok regsOk acc body bed slot) (s : State)
    (hbody : ∀ c q t, (body c q t).fuses = t.fuses) :
    Completes (globalAccess code ok regsOk acc body bed slot s) (fun t => t.fuses = s.fuses) := by
  simp only [globalAccess, completes_next]
  refine fuses_issue _ _ _ _ _ fun c t => ?_
  (repeat' split) <;>
    simp only [hbody, fuses_ctx_illegal, fuses_ctx_misaligned, fuses_ctx_hold, fuses_ctx_stall, fuses_snd]
  -- The translations of each kind of access are a fold over the kinds.
  all_goals
    refine foldl_keeps fusesAfter _ (fun x a => ?_) _ _
    split <;> simp

@[simp] theorem fuses_gather (c) (q) (width) (x3) (x4 : State) : fusesAfter (gather c q width x3 x4) = x4.fuses := by
  fun_induction gather <;> simp +zetaDelta [*]

@[simp] theorem fuses_execLdg (bed slot) (s : State) : Completes (execLdg bed slot s) (fun t => t.fuses = s.fuses) := by
  refine fuses_globalAccess _ _ _ _ _ _ _ _ fun c q t => ?_
  dsimp only
  split <;> simp

@[simp] theorem fuses_scatter (c) (q) (width) (x3) (x4 : State) :
    fusesAfter (scatter c q width x3 x4) = x4.fuses := by
  fun_induction scatter <;> simp +zetaDelta [*]

@[simp] theorem fuses_execStg (bed slot) (s : State) : Completes (execStg bed slot s) (fun t => t.fuses = s.fuses) := by
  refine fuses_globalAccess _ _ _ _ _ _ _ _ fun c q t => ?_
  dsimp only
  split <;> simp

@[simp] theorem fuses_execAtomg (bed slot) (s : State) :
    Completes (execAtomg bed slot s) (fun t => t.fuses = s.fuses) := by
  refine fuses_globalAccess _ _ _ _ _ _ _ _ fun c q t => ?_
  dsimp only
  (repeat' split) <;> simp only [fuses_trapWave, fuses_trapAccess, fuses_ctx_writeV, fuses_snd]
  all_goals
    refine foldl_keeps (fun x : Option MemErr × List (Nat × Nat) × State => fusesAfter x.2) _ (fun x a => ?_) _ _
    (repeat' split) <;> simp

@[simp] theorem fuses_execPrefetch (bed) (slot) (s : State) :
    Completes (execPrefetch bed slot s) (fun t => t.fuses = s.fuses) := by
  simp [execPrefetch]

@[simp] theorem fuses_texel (c q i p) (s : State) : fusesAfter (texel c q i p s) = s.fuses := by
  unfold texel
  dsimp only
  split
  · simp
  · refine foldl_keeps fusesAfter _ (fun x a => ?_) _ _
    (repeat' split) <;> simp

@[simp] theorem fuses_sampleAll (c q i l) (s : State) : fusesAfter (sampleAll c q i l s) = s.fuses := by
  induction l generalizing s with
  | nil => simp [sampleAll]
  | cons t r ih =>
    unfold sampleAll
    dsimp only
    split <;> simp only [ih, fusesAfter_mk, fuses_snd]
    all_goals
      refine foldl_keeps fusesAfter _ (fun x a => ?_) _ _
      split <;> simp

@[simp] theorem fuses_sampler (code bed slot) (s : State) :
    Completes (sampler code bed slot s) (fun t => t.fuses = s.fuses) := by
  simp only [sampler, completes_next]
  refine fuses_issue _ _ _ _ _ fun c t => ?_
  (repeat' split) <;> simp

@[simp] theorem fuses_execSample (bed) (slot) (s : State) :
    Completes (execSample bed slot s) (fun t => t.fuses = s.fuses) := by
  simp [execSample]
@[simp] theorem fuses_execGather4 (bed) (slot) (s : State) :
    Completes (execGather4 bed slot s) (fun t => t.fuses = s.fuses) := by
  simp [execGather4]
@[simp] theorem fuses_execLoadtex (bed) (slot) (s : State) :
    Completes (execLoadtex bed slot s) (fun t => t.fuses = s.fuses) := by
  simp [execLoadtex]
@[simp] theorem fuses_deliver (l) (n) (s : State) : (deliver l n s).fuses = s.fuses := by
  unfold deliver
  split <;> simp
@[simp] theorem fuses_arriveLoad (n) (index) (s : State) : (arriveLoad n index s).fuses = s.fuses := by
  unfold arriveLoad
  dsimp only
  (repeat' split) <;> simp
@[simp] theorem fuses_execLoadDataArrival (bed) (index) (s : State) :
    Completes (execLoadDataArrival bed index s) (fun t => t.fuses = s.fuses) := by
  simp [execLoadDataArrival]

/-! Machine/Sync -/

@[simp] theorem fuses_sync (code) (ok) (body) (bed) (slot) (s : State) (hbody : ∀ x0 t, (body x0 t).fuses = t.fuses) :
    Completes (sync code ok body bed slot s) (fun t => t.fuses = s.fuses) := by
  simp [sync, hbody]
@[simp] theorem fuses_ctx_begin_ (c) (w) (s : State) : (Ctx.begin_ c w s).fuses = s.fuses := by simp [Ctx.begin_]
@[simp] theorem fuses_releaseBar (n) (group) (s : State) : (releaseBar n group s).fuses = s.fuses := by
  simp [releaseBar]
@[simp] theorem fuses_execBar (bed) (slot) (s : State) :
    Completes (execBar bed slot s) (fun t => t.fuses = s.fuses) := by
  simp [execBar]
@[simp] theorem fuses_execFence (bed) (slot) (s : State) :
    Completes (execFence bed slot s) (fun t => t.fuses = s.fuses) := by
  simp [execFence]
@[simp] theorem fuses_execSemWait (bed) (slot) (s : State) :
    Completes (execSemWait bed slot s) (fun t => t.fuses = s.fuses) := by
  simp [execSemWait]
@[simp] theorem fuses_execSemTake (bed) (slot) (s : State) :
    Completes (execSemTake bed slot s) (fun t => t.fuses = s.fuses) := by
  simp [execSemTake]
@[simp] theorem fuses_execSemAdd (bed) (slot) (s : State) :
    Completes (execSemAdd bed slot s) (fun t => t.fuses = s.fuses) := by
  simp [execSemAdd]
@[simp] theorem fuses_execSemSet (bed) (slot) (s : State) :
    Completes (execSemSet bed slot s) (fun t => t.fuses = s.fuses) := by
  simp [execSemSet]
@[simp] theorem fuses_execHrelease (bed) (slot) (s : State) :
    Completes (execHrelease bed slot s) (fun t => t.fuses = s.fuses) := by
  simp [execHrelease]
@[simp] theorem fuses_setSem (n) (k) (v) (s : State) : (setSem n k v s).fuses = s.fuses := by simp [setSem]
@[simp] theorem fuses_addSem (n) (k) (v) (s : State) : (addSem n k v s).fuses = s.fuses := by simp [addSem]
@[simp] theorem fuses_testWait (n) (w) (s : State) : (testWait n w s).fuses = s.fuses := by
  unfold testWait
  split <;> simp
@[simp] theorem fuses_execSemaphoreUpdate (bed) (s : State) :
    Completes (execSemaphoreUpdate bed s) (fun t => t.fuses = s.fuses) := by
  simp [execSemaphoreUpdate]
@[simp] theorem fuses_execWaitTimeout (bed) (slot) (s : State) :
    Completes (execWaitTimeout bed slot s) (fun t => t.fuses = s.fuses) := by
  unfold execWaitTimeout
  split <;> simp

/-! Machine/Tensor -/

@[simp] theorem fuses_ctx_enqueue (c) (a) (b) (k) (regs) (s : State) :
    (Ctx.enqueue c a b k regs s).fuses = s.fuses := by
  simp [Ctx.enqueue]
@[simp] theorem fuses_tensor (code) (body) (bed) (slot) (s : State) (hbody : ∀ x0 t, (body x0 t).fuses = t.fuses) :
    Completes (tensor code body bed slot s) (fun t => t.fuses = s.fuses) := by
  simp [tensor, hbody]
@[simp] theorem fuses_multiply (sparse) (c) (s : State) : (multiply sparse c s).fuses = s.fuses := by simp [multiply]
@[simp] theorem fuses_execTmma (bed) (slot) (s : State) :
    Completes (execTmma bed slot s) (fun t => t.fuses = s.fuses) := by
  simp [execTmma]
@[simp] theorem fuses_execTsparse (bed) (slot) (s : State) :
    Completes (execTsparse bed slot s) (fun t => t.fuses = s.fuses) := by
  simp [execTsparse]
@[simp] theorem fuses_execTaccStore (bed) (slot) (s : State) :
    Completes (execTaccStore bed slot s) (fun t => t.fuses = s.fuses) := by
  simp [execTaccStore]
@[simp] theorem fuses_execTaccRead (bed) (slot) (s : State) :
    Completes (execTaccRead bed slot s) (fun t => t.fuses = s.fuses) := by
  simp [execTaccRead]
@[simp] theorem fuses_execTaccWrite (bed) (slot) (s : State) :
    Completes (execTaccWrite bed slot s) (fun t => t.fuses = s.fuses) := by
  simp [execTaccWrite]
@[simp] theorem fuses_execTwait (bed) (slot) (s : State) :
    Completes (execTwait bed slot s) (fun t => t.fuses = s.fuses) := by
  simp [execTwait]
@[simp] theorem fuses_putBank (n) (k) (bank) (s : State) : (putBank n k bank s).fuses = s.fuses := by simp [putBank]
@[simp] theorem fuses_busy (n) (k) (s : State) : (busy n k s).fuses = s.fuses := by simp [busy]
@[simp] theorem fuses_sieveCount (n) (q) (a) (b) (products) (s : State) :
    (sieveCount n q a b products s).fuses = s.fuses := by
  simp [sieveCount]
@[simp] theorem fuses_TensorEntry.trap (q) (n) (kind) (status) (detail) (s : State) :
    (TensorEntry.trap q n kind status detail s).fuses = s.fuses := by
  simp [TensorEntry.trap]
@[simp] theorem fuses_finishMultiply (n) (q) (bank) (rs) (s : State) :
    (finishMultiply n q bank rs s).fuses = s.fuses := by
  unfold finishMultiply
  dsimp only
  (repeat' split) <;> simp
@[simp] theorem fuses_runMultiply (n) (q) (o) (s : State) : (runMultiply n q o s).fuses = s.fuses := by
  unfold runMultiply
  split <;> simp
@[simp] theorem fuses_bedPut (n) (off) (typ) (j) (v) (s : State) : (bedPut n off typ j v s).fuses = s.fuses := by
  simp [bedPut]
@[simp] theorem fuses_runStore (n) (q) (o) (s : State) : (runStore n q o s).fuses = s.fuses := by
  unfold runStore
  dsimp only
  split <;> simp
@[simp] theorem fuses_runRead (n) (q) (s : State) : (runRead n q s).fuses = s.fuses := by
  unfold runRead
  dsimp only
  split <;> simp
@[simp] theorem fuses_runWrite (n) (q) (s : State) : (runWrite n q s).fuses = s.fuses := by simp [runWrite]
@[simp] theorem fuses_testTwait (n) (s : State) : (testTwait n s).fuses = s.fuses := by simp [testTwait]
@[simp] theorem fuses_runEntry (n) (s : State) : (runEntry n s).fuses = s.fuses := by
  unfold runEntry
  (repeat' split) <;> simp
@[simp] theorem fuses_execTensorEntryDone (bed) (s : State) :
    Completes (execTensorEntryDone bed s) (fun t => t.fuses = s.fuses) := by
  simp [execTensorEntryDone]
@[simp] theorem fuses_clearTrap (n) (s : State) : (clearTrap n s).fuses = s.fuses := by simp [clearTrap]

/-! Machine/WorkOrder -/

@[simp] theorem fuses_finishEntry (uid) (word) (count) (s : State) :
    (finishEntry uid word count s).fuses = s.fuses := by
  simp [finishEntry]
@[simp] theorem fuses_askYield (uid) (need) (beds) (s : State) : (askYield uid need beds s).fuses = s.fuses := by
  simp [askYield]
@[simp] theorem fuses_noteQueued (uid) (beds) (s : State) : (noteQueued uid beds s).fuses = s.fuses := by
  simp [noteQueued]
@[simp] theorem fuses_acceptOrder (e) (d) (s : State) : (acceptOrder e d s).fuses = s.fuses := by
  unfold acceptOrder
  (repeat' split) <;> simp
@[simp] theorem fuses_workRow (op) (uid) (s : State) : Completes (workRow op uid s) (fun t => t.fuses = s.fuses) := by
  unfold workRow
  (repeat' split) <;> simp
@[simp] theorem fuses_execGemm (uid) (s : State) : Completes (execGemm uid s) (fun t => t.fuses = s.fuses) := by
  simp [execGemm]
@[simp] theorem fuses_execConv (uid) (s : State) : Completes (execConv uid s) (fun t => t.fuses = s.fuses) := by
  simp [execConv]
@[simp] theorem fuses_execDwconv (uid) (s : State) : Completes (execDwconv uid s) (fun t => t.fuses = s.fuses) := by
  simp [execDwconv]
@[simp] theorem fuses_execPool (uid) (s : State) : Completes (execPool uid s) (fun t => t.fuses = s.fuses) := by
  simp [execPool]
@[simp] theorem fuses_execEltwise (uid) (s : State) : Completes (execEltwise uid s) (fun t => t.fuses = s.fuses) := by
  simp [execEltwise]
@[simp] theorem fuses_execReduce (uid) (s : State) : Completes (execReduce uid s) (fun t => t.fuses = s.fuses) := by
  simp [execReduce]
@[simp] theorem fuses_execGather (uid) (s : State) : Completes (execGather uid s) (fun t => t.fuses = s.fuses) := by
  simp [execGather]
@[simp] theorem fuses_execEmbedMatch (uid) (s : State) :
    Completes (execEmbedMatch uid s) (fun t => t.fuses = s.fuses) := by
  simp [execEmbedMatch]
@[simp] theorem fuses_execProgram (uid) (s : State) : Completes (execProgram uid s) (fun t => t.fuses = s.fuses) := by
  simp [execProgram]

/-! Machine/Codec -/

@[simp] theorem fuses_compressFrom (fn allot d cap fuel units w) (s : State) :
    fusesAfter (compressFrom fn allot d cap fuel units w s).2 = s.fuses := by
  induction fuel generalizing units w s with
  | zero => simp [compressFrom]
  | succ fuel ih =>
    rw [compressFrom]
    dsimp only
    split
    · split <;> simp
    · split
      · simp
      · split
        · simp
        · (repeat' split) <;> simp [ih]

@[simp] theorem fuses_copyRows (fn) (allot) (d) (dist) (x4) (x5) (x6) (x7 : State) :
    fusesAfter (copyRows fn allot d dist x4 x5 x6 x7) = x7.fuses := by
  fun_induction copyRows <;> simp +zetaDelta [*]
@[simp] theorem fuses_putRaw (fn) (allot) (d) (pos) (bs) (s : State) :
    fusesAfter (putRaw fn allot d pos bs s) = s.fuses := by
  unfold putRaw
  dsimp only
  split <;> simp

@[simp] theorem fuses_decompressFrom (fn allot d chunk fuel units rest w) (s : State) :
    fusesAfter (decompressFrom fn allot d chunk fuel units rest w s).2 = s.fuses := by
  induction fuel generalizing units rest w s with
  | zero => simp [decompressFrom]
  | succ fuel ih =>
    rw [decompressFrom]
    dsimp only
    split
    all_goals (repeat' split) <;> simp [ih]

/-! Machine/Furrow -/

@[simp] theorem fuses_refreshFurrow (s : State) : (refreshFurrow s).fuses = s.fuses := by simp [refreshFurrow]
@[simp] theorem fuses_endFurrow (uid) (word) (count) (s : State) : (endFurrow uid word count s).fuses = s.fuses := by
  unfold endFurrow
  split <;> simp
@[simp] theorem fuses_putFurrowCount (uid) (count) (s : State) : (putFurrowCount uid count s).fuses = s.fuses := by
  simp [putFurrowCount]
@[simp] theorem fuses_failFurrow (j) (e) (a) (count) (s : State) : (failFurrow j e a count s).fuses = s.fuses := by
  unfold failFurrow
  dsimp only
  (repeat' split) <;> simp
@[simp] theorem fuses_closeFurrow (j) (status) (detail) (w) (word) (s : State) :
    (closeFurrow j status detail w word s).fuses = s.fuses := by
  unfold closeFurrow
  dsimp only
  (repeat' split) <;> simp
@[simp] theorem fuses_workFurrow (j) (st) (units) (word) (s : State) :
    (workFurrow j st units word s).fuses = s.fuses := by
  unfold workFurrow
  dsimp only
  (repeat' split) <;> simp
@[simp] theorem fuses_runFurrow (j) (units) (word) (s : State) : (runFurrow j units word s).fuses = s.fuses := by
  unfold runFurrow
  dsimp only
  (repeat' split) <;> simp
@[simp] theorem fuses_cutFurrow (j) (s : State) : (cutFurrow j s).fuses = s.fuses := by simp [cutFurrow]
@[simp] theorem fuses_closeFurrows (s : State) : (closeFurrows s).fuses = s.fuses := by
  unfold closeFurrows
  dsimp only
  split <;> simp
@[simp] theorem fuses_furrowRow (op) (uid) (s : State) :
    Completes (furrowRow op uid s) (fun t => t.fuses = s.fuses) := by
  unfold furrowRow
  (repeat' split) <;> simp
@[simp] theorem fuses_execCompress (uid) (s : State) :
    Completes (execCompress uid s) (fun t => t.fuses = s.fuses) := by
  simp [execCompress]
@[simp] theorem fuses_execDecompress (uid) (s : State) :
    Completes (execDecompress uid s) (fun t => t.fuses = s.fuses) := by
  simp [execDecompress]
@[simp] theorem fuses_execFurrowJobDone (s : State) :
    Completes (execFurrowJobDone s) (fun t => t.fuses = s.fuses) := by
  unfold execFurrowJobDone
  split <;> simp

/-! Machine/Store -/

@[simp] theorem fuses_setBlock (b) (s : State) : (setBlock b s).fuses = s.fuses := by simp [setBlock]
@[simp] theorem fuses_programAt (u) (p) (pages) (s : State) : (programAt u p pages s).fuses = s.fuses := by
  simp [programAt]
@[simp] theorem fuses_checkpoint (s : State) : (checkpoint s).fuses = s.fuses := by simp [checkpoint]
@[simp] theorem fuses_journal (r) (s : State) : (journal r s).fuses = s.fuses := by simp [journal]
@[simp] theorem fuses_onSuper (f) (s : State) : (onSuper f s).fuses = s.fuses := by simp [onSuper]
@[simp] theorem fuses_storeEvent (s : State) : (storeEvent s).fuses = s.fuses := by simp [storeEvent]
@[simp] theorem fuses_showQueue (s : State) : (showQueue s).fuses = s.fuses := by simp [showQueue]
@[simp] theorem fuses_showMedium (b) (s : State) : (showMedium b s).fuses = s.fuses := by simp [showMedium]
@[simp] theorem fuses_showStore (before) (s : State) : (showStore before s).fuses = s.fuses := by
  unfold showStore
  (repeat' split) <;> simp
@[simp] theorem fuses_retireBlock (ce) (blk) (s : State) : (retireBlock ce blk s).fuses = s.fuses := by
  simp [retireBlock]
@[simp] theorem fuses_changeReq (uid) (f) (s : State) : (changeReq uid f s).fuses = s.fuses := by simp [changeReq]
@[simp] theorem fuses_endEvid (uid) (word) (count) (s : State) : (endEvid uid word count s).fuses = s.fuses := by
  simp [endEvid]
@[simp] theorem fuses_endAtUnit (r) (word) (s : State) : (endAtUnit r word s).fuses = s.fuses := by simp [endAtUnit]
@[simp] theorem fuses_failEvid (r) (a) (e) (s : State) : (failEvid r a e s).fuses = s.fuses := by
  unfold failEvid
  dsimp only
  (repeat' split) <;> simp
@[simp] theorem fuses_findHead (r) (s : State) : (findHead r s).fuses = s.fuses := by
  fun_cases findHead <;> simp

-- The lets are made opaque one after another, so that no check of a proof runs the accesses that they name.
@[simp] theorem fuses_copyRecord (r x) (s : State) : (copyRecord r x s).fuses = s.fuses := by
  generalize hdef : copyRecord = f
  delta copyRecord at hdef
  subst hdef
  dsimp -zeta only
  extract_lets +onlyGivenNames rd
  have hrd : fusesAfter rd = s.fuses := fuses_physRead ..
  clear_value rd
  split
  · simp [hrd]
  · extract_lets +onlyGivenNames pos
    clear_value pos
    extract_lets +onlyGivenNames base
    clear_value base
    extract_lets +onlyGivenNames w
    have hw : fusesAfter w = s.fuses := by rw [fuses_vaWrite, fuses_snd, hrd]
    clear_value w
    split <;> simp [hw]

@[simp] theorem fuses_copyRecords (uid) (x1) (x2 : State) : (copyRecords uid x1 x2).fuses = x2.fuses := by
  fun_induction copyRecords <;> simp [*]
@[simp] theorem fuses_makeRoom (v) (keep) (x2) (x3 : State) : fusesAfter (makeRoom v keep x2 x3) = x3.fuses := by
  fun_induction makeRoom <;> simp [*]
@[simp] theorem fuses_programUnit (r) (n) (s : State) : (programUnit r n s).fuses = s.fuses := by
  unfold programUnit
  dsimp only
  (repeat' split) <;> simp
@[simp] theorem fuses_goAppendMem (r) (s : State) : (goAppendMem r s).fuses = s.fuses := by
  unfold goAppendMem
  dsimp only
  (repeat' split) <;> simp
@[simp] theorem fuses_goAppendPkt (r0) (s0 : State) : (goAppendPkt r0 s0).fuses = s0.fuses := by
  unfold goAppendPkt
  dsimp only
  split <;> simp
@[simp] theorem fuses_goRead (r) (s : State) : (goRead r s).fuses = s.fuses := by
  unfold goRead
  dsimp only
  (repeat' split) <;> simp
@[simp] theorem fuses_wipeNext (ce) (s : State) : (wipeNext ce s).fuses = s.fuses := by
  fun_cases wipeNext <;> simp
@[simp] theorem fuses_startFormat (r) (s : State) : (startFormat r s).fuses = s.fuses := by simp [startFormat]
@[simp] theorem fuses_endFormat (uid) (s : State) : (endFormat uid s).fuses = s.fuses := by
  unfold endFormat
  dsimp only
  split <;> simp
@[simp] theorem fuses_doQuery (r) (c) (s : State) : (doQuery r c s).fuses = s.fuses := by
  unfold doQuery
  dsimp only
  split <;> simp
@[simp] theorem fuses_doCreate (r) (s : State) : (doCreate r s).fuses = s.fuses := by
  unfold doCreate
  dsimp only
  split <;> simp
@[simp] theorem fuses_doVolumeDelete (r) (s : State) : (doVolumeDelete r s).fuses = s.fuses := by
  simp [doVolumeDelete]
@[simp] theorem fuses_startAppend (r) (c) (s : State) : (startAppend r c s).fuses = s.fuses := by simp [startAppend]
@[simp] theorem fuses_beginEvid (r) (s : State) : (beginEvid r s).fuses = s.fuses := by
  fun_cases beginEvid <;> simp
@[simp] theorem fuses_goEvid (r) (s : State) : (goEvid r s).fuses = s.fuses := by
  fun_cases goEvid <;> simp
@[simp] theorem fuses_turnEvid (uid) (s : State) : (turnEvid uid s).fuses = s.fuses := by
  unfold turnEvid
  dsimp only
  (repeat' split) <;> simp
@[simp] theorem fuses_turnsEvid (x0) (x1 : State) : (turnsEvid x0 x1).fuses = x1.fuses := by
  fun_induction turnsEvid <;> simp +zetaDelta [*]
@[simp] theorem fuses_workStore (s : State) : (workStore s).fuses = s.fuses := by simp [workStore]
@[simp] theorem fuses_storeFailed (reason) (s : State) : (storeFailed reason s).fuses = s.fuses := by
  simp [storeFailed]
@[simp] theorem fuses_dropCut (s : State) : (dropCut s).fuses = s.fuses := by simp [dropCut]
@[simp] theorem fuses_mountStore (replay) (s0 : State) : (mountStore replay s0).fuses = s0.fuses := by
  unfold mountStore
  dsimp only
  (repeat' split) <;> simp
@[simp] theorem fuses_mountAndWork (replay) (s : State) : (mountAndWork replay s).fuses = s.fuses := by
  simp [mountAndWork]
@[simp] theorem fuses_remountStore (s : State) : (remountStore s).fuses = s.fuses := by simp [remountStore]
@[simp] theorem fuses_openSeedkeeper (s : State) : (openSeedkeeper s).fuses = s.fuses := by simp [openSeedkeeper]
@[simp] theorem fuses_closeSeedkeeper (s : State) : (closeSeedkeeper s).fuses = s.fuses := by simp [closeSeedkeeper]
@[simp] theorem fuses_endPktAppends (n) (s : State) : (endPktAppends n s).fuses = s.fuses := by simp [endPktAppends]
@[simp] theorem fuses_cutEvid (r) (s : State) : (cutEvid r s).fuses = s.fuses := by simp [cutEvid]
@[simp] theorem fuses_settleEvid (s : State) : (settleEvid s).fuses = s.fuses := by simp [settleEvid]

/-! Machine/Streams -/

@[simp] theorem fuses_setSlot (i) (x) (s : State) : (setSlot i x s).fuses = s.fuses := by simp [setSlot]
@[simp] theorem fuses_changeSlot (i) (f) (s : State) : (changeSlot i f s).fuses = s.fuses := by simp [changeSlot]
@[simp] theorem fuses_countSlot (i) (c) (n) (s : State) : (countSlot i c n s).fuses = s.fuses := by simp [countSlot]
@[simp] theorem fuses_slotEvent (i) (s : State) : (slotEvent i s).fuses = s.fuses := by simp [slotEvent]
@[simp] theorem fuses_slotError (i) (status) (detail) (s : State) :
    (slotError i status detail s).fuses = s.fuses := by
  simp [slotError]
@[simp] theorem fuses_slotFails (i) (source) (detail) (a) (e) (s : State) :
    (slotFails i source detail a e s).fuses = s.fuses := by
  unfold slotFails
  split <;> simp

-- The definition is unfolded as a function: its equation at arguments would run the write.
@[simp] theorem fuses_ringBytes (off bs) (s : State) : (ringBytes off bs s).fuses = s.fuses := by
  have hdef : ringBytes = fun off bs s => (physWrite (s.streamReq 62) (s.pktBase + off) bs s).2 := rfl
  rw [hdef]
  dsimp -zeta only
  rw [fuses_snd, fuses_physWrite]

@[simp] theorem fuses_padRing (off) (s : State) : (padRing off s).fuses = s.fuses := by simp [padRing]
@[simp] theorem fuses_overwrite (off) (n) (s : State) : (overwrite off n s).fuses = s.fuses := by simp [overwrite]
@[simp] theorem fuses_keepRecord (r) (s : State) : (keepRecord r s).fuses = s.fuses := by simp [keepRecord]
@[simp] theorem fuses_writeRecord (i) (p) (loss) (s : State) : fusesAfter (writeRecord i p loss s) = s.fuses := by
  simp [writeRecord]
@[simp] theorem fuses_markRap (first) (s : State) : (markRap first s).fuses = s.fuses := by
  unfold markRap
  dsimp only
  (repeat' split) <;> simp
@[simp] theorem fuses_setEngine (e) (x) (s : State) : (setEngine e x s).fuses = s.fuses := by simp [setEngine]
@[simp] theorem fuses_feedDecoder (e) (s : State) : (feedDecoder e s).fuses = s.fuses := by
  fun_cases feedDecoder <;> simp
@[simp] theorem fuses_feedDecoders (s : State) : (feedDecoders s).fuses = s.fuses := by simp [feedDecoders]
@[simp] theorem fuses_storeAu (i) (a) (s : State) : (storeAu i a s).fuses = s.fuses := by
  unfold storeAu
  dsimp only
  split <;> simp
@[simp] theorem fuses_countRate (i) (s : State) : (countRate i s).fuses = s.fuses := by simp [countRate]
@[simp] theorem fuses_endAu (i) (ts) (ns) (locked) (incomplete) (bytes0) (s0 : State) :
    (endAu i ts ns locked incomplete bytes0 s0).fuses = s0.fuses := by
  simp [endAu]
@[simp] theorem fuses_closeAsm (i) (s : State) : (closeAsm i s).fuses = s.fuses := by
  unfold closeAsm
  split <;> simp
@[simp] theorem fuses_assemble (i) (p) (loss) (first) (s : State) : (assemble i p loss first s).fuses = s.fuses := by
  simp [assemble]
@[simp] theorem fuses_releasePkt (i) (p) (s : State) : (releasePkt i p s).fuses = s.fuses := by simp [releasePkt]
@[simp] theorem fuses_releaseRun (i) (x1) (x2 : State) : (releaseRun i x1 x2).fuses = x2.fuses := by
  fun_induction releaseRun <;> simp [*]

@[simp] theorem fuses_loseNumbers (i k) (s : State) : (loseNumbers i k s).fuses = s.fuses := by
  induction k generalizing s with
  | zero => simp [loseNumbers]
  | succ k ih =>
    unfold loseNumbers
    dsimp only
    (repeat' split) <;> simp [ih]

@[simp] theorem fuses_reorder (i) (p) (s : State) : (reorder i p s).fuses = s.fuses := by simp [reorder]
@[simp] theorem fuses_advanceFeed (i) (s : State) : (advanceFeed i s).fuses = s.fuses := by simp [advanceFeed]
@[simp] theorem fuses_skipFeed (i) (s : State) : (skipFeed i s).fuses = s.fuses := by simp [skipFeed]
@[simp] theorem fuses_restartSlots (p) (s : State) : (restartSlots p s).fuses = s.fuses := by simp [restartSlots]
@[simp] theorem fuses_closeGardener1 (s : State) : (closeGardener1 s).fuses = s.fuses := by simp [closeGardener1]
@[simp] theorem fuses_openGardener1 (s : State) : (openGardener1 s).fuses = s.fuses := by simp [openGardener1]
@[simp] theorem fuses_closeDecoder (e) (s : State) : (closeDecoder e s).fuses = s.fuses := by simp [closeDecoder]
@[simp] theorem fuses_openDecoder (e) (s : State) : (openDecoder e s).fuses = s.fuses := by simp [openDecoder]
@[simp] theorem fuses_closeIntake (s : State) : (closeIntake s).fuses = s.fuses := by simp [closeIntake]
@[simp] theorem fuses_openIntake (s : State) : (openIntake s).fuses = s.fuses := by simp [openIntake]
@[simp] theorem fuses_openSwitch (s : State) : (openSwitch s).fuses = s.fuses := by simp [openSwitch]

/-! Machine/Place -/

@[simp] theorem fuses_setGroup (g) (x) (s : State) : (setGroup g x s).fuses = s.fuses := by simp [setGroup]
@[simp] theorem fuses_groupError (g) (s : State) : (groupError g s).fuses = s.fuses := by simp [groupError]
@[simp] theorem fuses_groupFails (g) (a) (e) (s : State) : (groupFails g a e s).fuses = s.fuses := by
  unfold groupFails
  split <;> simp
@[simp] theorem fuses_placeRow (g) (buf) (k) (p) (r) (s : State) : fusesAfter (placeRow g buf k p r s) = s.fuses := by
  unfold placeRow
  dsimp only
  split <;> simp
@[simp] theorem fuses_placeRows (g) (buf) (k) (x3) (x4 : State) :
    fusesAfter (placeRows g buf k x3 x4) = x4.fuses := by
  fun_induction placeRows <;> simp +zetaDelta [*]
@[simp] theorem fuses_placeSlab (g) (s : State) : (placeSlab g s).fuses = s.fuses := by
  unfold placeSlab
  dsimp only
  (repeat' split) <;> simp
@[simp] theorem fuses_offerFrame (g) (i) (e) (planes) (s : State) :
    fusesAfter (offerFrame g i e planes s) = s.fuses := by
  unfold offerFrame
  dsimp only
  (repeat' split) <;> simp
@[simp] theorem fuses_closeGroups (e) (s : State) : (closeGroups e s).fuses = s.fuses := by simp [closeGroups]

/-! Machine/Builtin -/

@[simp] theorem fuses_readPieces (m) (x1) (x2 : State) : fusesAfter (readPieces m x1 x2) = x2.fuses := by
  fun_induction readPieces <;> simp +zetaDelta [*]

@[simp] theorem fuses_writePieces (m l) (s : State) : fusesAfter (writePieces m l s) = s.fuses := by
  induction l generalizing s with
  | nil => simp [writePieces]
  | cons x r ih =>
    obtain ⟨p, vs⟩ := x
    rw [writePieces]
    dsimp only
    split
    · simp
    · split <;> simp [ih]

@[simp] theorem fuses_readBlocks (m) (bits) (x2) (x3) (x4) (x5 : State) :
    fusesAfter (readBlocks m bits x2 x3 x4 x5) = x5.fuses := by
  fun_induction readBlocks <;> simp +zetaDelta [*]
@[simp] theorem fuses_readFibres (m) (base) (bits) (k) (x4) (x5) (x6 : State) :
    fusesAfter (readFibres m base bits k x4 x5 x6) = x6.fuses := by
  fun_induction readFibres <;> simp +zetaDelta [*]
@[simp] theorem fuses_convRows (m) (d) (x2) (x3) (x4 : State) : fusesAfter (convRows m d x2 x3 x4) = x4.fuses := by
  fun_induction convRows <;> simp +zetaDelta [*]
@[simp] theorem fuses_readA (m) (d) (r) (s : State) : fusesAfter (readA m d r s) = s.fuses := by simp [readA]
@[simp] theorem fuses_readB (m) (d) (c) (s : State) : fusesAfter (readB m d c s) = s.fuses := by simp [readB]
@[simp] theorem fuses_laneOperands (m) (d) (r) (c) (s : State) : fusesAfter (laneOperands m d r c s) = s.fuses := by
  unfold laneOperands
  split <;> simp

@[simp] theorem fuses_gatherRows (m d l) (s : State) : fusesAfter (gatherRows m d l s) = s.fuses := by
  induction l generalizing s with
  | nil => simp [gatherRows]
  | cons x r ih =>
    unfold gatherRows
    dsimp only
    (repeat' split) <;> simp [ih]

/-! Machine/Tiles -/

@[simp] theorem fuses_tileBegun (n) (o) (s : State) : (tileBegun n o s).fuses = s.fuses := by simp [tileBegun]
@[simp] theorem fuses_stallOrder (m) (n) (reason) (level) (va) (a) (s : State) :
    (stallOrder m n reason level va a s).fuses = s.fuses := by
  unfold stallOrder
  dsimp only
  split <;> simp
@[simp] theorem fuses_failOrder (m) (n) (a) (e) (s : State) : (failOrder m n a e s).fuses = s.fuses := by
  unfold failOrder
  split <;> simp
@[simp] theorem fuses_launchGroup (n) (o) (pc) (sregs) (s : State) :
    (launchGroup n o pc sregs s).fuses = s.fuses := by
  unfold launchGroup
  dsimp only
  (repeat' split) <;> simp
@[simp] theorem fuses_startProgram (n) (o) (s : State) : (startProgram n o s).fuses = s.fuses := by
  unfold startProgram
  dsimp only
  (repeat' split) <;> simp
@[simp] theorem fuses_startBuiltin (n) (o) (s : State) : (startBuiltin n o s).fuses = s.fuses := by
  simp [startBuiltin]
@[simp] theorem fuses_stallRake (o) (e) (a) (s : State) : (stallRake o e a s).fuses = s.fuses := by
  unfold stallRake
  dsimp only
  (repeat' split) <;> simp

@[simp] theorem fuses_loadRows (j o t tg n y) (s : State) : fusesAfter (loadRows j o t tg n y s) = s.fuses := by
  induction n generalizing y s with
  | zero => simp [loadRows]
  | succ n ih =>
    unfold loadRows
    dsimp only
    split <;> simp [ih]

@[simp] theorem fuses_fillTargets (j o n t c tgs) (s : State) : fusesAfter (fillTargets j o n t c tgs s) = s.fuses := by
  delta fillTargets
  refine list_brecOn_keeps (C := fun _ => Nat → State → Option VaErr × State)
    (fun _ f => ∀ c s, fusesAfter (f c s) = s.fuses) _ ?_ ?_ tgs c s
  · exact fun _ _ _ => fusesAfter_mk ..
  · intro tg rest b ih c s
    simp only [fillTargets._f]
    -- The two accesses are made opaque, so that no check of this proof runs them.
    obtain ⟨write, hdef, hwrite⟩ : ∃ f, @physWrite = f ∧ ∀ r a bs t, fusesAfter (f r a bs t) = t.fuses :=
      ⟨_, rfl, fuses_physWrite⟩
    obtain ⟨load, hdef', hload⟩ : ∃ f, @loadRows = f ∧ ∀ j o n tg k y t, fusesAfter (f j o n tg k y t) = t.fuses :=
      ⟨_, rfl, fuses_loadRows⟩
    rw [hdef, hdef']
    split
    · exact ih ..
    · split
      · simp [hload]
      · split <;> simp [hwrite, hload, ih]

@[simp] theorem fuses_skipTile (o) (j) (s : State) : (skipTile o j s).fuses = s.fuses := by simp [skipTile]
@[simp] theorem fuses_startRake (n) (o) (j) (s : State) : (startRake n o j s).fuses = s.fuses := by
  unfold startRake
  dsimp only
  (repeat' split) <;> simp
@[simp] theorem fuses_startTile (n) (s : State) : (startTile n s).fuses = s.fuses := by
  fun_cases startTile <;> simp
@[simp] theorem fuses_execTileStart (bed) (s : State) :
    Completes (execTileStart bed s) (fun t => t.fuses = s.fuses) := by
  simp [execTileStart]
@[simp] theorem fuses_saveBed (n) (s : State) : (saveBed n s).fuses = s.fuses := by simp [saveBed]
@[simp] theorem fuses_yieldAtEnd (n) (s : State) : (yieldAtEnd n s).fuses = s.fuses := by simp [yieldAtEnd]
@[simp] theorem fuses_execMaxTileTimeExpiry (bed) (s : State) :
    Completes (execMaxTileTimeExpiry bed s) (fun t => t.fuses = s.fuses) := by
  simp [execMaxTileTimeExpiry]
@[simp] theorem fuses_restoreBed (n) (v) (s : State) : (restoreBed n v s).fuses = s.fuses := by simp [restoreBed]
@[simp] theorem fuses_execBedRestore (bed) (s : State) :
    Completes (execBedRestore bed s) (fun t => t.fuses = s.fuses) := by
  unfold execBedRestore
  split <;> simp
@[simp] theorem fuses_tileEvent (o) (t) (e) (s : State) : fusesAfter (tileEvent o t e s) = s.fuses := by
  simp [tileEvent]
@[simp] theorem fuses_trapBuiltin (n) (o) (kind) (status) (detail) (s : State) :
    (trapBuiltin n o kind status detail s).fuses = s.fuses := by
  simp [trapBuiltin]
@[simp] theorem fuses_sieveTile (n) (d) (a) (b) (products) (s : State) :
    (sieveTile n d a b products s).fuses = s.fuses := by
  simp [sieveTile]
@[simp] theorem fuses_readBias (m) (d) (c) (s : State) : fusesAfter (readBias m d c s) = s.fuses := by simp [readBias]
@[simp] theorem fuses_workTiller (m) (d) (r) (c) (gens) (s : State) :
    fusesAfter (workTiller m d r c gens s) = s.fuses := by
  unfold workTiller
  dsimp only
  (repeat' split) <;> simp
@[simp] theorem fuses_workGather (m) (d) (r) (gens) (s : State) : fusesAfter (workGather m d r gens s) = s.fuses := by
  unfold workGather
  dsimp only
  split <;> simp
@[simp] theorem fuses_workLanes (m) (d) (tile) (r) (c) (gens) (s : State) :
    fusesAfter (workLanes m d tile r c gens s) = s.fuses := by
  unfold workLanes
  dsimp only
  (repeat' split) <;> simp
@[simp] theorem fuses_tileWork (m) (tile) (gens) (s : State) : fusesAfter (tileWork m tile gens s) = s.fuses := by
  simp [tileWork]
@[simp] theorem fuses_tileFlags (n) (o) (t) (w) (s : State) : (tileFlags n o t w s).fuses = s.fuses := by
  unfold tileFlags
  split <;> simp
@[simp] theorem fuses_tileEnds (n) (o) (t) (w) (s : State) : (tileEnds n o t w s).fuses = s.fuses := by
  unfold tileEnds
  dsimp only
  split <;> simp
@[simp] theorem fuses_completeTile (n) (o) (t) (s : State) : (completeTile n o t s).fuses = s.fuses := by
  unfold completeTile
  dsimp only
  (repeat' split) <;> simp
@[simp] theorem fuses_execTileComplete (bed) (s : State) :
    Completes (execTileComplete bed s) (fun t => t.fuses = s.fuses) := by
  unfold execTileComplete
  (repeat' split) <;> simp
@[simp] theorem fuses_groupEnds (n) (group) (s : State) : (groupEnds n group s).fuses = s.fuses := by
  unfold groupEnds
  dsimp only
  (repeat' split) <;> simp
@[simp] theorem fuses_execEndWave (bed) (slot) (s : State) :
    Completes (execEndWave bed slot s) (fun t => t.fuses = s.fuses) := by
  simp [execEndWave]

/-! Machine/Rake -/

@[simp] theorem fuses_acceptJob (e) (d) (edge) (ts) (s : State) : (acceptJob e d edge ts s).fuses = s.fuses := by
  simp [acceptJob]
@[simp] theorem fuses_stallEntry (e) (x) (s : State) : (stallEntry e x s).fuses = s.fuses := by
  unfold stallEntry
  dsimp only
  (repeat' split) <;> simp
@[simp] theorem fuses_takeJob (e) (d) (s : State) : (takeJob e d s).fuses = s.fuses := by
  unfold takeJob
  dsimp only
  (repeat' split) <;> simp
@[simp] theorem fuses_rakeRow (fusion) (uid) (s : State) :
    Completes (rakeRow fusion uid s) (fun t => t.fuses = s.fuses) := by
  unfold rakeRow
  (repeat' split) <;> simp
@[simp] theorem fuses_execRakeRaster (uid) (s : State) :
    Completes (execRakeRaster uid s) (fun t => t.fuses = s.fuses) := by
  simp [execRakeRaster]
@[simp] theorem fuses_execRakeFusion (uid) (s : State) :
    Completes (execRakeFusion uid s) (fun t => t.fuses = s.fuses) := by
  simp [execRakeFusion]
@[simp] theorem fuses_binRecords (j) (o) (x2) (x3) (x4 : State) :
    fusesAfter (binRecords j o x2 x3 x4) = x4.fuses := by
  fun_induction binRecords <;> simp +zetaDelta [*]
@[simp] theorem fuses_countBinning (entries) (bs) (s : State) : (countBinning entries bs s).fuses = s.fuses := by
  simp [countBinning]
@[simp] theorem fuses_writeBins (j) (o) (bs) (lists) (s : State) :
    fusesAfter (writeBins j o bs lists s) = s.fuses := by
  unfold writeBins
  dsimp only
  split <;> simp
@[simp] theorem fuses_finishBinning (j) (o) (s : State) : (finishBinning j o s).fuses = s.fuses := by
  unfold finishBinning
  dsimp only
  (repeat' split) <;> simp
@[simp] theorem fuses_execBinningDone (s : State) : Completes (execBinningDone s) (fun t => t.fuses = s.fuses) := by
  unfold execBinningDone
  (repeat' split) <;> simp
@[simp] theorem fuses_resolveRows (j) (o) (t) (n) (c) (tg) (x6) (x7) (x8 : State) :
    fusesAfter (resolveRows j o t n c tg x6 x7 x8) = x8.fuses := by
  fun_induction resolveRows <;> simp +zetaDelta [*]
@[simp] theorem fuses_resolveTargets (j) (o) (t) (n) (x4) (x5) (x6 : State) :
    fusesAfter (resolveTargets j o t n x4 x5 x6) = x6.fuses := by
  fun_induction resolveTargets <;> simp +zetaDelta [*]
@[simp] theorem fuses_resolveTile (j) (o) (n) (s : State) : (resolveTile j o n s).fuses = s.fuses := by
  unfold resolveTile
  dsimp only
  split <;> simp
@[simp] theorem fuses_execResolveDone (uid) (s : State) :
    Completes (execResolveDone uid s) (fun t => t.fuses = s.fuses) := by
  unfold execResolveDone
  (repeat' split) <;> simp

/-! Machine/Work -/

@[simp] theorem fuses_cutTransfer (t) (s : State) : (cutTransfer t s).fuses = s.fuses := by simp [cutTransfer]
@[simp] theorem fuses_cutEntry (uid) (s : State) : (cutEntry uid s).fuses = s.fuses := by
  unfold cutEntry
  split <;> simp
@[simp] theorem fuses_endStream (st) (status) (s : State) : (endStream st status s).fuses = s.fuses := by
  unfold endStream
  dsimp only
  (repeat' split) <;> simp
@[simp] theorem fuses_refreshUrgent (s : State) : (refreshUrgent s).fuses = s.fuses := by simp [refreshUrgent]
@[simp] theorem fuses_closeGardener0 (s : State) : (closeGardener0 s).fuses = s.fuses := by simp [closeGardener0]

@[simp] theorem fuses_loseSpills (n) (cause) (s : State) : (loseSpills n cause s).fuses = s.fuses := by
  unfold loseSpills
  split
  · rfl
  · refine fuses_each _ _ _ fun b t => ?_
    split <;> simp

@[simp] theorem fuses_endStalls (s : State) : (endStalls s).fuses = s.fuses := by
  unfold endStalls
  dsimp only
  rw [fuses_each _ _ _ fun r t => by split <;> simp]
  simp

@[simp] theorem fuses_closeRake (s : State) : (closeRake s).fuses = s.fuses := by simp [closeRake]
@[simp] theorem fuses_closeWork (n) (cause) (s : State) : (closeWork n cause s).fuses = s.fuses := by simp [closeWork]
@[simp] theorem fuses_cutForSettle (s : State) : (cutForSettle s).fuses = s.fuses := by simp [cutForSettle]
@[simp] theorem fuses_stopEndpoints (s : State) : (stopEndpoints s).fuses = s.fuses := by simp [stopEndpoints]
@[simp] theorem fuses_cutPaused (s : State) : (cutPaused s).fuses = s.fuses := by simp [cutPaused]
@[simp] theorem fuses_dropDeletedHeads (s : State) : (dropDeletedHeads s).fuses = s.fuses := by
  simp [dropDeletedHeads]

@[simp] theorem fuses_dropDeleted (s : State) : (dropDeleted s).fuses = s.fuses := by
  unfold dropDeleted
  rw [fuses_each _ _ _ fun o t => by split <;> simp]
  simp

@[simp] theorem fuses_settleStreams (s : State) : (settleStreams s).fuses = s.fuses := by simp [settleStreams]
@[simp] theorem fuses_closeBatches (s : State) : (closeBatches s).fuses = s.fuses := by simp [closeBatches]

/-! Machine/Units -/

@[simp] theorem fuses_setClock (n) (s : State) : (setClock n s).fuses = s.fuses := by simp [setClock]
@[simp] theorem fuses_refreshClocks (s : State) : (refreshClocks s).fuses = s.fuses := by simp [refreshClocks]
@[simp] theorem fuses_setView (stop) (n) (e) (s : State) : (setView stop n e s).fuses = s.fuses := by simp [setView]
@[simp] theorem fuses_broadcast (n) (s : State) : (broadcast n s).fuses = s.fuses := by simp [broadcast]
@[simp] theorem fuses_loadViews (stop) (s : State) : (loadViews stop s).fuses = s.fuses := by simp [loadViews]
@[simp] theorem fuses_meetOpen (t) (s : State) : (meetOpen t s).fuses = s.fuses := by simp [meetOpen]
@[simp] theorem fuses_retire (t) (s : State) : (retire t s).fuses = s.fuses := by simp [retire]
@[simp] theorem fuses_replyOpen (t) (s : State) : (replyOpen t s).fuses = s.fuses := by simp [replyOpen]

@[simp] theorem fuses_releaseHeld (n) (s : State) : (releaseHeld n s).fuses = s.fuses := by
  unfold releaseHeld
  dsimp only
  rw [fuses_mk, boot_fuses, fuses_each _ _ _ fun r t => by split <;> simp]
  simp

@[simp] theorem fuses_finishPlan (status) (detail) (s : State) : (finishPlan status detail s).fuses = s.fuses := by
  simp [finishPlan]
@[simp] theorem fuses_endWriteThrough (s : State) : (endWriteThrough s).fuses = s.fuses := by simp [endWriteThrough]
@[simp] theorem fuses_abandonPlan (n) (s : State) : (abandonPlan n s).fuses = s.fuses := by simp [abandonPlan]
@[simp] theorem fuses_abandonEntry (result) (s : State) : (abandonEntry result s).fuses = s.fuses := by
  simp [abandonEntry]
@[simp] theorem fuses_wdogRecord (p) (kind) (outcome) (s : State) :
    (wdogRecord p kind outcome s).fuses = s.fuses := by
  simp [wdogRecord]
@[simp] theorem fuses_wdogEvent (p) (kind) (outcome) (s : State) : (wdogEvent p kind outcome s).fuses = s.fuses := by
  simp [wdogEvent]
@[simp] theorem fuses_closeProcessor (n) (cause) (s : State) : (closeProcessor n cause s).fuses = s.fuses := by
  unfold closeProcessor
  split <;> simp
@[simp] theorem fuses_closeUnits (n) (cause) (s : State) : (closeUnits n cause s).fuses = s.fuses := by
  simp [closeUnits]
@[simp] theorem fuses_loseFills (n) (s : State) : (loseFills n s).fuses = s.fuses := by simp [loseFills]
@[simp] theorem fuses_closeIsland (n) (cause) (s : State) : (closeIsland n cause s).fuses = s.fuses := by
  simp [closeIsland]
@[simp] theorem fuses_flushEvents (s : State) : (flushEvents s).fuses = s.fuses := by simp [flushEvents]
@[simp] theorem fuses_clearCtrlBusy (n) (s : State) : (clearCtrlBusy n s).fuses = s.fuses := by simp [clearCtrlBusy]
@[simp] theorem fuses_retryWaiting (s : State) : (retryWaiting s).fuses = s.fuses := by simp [retryWaiting]
@[simp] theorem fuses_openUnits (n) (s : State) : (openUnits n s).fuses = s.fuses := by simp [openUnits]
@[simp] theorem fuses_openIsland (n) (s : State) : (openIsland n s).fuses = s.fuses := by simp [openIsland]
@[simp] theorem fuses_powerUpQuiet (n) (s : State) : (powerUpQuiet n s).fuses = s.fuses := by simp [powerUpQuiet]
@[simp] theorem fuses_powerUp (n) (cause) (s : State) : (powerUp n cause s).fuses = s.fuses := by simp [powerUp]
@[simp] theorem fuses_powerUpWake (n) (s : State) : (powerUpWake n s).fuses = s.fuses := by simp [powerUpWake]
@[simp] theorem fuses_powerDown (n) (cause) (s : State) : (powerDown n cause s).fuses = s.fuses := by simp [powerDown]

/-! Machine/Starts -/

@[simp] theorem fuses_flashWrite (a) (bs) (s : State) : (flashWrite a bs s).fuses = s.fuses := by simp [flashWrite]
@[simp] theorem fuses_flashErase (a) (n) (s : State) : (flashErase a n s).fuses = s.fuses := by simp [flashErase]
@[simp] theorem fuses_writeDir (preferred) (s : State) : (writeDir preferred s).fuses = s.fuses := by simp [writeDir]
@[simp] theorem fuses_appendRecord (typ) (slot) (step) (status) (detail) (info) (s : State) :
    (appendRecord typ slot step status detail info s).fuses = s.fuses := by
  simp [appendRecord]
@[simp] theorem fuses_showFailure (r) (s : State) : (showFailure r s).fuses = s.fuses := by simp [showFailure]
@[simp] theorem fuses_recordFailure (usable) (step) (status) (detail) (info) (s : State) :
    (recordFailure usable step status detail info s).fuses = s.fuses := by
  simp [recordFailure]
@[simp] theorem fuses_holdReset (s : State) : (holdReset s).fuses = s.fuses := by simp [holdReset]
@[simp] theorem fuses_coldStart (kind) (forced) (s : State) : (coldStart kind forced s).fuses = s.fuses := by
  simp [coldStart]
@[simp] theorem fuses_failStart (status) (detail) (info) (s : State) :
    (failStart status detail info s).fuses = s.fuses := by
  simp [failStart]
@[simp] theorem fuses_haltStart (detail) (s : State) : (haltStart detail s).fuses = s.fuses := by simp [haltStart]
@[simp] theorem fuses_enterStep (k) (s : State) : (enterStep k s).fuses = s.fuses := by simp [enterStep]
@[simp] theorem fuses_stepDone (k) (s : State) : (stepDone k s).fuses = s.fuses := by simp [stepDone]
@[simp] theorem fuses_loseIslands (s : State) : (loseIslands s).fuses = s.fuses := by simp [loseIslands]
@[simp] theorem fuses_wakeStart (kind) (causes) (s : State) : (wakeStart kind causes s).fuses = s.fuses := by
  simp [wakeStart]
@[simp] theorem fuses_tripSequence (cause) (s : State) : (tripSequence cause s).fuses = s.fuses := by
  simp [tripSequence]

/-! Machine/Wake -/

@[simp] theorem fuses_restart (n) (s : State) : (restart n s).fuses = s.fuses := by simp [restart]
@[simp] theorem fuses_stopHedge (n) (s : State) : (stopHedge n s).fuses = s.fuses := by simp [stopHedge]
@[simp] theorem fuses_beginEntry (target) (drain) (s : State) : (beginEntry target drain s).fuses = s.fuses := by
  simp [beginEntry]
@[simp] theorem fuses_shadeExit (causes) (s : State) : (shadeExit causes s).fuses = s.fuses := by
  unfold shadeExit
  dsimp only
  split <;> simp
@[simp] theorem fuses_noteShadeCause (b) (s : State) : (noteShadeCause b s).fuses = s.fuses := by
  simp [noteShadeCause]
@[simp] theorem fuses_wakeEvent (b) (s : State) : (wakeEvent b s).fuses = s.fuses := by simp [wakeEvent]
@[simp] theorem fuses_runSequence (s : State) : (runSequence s).fuses = s.fuses := by simp [runSequence]
@[simp] theorem fuses_tryLeave (s : State) : (tryLeave s).fuses = s.fuses := by simp [tryLeave]

/-! Machine/Access -/

@[simp] theorem fuses_holdTlp (t) (s : State) : (holdTlp t s).fuses = s.fuses := by simp [holdTlp]
@[simp] theorem fuses_touchWake (w) (s : State) : (touchWake w s).fuses = s.fuses := by
  unfold touchWake
  split <;> simp
@[simp] theorem fuses_writeAccess (w) (off) (value) (act) (s : State) (hact : ∀ t, (act t).fuses = t.fuses) :
    (writeAccess w off value act s).fuses = s.fuses := by
  unfold writeAccess
  dsimp only
  split <;> simp [*]
@[simp] theorem fuses_noteReserved (off) (v) (s : State) : (noteReserved off v s).fuses = s.fuses := by
  simp [noteReserved]
@[simp] theorem fuses_plainWrite (f) (off) (v) (s : State) : (plainWrite f off v s).fuses = s.fuses := by
  unfold plainWrite
  dsimp only
  (repeat' split) <;> simp
@[simp] theorem fuses_noteOrigin (b) (w) (s : State) : (noteOrigin b w s).fuses = s.fuses := by simp [noteOrigin]

/-! Machine/Islands -/

@[simp] theorem fuses_acceptReset (n) (s : State) : (acceptReset n s).fuses = s.fuses := by simp [acceptReset]
@[simp] theorem fuses_resetTarget (w) (key) (n) (s : State) : (resetTarget w key n s).fuses = s.fuses := by
  simp [resetTarget]
@[simp] theorem fuses_execResetTarget (w) (key) (target) (s : State) :
    Completes (execResetTarget w key target s) (fun t => t.fuses = s.fuses) := by
  simp [execResetTarget]
@[simp] theorem fuses_clearCounters (n) (s : State) : (clearCounters n s).fuses = s.fuses := by simp [clearCounters]
@[simp] theorem fuses_clearTargets (key) (ns) (s : State) : (clearTargets key ns s).fuses = s.fuses := by
  simp [clearTargets]
@[simp] theorem fuses_execClearTargetCounters (w) (key) (target) (s : State) :
    Completes (execClearTargetCounters w key target s) (fun t => t.fuses = s.fuses) := by
  simp [execClearTargetCounters]
@[simp] theorem fuses_execClearAllCounters (w) (key) (s : State) :
    Completes (execClearAllCounters w key s) (fun t => t.fuses = s.fuses) := by
  simp [execClearAllCounters]
@[simp] theorem fuses_execHedgeOpen (island) (s : State) :
    Completes (execHedgeOpen island s) (fun t => t.fuses = s.fuses) := by
  simp [execHedgeOpen]
@[simp] theorem fuses_execEpochViewUpdate (stop) (island) (s : State) :
    Completes (execEpochViewUpdate stop island s) (fun t => t.fuses = s.fuses) := by
  unfold execEpochViewUpdate
  split <;> simp
@[simp] theorem fuses_arrive (src) (dst) (tag) (s : State) : (arrive src dst tag s).fuses = s.fuses := by
  simp [arrive]
@[simp] theorem fuses_execHedgeRequest (src) (dst) (s : State) :
    Completes (execHedgeRequest src dst s) (fun t => t.fuses = s.fuses) := by
  unfold execHedgeRequest
  (repeat' split) <;> simp
@[simp] theorem fuses_execHedgeReply (src) (tag) (s : State) :
    Completes (execHedgeReply src tag s) (fun t => t.fuses = s.fuses) := by
  unfold execHedgeReply
  split <;> simp
@[simp] theorem fuses_execTrellisAged (s : State) : Completes (execTrellisAged s) (fun t => t.fuses = s.fuses) := by
  simp [execTrellisAged]
@[simp] theorem fuses_execRequestTagFree (src) (s : State) :
    Completes (execRequestTagFree src s) (fun t => t.fuses = s.fuses) := by
  unfold execRequestTagFree
  split <;> simp
@[simp] theorem fuses_execResponseTimeout (src) (tag) (hung) (s : State) :
    Completes (execResponseTimeout src tag hung s) (fun t => t.fuses = s.fuses) := by
  unfold execResponseTimeout
  split <;> simp
@[simp] theorem fuses_answerRead (bs) (s : State) : (answerRead bs s).fuses = s.fuses := by simp [answerRead]
@[simp] theorem fuses_serveRead (w) (off) (size) (s : State) : (serveRead w off size s).fuses = s.fuses := by
  fun_cases serveRead <;> simp
@[simp] theorem fuses_readAccess (w) (off) (size) (s : State) : (readAccess w off size s).fuses = s.fuses := by
  unfold readAccess
  dsimp only
  split <;> simp
@[simp] theorem fuses_execDarkAccess (w) (off) (write) (s : State) :
    Completes (execDarkAccess w off write s) (fun t => t.fuses = s.fuses) := by
  simp [execDarkAccess]
@[simp] theorem fuses_execBadAccess (w) (off) (size) (write) (s : State) :
    Completes (execBadAccess w off size write s) (fun t => t.fuses = s.fuses) := by
  unfold execBadAccess
  dsimp only
  (repeat' split) <;> simp

/-! Machine/Acoustic -/

@[simp] theorem fuses_levelOf (xs) (s : State) : fusesAfter (levelOf xs s) = s.fuses := by simp [levelOf]
@[simp] theorem fuses_acousticEvent (c) (fs) (s : State) : (acousticEvent c fs s).fuses = s.fuses := by
  simp [acousticEvent]
@[simp] theorem fuses_releaseRoll (s : State) : (releaseRoll s).fuses = s.fuses := by simp [releaseRoll]

@[simp] theorem fuses_hearMic (c pcm mic acc) : fusesAfter (hearMic c pcm mic acc) = fusesAfter acc := by
  simp only [hearMic, fusesAfter_mk, fuses_ite]
  split <;> simp

@[simp] theorem fuses_execAcousticFrame (pcm) (s : State) :
    Completes (execAcousticFrame pcm s) (fun t => t.fuses = s.fuses) := by
  unfold execAcousticFrame
  rw [completes_next]
  split
  · rfl
  · next c _ =>
    have hhear : ∀ x, fusesAfter ((s.decodedMics c).foldl (fun a m => hearMic c pcm m a) x) = fusesAfter x :=
      foldl_keeps fusesAfter _ (fun x m => fuses_hearMic c pcm m x) _
    split
    · rfl
    · split
      · rw [fuses_releaseRoll, fuses_recordFrame, fuses_onAcou]
      · dsimp only
        generalize hr : List.foldl _ _ _ = r
        have hkeep : fusesAfter r = s.fuses := by rw [← hr, hhear, fusesAfter_mk, fuses_onAcou]
        (repeat' split) <;> simp [hkeep]

@[simp] theorem fuses_execSettlingEnd (s : State) : Completes (execSettlingEnd s) (fun t => t.fuses = s.fuses) := by
  simp [execSettlingEnd]
@[simp] theorem fuses_acouCommand (w) (key) (act) (s : State) (hact : ∀ x0 t, (act x0 t).fuses = t.fuses) :
    (acouCommand w key act s).fuses = s.fuses := by
  unfold acouCommand
  dsimp only
  split <;> simp [*]
@[simp] theorem fuses_prerollRead (w) (c) (s : State) : (prerollRead w c s).fuses = s.fuses := by
  unfold prerollRead
  split <;> simp
@[simp] theorem fuses_execPrerollRead (w) (key) (s : State) :
    Completes (execPrerollRead w key s) (fun t => t.fuses = s.fuses) := by
  simp [execPrerollRead]
@[simp] theorem fuses_prerollRelease (x0) (s : State) : (prerollRelease x0 s).fuses = s.fuses := by
  simp [prerollRelease]
@[simp] theorem fuses_execPrerollRelease (w) (key) (s : State) :
    Completes (execPrerollRelease w key s) (fun t => t.fuses = s.fuses) := by
  simp [execPrerollRelease]
@[simp] theorem fuses_execFiredClear (w) (s : State) :
    Completes (execFiredClear w s) (fun t => t.fuses = s.fuses) := by
  simp [execFiredClear]

/-! Machine/BedRegs -/

@[simp] theorem fuses_execTrapClear (w) (bed) (s : State) :
    Completes (execTrapClear w bed s) (fun t => t.fuses = s.fuses) := by
  simp [execTrapClear]
@[simp] theorem fuses_clearRecords (bed) (what) (all) (s : State) :
    (clearRecords bed what all s).fuses = s.fuses := by
  simp [clearRecords]
@[simp] theorem fuses_execNumxClear (w) (bed) (what) (all) (s : State) :
    Completes (execNumxClear w bed what all s) (fun t => t.fuses = s.fuses) := by
  simp [execNumxClear]

/-! Machine/Calibration -/

@[simp] theorem fuses_applyCal (t) (s : State) : (applyCal t s).fuses = s.fuses := by simp [applyCal]
@[simp] theorem fuses_loadCal (s : State) : (loadCal s).fuses = s.fuses := by simp [loadCal]

/-! Machine/Apply -/

@[simp] theorem fuses_publishPlan (cfg) (chain) (s : State) : (publishPlan cfg chain s).fuses = s.fuses := by
  simp [publishPlan]
@[simp] theorem fuses_setVoltage (s : State) : (setVoltage s).fuses = s.fuses := by simp [setVoltage]
@[simp] theorem fuses_openPlanned (n) (s : State) : (openPlanned n s).fuses = s.fuses := by simp [openPlanned]
@[simp] theorem fuses_applyIsland (n) (s : State) : (applyIsland n s).fuses = s.fuses := by simp [applyIsland]
@[simp] theorem fuses_activateMemory (m) (s : State) : (activateMemory m s).fuses = s.fuses := by
  simp [activateMemory]

/-! Machine/Power -/

@[simp] theorem fuses_powerRequest (w) (value) (s : State) : (powerRequest w value s).fuses = s.fuses := by
  simp [powerRequest]
@[simp] theorem fuses_execPwrRequest (w) (key) (target) (drain) (s : State) :
    Completes (execPwrRequest w key target drain s) (fun t => t.fuses = s.fuses) := by
  simp [execPwrRequest]
@[simp] theorem fuses_execSoftwareShadeExit (w) (key) (s : State) :
    Completes (execSoftwareShadeExit w key s) (fun t => t.fuses = s.fuses) := by
  simp [execSoftwareShadeExit]
@[simp] theorem fuses_settleProcessor (p) (target) (s : State) : (settleProcessor p target s).fuses = s.fuses := by
  simp [settleProcessor]
@[simp] theorem fuses_finishFw (result) (status) (detail) (s : State) :
    (finishFw result status detail s).fuses = s.fuses := by
  simp [finishFw]
@[simp] theorem fuses_runHotSwap (p) (img) (s : State) : (runHotSwap p img s).fuses = s.fuses := by simp [runHotSwap]
@[simp] theorem fuses_execProcessorWait (proc) (mode) (s : State) :
    Completes (execProcessorWait proc mode s) (fun t => t.fuses = s.fuses) := by
  simp [execProcessorWait]
@[simp] theorem fuses_loseDeep (target) (s : State) : (loseDeep target s).fuses = s.fuses := by simp [loseDeep]
@[simp] theorem fuses_execSequenceDone (s : State) : Completes (execSequenceDone s) (fun t => t.fuses = s.fuses) := by
  simp [execSequenceDone]
@[simp] theorem fuses_execSettleHalfTimeout (s : State) :
    Completes (execSettleHalfTimeout s) (fun t => t.fuses = s.fuses) := by
  simp [execSettleHalfTimeout]
@[simp] theorem fuses_execSettleTimeout (s : State) :
    Completes (execSettleTimeout s) (fun t => t.fuses = s.fuses) := by
  simp [execSettleTimeout]
@[simp] theorem fuses_execLinkWaitTimeout (s : State) :
    Completes (execLinkWaitTimeout s) (fun t => t.fuses = s.fuses) := by
  simp [execLinkWaitTimeout]
@[simp] theorem fuses_execWakeNFall (s : State) : Completes (execWakeNFall s) (fun t => t.fuses = s.fuses) := by
  simp [execWakeNFall]
@[simp] theorem fuses_execRtcAlarm (s : State) : Completes (execRtcAlarm s) (fun t => t.fuses = s.fuses) := by
  simp [execRtcAlarm]
@[simp] theorem fuses_execPwrTimerExpiry (s : State) :
    Completes (execPwrTimerExpiry s) (fun t => t.fuses = s.fuses) := by
  simp [execPwrTimerExpiry]
@[simp] theorem fuses_execPcieWake (s : State) : Completes (execPcieWake s) (fun t => t.fuses = s.fuses) := by
  simp [execPcieWake]
@[simp] theorem fuses_execShadeFrameArrival (port) (frame) (s : State) :
    Completes (execShadeFrameArrival port frame s) (fun t => t.fuses = s.fuses) := by
  simp [execShadeFrameArrival]

/-! Machine/Boot -/

@[simp] theorem fuses_atStepDo (k) (f) (s : State) (hf : ∀ t, (f t).fuses = t.fuses) :
    Completes (atStepDo k f s) (fun t => t.fuses = s.fuses) := by
  simp [atStepDo, hf]
@[simp] theorem fuses_execPowerGood (s : State) : Completes (execPowerGood s) (fun t => t.fuses = s.fuses) := by
  simp [execPowerGood]
@[simp] theorem fuses_execFuseLoad (eccOk) (strap1) (strap0) (testMode) (s : State) :
    Completes (execFuseLoad eccOk strap1 strap0 testMode s) (fun t => t.fuses = s.fuses) := by
  simp [execFuseLoad]
@[simp] theorem fuses_execRomCheck (digestOk) (s : State) :
    Completes (execRomCheck digestOk s) (fun t => t.fuses = s.fuses) := by
  simp [execRomCheck]
@[simp] theorem fuses_recordTrip (s : State) : (recordTrip s).fuses = s.fuses := by
  unfold recordTrip
  split <;> simp
@[simp] theorem fuses_readDirectory (s : State) : (readDirectory s).fuses = s.fuses := by
  unfold readDirectory
  dsimp only
  (repeat' split) <;> simp
@[simp] theorem fuses_execBootDir (probe) (s : State) :
    Completes (execBootDir probe s) (fun t => t.fuses = s.fuses) := by
  unfold execBootDir
  split <;> simp

@[simp] theorem fuses_execGkVerify (s : State) : Completes (execGkVerify s) (fun t => t.fuses = s.fuses) := by
  refine fuses_atStepDo _ _ _ fun t => ?_
  dsimp only
  split <;> simp

@[simp] theorem fuses_execGkRun (s : State) : Completes (execGkRun s) (fun t => t.fuses = s.fuses) := by
  simp [execGkRun]
@[simp] theorem fuses_execPcieTrainingStart (s : State) :
    Completes (execPcieTrainingStart s) (fun t => t.fuses = s.fuses) := by
  simp [execPcieTrainingStart]
@[simp] theorem fuses_execMemTrain (result) (s : State) :
    Completes (execMemTrain result s) (fun t => t.fuses = s.fuses) := by
  unfold execMemTrain
  split <;> simp
@[simp] theorem fuses_reloadKeys (s : State) : (reloadKeys s).fuses = s.fuses := by simp [reloadKeys]
@[simp] theorem fuses_execMemRestore (identity) (ranks) (capGib) (readBack) (s : State) :
    Completes (execMemRestore identity ranks capGib readBack s) (fun t => t.fuses = s.fuses) := by
  simp [execMemRestore]
@[simp] theorem fuses_runImages (oks) (s : State) : (runImages oks s).fuses = s.fuses := by simp [runImages]

@[simp] theorem fuses_execImagesVerify (copiesOk) (s : State) :
    Completes (execImagesVerify copiesOk s) (fun t => t.fuses = s.fuses) := by
  refine fuses_atStepDo _ _ _ fun t => ?_
  dsimp only
  split <;> split <;> simp

@[simp] theorem fuses_execCalLoad (s : State) : Completes (execCalLoad s) (fun t => t.fuses = s.fuses) := by
  simp [execCalLoad]
@[simp] theorem fuses_showPlanError (e) (image) (area) (s : State) :
    (showPlanError e image area s).fuses = s.fuses := by
  simp [showPlanError]
@[simp] theorem fuses_acceptChain (r) (s : State) : (acceptChain r s).fuses = s.fuses := by simp [acceptChain]

@[simp] theorem fuses_tryAreas (l) (s : State) : (tryAreas l s).fuses = s.fuses := by
  induction l generalizing s with
  | nil => simp [tryAreas]
  | cons a as ih =>
    rw [tryAreas]
    split
    · rw [ih]
      split <;> simp
    · rw [fuses_acceptChain]
      split <;> simp

@[simp] theorem fuses_execPlanVerify (shadowOk) (s : State) :
    Completes (execPlanVerify shadowOk s) (fun t => t.fuses = s.fuses) := by
  simp [execPlanVerify]

@[simp] theorem fuses_execPlanApply (s : State) : Completes (execPlanApply s) (fun t => t.fuses = s.fuses) := by
  refine fuses_atStepDo _ _ _ fun t => ?_
  dsimp only
  rw [fuses_stepDone, fuses_put, fuses_ite, fuses_each _ _ _ fuses_preloadSlice, ite_self, fuses_setVoltage,
    fuses_each _ _ _ fuses_applyIsland, fuses_configureCommon, fuses_mk_boot, boot_fuses, fuses_wr, fuses_publishPlan]

@[simp] theorem fuses_execLinksUp (s : State) : Completes (execLinksUp s) (fun t => t.fuses = s.fuses) := by
  simp [execLinksUp]
@[simp] theorem fuses_grantToken (s : State) : (grantToken s).fuses = s.fuses := by simp [grantToken]

@[simp] theorem fuses_execReady (s : State) : Completes (execReady s) (fun t => t.fuses = s.fuses) := by
  refine fuses_atStepDo _ _ _ fun t => ?_
  dsimp only
  split <;> simp

@[simp] theorem fuses_execStartTimerExpiry (s : State) :
    Completes (execStartTimerExpiry s) (fun t => t.fuses = s.fuses) := by
  simp [execStartTimerExpiry]
@[simp] theorem fuses_execDramClearDone (s : State) :
    Completes (execDramClearDone s) (fun t => t.fuses = s.fuses) := by
  unfold execDramClearDone
  split <;> simp

/-! Machine/BootCmd -/

@[simp] theorem fuses_finishBoot (result) (status) (detail) (s : State) :
    (finishBoot result status detail s).fuses = s.fuses := by
  simp [finishBoot]
@[simp] theorem fuses_bootCommand (w) (key) (act) (s : State) (hact : ∀ t, (act t).fuses = t.fuses) :
    (bootCommand w key act s).fuses = s.fuses := by
  simp [bootCommand, hact]
@[simp] theorem fuses_writeSlot (w) (slot) (image) (s : State) : (writeSlot w slot image s).fuses = s.fuses := by
  unfold writeSlot
  dsimp only
  (repeat' split) <;> simp
@[simp] theorem fuses_execWriteSlot (w) (key) (slot) (image) (s : State) :
    Completes (execWriteSlot w key slot image s) (fun t => t.fuses = s.fuses) := by
  simp [execWriteSlot]

@[simp] theorem fuses_verifySlotCmd (slot) (s : State) : (verifySlotCmd slot s).fuses = s.fuses := by
  unfold verifySlotCmd
  split <;> rw [fuses_finishBoot]

@[simp] theorem fuses_execVerifySlot (w) (key) (slot) (s : State) :
    Completes (execVerifySlot w key slot s) (fun t => t.fuses = s.fuses) := by
  simp [execVerifySlot]

@[simp] theorem fuses_setPreferredCmd (slot) (s : State) : (setPreferredCmd slot s).fuses = s.fuses := by
  unfold setPreferredCmd
  split
  · rw [fuses_finishBoot, fuses_put, fuses_writeDir]
  · rw [fuses_finishBoot]

@[simp] theorem fuses_execSetPreferred (w) (key) (slot) (s : State) :
    Completes (execSetPreferred w key slot s) (fun t => t.fuses = s.fuses) := by
  simp [execSetPreferred]
@[simp] theorem fuses_clearAttemptsCmd (s : State) : (clearAttemptsCmd s).fuses = s.fuses := by
  simp [clearAttemptsCmd]
@[simp] theorem fuses_execClearAttempts (w) (key) (s : State) :
    Completes (execClearAttempts w key s) (fun t => t.fuses = s.fuses) := by
  simp [execClearAttempts]
@[simp] theorem fuses_execRestartCold (w) (key) (s : State) :
    Completes (execRestartCold w key s) (fun t => t.fuses = s.fuses) := by
  simp [execRestartCold]
@[simp] theorem fuses_releaseReset (s : State) : (releaseReset s).fuses = s.fuses := by simp [releaseReset]
@[simp] theorem fuses_execResetNAssert (s : State) : Completes (execResetNAssert s) (fun t => t.fuses = s.fuses) := by
  simp [execResetNAssert]
@[simp] theorem fuses_execResetNDeassert (s : State) :
    Completes (execResetNDeassert s) (fun t => t.fuses = s.fuses) := by
  simp [execResetNDeassert]
@[simp] theorem fuses_execPwrOkRise (s : State) : Completes (execPwrOkRise s) (fun t => t.fuses = s.fuses) := by
  simp [execPwrOkRise]
@[simp] theorem fuses_powerFails (s : State) : (powerFails s).fuses = s.fuses := by simp [powerFails]
@[simp] theorem fuses_execPwrOkFall (s : State) : Completes (execPwrOkFall s) (fun t => t.fuses = s.fuses) := by
  simp [execPwrOkFall]
@[simp] theorem fuses_execRailUndervoltage (s : State) :
    Completes (execRailUndervoltage s) (fun t => t.fuses = s.fuses) := by
  simp [execRailUndervoltage]
@[simp] theorem fuses_execPowerOnDetect (s : State) :
    Completes (execPowerOnDetect s) (fun t => t.fuses = s.fuses) := by
  simp [execPowerOnDetect]
@[simp] theorem fuses_execPowerOnRelease (s : State) :
    Completes (execPowerOnRelease s) (fun t => t.fuses = s.fuses) := by
  simp [execPowerOnRelease]

/-! Machine/Display -/

@[simp] theorem fuses_execHpdRise (sink) (s : State) :
    Completes (execHpdRise sink s) (fun t => t.fuses = s.fuses) := by
  simp [execHpdRise]
@[simp] theorem fuses_execHpdLow (s : State) : Completes (execHpdLow s) (fun t => t.fuses = s.fuses) := by
  simp [execHpdLow]
@[simp] theorem fuses_execIrqHpd (sink) (s : State) : Completes (execIrqHpd sink s) (fun t => t.fuses = s.fuses) := by
  simp [execIrqHpd]
@[simp] theorem fuses_writeDispCtrl (w) (v) (s : State) : (writeDispCtrl w v s).fuses = s.fuses := by
  simp [writeDispCtrl]
@[simp] theorem fuses_execRetrain (w) (enable) (s : State) :
    Completes (execRetrain w enable s) (fun t => t.fuses = s.fuses) := by
  simp [execRetrain]
@[simp] theorem fuses_writeFbNext (w) (off) (v) (s : State) : (writeFbNext w off v s).fuses = s.fuses := by
  simp [writeFbNext]
@[simp] theorem fuses_execFlipArm (w) (high) (s : State) :
    Completes (execFlipArm w high s) (fun t => t.fuses = s.fuses) := by
  simp [execFlipArm]
@[simp] theorem fuses_takeFlip (s : State) : (takeFlip s).fuses = s.fuses := by simp [takeFlip]
@[simp] theorem fuses_execVblankStart (s : State) : Completes (execVblankStart s) (fun t => t.fuses = s.fuses) := by
  simp [execVblankStart]
@[simp] theorem fuses_readLine (d) (line) (s : State) : fusesAfter (readLine d line s) = s.fuses := by simp [readLine]
@[simp] theorem fuses_blackOut (s : State) : (blackOut s).fuses = s.fuses := by simp [blackOut]
@[simp] theorem fuses_scanFault (reason) (level) (va) (s : State) :
    (scanFault reason level va s).fuses = s.fuses := by
  simp [scanFault]
@[simp] theorem fuses_putSent (l) (s : State) : (putSent l s).fuses = s.fuses := by simp [putSent]
@[simp] theorem fuses_execScanoutLine (late) (s : State) :
    Completes (execScanoutLine late s) (fun t => t.fuses = s.fuses) := by
  unfold execScanoutLine
  dsimp only
  (repeat' split) <;> simp
@[simp] theorem fuses_auxCommand (w) (v) (s : State) : (auxCommand w v s).fuses = s.fuses := by simp [auxCommand]
@[simp] theorem fuses_execAuxNativeRead (w) (addr) (len) (s : State) :
    Completes (execAuxNativeRead w addr len s) (fun t => t.fuses = s.fuses) := by
  simp [execAuxNativeRead]
@[simp] theorem fuses_execAuxI2cRead (w) (addr) (len) (s : State) :
    Completes (execAuxI2cRead w addr len s) (fun t => t.fuses = s.fuses) := by
  simp [execAuxI2cRead]
@[simp] theorem fuses_execAuxNativeWrite (w) (addr) (len) (s : State) :
    Completes (execAuxNativeWrite w addr len s) (fun t => t.fuses = s.fuses) := by
  simp [execAuxNativeWrite]
@[simp] theorem fuses_putAuxData (bs) (s : State) : (putAuxData bs s).fuses = s.fuses := by simp [putAuxData]
@[simp] theorem fuses_execAuxReply (reply) (s : State) :
    Completes (execAuxReply reply s) (fun t => t.fuses = s.fuses) := by
  unfold execAuxReply
  (repeat' split) <;> simp

/-! Machine/Evidence -/

@[simp] theorem fuses_evidRow (op) (uid) (s : State) : Completes (evidRow op uid s) (fun t => t.fuses = s.fuses) := by
  unfold evidRow
  (repeat' split) <;> simp
@[simp] theorem fuses_execQuery (uid) (s : State) : Completes (execQuery uid s) (fun t => t.fuses = s.fuses) := by
  simp [execQuery]
@[simp] theorem fuses_execCreate (uid) (s : State) : Completes (execCreate uid s) (fun t => t.fuses = s.fuses) := by
  simp [execCreate]
@[simp] theorem fuses_execAppendMem (uid) (s : State) :
    Completes (execAppendMem uid s) (fun t => t.fuses = s.fuses) := by
  simp [execAppendMem]
@[simp] theorem fuses_execAppendPkt (uid) (s : State) :
    Completes (execAppendPkt uid s) (fun t => t.fuses = s.fuses) := by
  simp [execAppendPkt]
@[simp] theorem fuses_execSealClip (uid) (s : State) :
    Completes (execSealClip uid s) (fun t => t.fuses = s.fuses) := by
  simp [execSealClip]
@[simp] theorem fuses_execEvidenceRead (uid) (s : State) :
    Completes (execEvidenceRead uid s) (fun t => t.fuses = s.fuses) := by
  simp [execEvidenceRead]
@[simp] theorem fuses_execDelete (uid) (s : State) : Completes (execDelete uid s) (fun t => t.fuses = s.fuses) := by
  simp [execDelete]
@[simp] theorem fuses_execVolumeCreate (uid) (s : State) :
    Completes (execVolumeCreate uid s) (fun t => t.fuses = s.fuses) := by
  simp [execVolumeCreate]
@[simp] theorem fuses_execVolumeDelete (uid) (s : State) :
    Completes (execVolumeDelete uid s) (fun t => t.fuses = s.fuses) := by
  simp [execVolumeDelete]
@[simp] theorem fuses_execFormat (uid) (s : State) : Completes (execFormat uid s) (fun t => t.fuses = s.fuses) := by
  simp [execFormat]
@[simp] theorem fuses_execAppendPktToNs (clip) (s : State) :
    Completes (execAppendPktToNs clip s) (fun t => t.fuses = s.fuses) := by
  unfold execAppendPktToNs
  split <;> simp
@[simp] theorem fuses_takeOp (ce) (p) (s : State) : fusesAfter (takeOp ce p s) = s.fuses := by simp [takeOp]
@[simp] theorem fuses_markLogged (u) (s : State) : (markLogged u s).fuses = s.fuses := by simp [markLogged]
@[simp] theorem fuses_dropUnit (u) (s : State) : (dropUnit u s).fuses = s.fuses := by simp [dropUnit]
@[simp] theorem fuses_ackUnit (u) (uid) (clip) (bytes) (s : State) :
    (ackUnit u uid clip bytes s).fuses = s.fuses := by
  simp [ackUnit]
@[simp] theorem fuses_failUnit (u) (p) (uid) (s : State) : (failUnit u p uid s).fuses = s.fuses := by
  unfold failUnit
  dsimp only
  (repeat' split) <;> simp
@[simp] theorem fuses_programmed (o) (ok) (s : State) : (programmed o ok s).fuses = s.fuses := by
  unfold programmed
  split <;> simp

@[simp] theorem fuses_execNandProgramDone (ce ok) (s : State) :
    Completes (execNandProgramDone ce ok s) (fun t => t.fuses = s.fuses) := by
  unfold execNandProgramDone
  rw [completes_next]
  have htake := fuses_takeOp ce isProgram s
  (repeat' split) <;> simp_all

@[simp] theorem fuses_countWord (b) (ce) (blk) (w) (s : State) : (countWord b ce blk w s).fuses = s.fuses := by
  unfold countWord
  split <;> simp
@[simp] theorem fuses_countRead (ce) (blk) (s : State) : (countRead ce blk s).fuses = s.fuses := by simp [countRead]
@[simp] theorem fuses_nextScrub (s : State) : (nextScrub s).fuses = s.fuses := by
  unfold nextScrub
  (repeat' split) <;> simp
@[simp] theorem fuses_readUnit (b) (u) (uid) (ws) (s : State) : (readUnit b u uid ws s).fuses = s.fuses := by
  unfold readUnit
  split <;> simp
@[simp] theorem fuses_moveUnit (b) (u) (s : State) : (moveUnit b u s).fuses = s.fuses := by
  unfold moveUnit
  split <;> simp
@[simp] theorem fuses_readDone (o) (words) (s : State) : (readDone o words s).fuses = s.fuses := by
  unfold readDone
  (repeat' split) <;> simp

@[simp] theorem fuses_execNandReadDone (ce words) (s : State) :
    Completes (execNandReadDone ce words s) (fun t => t.fuses = s.fuses) := by
  unfold execNandReadDone
  rw [completes_next]
  have htake := fuses_takeOp ce isRead s
  (repeat' split) <;> simp_all

@[simp] theorem fuses_erased (ce) (blk) (s : State) : (erased ce blk s).fuses = s.fuses := by simp [erased]
@[simp] theorem fuses_wiped (ce) (blk) (ok) (s : State) : (wiped ce blk ok s).fuses = s.fuses := by
  unfold wiped
  dsimp only
  split <;> simp

@[simp] theorem fuses_execNandEraseDone (ce ok) (s : State) :
    Completes (execNandEraseDone ce ok s) (fun t => t.fuses = s.fuses) := by
  unfold execNandEraseDone
  rw [completes_next]
  have htake := fuses_takeOp ce isErase s
  (repeat' split) <;> simp_all

@[simp] theorem fuses_upkeepBlock (k) (s : State) : (upkeepBlock k s).fuses = s.fuses := by
  unfold upkeepBlock
  split <;> simp
@[simp] theorem fuses_execUpkeep (s : State) : Completes (execUpkeep s) (fun t => t.fuses = s.fuses) := by
  unfold execUpkeep
  (repeat' split) <;> simp
@[simp] theorem fuses_execScrubDue (s : State) : Completes (execScrubDue s) (fun t => t.fuses = s.fuses) := by
  simp [execScrubDue]
@[simp] theorem fuses_execNandReplay (s : State) : Completes (execNandReplay s) (fun t => t.fuses = s.fuses) := by
  unfold execNandReplay
  split <;> simp

/-! Machine/Hose -/

@[simp] theorem fuses_takeTransfer (x) (d) (s : State) : (takeTransfer x d s).fuses = s.fuses := by
  simp [takeTransfer]
@[simp] theorem fuses_execHose (uid) (s : State) : Completes (execHose uid s) (fun t => t.fuses = s.fuses) := by
  unfold execHose
  (repeat' split) <;> simp
@[simp] theorem fuses_execSlabCredit (engine) (channel) (s : State) :
    Completes (execSlabCredit engine channel s) (fun t => t.fuses = s.fuses) := by
  unfold execSlabCredit
  split <;> simp
@[simp] theorem fuses_execReleaseAdd (w) (engine) (channel) (add) (s : State) :
    Completes (execReleaseAdd w engine channel add s) (fun t => t.fuses = s.fuses) := by
  simp [execReleaseAdd]
@[simp] theorem fuses_writeHoseCfg (w) (e) (c) (v) (s : State) : (writeHoseCfg w e c v s).fuses = s.fuses := by
  simp [writeHoseCfg]
@[simp] theorem fuses_execHoseCfgWrite (w) (engine) (channel) (value) (s : State) :
    Completes (execHoseCfgWrite w engine channel value s) (fun t => t.fuses = s.fuses) := by
  simp [execHoseCfgWrite]

/-! Machine/Fetch -/

@[simp] theorem fuses_advanceHead (r) (s : State) : (advanceHead r s).fuses = s.fuses := by
  unfold advanceHead
  dsimp only
  split <;> simp
@[simp] theorem fuses_startUrgent (uid) (slot) (wait) (door) (s : State) :
    (startUrgent uid slot wait door s).fuses = s.fuses := by
  simp [startUrgent]
@[simp] theorem fuses_takeHead (r) (b) (s : State) : (takeHead r b s).fuses = s.fuses := by
  unfold takeHead
  split <;> simp
@[simp] theorem fuses_giveDesc (uid) (d) (s : State) : (giveDesc uid d s).fuses = s.fuses := by
  unfold giveDesc
  dsimp only
  split <;> simp
@[simp] theorem fuses_readVirtual (e) (s : State) : (readVirtual e s).fuses = s.fuses := by
  unfold readVirtual
  dsimp only
  (repeat' split) <;> simp
@[simp] theorem fuses_issueRead (fn) (addr) (len) (p) (s : State) : (issueRead fn addr len p s).fuses = s.fuses := by
  simp [issueRead]
@[simp] theorem fuses_askDesc (e) (s : State) : (askDesc e s).fuses = s.fuses := by simp [askDesc]
@[simp] theorem fuses_dispatch (h) (cls) (s : State) : (dispatch h cls s).fuses = s.fuses := by simp [dispatch]
@[simp] theorem fuses_noteHeldHeads (s : State) : (noteHeldHeads s).fuses = s.fuses := by simp [noteHeldHeads]
@[simp] theorem fuses_dispatchOne (s : State) : (dispatchOne s).fuses = s.fuses := by
  unfold dispatchOne
  dsimp only
  (repeat' split) <;> simp
@[simp] theorem fuses_fetchHead (r) (s : State) : (fetchHead r s).fuses = s.fuses := by
  unfold fetchHead
  dsimp only
  (repeat' split) <;> simp
@[simp] theorem fuses_execEntryFetch (ring) (s : State) :
    Completes (execEntryFetch ring s) (fun t => t.fuses = s.fuses) := by
  simp [execEntryFetch]
@[simp] theorem fuses_noteSlowRead (r) (s : State) : (noteSlowRead r s).fuses = s.fuses := by
  fun_cases noteSlowRead <;> simp
@[simp] theorem fuses_completeLost (q) (word) (b) (s : State) : (completeLost q word b s).fuses = s.fuses := by
  simp [completeLost]
@[simp] theorem fuses_endRead (id) (data) (s : State) : (endRead id data s).fuses = s.fuses := by
  unfold endRead
  (repeat' split) <;> simp
@[simp] theorem fuses_execHostCompletion (id) (result) (s : State) :
    Completes (execHostCompletion id result s) (fun t => t.fuses = s.fuses) := by
  unfold execHostCompletion
  split <;> simp
@[simp] theorem fuses_execCompletionTimeout (id) (s : State) :
    Completes (execCompletionTimeout id s) (fun t => t.fuses = s.fuses) := by
  simp [execCompletionTimeout]
@[simp] theorem fuses_execNop (uid) (s : State) : Completes (execNop uid s) (fun t => t.fuses = s.fuses) := by
  unfold execNop
  split <;> simp
@[simp] theorem fuses_retryStream (st) (s : State) : (retryStream st s).fuses = s.fuses := by
  unfold retryStream
  dsimp only
  (repeat' split) <;> simp
@[simp] theorem fuses_answerRecord (fn) (abort) (r) (s : State) :
    fusesAfter (answerRecord fn abort r s) = s.fuses := by
  simp [answerRecord]
@[simp] theorem fuses_answerRecords (fn) (mask) (x2) (x3) (x4 : State) :
    fusesAfter (answerRecords fn mask x2 x3 x4) = x4.fuses := by
  fun_induction answerRecords <;> simp +zetaDelta [*]
@[simp] theorem fuses_dropBatch (b) (s : State) : (dropBatch b s).fuses = s.fuses := by simp [dropBatch]
@[simp] theorem fuses_resume (e) (s : State) : (resume e s).fuses = s.fuses := by
  unfold resume
  dsimp only
  split <;> simp
@[simp] theorem fuses_execResume (uid) (s : State) : Completes (execResume uid s) (fun t => t.fuses = s.fuses) := by
  unfold execResume
  split <;> simp

/-! Machine/Plan -/

@[simp] theorem fuses_refusePlan (status) (detail) (s : State) : (refusePlan status detail s).fuses = s.fuses := by
  simp [refusePlan]
@[simp] theorem fuses_planCommand (w) (key) (act) (s : State) (hact : ∀ t, (act t).fuses = t.fuses) :
    (planCommand w key act s).fuses = s.fuses := by
  simp [planCommand, hact]
@[simp] theorem fuses_takeLease (l) (s : State) : (takeLease l s).fuses = s.fuses := by simp [takeLease]
@[simp] theorem fuses_dropLease (l) (s : State) : (dropLease l s).fuses = s.fuses := by simp [dropLease]
@[simp] theorem fuses_endPlan (status) (detail) (s : State) : (endPlan status detail s).fuses = s.fuses := by
  simp [endPlan]
@[simp] theorem fuses_startCopy (op) (w) (drain) (s : State) : (startCopy op w drain s).fuses = s.fuses := by
  simp [startCopy]
@[simp] theorem fuses_execLoad (w) (key) (drain) (s : State) :
    Completes (execLoad w key drain s) (fun t => t.fuses = s.fuses) := by
  simp [execLoad]
@[simp] theorem fuses_execGraft (w) (key) (drain) (s : State) :
    Completes (execGraft w key drain s) (fun t => t.fuses = s.fuses) := by
  simp [execGraft]
@[simp] theorem fuses_execPlanCopyDone (s : State) : Completes (execPlanCopyDone s) (fun t => t.fuses = s.fuses) := by
  unfold execPlanCopyDone
  dsimp only
  (repeat' split) <;> simp
@[simp] theorem fuses_writeThrough (sl) (s : State) : (writeThrough sl s).fuses = s.fuses := by simp [writeThrough]
@[simp] theorem fuses_beginDrain (j) (paused) (slices) (s : State) :
    (beginDrain j paused slices s).fuses = s.fuses := by
  simp [beginDrain]
@[simp] theorem fuses_replanDrain (j) (s : State) : (replanDrain j s).fuses = s.fuses := by simp [replanDrain]
@[simp] theorem fuses_execPlanCheckDone (s : State) :
    Completes (execPlanCheckDone s) (fun t => t.fuses = s.fuses) := by
  unfold execPlanCheckDone
  dsimp only
  (repeat' split) <;> simp
@[simp] theorem fuses_startFallback (w) (drain) (s : State) : (startFallback w drain s).fuses = s.fuses := by
  simp [startFallback]
@[simp] theorem fuses_execFallback (w) (key) (drain) (s : State) :
    Completes (execFallback w key drain s) (fun t => t.fuses = s.fuses) := by
  simp [execFallback]
@[simp] theorem fuses_execPlanDrainTimeout (s : State) :
    Completes (execPlanDrainTimeout s) (fun t => t.fuses = s.fuses) := by
  unfold execPlanDrainTimeout
  split <;> simp
@[simp] theorem fuses_replanClose (next) (n) (s : State) : (replanClose next n s).fuses = s.fuses := by
  simp [replanClose]
@[simp] theorem fuses_execPlanDrainDone (s : State) :
    Completes (execPlanDrainDone s) (fun t => t.fuses = s.fuses) := by
  unfold execPlanDrainDone
  split <;> simp
@[simp] theorem fuses_execPlanCommitDone (s : State) :
    Completes (execPlanCommitDone s) (fun t => t.fuses = s.fuses) := by
  unfold execPlanCommitDone
  split <;> simp
@[simp] theorem fuses_abortPlan (s : State) : (abortPlan s).fuses = s.fuses := by simp [abortPlan]
@[simp] theorem fuses_abortCommand (w) (key) (s : State) : (abortCommand w key s).fuses = s.fuses := by
  simp [abortCommand]
@[simp] theorem fuses_execAbort (w) (key) (s : State) :
    Completes (execAbort w key s) (fun t => t.fuses = s.fuses) := by
  simp [execAbort]
@[simp] theorem fuses_startStore (w) (s : State) : (startStore w s).fuses = s.fuses := by simp [startStore]
@[simp] theorem fuses_execStore (w) (key) (s : State) :
    Completes (execStore w key s) (fun t => t.fuses = s.fuses) := by
  simp [execStore]
@[simp] theorem fuses_execStoreDone (readBackOk) (s : State) :
    Completes (execStoreDone readBackOk s) (fun t => t.fuses = s.fuses) := by
  unfold execStoreDone
  split <;> simp

/-! Machine/Firmware -/

@[simp] theorem fuses_execWatchdogRestart (proc) (s : State) :
    Completes (execWatchdogRestart proc s) (fun t => t.fuses = s.fuses) := by
  simp [execWatchdogRestart]
@[simp] theorem fuses_processorFails (p) (isException) (s : State) :
    (processorFails p isException s).fuses = s.fuses := by
  simp [processorFails]
@[simp] theorem fuses_execWatchdogExpiry (proc) (s : State) :
    Completes (execWatchdogExpiry proc s) (fun t => t.fuses = s.fuses) := by
  simp [execWatchdogExpiry]
@[simp] theorem fuses_execFirmwareException (proc) (s : State) :
    Completes (execFirmwareException proc s) (fun t => t.fuses = s.fuses) := by
  simp [execFirmwareException]
@[simp] theorem fuses_execAlertNPulseEnd (s : State) :
    Completes (execAlertNPulseEnd s) (fun t => t.fuses = s.fuses) := by
  simp [execAlertNPulseEnd]
@[simp] theorem fuses_reloadFails (p) (detail) (s : State) : (reloadFails p detail s).fuses = s.fuses := by
  simp [reloadFails]
@[simp] theorem fuses_execRomPortFlashTimeout (proc) (s : State) :
    Completes (execRomPortFlashTimeout proc s) (fun t => t.fuses = s.fuses) := by
  simp [execRomPortFlashTimeout]

@[simp] theorem fuses_startHotSwap (w p) (s : State) : (startHotSwap w p s).fuses = s.fuses := by
  unfold startHotSwap
  dsimp only
  split
  · rw [fuses_finishFw, fuses_snd, fuses_readSource]
  · split
    · rw [fuses_finishFw, fuses_snd, fuses_readSource]
    · rw [fuses_puts, fuses_reasonFor, fuses_mk, boot_fuses, fuses_snd, fuses_readSource]

@[simp] theorem fuses_fwCommand (w) (key) (p) (act) (s : State) (hact : ∀ t, (act t).fuses = t.fuses) :
    (fwCommand w key p act s).fuses = s.fuses := by
  simp [fwCommand, hact]
@[simp] theorem fuses_execHotSwap (w) (key) (proc) (s : State) :
    Completes (execHotSwap w key proc s) (fun t => t.fuses = s.fuses) := by
  simp [execHotSwap]
@[simp] theorem fuses_execHotSwapSettleTimeout (s : State) :
    Completes (execHotSwapSettleTimeout s) (fun t => t.fuses = s.fuses) := by
  simp [execHotSwapSettleTimeout]
@[simp] theorem fuses_startReload (p) (s : State) : (startReload p s).fuses = s.fuses := by simp [startReload]
@[simp] theorem fuses_execFirmwareReload (w) (key) (proc) (s : State) :
    Completes (execFirmwareReload w key proc s) (fun t => t.fuses = s.fuses) := by
  simp [execFirmwareReload]
@[simp] theorem fuses_execLeaseRequest (lease) (island) (epoch) (recovery) (s : State) :
    Completes (execLeaseRequest lease island epoch recovery s) (fun t => t.fuses = s.fuses) := by
  simp [execLeaseRequest]
@[simp] theorem fuses_execLeaseRenew (lease) (island) (epoch) (s : State) :
    Completes (execLeaseRenew lease island epoch s) (fun t => t.fuses = s.fuses) := by
  simp [execLeaseRenew]
@[simp] theorem fuses_execLeaseRelease (lease) (island) (epoch) (s : State) :
    Completes (execLeaseRelease lease island epoch s) (fun t => t.fuses = s.fuses) := by
  simp [execLeaseRelease]
@[simp] theorem fuses_execNandSafePointDone (s : State) :
    Completes (execNandSafePointDone s) (fun t => t.fuses = s.fuses) := by
  simp [execNandSafePointDone]
@[simp] theorem fuses_execLeaseRevocation (lease) (s : State) :
    Completes (execLeaseRevocation lease s) (fun t => t.fuses = s.fuses) := by
  simp [execLeaseRevocation]
@[simp] theorem fuses_revokeCommand (l) (s : State) : (revokeCommand l s).fuses = s.fuses := by simp [revokeCommand]
@[simp] theorem fuses_execLeaseTimerExpiry (lease) (s : State) :
    Completes (execLeaseTimerExpiry lease s) (fun t => t.fuses = s.fuses) := by
  simp [execLeaseTimerExpiry]
@[simp] theorem fuses_finishKeymb (result) (s : State) : (finishKeymb result s).fuses = s.fuses := by
  simp [finishKeymb]
@[simp] theorem fuses_keymbCommand (w) (key) (op) (slot) (act) (s : State) (hact : ∀ t, (act t).fuses = t.fuses) :
    (keymbCommand w key op slot act s).fuses = s.fuses := by
  simp [keymbCommand, hact]
@[simp] theorem fuses_flushKeys (affected) (s : State) : (flushKeys affected s).fuses = s.fuses := by simp [flushKeys]
@[simp] theorem fuses_commitKeys (affected) (new) (s : State) : (commitKeys affected new s).fuses = s.fuses := by
  simp [commitKeys]
@[simp] theorem fuses_loadKey (w) (slot) (s : State) : (loadKey w slot s).fuses = s.fuses := by
  unfold loadKey
  dsimp only
  split <;> simp
@[simp] theorem fuses_execKeymbLoad (w) (key) (slot) (s : State) :
    Completes (execKeymbLoad w key slot s) (fun t => t.fuses = s.fuses) := by
  simp [execKeymbLoad]
@[simp] theorem fuses_execKeymbClear (w) (key) (slot) (s : State) :
    Completes (execKeymbClear w key slot s) (fun t => t.fuses = s.fuses) := by
  simp [execKeymbClear]
@[simp] theorem fuses_execKeymbClearAll (w) (key) (s : State) :
    Completes (execKeymbClearAll w key s) (fun t => t.fuses = s.fuses) := by
  simp [execKeymbClearAll]

/-! Machine/HostCmd -/

@[simp] theorem fuses_bar2Access (f) (t) (act) (s : State) (hact : ∀ t, (act t).fuses = t.fuses) :
    (bar2Access f t act s).fuses = s.fuses := by
  simp [bar2Access, hact]
@[simp] theorem fuses_doorbell (f) (cq) (r) (v) (shade) (s : State) :
    (doorbell f cq r v shade s).fuses = s.fuses := by
  simp [doorbell]
@[simp] theorem fuses_execSqDoorbell (fn) (ring) (tail) (s : State) :
    Completes (execSqDoorbell fn ring tail s) (fun t => t.fuses = s.fuses) := by
  simp [execSqDoorbell]
@[simp] theorem fuses_execCqDoorbell (fn) (ring) (head) (s : State) :
    Completes (execCqDoorbell fn ring head s) (fun t => t.fuses = s.fuses) := by
  simp [execCqDoorbell]
@[simp] theorem fuses_sendHeld (f) (s : State) : (sendHeld f s).fuses = s.fuses := by simp [sendHeld]
@[simp] theorem fuses_writeMsix (f) (v) (addr) (data) (mask) (s : State) :
    (writeMsix f v addr data mask s).fuses = s.fuses := by
  simp [writeMsix]
@[simp] theorem fuses_execMsixUnmask (fn) (vector) (addr) (data) (mask) (s : State) :
    Completes (execMsixUnmask fn vector addr data mask s) (fun t => t.fuses = s.fuses) := by
  simp [execMsixUnmask]
@[simp] theorem fuses_hostError (code) (s : State) : (hostError code s).fuses = s.fuses := by simp [hostError]
@[simp] theorem fuses_enableRing (cq) (r) (s : State) : (enableRing cq r s).fuses = s.fuses := by
  fun_cases enableRing <;> simp
@[simp] theorem fuses_dropUndispatched (r) (s : State) : (dropUndispatched r s).fuses = s.fuses := by
  simp [dropUndispatched]
@[simp] theorem fuses_dropWaiting (r) (s : State) : (dropWaiting r s).fuses = s.fuses := by simp [dropWaiting]
@[simp] theorem fuses_disableRing (cq) (r) (s : State) : (disableRing cq r s).fuses = s.fuses := by simp [disableRing]
@[simp] theorem fuses_writeRingCtrl (cq) (r) (v) (s : State) : (writeRingCtrl cq r v s).fuses = s.fuses := by
  simp [writeRingCtrl]
@[simp] theorem fuses_execRingEnable (fn) (cq) (ring) (s : State) :
    Completes (execRingEnable fn cq ring s) (fun t => t.fuses = s.fuses) := by
  simp [execRingEnable]
@[simp] theorem fuses_execRingDisable (fn) (cq) (ring) (s : State) :
    Completes (execRingDisable fn cq ring s) (fun t => t.fuses = s.fuses) := by
  simp [execRingDisable]
@[simp] theorem fuses_execCqCoalesceTimer (ring) (s : State) :
    Completes (execCqCoalesceTimer ring s) (fun t => t.fuses = s.fuses) := by
  simp [execCqCoalesceTimer]
@[simp] theorem fuses_beat (s : State) : (beat s).fuses = s.fuses := by simp [beat]
@[simp] theorem fuses_execHeartbeatBeat (fn) (s : State) :
    Completes (execHeartbeatBeat fn s) (fun t => t.fuses = s.fuses) := by
  simp [execHeartbeatBeat]
@[simp] theorem fuses_execHeartbeatLapse (s : State) :
    Completes (execHeartbeatLapse s) (fun t => t.fuses = s.fuses) := by
  simp [execHeartbeatLapse]
@[simp] theorem fuses_writeToken (pf0) (key) (op) (s : State) : (writeToken pf0 key op s).fuses = s.fuses := by
  simp [writeToken]
@[simp] theorem fuses_tokenAccess (w) (key) (op) (s : State) : (tokenAccess w key op s).fuses = s.fuses := by
  unfold tokenAccess
  split <;> simp
@[simp] theorem fuses_execGrant (w) (key) (s : State) :
    Completes (execGrant w key s) (fun t => t.fuses = s.fuses) := by
  simp [execGrant]
@[simp] theorem fuses_execReclaim (w) (key) (s : State) :
    Completes (execReclaim w key s) (fun t => t.fuses = s.fuses) := by
  simp [execReclaim]
@[simp] theorem fuses_pf0Access (w) (off) (value) (act) (s : State) (hact : ∀ t, (act t).fuses = t.fuses) :
    (pf0Access w off value act s).fuses = s.fuses := by
  unfold pf0Access
  dsimp only
  split <;> simp [*]
@[simp] theorem fuses_writeFn (w) (f) (base) (count) (s : State) : (writeFn w f base count s).fuses = s.fuses := by
  simp [writeFn]
@[simp] theorem fuses_execFnWrite (w) (fn) (base) (count) (s : State) :
    Completes (execFnWrite w fn base count s) (fun t => t.fuses = s.fuses) := by
  simp [execFnWrite]
@[simp] theorem fuses_writeOwner (w) (r) (sq) (cq) (s : State) : (writeOwner w r sq cq s).fuses = s.fuses := by
  simp [writeOwner]
@[simp] theorem fuses_execRingOwnerWrite (w) (ring) (sqFn) (cqFn) (s : State) :
    Completes (execRingOwnerWrite w ring sqFn cqFn s) (fun t => t.fuses = s.fuses) := by
  simp [execRingOwnerWrite]
@[simp] theorem fuses_coldBlock (lo) (hi) (kept) (s : State) : (coldBlock lo hi kept s).fuses = s.fuses := by
  simp [coldBlock]
@[simp] theorem fuses_cutFunction (f) (s : State) : (cutFunction f s).fuses = s.fuses := by simp [cutFunction]
@[simp] theorem fuses_coldRings (f) (s : State) : (coldRings f s).fuses = s.fuses := by simp [coldRings]
@[simp] theorem fuses_coldMmu (f) (s : State) : (coldMmu f s).fuses = s.fuses := by simp [coldMmu]
@[simp] theorem fuses_resetOne (f) (s : State) : (resetOne f s).fuses = s.fuses := by simp [resetOne]
@[simp] theorem fuses_clearVfs (s : State) : (clearVfs s).fuses = s.fuses := by simp [clearVfs]
@[simp] theorem fuses_resetFunction (f) (s : State) : (resetFunction f s).fuses = s.fuses := by simp [resetFunction]
@[simp] theorem fuses_execFunctionReset (fn) (cause) (s : State) :
    Completes (execFunctionReset fn cause s) (fun t => t.fuses = s.fuses) := by
  unfold execFunctionReset
  (repeat' split) <;> simp
@[simp] theorem fuses_execD3hotEntry (fn) (s : State) :
    Completes (execD3hotEntry fn s) (fun t => t.fuses = s.fuses) := by
  simp [execD3hotEntry]
@[simp] theorem fuses_setBusMaster (f) (v) (s : State) : (setBusMaster f v s).fuses = s.fuses := by
  simp [setBusMaster]
@[simp] theorem fuses_execBusMasterEnable (fn) (value) (s : State) :
    Completes (execBusMasterEnable fn value s) (fun t => t.fuses = s.fuses) := by
  simp [execBusMasterEnable]
@[simp] theorem fuses_linkDown (s : State) : (linkDown s).fuses = s.fuses := by simp [linkDown]
@[simp] theorem fuses_execPcieLinkDown (s : State) : Completes (execPcieLinkDown s) (fun t => t.fuses = s.fuses) := by
  simp [execPcieLinkDown]
@[simp] theorem fuses_execPcieLinkUp (speed) (width) (s : State) :
    Completes (execPcieLinkUp speed width s) (fun t => t.fuses = s.fuses) := by
  simp [execPcieLinkUp]
@[simp] theorem fuses_writeVfEnable (on) (s : State) : (writeVfEnable on s).fuses = s.fuses := by simp [writeVfEnable]
@[simp] theorem fuses_configWrite (f) (i) (v) (s : State) : (configWrite f i v s).fuses = s.fuses := by
  fun_cases configWrite <;> simp
@[simp] theorem fuses_serveConfig (f) (i) (v) (s : State) : (serveConfig f i v s).fuses = s.fuses := by
  unfold serveConfig
  split <;> simp
@[simp] theorem fuses_execConfigurationRequest (fn) (item) (value) (s : State) :
    Completes (execConfigurationRequest fn item value s) (fun t => t.fuses = s.fuses) := by
  simp [execConfigurationRequest]

@[simp] theorem fuses_serveBar4 (off len data) (s : State) : (serveBar4 off len data s).fuses = s.fuses := by
  unfold serveBar4
  dsimp only
  cases data with
  | some bs =>
    dsimp only
    split
    · simp
    · generalize hr : physWrite _ _ _ _ = r
      have hkeep : fusesAfter r = s.fuses := by rw [← hr, fuses_physWrite]
      cases r.1 with
      | none => simp [hkeep]
      | some e =>
        simp only [Option.elim]
        split <;> simp [hkeep]
  | none =>
    dsimp only
    split
    · simp
    · split
      · simp
      · split <;> simp

@[simp] theorem fuses_execBar4Access (off) (len) (data) (s : State) :
    Completes (execBar4Access off len data s) (fun t => t.fuses = s.fuses) := by
  simp [execBar4Access]

/-! Machine/Switch -/

@[simp] theorem fuses_countPort (p) (j) (s : State) : (countPort p j s).fuses = s.fuses := by simp [countPort]
@[simp] theorem fuses_enqueue (dest) (src) (ns) (f) (s : State) : (enqueue dest src ns f s).fuses = s.fuses := by
  simp [enqueue]
@[simp] theorem fuses_learn (vid) (mac) (port) (s : State) : (learn vid mac port s).fuses = s.fuses := by simp [learn]
@[simp] theorem fuses_bridge (vlan) (src) (ns) (flood) (f) (s : State) :
    (bridge vlan src ns flood f s).fuses = s.fuses := by
  unfold bridge
  split <;> simp
@[simp] theorem fuses_toIntake (i) (rtcp) (src) (ns) (f) (u) (s : State) :
    (toIntake i rtcp src ns f u s).fuses = s.fuses := by
  simp [toIntake]
@[simp] theorem fuses_forward (vlan) (p) (src) (ns) (f) (s : State) :
    (forward vlan p src ns f s).fuses = s.fuses := by
  unfold forward
  dsimp only
  split <;> simp
@[simp] theorem fuses_receive (p) (sub) (frame) (s : State) : (receive p sub frame s).fuses = s.fuses := by
  unfold receive
  dsimp only
  (repeat' split) <;> simp
@[simp] theorem fuses_drainShade (s : State) : (drainShade s).fuses = s.fuses := by simp [drainShade]
@[simp] theorem fuses_execFrameReceive (port) (sub) (frame) (s : State) :
    Completes (execFrameReceive port sub frame s) (fun t => t.fuses = s.fuses) := by
  simp [execFrameReceive]
@[simp] theorem fuses_putCredit (d) (q) (v) (s : State) : (putCredit d q v s).fuses = s.fuses := by simp [putCredit]
@[simp] theorem fuses_putDesc (addr) (len) (flags) (time) (s : State) :
    (putDesc addr len flags time s).fuses = s.fuses := by
  simp [putDesc]

@[simp] theorem fuses_fillBuffers (flags time l bs) (s : State) : (fillBuffers flags time l bs s).fuses = s.fuses := by
  induction l generalizing bs s with
  | nil => simp [fillBuffers]
  | cons b rest ih => simp [fillBuffers, ih]

@[simp] theorem fuses_vnicReceive (q) (tagged) (s : State) : (vnicReceive q tagged s).fuses = s.fuses := by
  simp [vnicReceive]
@[simp] theorem fuses_sendFrame (q) (s : State) : (sendFrame q s).fuses = s.fuses := by simp [sendFrame]
@[simp] theorem fuses_execFrameTransmit (dest) (s0 : State) :
    Completes (execFrameTransmit dest s0) (fun t => t.fuses = s0.fuses) := by
  unfold execFrameTransmit
  dsimp only
  (repeat' split) <;> simp
@[simp] theorem fuses_execMacAgeOut (vid) (mac) (s : State) :
    Completes (execMacAgeOut vid mac s) (fun t => t.fuses = s.fuses) := by
  simp [execMacAgeOut]
@[simp] theorem fuses_execPortLinkChange (port) (sub) (up) (s : State) :
    Completes (execPortLinkChange port sub up s) (fun t => t.fuses = s.fuses) := by
  simp [execPortLinkChange]
@[simp] theorem fuses_vnicTail (w) (tail) (act) (s : State) (hact : ∀ t, (act t).fuses = t.fuses) :
    (vnicTail w tail act s).fuses = s.fuses := by
  simp [vnicTail, hact]
@[simp] theorem fuses_postBuffers (w) (tail) (s : State) : (postBuffers w tail s).fuses = s.fuses := by
  simp [postBuffers]
@[simp] theorem fuses_execVnicRxTail (w) (tail) (s : State) :
    Completes (execVnicRxTail w tail s) (fun t => t.fuses = s.fuses) := by
  simp [execVnicRxTail]
@[simp] theorem fuses_fromHost (data) (s : State) : (fromHost data s).fuses = s.fuses := by
  unfold fromHost
  dsimp only
  split <;> simp
@[simp] theorem fuses_drainTx (base) (tail) (x2) (x3) (x4) (x5 : State) :
    (drainTx base tail x2 x3 x4 x5).fuses = x5.fuses := by
  fun_induction drainTx <;> simp +zetaDelta [*]
@[simp] theorem fuses_sendBuffers (w) (tail) (s : State) : (sendBuffers w tail s).fuses = s.fuses := by
  simp [sendBuffers]
@[simp] theorem fuses_execVnicTxTail (w) (tail) (s : State) :
    Completes (execVnicTxTail w tail s) (fun t => t.fuses = s.fuses) := by
  simp [execVnicTxTail]
@[simp] theorem fuses_writeVnicCfg (f) (v) (s : State) : (writeVnicCfg f v s).fuses = s.fuses := by
  simp [writeVnicCfg]
@[simp] theorem fuses_takeSync (offset) (s : State) : (takeSync offset s).fuses = s.fuses := by simp [takeSync]
@[simp] theorem fuses_execPtpMessage (msg) (s : State) :
    Completes (execPtpMessage msg s) (fun t => t.fuses = s.fuses) := by
  unfold execPtpMessage
  (repeat' split) <;> simp
@[simp] theorem fuses_execSyncTimeout (s : State) : Completes (execSyncTimeout s) (fun t => t.fuses = s.fuses) := by
  simp [execSyncTimeout]

/-! Machine/Video -/

@[simp] theorem fuses_writeOutputs (q) (allot) (x2) (x3 : State) :
    fusesAfter (writeOutputs q allot x2 x3) = x3.fuses := by
  fun_induction writeOutputs <;> simp +zetaDelta [*]
@[simp] theorem fuses_placeFrame (i) (e) (p) (s : State) : fusesAfter (placeFrame i e p s) = s.fuses := by
  unfold placeFrame
  split <;> simp
@[simp] theorem fuses_writeFrame (i) (e) (a) (p) (placed) (s : State) :
    (writeFrame i e a p placed s).fuses = s.fuses := by
  unfold writeFrame
  dsimp only
  (repeat' split) <;> simp
@[simp] theorem fuses_frameDone (i) (e) (a) (p) (s : State) : (frameDone i e a p s).fuses = s.fuses := by
  simp [frameDone]
@[simp] theorem fuses_activateStream (i) (info) (s : State) : (activateStream i info s).fuses = s.fuses := by
  simp [activateStream]
@[simp] theorem fuses_touchDpb (i) (e) (s : State) : fusesAfter (touchDpb i e s) = s.fuses := by
  unfold touchDpb
  dsimp only
  split <;> simp
@[simp] theorem fuses_refreshLoad (e) (s : State) : (refreshLoad e s).fuses = s.fuses := by simp [refreshLoad]
@[simp] theorem fuses_countLoad (e) (w) (h) (s : State) : (countLoad e w h s).fuses = s.fuses := by simp [countLoad]
@[simp] theorem fuses_deliverFrame (i) (e) (a) (p) (s : State) : (deliverFrame i e a p s).fuses = s.fuses := by
  unfold deliverFrame
  dsimp only
  (repeat' split) <;> simp
@[simp] theorem fuses_corruptAu (i) (e) (a) (p) (s : State) : (corruptAu i e a p s).fuses = s.fuses := by
  simp [corruptAu]

@[simp] theorem fuses_applyDecoded (i e a r) (s : State) : (applyDecoded i e a r s).fuses = s.fuses := by
  cases r with
  | frame info p => cases info <;> simp [applyDecoded]
  | corrupt info p => cases info <;> simp [applyDecoded]
  | noSlice info => cases info <;> simp [applyDecoded]

@[simp] theorem fuses_decodedAu (e) (r) (s : State) : (decodedAu e r s).fuses = s.fuses := by
  unfold decodedAu
  split <;> simp

/-! Machine/Intake -/

@[simp] theorem fuses_putSlotCfg (i) (v) (s : State) : (putSlotCfg i v s).fuses = s.fuses := by simp [putSlotCfg]
@[simp] theorem fuses_startSlot (i) (s : State) : (startSlot i s).fuses = s.fuses := by simp [startSlot]
@[simp] theorem fuses_stopSlot (i) (s : State) : (stopSlot i s).fuses = s.fuses := by simp [stopSlot]
@[simp] theorem fuses_writeSlotCfg (i) (v) (s : State) : (writeSlotCfg i v s).fuses = s.fuses := by
  simp [writeSlotCfg]
@[simp] theorem fuses_execSlotStart (w) (slot) (cfg) (s : State) :
    Completes (execSlotStart w slot cfg s) (fun t => t.fuses = s.fuses) := by
  simp [execSlotStart]
@[simp] theorem fuses_execSlotStop (w) (slot) (cfg) (s : State) :
    Completes (execSlotStop w slot cfg s) (fun t => t.fuses = s.fuses) := by
  simp [execSlotStop]
@[simp] theorem fuses_execSlotStopDone (slot) (s : State) :
    Completes (execSlotStopDone slot s) (fun t => t.fuses = s.fuses) := by
  simp [execSlotStopDone]
@[simp] theorem fuses_takeDatagram (rtcp) (s : State) : fusesAfter (takeDatagram rtcp s) = s.fuses := by
  simp [takeDatagram]
@[simp] theorem fuses_putSrtp (i) (c) (s : State) : (putSrtp i c s).fuses = s.fuses := by simp [putSrtp]
@[simp] theorem fuses_decryptRtp (d) (s : State) : fusesAfter (decryptRtp d s) = s.fuses := by
  fun_cases decryptRtp <;> simp
@[simp] theorem fuses_acceptRtp (i) (d) (p) (s : State) : (acceptRtp i d p s).fuses = s.fuses := by simp [acceptRtp]

@[simp] theorem fuses_execRtpPacket (s : State) : Completes (execRtpPacket s) (fun t => t.fuses = s.fuses) := by
  unfold execRtpPacket
  rw [completes_next]
  have htake := fuses_takeDatagram false s
  split
  · rfl
  · split
    · rfl
    · next d s1 hd =>
      rw [hd, fusesAfter_mk] at htake
      have hopen := fuses_decryptRtp d s1
      (repeat' split) <;> simp_all

@[simp] theorem fuses_takeRtcp (d) (p) (s : State) : (takeRtcp d p s).fuses = s.fuses := by
  unfold takeRtcp
  split <;> simp

@[simp] theorem fuses_execRtcpPacket (s : State) : Completes (execRtcpPacket s) (fun t => t.fuses = s.fuses) := by
  unfold execRtcpPacket
  rw [completes_next]
  have htake := fuses_takeDatagram true s
  split
  · rfl
  · split
    · rfl
    · next d s1 hd =>
      rw [hd, fusesAfter_mk] at htake
      (repeat' split) <;> simp [htake]

@[simp] theorem fuses_execReorderTimeout (slot) (s : State) :
    Completes (execReorderTimeout slot s) (fun t => t.fuses = s.fuses) := by
  simp [execReorderTimeout]
@[simp] theorem fuses_execSsrcSwitch (slot) (s : State) :
    Completes (execSsrcSwitch slot s) (fun t => t.fuses = s.fuses) := by
  unfold execSsrcSwitch
  dsimp only
  (repeat' split) <;> simp
@[simp] theorem fuses_commitKey (i) (key7) (s : State) : (commitKey i key7 s).fuses = s.fuses := by simp [commitKey]
@[simp] theorem fuses_execSrtpKeyCommit (w) (slot) (key7) (s : State) :
    Completes (execSrtpKeyCommit w slot key7 s) (fun t => t.fuses = s.fuses) := by
  simp [execSrtpKeyCommit]
@[simp] theorem fuses_writeFeedTail (i) (tail) (s : State) : (writeFeedTail i tail s).fuses = s.fuses := by
  simp [writeFeedTail]
@[simp] theorem fuses_execFeedDoorbell (w) (slot) (tail) (s : State) :
    Completes (execFeedDoorbell w slot tail s) (fun t => t.fuses = s.fuses) := by
  simp [execFeedDoorbell]
@[simp] theorem fuses_feedFails (i) (e) (s : State) : (feedFails i e s).fuses = s.fuses := by
  unfold feedFails
  dsimp only
  (repeat' split) <;> simp
@[simp] theorem fuses_takeFeed (i) (param) (ts) (bs) (s : State) : (takeFeed i param ts bs s).fuses = s.fuses := by
  simp [takeFeed]
@[simp] theorem fuses_copyFeed (i) (s : State) : (copyFeed i s).fuses = s.fuses := by
  unfold copyFeed
  dsimp only
  (repeat' split) <;> simp
@[simp] theorem fuses_execFeedCopyDone (slot) (s : State) :
    Completes (execFeedCopyDone slot s) (fun t => t.fuses = s.fuses) := by
  simp [execFeedCopyDone]
@[simp] theorem fuses_execAuDecoded (engine) (result) (s : State) :
    Completes (execAuDecoded engine result s) (fun t => t.fuses = s.fuses) := by
  simp [execAuDecoded]
@[simp] theorem fuses_releaseFrames (i) (add) (s : State) : (releaseFrames i add s).fuses = s.fuses := by
  simp [releaseFrames]
@[simp] theorem fuses_execFrameReleaseAdd (w) (slot) (add) (s : State) :
    Completes (execFrameReleaseAdd w slot add s) (fun t => t.fuses = s.fuses) := by
  simp [execFrameReleaseAdd]
@[simp] theorem fuses_startGroup (g) (s : State) : (startGroup g s).fuses = s.fuses := by simp [startGroup]
@[simp] theorem fuses_stopGroup (g) (s : State) : (stopGroup g s).fuses = s.fuses := by simp [stopGroup]
@[simp] theorem fuses_writeGroupCfg (g) (v) (s : State) : (writeGroupCfg g v s).fuses = s.fuses := by
  simp [writeGroupCfg]
@[simp] theorem fuses_execGroupEnable (w) (group) (cfg) (s : State) :
    Completes (execGroupEnable w group cfg s) (fun t => t.fuses = s.fuses) := by
  simp [execGroupEnable]

/-! Machine/Memory -/

@[simp] theorem fuses_execShedAccess (src) (channel) (pa) (keySel) (noAlloc) (len) (data) (s : State) :
    Completes (execShedAccess src channel pa keySel noAlloc len data s) (fun t => t.fuses = s.fuses) := by
  unfold execShedAccess
  dsimp only
  (repeat' split) <;> simp
@[simp] theorem fuses_poisonUnit (pa) (s : State) : (poisonUnit pa s).fuses = s.fuses := by simp [poisonUnit]
@[simp] theorem fuses_eccFinds (pa) (corrected) (uncorrectable) (s : State) :
    (eccFinds pa corrected uncorrectable s).fuses = s.fuses := by
  simp [eccFinds]
@[simp] theorem fuses_execShedFillDone (pa) (corrected) (uncorrectable) (s : State) :
    Completes (execShedFillDone pa corrected uncorrectable s) (fun t => t.fuses = s.fuses) := by
  simp [execShedFillDone]
@[simp] theorem fuses_execEccScrub (corrected) (uncorrectable) (s : State) :
    Completes (execEccScrub corrected uncorrectable s) (fun t => t.fuses = s.fuses) := by
  simp [execEccScrub]
@[simp] theorem fuses_execQosWindow (channel) (s : State) :
    Completes (execQosWindow channel s) (fun t => t.fuses = s.fuses) := by
  simp [execQosWindow]
@[simp] theorem fuses_execRefreshRateChange (channel) (doubled) (s : State) :
    Completes (execRefreshRateChange channel doubled s) (fun t => t.fuses = s.fuses) := by
  simp [execRefreshRateChange]
@[simp] theorem fuses_shedDone (s : State) : (shedDone s).fuses = s.fuses := by simp [shedDone]
@[simp] theorem fuses_onEntry (sl) (k) (act) (s : State) (hact : ∀ t, (act t).fuses = t.fuses) :
    (onEntry sl k act s).fuses = s.fuses := by
  simp [onEntry, hact]
@[simp] theorem fuses_shedCommand (w) (key) (op) (sl) (k) (s : State) :
    (shedCommand w key op sl k s).fuses = s.fuses := by
  simp [shedCommand]
@[simp] theorem fuses_execShedFill (w) (key) (slice) (entry) (s : State) :
    Completes (execShedFill w key slice entry s) (fun t => t.fuses = s.fuses) := by
  simp [execShedFill]
@[simp] theorem fuses_execShedWriteback (w) (key) (slice) (entry) (s : State) :
    Completes (execShedWriteback w key slice entry s) (fun t => t.fuses = s.fuses) := by
  simp [execShedWriteback]
@[simp] theorem fuses_execShedFlush (w) (key) (s : State) :
    Completes (execShedFlush w key s) (fun t => t.fuses = s.fuses) := by
  simp [execShedFlush]

/-! Machine/Port -/

@[simp] theorem fuses_setRequests (l) (s : State) : (setRequests l s).fuses = s.fuses := by simp [setRequests]
@[simp] theorem fuses_countDropped (s : State) : (countDropped s).fuses = s.fuses := by simp [countDropped]
@[simp] theorem fuses_sendResponse (who) (msg) (s : State) : (sendResponse who msg s).fuses = s.fuses := by
  simp [sendResponse]
@[simp] theorem fuses_answerCtl (who) (inst) (cmd) (cc) (data) (s : State) :
    (answerCtl who inst cmd cc data s).fuses = s.fuses := by
  simp [answerCtl]
@[simp] theorem fuses_answerPldm (who) (inst) (type) (cmd) (cc) (data) (s : State) :
    (answerPldm who inst type cmd cc data s).fuses = s.fuses := by
  simp [answerPldm]
@[simp] theorem fuses_answerVendor (who) (cmd) (r) (s : State) : (answerVendor who cmd r s).fuses = s.fuses := by
  simp [answerVendor]
@[simp] theorem fuses_answerUnsupported (r) (s : State) : (answerUnsupported r s).fuses = s.fuses := by
  simp [answerUnsupported]
@[simp] theorem fuses_drainUnsupported (x0) (x1 : State) : (drainUnsupported x0 x1).fuses = x1.fuses := by
  fun_induction drainUnsupported <;> simp [*]
@[simp] theorem fuses_takeTurn (who) (msg) (act) (s : State) (hact : ∀ t, (act t).fuses = t.fuses) :
    (takeTurn who msg act s).fuses = s.fuses := by
  unfold takeTurn
  (repeat' split) <;> simp [hact]
@[simp] theorem fuses_serveVendor (who) (cmd) (flags) (body) (gk) (act) (s : State) (hact : ∀ t, fusesAfter
    (act t) = t.fuses) :
    (serveVendor who cmd flags body gk act s).fuses = s.fuses := by
  simp [serveVendor, hact]
@[simp] theorem fuses_completeMessage (who) (m) (s : State) : (completeMessage who m s).fuses = s.fuses := by
  simp [completeMessage]
@[simp] theorem fuses_setPartial (who) (a) (s : State) : (setPartial who a s).fuses = s.fuses := by simp [setPartial]
@[simp] theorem fuses_mctpPacket (who) (dst) (flags) (pay) (s : State) :
    (mctpPacket who dst flags pay s).fuses = s.fuses := by
  unfold mctpPacket
  (repeat' split) <;> simp
@[simp] theorem fuses_execSmbusPacket (bytes) (s : State) :
    Completes (execSmbusPacket bytes s) (fun t => t.fuses = s.fuses) := by
  simp [execSmbusPacket]
@[simp] theorem fuses_execMctpReassemblyTimeout (who) (s : State) :
    Completes (execMctpReassemblyTimeout who s) (fun t => t.fuses = s.fuses) := by
  simp [execMctpReassemblyTimeout]
@[simp] theorem fuses_execArbitrationRetry (s : State) :
    Completes (execArbitrationRetry s) (fun t => t.fuses = s.fuses) := by
  unfold execArbitrationRetry
  split <;> simp
@[simp] theorem fuses_execAlertResponse (s : State) :
    Completes (execAlertResponse s) (fun t => t.fuses = s.fuses) := by
  simp [execAlertResponse]

/-! Machine/Mgmt -/

@[simp] theorem fuses_serveCtl (who) (inst) (cmd) (body) (act) (s : State) (hact : ∀ t, fusesAfter
    (act t) = t.fuses) :
    Completes (serveCtl who inst cmd body act s) (fun t => t.fuses = s.fuses) := by
  simp [serveCtl, hact]
@[simp] theorem fuses_sized (n) (body) (act) (s : State) (hact : ∀ t, fusesAfter (act t) = t.fuses) :
    fusesAfter (sized n body act s) = s.fuses := by
  simp [sized, hact]
@[simp] theorem fuses_execSetEndpointId (who) (inst) (body) (s : State) :
    Completes (execSetEndpointId who inst body s) (fun t => t.fuses = s.fuses) := by
  simp [execSetEndpointId]
@[simp] theorem fuses_execGetEndpointId (who) (inst) (body) (s : State) :
    Completes (execGetEndpointId who inst body s) (fun t => t.fuses = s.fuses) := by
  simp [execGetEndpointId]
@[simp] theorem fuses_execGetEndpointUuid (who) (inst) (body) (s : State) :
    Completes (execGetEndpointUuid who inst body s) (fun t => t.fuses = s.fuses) := by
  simp [execGetEndpointUuid]
@[simp] theorem fuses_execGetMctpVersionSupport (who) (inst) (body) (s : State) :
    Completes (execGetMctpVersionSupport who inst body s) (fun t => t.fuses = s.fuses) := by
  simp [execGetMctpVersionSupport]
@[simp] theorem fuses_execGetMessageTypeSupport (who) (inst) (body) (s : State) :
    Completes (execGetMessageTypeSupport who inst body s) (fun t => t.fuses = s.fuses) := by
  simp [execGetMessageTypeSupport]
@[simp] theorem fuses_execGetVendorDefinedMessageSupport (who) (inst) (body) (s : State) :
    Completes (execGetVendorDefinedMessageSupport who inst body s) (fun t => t.fuses = s.fuses) := by
  simp [execGetVendorDefinedMessageSupport]
@[simp] theorem fuses_servePldm (who) (inst) (type) (cmd) (body) (act) (s : State) (hact : ∀ t, fusesAfter
    (act t) = t.fuses) :
    Completes (servePldm who inst type cmd body act s) (fun t => t.fuses = s.fuses) := by
  simp [servePldm, hact]
@[simp] theorem fuses_execSetTid (who) (inst) (body) (s : State) :
    Completes (execSetTid who inst body s) (fun t => t.fuses = s.fuses) := by
  simp [execSetTid]
@[simp] theorem fuses_execGetTid (who) (inst) (body) (s : State) :
    Completes (execGetTid who inst body s) (fun t => t.fuses = s.fuses) := by
  simp [execGetTid]
@[simp] theorem fuses_execGetPldmVersion (who) (inst) (body) (s : State) :
    Completes (execGetPldmVersion who inst body s) (fun t => t.fuses = s.fuses) := by
  simp [execGetPldmVersion]
@[simp] theorem fuses_execGetPldmTypes (who) (inst) (body) (s : State) :
    Completes (execGetPldmTypes who inst body s) (fun t => t.fuses = s.fuses) := by
  simp [execGetPldmTypes]
@[simp] theorem fuses_execGetPldmCommands (who) (inst) (body) (s : State) :
    Completes (execGetPldmCommands who inst body s) (fun t => t.fuses = s.fuses) := by
  simp [execGetPldmCommands]
@[simp] theorem fuses_drawBytes (x0) (x1 : State) : fusesAfter (drawBytes x0 x1) = x1.fuses := by
  fun_induction drawBytes <;> simp +zetaDelta [*]

@[simp] theorem fuses_execGetSensorReading (who inst body) (s : State) :
    Completes (execGetSensorReading who inst body s) (fun t => t.fuses = s.fuses) := by
  refine fuses_servePldm _ _ _ _ _ _ _ fun t => fuses_sized _ _ _ _ fun t => ?_
  (repeat' split) <;> simp

@[simp] theorem fuses_execGetStateSensorReadings (who) (inst) (body) (s : State) :
    Completes (execGetStateSensorReadings who inst body s) (fun t => t.fuses = s.fuses) := by
  simp [execGetStateSensorReadings]
@[simp] theorem fuses_execGetPdrRepositoryInfo (who) (inst) (body) (s : State) :
    Completes (execGetPdrRepositoryInfo who inst body s) (fun t => t.fuses = s.fuses) := by
  simp [execGetPdrRepositoryInfo]
@[simp] theorem fuses_execGetPdr (who) (inst) (body) (s : State) :
    Completes (execGetPdr who inst body s) (fun t => t.fuses = s.fuses) := by
  simp [execGetPdr]
@[simp] theorem fuses_bare (body) (r) (s : State) : fusesAfter (bare body r s) = s.fuses := by simp [bare]
@[simp] theorem fuses_execGetStatus (who) (flags) (body) (s : State) :
    Completes (execGetStatus who flags body s) (fun t => t.fuses = s.fuses) := by
  simp [execGetStatus]
@[simp] theorem fuses_execGetBootFail (who) (flags) (body) (s : State) :
    Completes (execGetBootFail who flags body s) (fun t => t.fuses = s.fuses) := by
  simp [execGetBootFail]
@[simp] theorem fuses_execTokenQuery (who) (flags) (body) (s : State) :
    Completes (execTokenQuery who flags body s) (fun t => t.fuses = s.fuses) := by
  simp [execTokenQuery]
@[simp] theorem fuses_execTokenYield (who) (flags) (body) (s : State) :
    Completes (execTokenYield who flags body s) (fun t => t.fuses = s.fuses) := by
  simp [execTokenYield]
@[simp] theorem fuses_execAddressMatch (s : State) : Completes (execAddressMatch s) (fun t => t.fuses = s.fuses) := by
  simp [execAddressMatch]
@[simp] theorem fuses_portReg (off) (s : State) : fusesAfter (portReg off s) = s.fuses := by
  unfold portReg
  (repeat' split) <;> simp
@[simp] theorem fuses_portRegs (x0) (x1 : State) : fusesAfter (portRegs x0 x1) = x1.fuses := by
  fun_induction portRegs <;> simp +zetaDelta [*]
@[simp] theorem fuses_execReadReg (who) (flags) (body) (s : State) :
    Completes (execReadReg who flags body s) (fun t => t.fuses = s.fuses) := by
  simp [execReadReg]

@[simp] theorem fuses_execStageWrite (who flags body) (s : State) :
    Completes (execStageWrite who flags body s) (fun t => t.fuses = s.fuses) := by
  unfold execStageWrite
  rw [completes_next]
  refine fuses_serveVendor _ _ _ _ _ _ _ fun t => ?_
  split
  · simp
  · split
    · simp
    · dsimp only
      split <;> simp

@[simp] theorem fuses_execWake (who) (flags) (body) (s : State) :
    Completes (execWake who flags body s) (fun t => t.fuses = s.fuses) := by
  simp [execWake]

/-! Machine/Mmu -/

@[simp] theorem fuses_failStream (st) (fatal) (va) (status) (s : State) :
    (failStream st fatal va status s).fuses = s.fuses := by
  unfold failStream
  split <;> simp
@[simp] theorem fuses_execTranslationWalk (island) (allot) (va) (access) (stream) (s : State) :
    Completes (execTranslationWalk island allot va access stream s) (fun t => t.fuses = s.fuses) := by
  unfold execTranslationWalk
  dsimp only
  (repeat' split) <;> simp
@[simp] theorem fuses_execBatchTimeout (fn) (s : State) :
    Completes (execBatchTimeout fn s) (fun t => t.fuses = s.fuses) := by
  simp [execBatchTimeout]
@[simp] theorem fuses_execBatchWrite (fn) (s : State) :
    Completes (execBatchWrite fn s) (fun t => t.fuses = s.fuses) := by
  simp [execBatchWrite]
@[simp] theorem fuses_markLate (id) (s : State) : (markLate id s).fuses = s.fuses := by simp [markLate]
@[simp] theorem fuses_execFaultTimeout (stream) (s : State) :
    Completes (execFaultTimeout stream s) (fun t => t.fuses = s.fuses) := by
  unfold execFaultTimeout
  split <;> simp
@[simp] theorem fuses_invalidate (scope) (s : State) : (invalidate scope s).fuses = s.fuses := by simp [invalidate]
@[simp] theorem fuses_writeInval (pf0) (key) (op) (allot) (s : State) :
    (writeInval pf0 key op allot s).fuses = s.fuses := by
  simp [writeInval]
@[simp] theorem fuses_invalAccess (fn) (key) (op) (allot) (s : State) :
    (invalAccess fn key op allot s).fuses = s.fuses := by
  simp [invalAccess]
@[simp] theorem fuses_execInvalAll (fn) (key) (s : State) :
    Completes (execInvalAll fn key s) (fun t => t.fuses = s.fuses) := by
  simp [execInvalAll]
@[simp] theorem fuses_execInvalAllot (fn) (key) (allot) (s : State) :
    Completes (execInvalAllot fn key allot s) (fun t => t.fuses = s.fuses) := by
  simp [execInvalAllot]
@[simp] theorem fuses_execInvalRange (fn) (key) (allot) (s : State) :
    Completes (execInvalRange fn key allot s) (fun t => t.fuses = s.fuses) := by
  simp [execInvalRange]
@[simp] theorem fuses_execInvalidationDone (s : State) :
    Completes (execInvalidationDone s) (fun t => t.fuses = s.fuses) := by
  unfold execInvalidationDone
  split <;> simp
@[simp] theorem fuses_startRing (f) (s : State) : (startRing f s).fuses = s.fuses := by simp [startRing]
@[simp] theorem fuses_writeFrCfg (f) (v) (s : State) : (writeFrCfg f v s).fuses = s.fuses := by simp [writeFrCfg]
@[simp] theorem fuses_execFaultRingEnable (fn) (ring) (s : State) :
    Completes (execFaultRingEnable fn ring s) (fun t => t.fuses = s.fuses) := by
  simp [execFaultRingEnable]

/-! Machine/Thermal -/

@[simp] theorem fuses_sampleSensor (n) (raw) (s : State) : (sampleSensor n raw s).fuses = s.fuses := by
  unfold sampleSensor
  split <;> simp
@[simp] theorem fuses_updateMax (s : State) : (updateMax s).fuses = s.fuses := by
  fun_cases updateMax <;> simp
@[simp] theorem fuses_countSamples (s : State) : (countSamples s).fuses = s.fuses := by simp [countSamples]
@[simp] theorem fuses_sampleRail (n) (raw) (s : State) : (sampleRail n raw s).fuses = s.fuses := by simp [sampleRail]
@[simp] theorem fuses_execSensorSample (raw) (rails) (s : State) :
    Completes (execSensorSample raw rails s) (fun t => t.fuses = s.fuses) := by
  simp [execSensorSample]
@[simp] theorem fuses_execSoftDwellExpiry (throttle) (s : State) :
    Completes (execSoftDwellExpiry throttle s) (fun t => t.fuses = s.fuses) := by
  simp [execSoftDwellExpiry]
@[simp] theorem fuses_execHwThrottle (s : State) : Completes (execHwThrottle s) (fun t => t.fuses = s.fuses) := by
  simp [execHwThrottle]
@[simp] theorem fuses_execHwThrottleRelease (s : State) :
    Completes (execHwThrottleRelease s) (fun t => t.fuses = s.fuses) := by
  simp [execHwThrottleRelease]
@[simp] theorem fuses_trip (cause) (s : State) : (trip cause s).fuses = s.fuses := by simp [trip]
@[simp] theorem fuses_execHwTrip (s : State) : Completes (execHwTrip s) (fun t => t.fuses = s.fuses) := by
  simp [execHwTrip]
@[simp] theorem fuses_execTripWakeRelease (s : State) :
    Completes (execTripWakeRelease s) (fun t => t.fuses = s.fuses) := by
  simp [execTripWakeRelease]
@[simp] theorem fuses_execPowerCapStep (mw) (s : State) :
    Completes (execPowerCapStep mw s) (fun t => t.fuses = s.fuses) := by
  simp [execPowerCapStep]
@[simp] theorem fuses_stepDown (s : State) : (stepDown s).fuses = s.fuses := by simp [stepDown]
@[simp] theorem fuses_execCurrentLimitSample (mw) (s : State) :
    Completes (execCurrentLimitSample mw s) (fun t => t.fuses = s.fuses) := by
  simp [execCurrentLimitSample]
@[simp] theorem fuses_execSustainedPowerExpiry (s : State) :
    Completes (execSustainedPowerExpiry s) (fun t => t.fuses = s.fuses) := by
  simp [execSustainedPowerExpiry]
@[simp] theorem fuses_execLimitRatioRaise (s : State) :
    Completes (execLimitRatioRaise s) (fun t => t.fuses = s.fuses) := by
  simp [execLimitRatioRaise]
@[simp] theorem fuses_execOvervolt (s : State) : Completes (execOvervolt s) (fun t => t.fuses = s.fuses) := by
  simp [execOvervolt]
@[simp] theorem fuses_execUndervolt (s : State) : Completes (execUndervolt s) (fun t => t.fuses = s.fuses) := by
  simp [execUndervolt]
@[simp] theorem fuses_execUndervoltRelease (s : State) :
    Completes (execUndervoltRelease s) (fun t => t.fuses = s.fuses) := by
  simp [execUndervoltRelease]
@[simp] theorem fuses_execCrystalLoss (s : State) : Completes (execCrystalLoss s) (fun t => t.fuses = s.fuses) := by
  simp [execCrystalLoss]
@[simp] theorem fuses_execVoltageSettled (s : State) :
    Completes (execVoltageSettled s) (fun t => t.fuses = s.fuses) := by
  simp [execVoltageSettled]
@[simp] theorem fuses_avsFault (s : State) : (avsFault s).fuses = s.fuses := by simp [avsFault]
@[simp] theorem fuses_execAvsResponse (good) (s : State) :
    Completes (execAvsResponse good s) (fun t => t.fuses = s.fuses) := by
  simp [execAvsResponse]
@[simp] theorem fuses_execAvsFault (s : State) : Completes (execAvsFault s) (fun t => t.fuses = s.fuses) := by
  simp [execAvsFault]
@[simp] theorem fuses_finishCal (result) (s : State) : (finishCal result s).fuses = s.fuses := by simp [finishCal]
@[simp] theorem fuses_calCommand (w) (key) (act) (s : State) (hact : ∀ t, (act t).fuses = t.fuses) :
    (calCommand w key act s).fuses = s.fuses := by
  simp [calCommand, hact]
@[simp] theorem fuses_calRead (w) (s : State) : (calRead w s).fuses = s.fuses := by simp [calRead]
@[simp] theorem fuses_execCalRead (w) (key) (s : State) :
    Completes (execCalRead w key s) (fun t => t.fuses = s.fuses) := by
  simp [execCalRead]
@[simp] theorem fuses_calWrite (w) (s : State) : (calWrite w s).fuses = s.fuses := by
  unfold calWrite
  dsimp only
  split <;> simp
@[simp] theorem fuses_execCalWrite (w) (key) (s : State) :
    Completes (execCalWrite w key s) (fun t => t.fuses = s.fuses) := by
  simp [execCalWrite]
@[simp] theorem fuses_execCalReload (w) (key) (s : State) :
    Completes (execCalReload w key s) (fun t => t.fuses = s.fuses) := by
  simp [execCalReload]
@[simp] theorem fuses_calMeasure (arg) (readings) (s : State) : (calMeasure arg readings s).fuses = s.fuses := by
  simp [calMeasure]
@[simp] theorem fuses_execCalMeasure (w) (key) (arg) (mic) (readings) (s : State) :
    Completes (execCalMeasure w key arg mic readings s) (fun t => t.fuses = s.fuses) := by
  simp [execCalMeasure]

/-! Machine/RegWrite -/

@[simp] theorem fuses_plainReg (w) (off) (v) (s : State) : (plainReg w off v s).fuses = s.fuses := by simp [plainReg]
@[simp] theorem fuses_dropLow (f) (off) (s : State) : (dropLow f off s).fuses = s.fuses := by simp [dropLow]
@[simp] theorem fuses_guardedReg (w) (off) (v) (ok) (refuse) (s : State) (hrefuse : ∀ t, (refuse t).fuses = t.fuses) :
    (guardedReg w off v ok refuse s).fuses = s.fuses := by
  simp [guardedReg, hrefuse]
@[simp] theorem fuses_clampedReg (w) (off) (width) (lo) (hi) (v) (s : State) :
    (clampedReg w off width lo hi v s).fuses = s.fuses := by
  simp [clampedReg]
@[simp] theorem fuses_noOperation (s : State) : (noOperation s).fuses = s.fuses := by simp [noOperation]
@[simp] theorem fuses_writeIslandCtrl (w) (v) (s : State) : (writeIslandCtrl w v s).fuses = s.fuses := by
  unfold writeIslandCtrl
  split <;> simp
@[simp] theorem fuses_writeFwCmd (w) (v) (s : State) : (writeFwCmd w v s).fuses = s.fuses := by
  unfold writeFwCmd
  split <;> simp
@[simp] theorem fuses_writeKeymbCmd (w) (v) (s : State) : (writeKeymbCmd w v s).fuses = s.fuses := by
  fun_cases writeKeymbCmd <;> simp
@[simp] theorem fuses_drawList (x0) (x1 : State) : fusesAfter (drawList x0 x1) = x1.fuses := by
  fun_induction drawList <;> simp +zetaDelta [*]
@[simp] theorem fuses_writeCalCmd (w) (v) (s : State) : (writeCalCmd w v s).fuses = s.fuses := by
  unfold writeCalCmd
  split <;> simp
@[simp] theorem fuses_writeAcouCmd (w) (v) (s : State) : (writeAcouCmd w v s).fuses = s.fuses := by
  unfold writeAcouCmd
  split <;> simp
@[simp] theorem fuses_writeBar4Base (w) (off) (v) (s : State) : (writeBar4Base w off v s).fuses = s.fuses := by
  simp [writeBar4Base]
@[simp] theorem fuses_writeEvents (w) (off) (v) (s : State) : (writeEvents w off v s).fuses = s.fuses := by
  unfold writeEvents
  split <;> simp
@[simp] theorem fuses_writeRingCfg (w) (off) (v) (mask) (disabled) (s : State) :
    (writeRingCfg w off v mask disabled s).fuses = s.fuses := by
  simp [writeRingCfg]
@[simp] theorem fuses_writeSqReg (w) (r) (rel) (off) (v) (s : State) :
    (writeSqReg w r rel off v s).fuses = s.fuses := by
  simp [writeSqReg]
@[simp] theorem fuses_writeCqReg (w) (r) (rel) (off) (v) (s : State) :
    (writeCqReg w r rel off v s).fuses = s.fuses := by
  simp [writeCqReg]
@[simp] theorem fuses_writeHostq (w) (off) (v) (s : State) : (writeHostq w off v s).fuses = s.fuses := by
  simp [writeHostq]
@[simp] theorem fuses_writeHose (w) (off) (v) (s : State) : (writeHose w off v s).fuses = s.fuses := by
  simp [writeHose]
@[simp] theorem fuses_writeDisp (w) (off) (v) (s : State) : (writeDisp w off v s).fuses = s.fuses := by
  simp [writeDisp]
@[simp] theorem fuses_putKeyWord (i) (k) (v) (s : State) : (putKeyWord i k v s).fuses = s.fuses := by
  simp [putKeyWord]
@[simp] theorem fuses_writeIntake (w) (off) (v) (s : State) : (writeIntake w off v s).fuses = s.fuses := by
  simp [writeIntake]
@[simp] theorem fuses_writeDecode (w) (off) (v) (s : State) : (writeDecode w off v s).fuses = s.fuses := by
  simp [writeDecode]
@[simp] theorem fuses_writeBed (w) (off) (v) (s : State) : (writeBed w off v s).fuses = s.fuses := by simp [writeBed]

/-! Machine/Front -/

@[simp] theorem fuses_execRefclkLoss (eth) (inL12) (s : State) :
    Completes (execRefclkLoss eth inL12 s) (fun t => t.fuses = s.fuses) := by
  simp [execRefclkLoss]

/-! Machine/Jtag -/

@[simp] theorem fuses_scanBoundary (ins) (board) (tdi) (s : State) :
    (scanBoundary ins board tdi s).fuses = s.fuses := by
  simp [scanBoundary]
@[simp] theorem fuses_execBypass (tdi) (s : State) : Completes (execBypass tdi s) (fun t => t.fuses = s.fuses) := by
  simp [execBypass]
@[simp] theorem fuses_execSamplePreload (balls) (tdi) (s : State) :
    Completes (execSamplePreload balls tdi s) (fun t => t.fuses = s.fuses) := by
  simp [execSamplePreload]
@[simp] theorem fuses_execExtest (balls) (tdi) (s : State) :
    Completes (execExtest balls tdi s) (fun t => t.fuses = s.fuses) := by
  simp [execExtest]

/-! Machine/Reload -/

@[simp] theorem fuses_releaseStale (s : State) : (releaseStale s).fuses = s.fuses := by simp [releaseStale]
@[simp] theorem fuses_resumeCommit (s : State) : (resumeCommit s).fuses = s.fuses := by
  unfold resumeCommit
  split <;> simp
@[simp] theorem fuses_runSlotImage (p) (s : State) : (runSlotImage p s).fuses = s.fuses := by simp [runSlotImage]
@[simp] theorem fuses_execProcessorReload (proc) (readOk) (s : State) :
    Completes (execProcessorReload proc readOk s) (fun t => t.fuses = s.fuses) := by
  simp [execProcessorReload]

/-! Machine/Tick -/

@[simp] theorem fuses_tickMs (s : State) : (tickMs s).fuses = s.fuses := by simp [tickMs]
@[simp] theorem fuses_tickNs (s : State) : (tickNs s).fuses = s.fuses := by simp [tickNs]
@[simp] theorem fuses_tick (s : State) : (tick s).fuses = s.fuses := by simp [tick]

end Sys2Proof.Machine
end

section
/-! PROOFS. No step undoes a fuse (spec/02 R49, R50; spec/04 R110, R118): what the three burns leave, and the register
writes and TLPs that reach them. -/
namespace Sys2Proof.Machine

/-! What a burn leaves -/

/-- Well-formed fuses f stay well-formed as g, and everything burnt in f is burnt in g. -/
def Fuses.KeptIn (f g : Fuses) : Prop := f.wf → g.wf ∧ f.burntIn g

theorem Fuses.KeptIn.refl (f : Fuses) : f.KeptIn f := fun h =>
  ⟨h, Nat.le_refl _, Nat.le_refl _, rfl, rfl, rfl, fun k x y hx hy => by
    cases hx.symm.trans hy
    exact ⟨rfl, rfl, id⟩⟩

theorem Fuses.KeptIn.of_eq {f g : Fuses} (h : g = f) : f.KeptIn g := h ▸ .refl f

theorem Fuses.KeptIn.trans {f g k : Fuses} (h : f.KeptIn g) (h' : g.KeptIn k) : f.KeptIn k := fun hf => by
  obtain ⟨hg, hplan, himage, himageKeys, hvariant, huuid, hkeys⟩ := h hf
  obtain ⟨hk, hplan', himage', himageKeys', hvariant', huuid', hkeys'⟩ := h' hg
  refine ⟨hk, Nat.le_trans hplan hplan', Nat.le_trans himage himage', himageKeys'.trans himageKeys, hvariant'.trans hvariant,
    huuid'.trans huuid, fun i x z hx hz => ?_⟩
  -- Slot i exists in g as well, since f and g both have four plan key slots.
  have hi : i < g.planKeys.length := by
    have := List.getElem?_eq_some_iff.mp hx
    obtain ⟨hlt, -⟩ := this
    rw [hg.1, ← hf.1]
    exact hlt
  obtain ⟨hdigest, hprov, hrev⟩ := hkeys i x _ hx (List.getElem?_eq_getElem hi)
  obtain ⟨hdigest', hprov', hrev'⟩ := hkeys' i _ z (List.getElem?_eq_getElem hi) hz
  exact ⟨hdigest'.trans hdigest, hprov'.trans hprov, fun h => hrev' (hrev h)⟩

/-- BURN_FLOOR of PLAN_CMD raises the plan floor, to at most 63. -/
theorem burnPlanFloor_keeps (s : State) : s.fuses.KeptIn (burnPlanFloor s).fuses := by
  intro hwf
  by_cases hfall : s.get F.planStatusFallback = 1
  · obtain ⟨hboot, -⟩ := burnPlanFloor_refused hfall
    exact Fuses.KeptIn.of_eq (congrArg BootUnit.fuses hboot) hwf
  · obtain ⟨hfuses, -, -⟩ := burnPlanFloor_burns hfall
    obtain ⟨hkeys, himages, hplan, himage⟩ := hwf
    have hfuses : (burnPlanFloor s).fuses = _ := hfuses
    rw [hfuses]
    exact ⟨⟨hkeys, himages, Nat.max_le.mpr ⟨hplan, Nat.min_le_left _ _⟩, himage⟩, Nat.le_max_left _ _, Nat.le_refl _,
      rfl, rfl, rfl, fun k x y hx hy => by cases hx.symm.trans hy; exact ⟨rfl, rfl, id⟩⟩

/-- BURN_FLOOR of BOOT_CMD raises the image floor, to at most 63. -/
theorem burnImageFloor_keeps (s : State) : s.fuses.KeptIn (burnImageFloor s).fuses := by
  intro hwf
  by_cases hok : s.AllowsFloorBurn
  · obtain ⟨hkeys, himages, hplan, himage⟩ := hwf
    have hfuses : (burnImageFloor s).fuses = _ := burnImageFloor_allowed_fuses hok
    rw [hfuses]
    exact ⟨⟨hkeys, himages, hplan, Nat.max_le.mpr ⟨himage, s.runVersion_le⟩⟩, Nat.le_refl _, Nat.le_max_left _ _,
      rfl, rfl, rfl, fun k x y hx hy => by cases hx.symm.trans hy; exact ⟨rfl, rfl, id⟩⟩
  · exact Fuses.KeptIn.of_eq (burnImageFloor_refused_fuses hok) hwf

/-- REVOKE_KEY sets the revoked bit of one plan key slot. -/
theorem revokeKey_keeps (k : Nat) (s : State) : s.fuses.KeptIn (revokeKey k s).fuses := by
  intro hwf
  by_cases hsigned : s.signedBy k
  · obtain ⟨hboot, -⟩ := revokeKey_refused hsigned
    exact Fuses.KeptIn.of_eq (congrArg BootUnit.fuses hboot) hwf
  · obtain ⟨hburns, -, -⟩ := revokeKey_burns hsigned
    obtain ⟨hkeys, himages, hplan, himage⟩ := hwf
    have hfuses : (revokeKey k s).fuses = _ := hburns
    rw [hfuses, setAt_eq_set]
    refine ⟨⟨(List.length_set ..).trans hkeys, himages, hplan, himage⟩, Nat.le_refl _, Nat.le_refl _, rfl, rfl, rfl,
      fun i x y hx hy => ?_⟩
    have hx : s.boot.fuses.planKeys[i]? = some x := hx
    rw [List.getElem?_set] at hy
    split at hy
    · next hki =>
      subst hki
      rw [List.getD_eq_getElem?_getD, hx] at hy
      split at hy
      · cases hy
        exact ⟨rfl, rfl, fun _ => rfl⟩
      · cases hy
    · cases hx.symm.trans hy
      exact ⟨rfl, rfl, id⟩

/-! Register writes, which reach the burns -/

/-- The one function that a host's register write, a vendor request and a PLAN_CMD write share. -/
theorem writeAccess_keeps (w off value act) (s : State) (hact : ∀ t : State, t.fuses.KeptIn (act t).fuses) :
    s.fuses.KeptIn (writeAccess w off value act s).fuses := by
  have htouch : (touchWake w s).fuses = s.fuses := fuses_touchWake ..
  unfold writeAccess
  dsimp only
  rw [← htouch]
  split
  · exact hact _
  all_goals exact .of_eq (by simp)

theorem planCommand_keeps (w key act) (s : State) (hact : ∀ t : State, t.fuses.KeptIn (act t).fuses) :
    s.fuses.KeptIn (planCommand w key act s).fuses := by
  have hnote : (noteOrigin 0 w s).fuses = s.fuses := fuses_noteOrigin ..
  unfold planCommand
  dsimp only
  split
  · exact .of_eq (by simp)
  · rw [← hnote]
    split
    · exact .of_eq (by simp)
    · exact hact _

theorem bootCommand_keeps (w key act) (s : State) (hact : ∀ t : State, t.fuses.KeptIn (act t).fuses) :
    s.fuses.KeptIn (bootCommand w key act s).fuses := by
  have hnote : (noteOrigin 1 w s).fuses = s.fuses := fuses_noteOrigin ..
  unfold bootCommand
  dsimp only
  split
  · exact .of_eq (by simp)
  · rw [← hnote]
    split
    · exact .of_eq (by simp)
    · exact hact _

theorem pf0Access_keeps (w off value act) (s : State) (hact : ∀ t : State, t.fuses.KeptIn (act t).fuses) :
    s.fuses.KeptIn (pf0Access w off value act s).fuses := by
  unfold pf0Access
  dsimp only
  split
  · exact writeAccess_keeps _ _ _ _ _ hact
  · split
    · exact .of_eq (by simp)
    · exact writeAccess_keeps _ _ _ _ _ hact

theorem noteReserved_keeps (off v) {s t : State} (h : s.fuses.KeptIn t.fuses) :
    s.fuses.KeptIn (noteReserved off v t).fuses := by
  rwa [fuses_noteReserved]

theorem writePlanCmd_keeps (w v) (s : State) : s.fuses.KeptIn (writePlanCmd w v s).fuses := by
  unfold writePlanCmd
  dsimp only
  split
  · exact planCommand_keeps _ _ _ _ fun t => .of_eq (by simp)
  · exact planCommand_keeps _ _ _ _ fun t => .of_eq (by simp)
  · exact planCommand_keeps _ _ _ _ fun t => .of_eq (by simp)
  · exact planCommand_keeps _ _ _ _ fun t => .of_eq (by simp)
  · exact planCommand_keeps _ _ _ _ burnPlanFloor_keeps
  · exact planCommand_keeps _ _ _ _ (revokeKey_keeps _)
  · exact .of_eq (by simp)
  · exact .of_eq (by simp)

theorem writeBootCmd_keeps (w v) (s : State) : s.fuses.KeptIn (writeBootCmd w v s).fuses := by
  unfold writeBootCmd
  dsimp only
  split
  · next a ha =>
    refine bootCommand_keeps _ _ _ _ fun t => ?_
    split at ha <;> cases ha
    case h_5 => exact burnImageFloor_keeps t
    all_goals exact .of_eq (by simp)
  · exact .of_eq (by simp)

theorem writeIsland1_keeps (w off v) (s : State) : s.fuses.KeptIn (writeIsland1 w off v s).fuses := by
  by_cases hplan : off = R.planCmd
  · subst hplan
    exact noteReserved_keeps _ _ (writePlanCmd_keeps w v s)
  by_cases hboot : off = R.bootCmd
  · subst hboot
    exact noteReserved_keeps _ _ (writeBootCmd_keeps w v s)
  exact .of_eq (by simp [writeIsland1, hplan, hboot])

theorem writeReg_keeps (w off v) (s : State) : s.fuses.KeptIn (writeReg w off v s).fuses := by
  unfold writeReg
  dsimp only
  repeat' split
  all_goals first
    | exact writeIsland1_keeps w off v s
    | exact .of_eq (by simp)

theorem busWrite_keeps (w off v) (s : State) : s.fuses.KeptIn (busWrite w off v s).fuses := by
  unfold busWrite
  split
  · exact .of_eq (by simp)
  · split
    · exact pf0Access_keeps _ _ _ _ _ (writeReg_keeps w off v)
    · exact writeAccess_keeps _ _ _ _ _ (writeReg_keeps w off v)

theorem busWrite64_keeps (w off lo hi) (s : State) : s.fuses.KeptIn (busWrite64 w off lo hi s).fuses := by
  unfold busWrite64
  split
  · exact (busWrite_keeps w off lo s).trans (busWrite_keeps _ _ _ _)
  · split <;> exact .of_eq (by simp)

theorem portWrites_keeps (ws : List (Nat × Word)) (done) (s : State) :
    s.fuses.KeptIn (fusesAfter (portWrites ws done s)) := by
  induction ws generalizing done s with
  | nil => exact .of_eq (by simp [portWrites])
  | cons e rest ih =>
    have hwrite := busWrite_keeps .port e.1 e.2 s
    unfold portWrites
    dsimp only
    repeat' split
    · exact .of_eq (by simp)
    · exact (fusesAfter_mk _ _).symm ▸ hwrite
    · exact (fusesAfter_mk _ _).symm ▸ hwrite
    · exact hwrite.trans (ih _ _)

theorem serveWriteReg_keeps (body) (s : State) : s.fuses.KeptIn (fusesAfter (serveWriteReg body s)) := by
  unfold serveWriteReg
  dsimp only
  split
  · exact .of_eq (by simp)
  · rw [fusesAfter_mk, fuses_snd]
    exact portWrites_keeps _ _ _

theorem takeTurn_keeps (who msg act) (s : State) (hact : ∀ t : State, t.fuses.KeptIn (act t).fuses) :
    s.fuses.KeptIn (takeTurn who msg act s).fuses := by
  unfold takeTurn
  split
  · exact .refl _
  · split
    · exact hact s
    · split
      · rw [fuses_drainUnsupported]
        exact (Fuses.KeptIn.of_eq (fuses_setRequests ..)).trans (hact _)
      · exact .refl _

theorem serveVendor_keeps (who cmd flags body gk act) (s : State)
    (hact : ∀ t : State, t.fuses.KeptIn (fusesAfter (act t))) :
    s.fuses.KeptIn (serveVendor who cmd flags body gk act s).fuses := by
  unfold serveVendor
  dsimp only
  split
  · exact .of_eq (by split <;> simp)
  · refine takeTurn_keeps _ _ _ _ fun t => ?_
    repeat' split
    · exact .refl _
    · exact .of_eq (by simp)
    · exact .of_eq (by simp)
    · rw [fuses_answerVendor, fuses_snd]
      exact hact t

theorem performTlp_keeps (p : Tlp) (s : State) : s.fuses.KeptIn (performTlp p s).fuses := by
  unfold performTlp
  cases p
  case write => exact busWrite_keeps _ _ _ _
  all_goals exact .of_eq (by simp)

/-! Steps -/
theorem execPlanBurnFloor_keeps (w key) (s : State) :
    Completes (execPlanBurnFloor w key s) (fun t => s.fuses.KeptIn t.fuses) := by
  rw [execPlanBurnFloor, completes_next]
  exact writeAccess_keeps _ _ _ _ _ fun t => planCommand_keeps _ _ _ t burnPlanFloor_keeps
theorem execRevokeKey_keeps (w key slot) (s : State) :
    Completes (execRevokeKey w key slot s) (fun t => s.fuses.KeptIn t.fuses) := by
  rw [execRevokeKey, completes_next]
  exact writeAccess_keeps _ _ _ _ _ fun t => planCommand_keeps _ _ _ t (revokeKey_keeps _)
theorem execBootBurnFloor_keeps (w key) (s : State) :
    Completes (execBootBurnFloor w key s) (fun t => s.fuses.KeptIn t.fuses) := by
  rw [execBootBurnFloor, completes_next]
  exact writeAccess_keeps _ _ _ _ _ fun t => bootCommand_keeps _ _ _ t burnImageFloor_keeps
theorem execRegisterWrite_keeps (w off lo hi) (s : State) :
    Completes (execRegisterWrite w off lo hi s) (fun t => s.fuses.KeptIn t.fuses) := by
  cases hi <;> rw [execRegisterWrite, completes_next]
  · exact busWrite_keeps _ _ _ _
  · exact busWrite64_keeps _ _ _ _ _
theorem execWriteReg_keeps (who flags body) (s : State) :
    Completes (execWriteReg who flags body s) (fun t => s.fuses.KeptIn t.fuses) := by
  rw [execWriteReg, completes_next]
  exact serveVendor_keeps _ _ _ _ _ _ _ (serveWriteReg_keeps body)
theorem execHeldTlpServe_keeps (s : State) :
    Completes (execHeldTlpServe s) (fun t => s.fuses.KeptIn t.fuses) := by
  rw [execHeldTlpServe, completes_next]
  split
  · exact .refl _
  · next p rest _ =>
    split
    · exact .refl _
    · have hserve := performTlp_keeps p { s with pwr := { s.pwr with tlps := [] } }
      rw [fuses_mk, boot_fuses] at hserve
      dsimp only
      split
      · rwa [fuses_mk, boot_fuses]
      · exact hserve
theorem execShadeTlpArrival_keeps (tlp) (s : State) :
    Completes (execShadeTlpArrival tlp s) (fun t => s.fuses.KeptIn t.fuses) := by
  unfold execShadeTlpArrival
  rw [completes_next]
  split
  · exact .refl _
  · split
    · exact performTlp_keeps _ _
    · exact performTlp_keeps _ _
    all_goals exact .of_eq (by simp)

theorem Completes.keeps {o : Out} {s : State} (h : Completes o (fun t => t.fuses = s.fuses)) :
    Completes o (fun t => s.fuses.KeptIn t.fuses) :=
  let ⟨t, ho, ht⟩ := h
  ⟨t, ho, .of_eq ht⟩

/-- Seven commands can burn; every other one leaves the fuses. -/
theorem exec_keeps (i : Instr) (s : State) : Completes (exec i s) (fun t => s.fuses.KeptIn t.fuses) := by
  cases i
  case planBurnFloor w key => exact execPlanBurnFloor_keeps w key s
  case revokeKey w key slot => exact execRevokeKey_keeps w key slot s
  case bootBurnFloor w key => exact execBootBurnFloor_keeps w key s
  case registerWrite w off lo hi => exact execRegisterWrite_keeps w off lo hi s
  case writeReg who flags body => exact execWriteReg_keeps who flags body s
  case heldTlpServe => exact execHeldTlpServe_keeps s
  case shadeTlpArrival tlp => exact execShadeTlpArrival_keeps tlp s
  all_goals exact Completes.keeps (by simp [exec])

theorem step_keeps {s t : State} (h : step s = .next t) : s.fuses.KeptIn t.fuses := by
  unfold step at h
  split at h
  · cases h
    exact .of_eq (fuses_tick s)
  · next c rest _ =>
    obtain ⟨u, hu, hkeeps⟩ := exec_keeps c { s with pending := rest }
    cases hu.symm.trans h
    rwa [fuses_mk, boot_fuses] at hkeeps

end Sys2Proof.Machine

namespace Sys2Proof
open Sys2Proof.Machine

/-- Settles O3: three operations burn, each raises a floor or sets a revoked bit; all others leave the fuses. -/
theorem fusesOnlyRise : Obligations.FusesOnlyRise := by
  unfold Obligations.FusesOnlyRise
  intro s t hwf hstep
  exact step_keeps hstep hwf

end Sys2Proof
end

section
/-! PROOFS. A static block of a furrow stream reads back (spec/19 R462, R464-R467): what bits spell, what a token's header
spells under the static table, what the compressor's choice at a position guarantees, and the block by induction over its
tokens. -/
namespace Sys2Proof.Machine

/-! Bits -/

@[simp] theorem length_bitsOf (n v : Nat) : (bitsOf n v).length = n := by
  induction n generalizing v with
  | zero => rfl
  | succ n ih => simp [bitsOf, ih]

theorem bitsNat_bitsOf (n v : Nat) : bitsNat (bitsOf n v) = v % 2 ^ n := by
  induction n generalizing v with
  | zero => simp [bitsOf, bitsNat, Nat.mod_one]
  | succ n ih =>
    have hbit : b2n (v % 2 == 1) = v % 2 := by
      rcases Nat.mod_two_eq_zero_or_one v with h | h <;> simp [h, b2n]
    rw [bitsOf, bitsNat, ih, hbit, Nat.pow_succ', Nat.mod_mul]

theorem takeBits_bitsOf (n v : Nat) (rest : List Bool) (k : Nat → List Bool → DUnit) (h : v < 2 ^ n) :
    takeBits n (bitsOf n v ++ rest) k = k v rest := by
  have hlen : ¬ (bitsOf n v ++ rest).length < n := by simp
  rw [takeBits, if_neg hlen, List.take_left' (length_bitsOf n v), List.drop_left' (length_bitsOf n v), bitsNat_bitsOf,
    Nat.mod_eq_of_lt h]

/-! The static table (R466): 32 symbols of 5 bits -/

theorem canonical_staticTable : canonical staticTable = (List.range 32).map (fun k => (k, 5, k)) := by decide +kernel

theorem codeBits_staticTable {k : Nat} (h : k < 32) : codeBits staticTable k = (bitsOf 5 k).reverse := by
  rw [codeBits, canonical_staticTable]
  decide +revert +kernel

/-- Five bits that are the code of k are no other symbol's. -/
theorem find_staticCode {k : Nat} (h : k < 32) :
    ((List.range 32).map (fun k => (k, 5, k))).find? (fun e => (bitsOf e.2.1 e.2.2).reverse == (bitsOf 5 k).reverse) =
      some (k, 5, k) := by
  decide +revert +kernel

theorem find_congr {α : Type} {p q : α → Bool} {l : List α} (h : ∀ x ∈ l, p x = q x) : l.find? p = l.find? q := by
  induction l with
  | nil => rfl
  | cons x l ih =>
    rw [List.find?_cons, List.find?_cons, h x List.mem_cons_self, ih fun y hy => h y (List.mem_cons_of_mem x hy)]

theorem readSym_staticTable {k : Nat} (h : k < 32) (rest : List Bool) :
    readSym staticTable (codeBits staticTable k ++ rest) = .sym k 5 := by
  have hlen : (codeBits staticTable k).length = 5 := by simp [codeBits_staticTable h]
  have hfind : (canonical staticTable).find? (fun e => e.2.1 ≤ (codeBits staticTable k ++ rest).length &&
      (bitsOf e.2.1 e.2.2).reverse == (codeBits staticTable k ++ rest).take e.2.1) = some (k, 5, k) := by
    rw [← find_staticCode h, canonical_staticTable]
    refine find_congr fun e he => ?_
    obtain ⟨j, -, rfl⟩ := List.mem_map.mp he
    simp [List.take_left' hlen, hlen, codeBits_staticTable h]
  simp only [readSym, hfind]

/-! Length classes (Table 19.3) -/

theorem classOf_spec_short : ∀ n < 65, 1 ≤ n → classOf n < 8 ∧ (lenClass (classOf n)).1 ≤ n ∧
    n - (lenClass (classOf n)).1 < 2 ^ (lenClass (classOf n)).2 := by
  decide

/-- The class of a length of a token, and what its EXTRA bits hold. -/
theorem classOf_spec {n : Nat} (h1 : 1 ≤ n) (h2 : n ≤ 4160) :
    classOf n < 8 ∧ (lenClass (classOf n)).1 ≤ n ∧ n - (lenClass (classOf n)).1 < 2 ^ (lenClass (classOf n)).2 := by
  rcases Nat.lt_or_ge n 65 with h | h
  · exact classOf_spec_short n h h1
  · have hclass : classOf n = 7 := by
      have hall : (List.range 8).filter (fun c => decide ((lenClass c).1 ≤ n)) = List.range 8 :=
        List.filter_eq_self.mpr fun c hc => by
          have : (lenClass c).1 ≤ 65 := by
            revert c
            decide
          simpa using Nat.le_trans this h
      rw [classOf, hall]
      decide
    rw [hclass]
    exact ⟨by decide, h, by simp only [lenClass]; omega⟩

/-! Tokens (R465) -/

/-- The header of a token under the static table: its symbol and the EXTRA bits of its length. -/
theorem parseToken_head {st : FurrowState} (hblock : st.block = 1) {kind n : Nat} (hkind : kind < 3) (h1 : 1 ≤ n)
    (h2 : n ≤ 4160) (rest : List Bool) :
    parseToken st (codeBits staticTable (8 * kind + classOf n) ++
      (bitsOf (lenClass (classOf n)).2 (n - (lenClass (classOf n)).1) ++ rest)) =
      if kind = 0 then .lit n rest else if kind = 1 then .run n rest
      else takeBits 6 rest (fun v r => if st.rawPos / st.esz < (v + 1) * st.row then .bad else .row n (v + 1) r) := by
  obtain ⟨hclass, hlo, hspan⟩ := classOf_spec h1 h2
  have hsym : 8 * kind + classOf n < 32 := by omega
  have hmod : (8 * kind + classOf n) % 8 = classOf n := by omega
  have hcode : (codeBits staticTable (8 * kind + classOf n)).length = 5 := by simp [codeBits_staticTable hsym]
  have hlen : (lenClass (classOf n)).1 + (n - (lenClass (classOf n)).1) = n := by omega
  have hcodes : st.codes = staticTable := if_pos hblock
  rw [parseToken, hcodes, readSym_staticTable hsym]
  simp only [hmod, List.drop_left' hcode, takeBits_bitsOf _ _ _ _ hspan, hlen]
  rw [if_neg (by omega), if_neg (by omega)]
  match kind, hkind with
  | 0, _ => exact if_pos (by omega)
  | 1, _ => exact (if_neg (by omega)).trans (if_pos (by omega))
  | 2, _ => exact (if_neg (by omega)).trans (if_neg (by omega))

theorem parseToken_lit {st : FurrowState} (hblock : st.block = 1) (get w p) {n : Nat} (h1 : 1 ≤ n) (h2 : n ≤ 4160)
    (rest : List Bool) : parseToken st (tokenBits get w staticTable p (.lit n) ++ rest) =
      .lit n ((List.range n).flatMap (fun i => bitsOf w (get (p + i))) ++ rest) := by
  simpa [tokenBits, Token.sym, Token.len] using parseToken_head hblock (kind := 0) (by omega) h1 h2
    ((List.range n).flatMap (fun i => bitsOf w (get (p + i))) ++ rest)

theorem parseToken_run {st : FurrowState} (hblock : st.block = 1) (get w p) {n : Nat} (h1 : 1 ≤ n) (h2 : n ≤ 4160)
    (rest : List Bool) : parseToken st (tokenBits get w staticTable p (.run n) ++ rest) =
      .run n (bitsOf w (get p) ++ rest) := by
  simpa [tokenBits, Token.sym, Token.len] using parseToken_head hblock (kind := 1) (by omega) h1 h2
    (bitsOf w (get p) ++ rest)

theorem parseToken_row {st : FurrowState} (hblock : st.block = 1) (get w p) {n d : Nat} (h1 : 1 ≤ n) (h2 : n ≤ 4160)
    (hd1 : 1 ≤ d) (hd2 : d ≤ 64) (hrows : d * st.row ≤ st.rawPos / st.esz) (rest : List Bool) :
    parseToken st (tokenBits get w staticTable p (.row n d) ++ rest) = .row n d rest := by
  have hhead := parseToken_head hblock (kind := 2) (by omega) h1 h2 (bitsOf 6 (d - 1) ++ rest)
  rw [takeBits_bitsOf _ _ _ _ (by omega : d - 1 < 2 ^ 6), Nat.sub_add_cancel hd1, if_neg (Nat.not_lt.mpr hrows)] at hhead
  simpa [tokenBits, Token.sym, Token.len] using hhead

theorem parseToken_closes {st : FurrowState} (hblock : st.block = 1) (rest : List Bool) :
    parseToken st (codeBits staticTable 24 ++ rest) = .closes rest := by
  have hcodes : st.codes = staticTable := if_pos hblock
  have hcode : (codeBits staticTable 24).length = 5 := by simp [codeBits_staticTable]
  rw [parseToken, hcodes, readSym_staticTable (by omega)]
  simp only [List.drop_left' hcode]
  exact if_pos trivial

/-! What the compressor chooses at a position (R467) -/

theorem eqRun_le (get other : Nat → Nat) (n p : Nat) : eqRun get other n p ≤ n := by
  induction n generalizing p with
  | zero => exact Nat.le_refl _
  | succ n ih =>
    have := ih (p + 1)
    rw [eqRun]
    split <;> omega

theorem get_of_lt_eqRun {get other : Nat → Nat} {n p i : Nat} (h : i < eqRun get other n p) :
    get (p + i) = other (p + i) := by
  induction n generalizing p i with
  | zero => exact absurd h (Nat.not_lt_zero _)
  | succ n ih =>
    rw [eqRun] at h
    split at h
    · next hp =>
      cases i with
      | zero => exact hp
      | succ i => simpa [Nat.add_assoc, Nat.add_comm 1 i] using ih (p := p + 1) (i := i) (by omega)
    · omega

/-- A copy that the compressor may emit at p: at least one element, none past the block's end, all as they were before. -/
def Token.CopiesAt (get : Nat → Nat) (row stop p : Nat) : Token → Prop
  | .lit _ => False
  | .run n => 1 ≤ n ∧ n ≤ 4160 ∧ p + n ≤ stop ∧ ∀ i < n, get (p + i) = get p
  | .row n d => 1 ≤ n ∧ n ≤ 4160 ∧ p + n ≤ stop ∧ 1 ≤ d ∧ d ≤ 64 ∧ d * row ≤ p ∧
      ∀ i < n, get (p + i) = get (p + i - d * row)

/-- The best of a list of candidates is one of them, or none. -/
theorem foldl_best_mem (ms : List (Nat × Nat)) (b : Nat × Nat) :
    ms.foldl (fun b m => if b.1 < m.1 then m else b) b = b ∨
      ms.foldl (fun b m => if b.1 < m.1 then m else b) b ∈ ms := by
  induction ms generalizing b with
  | nil => exact .inl rfl
  | cons m ms ih =>
    rw [List.foldl_cons]
    rcases ih (if b.1 < m.1 then m else b) with h | h
    · rw [h]
      split
      · exact .inr (List.mem_cons_self ..)
      · exact .inl rfl
    · exact .inr (List.mem_cons_of_mem _ h)

theorem chooseCopy_copiesAt {get : Nat → Nat} {row depth stop p : Nat} (hdepth : depth ≤ 64) (hp : p ≤ stop) {t : Token}
    (h : chooseCopy get row depth stop p = some t) : t.CopiesAt get row stop p := by
  unfold chooseCopy at h
  dsimp only at h
  split at h
  · next hbest =>
    obtain ⟨hlong, -⟩ := hbest
    cases h
    generalize hms : List.map _ _ = ms at hlong ⊢
    rcases foldl_best_mem ms (0, 0) with hbest | hbest
    · rw [hbest] at hlong
      omega
    · generalize ms.foldl _ (0, 0) = best at hlong hbest
      rw [← hms] at hbest
      simp only [List.mem_map, List.mem_filter, List.mem_range, decide_eq_true_eq] at hbest
      obtain ⟨d, ⟨⟨k, hk, rfl⟩, hrow⟩, rfl⟩ := hbest
      have hle := eqRun_le get (fun q => get (q - (k + 1) * row)) (min 4160 (stop - p)) p
      dsimp only at hlong ⊢
      exact ⟨by omega, by omega, by omega, by omega, by omega, hrow, fun i hi => get_of_lt_eqRun hi⟩
  · split at h
    · next hrun =>
      cases h
      have hle := eqRun_le get (fun _ => get p) (min 4160 (stop - p)) p
      exact ⟨by omega, by omega, by omega, fun i hi => get_of_lt_eqRun hi⟩
    · cases h

/-- How long a literal at p is: not past 4,160 elements nor the block's end. -/
theorem literalLength_le {p stop : Nat} (hp : p < stop) (f : Nat → Bool) :
    ((List.range 4160).find? (fun k => p + k + 1 = stop || k + 1 = 4160 || f k)).getD 0 + 1 ≤ min 4160 (stop - p) := by
  cases hfind : (List.range 4160).find? (fun k => p + k + 1 = stop || k + 1 = 4160 || f k) with
  | none =>
    rw [Option.getD_none]
    omega
  | some k =>
    obtain ⟨-, hk, hfirst⟩ := List.find?_range_eq_some.mp hfind
    have hk := List.mem_range.mp hk
    have hend : ¬ stop - p - 1 < k := fun hlt => by
      have hlast := hfirst _ hlt
      rw [decide_eq_true (show p + (stop - p - 1) + 1 = stop by omega)] at hlast
      exact Bool.noConfusion hlast
    rw [Option.getD_some]
    omega

/-! The block -/

theorem range_map_add (get : Nat → Nat) (p n : Nat) :
    (List.range p).map get ++ (List.range n).map (fun i => get (p + i)) = (List.range (p + n)).map get := by
  rw [List.range_add, List.map_append, List.map_map]
  rfl

/-- Elements of w bits read back one by one. -/
theorem bitsNat_element {get : Nat → Nat} {w p n : Nat} (hget : ∀ i < n, get (p + i) < 2 ^ w) (rest : List Bool) {i : Nat}
    (hi : i < n) :
    bitsNat ((((List.range n).flatMap (fun i => bitsOf w (get (p + i))) ++ rest).drop (i * w)).take w) = get (p + i) := by
  induction n generalizing p i with
  | zero => omega
  | succ n ih =>
    rw [List.range_succ_eq_map, List.flatMap_cons, List.flatMap_map, List.append_assoc]
    cases i with
    | zero =>
      rw [Nat.zero_mul, List.drop_zero, List.take_left' (length_bitsOf ..), bitsNat_bitsOf, Nat.mod_eq_of_lt (hget _ hi)]
    | succ i =>
      have hstep : p + 1 + i = p + (i + 1) := by omega
      rw [Nat.succ_mul, Nat.add_comm, List.drop_append, length_bitsOf, List.drop_of_length_le (by simp),
        Nat.add_sub_cancel_left, List.nil_append, ← hstep]
      have hshift : ∀ k, p + (k + 1) = p + 1 + k := by omega
      have hfun : (fun k => bitsOf w (get (p + (k + 1)))) = fun k => bitsOf w (get (p + 1 + k)) :=
        funext fun k => by rw [hshift]
      simp only [Nat.succ_eq_add_one, hfun]
      exact ih (fun j hj => (hshift j) ▸ hget (j + 1) (by omega)) (by omega)

theorem length_elements (get : Nat → Nat) (w p n : Nat) :
    ((List.range n).flatMap (fun i => bitsOf w (get (p + i)))).length = n * w := by
  simp [List.length_flatMap, List.map_const', List.sum_replicate_nat]

/-- A row copy repeats the elements from d rows before. -/
theorem copyElems_range {get : Nat → Nat} {dist p n : Nat} (hpos : 1 ≤ dist) (hdist : dist ≤ p)
    (hcopy : ∀ i < n, get (p + i) = get (p + i - dist)) :
    copyElems dist n ((List.range p).map get) = (List.range (p + n)).map get := by
  induction n generalizing p with
  | zero => rfl
  | succ n ih =>
    have hfirst : get p = get (p - dist) := by simpa using hcopy 0 (by omega)
    have hnext : (List.range p).map get ++
        [((List.range p).map get).getD (((List.range p).map get).length - dist) 0] = (List.range (p + 1)).map get := by
      have hlt : p - dist < p := by omega
      simp [List.range_succ, hfirst, List.getD, hlt]
    rw [copyElems, hnext, ih (by omega) fun i hi => by simpa [Nat.add_assoc, Nat.add_comm 1] using hcopy (i + 1) (by omega),
      Nat.add_assoc, Nat.add_comm 1]

/-- What is read of the tokens from p on, by induction over them. -/
theorem readBlock_tokens {st : FurrowState} {get : Nat → Nat} {depth stop : Nat} (hblock : st.block = 1)
    (hrow : 1 ≤ st.row) (hdepth : depth ≤ 64) (hget : ∀ q, q < stop → get q < 2 ^ (8 * st.esz)) (rest : List Bool)
    {fuel p : Nat} (hp : p ≤ stop) (hfuel : stop - p ≤ fuel) {steps : Nat} (hsteps : stop - p < steps) :
    readBlock st steps (tokensBits get (8 * st.esz) staticTable p (tokensFrom get st.row depth stop fuel p) ++
      (codeBits staticTable 24 ++ rest)) ((List.range p).map get) = some ((List.range stop).map get, rest) := by
  obtain ⟨steps, rfl⟩ : ∃ k, steps = k + 1 := ⟨steps - 1, by omega⟩
  have hesz : 0 < st.esz := Nat.two_pow_pos _
  -- The state as the decoder holds it here: RAW_POS counts the p elements that have come out.
  have hpos : ((List.range p).map get).length * st.esz / st.esz = p := by simp [hesz]
  have hopen : { st with rawPos := ((List.range p).map get).length * st.esz }.block = 1 := hblock
  induction fuel generalizing p steps with
  | zero =>
    obtain rfl : p = stop := by omega
    simp [tokensFrom, tokensBits, readBlock, parseToken_closes, hblock]
  | succ fuel ih =>
    rw [tokensFrom]
    split
    · obtain rfl : p = stop := by omega
      simp [tokensBits, readBlock, parseToken_closes, hblock]
    · next hlt =>
      have hnext : ∀ n, 1 ≤ n → p + n ≤ stop → ∀ steps, stop - p ≤ steps → readBlock st steps
          (tokensBits get (8 * st.esz) staticTable (p + n) (tokensFrom get st.row depth stop fuel (p + n)) ++
            (codeBits staticTable 24 ++ rest)) ((List.range (p + n)).map get) = some ((List.range stop).map get, rest) := by
        intro n h1 hn steps hsteps
        obtain ⟨steps, rfl⟩ : ∃ k, steps = k + 1 := ⟨steps - 1, by omega⟩
        exact ih hn (by omega) _ (by omega) (by simp [hesz]) hblock
      split
      · next t ht =>
        have hcopies := chooseCopy_copiesAt hdepth hp ht
        rw [tokensBits, List.append_assoc, readBlock]
        match t, hcopies with
        | .run n, ⟨h1, h2, hn, hsame⟩ =>
          rw [parseToken_run hopen _ _ _ h1 h2]
          have hw : ¬ (bitsOf (8 * st.esz) (get p) ++ (tokensBits get (8 * st.esz) staticTable (p + n)
            (tokensFrom get st.row depth stop fuel (p + n)) ++ (codeBits staticTable 24 ++ rest))).length < 8 * st.esz := by
            simp
          have hout : (List.range p).map get ++ List.replicate n (get p) = (List.range (p + n)).map get := by
            rw [← range_map_add, List.map_congr_left fun i hi => hsame i (List.mem_range.mp hi)]
            simp [List.map_const']
          simp only [Token.len, List.append_assoc] at hw ⊢
          refine (if_neg hw).trans ?_
          rw [List.take_left' (length_bitsOf ..), List.drop_left' (length_bitsOf ..), bitsNat_bitsOf,
            Nat.mod_eq_of_lt (hget p (by omega)), hout]
          exact hnext n h1 hn steps (by omega)
        | .row n d, ⟨h1, h2, hn, hd1, hd2, hrows, hsame⟩ =>
          rw [parseToken_row hopen _ _ _ h1 h2 hd1 hd2 (Nat.le_trans hrows (Nat.le_of_eq hpos.symm))]
          simp only [Token.len]
          rw [copyElems_range (Nat.mul_pos hd1 hrow) hrows hsame]
          exact hnext n h1 hn steps (by omega)
      · have hlen := literalLength_le (Nat.lt_of_not_le hlt) fun k =>
          (chooseCopy get st.row depth stop (p + k + 1)).isSome
        generalize hn : ((List.range 4160).find? _).getD 0 + 1 = n at hlen ⊢
        have h1 : 1 ≤ n := hn ▸ Nat.succ_pos _
        have helems : ∀ i < n, get (p + i) < 2 ^ (8 * st.esz) := fun i hi => hget _ (by omega)
        have hout : (List.range n).map (fun i => bitsNat ((((List.range n).flatMap (fun i => bitsOf (8 * st.esz)
            (get (p + i))) ++ (tokensBits get (8 * st.esz) staticTable (p + n) (tokensFrom get st.row depth stop fuel
            (p + n)) ++ (codeBits staticTable 24 ++ rest))).drop (i * (8 * st.esz))).take (8 * st.esz))) =
            (List.range n).map (fun i => get (p + i)) :=
          List.map_congr_left fun i hi => bitsNat_element helems _ (List.mem_range.mp hi)
        rw [tokensBits, List.append_assoc, readBlock, parseToken_lit hopen _ _ _ h1 (by omega)]
        simp only [Token.len, List.append_assoc] at hout ⊢
        rw [hout, range_map_add, List.drop_left' (length_elements ..)]
        refine (if_neg ?_).trans (hnext n h1 (by omega) steps (by omega))
        rw [List.length_append, length_elements]
        omega

end Sys2Proof.Machine

namespace Sys2Proof
open Sys2Proof.Machine

/-- Settles O57, by induction over the compressor's tokens. -/
theorem staticBlockReadsBack : Obligations.StaticBlockReadsBack := by
  unfold Obligations.StaticBlockReadsBack
  refine ⟨fun st get depth p stop rest hblock hrow hdepth hp hget => ?_, fun st get w p rest hblock => ⟨?_, ?_, ?_, ?_⟩⟩
  · rw [List.append_assoc]
    exact readBlock_tokens hblock hrow hdepth hget rest hp (Nat.le_refl _) (Nat.lt_succ_self _)
  · exact fun n h1 h2 => parseToken_lit hblock get w p h1 h2 rest
  · exact fun n h1 h2 => parseToken_run hblock get w p h1 h2 rest
  · exact fun n d h1 h2 hd1 hd2 hrows => parseToken_row hblock get w p h1 h2 hd1 hd2 hrows rest
  · exact parseToken_closes hblock rest

end Sys2Proof
end

section
/-! PROOFS. Power limits (spec/06 R537-R549): the step down of LIMIT_RATIO, and what each command of the chapter leaves. -/
namespace Sys2Proof.Machine

/-- A ratio above 2 goes down by one, and LIMIT_EVENTS counts it. -/
theorem stepDown_above {s : State} (h : 2 < s.get F.fenceStateLimitRatio) :
    stepDown s = refreshUrgent ((s.put F.fenceStateLimitRatio (s.get F.fenceStateLimitRatio - 1)).bump32
      R.fenceLimitEvents 1) :=
  if_neg (Nat.not_le.mpr h)

theorem stepDown_low {s : State} (h : s.get F.fenceStateLimitRatio ≤ 2) : stepDown s = s := if_pos h

end Sys2Proof.Machine

namespace Sys2Proof
open Sys2Proof.Machine

/-- Settles O22. -/
theorem powerLimits : Obligations.PowerLimits := by
  unfold Obligations.PowerLimits
  intro s
  refine ⟨fun mw hbloom hopen => ?_, fun mw hmw heven => ?_, fun mw hmw => ?_, fun hover => ?_,
    fun hlow hheld hratio => ?_, fun hpower => ?_, rfl, fun hratio => ?_, stepDown_low⟩
  · have hin : s.inBloom = true := by simp [State.inBloom, hbloom]
    intro c n
    refine ⟨?_, fun hlow => ?_⟩
    · simp only [exec, execPowerCapStep, hin, hopen, n, c, b2n, decide_eq_true_eq, Bool.not_true, Bool.false_eq_true,
        or_self, if_false]
    · dsimp only [n]
      split
      · omega
      · split <;> omega
  · have hrun : (s.fence.peakRun + 1) % 2 = 1 := by omega
    have hover : 15000 < mw := by omega
    have hlow : ¬ mw ≤ 14000 := by omega
    exact ⟨{ s with fence := { s.fence with
        peakRun := s.fence.peakRun + 1, overUs := s.fence.overUs + 1,
        sustained := s.fence.sustained && decide (15000 < mw), lowUs := 0 } },
      by simp [exec, execCurrentLimitSample, hmw, hover, hrun, hlow], rfl, rfl, rfl, rfl⟩
  · have hlow : ¬ 15000 < mw := by omega
    have hlow' : ¬ 18000 < mw := by omega
    simp [exec, execCurrentLimitSample, hlow, hlow']
  · simp [exec, execSustainedPowerExpiry, Nat.not_lt.mpr hover]
  · simp [exec, execLimitRatioRaise, Nat.not_lt.mpr hlow, hheld, Nat.not_le.mpr hratio]
  · refine ⟨_, by rw [exec, execUndervolt, if_neg (by omega)], ?_, ?_, rfl, rfl⟩
    · have hlt := s.get_lt F.fenceStateLimitRatio
      have hkeep : ∀ t : State, (t.bump F.fenceAvsUvEvents 1).get F.fenceStateLimitRatio = t.get F.fenceStateLimitRatio :=
        fun t => State.get_put_apart _ _ _ _ (by decide) (by decide)
      exact (hkeep _).trans ((State.get_put_same _ _ _ (by decide)).trans (Nat.mod_eq_of_lt (by omega)))
    · have hkeep : (s.put F.fenceStateLimitRatio (min 2 (s.get F.fenceStateLimitRatio))).get F.fenceAvsUvEvents =
          s.get F.fenceAvsUvEvents := State.get_put_apart _ _ _ _ (by decide) (by decide)
      exact (State.get_bump_same _ _ _ (by decide)).trans (by rw [hkeep]; rfl)
  · refine ⟨_, stepDown_above hratio, ?_, ?_, rfl⟩
    · have hlt := s.get_lt F.fenceStateLimitRatio
      exact (State.get_wr_ne _ _ _ _ (by decide)).trans ((State.get_put_same _ _ _ (by decide)).trans
        (Nat.mod_eq_of_lt (by omega)))
    · rw [State.rd_bump32_same, State.rd_put_ne _ _ _ _ (by decide), satAdd_eq_min]
      exact congrArg _ (Nat.min_comm ..)

end Sys2Proof
end

section
/-! PROOFS. The key-slot mailbox (spec/07 R189, R190): what its RESULT is, and what a commit leaves. -/
namespace Sys2Proof.Machine

/-- What each of several operations leaves, all of them leave. -/
theorem State.each_keeps {α β : Type} (g : State → β) (f : α → State → State) (h : ∀ a t, g (f a t) = g t) (l : List α)
    (s : State) : g (s.each l f) = g s := by
  induction l generalizing s with
  | nil => rfl
  | cons a l ih => exact (ih (f a s)).trans (h a s)

/-! The shed's own operations change registers and memory only -/

@[simp] theorem refreshDirty_fw (s : State) : (refreshDirty s).fw = s.fw := by
  rw [refreshDirty]
  exact State.each_keeps State.fw _ (fun _ _ => State.fw_put ..) _ _

@[simp] theorem dropLine_fw (pa : Nat) (s : State) : (dropLine pa s).fw = s.fw := refreshDirty_fw _

@[simp] theorem writeBack_fw (l : ShedLine) (s : State) : (writeBack l s).fw = s.fw := by
  unfold writeBack
  dsimp only
  split
  · exact refreshDirty_fw _
  · rfl

@[simp] theorem evict_fw (l : ShedLine) (s : State) : (evict l s).fw = s.fw := by
  unfold evict
  dsimp only
  split
  · split
    · exact writeBack_fw l s
    · exact (dropLine_fw _ _).trans (writeBack_fw l s)
  · exact writeBack_fw l s

@[simp] theorem flushKeys_fw (affected : Nat → Bool) (s : State) : (flushKeys affected s).fw = s.fw :=
  State.each_keeps State.fw _ evict_fw _ _

/-! The mailbox -/

@[simp] theorem setEvent_fw (b : Nat) (s : State) : (setEvent b s).fw = s.fw := by
  obtain ⟨x, e | e⟩ := setEvent_effect b s <;> rw [e] <;> rfl

theorem setEvent_rd (b : Nat) (s : State) (o : Nat) (h : o ≠ R.hostqEventCause) : (setEvent b s).rd o = s.rd o := by
  obtain ⟨x, e | e⟩ := setEvent_effect b s
  · rw [e]; rfl
  · rw [e]; exact State.rd_wr_ne _ _ _ _ h

theorem keymbResult_eq (w : Writer) (key : BitVec 16) (op slot : Nat) (s : State) :
    keymbResult w key.toNat op slot s =
      if key ≠ 0x4E7B ∨ isPf0 w = false ∨ s.hasToken w = false ∨ s.get F.bootKeymbStatusBusy = 1 then 1
      else if s.power ≠ 0 then 2 else if op ≠ 3 ∧ slot = 0 then 3 else if s.isOpen 0 = false then 6 else 0 := by
  have hkey : key.toNat = 0x4E7B ↔ key = 0x4E7B := by rw [← BitVec.toNat_inj]; rfl
  simp [keymbResult, hkey, State.inBloom]

/-- A mailbox write that R189 refuses shows its RESULT alone. -/
theorem keymbCommand_refused {w key op slot s} (act : State → State) (h : keymbResult w key op slot s ≠ 0) :
    keymbCommand w key op slot act s = s.put F.bootKeymbStatusResult (keymbResult w key op slot s) := if_pos h

theorem keymbCommand_carried {w key op slot s} (act : State → State) (h : keymbResult w key op slot s = 0) :
    keymbCommand w key op slot act s = act (noteOrigin 3 w s) := if_neg (Classical.not_not.mpr h)

theorem finishKeymb_result (r : Nat) (s : State) : (finishKeymb r s).get F.bootKeymbStatusResult = r % 8 := by
  rw [finishKeymb, setEvent_get _ _ _ (by decide)]
  exact State.get_puts_last s [] _ _ _ (by decide) (by decide)

theorem finishKeymb_done (r : Nat) (s : State) : (finishKeymb r s).get F.bootKeymbStatusDone = 1 := by
  rw [finishKeymb, setEvent_get _ _ _ (by decide)]
  exact State.get_puts_last s [_] [] _ _ (by decide) (by decide)

@[simp] theorem finishKeymb_fw (r : Nat) (s : State) : (finishKeymb r s).fw = s.fw := by simp [finishKeymb]

@[simp] theorem finishKeymb_mem (r : Nat) (s : State) : (finishKeymb r s).mem = s.mem := by simp [finishKeymb]

theorem finishKeymb_rd (r : Nat) (s : State) (o : Nat) (hstatus : o ≠ R.bootKeymbStatus) (hevent : o ≠ R.hostqEventCause) :
    (finishKeymb r s).rd o = s.rd o := by
  rw [finishKeymb, setEvent_rd _ _ _ hevent]
  exact State.rd_puts_ne _ _ _ (by simpa using ⟨hstatus, hstatus⟩)

/-- After a commit the channels hold what the retention store holds. -/
theorem commitKeys_keys (affected : Nat → Bool) (new : List (Nat × List Byte × List Byte)) (s : State) :
    (commitKeys affected new s).mem.keys = (commitKeys affected new s).fw.keyStore := rfl

theorem commitKeys_keyStore (affected : Nat → Bool) (new : List (Nat × List Byte × List Byte)) (s : State) :
    (commitKeys affected new s).fw.keyStore = new ++ s.fw.keyStore.filter (fun e => !affected e.1) := by
  rw [← flushKeys_fw affected s]
  rfl

end Sys2Proof.Machine

namespace Sys2Proof
open Sys2Proof.Machine

/-- Settles O28. -/
theorem keyMailbox : Obligations.KeyMailbox := by
  unfold Obligations.KeyMailbox
  intro s w key slot hreach r
  have hslot : slot.toNat = 0 ↔ slot = 0 := by rw [← BitVec.toNat_inj]; rfl
  have hload : keymbResult w key.toNat 1 slot.toNat s = r true := by simp [r, keymbResult_eq, hslot]
  have hclear : keymbResult w key.toNat 2 slot.toNat s = r true := by simp [r, keymbResult_eq, hslot]
  have hall : keymbResult w key.toNat 3 0 s = r false := by simp [r, keymbResult_eq]
  simp only [exec, execKeymbLoad, execKeymbClear, execKeymbClearAll, writeAccess_serve hreach]
  refine ⟨fun h => ⟨?_, ?_⟩, fun h => ?_, fun h => ?_, fun h => ?_, fun h m s1 hread => ⟨fun heq => ?_, fun hne => ?_⟩⟩
  · rw [keymbCommand_refused _ (hload ▸ h), hload]
  · rw [keymbCommand_refused _ (hclear ▸ h), hclear]
  · rw [keymbCommand_refused _ (hall ▸ h), hall]
  · rw [keymbCommand_carried _ (hclear.trans h)]
    refine ⟨_, rfl, finishKeymb_result _ _, finishKeymb_done _ _, ?_, ?_⟩
    · rw [finishKeymb_fw, commitKeys_keyStore]
      simp [noteOrigin, Bool.beq_eq_decide_eq]
    · rw [finishKeymb_fw, finishKeymb_mem, commitKeys_keys]
  · rw [keymbCommand_carried _ (hall.trans h)]
    refine ⟨_, rfl, finishKeymb_result _ _, fun e he => ?_⟩
    rw [finishKeymb_mem, commitKeys_keys, commitKeys_keyStore, List.nil_append, List.mem_filter] at he
    simpa using he.2
  · rw [keymbCommand_carried _ (hload.trans h), loadKey]
    simp only [hread, heq, if_true]
  · rw [keymbCommand_carried _ (hload.trans h), loadKey]
    simp only [hread, hne, if_false]
    refine ⟨_, rfl, finishKeymb_result _ _, finishKeymb_done _ _, ?_, ?_, ?_⟩
    · rw [finishKeymb_fw, finishKeymb_mem, State.mem_wr, State.fw_wr, commitKeys_keys]
    · rw [finishKeymb_rd _ _ _ (by decide) (by decide), State.rd_wr_same]
    · refine ⟨_, ?_, rfl⟩
      rw [finishKeymb_fw, State.fw_wr, commitKeys_keyStore, flushKeys_fw]
      simp [Bool.beq_eq_decide_eq]

end Sys2Proof
end

section
/-! PROOFS. The heartbeat and the control token (spec/08 R220-R222): what a move of the token leaves. -/
namespace Sys2Proof.Machine

/-- HOLDER, HOW, lease 5 and the heartbeat after the token has moved. -/
theorem moveToken_fields (holder how : Nat) (s : State) :
    (moveToken holder how s).get (F.fenceLeaseHolder 5) = (if holder = 0 then 60 else 2) ∧
      (moveToken holder how s).get F.hostqHeartbeatArmed = 0 := by
  have hlast : ∀ g : Field, g.off ≠ R.hostqEventCause → (moveToken holder how s).get g = (s.puts
      [(F.fenceLeaseHolder 5, if holder = 0 then 60 else 2),
        (F.fenceLeaseEpoch 5, s.epoch (if holder = 0 then 60 else 2)), (F.hostqTokenHolder, holder),
        (F.hostqTokenHow, how), (F.hostqHeartbeatArmed, 0)]).get g := fun g hg => setEvent_get _ _ _ hg
  refine ⟨(hlast _ (by decide)).trans ?_, (hlast _ (by decide)).trans ?_⟩
  · refine (State.get_puts_last s [] _ _ _ (by decide) rfl).trans ?_
    split <;> rfl
  · exact State.get_puts_last s [_, _, _, _] [] _ _ (by decide) rfl

/-- A move touches the lease, the token, the heartbeat and the event cause alone. -/
theorem moveToken_get (holder how : Nat) (s : State) (g : Field) (h : g.off ∉ [R.fenceLease 5, R.hostqToken,
    R.hostqHeartbeat, R.hostqEventCause]) : (moveToken holder how s).get g = s.get g := by
  simp only [List.mem_cons, List.not_mem_nil, or_false, not_or] at h
  obtain ⟨hlease, htoken, hbeat, hevent⟩ := h
  rw [moveToken, setEvent_get _ _ _ hevent]
  exact congrArg (getBits · g.lo g.width) (State.rd_puts_ne s _ _ (by simpa using ⟨hlease, hlease, htoken, htoken, hbeat⟩))

/-- What a move of the token leaves of s: HOLDER, HOW, the lease, the heartbeat disarmed, the islands as they were. -/
theorem moveToken_moves {holder how : Nat} (hholder : holder < 2) (hhow : how < 4) (s : State) :
    let t := moveToken holder how s
    t.get F.hostqTokenHolder = holder ∧ t.get F.hostqTokenHow = how ∧
      t.get (F.fenceLeaseHolder 5) = (if holder = 0 then 60 else 2) ∧ t.get F.hostqHeartbeatArmed = 0 ∧
      t.mem = s.mem ∧ t.plan = s.plan ∧ t.boot = s.boot ∧ ∀ n, n < 72 → t.hedge n = s.hedge n ∧ t.epoch n = s.epoch n := by
  obtain ⟨hlease, harmed⟩ := moveToken_fields holder how s
  have hisland : ∀ n, n < 72 → R.islandState n ∉ [R.fenceLease 5, R.hostqToken, R.hostqHeartbeat, R.hostqEventCause] :=
    fun n hn => by
      simp only [R.islandState, R.fenceLease, R.hostqToken, R.hostqHeartbeat, R.hostqEventCause, List.mem_cons,
        List.not_mem_nil, or_false]
      omega
  refine ⟨(moveToken_holder ..).trans (Nat.mod_eq_of_lt ?_), (moveToken_how ..).trans (Nat.mod_eq_of_lt hhow), hlease,
    harmed, moveToken_mem .., setEvent_plan .., setEvent_boot .., fun n hn => ⟨?_, ?_⟩⟩
  · exact Nat.lt_of_lt_of_le hholder (by decide)
  · exact moveToken_get _ _ _ _ (hisland n hn)
  · exact moveToken_get _ _ _ _ (hisland n hn)

end Sys2Proof.Machine

namespace Sys2Proof
open Sys2Proof.Machine

/-- Settles O32. -/
theorem tokenMoves : Obligations.TokenMoves := by
  unfold Obligations.TokenMoves
  intro s moved
  refine ⟨fun hreach => ?_, fun ⟨harmed, hholder, hpower⟩ => ?_, fun hnot => ?_, fun hreach => ?_⟩
  · refine ⟨beat s, congrArg _ (writeAccess_serve hreach _ _), ?_, ?_, rfl, fun o ho => ?_⟩
    · exact State.get_puts_last s [] [_] _ _ (by decide) (by decide)
    · exact State.get_puts_last s [_] [] _ _ (by decide) (by decide)
    · exact State.rd_puts_ne s _ _ (by simpa using ⟨ho, ho⟩)
  · have hin : s.inBloom = true := by simp [State.inBloom, hpower]
    refine ⟨_, ?_, moveToken_moves (holder := 1) (how := 2) (by decide) (by decide) s⟩
    rw [exec, execHeartbeatLapse, if_pos ⟨harmed, hholder, hin⟩]
  · have hin : s.inBloom = true ↔ s.power = 0 := by simp [State.inBloom]
    rw [exec, execHeartbeatLapse, if_neg (by rwa [hin])]
  · intro holder how
    have hwrite : ∀ key op, tokenAccess (.host 0) key op s = writeToken true key op s := fun key op => by
      simp [tokenAccess, writeAccess_serve hreach]
    have hkey : ∀ key : BitVec 16, key ≠ 0x70C3 → key.toNat ≠ 0x70C3 := fun key h he =>
      h (BitVec.eq_of_toNat_eq he)
    have hresult : ∀ (h w : Nat), h < 2 → w < 4 → ((moveToken h w s).put F.hostqTokenResult 0).get F.hostqTokenResult = 0 ∧
        moved h w ((moveToken h w s).put F.hostqTokenResult 0) := fun h w hh hw => by
      have hkeep : ∀ g : Field, apart F.hostqTokenResult g = true →
          ((moveToken h w s).put F.hostqTokenResult 0).get g = (moveToken h w s).get g :=
        fun g hg => State.get_put_apart _ _ _ _ (by decide) hg
      obtain ⟨hholder, hhow, hlease, harmed, hmem, hplan, hboot, hisl⟩ := moveToken_moves hh hw s
      refine ⟨State.get_put_same _ _ _ (by decide), (hkeep _ (by decide)).trans hholder, (hkeep _ (by decide)).trans hhow,
        (hkeep _ (by decide)).trans hlease, (hkeep _ (by decide)).trans harmed, hmem, hplan, hboot, fun n hn => ?_⟩
      have hapart : R.islandState n ≠ R.hostqToken := by
        simp only [R.islandState, R.hostqToken]
        omega
      obtain ⟨hhedge, hepoch⟩ := hisl n hn
      exact ⟨(State.get_wr_ne _ _ _ _ hapart).trans hhedge, (State.get_wr_ne _ _ _ _ hapart).trans hepoch⟩
    simp only [exec, execGrant, execReclaim, hwrite]
    refine ⟨fun key hne => ?_, fun h => ?_, fun h => ?_, fun h => ?_, fun h hhow => ?_, fun h hhow => ?_⟩
    · simp [writeToken, hkey key hne]
    · simp only [holder] at h
      simp [writeToken, h]
    · simp only [holder] at h
      refine ⟨_, rfl, ?_⟩
      simpa [writeToken, h] using hresult 1 1 (by decide) (by decide)
    · simp only [holder] at h
      simp [writeToken, h]
    · simp only [holder, how] at h hhow
      simp [writeToken, h, hhow]
    · simp only [holder, how] at h hhow
      refine ⟨_, rfl, ?_⟩
      rcases hhow with hhow | hhow <;> simpa [writeToken, h, hhow] using hresult 0 0 (by decide) (by decide)

end Sys2Proof
end

section
/-! PROOFS. Doorbells (spec/08 R210, R211): a ring's event, a ring that halts, and a tail or head that is taken. -/
namespace Sys2Proof.Machine

/-- A ring's event changes HOSTQ_EVENT_CAUSE and the host interface at most. -/
theorem setRingEvent_get (f : Nat) (s : State) (g : Field) (h : g.off ≠ R.hostqEventCause) :
    (setRingEvent f s).get g = s.get g := by
  unfold setRingEvent
  split
  · exact setEvent_get _ _ _ h
  · dsimp only
    split
    · rfl
    · split
      · exact sendMsi_get ..
      · rfl

@[simp] theorem sendMsi_mem (f v : Nat) (s : State) : (sendMsi f v s).mem = s.mem := by
  obtain ⟨h, e⟩ := sendMsi_host f v s
  rw [e]

@[simp] theorem setRingEvent_mem (f : Nat) (s : State) : (setRingEvent f s).mem = s.mem := by
  unfold setRingEvent
  split
  · exact setEvent_mem ..
  · dsimp only
    split
    · rfl
    · split
      · exact sendMsi_mem ..
      · rfl

theorem sqRegisters_ne_eventCause (r : Nat) : R.sqStatus r ≠ R.hostqEventCause ∧ R.sqTail r ≠ R.hostqEventCause ∧
    R.cqStatus r ≠ R.hostqEventCause := by
  simp only [R.sqStatus, R.sqTail, R.cqStatus, R.hostqEventCause]
  omega

/-- A submission ring that halts shows HALTED and the reason, and keeps its tail. -/
theorem haltSq_halts (r reason : Nat) (h : reason < 16) (s : State) :
    (haltSq r reason s).get (F.sqStatusState r) = RING_HALTED ∧ (haltSq r reason s).get (F.sqStatusHaltReason r) = reason ∧
      (haltSq r reason s).get (F.sqTailValue r) = s.get (F.sqTailValue r) ∧ (haltSq r reason s).mem = s.mem := by
  obtain ⟨hstatus, htail, -⟩ := sqRegisters_ne_eventCause r
  have hne : R.sqTail r ≠ R.sqStatus r := by
    simp only [R.sqTail, R.sqStatus]
    omega
  unfold haltSq
  refine ⟨(setRingEvent_get _ _ _ hstatus).trans ?_, (setRingEvent_get _ _ _ hstatus).trans ?_,
    (setRingEvent_get _ _ _ htail).trans ?_, by simp⟩
  · exact State.get_puts_last s [] [_] _ _ rfl (by simp [fits, apart, F.sqStatusHaltReason, F.sqStatusState])
  · exact (State.get_puts_last s [_] [] _ _ rfl rfl).trans (Nat.mod_eq_of_lt h)
  · exact congrArg (getBits · _ _) (State.rd_puts_ne _ _ _ (by simpa using ⟨hne, hne⟩))

/-- A completion ring that halts shows HALTED and the reason. -/
theorem haltCq_halts (r reason : Nat) (h : reason < 16) (s : State) :
    (haltCq r reason s).get (F.cqStatusState r) = RING_HALTED ∧ (haltCq r reason s).get (F.cqStatusHaltReason r) = reason ∧
      (haltCq r reason s).mem = s.mem := by
  obtain ⟨-, -, hstatus⟩ := sqRegisters_ne_eventCause r
  have hne : R.cqStatus r ≠ R.cqCount r := by
    simp only [R.cqStatus, R.cqCount]
    omega
  unfold haltCq
  refine ⟨(setRingEvent_get _ _ _ hstatus).trans ?_, (setRingEvent_get _ _ _ hstatus).trans ?_, by simp⟩
  · exact (State.get_wr_ne _ _ _ _ hne).trans
      (State.get_puts_last s [] [_] _ _ rfl (by simp [fits, apart, F.cqStatusHaltReason, F.cqStatusState]))
  · exact (State.get_wr_ne _ _ _ _ hne).trans
      ((State.get_puts_last s [_] [] _ _ rfl rfl).trans (Nat.mod_eq_of_lt h))

/-- A completion ring that nothing waits for has nothing to drain. -/
theorem drainCq_idle {r n : Nat} {s : State} (h : ∀ c ∈ s.host.waiting, c.cq ≠ r) : drainCq r n s = s := by
  have hnone : s.host.waiting.find? (fun c => c.cq = r) = none := List.find?_eq_none.mpr (by simpa using h)
  cases n with
  | zero => rfl
  | succ n => simp [drainCq, hnone]

end Sys2Proof.Machine

namespace Sys2Proof
open Sys2Proof.Machine

/-- Settles O29. -/
theorem doorbellRules : Obligations.DoorbellRules := by
  unfold Obligations.DoorbellRules
  intro s fn ring v hpower hhost hsafe hhold hshut
  have hsq : exec (.sqDoorbell fn ring v) s = .next (doorbell fn false ring v.toNat false s) :=
    congrArg _ (bar2Access_serve fn _ _ hpower hhost hsafe hhold hshut)
  have hcq : exec (.cqDoorbell fn ring v) s = .next (doorbell fn true ring v.toNat false s) :=
    congrArg _ (bar2Access_serve fn _ _ hpower hhost hsafe hhold hshut)
  rw [hsq, hcq]
  refine ⟨fun h => ?_, fun h => ?_, fun howner hstate hdark => ?_, fun howner hstate hopen => ?_,
    fun howner hstate => ?_⟩
  · rcases h with h | h <;> simp [doorbell, ringTail, h]
  · rcases h with h | h <;> simp [doorbell, ringHead, h]
  · simp [doorbell, ringTail, howner, hstate, hdark]
  · have htake : doorbell fn false ring v.toNat false s = takeTail ring v.toNat s.timeUs false s.arrivalReasons s := by
      simp [doorbell, ringTail, howner, hstate, hopen]
    rw [htake]
    intro size old fwd bad
    refine ⟨fun hbad => ⟨_, congrArg _ (if_pos hbad), haltSq_halts _ _ (by decide) _⟩, fun hgood heq => ?_,
      fun hgood hne => ?_⟩
    · exact congrArg _ ((if_neg hgood).trans (if_pos heq))
    · refine ⟨_, congrArg _ ((if_neg hgood).trans (if_neg hne)), ?_, ⟨_, rfl, rfl, rfl, rfl⟩, fun o ho => ?_⟩
      · exact (State.get_put_same _ _ _ rfl).trans (Nat.mod_eq_of_lt v.isLt)
      · exact State.rd_put_ne _ _ _ _ ho
  · intro size fwd bad
    have hring : doorbell fn true ring v.toNat false s = if bad then haltCq ring 1 s
        else drainCq ring s.host.waiting.length (s.put (F.cqHeadValue ring) v.toNat) := by
      simp only [doorbell, ringHead, howner, hstate, if_true, ne_eq, not_true_eq_false, if_false]
      rfl
    rw [hring]
    refine ⟨fun hbad => ⟨_, congrArg _ (if_pos hbad), haltCq_halts _ _ (by decide) _⟩, fun hgood hwait => ?_⟩
    rw [if_neg hgood, drainCq_idle (s := s.put _ _) hwait]

end Sys2Proof
end

section
/-! PROOFS. Packets of the management port (spec/09 R229-R233): one packet of a response, and the packets of a message by
induction over them. -/
namespace Sys2Proof.Machine

/-- One packet of a response (R231): eight header bytes, its payload and the PEC. -/
def respPacket (who : Requester) (own eid seq : Nat) (first last : Bool) (pay : List Byte) : List Byte :=
  let p := [byteOf (2 * who.addr.toNat), 0x0F, byteOf (pay.length + 5), byteOf (2 * own + 1), 0x01,
    who.eid.zeroExtend 8, byteOf eid,
    byteOf ((if first then 128 else 0) + (if last then 64 else 0) + 16 * (seq % 4) + who.tag.toNat)] ++ pay
  p ++ [byteOf (crc8 p)]

theorem respPackets_succ (who : Requester) (own eid fuel seq : Nat) (first : Bool) (m : List Byte) :
    respPackets who own eid (fuel + 1) seq first m =
      respPacket who own eid seq first (decide (m.length ≤ 64)) (m.take 64) ::
        if m.length ≤ 64 then [] else respPackets who own eid fuel (seq + 1) false (m.drop 64) := by
  simp [respPackets, respPacket]

/-- What a packet of at most 64 payload bytes holds. -/
theorem respPacket_layout (who : Requester) (own eid seq : Nat) (first last : Bool) (pay : List Byte) (hpay : pay.length ≤ 64) :
    let p := respPacket who own eid seq first last pay
    (p.drop 8).dropLast = pay ∧ 9 ≤ p.length ∧ p.length ≤ 73 ∧ p.getLast? = some (BitVec.ofNat 8 (crc8 p.dropLast)) ∧
      p.getD 0 0 = BitVec.ofNat 8 (2 * who.addr.toNat) ∧ p.getD 5 0 = who.eid ∧ p.getD 6 0 = BitVec.ofNat 8 eid ∧
      (bit (p.getD 7 0).toNat 7 = true ↔ first = true) ∧ (bit (p.getD 7 0).toNat 6 = true ↔ last = true) := by
  have htag := who.tag.isLt
  intro p
  have hflags : (p.getD 7 0).toNat = (if first then 128 else 0) + (if last then 64 else 0) + 16 * (seq % 4) + who.tag.toNat := by
    have hlt : (if first then 128 else 0) + (if last then 64 else 0) + 16 * (seq % 4) + who.tag.toNat < 2 ^ 8 := by
      split <;> split <;> omega
    exact (BitVec.toNat_ofNat _ _).trans (Nat.mod_eq_of_lt hlt)
  refine ⟨?_, ?_, ?_, ?_, rfl, ?_, rfl, ?_, ?_⟩
  · simp [p, respPacket]
  · simp [p, respPacket]
  · simp [p, respPacket]
    omega
  · rw [show p = _ ++ [_] from rfl, List.getLast?_concat, List.dropLast_concat]
    rfl
  · simp [p, respPacket]
  · rw [hflags, bit, decide_eq_true_eq]
    cases first <;> cases last <;> simp <;> omega
  · rw [hflags, bit, decide_eq_true_eq]
    cases first <;> cases last <;> simp <;> omega

/-- The packets of a message: their payloads are the message, the first alone carries SOM, the last alone EOM. -/
theorem respPackets_layout (who : Requester) (own eid : Nat) (fuel seq : Nat) (first : Bool) (m : List Byte)
    (hm : m.length ≤ 64 * fuel) (hfuel : 0 < fuel) :
    let ps := respPackets who own eid fuel seq first m
    ps ≠ [] ∧ (ps.map (fun p => (p.drop 8).dropLast)).flatten = m ∧
    ∀ i, ∀ p, ps[i]? = some p →
      9 ≤ p.length ∧ p.length ≤ 73 ∧ p.getLast? = some (BitVec.ofNat 8 (crc8 p.dropLast)) ∧
      p.getD 0 0 = BitVec.ofNat 8 (2 * who.addr.toNat) ∧ p.getD 5 0 = who.eid ∧ p.getD 6 0 = BitVec.ofNat 8 eid ∧
      (bit (p.getD 7 0).toNat 7 = true ↔ first = true ∧ i = 0) ∧ (bit (p.getD 7 0).toNat 6 = true ↔ i + 1 = ps.length) := by
  induction fuel generalizing seq first m with
  | zero => omega
  | succ fuel ih =>
    intro ps
    have htake : (m.take 64).length ≤ 64 := List.length_take_le ..
    obtain ⟨hpay, hmin, hmax, hpec, haddr, hdest, hsrc, hsom, heom⟩ :=
      respPacket_layout who own eid seq first (decide (m.length ≤ 64)) (m.take 64) htake
    have hps : ps = _ := respPackets_succ ..
    by_cases hlast : m.length ≤ 64
    · rw [if_pos hlast] at hps
      refine ⟨by simp [hps], ?_, fun i p hp => ?_⟩
      · simp only [hps, List.map_cons, List.map_nil, List.flatten_cons, List.flatten_nil, hpay, List.append_nil]
        exact List.take_of_length_le hlast
      · rw [hps] at hp
        obtain rfl : i = 0 := by
          refine Classical.byContradiction fun hi => ?_
          simp [List.getElem?_cons, hi] at hp
        cases hp
        exact ⟨hmin, hmax, hpec, haddr, hdest, hsrc, hsom.trans (by simp), heom.trans (by simp [hps, hlast])⟩
    · rw [if_neg hlast] at hps
      obtain ⟨hne, hflat, hall⟩ := ih (seq + 1) false (m.drop 64) (by simp; omega) (by omega)
      refine ⟨by simp [hps], ?_, fun i p hp => ?_⟩
      · rw [hps, List.map_cons, List.flatten_cons, hpay, hflat, List.take_append_drop]
      · rw [hps] at hp
        cases i with
        | zero =>
          cases hp
          exact ⟨hmin, hmax, hpec, haddr, hdest, hsrc, hsom.trans (by simp),
            heom.trans (by simpa [hps, hlast] using hne)⟩
        | succ i =>
          obtain ⟨hmin, hmax, hpec, haddr, hdest, hsrc, hsom, heom⟩ := hall i p hp
          exact ⟨hmin, hmax, hpec, haddr, hdest, hsrc, hsom.trans (by simp), heom.trans (by simp [hps])⟩

end Sys2Proof.Machine

namespace Sys2Proof
open Sys2Proof.Machine

/-- Settles O34. -/
theorem portPackets : Obligations.PortPackets := by
  unfold Obligations.PortPackets
  refine ⟨fun who own eid m _ hm => ?_, fun s => ⟨fun bs hopen haddr hbad => ?_, fun bs haddr => ?_, fun x hx => ?_,
    fun r rest hsent => ⟨fun hlost => ?_, fun hlost => ?_⟩, fun hopen => ?_, fun hopen => ?_⟩⟩
  · simpa using respPackets_layout who own eid 32 0 true m hm (by decide)
  · rw [exec, execSmbusPacket, if_neg (not_or.mpr ⟨by simp [hopen], Classical.not_not.mpr haddr⟩), if_pos hbad]
  · rw [exec, execSmbusPacket, if_pos (.inr haddr)]
  · rw [exec, execMctpReassemblyTimeout, if_pos (List.any_eq_true.mpr ⟨x, hx, by simp⟩)]
    rfl
  · simp [exec, execArbitrationRetry, hsent, hlost]
  · simp [exec, execArbitrationRetry, hsent, Nat.not_lt.mpr hlost]
  · simp [exec, execAlertResponse, hopen]
  · simp [exec, execAddressMatch, hopen]

end Sys2Proof
end

section
/-! PROOFS. The shed (spec/10 R248-R268): what its operations on lines leave, a hit, and the accesses that wait. -/
namespace Sys2Proof.Machine

/-! Lines -/

@[simp] theorem refreshDirty_mem (s : State) : (refreshDirty s).mem = s.mem := by
  rw [refreshDirty]
  exact State.each_keeps State.mem _ (fun _ _ => State.mem_put ..) _ _

theorem refreshDirty_writeThrough (sl : Nat) (s : State) :
    (refreshDirty s).get (F.shedStatusWriteThrough sl) = s.get (F.shedStatusWriteThrough sl) := by
  rw [refreshDirty]
  refine State.each_keeps (·.get (F.shedStatusWriteThrough sl)) _ (fun k t => ?_) _ _
  exact State.get_put_apart _ _ _ _ rfl (by simp [apart, F.shedStatusDirtyLines, F.shedStatusWriteThrough])

theorem putLine_line (l : ShedLine) (s : State) (b : Nat) :
    (putLine l s).line b = if b = l.pa then some l else s.line b := by
  have hlines : (putLine l s).mem.lines = l :: s.mem.lines.filter (fun x => x.pa ≠ l.pa) := by simp [putLine]
  rw [State.line, hlines, List.find?_cons]
  by_cases hb : b = l.pa
  · simp [hb]
  · simp only [Ne.symm hb, decide_false, hb, if_false, State.line, List.find?_filter]
    refine find_congr fun x _ => ?_
    by_cases hx : x.pa = b
    · simp [hx, hb]
    · simp [hx]

@[simp] theorem putLine_dram (l : ShedLine) (s : State) : (putLine l s).mem.dram = s.mem.dram := by simp [putLine]

theorem putLine_writeThrough (l : ShedLine) (s : State) (sl : Nat) :
    (putLine l s).get (F.shedStatusWriteThrough sl) = s.get (F.shedStatusWriteThrough sl) :=
  refreshDirty_writeThrough ..

theorem State.line_pa {s : State} {b : Nat} {l : ShedLine} (h : s.line b = some l) : l.pa = b := by
  simpa using List.find?_some h

/-- What a hit leaves (R256, R268): it is counted, and the line is no longer marked as prefetched. -/
def afterHit (l : ShedLine) (sl : Nat) (s : State) : State :=
  if l.prefetched then
    putLine { l with prefetched := false } ((s.bump32 (R.shedHits sl) 1).bump (F.shedPrefetchUsed sl) 1)
  else s.bump32 (R.shedHits sl) 1

/-- A line held under the request's own selector is a hit. -/
theorem lookupLine_hit {q : Req} {pa : Nat} {s : State} {l : ShedLine} (hl : s.line pa = some l) (hkey : l.key = q.key)
    (hshut : s.isShut (52 + s.sliceOf pa) = false) (hready : s.keyReady q.key = true) :
    lookupLine q pa s = (.ok (some { l with prefetched := false }), afterHit l (s.sliceOf pa) s) := by
  have hpre : (.ok (some { l with prefetched := false }), if l.prefetched then
      putLine { l with prefetched := false } ((s.bump32 (R.shedHits (s.sliceOf pa)) 1).when l.prefetched
        (fun t => t.bump (F.shedPrefetchUsed (s.sliceOf pa)) 1))
      else (s.bump32 (R.shedHits (s.sliceOf pa)) 1).when l.prefetched
        (fun t => t.bump (F.shedPrefetchUsed (s.sliceOf pa)) 1)) =
      ((.ok (some { l with prefetched := false }), afterHit l (s.sliceOf pa) s) :
        Except MemErr (Option ShedLine) × State) := by
    rw [afterHit]
    cases l.prefetched <;> rfl
  rw [← hpre]
  simp only [lookupLine, hshut, hready, hl, hkey, ne_eq, not_true_eq_false, false_and, if_false, Bool.false_eq_true,
    Bool.not_true]

@[simp] theorem afterHit_dram (l : ShedLine) (sl : Nat) (s : State) : (afterHit l sl s).mem.dram = s.mem.dram := by
  unfold afterHit
  split <;> simp

/-- Where the line held is found, another line is as it was. -/
theorem afterHit_line {l : ShedLine} {s : State} (sl : Nat) (hl : s.line l.pa = some l) (b : Nat) :
    (afterHit l sl s).line b = if b = l.pa then some { l with prefetched := false } else s.line b := by
  unfold afterHit
  split
  · exact putLine_line ..
  · next h =>
    have hsame : { l with prefetched := false } = l := by
      rw [Bool.not_eq_true] at h
      rw [← h]
    rw [hsame]
    split
    · next hb => exact hb ▸ hl
    · rfl

theorem afterHit_writeThrough (l : ShedLine) (sl : Nat) (s : State) (k : Nat) :
    (afterHit l sl s).get (F.shedStatusWriteThrough k) = s.get (F.shedStatusWriteThrough k) := by
  have hhits : (s.bump32 (R.shedHits sl) 1).get (F.shedStatusWriteThrough k) = s.get (F.shedStatusWriteThrough k) :=
    State.get_wr_ne _ _ _ _ (by
      simp only [F.shedStatusWriteThrough, R.shedStatus, R.shedHits]
      omega)
  unfold afterHit
  split
  · refine (putLine_writeThrough ..).trans ((State.get_wr_ne _ _ _ _ ?_).trans hhits)
    simp only [F.shedStatusWriteThrough, F.shedPrefetchUsed, R.shedStatus, R.shedPrefetch]
    omega
  · exact hhits

/-! Accesses of a line that is held -/

theorem readFrom_clean {l : ShedLine} (h0 : l.poison0 = false) (h1 : l.poison1 = false) (o n : Nat) (s : State) :
    readFrom l o n s = (.ok ((l.data.drop o).take n), s) := by simp [readFrom, h0, h1]

/-- The bytes of a line after a write inside it. -/
theorem patchBytes_layout (d : List Byte) (o : Nat) (bs : List Byte) (h : o + bs.length ≤ d.length) :
    ((patchBytes d o bs).drop o).take bs.length = bs ∧ (patchBytes d o bs).take o = d.take o ∧
      (patchBytes d o bs).drop (o + bs.length) = d.drop (o + bs.length) := by
  have hlen : (d.take o).length = o := by simp; omega
  have hdrop : (patchBytes d o bs).drop o = bs ++ d.drop (o + bs.length) := by
    rw [patchBytes, List.append_assoc, List.drop_left' hlen]
  refine ⟨by simp [hdrop], ?_, ?_⟩
  · rw [patchBytes, List.append_assoc, List.take_left' hlen]
  · rw [← List.drop_drop, hdrop, List.drop_left]

/-- A write into a held line without write-through (R250): the line holds the bytes and is dirty, DRAM stays. -/
theorem writeInto_held {q : Req} {l : ShedLine} {o : Nat} {bs : List Byte} {s : State} (hl : (s.line l.pa).isSome)
    (hwt : s.get (F.shedStatusWriteThrough l.slice) = 0) : ∃ l', l'.pa = l.pa ∧ l'.dirty = true ∧
      l'.data = patchBytes l.data o bs ∧ (writeInto q l o bs s).mem.dram = s.mem.dram ∧
      ∀ b, (writeInto q l o bs s).line b = if b = l.pa then some l' else s.line b := by
  let l' := writtenLine l (if (s.lockOf l.pa).isSome then l.key else q.key) o bs
  let s1 := { s with mem := { s.mem with touched := l.pa :: s.mem.touched.filter (fun a => a ≠ l.pa) } }
  have hheld : (s1.line l.pa).isSome := hl
  have hthrough : (putLine l' s1).get (F.shedStatusWriteThrough l'.slice) ≠ 1 := by
    rw [putLine_writeThrough, show s1.get (F.shedStatusWriteThrough l'.slice) = 0 from hwt]
    decide
  have hwrite : writeInto q l o bs s = putLine l' s1 := (if_pos hheld).trans (if_neg hthrough)
  rw [hwrite]
  exact ⟨l', rfl, rfl, rfl, putLine_dram .., putLine_line l' s1⟩

/-! Waiting accesses (R258): no operation on a line adds one -/

@[simp] theorem putLine_fills (l : ShedLine) (s : State) : (putLine l s).mem.fills = s.mem.fills := by simp [putLine]

@[simp] theorem dropLine_fills (pa : Nat) (s : State) : (dropLine pa s).mem.fills = s.mem.fills := by simp [dropLine]

@[simp] theorem putDramUnit_fills (pa k : Nat) (p : Bool) (d : List Byte) (s : State) :
    (putDramUnit pa k p d s).mem.fills = s.mem.fills := rfl

@[simp] theorem reasonFor_mem (code : Nat) (sq plot : Nat → Bool) (s : State) : (reasonFor code sq plot s).mem = s.mem := by
  unfold reasonFor
  refine State.each_keeps State.mem _ (fun u t => ?_) _ _
  cases t.entry u.uid with
  | none => rfl
  | some e => exact (apply_ite State.mem ..).trans (ite_self _)

@[simp] theorem countUnits_fills (ch cls n : Nat) (s : State) : (countUnits ch cls n s).mem.fills = s.mem.fills := by
  unfold countUnits
  dsimp only
  split
  · split
    · rw [reasonFor_mem]
      rfl
    · rfl
  · rfl

@[simp] theorem writeBack_fills (l : ShedLine) (s : State) : (writeBack l s).mem.fills = s.mem.fills := by
  unfold writeBack
  dsimp only
  split <;> simp

@[simp] theorem evict_fills (l : ShedLine) (s : State) : (evict l s).mem.fills = s.mem.fills := by
  unfold evict
  dsimp only
  split
  · split <;> simp
  · simp

@[simp] theorem allocWay_fills (sl set : Nat) (s : State) : (allocWay sl set s).2.mem.fills = s.mem.fills := by
  unfold allocWay
  dsimp only
  split
  · rfl
  · split
    · simp
    · split <;> simp

@[simp] theorem placeLine_fills (pa : Nat) (s : State) : (placeLine pa s).2.mem.fills = s.mem.fills := by
  unfold placeLine
  split <;> simp

@[simp] theorem refreshLock_fills (sl k : Nat) (s : State) : (refreshLock sl k s).mem.fills = s.mem.fills := by
  unfold refreshLock
  dsimp only
  split <;> simp

@[simp] theorem insertLine_fills (q : Req) (pa : Nat) (pre : Bool) (d : List Byte × Bool × Bool) (s : State) :
    (insertLine q pa pre d s).mem.fills = s.mem.fills := by
  unfold insertLine
  dsimp only
  split
  · simp
  · split <;> simp

@[simp] theorem giveLine_fills (q : Req) (pa : Nat) (d : List Byte × Bool × Bool) (s : State) :
    (giveLine q pa d s).2.mem.fills = s.mem.fills := by
  unfold giveLine
  dsimp only
  split <;> simp

@[simp] theorem fillLine_fills (q : Req) (pa : Nat) (s : State) : (fillLine q pa s).2.mem.fills = s.mem.fills := by
  simp [fillLine, fetchLine]

@[simp] theorem writeInto_fills (q : Req) (l : ShedLine) (o : Nat) (bs : List Byte) (s : State) :
    (writeInto q l o bs s).mem.fills = s.mem.fills := by
  unfold writeInto
  dsimp only
  (repeat' split) <;> simp

@[simp] theorem readFrom_fills (l : ShedLine) (o n : Nat) (s : State) : (readFrom l o n s).2.mem.fills = s.mem.fills := by
  unfold readFrom
  split <;> rfl

@[simp] theorem performFill_fills (f : Fill) (s : State) : (performFill f s).mem.fills = s.mem.fills := by
  unfold performFill
  dsimp only
  split
  · rfl
  · split <;> split <;> simp [answerMem]

/-- After the accesses that wait for a line are performed, none waits for it. -/
theorem performFills_none (base : Nat) (s : State) : ∀ f ∈ (performFills base s).mem.fills, f.pa ≠ base := by
  have hfills : (performFills base s).mem.fills = s.mem.fills.filter (fun f => f.pa ≠ base) :=
    State.each_keeps (·.mem.fills) _ performFill_fills _ _
  rw [hfills]
  exact fun f hf => by simpa using (List.mem_filter.mp hf).2

end Sys2Proof.Machine

namespace Sys2Proof
open Sys2Proof.Machine

/-- Settles O37. -/
theorem shedAccesses : Obligations.ShedAccesses := by
  unfold Obligations.ShedAccesses
  intro s src ch pa key a base o k q hbed
  have hq : s.reqAt ⟨src, s.memClass src ch.toNat, key.toNat, false⟩ a = q := by
    simp only [State.reqAt, q, k]
    split <;> rfl
  have hq' : s.reqAt ⟨src, s.memClass src ch.toNat, key.toNat, true⟩ a = { q with noAlloc := true } := by
    simp only [State.reqAt, q, k]
    split <;> rfl
  have ha : pa.toNat = a := rfl
  have hbase : a / 128 * 128 = base := rfl
  have ho' : a % 128 = o := rfl
  have hany : (∀ f ∈ s.mem.fills, f.pa ≠ base) → s.mem.fills.any (fun f => decide (f.pa = base)) = false := fun h =>
    List.any_eq_false.mpr fun f hf => by simpa using h f hf
  refine ⟨fun len na hdeny => ?_, fun len hadmit ho ⟨f, hf, hpa⟩ => ?_, fun len hadmit ho hnone hline hready hshut hopen => ?_,
    fun l hl hslice hkey h0 h1 hlen hready hshut hnone => ⟨fun len hadmit ho => ?_, fun bs hadmit hbs ho hwt => ?_⟩,
    fun c u hnone => ?_, fun f hf hpa hclear => ?_⟩
  · refine ⟨(denied a s).2 |> answerMem src (.error (denied a s).1), ?_, rfl, rfl, rfl, ?_⟩
    · simp only [exec, execShedAccess]
      split
      · next n hn => exact absurd hn (hbed n)
      · simp only [ha, hbase, ho']
        simp [hdeny]
    · have hrd : (s.bump32 (R.memcDenied (s.channel a)) 1).rd (R.memcDenied (s.channel a)) = _ := State.rd_bump32_same ..
      refine (congrArg BitVec.toNat hrd).trans ?_
      rw [satAdd_eq_min, BitVec.toNat_ofNat]
      exact Nat.mod_eq_of_lt (by omega)
  · have hmin : min len (128 - o) = len := by omega
    have hwait : s.mem.fills.any (fun f => decide (f.pa = base)) = true := List.any_eq_true.mpr ⟨f, hf, by simpa using hpa⟩
    simp only [exec, execShedAccess]
    split
    · next n hn => exact absurd hn (hbed n)
    · simp only [ha, hbase, ho']
      simp [hadmit, hq, hmin, hwait]
      rfl
  · have hmin : min len (128 - o) = len := by omega
    have hlook : lookupLine { q with noAlloc := true } base s = (.ok none, s.bump32 (R.shedMisses (s.sliceOf base)) 1) := by
      simp [lookupLine, hshut, hready, q, hline, hopen]
    simp only [exec, execShedAccess]
    split
    · next n hn => exact absurd hn (hbed n)
    · simp only [ha, hbase, ho']
      simp [hadmit, hq', hmin, hany hnone, hlook]
      rfl
  · have hmin : min len (128 - o) = len := by omega
    have hpa := State.line_pa hl
    have hlook := lookupLine_hit (q := q) hl hkey hshut hready
    have hread : readFrom { l with prefetched := false } o len (afterHit l (s.sliceOf base) s) = _ := readFrom_clean h0 h1 ..
    refine ⟨answerMem src (.ok ((l.data.drop o).take len)) (afterHit l (s.sliceOf base) s), ?_, rfl, afterHit_dram ..⟩
    simp only [exec, execShedAccess]
    split
    · next n hn => exact absurd hn (hbed n)
    · simp only [ha, hbase, ho']
      simp [hadmit, hq, hmin, hany hnone, hlook, hread]
  · have htake : bs.take (128 - o) = bs := List.take_of_length_le (by omega)
    have hpa := State.line_pa hl
    have hlook := lookupLine_hit (q := q) hl hkey hshut hready
    have hline := afterHit_line (s.sliceOf base) (hpa.symm ▸ hl)
    obtain ⟨l', hpa', hdirty, hdata, hdram, hlines⟩ := writeInto_held (q := q) (l := { l with prefetched := false }) (o := o)
      (bs := bs) (s := afterHit l (s.sliceOf base) s) (by rw [hline, if_pos rfl]; rfl)
      ((afterHit_writeThrough ..).trans hwt)
    obtain ⟨hin, hbefore, hafter⟩ := patchBytes_layout l.data o bs (by omega)
    refine ⟨answerMem src (.ok []) (writeInto q { l with prefetched := false } o bs (afterHit l (s.sliceOf base) s)), l', ?_,
      rfl, ?_, hdirty, ?_, ?_, ?_, hdram.trans (afterHit_dram ..), fun b hb => ?_⟩
    · simp only [exec, execShedAccess]
      split
      · next n hn => exact absurd hn (hbed n)
      · simp only [ha, hbase, ho']
        simp [hadmit, hq, htake, hany hnone, hlook]
    · exact (hlines base).trans (if_pos hpa.symm)
    · rw [hdata, hin]
    · rw [hdata, hbefore]
    · rw [hdata, hafter]
    · refine (hlines b).trans ((if_neg ?_).trans ((hline b).trans (if_neg ?_))) <;> exact hpa ▸ hb
  · simp only [exec, execShedFillDone, ha, hbase]
    rw [if_neg (by simp [hany hnone])]
  · have hwait : s.mem.fills.any (fun f => decide (f.pa = base)) = true := List.any_eq_true.mpr ⟨f, hf, by simpa using hpa⟩
    have hecc : eccFinds a false false s = s := by simp [eccFinds]
    refine ⟨?_, performFills_none base s⟩
    simp only [exec, execShedFillDone, ha, hbase]
    rw [if_pos ⟨hwait, by simp [State.uncleared, hclear]⟩, hecc, ite_self]

end Sys2Proof
end

section
/-! PROOFS. Translation faults (spec/11 R285-R293): a record joins a batch, the batch's close and write keep it, and the
fault stalls the stream. -/
namespace Sys2Proof.Machine

/-! Batches of fault records -/

/-- Every batch of function fn with number n holds record r, and there is one. -/
def State.BatchHolds (fn n : Nat) (r : FaultRec) (s : State) : Prop :=
  (∃ b ∈ s.mmu.batches, b.fn = fn ∧ b.number = n) ∧ ∀ b ∈ s.mmu.batches, b.fn = fn → b.number = n → r ∈ b.records

theorem mem_putBatch {b c : Batch} {s : State} :
    c ∈ (putBatch b s).mmu.batches ↔ ∃ x ∈ s.mmu.batches, (if x.fn = b.fn ∧ x.number = b.number then b else x) = c :=
  List.mem_map

/-- A batch that replaces those of its number makes its records theirs. -/
theorem batchHolds_putBatch {b : Batch} {r : FaultRec} {s : State}
    (hb : ∃ x ∈ s.mmu.batches, x.fn = b.fn ∧ x.number = b.number) (hr : r ∈ b.records) :
    (putBatch b s).BatchHolds b.fn b.number r := by
  obtain ⟨x, hx, hkey⟩ := hb
  refine ⟨⟨b, mem_putBatch.mpr ⟨x, hx, if_pos hkey⟩, rfl, rfl⟩, fun c hc hfn hnum => ?_⟩
  obtain ⟨y, -, rfl⟩ := mem_putBatch.mp hc
  split
  · exact hr
  · next hy =>
    rw [if_neg hy] at hfn hnum
    exact absurd ⟨hfn, hnum⟩ hy

/-- Another phase or slot of a batch keeps its records. -/
theorem batchHolds_putBatch_same {fn n : Nat} {r : FaultRec} {s : State} (h : s.BatchHolds fn n r) {b b' : Batch}
    (hb : b ∈ s.mmu.batches) (hfn : b'.fn = b.fn) (hnum : b'.number = b.number) (hrec : b'.records = b.records) :
    (putBatch b' s).BatchHolds fn n r := by
  obtain ⟨⟨x, hx, hxfn, hxnum⟩, hall⟩ := h
  by_cases hkey : b'.fn = fn ∧ b'.number = n
  · obtain ⟨rfl, rfl⟩ := hkey
    exact batchHolds_putBatch ⟨x, hx, hxfn, hxnum⟩ (hrec ▸ hall b hb hfn.symm hnum.symm)
  · have hother : ¬ (x.fn = b'.fn ∧ x.number = b'.number) := fun h => hkey ⟨h.1 ▸ hxfn, h.2 ▸ hxnum⟩
    refine ⟨⟨x, mem_putBatch.mpr ⟨x, hx, if_neg hother⟩, hxfn, hxnum⟩, fun c hc hcfn hcnum => ?_⟩
    obtain ⟨y, hy, rfl⟩ := mem_putBatch.mp hc
    split at hcfn
    · next hy' => exact absurd ⟨hcfn, by rwa [if_pos hy'] at hcnum⟩ hkey
    · next hy' =>
      rw [if_neg hy'] at hcnum ⊢
      exact hall y hy hcfn hcnum

@[simp] theorem hostWrite_mmu (f addr : Nat) (bs : List Byte) (s : State) : (hostWrite f addr bs s).mmu = s.mmu := by
  unfold hostWrite
  split <;> rfl

@[simp] theorem sendMsi_mmu (f v : Nat) (s : State) : (sendMsi f v s).mmu = s.mmu := by
  obtain ⟨h, e⟩ := sendMsi_host f v s
  rw [e]

@[simp] theorem refreshRing_mmu (fn : Nat) (s : State) : (refreshRing fn s).mmu = s.mmu := State.mmu_puts ..

@[simp] theorem writeRecords_batches (fn n i : Nat) (rs : List FaultRec) (s : State) :
    (writeRecords fn n i rs s).mmu.batches = s.mmu.batches := by
  induction rs generalizing i s with
  | nil => rfl
  | cons r rs ih =>
    rw [writeRecords, ih]
    split <;> simp

theorem batchHolds_writeBatch {fn n f : Nat} {r : FaultRec} {s : State} (h : s.BatchHolds fn n r) :
    (writeBatch f s).BatchHolds fn n r := by
  have hring : ∀ t : State, t.BatchHolds fn n r → (refreshRing f t).BatchHolds fn n r := fun t ht => by
    rwa [State.BatchHolds, refreshRing_mmu]
  unfold writeBatch
  split
  · exact hring s h
  · next b hb =>
    dsimp only
    split
    · have hput : (putBatch { b with phase := .written, slot := s.mmu.writePos.getD f 0, holds := true } s).BatchHolds fn n r :=
        batchHolds_putBatch_same h (List.mem_of_find?_eq_some hb) rfl rfl rfl
      refine hring _ ?_
      rwa [State.BatchHolds, sendMsi_mmu, State.mmu_put, writeRecords_batches]
    · exact hring s h

theorem openBatch_spec {s : State} {fn : Nat} {b : Batch} (h : s.openBatch fn = some b) :
    b ∈ s.mmu.batches ∧ b.fn = fn ∧ b.phase = .opened :=
  ⟨List.mem_of_find?_eq_some h, by simpa using List.find?_some h⟩

/-- The first open batch of a function, after it has been replaced by another that is still open. -/
theorem openBatch_putBatch {s : State} {fn : Nat} {b b' : Batch} (hb : s.openBatch fn = some b) (hfn : b'.fn = b.fn)
    (hnum : b'.number = b.number) (hphase : b'.phase = .opened) : (putBatch b' s).openBatch fn = some b' := by
  obtain ⟨-, hopen⟩ := openBatch_spec hb
  have hb' : (decide (b'.fn = fn) && b'.phase == .opened) = true := by simp [hfn, hopen.1, hphase]
  unfold State.openBatch at hb ⊢
  rw [putBatch]
  revert hb
  generalize s.mmu.batches = l
  intro hb
  induction l with
  | nil => cases hb
  | cons x l ih =>
    dsimp only at ih ⊢
    rw [List.map_cons, List.find?_cons]
    by_cases hkey : x.fn = b'.fn ∧ x.number = b'.number
    · rw [if_pos hkey, hb']
    · rw [if_neg hkey]
      rw [List.find?_cons] at hb
      split at hb
      · cases hb
        exact absurd ⟨hfn.symm, hnum.symm⟩ hkey
      · exact ih hb

/-- A fault's record is in a batch of its function afterwards. -/
theorem joinBatch_holds (fn : Nat) (r : FaultRec) (s : State) :
    ∃ b ∈ (joinBatch fn r s).mmu.batches, b.fn = fn ∧ r ∈ b.records := by
  have hclose : ∀ (t : State) (b : Batch), t.openBatch fn = some b → r ∈ b.records → ∀ c : Prop, [Decidable c] →
      ∃ b ∈ (if c then closeBatch fn t else t).mmu.batches, b.fn = fn ∧ r ∈ b.records := fun t b hb hr c _ => by
    obtain ⟨hmem, hfn, -⟩ := openBatch_spec hb
    split
    · rw [closeBatch, hb]
      obtain ⟨⟨x, hx, hxfn, hxnum⟩, hall⟩ := batchHolds_writeBatch (f := fn)
        (batchHolds_putBatch (b := { b with phase := .closed }) ⟨b, hmem, rfl, rfl⟩ hr)
      exact ⟨x, hx, hxfn.trans hfn, hall x hx hxfn hxnum⟩
    · exact ⟨b, hmem, hfn, hr⟩
  cases hb : s.openBatch fn with
  | some b =>
    obtain ⟨-, -, hphase⟩ := openBatch_spec hb
    have hopen := openBatch_putBatch (b' := { b with records := b.records ++ [r] }) hb rfl rfl hphase
    simp only [joinBatch, hb, hopen]
    exact hclose _ _ hopen (by simp) _
  | none =>
    let new : Batch := { fn := fn, number := s.mmu.nextBatch.getD fn 1, phase := .opened, slot := 0, holds := false, records := [r] }
    have hopen : ({ s with mmu := { s.mmu with
        nextBatch := setAt fn (s.mmu.nextBatch.getD fn 1 + 1) s.mmu.nextBatch,
        batches := s.mmu.batches ++ [new] } } : State).openBatch fn = some new := by
      rw [State.openBatch] at hb ⊢
      rw [List.find?_append, hb]
      simp [new]
    simp only [joinBatch, hb]
    rw [hopen]
    exact hclose _ _ hopen (by simp [new]) _

/-! The registers that a fault's record changes -/

/-- MMU_ALLOT_STAT is no register of the fault ring, nor HOSTQ_DROPPED. -/
theorem allotStat_apart {a : Nat} (ha : a < 64) (fn : Nat) : R.mmuAllotStat a ≠ R.mmuFrStatus fn ∧
    R.mmuAllotStat a ≠ R.hostqDropped ∧ R.mmuAllotStat a ≠ R.mmuFaults := by
  simp only [R.mmuAllotStat, R.mmuFrStatus, R.hostqDropped, R.mmuFaults]
  omega

section
variable {g : Field} (hring : ∀ fn, g.off ≠ R.mmuFrStatus fn) (hdropped : g.off ≠ R.hostqDropped)
include hring

theorem refreshRing_get (fn : Nat) (s : State) : (refreshRing fn s).get g = s.get g :=
  congrArg (getBits · _ _) (State.rd_puts_ne _ _ _ (by simpa using ⟨hring fn, hring fn⟩))

include hdropped

theorem writeRecords_get (fn n i : Nat) (rs : List FaultRec) (s : State) : (writeRecords fn n i rs s).get g = s.get g := by
  have hwrite : ∀ (a : Nat) (bs : List Byte) (t : State), (hostWrite fn a bs t).get g = t.get g := fun a bs t => by
    unfold hostWrite
    split
    · rfl
    · exact State.get_wr_ne _ _ _ _ hdropped
  induction rs generalizing i s with
  | nil => rfl
  | cons r rs ih =>
    rw [writeRecords, ih]
    split
    · exact (State.get_wr_ne _ _ _ _ (hring fn)).trans (hwrite ..)
    · exact hwrite ..

theorem writeBatch_get (fn : Nat) (s : State) : (writeBatch fn s).get g = s.get g := by
  unfold writeBatch
  split
  · exact refreshRing_get hring ..
  · dsimp only
    split
    · rw [refreshRing_get hring, sendMsi_get]
      exact (State.get_wr_ne _ _ _ _ (hring fn)).trans (writeRecords_get hring hdropped ..)
    · exact refreshRing_get hring ..

theorem joinBatch_get (fn : Nat) (r : FaultRec) (s : State) : (joinBatch fn r s).get g = s.get g := by
  have hclose : ∀ t : State, (closeBatch fn t).get g = t.get g := fun t => by
    unfold closeBatch
    split
    · rfl
    · exact writeBatch_get hring hdropped ..
  have hif : ∀ (t : State) (c : Prop) [Decidable c], (if c then closeBatch fn t else t).get g = t.get g := fun t c _ => by
    split
    · exact hclose t
    · rfl
  cases hb : s.openBatch fn with
  | some b =>
    simp only [joinBatch, hb]
    split
    · exact hif ..
    · rfl
  | none =>
    simp only [joinBatch, hb]
    split
    · exact hif ..
    · rfl

end

theorem owner_getD {s : State} {a fn : Nat} (h : s.allotOwner a = some fn) : (s.allotOwner a).getD 0 = fn := by
  rw [h, Option.getD_some]

/-- A fault that stalls its stream: counted, recorded, the stream stalled. -/
theorem reportFault_stalls {fn : Nat} {r : FaultRec} {s : State} (hshut : s.isShut 60 = false)
    (hring : s.get (F.mmuFrCfgEnable fn) = 1) (hfatal : r.fatal = false) (hallot : r.allot < 64) :
    ∃ t, reportFault fn r s = (.stalled, t) ∧ t.isStalled r.stream = true ∧
      t.get (F.mmuAllotStatFaults r.allot) = min 0xFFFF (s.get (F.mmuAllotStatFaults r.allot) + 1) ∧
      ∃ b ∈ t.mmu.batches, b.fn = fn ∧ { r with timeUs := s.timeUs, id := s.mmu.nextStall } ∈ b.records := by
  obtain ⟨-, hdropped, hfaults⟩ := allotStat_apart hallot fn
  let s1 := (s.wrap32 R.mmuFaults 1).bump (F.mmuAllotStatFaults r.allot) 1
  let s2 := joinBatch fn { r with timeUs := s.timeUs, id := s1.mmu.nextStall }
    { s1 with mmu := { s1.mmu with nextStall := s1.mmu.nextStall + 1 } }
  refine ⟨{ s2 with mmu := { s2.mmu with
    stalls := ⟨r.stream, fn, r.source, r.allot, r.va, r.access, s1.mmu.nextStall⟩ :: s2.mmu.stalls } }, ?_, ?_, ?_,
    joinBatch_holds ..⟩
  · exact (if_neg (by simp [hshut])).trans ((if_neg (by simp [hring])).trans (if_neg (by simp [hfatal])))
  · simp [State.isStalled]
  · have hjoin : s2.get (F.mmuAllotStatFaults r.allot) = s1.get (F.mmuAllotStatFaults r.allot) :=
      joinBatch_get (fun f => (allotStat_apart hallot f).1) hdropped ..
    refine hjoin.trans ((State.get_bump_same _ _ _ rfl).trans ?_)
    rw [satAdd_eq_min, show (s.wrap32 R.mmuFaults 1).get (F.mmuAllotStatFaults r.allot) = _ from
      State.get_wr_ne _ _ _ _ hfaults]
    rfl

end Sys2Proof.Machine

namespace Sys2Proof
open Sys2Proof.Machine

/-- Settles O39. -/
theorem translationFaults : Obligations.TranslationFaults := by
  unfold Obligations.TranslationFaults
  intro s island allot va acc st fn hopen hshut hrestart howner hring
  refine ⟨fun hst => ?_, fun hst => ?_⟩
  · simp only [exec, execTranslationWalk]
    rw [if_pos (.inl hst)]
  · intro faults en
    have hroot : bit (s.rd64 (R.mmuAllotRoot allot)) 0 = en := rfl
    have hgo : ¬ (s.isStalled st = true ∨ (!s.isOpen island) = true) := by simp [hst, hopen]
    have hfault : ∀ reason level, (∀ q : Req, q.island = island → Machine.translate q fn allot va.toNat acc false s =
        (.error (reason, level), s)) →
        faults reason level := fun reason level htr => by
      let fr : FaultRec := {
        stream := st, va := va.toNat, tag := (s.streamEntry st).elim 0 (fun y => y.tag),
        reason := reason, access := acc, allot := allot, fatal := false,
        cls := (s.streamEntry st).elim (s.plan.active.qos.islands.getD island 1) (fun x => x.cls), level := level,
        source := island, unit := streamUnit st, sq := (s.streamEntry st).elim 0xFF (fun y => y.sq), timeUs := 0 }
      obtain ⟨t, hrep, hstall, hcount, b, hb, hfn, hr⟩ := reportFault_stalls (r := fr) hshut hring rfl allot.isLt
      refine ⟨t, ?_, hstall, hcount, b, hb, hfn, _, hr, rfl, rfl, rfl, rfl, rfl, rfl⟩
      simp only [exec, execTranslationWalk, hrestart, owner_getD howner]
      rw [if_neg hgo, htr _ rfl]
      simp only [fr] at hrep
      simp only [hrep]
    have hhit : ∀ q : Req, q.island = island → ∀ e, en = true → va.toNat < 2 ^ 48 → s.cached island allot va.toNat = some e →
        Machine.translate q fn allot va.toNat acc false s = match entryFault acc false e with
          | some reason => (.error (reason, e.level), s)
          | none => (.ok e, s) := fun q hq e hen hva he => by
      simp [-Nat.reducePow, Machine.translate, hroot, hen, howner, Nat.not_le.mpr hva, hq, he] <;> rfl
    refine ⟨fun hoff => hfault 7 0 fun q _ => ?_, fun hen hva => hfault 6 0 fun q _ => ?_, fun e hen hva he => ?_⟩
    · simp [-Nat.reducePow, Machine.translate, hroot, hoff] <;> rfl
    · simp [-Nat.reducePow, Machine.translate, hroot, hen, howner, hva] <;> rfl
    · have hperm : ∀ reason, entryFault acc false e = some reason → faults reason e.level := fun reason hreason =>
        hfault reason e.level fun q hq => by rw [hhit q hq e hen hva he, hreason]
      refine ⟨fun ha hr => hperm 2 ?_, fun ha hw => hperm 3 ?_, fun ha hx => hperm 4 ?_, fun hr hw hx => ?_⟩
      · simp [entryFault, ha, hr, NO_READ]
      · simp [entryFault, ha, hw, NO_WRITE]
      · simp [entryFault, ha, hx, NO_FETCH]
      · have hok : entryFault acc false e = none := by
          cases acc <;> simp [entryFault, hr, hw, hx]
        simp only [exec, execTranslationWalk, hrestart, owner_getD howner]
        rw [if_neg hgo, hhit _ rfl e hen hva he, hok]

end Sys2Proof
end

section
/-! PROOFS. What an instruction of a bed wave does to its wave (spec/13 R320-R327): the wave after issue, a change of it,
and what neither touches. -/
namespace Sys2Proof.Machine

/-! One wave of a bed -/

theorem State.wave_slot {s : State} {n slot : Nat} {w : Wave} (h : s.wave n slot = some w) : w.slot = slot := by
  simpa using List.find?_some h

/-- A bed number past the list reads as the reset bed. -/
theorem State.bedAt_outside {s : State} {n : Nat} (h : s.bed.beds.length ≤ n) : s.bedAt n = .reset := by
  rw [State.bedAt, List.getD_eq_getElem?_getD, List.getElem?_eq_none h]
  rfl

/-- A bed with a wave is a bed of the state. -/
theorem State.wave_bed_lt {s : State} {n slot : Nat} {w : Wave} (h : s.wave n slot = some w) : n < s.bed.beds.length := by
  refine Classical.byContradiction fun hn => ?_
  have hreset : s.bedAt n = .reset := State.bedAt_outside (Nat.le_of_not_lt hn)
  rw [State.wave, hreset] at h
  cases h

theorem bedAt_setBed {s : State} {n : Nat} (h : n < s.bed.beds.length) (b : Bed) : (setBed n b s).bedAt n = b := by
  rw [State.bedAt, setBed]
  exact (getD_setAt _ _ _ _ _ h).trans (if_pos rfl)

/-- The waves of a bed after one of them was replaced: that slot's wave is the new one, if it had one. -/
theorem wave_putWave {s : State} {n slot : Nat} {w : Wave} (h : s.wave n slot = some w) (w' : Wave) (hw : w'.slot = slot) :
    (putWave n w' s).wave n slot = some w' := by
  have hmap : ∀ l : List Wave, l.find? (fun x => x.slot = slot) = some w →
      (l.map (fun x => if x.slot = w'.slot then w' else x)).find? (fun x => x.slot = slot) = some w' := fun l hl => by
    induction l with
    | nil => cases hl
    | cons x l ih =>
      rw [List.map_cons, List.find?_cons]
      by_cases hx : x.slot = slot
      · simp [hx, hw]
      · rw [List.find?_cons] at hl
        simp only [hx, decide_false] at hl
        simpa [hw, hx] using ih hl
  rw [State.wave, putWave, bedAt_setBed (State.wave_bed_lt h)]
  exact hmap _ h

/-- Every other slot's wave stays. -/
theorem wave_putWave_ne {s : State} {n k : Nat} (h : n < s.bed.beds.length) {w' : Wave} (hk : k ≠ w'.slot) :
    (putWave n w' s).wave n k = s.wave n k := by
  rw [State.wave, putWave, bedAt_setBed h, State.wave]
  induction (s.bedAt n).waves with
  | nil => rfl
  | cons x l ih =>
    simp only [List.map_cons, List.find?_cons]
    by_cases hx : x.slot = w'.slot
    · have hk' : ¬ w'.slot = k := fun h => hk h.symm
      simpa [hx, hk'] using ih
    · simp only [hx, if_false]
      cases decide (x.slot = k)
      · exact ih
      · rfl

/-! What an instruction leaves besides its wave -/

/-- From s to t one instruction of a bed was issued: memory, the host and translation stay, and every register but
BEDn_ISSUED. -/
def State.IssuedOnly (s : State) (n : Nat) (t : State) : Prop :=
  t.mem = s.mem ∧ t.host = s.host ∧ t.mmu = s.mmu ∧
    ∀ r, r ≠ R.bedIssued n → r ≠ R.bedIssued n + 4 → t.rd r = s.rd r

theorem afterIssue_issuedOnly (s : State) (n : Nat) (w : Wave) (v : Nat) : s.IssuedOnly n (s.afterIssue n w v) := by
  refine ⟨rfl, rfl, rfl, fun r h1 h2 => ?_⟩
  exact (State.rd_wr_ne _ _ _ _ h2).trans (State.rd_wr_ne _ _ _ _ h1)

/-- The wave after issue: past the instruction. -/
def Wave.past (w : Wave) (v : Nat) : Wave := { w with pc := w.pc + if iExt v then 16 else 8 }

theorem wave_afterIssue {s : State} {n slot : Nat} {w : Wave} (h : s.wave n slot = some w) (v : Nat) :
    (s.afterIssue n w v).wave n slot = some (w.past v) :=
  wave_putWave (s := ({ s with fresh := s.fresh + 257 } : State).wr64 _ _) h _ (show w.slot = slot from State.wave_slot h)

theorem wave_afterIssue_ne {s : State} {n slot k : Nat} {w : Wave} (h : s.wave n slot = some w) (v : Nat) (hk : k ≠ slot) :
    (s.afterIssue n w v).wave n k = s.wave n k :=
  wave_putWave_ne (s := ({ s with fresh := s.fresh + 257 } : State).wr64 _ _) (State.wave_bed_lt h)
    (fun e : k = w.slot => hk (e.trans (State.wave_slot h)))

/-- Of its bed, an issue replaces the wave and nothing else. -/
theorem bedAt_afterIssue {s : State} {n slot : Nat} {w : Wave} (h : s.wave n slot = some w) (v : Nat) :
    (s.afterIssue n w v).bedAt n = { s.bedAt n with
      waves := (s.bedAt n).waves.map (fun x => if x.slot = w.slot then w.past v else x) } :=
  bedAt_setBed (s := ({ s with fresh := s.fresh + 257 } : State).wr64 _ _) (State.wave_bed_lt h) _

/-- A change of the issuing wave after issue. -/
theorem change_afterIssue {s : State} {n slot : Nat} {w : Wave} (h : s.wave n slot = some w) (o : Order) (v x : Nat)
    (f : Wave → Wave) :
    (s.ctx n w o v x).change f (s.afterIssue n w v) = putWave n (f (w.past v)) (s.afterIssue n w v) := by
  have hslot := State.wave_slot h
  have hpast : (s.afterIssue n w v).wave n w.slot = some (w.past v) := hslot ▸ wave_afterIssue h v
  simp only [Ctx.change, State.ctx, hpast]

/-- What a change of the issuing wave leaves: the changed wave in its slot, and all else as after issue. -/
theorem change_moves {s : State} {n slot : Nat} {w : Wave} (h : s.wave n slot = some w) (o : Order) (v x : Nat)
    (f : Wave → Wave) (hf : (f (w.past v)).slot = w.slot) :
    ((s.ctx n w o v x).change f (s.afterIssue n w v)).wave n slot = some (f (w.past v)) ∧
      s.IssuedOnly n ((s.ctx n w o v x).change f (s.afterIssue n w v)) := by
  rw [change_afterIssue h]
  exact ⟨wave_putWave (wave_afterIssue h v) _ (hf.trans (State.wave_slot h)), afterIssue_issuedOnly s n w v⟩

end Sys2Proof.Machine
end

section
/-! PROOFS. Control instructions of a bed wave (spec/13 R329, R340). -/
namespace Sys2Proof.Machine

theorem extOk_of_half {s : State} {n : Nat} {w : Wave} {o : Order} {v x : Nat} (hx : x / 2 ^ 32 = 0) :
    (s.ctx n w o v x).extOk = true := by
  simp [Ctx.extOk, State.ctx, hx, -Nat.reducePow]

/-- A control instruction whose extension word uses its low half alone runs its body. -/
theorem control_runs {s : State} {n slot : Fin 48} {w : Wave} {o : Order} {v x : Nat} (h : s.issues n slot w o v x)
    (hx : x / 2 ^ 32 = 0) (hclass : iClass v = 0) {code : Nat} (hop : iOp v = code) (body : Ctx → State → State) :
    control code body n slot s = .next (body (s.ctx n w o v x) (s.afterIssue n w v)) := by
  rw [control, issue_runs h (by simp [hclass, hop]), extOk_of_half hx] <;> rfl

/-- A branch whose extension word holds a multiple of 8 (R329). -/
theorem branchTo_aligned {c : Ctx} (hext : iExt c.word = true) (halign : c.ext % 8 = 0) (f : Nat → Wave → Wave) (s : State) :
    c.branchTo f s = c.change (f (((c.w.pc : Int) + sext 32 (c.ext % 2 ^ 32)) % (2 ^ 64 : Int)).toNat) s := by
  simp [Ctx.branchTo, hext, halign]

theorem find?_filter_slot (l : List Wave) (slot k : Nat) (h : k ≠ slot) :
    (l.filter (fun w => w.slot ≠ slot)).find? (fun w => w.slot = k) = l.find? (fun w => w.slot = k) := by
  rw [List.find?_filter]
  refine find_congr fun w _ => ?_
  by_cases hw : w.slot = k
  · simp [hw, h]
  · simp [hw]

/-- The test of BRP, as the model computes it and as a proposition (Table 13.9). -/
theorem brp_holds_iff (p m e : Nat) : (if m = 0 then p != 0 else if m = 1 then p == 0 else p == e) = true ↔
    if m = 0 then p ≠ 0 else if m = 1 then p = 0 else p = e := by
  split
  · simp
  · split <;> simp

theorem refreshBed_bed (n : Nat) (s : State) : (refreshBed n s).bed = s.bed := by
  unfold refreshBed
  dsimp only
  split <;> rfl

theorem refreshBed_mem (n : Nat) (s : State) : (refreshBed n s).mem = s.mem := by
  unfold refreshBed
  dsimp only
  split <;> rfl

theorem changeBed_bedAt {s : State} {n : Nat} (h : n < s.bed.beds.length) (f : Bed → Bed) :
    (changeBed n f s).bedAt n = f (s.bedAt n) :=
  (congrArg (fun b => b.beds.getD n .reset) (refreshBed_bed n _)).trans (bedAt_setBed h _)

/-- The bed without a slot's wave (R340). -/
def Bed.dropWave (b : Bed) (slot : Nat) : Bed := { b with waves := b.waves.filter (fun w => w.slot ≠ slot) }

/-- The end of one wave: the others of the bed stay, memory stays (R340). -/
theorem wave_dropWave {s : State} {n : Nat} (slot : Nat) (h : n < s.bed.beds.length) :
    let t := changeBed n (fun b => b.dropWave slot) s
    t.wave n slot = none ∧ t.mem = s.mem ∧ ∀ k, k ≠ slot → t.wave n k = s.wave n k := by
  intro t
  have hb : (t.bedAt n).waves = (s.bedAt n).waves.filter (fun w => w.slot ≠ slot) :=
    congrArg Bed.waves (changeBed_bedAt h _)
  refine ⟨?_, refreshBed_mem n _, fun k hk => ?_⟩
  · rw [State.wave, hb]
    simp
  · rw [State.wave, hb]
    exact find?_filter_slot _ _ _ hk

/-- A barrier that one wave of the group has not reached holds (R335). -/
theorem releaseBar_holds {s : State} {n g : Nat} {y : Wave} (hy : y ∈ (s.bedAt n).waves) (hg : y.group = g)
    (hw : y.wait ≠ .bar) : releaseBar n g s = s := by
  refine if_neg fun h => hw ?_
  have hall := List.all_eq_true.mp h y (List.mem_filter.mpr ⟨hy, by simpa using hg⟩)
  simpa using hall

/-- END of a wave whose group has another wave not at the barrier: its wave goes from the bed (R340). -/
theorem endWave_runs {s : State} {n slot : Fin 48} {w y : Wave} {o : Order} {v x : Nat} (h : s.issues n slot w o v x)
    (hx : x / 2 ^ 32 = 0) (hclass : iClass v = 0) (hop : iOp v = 1) (hy : y ∈ (s.bedAt n).waves) (hys : y.slot ≠ slot)
    (hg : y.group = w.group) (hbar : y.wait ≠ .bar) :
    execEndWave n slot s = .next (changeBed n (fun b => b.dropWave w.slot) (s.afterIssue n w v)) := by
  obtain ⟨-, hwave, -, -, -, -, -, -, -, -, -, hfree⟩ := id h
  have hlen : n.val < (s.afterIssue n w v).bed.beds.length := State.wave_bed_lt (wave_afterIssue hwave v)
  have hws : y.slot ≠ w.slot := State.wave_slot hwave ▸ hys
  have hlocked : ((s.afterIssue n w v).bedAt n).locked w.slot = [] := by
    rw [bedAt_afterIssue hwave v, State.wave_slot hwave]
    exact hfree
  have hkept : y ∈ ((s.afterIssue n w v).bedAt n).waves := by
    rw [bedAt_afterIssue hwave v]
    exact List.mem_map.mpr ⟨y, hy, if_neg hws⟩
  have hmem : y ∈ ((changeBed n (fun b => b.dropWave w.slot) (s.afterIssue n w v)).bedAt n).waves := by
    rw [changeBed_bedAt hlen]
    exact List.mem_filter.mpr ⟨hkept, decide_eq_true hws⟩
  refine congrArg Host.Outcome.next ((issue_runs h (by simp [hclass, hop]) _).trans ?_)
  refine (if_neg (by rw [extOk_of_half hx]; exact Bool.false_ne_true)).trans ((if_neg ?_).trans ?_)
  · change ¬(!(((s.afterIssue n w v).bedAt n).locked w.slot).isEmpty) = true
    rw [hlocked]
    exact Bool.false_ne_true
  · exact (if_pos (List.any_eq_true.mpr ⟨y, hmem, decide_eq_true hg⟩)).trans (releaseBar_holds hmem hg hbar)

theorem sext_mod (k v : Nat) : sext k (v % 2 ^ k) = sext k v := by simp [sext]

end Sys2Proof.Machine

namespace Sys2Proof
open Sys2Proof.Machine

/-- Settles O42: a control instruction runs its body, and the body traps or changes the issuing wave alone. -/
theorem bedControlFlow : Obligations.BedControlFlow := by
  unfold Obligations.BedControlFlow
  refine ⟨fun s bed slot w o v x h hx hclass => ?_, fun s bed slot w hopen hwave hwait => ?_⟩
  · intro c u past target moves traps
    have hwave : s.wave bed slot = some w := by
      obtain ⟨-, hwave, -⟩ := h
      exact hwave
    have hslot := State.wave_slot hwave
    have hchange : ∀ (i : Instr) (f : Wave → Wave), exec i s = .next (c.change f u) → (f past).slot = w.slot →
        moves i (f past) := fun i f hi hf => by
      obtain ⟨hw, hmem, hhost, hmmu, hrd⟩ := change_moves hwave o v x f hf
      exact ⟨_, hi, hw, hmem, hhost, hmmu, hrd⟩
    have hpast : ∀ i : Instr, exec i s = .next u → moves i past := fun i hi => by
      obtain ⟨hmem, hhost, hmmu, hrd⟩ := afterIssue_issuedOnly s bed w v
      exact ⟨u, hi, wave_afterIssue hwave v, hmem, hhost, hmmu, hrd⟩
    have hbranch : ∀ f : Nat → Wave → Wave, iExt v = true → x % 8 = 0 → c.branchTo f u = c.change (f target) u :=
      fun f hext halign => by
        rw [branchTo_aligned (c := c) hext halign, show c.ext = x from rfl, sext_mod]
        rfl
    refine ⟨fun hop => ?_, fun hop hext hgroup => ?_, fun hop => ⟨fun hext => ?_, fun hext hodd => ?_, fun hext halign => ?_⟩,
      fun hop hext halign hp => ?_, fun hop => ⟨fun hfull => ?_, fun hroom hext halign => ?_⟩,
      fun hop => ⟨fun hempty => ?_, fun a r hstack => ?_⟩, fun hop => ?_, fun hop hok => ⟨fun hzero => ?_, fun hnz => ?_⟩,
      fun hop hp hdst hdst' => ?_⟩
    · exact hpast _ (control_runs h hx hclass hop _)
    · obtain ⟨y, hy, hys, hyg, hyw⟩ := hgroup
      obtain ⟨hgone, hmem, hothers⟩ := wave_dropWave w.slot (State.wave_bed_lt (wave_afterIssue hwave v))
      refine ⟨_, endWave_runs h hx hclass hop hy hys hyg hyw, hslot ▸ hgone, hmem, fun k hk => ?_⟩
      exact (hothers k (hslot ▸ hk)).trans (wave_afterIssue_ne hwave v hk)
    · refine (control_runs h hx hclass hop _).trans (congrArg _ ?_)
      simp [Ctx.branchTo, State.ctx, hext] <;> rfl
    · refine (control_runs h hx hclass hop _).trans (congrArg _ ?_)
      simp [Ctx.branchTo, State.ctx, hext, hodd] <;> rfl
    · exact hchange (.br bed slot) (fun w => { w with pc := target })
        ((control_runs h hx hclass hop _).trans (congrArg _ (hbranch _ hext halign))) rfl
    · intro p m holds
      have hbody : m ≠ 3 → exec (.brp bed slot) s =
          .next (c.change (fun y => if holds then { y with pc := target } else y) u) := fun hm => by
        refine (control_runs h hx hclass hop _).trans (congrArg _ ((if_neg (by simp [c, State.ctx, hp, hm, m])).trans ?_))
        refine (hbranch _ hext halign).trans (congrArg (fun f => c.change f u) (funext fun y => ?_))
        exact ite_congr (propext (brp_holds_iff p m w.exec)) (fun _ => rfl) (fun _ => rfl)
      refine ⟨fun hm => ?_, fun hm hh => ?_, fun hm hh => ?_⟩
      · exact (control_runs h hx hclass hop _).trans (congrArg _ (if_pos (by simp [c, State.ctx, hm, m])))
      · simpa only [if_pos hh] using hchange (.brp bed slot) _ (hbody hm) (by rw [if_pos hh])
      · simpa only [if_neg hh] using hchange (.brp bed slot) _ (hbody hm) (by rw [if_neg hh])
    · exact (control_runs h hx hclass hop _).trans (congrArg _ (if_pos hfull))
    · refine hchange (.call bed slot) (fun y => { y with pc := target, stack := (w.pc + 16) :: y.stack }) ?_ rfl
      refine (control_runs h hx hclass hop _).trans (congrArg _ ((if_neg (Nat.not_le.mpr hroom)).trans ?_))
      exact hbranch _ hext halign
    · refine (control_runs h hx hclass hop _).trans (congrArg _ ?_)
      simp only [State.ctx, hempty] <;> rfl
    · refine hchange (.ret bed slot) (fun y => { y with pc := a, stack := r }) ?_ rfl
      refine (control_runs h hx hclass hop _).trans (congrArg _ ?_)
      simp only [State.ctx, hstack] <;> rfl
    · exact control_runs h hx hclass hop _
    · refine hpast _ ((control_runs h hx hclass hop _).trans (congrArg _ ?_))
      exact (if_neg (show ¬ (!c.srcOk false 4 (iA v)) = true by simp [hok])).trans (if_pos hzero)
    · refine hchange (.sleep bed slot) (fun y => { y with wait := .sleep }) ?_ rfl
      refine (control_runs h hx hclass hop _).trans (congrArg _ ?_)
      exact (if_neg (show ¬ (!c.srcOk false 4 (iA v)) = true by simp [hok])).trans (if_neg hnz)
    · intro p
      refine hchange (.execp bed slot) (fun y => { y with
        sregs := setAt (iDst v - 0x100) (w.exec % 2 ^ 32) y.sregs,
        exec := Nat.land w.exec (if bit (iMod v) 0 = true then 2 ^ 32 - 1 - p else p) }) ?_ rfl
      have hd : dstS false (iDst v) = true := by simp [dstS, hdst, hdst']
      refine (control_runs h hx hclass hop _).trans (congrArg _ ((if_neg ?_).trans ?_))
      · simp [State.ctx, hp, hd]
      · refine congrArg (fun f => c.change f u) (funext fun y => ?_)
        have hset : y.setS (iDst v) w.exec = { y with sregs := setAt (iDst v - 0x100) (w.exec % 2 ^ 32) y.sregs } :=
          if_pos ⟨hdst, hdst'⟩
        exact congrArg (fun z : Wave =>
          { z with exec := Nat.land w.exec (if bit (iMod v) 0 = true then 2 ^ 32 - 1 - p else p) }) hset
  · simp [exec, execSleepExpiry, hwave, hwait, hopen]

end Sys2Proof
end

section
/-! PROOFS. A step runs the front of the queue, and the state after reset (spec/00). -/
namespace Sys2Proof
open Sys2Proof.Machine

/-- Settles O1: step reads the front of the queue. -/
theorem stepRunsFront : Obligations.StepRunsFront := by
  unfold Obligations.StepRunsFront
  intro s c rest hq
  rw [step, hq]

/-- Settles O2: the reset state's stores are empty or one word, its fuses blank, its queue empty. -/
theorem resetMeetsInvariants : Obligations.ResetMeetsInvariants := by
  unfold Obligations.ResetMeetsInvariants State.wf
  exact ⟨⟨by decide, by decide, by decide, by decide, by decide⟩, ⟨by decide, by decide, by decide, by decide⟩, rfl⟩

end Sys2Proof
end

section
/-! PROOFS. Integer arithmetic of a wave on its scalar registers (spec/13 R331): an operand of SALU is the 32-bit word of
its source, and one rule carries an operation's element to the destination register. -/
namespace Sys2Proof.Machine

/-- The modifiers of SALU are SAT alone. -/
theorem bit_land_sat (m i : Nat) (h : i < 4) : bit (Nat.land m 16) i = false := by
  have hbit : bit (Nat.land m 16) i = (m &&& 16).testBit i := by simp [bit, Nat.testBit_eq_decide_div_mod_eq]
  rw [hbit, Nat.testBit_and]
  obtain rfl | rfl | rfl | rfl : i = 0 ∨ i = 1 ∨ i = 2 ∨ i = 3 := by omega
  all_goals exact Bool.and_false _

theorem bit_land_sat_self (m : Nat) : bit (Nat.land m 16) 4 = bit m 4 := by
  have hbit : ∀ x, bit x 4 = Nat.testBit x 4 := fun x => by simp [bit, Nat.testBit_eq_decide_div_mod_eq]
  rw [hbit, hbit]
  exact (Nat.testBit_and m 16 4).trans (Bool.and_true _)

/-- The operands of a SALU instruction of TYPE UINT32. -/
theorem salu_elems {c : Ctx} (hclass : iClass c.word = 1) :
    c.elems 4 0 0 = ⟨c.src 4 (iA c.word) 0 % 2 ^ 32, c.src 4 (iB c.word) 0 % 2 ^ 32, c.src 4 (iC c.word) 0 % 2 ^ 32⟩ := by
  have hm : c.mods = Nat.land (iMod c.word) 16 := if_neg (by rw [hclass]; decide)
  have hplain : ∀ neg abs free y, neg < 4 → abs < 4 → modElem 4 c.mods neg abs free y = y := fun neg abs free y hn ha => by
    simp only [modElem, hm, bit_land_sat _ _ hn, bit_land_sat _ _ ha, if_neg Bool.false_ne_true]
  have helem : ∀ y, elemAt 4 y 0 = y % 2 ^ 32 := fun y => by simp [elemAt, slice, elemBits]
  simp only [Ctx.elems, helem, hplain _ _ _ _ (by decide : 0 < 4) (by decide : 2 < 4),
    hplain _ _ _ _ (by decide : 1 < 4) (by decide : 3 < 4)]

/-- A UINT32 operand is its own value. -/
theorem intVal_uint32 {y : Nat} (h : y < 2 ^ 32) : intVal 4 y = (y : Int) :=
  congrArg Int.ofNat (Nat.mod_eq_of_lt h)

/-- An integer result of UINT32: within its range under SAT, and otherwise modulo 2^32 (R331). -/
theorem intRes_uint32 (m : Nat) (z : Int) : (intRes 4 m z).bits % 2 ^ 32 =
    if bit m 4 = true then (max 0 (min z (2 ^ 32 - 1))).toNat else (z % 2 ^ 32).toNat := by
  have hbits : (intRes 4 m z).bits =
      if bit m 4 = true then (max 0 (min z (2 ^ 32 - 1)) % 2 ^ 32).toNat else (z % 2 ^ 32).toNat := by
    rw [intRes]
    split <;> rfl
  rw [hbits]
  split <;> omega

/-- A sum or product of UINT32 operands. -/
theorem intRes_uint32_nat (m n : Nat) : (intRes 4 m (n : Int)).bits % 2 ^ 32 =
    if bit m 4 = true then min n (2 ^ 32 - 1) else n % 2 ^ 32 := by
  rw [intRes_uint32]
  split <;> omega

/-- The lesser or the greater of two UINT32 values. -/
theorem minMaxElem_uint32 {y z : Nat} (isMax : Bool) (hy : y < 2 ^ 32) (hz : z < 2 ^ 32) :
    minMaxElem isMax 4 y z = .plain (if isMax then Nat.max y z else Nat.min y z) 0 := by
  simp only [minMaxElem, typeFmt, intVal_uint32 hy, intVal_uint32 hz]
  cases isMax
  · by_cases hlt : y < z
    · have hmin : Nat.min y z = y := Nat.min_eq_left (Nat.le_of_lt hlt)
      simp [hlt, hmin]
    · have hmin : Nat.min y z = z := Nat.min_eq_right (Nat.not_lt.mp hlt)
      simp [hlt, hmin]
  · by_cases hlt : y < z
    · have hmax : Nat.max y z = z := Nat.max_eq_right (Nat.le_of_lt hlt)
      simp [hlt, hmax]
    · have hmax : Nat.max y z = y := Nat.max_eq_left (Nat.not_lt.mp hlt)
      simp [hlt, hmax]

/-- SAR of a UINT32 word is the arithmetic shift of its 32 bits. -/
theorem sar_uint32 {a : Nat} (ha : a < 2 ^ 32) (n : Nat) :
    ofInt 32 (sext 32 a / 2 ^ n) % 2 ^ 32 = ((BitVec.ofNat 32 a).sshiftRight n).toNat := by
  have hsext : sext 32 a = (BitVec.ofNat 32 a).toInt := by
    rw [BitVec.toInt_eq_toNat_cond, BitVec.toNat_ofNat]
    simp only [sext, Nat.mod_mod]
    rfl
  rw [BitVec.sshiftRight, BitVec.toNat_ofInt, Int.shiftRight_eq_div_pow, ← hsext, ofInt, Int.natCast_pow]
  generalize sext 32 a / (2 : Int) ^ n = z
  omega

/-- A field written between the low and the high bits of a word stays inside the word (BFI, R331). -/
theorem bitField_lt {a b n k w : Nat} (ha : a < 2 ^ w) (h : n + k ≤ w) :
    a % 2 ^ n + 2 ^ n * (b % 2 ^ k) + 2 ^ (n + k) * (a / 2 ^ (n + k)) < 2 ^ w := by
  have hlow : a % 2 ^ n < 2 ^ n := Nat.mod_lt _ (Nat.two_pow_pos _)
  have hfield : b % 2 ^ k < 2 ^ k := Nat.mod_lt _ (Nat.two_pow_pos _)
  have hsplit : 2 ^ w = 2 ^ (n + k) * 2 ^ (w - (n + k)) := by rw [← Nat.pow_add]; congr 1; omega
  have hhigh : a / 2 ^ (n + k) < 2 ^ (w - (n + k)) := Nat.div_lt_of_lt_mul (hsplit ▸ ha)
  calc a % 2 ^ n + 2 ^ n * (b % 2 ^ k) + 2 ^ (n + k) * (a / 2 ^ (n + k))
      < 2 ^ n * (b % 2 ^ k + 1) + 2 ^ (n + k) * (a / 2 ^ (n + k)) := by rw [Nat.mul_add]; omega
    _ ≤ 2 ^ n * 2 ^ k + 2 ^ (n + k) * (a / 2 ^ (n + k)) := Nat.add_le_add_right (Nat.mul_le_mul_left _ hfield) _
    _ = 2 ^ (n + k) * (a / 2 ^ (n + k) + 1) := by
        rw [← Nat.pow_add, Nat.mul_add, Nat.mul_one, Nat.add_comm]
    _ ≤ 2 ^ (n + k) * 2 ^ (w - (n + k)) := Nat.mul_le_mul_left _ hhigh
    _ = 2 ^ w := hsplit.symm

/-- A SALU instruction of TYPE UINT32 with scalar operands leaves its element in the destination register. -/
theorem salu_gives {s : State} {n slot : Fin 48} {w : Wave} {o : Order} {v x : Nat} (h : s.issues n slot w o v x)
    (hx : x / 2 ^ 32 = 0) (hclass : iClass v = 1) (htype : iType v = 4) (hlow : 0x100 ≤ iDst v) (hhigh : iDst v ≤ 0x11F)
    (hA : (s.ctx n w o v x).srcOk false 4 (iA v) = true) (hB : (s.ctx n w o v x).srcOk false 4 (iB v) = true)
    (hC : (s.ctx n w o v x).srcOk false 4 (iC v) = true) {op : AluOp} {code : Nat} (htypes : op.types 4 = true)
    (hop : iOp v = code) {r : Nat}
    (hr : ∀ m free, bit m 4 = bit (iMod v) 4 → (op.elem 4 m free ⟨(s.ctx n w o v x).src 4 (iA v) 0 % 2 ^ 32,
      (s.ctx n w o v x).src 4 (iB v) 0 % 2 ^ 32, (s.ctx n w o v x).src 4 (iC v) 0 % 2 ^ 32⟩ .rn).bits % 2 ^ 32 = r) :
    ∃ t, issueAlu n slot code op s = .next t ∧
      t.wave n slot = some { w with
        pc := w.pc + (if iExt v then 16 else 8), sregs := setAt (iDst v - 0x100) r w.sregs } ∧
      t.mem = s.mem ∧ t.host = s.host ∧ t.mmu = s.mmu ∧
      ∀ r, r ≠ R.bedIssued n → r ≠ R.bedIssued n + 4 → t.rd r = s.rd r := by
  have hwave : s.wave n slot = some w := by
    obtain ⟨-, hwave, -⟩ := h
    exact hwave
  let c := s.ctx n w o v x
  have hword : c.word = v := rfl
  have hsrc : ([iA v, iB v, iC v].take op.arity).all (c.srcOk false 4) = true :=
    List.all_eq_true.mpr fun code hcode => by
      have hmem := List.mem_of_mem_take hcode
      simp only [List.mem_cons, List.not_mem_nil, or_false] at hmem
      rcases hmem with rfl | rfl | rfl
      · exact hA
      · exact hB
      · exact hC
  have hdst : dstS true (iDst v) = true := by simp [dstS, hlow, hhigh]
  have hmods : bit c.mods 4 = bit (iMod v) 4 := by
    rw [show c.mods = Nat.land (iMod v) 16 from if_neg (by rw [hword, hclass]; decide)]
    exact bit_land_sat_self _
  have hrun : issueAlu n slot code op s = .next (c.change (fun y => y.setS (iDst v)
      (op.elem 4 c.mods (c.free 0 0) (c.elems 4 0 0) .rn).bits) (s.afterIssue n w v)) := by
    refine congrArg Host.Outcome.next ((issue_runs h (by simp [hclass, hop]) _).trans ?_)
    have hext : c.extOk = true := extOk_of_half hx
    show alu op c (s.afterIssue n w v) = _
    simp only [alu, hword, hclass, htype]
    exact (if_neg (by simp [hsrc, hext, htypes, hdst, int32Types])).trans (if_neg (by decide))
  have hset : ∀ y : Wave, y.setS (iDst v) (op.elem 4 c.mods (c.free 0 0) (c.elems 4 0 0) .rn).bits =
      { y with sregs := setAt (iDst v - 0x100) r y.sregs } := fun y => by
    refine (if_pos ⟨hlow, hhigh⟩).trans ?_
    rw [salu_elems (c := c) hclass, ← hr c.mods (c.free 0 0) hmods]
    rfl
  obtain ⟨hw, hmem, hhost, hmmu, hrd⟩ := change_moves hwave o v x (fun y => y.setS (iDst v)
    (op.elem 4 c.mods (c.free 0 0) (c.elems 4 0 0) .rn).bits) (by simp only [hset]; rfl)
  refine ⟨_, hrun, hw.trans ?_, hmem, hhost, hmmu, hrd⟩
  rw [hset]
  rfl

end Sys2Proof.Machine

namespace Sys2Proof
open Sys2Proof.Machine

/-- Settles O43: each operation's element is the stated function of the 32-bit operands. -/
theorem scalarArithmetic : Obligations.ScalarArithmetic := by
  unfold Obligations.ScalarArithmetic
  intro s bed slot w o v x h hx hclass htype hlow hhigh c hA hB hC a b d gives fit
  have hgives : ∀ {op : AluOp} {code : Nat} {r : Nat}, op.types 4 = true →
      (∀ m free, bit m 4 = bit (iMod v) 4 → (op.elem 4 m free ⟨a, b, d⟩ .rn).bits % 2 ^ 32 = r) → iOp v = code → _ :=
    fun {op code r} htypes hr hop =>
      salu_gives h hx hclass htype hlow hhigh hA hB hC (op := op) (code := code) (r := r) htypes hop hr
  have ha : a < 2 ^ 32 := Nat.mod_lt _ (by decide)
  have hb : b < 2 ^ 32 := Nat.mod_lt _ (by decide)
  have hd : d < 2 ^ 32 := Nat.mod_lt _ (by decide)
  refine ⟨hgives rfl ?_, hgives rfl ?_, hgives rfl ?_, hgives rfl ?_, hgives rfl ?_, hgives rfl ?_, hgives rfl ?_,
    hgives rfl ?_, hgives rfl ?_, hgives rfl ?_, hgives rfl ?_, hgives rfl ?_, hgives rfl ?_, hgives rfl ?_,
    hgives rfl ?_, hgives rfl ?_, hgives rfl ?_, fun k hk h1 h2 => hgives rfl ?_, fun h0 => hgives rfl ?_,
    fun hf => hgives rfl ?_, fun n k hd' hnk hn hk => hgives rfl ?_⟩
  -- MOV, ADD, SUB, MUL, MAD, MULHI
  · exact fun m free hm => (Nat.mod_mod _ _).trans (Nat.mod_eq_of_lt ha)
  · intro m free hm
    simp only [fit, ← hm]
    rw [← intRes_uint32_nat, Int.natCast_add, ← intVal_uint32 ha, ← intVal_uint32 hb]
    rfl
  · intro m free hm
    rw [← hm]
    refine (intRes_uint32 m (intVal 4 a - intVal 4 b)).trans ?_
    rw [intVal_uint32 ha, intVal_uint32 hb]
    split <;> omega
  · intro m free hm
    simp only [fit, ← hm]
    rw [← intRes_uint32_nat, Int.natCast_mul, ← intVal_uint32 ha, ← intVal_uint32 hb]
    rfl
  · intro m free hm
    simp only [fit, ← hm]
    rw [← intRes_uint32_nat, Int.natCast_add, Int.natCast_mul, ← intVal_uint32 ha, ← intVal_uint32 hb, ← intVal_uint32 hd]
    rfl
  · intro m free hm
    refine (Nat.mod_mod _ _).trans ?_
    have hprod : a * b < 2 ^ 32 * 2 ^ 32 := Nat.mul_lt_mul'' ha hb
    show ofInt 32 (intVal 4 a * intVal 4 b / 2 ^ 32) % 2 ^ 32 = _
    rw [intVal_uint32 ha, intVal_uint32 hb, ← Int.natCast_mul, ofInt]
    omega
  -- MIN, MAX
  · intro m free hm
    refine (congrArg (fun z : FRes => z.bits % 2 ^ 32) (minMaxElem_uint32 false ha hb)).trans (Nat.mod_eq_of_lt ?_)
    exact Nat.lt_of_le_of_lt (Nat.min_le_left a b) ha
  · intro m free hm
    refine (congrArg (fun z : FRes => z.bits % 2 ^ 32) (minMaxElem_uint32 true ha hb)).trans (Nat.mod_eq_of_lt ?_)
    exact Nat.max_lt.mpr ⟨ha, hb⟩
  -- AND, OR, XOR, NOT
  · exact fun m free hm => (Nat.mod_mod _ _).trans (Nat.mod_eq_of_lt (Nat.and_lt_two_pow _ hb))
  · exact fun m free hm => (Nat.mod_mod _ _).trans (Nat.mod_eq_of_lt (Nat.or_lt_two_pow ha hb))
  · exact fun m free hm => (Nat.mod_mod _ _).trans (Nat.mod_eq_of_lt (Nat.xor_lt_two_pow ha hb))
  · intro m free hm
    refine (Nat.mod_mod _ _).trans ?_
    show (2 ^ 32 - 1 - a % 2 ^ 32) % 2 ^ 32 = _
    omega
  -- SHL, SHR, SAR
  · exact fun m free hm => Nat.mod_mod _ _
  · exact fun m free hm => (Nat.mod_mod _ _).trans (Nat.mod_eq_of_lt (Nat.lt_of_le_of_lt (Nat.div_le_self _ _) ha))
  · intro m free hm
    refine (Nat.mod_mod _ _).trans ?_
    exact sar_uint32 ha _
  -- CLAMP, POPC, CLZ
  · intro m free hm
    have hmin : Nat.min a d < 2 ^ 32 := Nat.lt_of_le_of_lt (Nat.min_le_left a d) ha
    refine (congrArg (· % 2 ^ 32) ?_).trans (Nat.mod_eq_of_lt (Nat.max_lt.mpr ⟨hmin, hb⟩))
    show (minMaxElem true 4 (minMaxElem false 4 a d).bits b).bits = _
    rw [minMaxElem_uint32 false ha hd]
    exact congrArg FRes.bits (minMaxElem_uint32 true hmin hb)
  · intro m free hm
    refine (Nat.mod_mod _ _).trans (Nat.mod_eq_of_lt ?_)
    exact Nat.lt_of_le_of_lt (List.length_filter_le _ _) (by simp [elemBits])
  · intro m free hm
    refine (Nat.mod_mod _ _).trans ?_
    have hpos : a ≠ 0 := by have := Nat.two_pow_pos k; omega
    have hlog : a.log2 = k := (Nat.log2_eq_iff hpos).mpr ⟨h1, h2⟩
    show (if a = 0 then 32 else 31 - a.log2) % 2 ^ 32 = _
    rw [if_neg hpos, hlog]
    omega
  · intro m free hm
    show (if a = 0 then 32 else 31 - a.log2) % 2 ^ 32 % 2 ^ 32 = _
    exact congrArg (· % 2 ^ 32 % 2 ^ 32) (if_pos h0)
  -- BFE, BFI
  · intro m free hm
    refine (congrArg (· % 2 ^ 32) ((if_neg (Nat.not_lt.mpr hf)).trans (if_neg (by simp)))).trans ?_
    exact Nat.mod_eq_of_lt (Nat.lt_of_le_of_lt (Nat.le_trans (Nat.mod_le _ _) (Nat.div_le_self _ _)) ha)
  · intro m free hm
    have hoff : d % 32 = n := by omega
    have hwidth : slice d 8 5 = k := by rw [slice]; omega
    refine (Nat.mod_mod _ _).trans ?_
    show (a % 2 ^ (d % 32) + 2 ^ (d % 32) * (b % 2 ^ slice d 8 5) +
      2 ^ (d % 32 + slice d 8 5) * (a / 2 ^ (d % 32 + slice d 8 5))) % 2 ^ 32 = _
    rw [hoff, hwidth]
    exact Nat.mod_eq_of_lt (bitField_lt ha hnk)

end Sys2Proof
end

section
/-! PROOFS. What an instruction of a bed wave does to its vector registers and predicates (spec/13 R325, R331-R333): lanes
without a numeric event, and the writes of their results. -/
namespace Sys2Proof.Machine

/-- Flags go to the registers and to the order: beds, memory and the host stay (R366). -/
theorem raiseFlags_sameBeds (n uid : Nat) (tiller : Bool) (fl : Nat) (s : State) :
    (raiseFlags n uid tiller fl s).bed.beds = s.bed.beds ∧ (raiseFlags n uid tiller fl s).mem = s.mem ∧
      (raiseFlags n uid tiller fl s).host = s.host := by
  unfold raiseFlags
  split
  · exact ⟨rfl, rfl, rfl⟩
  · dsimp only
    split <;> exact ⟨rfl, rfl, rfl⟩

/-- The wave of a state after a change of the issuing wave. -/
theorem change_of_wave {s : State} {c : Ctx} {y : Wave} (h : s.wave c.n c.w.slot = some y) (f : Wave → Wave)
    (hf : (f y).slot = c.w.slot) :
    (c.change f s).wave c.n c.w.slot = some (f y) ∧ (c.change f s).mem = s.mem ∧ (c.change f s).host = s.host := by
  have hput : c.change f s = putWave c.n (f y) s := by simp only [Ctx.change, h]
  rw [hput]
  exact ⟨wave_putWave h _ hf, rfl, rfl⟩

/-- Lanes whose results raised no event are written into a state with the same waves, memory and host. -/
theorem finish_of_quiet {c : Ctx} {o : LaneOut} {s : State} {y : Wave} (h : s.wave c.n c.w.slot = some y)
    (hevent : o.event = none) (done : List (Nat × Nat) → State → State) :
    ∃ u, c.finish o done s = done o.vals u ∧ u.wave c.n c.w.slot = some y ∧ u.mem = s.mem ∧ u.host = s.host := by
  obtain ⟨hbeds, hmem, hhost⟩ := raiseFlags_sameBeds c.n c.w.uid false o.flags (setBed c.n { s.bedAt c.n with gens := o.gens } s)
  refine ⟨_, by simp only [Ctx.finish, hevent], ?_, hmem, hhost⟩
  rw [State.wave, State.bedAt, hbeds]
  have hbed := bedAt_setBed (State.wave_bed_lt h) { s.bedAt c.n with gens := o.gens }
  rw [State.bedAt] at hbed
  rw [hbed]
  exact h

/-! Writes of a vector register -/

/-- A wave's vector registers after one was written in several threads. -/
def Wave.setVs (w : Wave) (code : Nat) (vals : List (Nat × Nat)) : Wave :=
  vals.foldl (fun x (e : Nat × Nat) => x.setV code e.1 e.2) w

theorem setV_vregs (w : Wave) (code t v : Nat) : w.setV code t v = { w with vregs := (w.setV code t v).vregs } := by
  unfold Wave.setV
  split <;> rfl

theorem setVs_vregs (w : Wave) (code : Nat) (vals : List (Nat × Nat)) :
    w.setVs code vals = { w with vregs := (w.setVs code vals).vregs } := by
  unfold Wave.setVs
  induction vals generalizing w with
  | nil => rfl
  | cons e l ih =>
    rw [List.foldl_cons, ih, setV_vregs w code e.1 e.2]

theorem vreg_setV_same (w : Wave) {code : Nat} (h : code < 0x100) (t v : Nat) : (w.setV code t v).vreg code t = v % 2 ^ 32 := by
  rw [Wave.setV, if_pos h, Wave.vreg]
  exact cellGet_set_same _ _ _ _

theorem vreg_setV_ne (w : Wave) (code t v d k : Nat) (h : d * 32 + k ≠ code * 32 + t) :
    (w.setV code t v).vreg d k = w.vreg d k := by
  unfold Wave.setV
  split
  · exact cellGet_set_ne _ _ _ _ _ h
  · rfl

/-- No write of the list is to this register and thread. -/
theorem vreg_setVs_ne {w : Wave} {code d k : Nat} {vals : List (Nat × Nat)}
    (h : ∀ e ∈ vals, d * 32 + k ≠ code * 32 + e.1) : (w.setVs code vals).vreg d k = w.vreg d k := by
  unfold Wave.setVs
  induction vals generalizing w with
  | nil => rfl
  | cons e l ih =>
    rw [List.foldl_cons, ih fun x hx => h x (List.mem_cons_of_mem _ hx)]
    exact vreg_setV_ne _ _ _ _ _ _ (h e List.mem_cons_self)

/-- Each thread that a list of distinct threads names takes its value. -/
theorem vreg_setVs_map {w : Wave} {code : Nat} (hcode : code < 0x100) {ts : List Nat} (hnodup : ts.Nodup) (r : Nat → Nat)
    {t : Nat} (ht : t ∈ ts) : (w.setVs code (ts.map fun t => (t, r t))).vreg code t = r t % 2 ^ 32 := by
  unfold Wave.setVs
  induction ts generalizing w with
  | nil => cases ht
  | cons a l ih =>
    obtain ⟨ha, hl⟩ := List.nodup_cons.mp hnodup
    rw [List.map_cons, List.foldl_cons]
    rcases List.mem_cons.mp ht with rfl | ht
    · refine (vreg_setVs_ne (vals := l.map fun t => (t, r t)) fun e he => ?_).trans (vreg_setV_same w hcode _ _)
      obtain ⟨b, hb, rfl⟩ := List.mem_map.mp he
      rintro heq
      have hab : t = b := by simpa using heq
      exact ha (hab ▸ hb)
    · exact ih hl ht

theorem mem_threads {c : Ctx} {t : Nat} : t ∈ c.threads ↔ t < 32 ∧ c.acts t = true := by
  simp [Ctx.threads]

theorem threads_nodup (c : Ctx) : c.threads.Nodup := (List.nodup_range (n := 32)).filter _

/-- Results of some of the acting threads, written to one V register: each takes its own, every other thread and register
keeps its value. -/
theorem vreg_setVs_some {c : Ctx} {w : Wave} {code : Nat} (hcode : code < 0x100) (p : Nat → Bool) (r : Nat → Nat) {t : Nat}
    (ht : t < 32) :
    (w.setVs code ((c.threads.filter p).map fun t => (t, r t))).vreg code t =
        ((if c.acts t = true then if p t = true then some (r t) else none else none).elim (w.vreg code t) (· % 2 ^ 32)) ∧
      ∀ d, d ≠ code → (w.setVs code ((c.threads.filter p).map fun t => (t, r t))).vreg d t = w.vreg d t := by
  constructor
  · by_cases hact : c.acts t = true ∧ p t = true
    · rw [if_pos hact.1, if_pos hact.2]
      exact vreg_setVs_map hcode ((threads_nodup c).filter _) r (List.mem_filter.mpr ⟨mem_threads.mpr ⟨ht, hact.1⟩, hact.2⟩)
    · have hnone : (if c.acts t = true then if p t = true then some (r t) else none else none) = none := by
        split
        · exact if_neg fun hp => hact ⟨‹_›, hp⟩
        · rfl
      rw [hnone]
      refine vreg_setVs_ne fun e he heq => hact ?_
      obtain ⟨b, hb, rfl⟩ := List.mem_map.mp he
      obtain ⟨hb, hp⟩ := List.mem_filter.mp hb
      have htb : t = b := by simpa using heq
      exact ⟨htb ▸ (mem_threads.mp hb).2, htb ▸ hp⟩
  · refine fun d hd => vreg_setVs_ne fun e he heq => hd ?_
    obtain ⟨b, hb, rfl⟩ := List.mem_map.mp he
    have hb32 := (mem_threads.mp (List.mem_filter.mp hb).1).1
    simp only at heq
    omega

theorem filter_all {α : Type} (l : List α) : l.filter (fun _ => true) = l := List.filter_eq_self.mpr fun _ _ => rfl

theorem vreg_setVs_threads {c : Ctx} {w : Wave} {code : Nat} (hcode : code < 0x100) (r : Nat → Nat) {t : Nat} (ht : t < 32) :
    (w.setVs code (c.threads.map fun t => (t, r t))).vreg code t = (if c.acts t = true then r t % 2 ^ 32 else w.vreg code t) ∧
      ∀ d, d ≠ code → (w.setVs code (c.threads.map fun t => (t, r t))).vreg d t = w.vreg d t := by
  obtain ⟨hsame, hne⟩ := vreg_setVs_some (w := w) hcode (c := c) (fun _ => true) r ht
  rw [filter_all] at hsame hne
  refine ⟨hsame.trans ?_, hne⟩
  simp only [if_true]
  split <;> rfl

/-! Lanes -/

/-- The word of a thread: its elements, packed. -/
def packed (typ : Nat) (f : Nat → Nat) : Nat :=
  (List.range (32 / elemBits typ)).foldl (fun a e => a + f e % 2 ^ elemBits typ * 2 ^ (elemBits typ * e)) 0

theorem packed_word {typ : Nat} (h : elemBits typ = 32) (f : Nat → Nat) : packed typ f = f 0 % 2 ^ 32 := by
  simp [packed, h]

/-- The elements of a word, packed again, are the word. -/
theorem packed_elemAt (typ v : Nat) : packed typ (elemAt typ v) = v % 2 ^ 32 := by
  have hrun : ∀ n k, (List.range k).foldl (fun a e => a + slice v (n * e) n % 2 ^ n * 2 ^ (n * e)) 0 = v % 2 ^ (n * k) :=
    fun n k => by
      induction k with
      | zero => simp [Nat.mod_one]
      | succ k ih =>
        rw [List.range_succ, List.foldl_append, ih, List.foldl_cons, List.foldl_nil, slice, Nat.mod_mod, Nat.mul_succ,
          Nat.pow_add, Nat.mod_mul, Nat.mul_comm (2 ^ (n * k))]
  have hfit : elemBits typ * (32 / elemBits typ) = 32 := by
    unfold elemBits
    split <;> rfl
  exact (hrun (elemBits typ) _).trans (by rw [hfit])

/-- An element rounded to nearest without a NaN trap: its value, no draw, no event. -/
theorem laneElem_quiet {c : Ctx} (hmode : c.mode = 1) (htrap : woTrapNan c.o.desc = false) (draws : Bool) (t e : Nat)
    (f : Rnd → FRes) {o : LaneOut} (ho : o.event = none) :
    (laneElem c draws t e f o).1 = (f .rn).bits ∧ (laneElem c draws t e f o).2.event = none ∧
      (laneElem c draws t e f o).2.vals = o.vals := by
  simp [laneElem, hmode, ho, nanKind, htrap]

theorem laneThread_quiet {c : Ctx} (hmode : c.mode = 1) (htrap : woTrapNan c.o.desc = false) (draws : Bool) (typ t : Nat)
    (f : Nat → Rnd → FRes) {o : LaneOut} (ho : o.event = none) :
    (laneThread c draws typ t f o).event = none ∧
      (laneThread c draws typ t f o).vals = o.vals ++ [(t, packed typ fun e => (f e .rn).bits)] := by
  have hrun : ∀ (l : List Nat) (a : Nat) (o : LaneOut), o.event = none →
      let r := l.foldl (fun (a : Nat × LaneOut) e =>
        let x := laneElem c draws t e (f e) a.2
        (a.1 + x.1 % 2 ^ elemBits typ * 2 ^ (elemBits typ * e), x.2)) (a, o)
      r.1 = l.foldl (fun a e => a + (f e .rn).bits % 2 ^ elemBits typ * 2 ^ (elemBits typ * e)) a ∧
        r.2.event = none ∧ r.2.vals = o.vals := fun l => by
    induction l with
    | nil => exact fun a o ho => ⟨rfl, ho, rfl⟩
    | cons e l ih =>
      intro a o ho
      obtain ⟨hval, hev, hvals⟩ := laneElem_quiet hmode htrap draws t e (f e) ho
      obtain ⟨h1, h2, h3⟩ := ih (a + (laneElem c draws t e (f e) o).1 % 2 ^ elemBits typ * 2 ^ (elemBits typ * e)) _ hev
      rw [hval] at h1
      exact ⟨by rw [List.foldl_cons, List.foldl_cons, ← h1]; simp only [hval], h2, h3.trans hvals⟩
  obtain ⟨h1, h2, h3⟩ := hrun (List.range (32 / elemBits typ)) 0 o ho
  exact ⟨h2, congr (congrArg (fun a b => a ++ [(t, b)]) h3) h1⟩

/-- Lanes rounded to nearest without a NaN trap: each acting thread's elements, and no event. -/
theorem lanes_quiet {c : Ctx} (hmode : c.mode = 1) (htrap : woTrapNan c.o.desc = false) (draws : Bool) (typ : Nat)
    (f : Nat → Nat → Rnd → FRes) (s : State) :
    (c.lanes draws typ f s).event = none ∧
      (c.lanes draws typ f s).vals = c.threads.map fun t => (t, packed typ fun e => (f t e .rn).bits) := by
  have hrun : ∀ (l : List Nat) (o : LaneOut), o.event = none →
      (l.foldl (fun o t => laneThread c draws typ t (f t) o) o).event = none ∧
        (l.foldl (fun o t => laneThread c draws typ t (f t) o) o).vals =
          o.vals ++ l.map fun t => (t, packed typ fun e => (f t e .rn).bits) := fun l => by
    induction l with
    | nil => exact fun o ho => ⟨ho, (List.append_nil _).symm⟩
    | cons t l ih =>
      intro o ho
      obtain ⟨hev, hvals⟩ := laneThread_quiet hmode htrap draws typ t (f t) ho
      obtain ⟨h1, h2⟩ := ih _ hev
      refine ⟨h1, h2.trans ?_⟩
      rw [hvals, List.append_assoc]
      rfl
  exact hrun c.threads ⟨(s.bedAt c.n).gens, [], 0, none⟩ rfl

end Sys2Proof.Machine
end

section
/-! PROOFS. Instructions that write a predicate, one V register or one S register of a wave (spec/13 R332, R333). -/
namespace Sys2Proof.Machine

/-! Masks -/

/-- Setting a bit that is 0 changes that bit alone. -/
theorem bit_add_two_pow {m i : Nat} (h : bit m i = false) (j : Nat) : bit (m + 2 ^ i) j = if j = i then true else bit m j := by
  have heven : m / 2 ^ i % 2 = 0 := by simpa [bit] using h
  have hpos : 0 < 2 ^ i := Nat.two_pow_pos i
  rcases Nat.lt_trichotomy j i with hj | rfl | hj
  · rw [if_neg (Nat.ne_of_lt hj), bit, bit]
    obtain ⟨d, rfl⟩ : ∃ d, i = j + (d + 1) := ⟨i - j - 1, by omega⟩
    rw [Nat.pow_add, Nat.mul_comm (2 ^ j), Nat.add_mul_div_right _ _ (Nat.two_pow_pos j), Nat.pow_succ]
    congr 1
    rw [Nat.add_mul_mod_self_right]
  · rw [if_pos rfl, bit, Nat.add_div_right _ hpos]
    exact decide_eq_true (by omega)
  · rw [if_neg (Nat.ne_of_gt hj), bit, bit]
    obtain ⟨d, rfl⟩ : ∃ d, j = (i + 1) + d := ⟨j - i - 1, by omega⟩
    have hhalf : (m + 2 ^ i) / 2 ^ (i + 1) = m / 2 ^ (i + 1) := by
      rw [Nat.pow_succ, ← Nat.div_div_eq_div_mul, ← Nat.div_div_eq_div_mul, Nat.add_div_right _ hpos]
      omega
    rw [Nat.pow_add, ← Nat.div_div_eq_div_mul, ← Nat.div_div_eq_div_mul, hhalf]

/-- The bits of a mask are its members. -/
theorem bit_listMask (l : List Nat) (j : Nat) : bit (listMask l) j = true ↔ j ∈ l := by
  induction l with
  | nil => simp [listMask, bit]
  | cons i is ih =>
    rw [listMask, List.mem_cons]
    by_cases hi : bit (listMask is) i = true
    · rw [if_pos hi, ih]
      refine ⟨.inr, ?_⟩
      rintro (rfl | h)
      · exact ih.mp hi
      · exact h
    · rw [if_neg hi, bit_add_two_pow (by simpa using hi)]
      by_cases hj : j = i
      · simp [hj]
      · simp [hj, ih]

/-! The three kinds of destination -/

section
variable {s : State} {n slot : Fin 48} {w : Wave} {o : Order} {v x : Nat} (h : s.issues n slot w o v x)
include h

theorem issues_wave : s.wave n slot = some w := by
  obtain ⟨-, hwave, -⟩ := h
  exact hwave

theorem issues_slot : (s.ctx n w o v x).w.slot = slot := State.wave_slot (issues_wave h)

/-- Results written to one V register after an issue. -/
theorem writeV_after {u : State} (hu : u.wave n slot = some (w.past v)) (hmem : u.mem = s.mem) (hhost : u.host = s.host)
    (hdst : iDst v < 0x100) (p : Nat → Bool) (r : Nat → Nat) :
    let c := s.ctx n w o v x
    let t := c.writeV ((c.threads.filter p).map fun t => (t, r t)) u
    ∃ w', t.wave n slot = some w' ∧ w' = { w with pc := w.pc + (if iExt v then 16 else 8), vregs := w'.vregs } ∧
      t.mem = s.mem ∧ t.host = s.host ∧
      ∀ th, th < 32 → w'.vreg (iDst v) th =
          ((if c.acts th = true then if p th = true then some (r th) else none else none).elim
            (w.vreg (iDst v) th) (· % 2 ^ 32)) ∧
        ∀ d, d ≠ iDst v → w'.vreg d th = w.vreg d th := by
  intro c t
  have hwave : u.wave c.n c.w.slot = some (w.past v) := (issues_slot h).symm ▸ hu
  obtain ⟨hw, hm, hh⟩ := change_of_wave (c := c) hwave
    (fun y => y.setVs (iDst v) ((c.threads.filter p).map fun t => (t, r t))) (by rw [setVs_vregs]; rfl)
  refine ⟨_, issues_slot h ▸ hw, by rw [setVs_vregs]; rfl, hm.trans hmem, hh.trans hhost, fun th hth => ?_⟩
  exact vreg_setVs_some (c := c) (w := w.past v) hdst p r hth

/-- A result written to one S register after an issue. -/
theorem writeS_after {u : State} (hu : u.wave n slot = some (w.past v)) (hmem : u.mem = s.mem)
    (hlow : 0x100 ≤ iDst v) (hhigh : iDst v ≤ 0x11F) (r : Nat) :
    let t := (s.ctx n w o v x).writeS r u
    t.mem = s.mem ∧ t.wave n slot = some { w with
      pc := w.pc + (if iExt v then 16 else 8), sregs := setAt (iDst v - 0x100) (r % 2 ^ 32) w.sregs } := by
  intro t
  have hwave : u.wave (s.ctx n w o v x).n (s.ctx n w o v x).w.slot = some (w.past v) := (issues_slot h).symm ▸ hu
  have hset : ∀ y : Wave, y.setS (iDst v) r = { y with sregs := setAt (iDst v - 0x100) (r % 2 ^ 32) y.sregs } :=
    fun y => if_pos ⟨hlow, hhigh⟩
  obtain ⟨hw, hm, -⟩ := change_of_wave hwave (fun y => y.setS (iDst v) r) (by rw [hset]; rfl)
  refine ⟨hm.trans hmem, (issues_slot h ▸ hw : t.wave n slot = _).trans ?_⟩
  rw [hset]
  rfl

/-- A predicate written after an issue: a bit per acting thread, the others kept. -/
theorem writeP_after (hdst : isP (iDst v) = true) (hlen : w.pregs.length = 8) (f : Nat → Bool) :
    let c := s.ctx n w o v x
    let t := c.writeP f (s.afterIssue n w v)
    ∃ w', t.wave n slot = some w' ∧ w' = { w with pc := w.pc + (if iExt v then 16 else 8), pregs := w'.pregs } ∧
      t.mem = s.mem ∧
      (∀ th, th < 32 → c.acts th = true → (bit (w'.pregs.getD (iDst v - 0x190) 0) th = true ↔ f th = true)) ∧
      (∀ th, th < 32 → c.acts th = false →
        bit (w'.pregs.getD (iDst v - 0x190) 0) th = bit (w.pregs.getD (iDst v - 0x190) 0) th) ∧
      ∀ k, k ≠ iDst v - 0x190 → w'.pregs.getD k 0 = w.pregs.getD k 0 := by
  intro c t
  let m := listMask ((List.range 32).filter fun t => if c.acts t then f t else bit (w.pregs.getD (iDst v - 0x190) 0) t)
  have hidx : iDst v - 0x190 < w.pregs.length := by
    simp only [isP, Bool.and_eq_true, decide_eq_true_eq] at hdst
    omega
  have hbit : ∀ th, th < 32 → (bit m th = true ↔
      (if c.acts th then f th else bit (w.pregs.getD (iDst v - 0x190) 0) th) = true) := fun th hth => by
    simp only [m, bit_listMask, List.mem_filter, List.mem_range, hth, true_and]
  have hwave : (s.afterIssue n w v).wave c.n c.w.slot = some (w.past v) :=
    (issues_slot h).symm ▸ wave_afterIssue (issues_wave h) v
  obtain ⟨hw, hm, -⟩ := change_of_wave (c := c) hwave (fun y => { y with pregs := setAt (iDst v - 0x190) m y.pregs }) rfl
  have hget : ∀ k, (setAt (iDst v - 0x190) m w.pregs).getD k 0 =
      if k = iDst v - 0x190 then m else w.pregs.getD k 0 := fun k => getD_setAt _ _ _ _ _ hidx
  refine ⟨_, (congrArg (t.wave n) (issues_slot h).symm).trans hw, rfl, hm, fun th hth hact => ?_, fun th hth hact => ?_, fun k hk => ?_⟩
  · exact (iff_of_eq (congrArg (fun z => bit z th = true) ((hget _).trans (if_pos rfl)))).trans
      ((hbit th hth).trans (by rw [if_pos hact]))
  · have hfree := (hbit th hth).trans (by rw [hact, if_neg Bool.false_ne_true])
    exact (congrArg (fun z => bit z th) ((hget _).trans (if_pos rfl))).trans (Bool.eq_iff_iff.mpr hfree)
  · exact (hget k).trans (if_neg hk)

end

end Sys2Proof.Machine
end

section
/-! PROOFS. Compares, predicate logic, conversion and cross-lane instructions (spec/13 R332, R333). -/
namespace Sys2Proof.Machine

/-! Running an instruction whose operands are valid -/

section
variable {s : State} {n slot : Fin 48} {w : Wave} {o : Order} {v x : Nat} (h : s.issues n slot w o v x) (hx : x / 2 ^ 32 = 0)
include h hx

theorem compare_runs {code : Nat} (hclass : iClass v = 3) (hop : iOp v = code) (hdst : isP (iDst v) = true)
    (htype : anyType (iType v) = true) (hA : (s.ctx n w o v x).srcOk true (iType v) (iA v) = true)
    (hB : (s.ctx n w o v x).srcOk true (iType v) (iB v) = true) (f : Nat → Nat → Nat → Bool) :
    compare code f n slot s = .next ((s.ctx n w o v x).writeP (fun th => f (iType v) ((s.ctx n w o v x).src (iType v) (iA v) th)
      ((s.ctx n w o v x).src (iType v) (iB v) th)) (s.afterIssue n w v)) := by
  refine congrArg Host.Outcome.next ((issue_runs h (by simp [hclass, hop]) _).trans (if_neg ?_))
  simp [show (s.ctx n w o v x).word = v from rfl, hdst, htype, hA, hB, extOk_of_half hx]

theorem predOp_runs {code : Nat} {two : Bool} (hclass : iClass v = 3) (hop : iOp v = code) (hdst : isP (iDst v) = true)
    (hA : isP (iA v) = true) (hB : isP (iB v) = true) (f : Bool → Bool → Bool) :
    predOp code two f n slot s = .next ((s.ctx n w o v x).writeP (fun th => f (bit ((s.ctx n w o v x).pred (iA v)) th)
      (bit ((s.ctx n w o v x).pred (iB v)) th)) (s.afterIssue n w v)) := by
  refine congrArg Host.Outcome.next ((issue_runs h (by simp [hclass, hop]) _).trans (if_neg ?_))
  simp [show (s.ctx n w o v x).word = v from rfl, hdst, hA, hB, extOk_of_half hx]

theorem xlane_runs {code : Nat} (hclass : iClass v = 10) (hop : iOp v = code) (htype : anyType (iType v) = true)
    {ok : Ctx → Bool} (hok : ok (s.ctx n w o v x) = true) (body : Ctx → State → State) :
    xlane code ok body n slot s = .next (body (s.ctx n w o v x) (s.afterIssue n w v)) := by
  refine congrArg Host.Outcome.next ((issue_runs h (by simp [hclass, hop]) _).trans (if_neg ?_))
  simp [show (s.ctx n w o v x).word = v from rfl, hok, htype, extOk_of_half hx]

end

/-! Elements of TYPE UINT32 -/

theorem elemAt_uint32 (y : Nat) : elemAt 4 y 0 = y % 2 ^ 32 := by simp [elemAt, slice, elemBits]

theorem cmpElem_uint32 (y z : Nat) : cmpElem 4 y z =
    if y % 2 ^ 32 < z % 2 ^ 32 then 0 else if z % 2 ^ 32 < y % 2 ^ 32 then 2 else 1 := by
  have hy := intVal_uint32 (Nat.mod_lt y (show 0 < 2 ^ 32 by decide))
  have hz := intVal_uint32 (Nat.mod_lt z (show 0 < 2 ^ 32 by decide))
  simp only [cmpElem, typeFmt, elemAt_uint32, hy, hz, Int.ofNat_lt]

theorem cmpElem_uint32_below (y z : Nat) : cmpElem 4 y z = 0 ↔ y % 2 ^ 32 < z % 2 ^ 32 := by
  rw [cmpElem_uint32]
  split
  · omega
  · split <;> omega

theorem cmpElem_uint32_equal (y z : Nat) : cmpElem 4 y z = 1 ↔ y % 2 ^ 32 = z % 2 ^ 32 := by
  rw [cmpElem_uint32]
  split
  · omega
  · split <;> omega

theorem cmpElem_uint32_above (y z : Nat) : cmpElem 4 y z = 2 ↔ z % 2 ^ 32 < y % 2 ^ 32 := by
  rw [cmpElem_uint32]
  split
  · omega
  · split <;> omega

theorem cmpElem_uint32_le (y z : Nat) : cmpElem 4 y z ≤ 2 := by
  rw [cmpElem_uint32]
  split
  · decide
  · split <;> decide

theorem cmpElem_uint32_ordered (y z : Nat) : cmpElem 4 y z ≠ 3 := fun h => by
  have := cmpElem_uint32_le y z
  omega

/-- A UINT32 converted to UINT32 (R360). -/
theorem convert_uint32 (m : Rnd) (y : Nat) : (convert m 4 4 (elemAt 4 y 0)).bits = y % 2 ^ 32 := by
  have hy : y % 2 ^ 32 < 2 ^ 32 := Nat.mod_lt _ (by decide)
  have hval : (convert m 4 4 (elemAt 4 y 0)).bits = ofInt 32 (max 0 (min (intVal 4 (elemAt 4 y 0)) (2 ^ 32 - 1))) := rfl
  rw [hval, elemAt_uint32, intVal_uint32 hy, ofInt]
  omega

/-- CVT of UINT32 to UINT32 writes each acting thread's source. -/
theorem cvt_runs {s : State} {n slot : Fin 48} {w : Wave} {o : Order} {v x : Nat} (h : s.issues n slot w o v x)
    (hx : x / 2 ^ 32 = 0) (hclass : iClass v = 4) (hop : iOp v = 4) (htype : iType v = 4)
    (hmode : (s.ctx n w o v x).mode = 1) (htrap : woTrapNan o.desc = false)
    (hA : (s.ctx n w o v x).srcOk true 4 (iA v) = true) (hdst : (s.ctx n w o v x).dstV (iDst v) = true) :
    ∃ (u : State) (g : Nat → Nat), execCvt n slot s = .next ((s.ctx n w o v x).writeV ((s.ctx n w o v x).threads.map fun t => (t, g t)) u) ∧
      (∀ t, g t % 2 ^ 32 = (s.ctx n w o v x).src 4 (iA v) t % 2 ^ 32) ∧ u.wave n slot = some (w.past v) ∧ u.mem = s.mem ∧ u.host = s.host := by
  let c := s.ctx n w o v x
  have hwave : (s.afterIssue n w v).wave c.n c.w.slot = some (w.past v) :=
    (issues_slot h).symm ▸ wave_afterIssue (issues_wave h) v
  let out := c.lanes false 0 (fun th _ r => convert r 4 4 (elemAt 4 (c.src 4 (iA v) th) 0)) (s.afterIssue n w v)
  obtain ⟨hevent, hvals⟩ := lanes_quiet (c := c) hmode htrap false 0
    (fun th _ r => convert r 4 4 (elemAt 4 (c.src 4 (iA v) th) 0)) (s.afterIssue n w v)
  have hquiet : ({ out with event := out.event.map fun e => (e.1, 0, e.2.2) } : LaneOut).event = none := by
    simp [out, hevent]
  obtain ⟨u, hfin, huw, hum, huh⟩ := finish_of_quiet (c := c) hwave hquiet (fun vals u => c.writeV (vals.map fun e =>
    (e.1, c.src 4 (iDst v) e.1 % 2 ^ 0 + 2 ^ 0 * (e.2 % 2 ^ 32) + 2 ^ (0 + 32) * (c.src 4 (iDst v) e.1 / 2 ^ (0 + 32)))) u)
  have hrun : execCvt n slot s = .next (c.finish { out with event := out.event.map fun e => (e.1, 0, e.2.2) } (fun vals u =>
      c.writeV (vals.map fun e => (e.1, c.src 4 (iDst v) e.1 % 2 ^ 0 + 2 ^ 0 * (e.2 % 2 ^ 32) +
        2 ^ (0 + 32) * (c.src 4 (iDst v) e.1 / 2 ^ (0 + 32)))) u) (s.afterIssue n w v)) := by
    refine congrArg Host.Outcome.next ((issue_runs h (by simp [hclass, hop]) _).trans ?_)
    simp only [show (s.ctx n w o v x).word = v from rfl, hop, htype]
    exact if_neg (by simp [hA, hdst, extOk_of_half hx, anyType, elemBits])
  refine ⟨u, fun t => c.src 4 (iDst v) t % 2 ^ 0 + 2 ^ 0 * (c.src 4 (iA v) t % 2 ^ 32 % 2 ^ 32) +
    2 ^ (0 + 32) * (c.src 4 (iDst v) t / 2 ^ (0 + 32)), hrun.trans (congrArg _ (hfin.trans
    (congrArg (fun l => c.writeV l u) ?_))), fun t => by simp only [c]; omega, issues_slot h ▸ huw, hum, huh⟩
  show ((c.lanes false 0 _ _).vals).map _ = _
  rw [hvals, List.map_map]
  refine List.map_congr_left fun t _ => ?_
  simp only [Function.comp, packed_word (typ := 0) rfl, convert_uint32, Nat.mod_mod]

/-- The sum over the acting threads, taken as a sum over all with 0 for the others. -/
theorem foldl_sum_acting (p : Nat → Bool) (g : Nat → Nat) (l : List Nat) (a : Nat) (hg : ∀ t, g t < 2 ^ 32) :
    (l.map fun t => if p t then g t else 0).foldl (fun (z : Int) y => z + intVal 4 y) a =
      ((a + ((l.filter p).map g).sum : Nat) : Int) := by
  induction l generalizing a with
  | nil => simp
  | cons t l ih =>
    rw [List.map_cons, List.foldl_cons]
    by_cases hp : p t = true
    · rw [if_pos hp, intVal_uint32 (hg t), ← Int.natCast_add, ih, List.filter_cons_of_pos hp, List.map_cons, List.sum_cons,
        Nat.add_assoc]
    · rw [if_neg hp, show intVal 4 0 = 0 from rfl, Int.add_zero, ih, List.filter_cons_of_neg hp]

/-- RADD of UINT32 (R333). -/
theorem radd_reduces (n slot : Fin 48) (s : State) : ∃ f, execRadd n slot s = reduce 4 f n slot s ∧
    ∀ c : Ctx, iType c.word = 4 → (f c 0 0).bits % 2 ^ 32 = ((c.threads.map fun t => c.src 4 (iA c.word) t % 2 ^ 32).sum) % 2 ^ 32 := by
  refine ⟨_, rfl, fun c htype => ?_⟩
  have hcol : c.column 0 0 = (List.range 32).map fun t => if c.acts t then c.src 4 (iA c.word) t % 2 ^ 32 else 0 := by
    simp only [Ctx.column, htype, elemAt_uint32]
  simp only [htype, typeFmt, hcol, elemBits]
  have hsum := foldl_sum_acting c.acts (fun t => c.src 4 (iA c.word) t % 2 ^ 32) (List.range 32) 0
    fun t => Nat.mod_lt _ (by decide)
  simp only [FRes.plain]
  refine (congrArg (fun z => ofInt 32 z % 2 ^ 32) hsum).trans ?_
  rw [ofInt, Ctx.threads]
  omega

/-- RMIN and RMAX of UINT32 pick a member that no other is beyond. -/
theorem foldPick_bits (isMax : Bool) (l : List Nat) (a : FRes) (h : ∀ y ∈ a.bits :: l, y < 2 ^ 32) :
    let r := (l.foldl (fun (a : FRes) y =>
      let r := minMaxElem isMax 4 a.bits y
      (⟨r.bits, Nat.lor a.flags r.flags, a.gen || r.gen, a.nanOp || r.nanOp⟩ : FRes)) a).bits
    r ∈ a.bits :: l ∧ ∀ y ∈ a.bits :: l, if isMax = true then y ≤ r else r ≤ y := by
  induction l generalizing a with
  | nil =>
    refine ⟨List.mem_cons_self, fun y hy => ?_⟩
    rw [List.mem_singleton.mp hy]
    split <;> exact Nat.le_refl _
  | cons b l ih =>
    have ha : a.bits < 2 ^ 32 := h _ List.mem_cons_self
    have hb : b < 2 ^ 32 := h _ (List.mem_cons_of_mem _ List.mem_cons_self)
    have hl : ∀ y ∈ l, y < 2 ^ 32 := fun y hy => h _ (List.mem_cons_of_mem _ (List.mem_cons_of_mem _ hy))
    have hpick : (minMaxElem isMax 4 a.bits b).bits = if isMax then Nat.max a.bits b else Nat.min a.bits b := by
      rw [minMaxElem_uint32 isMax ha hb]
      rfl
    have hlt : (minMaxElem isMax 4 a.bits b).bits < 2 ^ 32 := by
      rw [hpick]
      split
      · exact Nat.max_lt.mpr ⟨ha, hb⟩
      · exact Nat.lt_of_le_of_lt (Nat.min_le_left _ _) ha
    have hor : (minMaxElem isMax 4 a.bits b).bits = a.bits ∨ (minMaxElem isMax 4 a.bits b).bits = b := by
      rw [hpick]
      split
      · show max a.bits b = a.bits ∨ max a.bits b = b
        omega
      · show min a.bits b = a.bits ∨ min a.bits b = b
        omega
    obtain ⟨hmem, hall⟩ := ih ⟨(minMaxElem isMax 4 a.bits b).bits, Nat.lor a.flags (minMaxElem isMax 4 a.bits b).flags,
      a.gen || (minMaxElem isMax 4 a.bits b).gen, a.nanOp || (minMaxElem isMax 4 a.bits b).nanOp⟩
      (List.forall_mem_cons.mpr ⟨hlt, hl⟩)
    refine ⟨?_, ?_⟩
    · rcases List.mem_cons.mp hmem with heq | hr
      · rcases hor with ho | ho
        · exact List.mem_cons.mpr (.inl (heq.trans ho))
        · exact List.mem_cons_of_mem _ (List.mem_cons.mpr (.inl (heq.trans ho)))
      · exact List.mem_cons_of_mem _ (List.mem_cons_of_mem _ hr)
    · obtain ⟨hfirst, hrest⟩ := List.forall_mem_cons.mp hall
      have hboth : if isMax = true then a.bits ≤ (minMaxElem isMax 4 a.bits b).bits ∧ b ≤ (minMaxElem isMax 4 a.bits b).bits
          else (minMaxElem isMax 4 a.bits b).bits ≤ a.bits ∧ (minMaxElem isMax 4 a.bits b).bits ≤ b := by
        rw [hpick]
        cases isMax
        · exact ⟨Nat.min_le_left _ _, Nat.min_le_right _ _⟩
        · exact ⟨Nat.le_max_left _ _, Nat.le_max_right _ _⟩
      refine List.forall_mem_cons.mpr ⟨?_, List.forall_mem_cons.mpr ⟨?_, hrest⟩⟩
      · cases isMax
        · exact Nat.le_trans (show _ ≤ (minMaxElem false 4 a.bits b).bits from hfirst) hboth.1
        · exact Nat.le_trans hboth.1 (show (minMaxElem true 4 a.bits b).bits ≤ _ from hfirst)
      · cases isMax
        · exact Nat.le_trans (show _ ≤ (minMaxElem false 4 a.bits b).bits from hfirst) hboth.2
        · exact Nat.le_trans hboth.2 (show (minMaxElem true 4 a.bits b).bits ≤ _ from hfirst)

/-- RMIN and RMAX of UINT32: the acting thread's element that no other is beyond (R333). -/
theorem foldPick_extreme {c : Ctx} (htype : iType c.word = 4) (isMax : Bool) {m : Nat}
    (hm : m ∈ c.threads.map fun t => c.src 4 (iA c.word) t % 2 ^ 32)
    (hall : ∀ y ∈ c.threads.map (fun t => c.src 4 (iA c.word) t % 2 ^ 32), if isMax = true then y ≤ m else m ≤ y) :
    (foldPick isMax c 0).bits = m := by
  have hlt : ∀ y ∈ c.threads.map (fun t => c.src 4 (iA c.word) t % 2 ^ 32), y < 2 ^ 32 := fun y hy => by
    obtain ⟨t, -, rfl⟩ := List.mem_map.mp hy
    exact Nat.mod_lt _ (by decide)
  simp only [foldPick, htype, elemAt_uint32]
  generalize c.threads.map (fun t => c.src 4 (iA c.word) t % 2 ^ 32) = l at hm hall hlt
  cases l with
  | nil => cases hm
  | cons a l =>
    obtain ⟨hmem, hbeyond⟩ := foldPick_bits isMax l (.plain a 0) hlt
    have h1 := hall _ hmem
    have h2 := hbeyond m hm
    cases isMax
    · exact Nat.le_antisymm h2 h1
    · exact Nat.le_antisymm h1 h2

/-- A reduction of UINT32 without a NaN trap writes its value, or 0 where no thread acts. -/
theorem reduce_runs {s : State} {n slot : Fin 48} {w : Wave} {o : Order} {v x : Nat} (h : s.issues n slot w o v x)
    (hx : x / 2 ^ 32 = 0) {code : Nat} (hclass : iClass v = 10) (hop : iOp v = code) (htype : iType v = 4)
    (htrap : woTrapNan o.desc = false) (hA : (s.ctx n w o v x).srcOk true 4 (iA v) = true) (hdst : dstS false (iDst v) = true)
    (f : Ctx → Nat → Nat → FRes) :
    ∃ u, reduce code f n slot s = .next ((s.ctx n w o v x).writeS (if (s.ctx n w o v x).threads.isEmpty then 0 else
        (f (s.ctx n w o v x) 0 0).bits % 2 ^ 32) u) ∧
      u.wave n slot = some (w.past v) ∧ u.mem = s.mem := by
  let c := s.ctx n w o v x
  have hwave : (s.afterIssue n w v).wave c.n c.w.slot = some (w.past v) :=
    (issues_slot h).symm ▸ wave_afterIssue (issues_wave h) v
  have hquiet : ∀ (r : FRes), nanKind (s.ctx n w o v x).o.desc r = none := fun r => by
    simp [nanKind, show (s.ctx n w o v x).o.desc = o.desc from rfl, htrap]
  let out : LaneOut := ⟨((s.afterIssue n w v).bedAt n).gens, [], if c.threads.isEmpty then 0 else Nat.lor 0 (f c 0 0).flags, none⟩
  obtain ⟨u, hfin, huw, hum, -⟩ := finish_of_quiet (c := c) (o := out) hwave rfl
    (fun _ u => c.writeS (if c.threads.isEmpty then 0 else (f c 0 0).bits % 2 ^ 32) u)
  refine ⟨u, (xlane_runs h hx hclass hop (by rw [htype]; rfl) ?_ _).trans (congrArg _ (Eq.trans ?_ hfin)),
    issues_slot h ▸ huw, hum⟩
  · simp [show (s.ctx n w o v x).word = v from rfl, htype, hA, hdst, addTypes]
  · simp [show (s.ctx n w o v x).word = v from rfl, htype, elemBits, hquiet, List.range_succ, out, c] <;> rfl

end Sys2Proof.Machine

namespace Sys2Proof
open Sys2Proof.Machine

/-- Settles O45: an instruction runs its body, the body writes one predicate, V register or S register, and the element of
TYPE UINT32 is the stated one. -/
theorem comparesAndLanes : Obligations.ComparesAndLanes := by
  unfold Obligations.ComparesAndLanes
  intro s bed slot w o v x h hx c past src setsP setsV setsS
  -- the three kinds of destination
  have hP : ∀ {cls op : Nat} {i : Instr} {r : Nat → Prop} (f : Nat → Bool),
      (iClass v = cls → iOp v = op → isP (iDst v) = true → exec i s = .next (c.writeP f (s.afterIssue bed w v))) →
      (∀ th, f th = true ↔ r th) → setsP cls op i r := fun {cls op i r} f hrun hf hclass hop hdst hlen => by
    obtain ⟨w', hw, hpast, hmem, hacts, hfree, hother⟩ := writeP_after h hdst hlen f
    exact ⟨_, w', hrun hclass hop hdst, hw, hpast, hmem, fun th hth hact => (hacts th hth hact).trans (hf th), hfree, hother⟩
  have hV : ∀ {cls op : Nat} {i : Instr} {r : Nat → Option Nat} (p : Nat → Bool) (f : Nat → Nat) (u : State),
      u.wave bed slot = some (w.past v) → u.mem = s.mem → u.host = s.host →
      (iClass v = cls → iOp v = op → iDst v < 0x100 → iDst v < w.vgprs →
        exec i s = .next (c.writeV ((c.threads.filter p).map fun t => (t, f t)) u)) →
      (∀ th, (if p th = true then some (f th % 2 ^ 32) else none) = (r th).map (· % 2 ^ 32)) → setsV cls op i r :=
    fun {cls op i r} p f u hu hmem hhost hrun hf hclass hop hdst hvgprs => by
      obtain ⟨w', hw, hpast, hm, -, hval⟩ := writeV_after h hu hmem hhost hdst p f
      refine ⟨_, w', hrun hclass hop hdst hvgprs, hw, hpast, hm, fun th hth => ⟨(hval th hth).1.trans ?_, (hval th hth).2⟩⟩
      have hth' : (if p th = true then some (f th) else none).map (· % 2 ^ 32) = (r th).map (· % 2 ^ 32) := by
        rw [← hf th]
        split <;> rfl
      have helim : ∀ (z : Option Nat) (d : Nat), z.elim d (· % 2 ^ 32) = (z.map (· % 2 ^ 32)).getD d := fun z d => by
        cases z <;> rfl
      split
      · rw [helim, helim, hth']
      · rfl
  have hS : ∀ {cls op : Nat} {i : Instr} {r r' : Nat} (u : State),
      u.wave bed slot = some (w.past v) → u.mem = s.mem →
      (iClass v = cls → iOp v = op → 0x100 ≤ iDst v → iDst v ≤ 0x11F → exec i s = .next (c.writeS r' u)) →
      r' % 2 ^ 32 = r % 2 ^ 32 → setsS cls op i r := fun {cls op i r r'} u hu hmem hrun hr hclass hop hlow hhigh => by
    obtain ⟨hm, hw⟩ := writeS_after h hu hmem hlow hhigh r'
    exact ⟨_, hrun hclass hop hlow hhigh, hm, hr ▸ hw⟩
  have hu : (s.afterIssue bed w v).wave bed slot = some (w.past v) := wave_afterIssue (issues_wave h) v
  have hword : c.word = v := rfl
  have hdstV : iDst v < 0x100 → iDst v < w.vgprs → c.dstV (iDst v) = true := fun hd hv => by
    simp [Ctx.dstV, hd, show c.w.vgprs = w.vgprs from rfl, hv]
  refine ⟨fun htype hA hB => ?_, fun hA hB => ?_, fun htype hA htrap => ?_, fun hA htype => ?_, fun htype hA => ?_⟩
  · have hcmp : ∀ (op : Nat) (i : Instr) (r : Nat → Prop) (f : Nat → Nat → Nat → Bool), exec i s = compare op f bed slot s →
        (∀ th, f (iType v) (c.src (iType v) (iA v) th) (c.src (iType v) (iB v) th) = true ↔ r th) → setsP 3 op i r := fun op i r f hi hf =>
      hP (fun th => f (iType v) (c.src (iType v) (iA v) th) (c.src (iType v) (iB v) th))
        (fun hclass hop hdst => hi.trans
          (compare_runs h hx hclass hop hdst (by rw [htype]; rfl) (htype.symm ▸ hA) (htype.symm ▸ hB) f)) hf
    refine ⟨hcmp 0 (.eq bed slot) _ (fun t a b => cmpElem t a b == 1) rfl fun th => ?_,
      hcmp 1 (.ne bed slot) _ (fun t a b => cmpElem t a b != 1) rfl fun th => ?_,
      hcmp 2 (.lt bed slot) _ (fun t a b => cmpElem t a b == 0) rfl fun th => ?_,
      hcmp 3 (.le bed slot) _ (fun t a b => cmpElem t a b ≤ 1) rfl fun th => ?_,
      hcmp 4 (.gt bed slot) _ (fun t a b => cmpElem t a b == 2) rfl fun th => ?_,
      hcmp 5 (.ge bed slot) _ (fun t a b => cmpElem t a b == 1 || cmpElem t a b == 2) rfl fun th => ?_,
      hcmp 6 (.ord bed slot) _ (fun t a b => cmpElem t a b != 3) rfl fun th => ?_,
      hcmp 7 (.unord bed slot) _ (fun t a b => cmpElem t a b == 3) rfl fun th => ?_,
      hcmp 8 (.test bed slot) _ (fun _ a b => Nat.land a b != 0) rfl fun th => ?_⟩
    · simp only [src, htype, beq_iff_eq]
      exact cmpElem_uint32_equal _ _
    · simp only [src, htype, bne_iff_ne]
      exact not_congr (cmpElem_uint32_equal _ _)
    · simp only [src, htype, beq_iff_eq]
      exact cmpElem_uint32_below _ _
    · simp only [src, htype, decide_eq_true_eq]
      refine Iff.trans ?_ Nat.not_lt
      rw [← cmpElem_uint32_above]
      have := cmpElem_uint32_le (c.src 4 (iA v) th) (c.src 4 (iB v) th)
      omega
    · simp only [src, htype, beq_iff_eq]
      exact cmpElem_uint32_above _ _
    · simp only [src, htype, Bool.or_eq_true, beq_iff_eq]
      rw [cmpElem_uint32_equal, cmpElem_uint32_above]
      omega
    · simp only [htype, bne_iff_ne, iff_true]
      exact cmpElem_uint32_ordered _ _
    · simp only [htype, beq_iff_eq, iff_false]
      exact cmpElem_uint32_ordered _ _
    · simp only [htype, bne_iff_ne]
  · intro p q
    have hpred : ∀ (op : Nat) (i : Instr) (r : Nat → Prop) (two : Bool) (f : Bool → Bool → Bool),
        exec i s = predOp op two f bed slot s → (∀ th, f (bit (c.pred (iA v)) th) (bit (c.pred (iB v)) th) = true ↔ r th) → setsP 3 op i r :=
      fun op i r two f hi hf =>
        hP _ (fun hclass hop hdst => hi.trans (predOp_runs h hx hclass hop hdst hA hB f)) hf
    refine ⟨hpred 0x10 (.pand bed slot) _ true (fun a b => a && b) rfl fun th => ?_,
      hpred 0x11 (.por bed slot) _ true (fun a b => a || b) rfl fun th => ?_,
      hpred 0x12 (.pxor bed slot) _ true (fun a b => a != b) rfl fun th => ?_,
      hpred 0x13 (.pnot bed slot) _ false (fun a _ => !a) rfl fun th => ?_⟩
    · simp [p, q]
    · simp [p, q]
    · simp only [p, q]
      cases bit (c.pred (iA v)) th <;> cases bit (c.pred (iB v)) th <;> decide
    · simp [p]
  · have hxv : ∀ (op : Nat) (i : Instr) (r : Nat → Option Nat) (ok : Ctx → Bool) (body : Ctx → State → State) (p : Nat → Bool)
        (f : Nat → Nat), exec i s = xlane op ok body bed slot s →
        (iDst v < 0x100 → iDst v < w.vgprs → ok c = true) →
        body c (s.afterIssue bed w v) = c.writeV ((c.threads.filter p).map fun t => (t, f t)) (s.afterIssue bed w v) →
        (∀ th, (if p th = true then some (f th % 2 ^ 32) else none) = (r th).map (· % 2 ^ 32)) → setsV 10 op i r :=
      fun op i r ok body p f hi hok hbody hr => hV p f _ hu rfl rfl (fun hclass hop hdst hvgprs =>
        hi.trans ((xlane_runs h hx hclass hop (by rw [htype]; rfl) (hok hdst hvgprs) body).trans (congrArg _ hbody))) hr
    have hxs : ∀ (op : Nat) (i : Instr) (r r' : Nat) (ok : Ctx → Bool) (body : Ctx → State → State) (u : State),
        exec i s = xlane op ok body bed slot s → u.wave bed slot = some (w.past v) → u.mem = s.mem →
        (dstS false (iDst v) = true → ok c = true) → body c (s.afterIssue bed w v) = c.writeS r' u →
        r' % 2 ^ 32 = r % 2 ^ 32 → setsS 10 op i r :=
      fun op i r r' ok body u hi hu hmem hok hbody hr => hS u hu hmem (fun hclass hop hlow hhigh =>
        hi.trans ((xlane_runs h hx hclass hop (by rw [htype]; rfl) (hok (by simp [dstS, hlow, hhigh])) body).trans
          (congrArg _ hbody))) hr
    have hreduce : ∀ (op : Nat) (i : Instr) (r : Nat) (f : Ctx → Nat → Nat → FRes), exec i s = reduce op f bed slot s →
        (if c.threads.isEmpty then 0 else (f c 0 0).bits % 2 ^ 32) % 2 ^ 32 = r % 2 ^ 32 → setsS 10 op i r :=
      fun op i r f hi hr hclass hop hlow hhigh => by
        obtain ⟨u, hrun, huw, hum⟩ := reduce_runs h hx hclass hop htype htrap hA (by simp [dstS, hlow, hhigh]) f
        exact hS u huw hum (fun _ _ _ _ => hi.trans hrun) hr hclass hop hlow hhigh
    have hpick : ∀ (isMax : Bool) (m : Nat), m ∈ c.threads.map (src (iA v)) →
        (∀ y ∈ c.threads.map (src (iA v)), if isMax = true then y ≤ m else m ≤ y) →
        (if c.threads.isEmpty then 0 else (foldPick isMax c 0).bits % 2 ^ 32) % 2 ^ 32 = m % 2 ^ 32 := fun isMax m hm hall => by
      have hsome : c.threads.isEmpty = false := by
        cases hc : c.threads
        · rw [hc] at hm
          cases hm
        · rfl
      simp only [src, htype] at hm hall
      rw [hsome, if_neg Bool.false_ne_true, Nat.mod_mod, foldPick_extreme (c := c) htype isMax hm hall]
    refine ⟨fun hmode => ?_, fun hB => ?_, fun hB hlane => ⟨?_, ?_⟩, fun hA' hB => ?_, ?_, fun hnone => ⟨?_, ?_⟩,
      fun m hm => ⟨fun hle => ?_, fun hge => ?_⟩⟩
    · intro hclass hop hdst hvgprs
      obtain ⟨u, g, hrun, hg, huw, hum, huh⟩ := cvt_runs h hx hclass hop htype hmode htrap hA (hdstV hdst hvgprs)
      refine hV (fun _ => true) g u huw hum huh (fun _ _ _ _ => by rw [filter_all]; exact hrun) (fun th => ?_)
        hclass hop hdst hvgprs
      simp only [src, htype, if_true, Option.map_some, Nat.mod_mod]
      exact congrArg some (hg th)
    · refine hxv 0 (.shfl bed slot) _ _ _ (fun _ => true) _ rfl ?_ (by rw [filter_all]) fun th => ?_
      · exact fun hd hv => by simp [hword, htype, hA, hB, hdstV hd hv]
      · simp only [src, hword, htype, if_true, Option.map_some]
        split
        · rw [Nat.mod_mod]
        · rfl
    · refine hxv 1 (.shflx bed slot) _ _ _ (fun _ => true) _ rfl ?_ (by rw [filter_all]) fun th => ?_
      · exact fun hd hv => by simp [hword, htype, hA, hB, hdstV hd hv]
      · simp only [src, hword, htype, hlane, if_true, Option.map_some, Nat.mod_mod]
    · refine hxs 2 (.readlane bed slot) _ _ _ _ _ rfl hu rfl ?_ rfl ?_
      · exact fun hd => by simp [hword, htype, hA, hB, hd]
      · simp only [src, hword, htype, hlane, if_true, Nat.mod_mod]
    · refine hxv 3 (.writelane bed slot) _ _ _ _ _ rfl ?_ rfl fun th => ?_
      · exact fun hd hv => by simp [hword, htype, hA', hB, hdstV hd hv]
      · simp only [src, hword, htype, decide_eq_true_eq]
        split
        · simp
        · rfl
    · obtain ⟨f, hf, hval⟩ := radd_reduces bed slot s
      refine hreduce 4 (.radd bed slot) _ f hf ?_
      have hsum := hval c htype
      split
      · rename_i hnone
        simp [src, List.isEmpty_iff.mp hnone]
      · simp only [src, htype, Nat.mod_mod]
        exact hsum
    · exact hreduce 5 (.rmin bed slot) 0 (fun c e _ => foldPick false c e) rfl (by rw [hnone]; rfl)
    · exact hreduce 6 (.rmax bed slot) 0 (fun c e _ => foldPick true c e) rfl (by rw [hnone]; rfl)
    · refine hreduce 5 (.rmin bed slot) m (fun c e _ => foldPick false c e) rfl ?_
      exact hpick false _ hm fun y hy => hle y hy
    · refine hreduce 6 (.rmax bed slot) m (fun c e _ => foldPick true c e) rfl ?_
      exact hpick true _ hm fun y hy => hge y hy
  · refine hS _ hu rfl (fun hclass hop hlow hhigh => xlane_runs h hx hclass hop (decide_eq_true htype) ?_ _) rfl
    show (isP (iA v) && dstS false (iDst v)) = true
    simp [hA, dstS, hlow, hhigh]
  · refine hV (fun _ => true) (fun t => ((c.threads.filter (fun u => u < t)).map (fun u => c.src 3 (iA v) u)).foldl (· + ·) 0 % 2 ^ 32)
      _ hu rfl rfl (fun hclass hop hdst hvgprs => (xlane_runs h hx hclass hop (by rw [htype]; rfl)
      ?_ _).trans (by rw [filter_all]; rfl)) fun th => ?_
    · show (iType v == 3 && c.srcOk true 3 (iA v) && c.dstV (iDst v)) = true
      simp [htype, hA, hdstV hdst hvgprs]
    · simp only [if_true, Option.map_some, Nat.mod_mod, List.sum_eq_foldl]

end Sys2Proof
end

section
/-! PROOFS. FP32 arithmetic of a wave on its vector registers (spec/13 R331; spec/14 R357, R366). -/
namespace Sys2Proof.Machine

/-- Without modifiers the operands of a VALU instruction are the elements of its sources. -/
theorem valu_elems {c : Ctx} (hmods : c.mods = 0) (typ t e : Nat) :
    c.elems typ t e = ⟨elemAt typ (c.src typ (iA c.word) t) e, elemAt typ (c.src typ (iB c.word) t) e,
      elemAt typ (c.src typ (iC c.word) t) e⟩ := by
  have hbit : ∀ i, bit 0 i = false := fun i => by simp [bit]
  have hplain : ∀ neg abs free y, modElem typ 0 neg abs free y = y := fun neg abs free y => by
    simp only [modElem, hbit, if_neg Bool.false_ne_true]
  simp only [Ctx.elems, hmods, hplain]

theorem elemAt_word {typ : Nat} (h : elemBits typ = 32) (y : Nat) : elemAt typ y 0 = y % 2 ^ 32 := by
  simp [elemAt, slice, h]

/-- What holds of three operands holds of the first few. -/
theorem all_take_operands {p : Nat → Bool} {a b d : Nat} (ha : p a = true) (hb : p b = true) (hd : p d = true) (k : Nat) :
    ([a, b, d].take k).all p = true :=
  List.all_eq_true.mpr fun code hcode => by
    have hmem := List.mem_of_mem_take hcode
    simp only [List.mem_cons, List.not_mem_nil, or_false] at hmem
    rcases hmem with rfl | rfl | rfl
    · exact ha
    · exact hb
    · exact hd

/-- The byte of a word is that of the word modulo 2^32. -/
theorem elemAt_uint8 (y : Nat) {e : Nat} (he : e < 4) : elemAt 7 y e = y % 2 ^ 32 / 2 ^ (8 * e) % 2 ^ 8 := by
  obtain rfl | rfl | rfl | rfl : e = 0 ∨ e = 1 ∨ e = 2 ∨ e = 3 := by omega
  all_goals simp only [elemAt, slice, elemBits]; omega

/-- A dot product of four unsigned bytes on a 32-bit word, modulo 2^32 (R331). -/
theorem dot4_uint8 (z : Nat) (a b : Nat → Nat) (ha : ∀ e, a e < 2 ^ 8) (hb : ∀ e, b e < 2 ^ 8) :
    ofInt 32 ((List.range 4).foldl (fun (z : Int) e => z + intVal 7 (a e) * intVal 7 (b e)) (sext 32 z)) % 2 ^ 32 =
      (z % 2 ^ 32 + ((List.range 4).map fun e => a e * b e).sum) % 2 ^ 32 := by
  have hval : ∀ y, y < 2 ^ 8 → intVal 7 y = (y : Int) := fun y hy => congrArg Int.ofNat (Nat.mod_eq_of_lt hy)
  have hfold : ∀ (l : List Nat) (z : Int), l.foldl (fun (z : Int) e => z + intVal 7 (a e) * intVal 7 (b e)) z =
      z + ((l.map fun e => a e * b e).sum : Nat) := fun l => by
    induction l with
    | nil => simp
    | cons e l ih =>
      intro z
      rw [List.foldl_cons, ih, hval _ (ha e), hval _ (hb e), List.map_cons, List.sum_cons]
      rw [Int.natCast_add, Int.natCast_mul, Int.add_assoc]
  rw [hfold]
  generalize ((List.range 4).map fun e => a e * b e).sum = k
  rw [ofInt, sext]
  split <;> omega

/-- DOT4 of unsigned bytes without modifiers (R331). -/
theorem dot4_element (n slot : Fin 48) (s : State) :
    ∃ f, execDot4 n slot s = dot 0x1D (fun t => t == 6 || t == 7) f n slot s ∧
      ∀ (c : Ctx) (t : Nat), iType c.word = 7 → c.mods = 0 → (f c t .rn).bits % 2 ^ 32 =
        (c.src 7 (iC c.word) t % 2 ^ 32 + ((List.range 4).map fun e => c.src 7 (iA c.word) t % 2 ^ 32 / 2 ^ (8 * e) % 2 ^ 8 *
          (c.src 7 (iB c.word) t % 2 ^ 32 / 2 ^ (8 * e) % 2 ^ 8)).sum) % 2 ^ 32 := by
  refine ⟨_, rfl, fun c t htype hmods => ?_⟩
  have hpair : ∀ e, c.pair t e = (elemAt 7 (c.src 7 (iA c.word) t) e, elemAt 7 (c.src 7 (iB c.word) t) e) := fun e => by
    simp only [Ctx.pair, htype, valu_elems hmods]
  have hbytes : ((List.range 4).map fun e => elemAt 7 (c.src 7 (iA c.word) t) e * elemAt 7 (c.src 7 (iB c.word) t) e) =
      (List.range 4).map fun e => c.src 7 (iA c.word) t % 2 ^ 32 / 2 ^ (8 * e) % 2 ^ 8 *
        (c.src 7 (iB c.word) t % 2 ^ 32 / 2 ^ (8 * e) % 2 ^ 8) :=
    List.map_congr_left fun e he => by
      rw [elemAt_uint8 _ (List.mem_range.mp he), elemAt_uint8 _ (List.mem_range.mp he)]
  have hdot := dot4_uint8 (c.src 7 (iC c.word) t) (elemAt 7 (c.src 7 (iA c.word) t)) (elemAt 7 (c.src 7 (iB c.word) t))
    (fun e => Nat.mod_lt _ (by decide)) (fun e => Nat.mod_lt _ (by decide))
  rw [← hbytes, ← hdot]
  simp only [htype, hmods, hpair]
  rfl

section
variable {s : State} {n slot : Fin 48} {w : Wave} {o : Order} {v x : Nat} (h : s.issues n slot w o v x) (hx : x / 2 ^ 32 = 0)
  (hclass : iClass v = 2) (hmod : iMod v = 0) (hdst : iDst v < 0x100) (hvgprs : iDst v < w.vgprs)
  (hmode : (s.ctx n w o v x).mode = 1) (htrap : woTrapNan o.desc = false)
include h hx hclass hdst hvgprs hmode htrap

/-- A vector instruction whose lanes go through `finish` gives each acting thread its packed word. -/
theorem lanes_give {mine : Nat → Nat → Bool} (hmine : mine (iClass v) (iOp v) = true) {body : Ctx → State → State}
    {draws : Bool} {typ : Nat} {f : Nat → Nat → Rnd → FRes}
    (hbody : body (s.ctx n w o v x) (s.afterIssue n w v) = (s.ctx n w o v x).finish
      ((s.ctx n w o v x).lanes draws typ f (s.afterIssue n w v)) (s.ctx n w o v x).writeV (s.afterIssue n w v))
    {r : Nat → Nat} (hr : ∀ t, packed typ (fun e => (f t e .rn).bits) % 2 ^ 32 = r t % 2 ^ 32) :
    ∃ t w', (Host.Outcome.next (issue n slot mine body s) : Out) = .next t ∧ t.wave n slot = some w' ∧
      w' = { w with pc := w.pc + (if iExt v then 16 else 8), vregs := w'.vregs } ∧ t.mem = s.mem ∧ t.host = s.host ∧
      ∀ th, th < 32 → w'.vreg (iDst v) th =
          (if (s.ctx n w o v x).acts th = true then r th % 2 ^ 32 else w.vreg (iDst v) th) ∧
        ∀ d, d ≠ iDst v → w'.vreg d th = w.vreg d th := by
  let c := s.ctx n w o v x
  have hwave : (s.afterIssue n w v).wave c.n c.w.slot = some (w.past v) :=
    (issues_slot h).symm ▸ wave_afterIssue (issues_wave h) v
  obtain ⟨hevent, hvals⟩ := lanes_quiet (c := c) hmode htrap draws typ f (s.afterIssue n w v)
  obtain ⟨u, hfin, hu, hum, huh⟩ := finish_of_quiet hwave hevent c.writeV
  obtain ⟨w', hw, hpast, hmem, hhost, hval⟩ := writeV_after h (issues_slot h ▸ hu) hum huh hdst (fun _ => true)
    fun t => packed typ fun e => (f t e .rn).bits
  rw [filter_all, ← hvals] at hw hmem hhost
  refine ⟨_, w', congrArg _ ((issue_runs h hmine body).trans (hbody.trans hfin)), hw, hpast, hmem, hhost, fun th hth => ?_⟩
  refine ⟨(hval th hth).1.trans ?_, (hval th hth).2⟩
  rw [← hr th]
  split <;> rfl

include hmod in
/-- A VALU instruction of a 32-bit TYPE gives each acting thread its operation's element. -/
theorem valu_gives {code typ : Nat} (hop : iOp v = code) (htype : iType v = typ) (hword : elemBits typ = 32)
    {op : AluOp} (htypes : op.types typ = true)
    (hsrc : ([iA v, iB v, iC v].take op.arity).all ((s.ctx n w o v x).srcOk true typ) = true) {r : Nat → Nat}
    (hr : ∀ t, (op.elem typ 0 ((s.ctx n w o v x).free t 0) ⟨(s.ctx n w o v x).src typ (iA v) t % 2 ^ 32,
      (s.ctx n w o v x).src typ (iB v) t % 2 ^ 32, (s.ctx n w o v x).src typ (iC v) t % 2 ^ 32⟩ .rn).bits = r t) :
    ∃ t w', issueAlu n slot code op s = .next t ∧ t.wave n slot = some w' ∧
      w' = { w with pc := w.pc + (if iExt v then 16 else 8), vregs := w'.vregs } ∧ t.mem = s.mem ∧ t.host = s.host ∧
      ∀ th, th < 32 → w'.vreg (iDst v) th =
          (if (s.ctx n w o v x).acts th = true then r th % 2 ^ 32 else w.vreg (iDst v) th) ∧
        ∀ d, d ≠ iDst v → w'.vreg d th = w.vreg d th := by
  let c := s.ctx n w o v x
  have hmods : c.mods = 0 := (if_pos hclass).trans hmod
  have hdstV : c.dstV (iDst v) = true := by simp [Ctx.dstV, hdst, show c.w.vgprs = w.vgprs from rfl, hvgprs]
  have hext : c.extOk = true := extOk_of_half hx
  refine lanes_give h hx hclass hdst hvgprs hmode htrap (by simp [hclass, hop]) (draws := op.draws && (typeFmt typ).isSome)
    (typ := typ) (f := fun t e r => op.elem typ c.mods (c.free t e) (c.elems typ t e) r) ?_ fun t => ?_
  · show alu op c (s.afterIssue n w v) = _
    simp only [alu, show c.word = v from rfl, hclass, htype]
    have hcond : (!(([iA v, iB v, iC v].take op.arity).all (c.srcOk true typ)) || !c.extOk || !op.types typ ||
        (!(2 == 2) && !int32Types typ) || !(if (2 == 2) = true then c.dstV (iDst v) else dstS true (iDst v))) = false := by
      rw [show ([iA v, iB v, iC v].take op.arity).all (c.srcOk true typ) = true from hsrc]
      simp [hext, htypes, hdstV]
    exact (if_neg (Bool.eq_false_iff.mp hcond)).trans (if_pos rfl)
  · rw [packed_word hword, Nat.mod_mod, hmods, valu_elems hmods]
    simp only [elemAt_word hword]
    exact congrArg (· % 2 ^ 32) (hr t)

/-- A dot product gives each acting thread its result. -/
theorem dot_gives {code : Nat} (hop : iOp v = code) {types : Nat → Bool} (htypes : types (iType v) = true)
    (hsrc : [iA v, iB v, iC v].all ((s.ctx n w o v x).srcOk true (iType v)) = true) {f : Ctx → Nat → Rnd → FRes}
    {r : Nat → Nat} (hr : ∀ t, (f (s.ctx n w o v x) t .rn).bits % 2 ^ 32 = r t % 2 ^ 32) :
    ∃ t w', dot code types f n slot s = .next t ∧ t.wave n slot = some w' ∧
      w' = { w with pc := w.pc + (if iExt v then 16 else 8), vregs := w'.vregs } ∧ t.mem = s.mem ∧ t.host = s.host ∧
      ∀ th, th < 32 → w'.vreg (iDst v) th =
          (if (s.ctx n w o v x).acts th = true then r th % 2 ^ 32 else w.vreg (iDst v) th) ∧
        ∀ d, d ≠ iDst v → w'.vreg d th = w.vreg d th := by
  let c := s.ctx n w o v x
  have hcond : (decide (iClass v ≠ 2) || !types (iType v) || !([iA v, iB v, iC v].all (c.srcOk true (iType v))) ||
      !c.dstV (iDst v) || !c.extOk) = false := by
    rw [show [iA v, iB v, iC v].all (c.srcOk true (iType v)) = true from hsrc, show c.extOk = true from extOk_of_half hx]
    simp [hclass, htypes, Ctx.dstV, hdst, show c.w.vgprs = w.vgprs from rfl, hvgprs]
  refine lanes_give h hx hclass hdst hvgprs hmode htrap (by simp [hclass, hop]) (draws := code == 0x1E) (typ := 0)
    (f := fun th _ r => f c th r) (if_neg (Bool.eq_false_iff.mp hcond)) fun t => ?_
  rw [packed_word rfl, Nat.mod_mod]
  exact hr t

end

end Sys2Proof.Machine

namespace Sys2Proof
open Sys2Proof.Machine

/-- Settles O44: each operation runs its lanes, rounded to nearest without an event, and writes what they give. -/
theorem vectorArithmetic : Obligations.VectorArithmetic := by
  unfold Obligations.VectorArithmetic
  intro s bed slot w o v x h hx hclass hmod hdst hvgprs c hmode htrap hA hB src gives
  have hval : ∀ (typ code : Nat) (i : Instr) (op : AluOp) (r : Nat → Nat), exec i s = issueAlu bed slot code op s →
      iType v = typ → elemBits typ = 32 → op.types typ = true →
      ([iA v, iB v, iC v].take op.arity).all (c.srcOk true typ) = true →
      (∀ t, (op.elem typ 0 (c.free t 0) ⟨c.src typ (iA v) t % 2 ^ 32, c.src typ (iB v) t % 2 ^ 32,
        c.src typ (iC v) t % 2 ^ 32⟩ .rn).bits = r t) → gives code i r := fun typ code i op r hi htype hword htypes hsrc hr hop => by
    rw [hi]
    exact valu_gives h hx hclass hmod hdst hvgprs hmode htrap hop htype hword htypes hsrc hr
  have hword : c.word = v := rfl
  have hmods : c.mods = 0 := (if_pos hclass).trans hmod
  have hext : c.extOk = true := extOk_of_half hx
  have hdstV : c.dstV (iDst v) = true := by simp [Ctx.dstV, hdst, show c.w.vgprs = w.vgprs from rfl, hvgprs]
  have hsat : ∀ (f : Fmt) (z : FRes), fpSat f 0 z = z := fun f z => by simp [fpSat, bit]
  refine ⟨fun htype hC => ?_, fun htype hC => ?_, fun htype hC => ?_, fun htype hC hop => ?_⟩
  · rw [htype] at hA hB
    have hfp : ∀ (code : Nat) (i : Instr) (op : AluOp) (r : Nat → Nat), exec i s = issueAlu bed slot code op s →
        op.types 0 = true → (∀ t, (op.elem 0 0 (c.free t 0) ⟨src (iA v) t, src (iB v) t, src (iC v) t⟩ .rn).bits = r t) →
        gives code i r := fun code i op r hi htypes hr =>
      hval 0 code i op r hi htype rfl htypes (all_take_operands hA hB hC _)
        (by simpa only [src, htype] using hr)
    refine ⟨hfp 0x01 (.add bed slot) _ _ rfl rfl fun t => ?_, hfp 0x02 (.sub bed slot) _ _ rfl rfl fun t => ?_,
      hfp 0x03 (.mul bed slot) _ _ rfl rfl fun t => ?_, hfp 0x04 (.fma bed slot) _ _ rfl rfl fun t => ?_,
      hfp 0x12 (.floor bed slot) _ _ rfl rfl fun t => ?_, hfp 0x13 (.ceil bed slot) _ _ rfl rfl fun t => ?_,
      hfp 0x14 (.rndne bed slot) _ _ rfl rfl fun t => ?_, hfp 0x15 (.fract bed slot) _ _ rfl rfl fun t => ?_,
      hfp 0x16 (.rcp bed slot) _ _ rfl rfl fun t => ?_, hfp 0x17 (.rsq bed slot) _ _ rfl rfl fun t => ?_,
      hfp 0x18 (.sqrt bed slot) _ _ rfl rfl fun t => ?_, hfp 0x19 (.exp2 bed slot) _ _ rfl rfl fun t => ?_,
      hfp 0x1A (.log2 bed slot) _ _ rfl rfl fun t => ?_, hfp 0x1B (.sin bed slot) _ _ rfl rfl fun t => ?_,
      hfp 0x1C (.cos bed slot) _ _ rfl rfl fun t => ?_⟩
    all_goals exact congrArg FRes.bits (hsat fp32 _)
  · intro hop
    have hcond : (decide (iClass v ≠ 2) || !isP (iC v) || !anyType (iType v) || !c.srcOk true (iType v) (iA v) ||
        !c.srcOk true (iType v) (iB v) || !c.dstV (iDst v) || !c.extOk) = false := by
      simp [hclass, hC, anyType, htype, hA, hB, hdstV, hext]
    refine lanes_give h hx hclass hdst hvgprs hmode htrap (by simp [hclass, hop]) (draws := false) (typ := iType v)
      (f := fun th e _ => .plain (if bit (c.pred (iC v)) th then (c.elems (iType v) th e).a
        else (c.elems (iType v) th e).b) 0) (if_neg (Bool.eq_false_iff.mp hcond)) fun t => ?_
    simp only [valu_elems hmods, FRes.plain, hword]
    split
    · exact congrArg (· % 2 ^ 32) (packed_elemAt (iType v) _)
    · exact congrArg (· % 2 ^ 32) (packed_elemAt (iType v) _)
  · intro hop
    obtain ⟨f, hrun, hval⟩ := dot4_element bed slot s
    have hex := dot_gives h hx hclass hdst hvgprs hmode htrap hop (types := fun t => t == 6 || t == 7) (by rw [htype]; rfl)
      (all_take_operands hA hB (htype ▸ hC) 3) (fun t => hval c t htype hmods)
    rw [← hrun] at hex
    simp only [src, htype]
    exact hex
  · obtain ⟨f, hrun⟩ : ∃ f, execDot2 bed slot s = dot 0x1E (fun t => t == 1 || t == 2) f bed slot s := ⟨_, rfl⟩
    obtain ⟨t, w', ht, hw, hpast, hmem, -, -⟩ := dot_gives h hx hclass hdst hvgprs hmode htrap hop
      (types := fun t => t == 1 || t == 2) (by rw [htype]; rfl) (all_take_operands hA hB (htype ▸ hC) 3)
      (f := f) (r := fun t => (f c t .rn).bits) (fun t => rfl)
    exact ⟨t, w', hrun.trans ht, hw, by rw [hpast], hmem⟩

end Sys2Proof
end

section
/-! PROOFS. Bed memory, translated memory and the sampler (spec/13 R323, R334-R338). -/
namespace Sys2Proof.Machine

/-! Little-endian values -/

theorem length_leBytes (n v : Nat) : (leBytes n v).length = n := by
  induction n generalizing v with
  | zero => rfl
  | succ n ih => rw [leBytes, List.length_cons, ih]

theorem leNat_leBytes (n v : Nat) : leNat (leBytes n v) = v % 256 ^ n := by
  induction n generalizing v with
  | zero => simp [leBytes, leNat, Nat.mod_one]
  | succ n ih =>
    rw [leBytes, leNat, ih, Nat.pow_succ', Nat.mod_mul]
    simp

/-! Bed memory -/

theorem bedNat_bedStore (n off k v : Nat) (s : State) : (bedStore n off k v s).bedNat n off k = v % 256 ^ k := by
  rw [State.bedNat, bedStore, Memory.readNat, Memory.writeNat]
  have hread := Memory.read_write ramFill s.mem.bedMem (bedBase n + off) (leBytes k v)
  rw [length_leBytes] at hread
  exact (congrArg leNat hread).trans (leNat_leBytes k v)

theorem get_bedStore_outside (n off k v : Nat) (s : State) {a : Nat} (h : a < bedBase n + off ∨ bedBase n + off + k ≤ a) :
    Memory.get ramFill (bedStore n off k v s).mem.bedMem a = Memory.get ramFill s.mem.bedMem a :=
  Memory.get_write_outside _ _ _ _ _ (by rwa [length_leBytes])

section
variable {s : State} {n slot : Fin 48} {w : Wave} {o : Order} {v x : Nat} (h : s.issues n slot w o v x) (hx : x / 2 ^ 32 = 0)
include h hx

/-- A bed-memory instruction of one acting thread, with its operands accepted and no tensor entry queued, traps by its
offset or runs its body. -/
theorem localAccess_runs {code th : Nat} (hclass : iClass v = 5) (hop : iOp v = code)
    (hth : (s.ctx n w o v x).threads = [th]) (hoff : (s.ctx n w o v x).offOk = true) (hq : (s.bedAt n).queue = [])
    {ok regsOk : Ctx → Bool} (hok : ok (s.ctx n w o v x) = true) (hregs : regsOk (s.ctx n w o v x) = true)
    (hwidth : (if code = 2 then 4 else memWidth (s.ctx n w o v x)) = 4) (body : Ctx → State → State) :
    let off := (s.ctx n w o v x).bedOff th
    (off % 4 ≠ 0 → localAccess code ok regsOk body n slot s = .next (trapWave n w 2 0xF0 0xA1 v (s.afterIssue n w v))) ∧
    (off % 4 = 0 → 0xB8000 < off + 4 →
      localAccess code ok regsOk body n slot s = .next (trapWave n w 7 0xF0 0x81 v (s.afterIssue n w v))) ∧
    (off % 4 = 0 → off + 4 ≤ 0xB8000 →
      localAccess code ok regsOk body n slot s = .next (body (s.ctx n w o v x) (s.afterIssue n w v))) := by
  intro off
  let c := s.ctx n w o v x
  have hext : c.extOk = true := extOk_of_half hx
  have hoff' : c.offOk = true := hoff
  have hcond : (!ok c || !c.extOk || !c.offOk) = false := by
    rw [show ok c = true from hok, hext, hoff']
    rfl
  have hfree : ∀ lo hi, (s.afterIssue n w v).bedLocked n lo hi = false := fun lo hi => by
    have hqueue : ((s.afterIssue n w v).bedAt n).queue = [] := by
      rw [bedAt_afterIssue (issues_wave h) v]
      exact hq
    rw [State.bedLocked, hqueue]
    rfl
  have hrun : localAccess code ok regsOk body n slot s = .next (
      if !regsOk c || [off].any (fun a => a % 4 ≠ 0) then c.misaligned (s.afterIssue n w v)
      else if [off].any (fun a => BED_LIMIT < a + 4) then c.range (s.afterIssue n w v)
      else if [off].any (fun a => (s.afterIssue n w v).bedLocked c.n a (a + 4)) then c.hold (s.afterIssue n w v)
      else body c (s.afterIssue n w v)) := by
    refine congrArg Host.Outcome.next ((issue_runs h (by simp [hclass, hop]) _).trans ?_)
    dsimp only
    rw [hwidth, hth]
    exact if_neg (Bool.eq_false_iff.mp hcond)
  rw [hrun, show regsOk c = true from hregs]
  refine ⟨fun hodd => ?_, fun heven hfar => ?_, fun heven hnear => ?_⟩
  · exact congrArg _ (if_pos (by simp [hodd]))
  · refine congrArg _ ((if_neg (by simp [heven])).trans (if_pos ?_))
    simp [BED_LIMIT, hfar]
  · refine congrArg _ ((if_neg (by simp [heven])).trans ((if_neg ?_).trans (if_neg ?_)))
    · have hnot : ¬ 0xB8000 < off + 4 := by omega
      simp [BED_LIMIT, hnot]
    · have hfree' : (s.afterIssue n w v).bedLocked c.n off (off + 4) = false := hfree _ _
      simp [hfree']

end

/-- A load in flight after `pendLoad`. -/
theorem pendLoad_adds {c : Ctx} {u : State} (hn : c.n < u.bed.beds.length) (hdst : iDst c.word < 0x100) (width : Nat)
    (writes : List (Nat × Nat × Nat)) (err : Option AccErr) :
    ∃ l, ((c.pendLoad width writes err u).bedAt c.n).loads = (u.bedAt c.n).loads ++ [l] ∧ l.slot = c.w.slot ∧ l.err = err ∧
      l.writes = writes ∧ l.regs = (List.range (max 1 (width / 4))).map (fun k => iDst c.word + k) ∧
      (c.pendLoad width writes err u).mem = u.mem ∧ (c.pendLoad width writes err u).regs = u.regs := by
  refine ⟨_, congrArg Bed.loads (bedAt_setBed hn _), rfl, rfl, rfl, if_neg ?_, rfl, rfl⟩
  omega

/-- The translations that a MEMG instruction asks for, access by access, up to the first fault (R336). -/
def translateAccesses (q : Req) (fn allot : Nat) (vas : List Nat) (acc : List Access) (s : State) :
    Option (Nat × Nat × Nat × Access) × State :=
  acc.foldl (fun (r : Option (Nat × Nat × Nat × Access) × State) a =>
    match r.1 with
    | some _ => r
    | none =>
      let y := translateAll q fn allot a vas r.2
      (y.1.map (fun (f : Nat × Nat × Nat) => (f.1, f.2.1, f.2.2, a)), y.2)) (none, s)

theorem translateAccesses_nil (q : Req) (fn allot : Nat) (vas : List Nat) (s : State) :
    translateAccesses q fn allot vas [] s = (none, s) := rfl

theorem translateAll_one {q : Req} {fn allot va : Nat} {a : Access} {s u : State} {e : TlbEntry}
    (h : Machine.translate q fn allot va a false s = (.ok e, u)) : translateAll q fn allot a [va] s = (none, u) := by
  simp only [translateAll, h]

/-- A first access that translates leaves the rest to be translated. -/
theorem translateAccesses_cons {q : Req} {fn allot : Nat} {vas : List Nat} {a : Access} {s u : State}
    (h : translateAll q fn allot a vas s = (none, u)) (acc : List Access) :
    translateAccesses q fn allot vas (a :: acc) s = translateAccesses q fn allot vas acc u := by
  simp only [translateAccesses, List.foldl_cons, h, Option.map_none]

/-- The stores and orders that a translation looks at are those before the issue. -/
theorem orderStalled_afterIssue (s : State) (n : Nat) (w : Wave) (v uid : Nat) :
    (s.afterIssue n w v).orderStalled uid = s.orderStalled uid := rfl

section
variable {s : State} {n slot : Fin 48} {w : Wave} {o : Order} {v x : Nat} (h : s.issues n slot w o v x) (hx : x / 2 ^ 32 = 0)
include h hx

/-- A MEMG instruction of one acting thread, with its operands and its address accepted, runs its body once the accesses
it names are translated. -/
theorem globalAccess_runs {code th : Nat} (hclass : iClass v = 6) (hop : iOp v = code)
    (hth : (s.ctx n w o v x).threads = [th]) (hpair : (s.ctx n w o v x).pairOk = true)
    {ok regsOk : Ctx → Bool} (hok : ok (s.ctx n w o v x) = true) (hregs : regsOk (s.ctx n w o v x) = true)
    (haligned : code = 3 ∨ (s.ctx n w o v x).va th % (if code = 2 then 4 else memWidth (s.ctx n w o v x)) = 0)
    (hstalled : code = 3 ∨ s.orderStalled w.uid = false) (acc : List Access) (body : Ctx → Req → State → State) {u1 : State}
    (hacc : translateAccesses ((s.afterIssue n w v).bedReq n o.cls (code ≠ 2 && bit (iMod v) 4)) o.fn o.allot
      [(s.ctx n w o v x).va th] acc (s.afterIssue n w v) = (none, u1)) :
    globalAccess code ok regsOk acc body n slot s = .next (body (s.ctx n w o v x)
      ((s.afterIssue n w v).bedReq n o.cls (code ≠ 2 && bit (iMod v) 4)) u1) := by
  let c := s.ctx n w o v x
  have hext : c.extOk = true := extOk_of_half hx
  have hcond : (!ok c || !c.extOk || !c.pairOk) = false := by
    rw [show ok c = true from hok, hext, show c.pairOk = true from hpair]
    rfl
  have hodd : (!regsOk c || (code ≠ 3 && [c.va th].any (fun a => a % (if code = 2 then 4 else memWidth c) ≠ 0))) = false := by
    rw [show regsOk c = true from hregs]
    rcases haligned with h3 | h4
    · simp [h3]
    · simp [show c.va th % (if code = 2 then 4 else memWidth c) = 0 from h4]
  have hstall : (code ≠ 3 && (s.afterIssue n w v).orderStalled c.w.uid) = false := by
    rcases hstalled with h3 | h4
    · simp [h3]
    · simp [orderStalled_afterIssue, show c.w.uid = w.uid from rfl, h4]
  refine congrArg Host.Outcome.next ((issue_runs h (by simp [hclass, hop]) _).trans ?_)
  dsimp only
  rw [hth]
  refine (if_neg (Bool.eq_false_iff.mp hcond)).trans ((if_neg (Bool.eq_false_iff.mp hodd)).trans
    ((if_neg (Bool.eq_false_iff.mp hstall)).trans ?_))
  exact congrArg (fun r : Option (Nat × Nat × Nat × Access) × State => match r.1 with
    | some (reason, level, va, a) => if code = 3 then r.2 else c.stall reason level va a r.2
    | none => body c ((s.afterIssue n w v).bedReq n o.cls (code ≠ 2 && bit (iMod v) 4)) r.2) hacc

end

/-- The writes of a load change V registers alone. -/
theorem writeAll_vregs (l : List (Nat × Nat × Nat)) (w : Wave) :
    l.foldl (fun x e => x.setV e.1 e.2.1 e.2.2) w =
      { w with vregs := (l.foldl (fun x e => x.setV e.1 e.2.1 e.2.2) w).vregs } := by
  induction l generalizing w with
  | nil => rfl
  | cons e l ih => rw [List.foldl_cons, ih, setV_vregs w e.1 e.2.1 e.2.2]

/-! Operands of a 32-bit access -/

theorem memWidth_four {c : Ctx} (h : iMod c.word % 8 = 2) : memWidth c = 4 := by
  exact congrArg (2 ^ ·) h

theorem regAligned_four {c : Ctx} (h : iMod c.word % 8 = 2) (code : Nat) : regAligned (memWidth c) code = true := by
  simp [regAligned, memWidth_four h, dataRegs, Nat.mod_one]

theorem dataDst_ok {c : Ctx} (h : iMod c.word % 8 = 2) (hdst : iDst c.word < 0x100) (hvgprs : iDst c.word < c.w.vgprs) :
    (iMod c.word % 8 ≤ 4 && c.dataOk true (memWidth c) (iDst c.word)) = true := by
  simp [h, memWidth_four h, Ctx.dataOk, dataRegs, hdst, Nat.succ_le_of_lt hvgprs]

theorem dataSrc_ok {c : Ctx} (h : iMod c.word % 8 = 2) (hB : c.srcOk true 4 (iB c.word) = true) :
    (iMod c.word % 8 ≤ 4 && c.dataOk false (memWidth c) (iB c.word)) = true := by
  simp [h, memWidth_four h, Ctx.dataOk, hB]

theorem atom_ok {c : Ctx} {op : Nat} (h : iMod c.word % 8 = op) (hdst : iDst c.word < 0x100) (hvgprs : iDst c.word < c.w.vgprs)
    (hB : c.srcOk true 4 (iB c.word) = true) (hC : c.srcOk true 4 (iC c.word) = true) (hop : op ≤ 6 := by decide) :
    c.atomOk = true := by
  simp [Ctx.atomOk, h, hop, Ctx.dstV, hdst, hvgprs, hB, hC]

/-- A 32-bit load writes its destination register. -/
theorem loadWrites_four {c : Ctx} (hdst : iDst c.word < 0x100) (t y : Nat) :
    loadWrites c 4 t y = [(iDst c.word, t, y % 2 ^ 32)] := by
  have hne : iDst c.word ≠ 0x1FF := by omega
  simp [loadWrites, hne, dataRegs, slice]

theorem data_four (c : Ctx) (code t : Nat) : c.data code 4 t = c.src 4 code t % 2 ^ 32 := rfl

section
variable {s : State} {n slot : Fin 48} {w : Wave} {o : Order} {v x : Nat} (h : s.issues n slot w o v x) (hx : x / 2 ^ 32 = 0)
include h hx

/-- LDG of 32 bits and one acting thread, whose translation and read succeed. -/
theorem ldg_runs {th : Nat} (hclass : iClass v = 6) (hop : iOp v = 0) (hth : (s.ctx n w o v x).threads = [th])
    (hpair : (s.ctx n w o v x).pairOk = true) (hstalled : s.orderStalled w.uid = false) (hmod : iMod v % 8 = 2)
    (hdst : iDst v < 0x100) (hvgprs : iDst v < w.vgprs) (heven : (s.ctx n w o v x).va th % 4 = 0) {e : TlbEntry}
    {u1 u2 : State} {bs : List Byte}
    (htr : Machine.translate ((s.afterIssue n w v).bedReq n o.cls (bit (iMod v) 4)) o.fn o.allot
      ((s.ctx n w o v x).va th) .read false (s.afterIssue n w v) = (.ok e, u1))
    (hrd : vaRead ((s.afterIssue n w v).bedReq n o.cls (bit (iMod v) 4)) o.fn o.allot
      ((s.ctx n w o v x).va th) 4 .read false u1 = (.ok bs, u2)) :
    execLdg n slot s = .next ((s.ctx n w o v x).pendLoad 4 [(iDst v, th, leNat bs % 2 ^ 32)] none u2) := by
  let c := s.ctx n w o v x
  have hwidth : memWidth c = 4 := memWidth_four (c := c) hmod
  refine (globalAccess_runs h hx hclass hop hth hpair (dataDst_ok (c := c) hmod hdst hvgprs)
    (regAligned_four (c := c) hmod _) (.inr ((congrArg (c.va th % ·) hwidth).trans heven)) (.inr hstalled) [.read] _
    (translateAccesses_cons (translateAll_one htr) [])).trans (congrArg _ ?_)
  have hgather : gather c ((s.afterIssue n w v).bedReq n o.cls (bit (iMod v) 4)) 4 [th] u1 = (.ok [(th, leNat bs)], u2) := by
    simp only [gather, show c.o = o from rfl, show c.va th = (s.ctx n w o v x).va th from rfl, hrd, Except.map]
  have hbody := congrArg (fun r : Except MemErr (List (Nat × Nat)) × State => match r.1 with
    | .ok vals => c.pendLoad 4 (vals.flatMap (fun (e : Nat × Nat) => loadWrites c 4 e.1 e.2)) none r.2
    | .error e => c.pendLoad 4 [] (some ⟨e.status, e.detail, e.island⟩) r.2) hgather
  rw [hwidth, hth]
  refine hbody.trans ?_
  show c.pendLoad 4 ([(th, leNat bs)].flatMap _) none u2 = _
  rw [List.flatMap_singleton, loadWrites_four hdst]
  rfl

/-- STG of 32 bits and one acting thread, whose translation and write succeed. -/
theorem stg_runs {th : Nat} (hclass : iClass v = 6) (hop : iOp v = 1) (hth : (s.ctx n w o v x).threads = [th])
    (hpair : (s.ctx n w o v x).pairOk = true) (hstalled : s.orderStalled w.uid = false) (hmod : iMod v % 8 = 2)
    (hB : (s.ctx n w o v x).srcOk true 4 (iB v) = true) (heven : (s.ctx n w o v x).va th % 4 = 0) {e : TlbEntry} {u1 u2 : State}
    (htr : Machine.translate ((s.afterIssue n w v).bedReq n o.cls (bit (iMod v) 4)) o.fn o.allot
      ((s.ctx n w o v x).va th) .write false (s.afterIssue n w v) = (.ok e, u1))
    (hwr : vaWrite ((s.afterIssue n w v).bedReq n o.cls (bit (iMod v) 4)) o.fn o.allot ((s.ctx n w o v x).va th)
      (leBytes 4 ((s.ctx n w o v x).src 4 (iB v) th % 2 ^ 32)) false u1 = (none, u2)) :
    execStg n slot s = .next u2 := by
  let c := s.ctx n w o v x
  have hwidth : memWidth c = 4 := memWidth_four (c := c) hmod
  refine (globalAccess_runs h hx hclass hop hth hpair (dataSrc_ok (c := c) hmod hB)
    (regAligned_four (c := c) hmod _) (.inr ((congrArg (c.va th % ·) hwidth).trans heven)) (.inr hstalled) [.write] _
    (translateAccesses_cons (translateAll_one htr) [])).trans (congrArg _ ?_)
  have hscatter : scatter c ((s.afterIssue n w v).bedReq n o.cls (bit (iMod v) 4)) 4 [th] u1 = (none, u2) := by
    have hwr' : vaWrite ((s.afterIssue n w v).bedReq n o.cls (bit (iMod v) 4)) c.o.fn c.o.allot (c.va th)
      (leBytes 4 (c.data (iB c.word) 4 th)) false u1 = (none, u2) := hwr
    simp only [scatter, hwr']
  have hbody := congrArg (fun r : Option MemErr × State => match r.1 with
    | none => r.2
    | some e => trapAccess c.n c.w e c.word r.2) hscatter
  rw [hwidth, hth]
  exact hbody

/-- ATOMG exchange of one acting thread through a page of the device, whose accesses succeed. -/
theorem atomg_runs {th : Nat} (hclass : iClass v = 6) (hop : iOp v = 2) (hth : (s.ctx n w o v x).threads = [th])
    (hpair : (s.ctx n w o v x).pairOk = true) (hstalled : s.orderStalled w.uid = false) (hmod : iMod v % 8 = 5)
    (hdst : iDst v < 0x100) (hvgprs : iDst v < w.vgprs) (hB : (s.ctx n w o v x).srcOk true 4 (iB v) = true)
    (hC : (s.ctx n w o v x).srcOk true 4 (iC v) = true) (heven : (s.ctx n w o v x).va th % 4 = 0) {e e' : TlbEntry}
    {u1 u2 u3 u4 : State} {bs : List Byte}
    (htr : Machine.translate ((s.afterIssue n w v).bedReq n o.cls false) o.fn o.allot
      ((s.ctx n w o v x).va th) .read false (s.afterIssue n w v) = (.ok e, u1))
    (htr' : Machine.translate ((s.afterIssue n w v).bedReq n o.cls false) o.fn o.allot
      ((s.ctx n w o v x).va th) .write false u1 = (.ok e', u2))
    (hpage : u2.hostPage ((s.afterIssue n w v).bedReq n o.cls false) o.fn o.allot ((s.ctx n w o v x).va th) = false)
    (hrd : vaRead ((s.afterIssue n w v).bedReq n o.cls false) o.fn o.allot ((s.ctx n w o v x).va th) 4 .read false u2 =
      (.ok bs, u3))
    (hwr : vaWrite ((s.afterIssue n w v).bedReq n o.cls false) o.fn o.allot ((s.ctx n w o v x).va th)
      (leBytes 4 ((s.ctx n w o v x).src 4 (iB v) th)) false u3 = (none, u4)) :
    execAtomg n slot s = .next ((s.ctx n w o v x).writeV [(th, leNat bs)] u4) := by
  let c := s.ctx n w o v x
  refine (globalAccess_runs h hx hclass hop hth hpair (atom_ok (c := c) hmod hdst hvgprs hB hC) rfl (.inr heven)
    (.inr hstalled) [.read, .write] _
    ((translateAccesses_cons (translateAll_one htr) [.write]).trans (translateAccesses_cons (translateAll_one htr') []))).trans
    (congrArg _ ?_)
  have hrd' : vaRead ((s.afterIssue n w v).bedReq n o.cls false) (s.ctx n w o v x).o.fn (s.ctx n w o v x).o.allot ((s.ctx n w o v x).va th) 4 .read false u2 =
    (.ok bs, u3) := hrd
  have hnew : atomic (iMod (s.ctx n w o v x).word % 8) (iType (s.ctx n w o v x).word) (leNat bs) ((s.ctx n w o v x).src 4 (iB (s.ctx n w o v x).word) th) ((s.ctx n w o v x).src 4 (iC (s.ctx n w o v x).word) th) =
      (s.ctx n w o v x).src 4 (iB v) th := by
    rw [show iMod (s.ctx n w o v x).word % 8 = 5 from hmod]
    rfl
  have hwr' : vaWrite ((s.afterIssue n w v).bedReq n o.cls false) (s.ctx n w o v x).o.fn (s.ctx n w o v x).o.allot ((s.ctx n w o v x).va th)
      (leBytes 4 (atomic (iMod (s.ctx n w o v x).word % 8) (iType (s.ctx n w o v x).word) (leNat bs) ((s.ctx n w o v x).src 4 (iB (s.ctx n w o v x).word) th) ((s.ctx n w o v x).src 4 (iC (s.ctx n w o v x).word) th)))
      false u3 = (none, u4) := by
    rw [hnew]
    exact hwr
  have hpage' : [th].any (fun t => u2.hostPage ((s.afterIssue n w v).bedReq n o.cls false) (s.ctx n w o v x).o.fn (s.ctx n w o v x).o.allot ((s.ctx n w o v x).va t)) =
      false := (Bool.or_false _).trans hpage
  rw [hth]
  refine (if_neg (Bool.eq_false_iff.mp hpage')).trans ?_
  have hq : (decide (2 ≠ 2) && bit (iMod v) 4) = false := rfl
  simp only [List.foldl_cons, List.foldl_nil, hq, hrd', hwr', List.nil_append] <;> rfl

/-- PREFETCH of one acting thread reads its line. -/
theorem prefetch_runs {th : Nat} (hclass : iClass v = 6) (hop : iOp v = 3) (hth : (s.ctx n w o v x).threads = [th])
    (hpair : (s.ctx n w o v x).pairOk = true) :
    execPrefetch n slot s = .next (vaRead ((s.afterIssue n w v).bedReq n o.cls false) o.fn o.allot
      ((s.ctx n w o v x).va th / 128 * 128) 128 .read false (s.afterIssue n w v)).2 := by
  refine (globalAccess_runs h hx hclass hop hth hpair rfl rfl (.inl rfl) (.inl rfl) [] _
    (translateAccesses_nil _ _ _ _ _)).trans (congrArg _ ?_)
  rw [hth]
  rfl

/-- A sampler instruction with its operands accepted looks at its descriptor. -/
theorem sampler_runs {code : Nat} (hclass : iClass v = 7) (hop : iOp v = code)
    (hA : (s.ctx n w o v x).srcOk true 0 (iA v) = true) (hB : (s.ctx n w o v x).srcOk true 0 (iB v) = true)
    (hlow : 0x100 ≤ iC v) (hhigh : iC v ≤ 0x118) (h8 : iC v % 8 = 0) (hdst : iDst v + 4 ≤ 0x100) (hvgprs : iDst v + 4 ≤ w.vgprs) :
    ((s.ctx n w o v x).img = none → sampler code n slot s = .next (trapWave n w 1 0xF0 0xA0 v (s.afterIssue n w v))) ∧
    ∀ i u1 wr u2, (s.ctx n w o v x).img = some i → s.orderStalled w.uid = false →
      translateAll ((s.afterIssue n w v).bedReq n o.cls false) o.fn o.allot .read
        (((s.ctx n w o v x).sampleRanges i).flatMap (fun r => [r.1, r.1 + r.2 - 1])) (s.afterIssue n w v) = (none, u1) →
      sampleAll (s.ctx n w o v x) ((s.afterIssue n w v).bedReq n o.cls false) i (s.ctx n w o v x).threads u1 = (.ok wr, u2) →
      sampler code n slot s = .next ((s.ctx n w o v x).pendLoad 16 wr none u2) := by
  let c := s.ctx n w o v x
  have hcond : (!c.extOk || !c.srcOk true 0 (iA v) || !c.srcOk true 0 (iB v) || decide (iC v < 0x100) ||
      decide (0x118 < iC v) || decide (iC v % 8 ≠ 0) ||
      !(decide (iDst v < 0x100) && decide (iDst v + 4 ≤ c.w.vgprs))) = false := by
    have hd : iDst v < 0x100 := by omega
    rw [show c.extOk = true from extOk_of_half hx, show c.srcOk true 0 (iA v) = true from hA,
      show c.srcOk true 0 (iB v) = true from hB]
    simp [Nat.not_lt.mpr hlow, Nat.not_lt.mpr hhigh, h8, hd, show c.w.vgprs = w.vgprs from rfl, hvgprs]
  have hrun : sampler code n slot s = .next (match c.img with
      | none => c.illegal (s.afterIssue n w v)
      | some i =>
        if (s.afterIssue n w v).orderStalled c.w.uid then c.hold (s.afterIssue n w v)
        else
          let q := (s.afterIssue n w v).bedReq c.n c.o.cls false
          let f := translateAll q c.o.fn c.o.allot .read
            ((c.sampleRanges i).flatMap (fun (r : Nat × Nat) => [r.1, r.1 + r.2 - 1])) (s.afterIssue n w v)
          match f.1 with
          | some e => c.stall e.1 e.2.1 e.2.2 .read f.2
          | none =>
            let r := sampleAll c q i c.threads f.2
            match r.1 with
            | .ok w => c.pendLoad 16 w none r.2
            | .error e => c.pendLoad 16 [] (some ⟨e.status, e.detail, e.island⟩) r.2) :=
    congrArg Host.Outcome.next ((issue_runs h (by simp [hclass, hop]) _).trans
      (if_neg (Bool.eq_false_iff.mp hcond)))
  refine ⟨fun himg => ?_, fun i u1 wr u2 himg hstalled htr hsm => ?_⟩
  · rw [hrun, show c.img = none from himg]
    rfl
  · have hstalled' : (s.afterIssue n w v).orderStalled c.w.uid = false := hstalled
    have htr' : translateAll ((s.afterIssue n w v).bedReq c.n c.o.cls false) c.o.fn c.o.allot .read
      ((c.sampleRanges i).flatMap (fun (r : Nat × Nat) => [r.1, r.1 + r.2 - 1])) (s.afterIssue n w v) = (none, u1) := htr
    have hsm' : sampleAll c ((s.afterIssue n w v).bedReq c.n c.o.cls false) i c.threads u1 = (.ok wr, u2) := hsm
    rw [hrun, show c.img = some i from himg]
    simp only [hstalled', htr', hsm', if_neg Bool.false_ne_true]
    rfl

end

end Sys2Proof.Machine

namespace Sys2Proof
open Sys2Proof.Machine

/-- Settles O46: the checks pass, the one acting thread's access runs, and its load, store or atomic is the stated one. -/
theorem bedMemoryAccesses : Obligations.BedMemoryAccesses := by
  unfold Obligations.BedMemoryAccesses
  refine ⟨fun s bed slot w o v x th h hx => ?_, fun s bed k l w hopen hl hw hlt => ⟨fun herr => ?_, fun e herr => ?_⟩⟩
  · intro c u hth traps loads
    have hloads : ∀ (i : Instr) (u2 : State) (width : Nat) (writes : List (Nat × Nat × Nat)), iDst v < 0x100 →
        exec i s = .next (c.pendLoad width writes none u2) → loads i u2 width writes := fun i u2 width writes hdst hi hlt => by
      obtain ⟨l, hl, hslot, herr, hwrites, hregs, hmem, hrest⟩ := pendLoad_adds (c := c) hlt hdst width writes none
      exact ⟨_, l, hi, hl, hslot, herr, hwrites, hregs, hmem, hrest⟩
    have hthlt : th < 32 := by
      have hmem : th ∈ c.threads := hth ▸ List.mem_singleton_self th
      exact (mem_threads.mp hmem).1
    refine ⟨fun hclass hoff hq => ?_, fun hclass hpair hstalled => ?_, fun hclass hA hB hlow hhigh h8 hdst hvgprs => ?_⟩
    · intro off
      refine ⟨fun hop hmod hdst hvgprs => ?_, fun hop hmod hB => ?_, fun hop hmod htype hdst hvgprs hB hC heven hnear => ?_⟩
      · obtain ⟨hodd, hfar, hruns⟩ := localAccess_runs h hx hclass hop hth hoff hq
          (ok := fun c => iMod c.word % 8 ≤ 4 && c.dataOk true (memWidth c) (iDst c.word))
          (regsOk := fun c => regAligned (memWidth c) (iDst c.word))
          (dataDst_ok (c := c) hmod hdst hvgprs) (regAligned_four (c := c) hmod _) (memWidth_four (c := c) hmod)
          (fun c t => c.pendLoad (memWidth c) (c.threads.flatMap (fun th =>
            loadWrites c (memWidth c) th (t.bedNat c.n (c.bedOff th) (memWidth c)))) none t)
        refine ⟨hodd, hfar, fun heven hnear => hloads _ _ _ _ hdst ((hruns heven hnear).trans (congrArg _ ?_))⟩
        show c.pendLoad (memWidth c) (c.threads.flatMap fun th =>
          loadWrites c (memWidth c) th (u.bedNat c.n (c.bedOff th) (memWidth c))) none u = _
        rw [hth, memWidth_four hmod, List.flatMap_singleton, loadWrites_four hdst]
        rfl
      · obtain ⟨hodd, hfar, hruns⟩ := localAccess_runs h hx hclass hop hth hoff hq
          (ok := fun c => iMod c.word % 8 ≤ 4 && c.dataOk false (memWidth c) (iB c.word))
          (regsOk := fun c => regAligned (memWidth c) (iB c.word))
          (dataSrc_ok (c := c) hmod hB) (regAligned_four (c := c) hmod _) (memWidth_four (c := c) hmod)
          (fun c t => t.each c.threads (fun th u =>
            bedStore c.n (c.bedOff th) (memWidth c) (c.data (iB c.word) (memWidth c) th) u))
        refine ⟨hodd, hfar, fun heven hnear => ⟨bedStore bed off 4 (c.src 4 (iB v) th % 2 ^ 32) u,
          (hruns heven hnear).trans (congrArg _ ?_), ?_, rfl, fun a ha => get_bedStore_outside _ _ _ _ u ha⟩⟩
        · show u.each c.threads (fun th u =>
            bedStore c.n (c.bedOff th) (memWidth c) (c.data (iB c.word) (memWidth c) th) u) = _
          rw [hth, memWidth_four hmod]
          rfl
        · exact (bedNat_bedStore _ _ _ _ u).trans (Nat.mod_mod _ _)
      · obtain ⟨-, -, hruns⟩ := localAccess_runs h hx hclass hop hth hoff hq (ok := fun c => c.atomOk)
          (regsOk := fun _ => true) (atom_ok (c := c) hmod hdst hvgprs hB hC) rfl rfl
          (fun c t =>
            let r := c.threads.foldl (fun (a : List (Nat × Nat) × State) th =>
              let old := a.2.bedNat c.n (c.bedOff th) 4
              let new := atomic (iMod c.word % 8) (iType c.word) old (c.src 4 (iB c.word) th) (c.src 4 (iC c.word) th)
              (a.1 ++ [(th, old)], bedStore c.n (c.bedOff th) 4 new a.2)) ([], t)
            c.writeV r.1 r.2)
        let new := atomic (iMod v % 8) (iType v) (u.bedNat bed off 4) (c.src 4 (iB v) th) (c.src 4 (iC v) th)
        have hnew : new = (s.bedNat bed off 4 + c.src 4 (iB v) th) % 2 ^ 32 := by
          simp only [new, hmod]
          rfl
        have hwave : (bedStore bed off 4 new u).wave c.n c.w.slot = some (w.past v) :=
          (issues_slot h).symm ▸ wave_afterIssue (issues_wave h) v
        obtain ⟨hw, hmem, -⟩ := change_of_wave (c := c) hwave (fun y => y.setV (iDst v) th (u.bedNat bed off 4))
          (by rw [setV_vregs]; rfl)
        refine ⟨_, _, (hruns heven hnear).trans (congrArg _ ?_), ?_, (congrArg (State.wave _ bed) (issues_slot h).symm).trans hw,
          vreg_setV_same _ hdst _ _, fun a ha => ?_⟩
        · show (let r := c.threads.foldl _ ([], u); c.writeV r.1 r.2) = _
          rw [hth]
          rfl
        · rw [State.bedNat, hmem, ← hnew]
          exact (bedNat_bedStore bed off 4 new u).trans (by rw [hnew]; exact Nat.mod_mod _ _)
        · rw [hmem]
          exact get_bedStore_outside bed off 4 new u ha
    · intro va q
      have hacc : ∀ {a : Access} {e : TlbEntry} {b : Bool} {u0 u1 : State},
          Machine.translate (u0.bedReq bed o.cls b) o.fn o.allot va a false u0 = (.ok e, u1) →
          translateAll (u0.bedReq bed o.cls b) o.fn o.allot a [c.va th] u0 = (none, u1) := fun htr => translateAll_one htr
      refine ⟨fun hop hmod hdst hvgprs heven e u1 bs u2 htr hrd => ?_, fun hop hmod hB heven e u1 u2 htr hwr => ?_,
        fun hop hmod hdst hvgprs hB hC heven e e' u1 u2 bs u3 u4 htr htr' hpage hrd hwr => ?_, fun hop => ?_⟩
      · exact hloads (.ldg bed slot) u2 4 _ hdst (ldg_runs h hx hclass hop hth hpair hstalled hmod hdst hvgprs heven htr hrd)
      · exact stg_runs h hx hclass hop hth hpair hstalled hmod hB heven htr hwr
      · exact atomg_runs h hx hclass hop hth hpair hstalled hmod hdst hvgprs hB hC heven htr htr' hpage hrd hwr
      · exact prefetch_runs h hx hclass hop hth hpair
    · intro insn hop
      obtain ⟨himg, hload⟩ := sampler_runs h hx hclass (code := iOp v) rfl hA hB hlow hhigh h8 hdst hvgprs
      have hinsn : exec (insn (iOp v)) s = sampler (iOp v) bed slot s := by
        obtain h0 | h1 | h2 : iOp v = 0 ∨ iOp v = 1 ∨ iOp v = 2 := by omega
        · rw [h0]
          rfl
        · rw [h1]
          rfl
        · rw [h2]
          rfl
      refine ⟨fun hnone => hinsn.trans (himg hnone), fun i u1 wr u2 hi hst htr hsm => ?_⟩
      exact hloads (insn (iOp v)) u2 16 wr (by omega) (hinsn.trans (hload i u1 wr u2 hi hst htr (hth.symm ▸ hsm)))
  · have hs1 : (setBed bed { s.bedAt bed with loads := (s.bedAt bed).loads.eraseIdx k } s).wave bed l.slot = some w := by
      rw [State.wave, bedAt_setBed hlt]
      exact hw
    have hregs := writeAll_vregs l.writes w
    refine ⟨putWave bed (l.writes.foldl (fun x e => x.setV e.1 e.2.1 e.2.2) w)
      (setBed bed { s.bedAt bed with loads := (s.bedAt bed).loads.eraseIdx k } s), _, ?_, wave_putWave hs1 _ ?_, hregs, ?_, rfl,
      fun d th y hy hd hth => ?_⟩
    · simp only [exec, execLoadDataArrival, hopen, if_true, arriveLoad, hl, herr, hs1, deliver]
    · rw [hregs]
      exact (State.wave_slot hw : w.slot = l.slot)
    · rw [putWave, bedAt_setBed (State.wave_bed_lt hs1), bedAt_setBed hlt]
    · rw [hy]
      exact vreg_setV_same w hd th y
  · have hs1 : (setBed bed { s.bedAt bed with loads := (s.bedAt bed).loads.eraseIdx k } s).wave bed l.slot = some w := by
      rw [State.wave, bedAt_setBed hlt]
      exact hw
    simp only [exec, execLoadDataArrival, hopen, if_true, arriveLoad, hl, herr, hs1]

end Sys2Proof
end

section
/-! PROOFS. The tensor queue and the record registers that TRAP_CLEAR and NUMX_CLEAR empty (spec/13 R343-R346, spec/14 R371). -/
namespace Sys2Proof.Machine

/-! Issue into the queue -/

theorem refreshBed_bedAt (n k : Nat) (s : State) : (refreshBed n s).bedAt k = s.bedAt k :=
  congrArg (fun b => b.beds.getD k .reset) (refreshBed_bed n s)

/-- An entry appended to the queue, which has a place left: the bed's banks, memory and the wave stay. -/
theorem enqueue_appends {c : Ctx} {s : State} {y : Wave} (h : s.wave c.n c.w.slot = some y)
    (hlen : (s.bedAt c.n).queue.length < 8) (a b k : Nat) (regs : List Nat) :
    let t := c.enqueue a b k regs s
    (t.bedAt c.n).queue = (s.bedAt c.n).queue ++ [⟨c.w.slot, c.w.uid, c.w.tile, c.w.pc, c.word, c.ext, a, b, k, regs⟩] ∧
      (t.bedAt c.n).banks = (s.bedAt c.n).banks ∧ t.mem = s.mem ∧ t.wave c.n c.w.slot = some y := by
  intro t
  let f : Bed → Bed := fun x => { x with queue := x.queue ++
    [⟨c.w.slot, c.w.uid, c.w.tile, c.w.pc, c.word, c.ext, a, b, k, regs⟩] }
  have ht : t = changeBed c.n f s := if_neg (Nat.not_le.mpr hlen)
  have hbed : t.bedAt c.n = f (s.bedAt c.n) := by rw [ht, changeBed_bedAt (State.wave_bed_lt h)]
  refine ⟨by rw [hbed], by rw [hbed], by rw [ht]; exact refreshBed_mem _ _, ?_⟩
  rw [State.wave, hbed]
  exact h

theorem get_afterIssue {s : State} {n : Nat} {w : Wave} {v : Nat} {f : Field} (h1 : f.off ≠ R.bedIssued n)
    (h2 : f.off ≠ R.bedIssued n + 4) : (s.afterIssue n w v).get f = s.get f := by
  have hput : (s.afterIssue n w v).get f = (({ s with fresh := s.fresh + 257 } : State).wr64 (R.bedIssued n)
    ((({ s with fresh := s.fresh + 257 } : State).rd64 (R.bedIssued n) + 1) % 2 ^ 64)).get f := rfl
  rw [hput, State.wr64, State.get_wr_ne _ _ _ _ h2, State.get_wr_ne _ _ _ _ h1]
  rfl

/-- Rows inside tensor scratch, after an issue. -/
theorem denseIn_afterIssue {s : State} {n : Nat} {w : Wave} {v base rows stride len : Nat}
    (h : ∀ r, r < rows → s.get (F.bedSplitTile n) * 0x8000 ≤ base + r * stride ∧
      base + r * stride + len ≤ s.get (F.bedSplitTile n) * 0x8000 + s.get (F.bedSplitScratch n) * 0x8000) :
    denseIn (s.afterIssue n w v) n base rows stride len = true := by
  have htile : (s.afterIssue n w v).get (F.bedSplitTile n) = s.get (F.bedSplitTile n) :=
    get_afterIssue (by simp only [F.bedSplitTile, R.bedSplit, R.bedIssued]; omega)
      (by simp only [F.bedSplitTile, R.bedSplit, R.bedIssued]; omega)
  have hscratch : (s.afterIssue n w v).get (F.bedSplitScratch n) = s.get (F.bedSplitScratch n) :=
    get_afterIssue (by simp only [F.bedSplitScratch, R.bedSplit, R.bedIssued]; omega)
      (by simp only [F.bedSplitScratch, R.bedSplit, R.bedIssued]; omega)
  refine List.all_eq_true.mpr fun r hr => ?_
  obtain ⟨h1, h2⟩ := h r (List.mem_range.mp hr)
  simp [State.inScratch, State.scratch, htile, hscratch, h1, h2]

/-- TMMA and TSPARSE with operands, types and ranges accepted queue an entry (R344, R390). -/
theorem multiply_enqueues {sparse : Bool} {c : Ctx} {s : State} (hext : iExt c.word = true) (hzero : slice c.ext 28 4 = 0)
    (hclear : tClear c.ext = true) (hA : c.tensorSrc (iA c.word) = true) (hB : c.tensorSrc (iB c.word) = true)
    (hC : c.tensorSrc (iC c.word) = true) (hk1 : 1 ≤ c.src 4 (iC c.word) 0) (hk2 : c.src 4 (iC c.word) 0 ≤ 4096)
    (hpair : tillerPair (tTypeA c.ext) (tTypeB c.ext) = some (iType c.word)) (htype : tTypeA c.ext ≠ 10)
    (hstride : tStrideA c.ext % 4 = 0)
    (hsparse : (if sparse then (tSpA c.ext || tSpB c.ext) && (!tSpA c.ext || tStrideA c.ext == 0) &&
      (!tSpB c.ext || (tStrideB c.ext == 0 && !tTrans c.ext)) else !tSpA c.ext && !tSpB c.ext) = true)
    (ha : tSpA c.ext = true ∨ denseIn s c.n (c.src 4 (iA c.word) 0) (tM c.ext) (tStrideA c.ext)
      (packBytes (tTypeA c.ext) (c.src 4 (iC c.word) 0)) = true)
    (hb : tSpB c.ext = true ∨ (tTrans c.ext = true ∧ denseIn s c.n (c.src 4 (iB c.word) 0) (tN c.ext) (tStrideB c.ext)
      (packBytes (tTypeB c.ext) (c.src 4 (iC c.word) 0)) = true)) :
    multiply sparse c s = c.enqueue (c.src 4 (iA c.word) 0) (c.src 4 (iB c.word) 0) (c.src 4 (iC c.word) 0) [] s := by
  have haOk : (tSpA c.ext || denseIn s c.n (c.src 4 (iA c.word) 0) (tM c.ext) (tStrideA c.ext)
      (packBytes (tTypeA c.ext) (c.src 4 (iC c.word) 0))) = true := by
    simpa using ha
  have hbOk : (tSpB c.ext || (if tTrans c.ext then denseIn s c.n (c.src 4 (iB c.word) 0) (tN c.ext) (tStrideB c.ext)
      (packBytes (tTypeB c.ext) (c.src 4 (iC c.word) 0)) else denseIn s c.n (c.src 4 (iB c.word) 0)
      (c.src 4 (iC c.word) 0) (tStrideB c.ext) (packBytes (tTypeB c.ext) (tN c.ext)))) = true := by
    rcases hb with hs | ⟨ht, hd⟩
    · simp [hs]
    · simp [ht, hd]
  have hk0 : c.src 4 (iC c.word) 0 ≠ 0 := by omega
  simp [multiply, hext, hzero, hclear, hA, hB, hC, hk0, Nat.not_lt.mpr hk2, hpair, htype, hstride, hsparse, haOk, hbOk]

/-! Bank elements -/

/-- Cells written from a list whose entries of one key agree: that key's cell holds what it held before or what is written. -/
theorem cellGet_foldl_of_agree {α β : Type} [DecidableEq α] (d : Nat → α) (key : β → Nat) (val : β → α) {l : List β} {k : Nat}
    {v : α} (hkey : ∀ q ∈ l, key q = k → val q = v) {m : List (Nat × α)} (h : cellGet d m k = v ∨ ∃ q ∈ l, key q = k) :
    cellGet d (l.foldl (fun m q => cellSet d m (key q) (val q)) m) k = v := by
  induction l generalizing m with
  | nil =>
    rcases h with h | ⟨q, hq, -⟩
    · exact h
    · cases hq
  | cons a l ih =>
    refine ih (fun q hq => hkey q (List.mem_cons_of_mem _ hq)) ?_
    by_cases ha : key a = k
    · subst ha
      exact .inl ((cellGet_set_same _ _ _ _).trans (hkey a List.mem_cons_self rfl))
    · rw [cellGet_set_ne _ _ _ _ _ (Ne.symm ha)]
      rcases h with h | ⟨q, hq, hqk⟩
      · exact .inl h
      · rcases List.mem_cons.mp hq with rfl | hl
        · exact absurd hqk ha
        · exact .inr ⟨q, hl, hqk⟩

theorem cellGet_foldl_cellSet {α β : Type} [DecidableEq α] (d : Nat → α) (key : β → Nat) (val : β → α) {l : List β} {p : β}
    (hp : p ∈ l) (hkey : ∀ q ∈ l, key q = key p → val q = val p) (m : List (Nat × α)) :
    cellGet d (l.foldl (fun m q => cellSet d m (key q) (val q)) m) (key p) = val p :=
  cellGet_foldl_of_agree d key val hkey (.inr ⟨p, hp, rfl⟩)

/-! Record registers -/

theorem rd64_wr64_zero (s : State) (o : Nat) : (s.wr64 o 0).rd64 o = 0 := by
  rw [State.rd64, State.wr64, State.rd_wr_same, State.rd_wr_ne _ _ _ _ (by omega), State.rd_wr_same]
  rfl

theorem rd64_wr64_ne (s : State) (o p v : Nat) (h1 : p + 4 < o ∨ o + 4 < p) : (s.wr64 o v).rd64 p = s.rd64 p := by
  rw [State.rd64, State.wr64, State.rd_wr_ne _ _ _ _ (by omega), State.rd_wr_ne _ _ _ _ (by omega),
    State.rd_wr_ne _ _ _ _ (by omega), State.rd_wr_ne _ _ _ _ (by omega)]
  rfl

/-- Words written with 0, one by one. -/
theorem rd_each_zero (at_ : Nat → Nat) (l : List Nat) (s : State) :
    (∀ r, (s.each l (fun i t => t.wr (at_ i) 0)).rd r = if r ∈ l.map at_ then 0 else s.rd r) ∧
      s.each l (fun i t => t.wr (at_ i) 0) = { s with regs := (s.each l (fun i t => t.wr (at_ i) 0)).regs } := by
  induction l generalizing s with
  | nil => exact ⟨fun r => rfl, rfl⟩
  | cons i l ih =>
    obtain ⟨hrd, hregs⟩ := ih (s.wr (at_ i) 0)
    refine ⟨fun r => (hrd r).trans ?_, hregs⟩
    by_cases hl : r ∈ l.map at_
    · simp only [if_pos hl, List.map_cons, List.mem_cons, hl, or_true, if_true]
    · by_cases hr : r = at_ i
      · simp [hl, hr]
      · simp [hl, hr, State.rd_wr_ne _ _ _ _ hr]

/-- The summary of the numeric records lies below the records. -/
theorem rd_refreshNumx (s : State) {r : Nat} (h : 0x150018 ≤ r) : (refreshNumx s).rd r = s.rd r := by
  unfold refreshNumx
  dsimp only
  rw [State.wr64, State.wr64, State.rd_wr_ne, State.rd_wr_ne, State.rd_wr_ne, State.rd_wr_ne]
  · exact State.rd_put_ne _ _ _ _ (by simp only [F.numxSummaryAny, R.numxSummary]; omega)
  all_goals simp only [R.numxGuardMask, R.numxNanMask]; omega

theorem rd_clearNum (at_ : Nat → Nat) (s : State) {r : Nat} (h : 0x150018 ≤ r) :
    (clearNum at_ s).rd r = if r ∈ (List.range 8).map at_ then 0 else s.rd r :=
  (rd_refreshNumx _ h).trans ((rd_each_zero at_ (List.range 8) s).1 r)

theorem clearNum_regs (at_ : Nat → Nat) (s : State) : clearNum at_ s = { s with regs := (clearNum at_ s).regs } := by
  have hrefresh : ∀ t : State, refreshNumx t = { t with regs := (refreshNumx t).regs } := fun t => rfl
  rw [clearNum, hrefresh, (rd_each_zero at_ (List.range 8) s).2]

/-! The end of a TACC_WRITE entry -/

theorem bed_lt_of_queue {s : State} {n : Nat} {q : TensorEntry} {rest : List TensorEntry}
    (h : (s.bedAt n).queue = q :: rest) : n < s.bed.beds.length := by
  refine Classical.byContradiction fun hn => ?_
  have hreset : s.bedAt n = .reset := State.bedAt_outside (Nat.le_of_not_lt hn)
  rw [hreset] at h
  cases h

/-- The columns that a TACC_WRITE writes in row i, and with it each cell. -/
theorem mem_writeCells {m n mask i j : Nat} : (i, j) ∈ (List.range m).flatMap (fun i =>
    ((maskList 32 mask).filter (fun j => j < n)).map (fun j => (i, j))) ↔ i < m ∧ j < 32 ∧ bit mask j = true ∧ j < n := by
  simp only [maskList, List.mem_flatMap, List.mem_range, List.mem_map, List.mem_filter, decide_eq_true_eq, Prod.mk.injEq]
  constructor
  · rintro ⟨i', hi, j', ⟨⟨hj, hbit⟩, hn⟩, rfl, rfl⟩
    exact ⟨hi, hj, hbit, hn⟩
  · rintro ⟨hi, hj, hbit, hn⟩
    exact ⟨i, hi, j, ⟨⟨hj, hbit⟩, hn⟩, rfl, rfl⟩

/-- The bank that a TACC_WRITE leaves: the mode of TYPE, and the register values in its cells (R361). -/
theorem runWrite_bank {s : State} {n : Nat} (q : TensorEntry) (hn : n < s.bed.beds.length) (hlen : (s.bedAt n).banks.length = 8) :
    ∃ bank, ((runWrite n q s).bedAt n).banks[tBank q.ext]? = some bank ∧ bank.fp = (iType q.word == 0) ∧
      (∀ i j, i < tM q.ext → j < tN q.ext → bit q.a j = true → cellGet zeroInt bank.el (i * 32 + j) =
        if iType q.word = 0 then (q.regs.getD (i * 32 + j) 0 : Int) else sext 32 (q.regs.getD (i * 32 + j) 0)) ∧
      ((runWrite n q s).bedAt n).queue = (s.bedAt n).queue ∧ (runWrite n q s).mem = s.mem := by
  let cells := (List.range (tM q.ext)).flatMap (fun i =>
    ((maskList 32 q.a).filter (fun j => j < tN q.ext)).map (fun j => (i, j)))
  let val := fun p : Nat × Nat => if iType q.word == 0 then (q.regs.getD (p.1 * 32 + p.2) 0 : Int)
    else sext 32 (q.regs.getD (p.1 * 32 + p.2) 0)
  let el := cells.foldl (fun el p => cellSet zeroInt el (p.1 * 32 + p.2) (val p))
    (((s.bedAt n).banks.getD (tBank q.ext) ⟨true, []⟩).kept (iType q.word == 0) s.fresh (cells.map (fun p => p.1 * 32 + p.2)))
  have hbed : (runWrite n q s).bedAt n = { s.bedAt n with
      banks := setAt (tBank q.ext) ⟨iType q.word == 0, el⟩ (s.bedAt n).banks } :=
    bedAt_setBed (s := { s with fresh := s.fresh + 512 }) hn _
  have hbank : tBank q.ext < (s.bedAt n).banks.length := by
    rw [hlen]
    exact Nat.mod_lt _ (by decide)
  refine ⟨⟨iType q.word == 0, el⟩, ?_, rfl, fun i j hi hj hbit => ?_, by rw [hbed], rfl⟩
  · rw [hbed]
    simp [setAt_eq_set, hbank]
  · have hj32 : j < 32 := Nat.lt_of_lt_of_le hj (Nat.succ_le_of_lt (Nat.mod_lt _ (by decide)))
    have hcell := cellGet_foldl_cellSet zeroInt (fun p : Nat × Nat => p.1 * 32 + p.2) val
      (mem_writeCells.mpr ⟨hi, hj32, hbit, hj⟩) (fun p hp hkey => by
        obtain ⟨-, hp32, -, -⟩ := mem_writeCells.mp hp
        have hsame : p = (i, j) := Prod.ext (by simp only at hkey; omega) (by simp only at hkey; omega)
        rw [hsame])
      (((s.bedAt n).banks.getD (tBank q.ext) ⟨true, []⟩).kept (iType q.word == 0) s.fresh (cells.map (fun p => p.1 * 32 + p.2)))
    refine hcell.trans ?_
    simp only [val, beq_iff_eq]

end Sys2Proof.Machine

namespace Sys2Proof
open Sys2Proof.Machine

/-- Settles O48: an accepted instruction queues its entry, the entry of a TACC_WRITE leaves its cells, and the record
registers are written with 0. -/
theorem tensorQueue : Obligations.TensorQueue := by
  unfold Obligations.TensorQueue
  refine ⟨fun s bed slot w o v x h hclass hlen hzero => ?_, fun s bed hopen => ⟨fun hnone => ?_, fun q rest o hq ho hop hbanks => ?_⟩,
    fun s w bed hreach => ?_, fun s w bed what hreach hbed => ?_⟩
  · intro c a b k queues inScratch
    let u := s.afterIssue bed w v
    have hqueues : ∀ (i : Instr) (a b k : Nat) (regs : List Nat), exec i s = .next (c.enqueue a b k regs u) →
        queues i a b k regs := fun i a b k regs hi => by
      have hwave : u.wave c.n c.w.slot = some (w.past v) := (issues_slot h).symm ▸ wave_afterIssue (issues_wave h) v
      have hbed : u.bedAt bed = { s.bedAt bed with waves := (u.bedAt bed).waves } := by
        simp only [u, bedAt_afterIssue (issues_wave h) v]
      have hlen' : (u.bedAt c.n).queue.length < 8 := by
        rw [show u.bedAt c.n = u.bedAt bed from rfl, hbed]
        exact hlen
      obtain ⟨hq, hbanks, hmem, hw⟩ := enqueue_appends hwave hlen' a b k regs
      rw [show u.bedAt c.n = u.bedAt bed from rfl, hbed] at hq hbanks
      exact ⟨_, hi, hq, hbanks, hmem, (congrArg (State.wave _ bed) (issues_slot h).symm).trans hw⟩
    have hrun : ∀ (code : Nat) (body : Ctx → State → State), iOp v = code → tensor code body bed slot s = .next (body c u) :=
      fun code body hop => congrArg Host.Outcome.next (issue_runs h (by simp [hclass, hop]) body)
    have hword : c.word = v := rfl
    have hext' : c.ext = x := rfl
    refine ⟨fun hop hext hclear hA hB hC hk1 hk2 hpair htype => ⟨?_, ?_, ?_⟩, ?_, ?_, ?_⟩
    · intro hop hspA hspB htrans hstride ha hb
      exact hqueues (.tmma bed slot) a b k [] ((hrun 0 _ hop).trans (congrArg _ (multiply_enqueues (c := c) hext hzero hclear
        hA hB hC hk1 hk2 hpair htype hstride (by simp [hext', hspA, hspB]) (.inr (denseIn_afterIssue ha))
        (.inr ⟨htrans, denseIn_afterIssue hb⟩))))
    · intro hop hspA hspB htrans hstride hb
      exact hqueues (.tsparse bed slot) a b k [] ((hrun 1 _ hop).trans (congrArg _ (multiply_enqueues (c := c) hext hzero hclear
        hA hB hC hk1 hk2 hpair htype (by rw [hext', hstride]) (by simp [hext', hspA, hspB, hstride]) (.inl hspA)
        (.inr ⟨htrans, denseIn_afterIssue hb⟩))))
    · intro hop hspA hspB htrans hstride hstrideB
      exact hqueues (.tsparse bed slot) a b k [] ((hrun 1 _ hop).trans (congrArg _ (multiply_enqueues (c := c) hext hzero hclear
        hA hB hC hk1 hk2 hpair htype (by rw [hext', hstride]) (by simp [hext', hspA, hspB, htrans, hstride, hstrideB])
        (.inl hspA) (.inl hspB))))
    · intro hop hext hspA hspB htype hA hB hB' hstride ha
      refine hqueues (.taccStore bed slot) a (c.src 0 (iB v) 0) 0 [] ((hrun 2 _ hop).trans (congrArg _ ?_))
      have hcond : (!iExt v || decide (slice x 28 4 ≠ 0) || tSpA x || tSpB x || !anyType (iType v) || !c.tensorSrc (iA v) ||
          !(c.srcOk false 0 (iB v) && iB v != 0x1F0) || decide (tStrideA x % 4 ≠ 0)) = false := by
        simp [hext, hzero, hspA, hspB, anyType, htype, hA, hB, hB', hstride]
      have hdense : denseIn u c.n a (tM x) (tStrideA x) (packBytes (iType v) (tN x)) = true := denseIn_afterIssue ha
      refine (if_neg (Bool.eq_false_iff.mp hcond)).trans (if_neg ?_)
      exact fun e => absurd ((congrArg (!·) hdense).symm.trans e) Bool.false_ne_true
    · intro htype
      have hregs : ∀ code, code < 0x100 → code + tM x ≤ w.vgprs → c.accRegs code = true := fun code hcode hvgprs => by
        have ht : (iType v == 0 || iType v == 3) = true := by simpa using htype
        simp [Ctx.accRegs, hword, hext', ht, hcode, show c.w.vgprs = w.vgprs from rfl, hvgprs, hzero]
      refine ⟨fun hop hdst hvgprs => ?_, fun hop hA hvgprs => ?_⟩
      · exact hqueues (.taccRead bed slot) _ 0 0 [] ((hrun 3 _ hop).trans (congrArg _
          (if_neg (Bool.eq_false_iff.mp (congrArg (!·) (hregs _ hdst hvgprs))))))
      · exact hqueues (.taccWrite bed slot) _ 0 0 _ ((hrun 4 _ hop).trans (congrArg _
          (if_neg (Bool.eq_false_iff.mp (congrArg (!·) (hregs _ hA hvgprs))))))
    · intro hop hext n hn hA mine
      have hpc : (if iExt v then 16 else 8) = 8 := if_neg (by simp [hext])
      have hcond : (decide (slice x 28 4 ≠ 0) || decide (iA v < 0x140) || decide (0x147 < iA v)) = false := by
        have h1 : ¬ iA v < 0x140 := by omega
        have h2 : ¬ 0x147 < iA v := by omega
        simp [hzero, h1, h2]
      have hmine : (u.bedAt c.n).unfinished c.w.slot = mine := by
        simp only [u, show c.n = bed.val from rfl, bedAt_afterIssue (issues_wave h) v]
        rfl
      have hrun' : exec (.twait bed slot) s = .next (if mine ≤ n then u else c.begin_ (.twait n) u) := by
        refine (hrun 5 _ hop).trans (congrArg _ ((if_neg (Bool.eq_false_iff.mp hcond)).trans ?_))
        rw [hmine, show iA c.word - 0x140 = n by rw [hword]; omega]
      refine ⟨fun hle => ⟨u, hrun'.trans (congrArg _ (if_pos hle)), ?_, rfl⟩, fun hlt => ?_⟩
      · refine (wave_afterIssue (issues_wave h) v).trans (congrArg some ?_)
        simp only [Wave.past, hpc]
      · have hwave : u.wave c.n c.w.slot = some (w.past v) := (issues_slot h).symm ▸ wave_afterIssue (issues_wave h) v
        have hseq : (setBed c.n { u.bedAt c.n with waitSeq := (u.bedAt c.n).waitSeq + 1 } u).wave c.n c.w.slot =
            some (w.past v) := by
          rw [State.wave, bedAt_setBed (State.wave_bed_lt hwave)]
          exact hwave
        obtain ⟨hw, hmem, -⟩ := change_of_wave hseq (fun y => { y with
          wait := .twait n, since := (u.bedAt c.n).waitSeq + 1, waitPc := c.w.pc, waitWord := c.word }) rfl
        exact ⟨_, _, hrun'.trans (congrArg _ (if_neg (Nat.not_le.mpr hlt))),
          (congrArg (State.wave _ bed) (issues_slot h).symm).trans hw, rfl, congrArg (w.pc + ·) hpc, rfl, hmem⟩
  · simp only [exec, execTensorEntryDone, hopen, if_true, runEntry, hnone]
  · have hn := bed_lt_of_queue hq
    let s1 := changeBed bed (fun b => { b with queue := rest }) s
    have hbed : s1.bedAt bed = { s.bedAt bed with queue := rest } := changeBed_bedAt hn _
    have hn1 : bed.val < s1.bed.beds.length := by
      rw [show s1.bed = _ from refreshBed_bed _ _]
      simp only [setBed, setAt_eq_set, List.length_set]
      exact hn
    obtain ⟨bank, hbank, hfp, hel, hqueue, hmem⟩ := runWrite_bank q hn1 (by rw [hbed]; exact hbanks)
    have hrun : exec (.tensorEntryDone bed) s = .next (testTwait bed (runWrite bed q s1)) := by
      simp only [exec, execTensorEntryDone, hopen, if_true, runEntry, hq, ho, hop] <;> rfl
    have hn2 : bed.val < (runWrite bed q s1).bed.beds.length := by
      simp only [runWrite, putBank, busy, State.bed_wr64, setBed, setAt_eq_set, List.length_set]
      exact hn1
    have htest : (testTwait bed (runWrite bed q s1)).bedAt bed = { (runWrite bed q s1).bedAt bed with
        waves := ((testTwait bed (runWrite bed q s1)).bedAt bed).waves } := by
      rw [testTwait, bedAt_setBed hn2]
    refine ⟨_, bank, hrun, ?_, ?_, ?_, hfp, ?_⟩
    · rw [htest]
      exact hqueue.trans (by rw [hbed])
    · exact hmem.trans (refreshBed_mem _ _)
    · rw [htest]
      exact hbank
    · exact hel
  · refine ⟨clearTrap bed s, congrArg _ (writeAccess_serve hreach _ _), ?_, ?_, rd64_wr64_zero _ _, rfl⟩
    · rw [clearTrap, rd64_wr64_ne, rd64_wr64_ne, rd64_wr64_zero]
      all_goals simp only [R.bedTrap, R.bedTrapPc, R.bedTrapWord]; omega
    · rw [clearTrap, rd64_wr64_ne, rd64_wr64_zero]
      all_goals simp only [R.bedTrap, R.bedTrapPc, R.bedTrapWord]; omega
  · let s1 := if bit what.toNat 0 = true then clearNum (R.numxGuard bed.toNat) s else s
    let s2 := if bit what.toNat 1 = true then clearNum (R.numxNan bed.toNat) s1 else s1
    have hrun : exec (.numxClear w bed what false) s = .next s2 := by
      refine congrArg Host.Outcome.next ((writeAccess_serve hreach _ _).trans ?_)
      simp only [clearRecords, if_neg Bool.false_ne_true, if_pos hbed]
      rfl
    have hs1 : s1 = { s with regs := s1.regs } := by
      simp only [s1]
      split
      · exact clearNum_regs _ _
      · rfl
    have hguard : ∀ i j, i < 8 → j < 8 → R.numxGuard bed.toNat i ≠ R.numxNan bed.toNat j := fun i j hi hj => by
      simp only [R.numxGuard, R.numxNan]
      omega
    refine ⟨s2, hrun, ?_, fun h0 i hi => ?_, fun h1 i hi => ?_⟩
    · simp only [s2]
      split
      · rw [clearNum_regs, hs1]
      · exact hs1
    · have hfirst : s1.rd (R.numxGuard bed.toNat i) = 0 := by
        simp only [s1, if_pos h0]
        rw [rd_clearNum _ _ (by simp only [R.numxGuard]; omega)]
        exact if_pos (List.mem_map_of_mem (List.mem_range.mpr hi))
      simp only [s2]
      split
      · rw [rd_clearNum _ _ (by simp only [R.numxGuard]; omega), if_neg, hfirst]
        intro hmem
        obtain ⟨j, hj, heq⟩ := List.mem_map.mp hmem
        exact hguard i j hi (List.mem_range.mp hj) heq.symm
      · exact hfirst
    · simp only [s2, if_pos h1]
      rw [rd_clearNum _ _ (by simp only [R.numxNan]; omega)]
      exact if_pos (List.mem_map_of_mem (List.mem_range.mpr hi))

end Sys2Proof
end

section
/-! PROOFS. Hose channels: credits, releases and configuration (spec/12 R305-R311, R318). -/
namespace Sys2Proof.Machine

/-- A channel's shown state is register words alone. -/
theorem refreshChannel_regs (e c : Nat) (s : State) : refreshChannel e c s = { s with regs := (refreshChannel e c s).regs } := by
  unfold refreshChannel
  dsimp only
  split <;> rfl

/-- A channel's shown state is in its STATE and STALL words. -/
theorem rd_refreshChannel_ne {e c : Nat} (s : State) {r : Nat} (h1 : r ≠ R.hoseState e c) (h2 : r ≠ R.hoseStall e c) :
    (refreshChannel e c s).rd r = s.rd r := by
  have hputs : ∀ a b, (s.puts [(F.hoseStateState e c, a), (F.hoseStateQueued e c, b)]).rd r = s.rd r := fun a b => by
    refine State.rd_puts_ne _ _ _ fun f hf => ?_
    simp only [List.mem_cons, List.not_mem_nil, or_false] at hf
    rcases hf with rfl | rfl <;> exact h1
  unfold refreshChannel
  dsimp only
  split
  · exact hputs _ _
  · rw [State.rd_wr_ne _ _ _ _ h2, State.rd_put_ne _ _ _ _ h1]
    exact hputs _ _

/-- What a refresh of the urgent status leaves: all but its register word and the urgent entries' reasons. -/
theorem refreshUrgent_keeps (s : State) : (refreshUrgent s).mem = s.mem ∧ (refreshUrgent s).hose = s.hose ∧
    ∀ r, r ≠ R.hostqUrgentStatus → (refreshUrgent s).rd r = s.rd r := by
  unfold refreshUrgent
  split
  · exact ⟨rfl, rfl, fun _ _ => rfl⟩
  · refine ⟨State.each_keeps State.mem _ (fun u t => ?_) _ _, State.each_keeps State.hose _ (fun u t => ?_) _ _, fun r hr =>
      (State.each_keeps (fun t => t.rd r) _ (fun u t => ?_) _ _).trans (State.rd_puts_ne _ _ _ fun f hf => ?_)⟩
    · dsimp only
      split <;> split <;> rfl
    · dsimp only
      split <;> split <;> rfl
    · dsimp only
      split <;> split <;> rfl
    · simp only [List.mem_cons, List.not_mem_nil, or_false] at hf
      rcases hf with rfl | rfl | rfl <;> exact hr

/-- A field of another register reads through a refresh of the urgent status. -/
theorem get_refreshUrgent (s : State) {f : Field} (h : f.off ≠ R.hostqUrgentStatus) : (refreshUrgent s).get f = s.get f := by
  obtain ⟨-, -, hrd⟩ := refreshUrgent_keeps s
  rw [State.get, State.get, hrd _ h]

end Sys2Proof.Machine

namespace Sys2Proof
open Sys2Proof.Machine

/-- Settles O41: a slab runs as its channel's state says, a release is compared with the cursor, and a configuration
write passes its three conditions or is counted. -/
theorem hoseChannels : Obligations.HoseChannels := by
  unfold Obligations.HoseChannels
  intro s e c
  refine ⟨fun t hrun hready => ?_, fun t hrun hready => ?_, fun hrun hlow => ?_, fun w add hreach => ?_, fun w v hreach => ?_⟩
  · simp only [exec, execSlabCredit, hrun, hready, if_true]
  · simp only [exec, execSlabCredit, hrun, hready, if_neg Bool.false_ne_true]
  · have hnot : ¬ (12 ≤ c.val ∧ s.groupReady (groupOf e c) = true) := fun h => absurd h.1 (Nat.not_le.mpr hlow)
    simp only [exec, execSlabCredit, hrun, if_neg hnot]
  · intro r cur
    have hrun : exec (.releaseAdd w e c add) s = .next (releaseChannel e c add.toNat s) :=
      congrArg Host.Outcome.next (writeAccess_serve hreach _ _)
    refine ⟨fun hover => hrun.trans (congrArg _ (if_pos hover)), fun hle => ⟨_, hrun.trans (congrArg _
      (if_neg (Nat.not_lt.mpr hle))), ?_, ?_, ?_⟩⟩
    · rw [rd_refreshChannel_ne _ (by simp only [R.hoseRelease, R.hoseState]; omega)
        (by simp only [R.hoseRelease, R.hoseStall]; omega), State.rd_wr_same]
      have hcur : cur < 2 ^ 32 := (s.rd (R.hoseCursor e c)).isLt
      exact Nat.mod_eq_of_lt (Nat.lt_of_le_of_lt hle hcur)
    · rw [rd_refreshChannel_ne _ (by simp only [R.hoseCursor, R.hoseState]; omega)
        (by simp only [R.hoseCursor, R.hoseStall]; omega), State.rd_wr_ne _ _ _ _ (by simp only [R.hoseCursor, R.hoseRelease]; omega)]
    · rw [refreshChannel_regs]
      rfl
  · intro own ok
    have hrun : exec (.hoseCfgWrite w e c v) s = .next (writeHoseCfg w e c v s) :=
      congrArg Host.Outcome.next (writeAccess_serve hreach _ _)
    have hok : ok ↔ (!s.hasToken w || s.hose.transfers.any (fun t => t.engine = e && t.channel = c) ||
        (getBits v 8 1 == 1 && getBits v 9 1 == e && getBits v 12 4 == c)) = false := by
      simp [ok, own, and_assoc]
    refine ⟨fun hbad => ?_, fun hgood hres => ?_⟩
    · exact hrun.trans (congrArg _ (if_pos (by simpa only [Bool.not_eq_false] using mt hok.mpr hbad)))
    · let cfg := s.puts [(F.hoseCfgOwner e c, getBits v 0 2), (F.hoseCfgFn e c, getBits v 4 3), (F.hoseCfgUpEn e c, getBits v 8 1),
        (F.hoseCfgUpEngine e c, getBits v 9 1), (F.hoseCfgUpChannel e c, getBits v 12 4)]
      have hoff : ∀ f : Field, f.off = R.hoseCfg e c → (refreshUrgent cfg).get f = cfg.get f := fun f hf =>
        get_refreshUrgent _ (by rw [hf]; simp only [R.hoseCfg, R.hostqUrgentStatus]; omega)
      obtain ⟨hmem, hhose, -⟩ := refreshUrgent_keeps cfg
      refine ⟨refreshUrgent cfg, hrun.trans (congrArg _ ((if_neg (Bool.eq_false_iff.mp (hok.mp hgood))).trans
        (if_pos hres))), ?_, ?_, ?_, ?_, ?_, hmem, hhose⟩
      · exact (hoff _ rfl).trans ((State.get_puts_last s [] _ _ _ rfl
          (by simp [fits, apart, F.hoseCfgOwner, F.hoseCfgFn, F.hoseCfgUpEn, F.hoseCfgUpEngine, F.hoseCfgUpChannel])).trans
          (Nat.mod_eq_of_lt (Nat.mod_lt _ (by decide))))
      · exact (hoff _ rfl).trans ((State.get_puts_last s [_] _ _ _ rfl
          (by simp [fits, apart, F.hoseCfgFn, F.hoseCfgUpEn, F.hoseCfgUpEngine, F.hoseCfgUpChannel])).trans
          (Nat.mod_eq_of_lt (Nat.mod_lt _ (by decide))))
      · exact (hoff _ rfl).trans ((State.get_puts_last s [_, _] _ _ _ rfl
          (by simp [fits, apart, F.hoseCfgUpEn, F.hoseCfgUpEngine, F.hoseCfgUpChannel])).trans
          (Nat.mod_eq_of_lt (Nat.mod_lt _ (by decide))))
      · exact (hoff _ rfl).trans ((State.get_puts_last s [_, _, _] _ _ _ rfl
          (by simp [fits, apart, F.hoseCfgUpEngine, F.hoseCfgUpChannel])).trans
          (Nat.mod_eq_of_lt (Nat.mod_lt _ (by decide))))
      · exact (hoff _ rfl).trans ((State.get_puts_last s [_, _, _, _] [] _ _ rfl rfl).trans
          (Nat.mod_eq_of_lt (Nat.mod_lt _ (by decide))))

end Sys2Proof
end

section
/-! PROOFS. SHED_CMD, the scrub, QoS windows and the refresh rate (spec/10 R254, R255, R261, R274). -/
namespace Sys2Proof.Machine

/-- R274's first condition that fails, spelled out. -/
theorem shedResult_eq (w : Writer) (key : BitVec 16) (s : State) : shedResult w key.toNat s =
    if key ≠ 0x5E1C ∨ isPf0 w = false ∨ s.hasToken w = false ∨ s.get F.shedCmdStatusBusy = 1 then 1
      else if s.power ≠ 0 ∨ s.get F.planStatusPhase ≠ 0 then 2 else 0 := by
  have hkey : key.toNat ≠ 0x5E1C ↔ key ≠ 0x5E1C := by
    rw [ne_eq, ne_eq, ← BitVec.toNat_inj]
    rfl
  simp only [shedResult, hkey, Bool.not_eq_true', State.inBloom, beq_eq_false_iff_ne]

/-- A SHED_CMD that its first condition refuses shows the condition and nothing else. -/
theorem shedCommand_refused {w : Writer} {key op sl k r : Nat} {s : State} (hr : shedResult w key s = r) (h : r ≠ 0) :
    shedCommand w key op sl k s = s.put F.shedCmdStatusResult r := by
  rw [shedCommand, hr]
  exact if_pos h

theorem shedCommand_accepted {w : Writer} {key op sl k : Nat} {s : State} (hr : shedResult w key s = 0) :
    shedCommand w key op sl k s = if op = 1 then onEntry sl k (preloadLock sl k) s
      else if op = 2 then onEntry sl k (fun t => t.each (t.lockLines sl k) writeBack) s
      else if op = 3 then shedDone (s.each (s.mem.lines.filter (fun l => (s.lockOf l.pa).isNone)) writeBack)
      else s := by
  rw [shedCommand, hr]
  exact if_neg (by simp)

/-- A command carried out shows DONE and RESULT 0 (R274). -/
theorem shedDone_shows (s : State) : (shedDone s).get F.shedCmdStatusDone = 1 ∧ (shedDone s).get F.shedCmdStatusResult = 0 ∧
    (shedDone s).mem = s.mem := by
  have hres : (s.put F.shedCmdStatusResult 0).get F.shedCmdStatusResult = 0 := State.get_put_same _ _ _ rfl
  unfold shedDone
  dsimp only
  split
  · exact ⟨‹_›, hres, rfl⟩
  · rw [sendMsi_get, sendMsi_get, sendMsi_mem]
    exact ⟨State.get_put_same _ _ _ rfl, (State.get_put_apart _ _ _ _ rfl rfl).trans hres, rfl⟩

/-! The scrub -/

/-- Counting memory units of class 2 is one register word. -/
theorem countUnits_scrub (ch n : Nat) (s : State) : countUnits ch 2 n s = s.wrap32 (R.memcBytes ch 2) n := by
  simp [countUnits]

/-- The region of a PA goes by MEMC_USABLE and the plan. -/
theorem channel_wr {s : State} {o : Nat} {v : Word} (h1 : R.memcUsable ≠ o) (h2 : R.memcUsable + 4 ≠ o)
    (h3 : F.memcPktPktMib.off ≠ o) (pa : Nat) :
    (s.wr o v).channel pa = s.channel pa := by
  have husable : (s.wr o v).usable = s.usable := by
    rw [State.usable, State.rd64, State.rd_wr_ne _ _ _ _ h1, State.rd_wr_ne _ _ _ _ h2]
    rfl
  have hregion : (s.wr o v).region pa = s.region pa := by
    rw [State.region, State.region, State.pktBase, State.pktBase, husable, State.pktBytes, State.pktBytes,
      State.get_wr_ne _ _ _ _ h3]
  rw [State.channel, State.channel, hregion]

theorem channel_lt (s : State) (pa : Nat) : s.channel pa < 2 := by
  unfold State.channel
  split
  · decide
  · decide
  · exact Nat.mod_lt _ (by decide)

/-- An uncorrectable unit of channel 0 that a scrub finds (R254, R255). -/
theorem poisonUnit_finds {s : State} {pa : Nat} (hch : s.channel pa = 0) :
    pa / 64 * 64 ∈ (poisonUnit pa s).mem.poison ∧
      (poisonUnit pa s).get (F.memcEccUncorrectable 0) = min 0xFFFF (s.get (F.memcEccUncorrectable 0) + 1) ∧
      (poisonUnit pa s).rd64 (R.memcEccAddr 0) = pa / 64 * 64 % 2 ^ 64 ∧ (poisonUnit pa s).mem.dram = s.mem.dram := by
  let s1 : State := { s with mem := { s.mem with poison := pa / 64 * 64 :: s.mem.poison.filter (fun p => p ≠ pa / 64 * 64) } }
  have hrun : poisonUnit pa s = (s1.bump (F.memcEccUncorrectable 0) 1).wr64 (R.memcEccAddr 0) (pa / 64 * 64) := by
    rw [poisonUnit, hch]
  rw [hrun]
  refine ⟨List.mem_cons_self, ?_, ?_, rfl⟩
  · rw [State.wr64, State.get_wr_ne _ _ _ _ (by decide), State.get_wr_ne _ _ _ _ (by decide), State.get_bump_same _ _ _ rfl,
      satAdd_eq_min]
    rfl
  · rw [State.rd64, State.wr64, State.rd_wr_same, State.rd_wr_ne _ _ _ _ (by decide), State.rd_wr_same, BitVec.toNat_ofNat,
      BitVec.toNat_ofNat]
    omega

/-- The reads of a scrub are counted in the channels' words alone. -/
theorem each_countUnits_scrub (n : Nat) (l : List Nat) (hl : ∀ ch ∈ l, ch < 2) (s : State) :
    let u := s.each l (fun ch t => countUnits ch 2 n t)
    u.mem = s.mem ∧ (∀ pa, u.channel pa = s.channel pa) ∧ u.get (F.memcCfgEcc 0) = s.get (F.memcCfgEcc 0) ∧
      u.get (F.memcEccUncorrectable 0) = s.get (F.memcEccUncorrectable 0) := by
  induction l generalizing s with
  | nil => exact ⟨rfl, fun _ => rfl, rfl, rfl⟩
  | cons ch l ih =>
    have hch : ch < 2 := hl ch List.mem_cons_self
    obtain ⟨hmem, hchan, hecc, hunc⟩ := ih (fun x hx => hl x (List.mem_cons_of_mem _ hx)) (countUnits ch 2 n s)
    rw [countUnits_scrub] at hmem hchan hecc hunc
    refine ⟨hmem, fun pa => (hchan pa).trans (channel_wr ?_ ?_ ?_ pa), hecc.trans (State.get_wr_ne _ _ _ _ ?_),
      hunc.trans (State.get_wr_ne _ _ _ _ ?_)⟩
    all_goals
      simp only [R.memcUsable, R.memcBytes, F.memcPktPktMib, R.memcPkt, F.memcCfgEcc, R.memcCfg, F.memcEccUncorrectable, R.memcEcc]
      omega

end Sys2Proof.Machine

namespace Sys2Proof
open Sys2Proof.Machine

/-- Settles O38: each command is refused by R274's first failing condition or carried out, and a scrub's units are found
in the state that its reads leave. -/
theorem memoryCommands : Obligations.MemoryCommands := by
  unfold Obligations.MemoryCommands
  intro s
  refine ⟨fun w key sl e hreach => ?_, shedDone_shows s, fun c => rfl, fun c d hopen => ?_, fun c u h0 h1 => ?_,
    fun pa hpa hopen hecc hch => ?_⟩
  · intro r unused
    have hr : shedResult w key.toNat s = r := shedResult_eq w key s
    have hfill : exec (.shedFill w key sl e) s = .next (shedCommand w key.toNat 1 sl e.toNat s) :=
      congrArg Host.Outcome.next (writeAccess_serve hreach _ _)
    have hback : exec (.shedWriteback w key sl e) s = .next (shedCommand w key.toNat 2 sl e.toNat s) :=
      congrArg Host.Outcome.next (writeAccess_serve hreach _ _)
    have hflush : exec (.shedFlush w key) s = .next (shedCommand w key.toNat 3 0 0 s) :=
      congrArg Host.Outcome.next (writeAccess_serve hreach _ _)
    refine ⟨fun hne => ⟨?_, ?_, ?_⟩, fun h0 hun => ⟨?_, ?_⟩, fun h0 hun => ⟨?_, ?_⟩, fun h0 => ?_⟩
    · rw [hfill, shedCommand_refused hr hne]
    · rw [hback, shedCommand_refused hr hne]
    · rw [hflush, shedCommand_refused hr hne]
    · rw [hfill, shedCommand_accepted (hr.trans h0)]
      exact congrArg _ ((if_pos rfl).trans (if_pos hun))
    · rw [hback, shedCommand_accepted (hr.trans h0)]
      exact congrArg _ ((if_neg (by decide)).trans ((if_pos rfl).trans (if_pos hun)))
    · rw [hfill, shedCommand_accepted (hr.trans h0)]
      exact congrArg _ ((if_pos rfl).trans (if_neg hun))
    · rw [hback, shedCommand_accepted (hr.trans h0)]
      exact congrArg _ ((if_neg (by decide)).trans ((if_pos rfl).trans (if_neg hun)))
    · rw [hflush, shedCommand_accepted (hr.trans h0)]
      exact congrArg _ ((if_neg (by decide)).trans ((if_neg (by decide)).trans (if_pos rfl)))
  · simp only [exec, execRefreshRateChange, hopen, if_true]
    cases d <;> rfl
  · have hon : ∀ ch, ch = 0 ∨ ch = 1 → (s.isOpen (69 + ch) && s.get (F.memcCfgEcc ch) == 1) = false := fun ch hch => by
      rcases hch with rfl | rfl
      · simp [h0]
      · simp [h1]
    have hnone : ∀ l : List Nat, l.filter (fun pa => pa < s.usable && (s.isOpen (69 + s.channel pa) &&
        s.get (F.memcCfgEcc (s.channel pa)) == 1)) = [] := fun l => List.filter_eq_nil_iff.mpr fun pa _ => by
      have hch := channel_lt s pa
      rw [hon _ (by omega), Bool.and_false]
      exact Bool.false_ne_true
    have hoff : [0, 1].filter (fun ch => s.isOpen (69 + ch) && s.get (F.memcCfgEcc ch) == 1) = [] := by
      simp [hon 0 (.inl rfl), hon 1 (.inr rfl)]
    simp only [exec, execEccScrub, hnone, hoff]
    rfl
  · let on : Nat → Bool := fun ch => s.isOpen (69 + ch) && s.get (F.memcCfgEcc ch) == 1
    have hon : (s.isOpen (69 + s.channel pa) && s.get (F.memcCfgEcc (s.channel pa)) == 1) = true := by
      rw [hch]
      simp [hopen, hecc]
    have hhits : [pa].filter (fun pa => pa < s.usable && (s.isOpen (69 + s.channel pa) &&
        s.get (F.memcCfgEcc (s.channel pa)) == 1)) = [pa] := by
      rw [List.filter_cons_of_pos (by rw [hon, Bool.and_true]; exact decide_eq_true hpa)]
      rfl
    obtain ⟨hmem, hchan, hecc', hunc⟩ := each_countUnits_scrub (s.usable / 128) ([0, 1].filter on) (fun ch h => by
      have := (List.mem_filter.mp h).1
      simp only [List.mem_cons, List.not_mem_nil, or_false] at this
      omega) s
    let u := s.each ([0, 1].filter on) (fun ch t => countUnits ch 2 (s.usable / 128) t)
    have hfind : eccFinds pa false true u = poisonUnit pa u := by
      rw [eccFinds, hchan pa, hch, hecc', hecc]
      rfl
    have hrun : exec (.eccScrub [] [pa]) s = .next (eccFinds pa false true u) := by
      simp only [exec, execEccScrub, hhits]
      rfl
    obtain ⟨hpoison, hcount, haddr, hdram⟩ := poisonUnit_finds (s := u) ((hchan pa).trans hch)
    exact ⟨_, hrun.trans (congrArg _ hfind), hpoison, hcount.trans (by rw [hunc]), haddr,
      hdram.trans (congrArg MemUnit.dram hmem)⟩

end Sys2Proof
end

section
/-! PROOFS. Calibration commands (spec/06 R166-R170). -/
namespace Sys2Proof.Machine

/-- Fields of different words are apart. -/
theorem apart_of_off {f g : Field} (h : f.off ≠ g.off) : apart f g = true := by
  simp only [apart, h, ne_eq, not_false_eq_true, decide_true, Bool.true_or]

/-- Fields written one by one, each apart from the others. -/
theorem get_each_put (f : Nat → Field) (v : Nat → Nat) (hfits : ∀ n, fits (f n) = true)
    (hapart : ∀ n m, n ≠ m → apart (f n) (f m) = true) (s : State) (k n : Nat) (hn : n < k) :
    (s.each (List.range k) (fun n t => t.put (f n) (v n))).get (f n) = v n % 2 ^ (f n).width := by
  induction k with
  | zero => cases hn
  | succ k ih =>
    rw [List.range_succ, State.each, List.foldl_append]
    by_cases hk : n = k
    · subst hk
      exact State.get_put_same _ _ _ (hfits n)
    · exact (State.get_put_apart _ _ _ _ (hfits k) (hapart k n (Ne.symm hk))).trans (ih (by omega))

/-! CAL_CMD -/

theorem calResult_eq (w : Writer) (key : BitVec 16) (s : State) : calResult w key.toNat s =
    if key ≠ 0xCA1B ∨ isPf0 w = false ∨ s.hasToken w = false then 1 else if s.get F.calStatusBusy = 1 then 2
      else if s.power ≠ 0 then 3 else 0 := by
  have hkey : key.toNat ≠ 0xCA1B ↔ key ≠ 0xCA1B := by
    rw [ne_eq, ne_eq, ← BitVec.toNat_inj]
    rfl
  simp only [calResult, hkey, Bool.not_eq_true', State.inBloom, beq_eq_false_iff_ne]

theorem calCommand_refused {w : Writer} {key r : Nat} {s : State} (hr : calResult w key s = r) (h : r ≠ 0) (act : State → State) :
    calCommand w key act s = s.put F.calStatusResult r := by
  rw [calCommand, hr]
  exact if_pos h

theorem calCommand_runs {w : Writer} {key : Nat} {s : State} (hr : calResult w key s = 0)
    (hopen : (noteOrigin 4 w s).isShut 0 = false) (act : State → State) : calCommand w key act s = act (noteOrigin 4 w s) := by
  simp only [calCommand, hr, hopen]
  rfl

theorem calRaw_off (n : Nat) : R.calRaw n ≠ R.hostqEventCause ∧ R.calStatus ≠ R.calRaw n := by
  simp only [R.calRaw, R.hostqEventCause, R.calStatus]
  omega

/-- MEASURE shows the readings (Table 6.9). -/
theorem calMeasure_shows (l : List Int) (s : State) : (calMeasure 0 l s).get F.calStatusDone = 1 ∧
    (calMeasure 0 l s).mem = s.mem ∧ ∀ n, n < 12 → (calMeasure 0 l s).get (F.calRawRaw n) = ofInt 16 (l.getD n 0) := by
  let u := s.each (List.range 12) (fun n t => t.put (F.calRawRaw n) (ofInt 16 (l.getD n 0)))
  have hu : calMeasure 0 l s = setEvent 2 (u.puts [(F.calStatusResult, 0), (F.calStatusDone, 1)]) := rfl
  rw [hu]
  refine ⟨?_, ?_, fun n hn => ?_⟩
  · rw [setEvent_get _ _ _ (by decide)]
    exact State.get_puts_last _ [_] [] _ _ rfl rfl
  · rw [setEvent_mem, State.mem_puts]
    exact State.each_keeps State.mem (fun n t => t.put (F.calRawRaw n) (ofInt 16 (l.getD n 0))) (fun _ _ => rfl) _ s
  · have hstatus : ∀ f : Field, f.off = R.calStatus → apart f (F.calRawRaw n) = true := fun f hf => by
      refine apart_of_off ?_
      rw [hf]
      exact (calRaw_off n).2
    refine (setEvent_get 2 _ (F.calRawRaw n) (calRaw_off n).1).trans ?_
    have hputs : (u.puts [(F.calStatusResult, 0), (F.calStatusDone, 1)]).get (F.calRawRaw n) = u.get (F.calRawRaw n) :=
      State.get_puts_apart _ _ _ fun f hf => by
        simp only [List.mem_cons, List.not_mem_nil, or_false] at hf
        rcases hf with rfl | rfl
        · exact ⟨rfl, hstatus _ rfl⟩
        · exact ⟨rfl, hstatus _ rfl⟩
    have heach := get_each_put F.calRawRaw (fun n => ofInt 16 (l.getD n 0)) (fun _ => rfl) (fun a b hab => apart_of_off (by
      simp only [F.calRawRaw, R.calRaw]
      omega)) s 12 n hn
    have hlt : ofInt 16 (l.getD n 0) < 2 ^ 16 := by
      rw [ofInt]
      omega
    exact hputs.trans (heach.trans (Nat.mod_eq_of_lt hlt))

end Sys2Proof.Machine

namespace Sys2Proof
open Sys2Proof.Machine

/-- Settles O24: a CAL_CMD is refused by R166's first failing condition, or its operation runs. -/
theorem calibrationCommands : Obligations.CalibrationCommands := by
  unfold Obligations.CalibrationCommands
  intro s w key hreach r s0
  have hr : calResult w key.toNat s = r := calResult_eq w key s
  have hserve : ∀ v (act : State → State), writeAccess w R.calCmd v (calCommand w key.toNat act) s =
      calCommand w key.toNat act s := fun v act => writeAccess_serve hreach _ _
  refine ⟨fun hne c hc => ?_, fun h0 hopen => ?_⟩
  · have hrefused : ∀ v (act : State → State), (Host.Outcome.next (writeAccess w R.calCmd v (calCommand w key.toNat act) s) : Out) =
        .next (s.put F.calStatusResult r) := fun v act => by rw [hserve, calCommand_refused hr hne]
    rcases hc with rfl | rfl | rfl | ⟨a, m, l, rfl⟩
    · exact hrefused _ _
    · exact hrefused _ _
    · exact hrefused _ _
    · exact hrefused _ _
  · have hruns : ∀ v (act : State → State), (Host.Outcome.next (writeAccess w R.calCmd v (calCommand w key.toNat act) s) : Out) =
        .next (act s0) := fun v act => by rw [hserve, calCommand_runs (hr.trans h0) hopen]
    refine ⟨hruns _ _, fun t s1 hread => ⟨fun hbad => ?_, fun hgood huser => ?_⟩, hruns _ _, fun m l => ?_⟩
    · refine (hruns _ (calWrite w)).trans (congrArg _ ?_)
      simp only [calWrite, hread]
      exact if_pos hbad
    · refine (hruns _ (calWrite w)).trans (congrArg _ ?_)
      simp only [calWrite, hread]
      exact if_neg (by simp [hgood, huser])
    · exact ⟨_, hruns _ (calMeasure 0 l), calMeasure_shows l s0⟩

end Sys2Proof
end

section
/-! PROOFS. VDD_CORE transactions and reference clocks (spec/23 R540, R546, R547; spec/18 R428). -/
namespace Sys2Proof.Machine

/-- A fault of the AVS: FAULT shows, and the wait for a raised target ends with the clocks capped (R547). -/
theorem avsFault_shows (s : State) : ∃ u : State, avsFault s = refreshClocks u ∧ u.get F.fenceAvsFault = 1 ∧
    u.fence.raising = none ∧ u.fence.avsTries = 0 ∧
    u.fence.avsCap = some (curveMhz (s.fence.raising.getD (s.get F.fenceAvsTargetMv) - 10)) ∧
    u = { s with regs := u.regs, fence := u.fence } := by
  let cap := curveMhz (s.fence.raising.getD (s.get F.fenceAvsTargetMv) - 10)
  let s1 := (s.put F.fenceAvsFault 1).bump F.fenceClampsFreq
    ((List.range 72).filter (fun n => avsIsland n && s.hedge n ≠ DARK && cap < s.limitedClock n)).length
  refine ⟨{ s1 with fence := { s1.fence with avsCap := some cap, raising := none, avsTries := 0 } }, rfl, ?_, rfl, rfl, rfl, rfl⟩
  show s1.get F.fenceAvsFault = 1
  exact (State.get_put_apart _ _ _ _ rfl (apart_of_off (by decide))).trans (State.get_put_same _ _ _ rfl)

/-- Without island 61 the links of the ports stay; with it the loss of their clock takes each down (R428). -/
theorem links_down (s : State) : ∃ t, s.each (List.range 4) (fun p t => t.put (F.intakePortStatusLink p) 0) = t ∧
    (∀ p, p < 4 → t.get (F.intakePortStatusLink p) = 0) ∧ t = { s with regs := t.regs } := by
  refine ⟨_, rfl, fun p hp => ?_, rfl⟩
  exact get_each_put F.intakePortStatusLink (fun _ => 0) (fun _ => rfl) (fun a b hab => apart_of_off (by
    simp only [F.intakePortStatusLink, R.intakePortStatus]
    omega)) s 4 p hp

end Sys2Proof.Machine

namespace Sys2Proof
open Sys2Proof.Machine

/-- Settles O23: each command's branch, and the state that a fault and a lost clock leave. -/
theorem voltageAndClockEvents : Obligations.VoltageAndClockEvents := by
  unfold Obligations.VoltageAndClockEvents
  intro s
  refine ⟨rfl, rfl, ?_, fun hraise => ?_, avsFault_shows s, fun b hp hb => ?_, fun b hshut => ?_⟩
  · intro s1
    refine ⟨?_, (State.get_bump_same _ _ _ rfl).trans (satAdd_eq_min _ _ _ |>.trans (Nat.min_comm _ _))⟩
    have hrun : exec (.avsResponse false) s = .next (if 3 ≤ s.fence.avsTries + 1 then avsFault s1
      else { s1 with fence := { s.fence with avsTries := s.fence.avsTries + 1 } }) := rfl
    rw [hrun]
    by_cases h : s.fence.avsTries < 2
    · rw [if_pos h, if_neg (by omega)]
    · rw [if_neg h, if_pos (by omega)]
  · exact congrArg _ (if_pos hraise)
  · have hstays : ¬ (s.power = 2 ∨ (b = true ∧ s.get F.hostqLinkL12 = 1)) := by
      rintro (h | ⟨hb', hl⟩)
      · exact hp h
      · rcases hb with hb | hb
        · rw [hb] at hb'
          cases hb'
        · omega
    exact congrArg _ ((if_neg Bool.false_ne_true).trans (if_neg hstays))
  · obtain ⟨t, ht, hlink, hregs⟩ := links_down s
    refine ⟨t, congrArg _ ((if_pos rfl).trans ((if_neg ?_).trans ht)), hlink, hregs⟩
    rw [hshut]
    exact Bool.false_ne_true

end Sys2Proof
end

section
/-! PROOFS. PWR_REQUEST (spec/05 R130-R132). -/
namespace Sys2Proof.Machine

/-- The fields of a PWR_REQUEST value. -/
theorem keyed_fields (key : BitVec 16) (target : BitVec 3) (drain : BitVec 1) :
    let v := keyed key.toNat (target.toNat + 16 * drain.toNat)
    slice v 0 3 = target.toNat ∧ slice v 4 1 = drain.toNat ∧ v / 2 ^ 16 = key.toNat := by
  have ht := target.isLt
  have hd := drain.isLt
  simp only [keyed, slice]
  omega

/-- R130's first condition that fails, spelled out. -/
theorem powerResult_eq (w : Writer) (key : BitVec 16) (n : Nat) (s : State) : powerResult w key.toNat n s =
    if key ≠ 0x5AD0 ∨ isPf0 w = false ∨ s.hasToken w = false then 1 else if s.get F.pwrStatusPhase ≠ 0 then 3
      else if 2 ≤ s.power ∨ 4 < n ∨ (n = 0 ∧ s.power ≠ 1) then 2
      else if n = 2 ∧ (s.get F.hostqLinkAspmL1 = 0 ∨ s.get F.hostqLinkL12 = 0) then 6 else 0 := by
  have hkey : key.toNat ≠ 0x5AD0 ↔ key ≠ 0x5AD0 := by
    rw [ne_eq, ne_eq, ← BitVec.toNat_inj]
    rfl
  simp only [powerResult, hkey, Bool.not_eq_true']

/-- What an accepted request leaves before its entry or exit: the port's mark, and LTR for the deep states. -/
def acceptedPower (w : Writer) (n : Nat) (s : State) : State :=
  let u := noteOrigin 5 w (s.put F.pwrStatusResult 0)
  if 2 ≤ n then { u with host := { u.host with ltrUs := 1000 } } else u

section
variable {w : Writer} {v n d key : Nat} {s : State} (hstart : s.boot.starting = false) (htarget : slice v 0 3 = n)
  (hdrain : slice v 4 1 = d) (hkey : v / 2 ^ 16 = key)
include hstart htarget hdrain hkey

theorem powerRequest_refused {r : Nat} (hr : powerResult w key n s = r) (h : r ≠ 0) :
    powerRequest w v s = s.put F.pwrStatusResult r := by
  rw [powerRequest, htarget, hdrain, hkey, hr]
  exact (if_neg (by simp [hstart])).trans (if_pos h)

theorem powerRequest_accepted (hr : powerResult w key n s = 0) : powerRequest w v s =
    if s.power = 1 then shadeExit [] (if n = 0 then (acceptedPower w n s).put F.pwrStatusLastTarget n
      else { (acceptedPower w n s).put F.pwrStatusLastTarget n with
        pwr := { ((acceptedPower w n s).put F.pwrStatusLastTarget n).pwr with after := some (n, d) } })
    else beginEntry n d (acceptedPower w n s) := by
  rw [powerRequest, htarget, hdrain, hkey, hr]
  exact (if_neg (by simp [hstart])).trans (if_neg (by simp))

end

/-- An entry with no drain begins in SETTLE for its target (R131). -/
theorem beginEntry_shows (n : Nat) (u : State) (hn : n < 8) : (beginEntry n 0 u).get F.pwrStatusPhase = 1 ∧
    (beginEntry n 0 u).get F.pwrStatusResult = 0 ∧ (beginEntry n 0 u).get F.pwrStatusLastTarget = n := by
  obtain ⟨u0, hu⟩ : ∃ u0 : State, (beginEntry n 0 u).regs = (u0.puts
      [(F.pwrStatusPhase, 1), (F.pwrStatusResult, 0), (F.pwrStatusLastTarget, n)]).regs := by
    exact ⟨(closeBatches u).wr R.pwrMode 0, by simp only [beginEntry, Nat.zero_ne_one, if_false]⟩
  have hget (f : Field) : (beginEntry n 0 u).get f = (u0.puts
      [(F.pwrStatusPhase, 1), (F.pwrStatusResult, 0), (F.pwrStatusLastTarget, n)]).get f := by
    rw [State.get, State.get, State.rd, State.rd, hu]
  refine ⟨(hget _).trans ?_, (hget _).trans ?_, (hget _).trans ?_⟩
  · exact State.get_puts_last u0 [] [(F.pwrStatusResult, 0), (F.pwrStatusLastTarget, n)] F.pwrStatusPhase 1 rfl rfl
  · exact State.get_puts_last u0 [(F.pwrStatusPhase, 1)] [(F.pwrStatusLastTarget, n)] F.pwrStatusResult 0 rfl rfl
  · exact (State.get_puts_last u0 [(F.pwrStatusPhase, 1), (F.pwrStatusResult, 0)] [] F.pwrStatusLastTarget n rfl rfl).trans
      (Nat.mod_eq_of_lt hn)

end Sys2Proof.Machine

namespace Sys2Proof
open Sys2Proof.Machine

/-- Settles O16: a request is held, refused by R130's first failing condition, or begins its exit or entry. -/
theorem powerRequests : Obligations.PowerRequests := by
  unfold Obligations.PowerRequests
  intro s w key target drain hreach
  obtain ⟨htarget, hdrain, hkey⟩ := keyed_fields key target drain
  let v := keyed key.toNat (target.toNat + 16 * drain.toNat)
  have hrun : exec (.pwrRequest w key target drain) s = .next (powerRequest w v s) :=
    congrArg Host.Outcome.next (writeAccess_serve hreach _ _)
  have hexit : exec (.softwareShadeExit w key) s = .next (powerRequest w (keyed key.toNat 0) s) :=
    congrArg Host.Outcome.next (writeAccess_serve hreach _ _)
  refine ⟨fun hstart => ⟨v, ?_, hkey, hrun.trans (congrArg _ (if_pos hstart))⟩, fun hstart => ?_, fun n u hn => ?_⟩
  · simpa [slice] using htarget
  · intro res n acc
    have hres : ∀ n, powerResult w key.toNat n s = res n := fun n => powerResult_eq w key n s
    have hzero : slice (keyed key.toNat 0) 0 3 = 0 ∧ slice (keyed key.toNat 0) 4 1 = 0 ∧ keyed key.toNat 0 / 2 ^ 16 = key.toNat :=
      keyed_fields key 0 0
    obtain ⟨hztarget, hzdrain, hzkey⟩ := hzero
    refine ⟨fun hne => ?_, fun hne => ?_, fun h0 hp => ?_, fun h0 hp hn => ?_, fun h0 => ?_⟩
    · exact hrun.trans (congrArg _ (powerRequest_refused hstart htarget hdrain hkey (hres n) hne))
    · exact hexit.trans (congrArg _ (powerRequest_refused hstart hztarget hzdrain hzkey (hres 0) hne))
    · refine hrun.trans (congrArg _ ((powerRequest_accepted hstart htarget hdrain hkey ((hres n).trans h0)).trans (if_neg ?_)))
      omega
    · exact hrun.trans (congrArg _ ((powerRequest_accepted hstart htarget hdrain hkey ((hres n).trans h0)).trans
        ((if_pos hp).trans (congrArg _ (if_neg hn)))))
    · have hshade : s.power = 1 := by
        refine Classical.byContradiction fun hp => ?_
        simp only [res] at h0
        split at h0
        · exact absurd h0 (by decide)
        · split at h0
          · exact absurd h0 (by decide)
          · rw [if_pos (.inr (.inr ⟨trivial, hp⟩))] at h0
            exact absurd h0 (by decide)
      exact hexit.trans (congrArg _ ((powerRequest_accepted hstart hztarget hzdrain hzkey ((hres 0).trans h0)).trans
        ((if_pos hshade).trans (congrArg _ (if_pos rfl)))))
  · exact beginEntry_shows n u hn

end Sys2Proof
end

section
/-! PROOFS. Leases released by force (spec/07 R186-R188, R196). -/
namespace Sys2Proof.Machine

/-- Writing fields moves nothing but the registers. -/
theorem State.puts_regs (l : List (Field × Nat)) (s : State) : s.puts l = { s with regs := (s.puts l).regs } := by
  induction l generalizing s with
  | nil => rfl
  | cons x l ih => exact ih (s.put x.1 x.2)

end Sys2Proof.Machine

namespace Sys2Proof
open Sys2Proof.Machine

/-- Settles O27: each event acts exactly where its condition holds, and a freed lease shows no holder. -/
theorem forcedReleases : Obligations.ForcedReleases := by
  unfold Obligations.ForcedReleases
  intro s
  refine ⟨fun hforced => congrArg _ (if_pos (List.contains_iff_mem.mpr hforced)), fun l hheld hopen => congrArg _ (if_pos ⟨hheld, hopen⟩),
    fun l hheld => congrArg _ (if_neg (Classical.not_not.mpr hheld)), fun l _ => ⟨?_, ?_, State.puts_regs _ s⟩⟩
  · rw [freeLease_eq_recordLease]
    exact State.leaseHolder_recordLease s l 0x7F 0
  · rw [freeLease_eq_recordLease]
    exact State.leaseEpoch_recordLease s l 0x7F 0

end Sys2Proof
end

section
/-! PROOFS. The thresholds, the throttle and the trip (spec/06 R145-R156). -/
namespace Sys2Proof.Machine

/-- A trip outside Frost runs the trip sequence. -/
theorem trip_awake {cause : Nat} {s : State} (h : s.power ≠ 4) : trip cause s = tripSequence cause s := if_neg h

/-- Hysteresis: the state flips once enough samples have qualified, to the other value. -/
theorem softDwellExpiry_flips (b : Bool) (s : State) :
    let f := if b then F.fenceStateSoftThrottle else F.fenceStateWarn
    let run := s.fence.softRun.getD (b2n b) (0, 0)
    let n := s.samplesIn s.plan.active.limits.dwellMs
    ((s.get f ≠ 1 ∧ n ≤ run.1) ∨ (s.get f = 1 ∧ n ≤ run.2) → exec (.softDwellExpiry b) s = .next (setEvent 5
      (if b then refreshClocks (s.put f (b2n (!decide (s.get f = 1)))) else s.put f (b2n (!decide (s.get f = 1)))))) ∧
    (¬ ((s.get f ≠ 1 ∧ n ≤ run.1) ∨ (s.get f = 1 ∧ n ≤ run.2)) → exec (.softDwellExpiry b) s = .next s) := by
  intro f run n
  have hcond : ((!decide (s.get f = 1) && n ≤ run.1) || (decide (s.get f = 1) && n ≤ run.2)) = true ↔
      (s.get f ≠ 1 ∧ n ≤ run.1) ∨ (s.get f = 1 ∧ n ≤ run.2) := by
    simp only [Bool.or_eq_true, Bool.and_eq_true, Bool.not_eq_true', decide_eq_true_eq, decide_eq_false_iff_not]
  exact ⟨fun h => congrArg _ (if_pos (hcond.mpr h)), fun h => congrArg _ (if_neg (mt hcond.mp h))⟩

end Sys2Proof.Machine

namespace Sys2Proof
open Sys2Proof.Machine

/-- Settles O20: each event acts once its samples are counted, and a trip runs its sequence outside Frost alone. -/
theorem thermalEvents : Obligations.ThermalEvents := by
  unfold Obligations.ThermalEvents
  intro s
  refine ⟨fun b => ?_, fun hrun => congrArg _ (if_neg (by omega)), fun hset hrun => ?_, fun hrun hstart hpower => ?_,
    fun hrun hstart hfrost => ?_, fun hpower => congrArg _ (trip_awake hpower), fun hpower => congrArg _ (if_neg hpower),
    fun hhold hfrost hrun => ?_⟩
  · intro f run n
    obtain ⟨hflip, hstay⟩ := softDwellExpiry_flips b s
    refine ⟨fun hoff hn => ?_, fun hon hn => ?_, fun hoff hn => hstay ?_⟩
    · have hnew : b2n (!decide (s.get f = 1)) = 1 := by rw [hoff]; rfl
      exact (hflip (.inl ⟨by rw [hoff]; decide, hn⟩)).trans (by rw [hnew])
    · have hnew : b2n (!decide (s.get f = 1)) = 0 := by rw [hon]; rfl
      exact (hflip (.inr ⟨hon, hn⟩)).trans (by rw [hnew])
    · rintro (⟨-, h⟩ | ⟨h, -⟩)
      · exact absurd hn (Nat.not_lt.mpr h)
      · exact absurd (hoff.symm.trans h) (by decide)
  · refine ⟨_, congrArg _ (if_neg (by omega)), State.get_put_same _ _ _ rfl, ?_, rfl⟩
    exact congrArg (· == 0) (State.get_put_apart _ _ _ _ rfl rfl)
  · exact congrArg _ ((if_neg (by simp [hstart]; omega)).trans (trip_awake hpower))
  · refine ⟨_, congrArg Host.Outcome.next ((if_neg (by simp [hstart]; omega)).trans (if_pos hfrost)), State.get_put_same _ _ _ rfl, rfl, rfl, ?_⟩
    exact (State.get_put_apart _ _ _ _ rfl rfl).trans hfrost
  · intro u
    refine (congrArg _ (if_neg (by simp [hhold, hfrost]; omega))).trans ?_
    simp only [List.isEmpty_iff]
    rfl

end Sys2Proof
end

section
/-! PROOFS. Wake sources (spec/05 R136-R139, R155). -/
namespace Sys2Proof.Machine

/-- With no start running and no entry in progress: what a wake event does in each state of the ladder. -/
theorem wakeEvent_idle {s : State} (hstart : s.boot.starting = false) (hphase : s.get F.pwrStatusPhase = 0) (b : Nat) :
    wakeEvent b s = if s.wakeEnabled b = false then s else if s.power = 0 then noteShadeCause b s
      else if wakeMarked b s.power = false then s else if s.power = 1 then shadeExit [b] s
      else if s.fence.tripHold then
        if s.pwr.latched.contains b then s else { s with pwr := { s.pwr with latched := s.pwr.latched ++ [b] } }
      else wakeStart (s.power + 1) [b] s := by
  simp only [wakeEvent, hstart, hphase, Bool.not_eq_true', Bool.false_eq_true, if_false, Nat.zero_ne_one, or_self,
    show ¬ (0 : Nat) = 2 by decide, show ¬ (0 : Nat) = 3 by decide]

/-- A sum by folding from the left is the sum of the lengths. -/
theorem foldl_add_length (l : List (Nat × List Byte)) (k : Nat) :
    l.foldl (fun n f => n + f.2.length) k = k + (l.map (fun f => f.2.length)).sum := by
  induction l generalizing k with
  | nil => rfl
  | cons f l ih => rw [List.foldl_cons, ih, List.map_cons, List.sum_cons, Nat.add_assoc]

end Sys2Proof.Machine

namespace Sys2Proof
open Sys2Proof.Machine

/-- Settles O18: an enabled source that the state marks leaves Shade or starts the device; what arrives in Shade is
held and is itself such a source. -/
theorem wakeSources : Obligations.WakeSources := by
  unfold Obligations.WakeSources
  intro s hstart hphase
  have hidle (b : Nat) := wakeEvent_idle hstart hphase b
  refine ⟨fun b henabled hmarked hpower => ⟨fun hshade => ?_, fun hdeep hhold => ?_⟩, fun b hquiet => ?_, rfl, rfl,
    fun htimer hpower => congrArg _ (if_neg (not_or.mpr ⟨htimer, hpower⟩)), fun halarm => congrArg _ (if_neg halarm),
    fun p fr hshade hport => ?_, fun f cq r v hshade hlink => ?_,
    fun x rest hawake hheld hpath => ?_⟩
  · rw [hidle, if_neg (by simp [henabled]), if_neg hpower, if_neg (by simp [hmarked]), if_pos hshade]
  · rw [hidle, if_neg (by simp [henabled]), if_neg hpower, if_neg (by simp [hmarked]), if_neg (by omega), if_neg (by simp [hhold])]
  · rw [hidle]
    by_cases henabled : s.wakeEnabled b = false
    · exact if_pos henabled
    rw [if_neg henabled]
    by_cases hawake : s.power = 0
    · have hlate : s.pwr.wakeAt + 10 < s.timeUs := by simpa [henabled, hawake] using hquiet
      exact (if_pos hawake).trans (if_neg (by omega))
    · have hunmarked : wakeMarked b s.power = false := by simpa [henabled, hawake] using hquiet
      exact (if_neg hawake).trans (if_pos hunmarked)
  · intro held
    have hheld : (s.pwr.frames.filter (fun f => f.1 = p.val)).foldl (fun n f => n + f.2.length) 0 = held := by
      rw [foldl_add_length, Nat.zero_add]
    have hrun : exec (.shadeFrameArrival p fr) s = .next (if held + fr.length ≤ 32768 then
        wakeEvent 6 { s with pwr := { s.pwr with frames := s.pwr.frames ++ [(p.val, fr)] } }
        else wakeEvent 6 (s.bump32 R.pwrShadeDrop 1)) := by
      rw [← hheld]
      exact congrArg Host.Outcome.next (if_neg (by simp [hshade, hport]))
    exact ⟨fun h => hrun.trans (congrArg _ (if_pos h)), fun h => hrun.trans (congrArg _ (if_neg (by omega)))⟩
  · have hcond : ¬ (s.power ≠ 1 ∨ (!s.host.linkUp) = true) := by simp [hshade, hlink]
    exact congrArg Host.Outcome.next ((if_neg hcond).trans (if_pos hshade))
  · intro t
    have hany : (60 :: s.tlpPath x).any (fun n => !s.isOpen n && !s.isShut n) = false := by
      refine List.any_eq_false.mpr fun n hn => ?_
      obtain h | h := hpath n hn <;> simp [h]
    show Host.Outcome.next _ = _
    simp only [hheld, hany, hawake, Nat.zero_ne_one, Bool.false_eq_true, or_self, if_false, Bool.not_eq_true']
    rfl

end Sys2Proof
end

section
/-! PROOFS. Settling for an entry, its timeouts and the end of the sequence (spec/05 R131-R135). -/
namespace Sys2Proof.Machine

/-- The four WAIT bits and mode fields share no bit. -/
theorem waitFields_puts (p : Fin 4) (s : State) (b m : Nat) :
    (s.puts [((waitFields p).1, b), ((waitFields p).2, m)]).get (waitFields p).1 = b % 2 ^ (waitFields p).1.width ∧
    (s.puts [((waitFields p).1, b), ((waitFields p).2, m)]).get (waitFields p).2 = m % 2 ^ (waitFields p).2.width := by
  have hfits : ∀ p : Fin 4, fits (waitFields p).1 = true ∧ fits (waitFields p).2 = true ∧
      apart (waitFields p).2 (waitFields p).1 = true := by decide
  obtain ⟨hwait, hmode, hapart⟩ := hfits p
  exact ⟨State.get_puts_last s [] [((waitFields p).2, m)] _ b hwait (by simp [hmode, hapart]),
    State.get_puts_last s [((waitFields p).1, b)] [] _ m hmode rfl⟩

theorem waitFields_width (p : Fin 4) : (waitFields p).1.width = 1 := by
  revert p; decide

/-- The clocks that are in force are register fields: the ladder's own state stays. -/
theorem refreshClocks_pwr (s : State) : (refreshClocks s).pwr = s.pwr := by
  have hurgent (u : State) : (refreshUrgent u).pwr = u.pwr := by
    unfold refreshUrgent
    split
    · rfl
    · refine State.each_keeps State.pwr _ (fun n t => ?_) _ _
      dsimp only
      split <;> split <;> rfl
  have hclock (n : Nat) (t : State) : (if t.hedge n = DARK then t else setClock n t).pwr = t.pwr := by
    unfold setClock
    dsimp only
    split
    · rfl
    · split <;> rfl
  exact (hurgent _).trans (State.each_keeps State.pwr _ hclock _ s)

/-- An entry that is abandoned before its sequence shows the reason; memory stays. -/
theorem abandonEntry_shows {s : State} (h : s.get F.pwrStatusPhase = 1 ∨ s.get F.pwrStatusPhase = 2) (r : Nat) :
    (abandonEntry r s).get F.pwrStatusPhase = 0 ∧ (abandonEntry r s).get F.pwrStatusResult = r % 2 ^ 3 ∧
    (abandonEntry r s).get F.pwrStatusDone = 1 ∧ (abandonEntry r s).mem = s.mem := by
  obtain ⟨x, hx⟩ : ∃ x, abandonEntry r s = setEvent 3 { (s.wr R.pwrMode 0).puts
      [(F.pwrStatusPhase, 0), (F.pwrStatusResult, r), (F.pwrStatusDone, 1)] with pwr := x } := by
    refine ⟨{ s.pwr with cut := false, drained := false, after := none }, (if_pos h).trans ?_⟩
    rw [State.pwr_puts]
    rfl
  rw [hx]
  have hget (f : Field) (hf : f.off ≠ R.hostqEventCause) := setEvent_get 3 { (s.wr R.pwrMode 0).puts
      [(F.pwrStatusPhase, 0), (F.pwrStatusResult, r), (F.pwrStatusDone, 1)] with pwr := x } f hf
  refine ⟨(hget F.pwrStatusPhase (by decide)).trans ?_, (hget F.pwrStatusResult (by decide)).trans ?_,
    (hget F.pwrStatusDone (by decide)).trans ?_, ?_⟩
  · exact State.get_puts_last (s.wr R.pwrMode 0) [] [(F.pwrStatusResult, r), (F.pwrStatusDone, 1)] F.pwrStatusPhase 0 rfl rfl
  · exact State.get_puts_last (s.wr R.pwrMode 0) [(F.pwrStatusPhase, 0)] [(F.pwrStatusDone, 1)] F.pwrStatusResult r rfl rfl
  · exact State.get_puts_last (s.wr R.pwrMode 0) [(F.pwrStatusPhase, 0), (F.pwrStatusResult, r)] [] F.pwrStatusDone 1 rfl rfl
  · rw [setEvent_mem]
    exact State.mem_puts _ _

end Sys2Proof.Machine

namespace Sys2Proof
open Sys2Proof.Machine

/-- Settles O17: a waiting processor shows WAIT and, in SETTLE, takes its part in the entry; each timeout and the end
of the sequence act in their own phase alone. -/
theorem settleEvents : Obligations.SettleEvents := by
  unfold Obligations.SettleEvents
  intro s
  refine ⟨fun p hopen hswap => ⟨?_, fun m hm hphase htarget hmay => ?_⟩, fun hphase hcut => ?_, fun hphase hwait => ?_,
    fun hphase => congrArg _ (if_pos hphase), fun hphase htarget hlatched => ?_⟩
  · intro f
    obtain ⟨hget, hmode⟩ := waitFields_puts p s 1 0
    rw [waitFields_width] at hget
    refine ⟨_, ?_, rfl, hget, hmode.trans (Nat.zero_mod _)⟩
    show Host.Outcome.next _ = _
    simp [hopen, hswap, f]
  · have hm0 : m.toNat ≠ 0 := fun h => hm (BitVec.eq_of_toNat_eq h)
    show Host.Outcome.next _ = _
    simp [hopen, hswap, hm0, hphase, ← htarget, hmay]
  · exact congrArg _ (if_pos ⟨hphase, by simp [hcut]⟩)
  · obtain ⟨hphase', hresult, hdone, hmem⟩ := abandonEntry_shows (.inl hphase) 5
    have hnot : ¬ (s.get F.pwrModeG0Wait = 1 ∧ s.get F.pwrModeG1Wait = 1 ∧ s.get F.pwrModeSkWait = 1) := by omega
    have hrun : exec .settleTimeout s = .next ((abandonEntry 5 s).wr R.pwrMode (s.rd R.pwrMode)) :=
      congrArg _ (if_pos ⟨hphase, by rw [decide_eq_false hnot]; rfl⟩)
    refine ⟨_, hrun, State.rd_wr_same _ _ _, ?_, ?_, ?_, hmem⟩
    · exact (State.get_wr_ne _ _ _ F.pwrStatusResult (by decide)).trans hresult
    · exact (State.get_wr_ne _ _ _ F.pwrStatusPhase (by decide)).trans hphase'
    · exact (State.get_wr_ne _ _ _ F.pwrStatusDone (by decide)).trans hdone
  · let u := (s.puts [(F.pwrStatusState, 1), (F.pwrStatusPhase, 0), (F.pwrStatusDone, 1)]).bump F.pwrCountShade 1
    have hlat : (refreshClocks u).pwr.latched = [] := by
      rw [refreshClocks_pwr]
      exact hlatched
    have hrun : exec .sequenceDone s = .next { refreshClocks u with pwr := { (refreshClocks u).pwr with latched := [] } } := by
      refine congrArg Host.Outcome.next ((if_neg (Classical.not_not.mpr hphase)).trans ?_)
      simp only [htarget, if_true, show ¬ 2 ≤ 1 by decide, if_false]
      exact if_pos (by rw [hlat]; rfl)
    have hget (f : Field) (hf : f.off ≠ R.pwrCount) : u.get f =
        (s.puts [(F.pwrStatusState, 1), (F.pwrStatusPhase, 0), (F.pwrStatusDone, 1)]).get f := State.get_wr_ne _ _ _ f hf
    refine ⟨_, hrun, u, rfl, (hget F.pwrStatusState (by decide)).trans ?_, (hget F.pwrStatusPhase (by decide)).trans ?_,
      (hget F.pwrStatusDone (by decide)).trans ?_, ?_, rfl⟩
    · exact State.get_puts_last s [] [(F.pwrStatusPhase, 0), (F.pwrStatusDone, 1)] F.pwrStatusState 1 rfl rfl
    · exact State.get_puts_last s [(F.pwrStatusState, 1)] [(F.pwrStatusDone, 1)] F.pwrStatusPhase 0 rfl rfl
    · exact State.get_puts_last s [(F.pwrStatusState, 1), (F.pwrStatusPhase, 0)] [] F.pwrStatusDone 1 rfl rfl
    · refine (State.get_bump_same _ _ _ rfl).trans ?_
      rw [State.get_puts_apart s _ F.pwrCountShade (by decide)]
      exact (satAdd_eq_min _ _ _).trans (Nat.min_comm _ _)

end Sys2Proof
end

section
/-! PROOFS. Watchdogs, exceptions, reloads and hot swaps (spec/07 R176-R183). -/
namespace Sys2Proof.Machine

theorem fwResult_eq (w : Writer) (key : BitVec 16) (p : Nat) (s : State) : fwResult w key.toNat p s =
    if key ≠ 0xF1A5 ∨ isPf0 w = false ∨ s.hasToken w = false ∨ s.get F.bootFwCmdStatusBusy = 1 then 1
      else if s.get F.bootStatusReady = 0 ∨ s.power ≠ 0 then 2 else if p = 0 then 3 else 0 := by
  have hkey : key.toNat ≠ 0xF1A5 ↔ key ≠ 0xF1A5 := by
    rw [ne_eq, ne_eq, ← BitVec.toNat_inj]
    rfl
  simp only [fwResult, hkey, Bool.not_eq_true', State.inBloom, beq_eq_false_iff_ne]

section
variable {w : Writer} {key p : Nat} {s : State}

theorem fwCommand_refused {r : Nat} (hr : fwResult w key p s = r) (h : r ≠ 0) (act : State → State) :
    fwCommand w key p act s = s.put F.bootFwCmdStatusResult r := by
  rw [fwCommand, hr]
  exact if_pos h

theorem fwCommand_runs (hr : fwResult w key p s = 0) (hopen : (noteOrigin 2 w s).isShut 0 = false) (act : State → State) :
    fwCommand w key p act s = act (noteOrigin 2 w s) := by
  simp only [fwCommand, hr, hopen]
  rfl

end

/-- The end of a firmware command: its result, DONE, and BUSY cleared. -/
theorem finishFw_shows (result status detail : Nat) (s : State) :
    (finishFw result status detail s).get F.bootFwCmdStatusResult = result % 2 ^ 3 ∧
    (finishFw result status detail s).get F.bootFwCmdStatusBusy = 0 ∧
    (finishFw result status detail s).get F.bootFwCmdStatusDone = 1 ∧
    (finishFw result status detail s).mem = s.mem ∧ (finishFw result status detail s).fw = s.fw := by
  let l : List (Field × Nat) := [(F.bootFwCmdStatusResult, result), (F.bootFwCmdStatusStatus, status),
    (F.bootFwCmdStatusDetail, detail), (F.bootFwCmdStatusDone, 1), (F.bootFwCmdStatusBusy, 0)]
  have hget (f : Field) (hf : f.off ≠ R.hostqEventCause) : (finishFw result status detail s).get f = (s.puts l).get f :=
    setEvent_get 1 (s.puts l) f hf
  refine ⟨(hget F.bootFwCmdStatusResult (by decide)).trans ?_, (hget F.bootFwCmdStatusBusy (by decide)).trans ?_,
    (hget F.bootFwCmdStatusDone (by decide)).trans ?_, ?_, ?_⟩
  · exact State.get_puts_last s [] [(F.bootFwCmdStatusStatus, status), (F.bootFwCmdStatusDetail, detail),
      (F.bootFwCmdStatusDone, 1), (F.bootFwCmdStatusBusy, 0)] F.bootFwCmdStatusResult result rfl rfl
  · exact State.get_puts_last s [(F.bootFwCmdStatusResult, result), (F.bootFwCmdStatusStatus, status),
      (F.bootFwCmdStatusDetail, detail), (F.bootFwCmdStatusDone, 1)] [] F.bootFwCmdStatusBusy 0 rfl rfl
  · exact State.get_puts_last s [(F.bootFwCmdStatusResult, result), (F.bootFwCmdStatusStatus, status),
      (F.bootFwCmdStatusDetail, detail)] [(F.bootFwCmdStatusBusy, 0)] F.bootFwCmdStatusDone 1 rfl rfl
  · rw [finishFw, setEvent_mem, State.mem_puts]
  · rw [finishFw, setEvent_fw, State.fw_puts]

end Sys2Proof.Machine

namespace Sys2Proof
open Sys2Proof.Machine

/-- Settles O25: each event acts for its own processor under its condition; a firmware command is refused by R181's
first failing condition, or begins. -/
theorem processorEvents : Obligations.ProcessorEvents := by
  unfold Obligations.ProcessorEvents
  intro s p
  refine ⟨fun hopen => congrArg _ (if_pos hopen), fun hopen hstart => ⟨?_, fun hpaused => ?_⟩, fun hopen hstart => ?_,
    fun hdue => ⟨fun hthird b => ?_, fun hthird => ?_, fun hthird hdigest => ?_⟩, fun hpending => congrArg _ (if_pos hpending),
    fun d => ⟨_, rfl, fuses_recordFailure _ _ _ _ _ s⟩, fun w key q hreach => ?_, fun hswap => ?_, rfl⟩
  · exact congrArg Host.Outcome.next ((if_pos hopen).trans (if_pos hstart))
  · exact congrArg Host.Outcome.next ((if_pos (by simp [hopen, hpaused])).trans (if_pos hstart))
  · intro after
    have hnot : ¬ s.boot.starting = true := by simp [hstart]
    refine ⟨congrArg Host.Outcome.next ((if_pos hopen).trans (if_neg hnot)), fun hpaused => ?_⟩
    exact congrArg Host.Outcome.next ((if_pos (by simp [hopen, hpaused])).trans (if_neg hnot))
  · exact congrArg Host.Outcome.next ((if_neg (by simp [hdue])).trans (if_pos hthird))
  · exact congrArg Host.Outcome.next ((if_neg (by simp [hdue])).trans ((if_neg (by simp [hthird])).trans (if_pos (.inl rfl))))
  · exact congrArg Host.Outcome.next ((if_neg (by simp [hdue])).trans ((if_neg (by simp [hthird])).trans
      (if_neg (by simp [hdigest]))))
  · intro r
    have hq : q.toNat = 0 ↔ q = 0 := ⟨fun h => BitVec.eq_of_toNat_eq h, fun h => h ▸ rfl⟩
    have hr : fwResult w key.toNat q.toNat s = r := by
      simp only [fwResult_eq, hq, r]
    have hserve : ∀ v (act : State → State), writeAccess w R.bootFwCmd v (fwCommand w key.toNat q.toNat act) s =
        fwCommand w key.toNat q.toNat act s := fun v act => writeAccess_serve hreach _ _
    refine ⟨fun hne => ⟨?_, ?_⟩, fun h0 hopen => ⟨?_, ?_⟩⟩
    · exact congrArg Host.Outcome.next ((hserve _ _).trans (fwCommand_refused hr hne _))
    · exact congrArg Host.Outcome.next ((hserve _ _).trans (fwCommand_refused hr hne _))
    · exact congrArg Host.Outcome.next ((hserve _ _).trans (fwCommand_runs (hr.trans h0) hopen _))
    · exact congrArg Host.Outcome.next ((hserve _ _).trans (fwCommand_runs (hr.trans h0) hopen _))
  · obtain ⟨hresult, hbusy, hdone, hmem, hfw⟩ := finishFw_shows 5 0 0 { s with fw := { s.fw with hotSwap := none } }
    exact ⟨_, congrArg Host.Outcome.next (if_pos hswap), congrArg (fun f => f.hotSwap) hfw, hresult, hbusy, hdone, hmem⟩

end Sys2Proof
end

section
/-! PROOFS. PLAN_CMD (spec/02 R43-R50). -/
namespace Sys2Proof.Machine

/-- Check 1 of Table 2.5, spelled out. -/
theorem planGate_eq (w : Writer) (key : BitVec 16) (s : State) : planGate w key.toNat s =
    if isPf0 w = false ∨ s.hasToken w = false then 0x01 else if key ≠ 0x9A17 then 0x04
      else if s.get F.planStatusPhase ≠ 0 then 0x02 else if s.power ≠ 0 ∨ s.get F.pwrStatusPhase ≠ 0 then 0x03 else 0 := by
  have hkey : key.toNat ≠ 0x9A17 ↔ key ≠ 0x9A17 := by
    rw [ne_eq, ne_eq, ← BitVec.toNat_inj]
    rfl
  simp only [planGate, hkey, Bool.not_eq_true', State.inBloom, beq_eq_false_iff_ne]

theorem planGate_lt (w : Writer) (key : Nat) (s : State) : planGate w key s < 2 ^ 8 := by
  unfold planGate
  repeat' split
  all_goals decide

section
variable {w : Writer} {key : Nat} {s : State}

theorem planCommand_refused {d : Nat} (hd : planGate w key s = d) (h : d ≠ 0) (act : State → State) :
    planCommand w key act s = refusePlan 0x41 d s := by
  rw [planCommand, hd]
  exact if_pos h

theorem planCommand_runs (hd : planGate w key s = 0) (hopen : (noteOrigin 0 w s).isShut 0 = false) (act : State → State) :
    planCommand w key act s = act (noteOrigin 0 w s) := by
  simp only [planCommand, hd, hopen]
  rfl

end

/-- A refusal shows its status and detail, and leaves the phase, the plan unit, the fuses and memory. -/
theorem refusePlan_shows (status detail : Nat) (s : State) :
    (refusePlan status detail s).get F.planStatusDetail = detail % 2 ^ 8 ∧
    (refusePlan status detail s).get F.planStatusDone = 1 ∧
    (refusePlan status detail s).get F.planStatusPhase = s.get F.planStatusPhase ∧
    (refusePlan status detail s).plan = s.plan ∧ (refusePlan status detail s).mem = s.mem := by
  have hget (f : Field) (hf : f.off ≠ R.hostqEventCause) := setEvent_get 0
    (s.puts [(F.planStatusResult, status), (F.planStatusDetail, detail), (F.planStatusDone, 1)]) f hf
  refine ⟨(hget F.planStatusDetail (by decide)).trans ?_, (hget F.planStatusDone (by decide)).trans ?_,
    (hget F.planStatusPhase (by decide)).trans ?_, ?_, ?_⟩
  · exact State.get_puts_last s [(F.planStatusResult, status)] [(F.planStatusDone, 1)] F.planStatusDetail detail rfl rfl
  · exact State.get_puts_last s [(F.planStatusResult, status), (F.planStatusDetail, detail)] [] F.planStatusDone 1 rfl rfl
  · refine State.get_puts_apart s _ F.planStatusPhase fun f hf => ?_
    simp only [List.mem_cons, List.not_mem_nil, or_false] at hf
    rcases hf with rfl | rfl | rfl <;> exact ⟨rfl, rfl⟩
  · rw [refusePlan, setEvent_plan, State.plan_puts]
  · rw [refusePlan, setEvent_mem, State.mem_puts]

/-- A LOAD or GRAFT with a good source enters COPY under lease 3 (R45). -/
theorem startCopy_copies (op : Nat) (w : Writer) (drain : Nat) {s : State}
    (hlow : 452 ≤ (s.rd R.planSrcLen).toNat) (hhigh : (s.rd R.planSrcLen).toNat ≤ 2 ^ 20)
    (hlen : (s.rd R.planSrcLen).toNat % 4 = 0) (hoff : s.rd64 R.planSrcAddr % 4 = 0)
    (hwindow : s.rd64 R.planSrcAddr + (s.rd R.planSrcLen).toNat ≤ (if w = .port then 2 ^ 20 else s.host.bar4Size)) :
    (startCopy op w drain s).get F.planStatusPhase = 1 ∧ (startCopy op w drain s).leaseHolder 3 = 0 := by
  obtain ⟨u, e, hu, hphase⟩ : ∃ (u : State) (e : Nat), startCopy op w drain s = u.recordLease 3 0 e ∧
      u.get F.planStatusPhase = 1 := by
    have hnot := Nat.not_lt.mpr hwindow
    simp only [startCopy]
    rw [if_neg (by omega)]
    exact ⟨_, _, rfl, State.get_put_same _ _ _ rfl⟩
  rw [hu]
  refine ⟨(State.get_puts_apart _ _ F.planStatusPhase fun f hf => ?_).trans hphase, State.leaseHolder_recordLease _ _ _ _⟩
  simp only [List.mem_cons, List.not_mem_nil, or_false] at hf
  rcases hf with rfl | rfl | rfl <;> exact ⟨rfl, rfl⟩

end Sys2Proof.Machine

namespace Sys2Proof
open Sys2Proof.Machine

/-- Settles O9: PLAN_CMD is refused by check 1's first failing condition, or its operation begins. -/
theorem planCommands : Obligations.PlanCommands := by
  unfold Obligations.PlanCommands
  intro s w key drain slot hreach d s0
  have hd : planGate w key.toNat s = d := planGate_eq w key s
  have hserve : ∀ v (act : State → State), writeAccess w R.planCmd v (planCommand w key.toNat act) s =
      planCommand w key.toNat act s := fun v act => writeAccess_serve hreach _ _
  refine ⟨fun hne c hc => ?_, fun h0 hopen => ?_, fun hpf htoken hkey => ?_⟩
  · have hrefused : ∀ v (act : State → State), (Host.Outcome.next (writeAccess w R.planCmd v (planCommand w key.toNat act) s) : Out) =
        .next (refusePlan 0x41 d s) := fun v act => by rw [hserve, planCommand_refused hd hne]
    have hrun : exec c s = .next (refusePlan 0x41 d s) := by
      rcases hc with rfl | rfl | rfl | rfl | rfl | rfl <;> exact hrefused _ _
    obtain ⟨hdetail, hdone, hphase, hplan, hmem⟩ := refusePlan_shows 0x41 d s
    have hlt : d < 2 ^ 8 := hd ▸ planGate_lt w key.toNat s
    exact ⟨_, hrun, refusePlan_result _ _ _, hdetail.trans (Nat.mod_eq_of_lt hlt), hdone, hphase, hplan, refusePlan_boot _ _ _, hmem⟩
  · have hruns : ∀ v (act : State → State), (Host.Outcome.next (writeAccess w R.planCmd v (planCommand w key.toNat act) s) : Out) =
        .next (act s0) := fun v act => by rw [hserve, planCommand_runs (hd.trans h0) hopen]
    refine ⟨hruns _ _, hruns _ _, hruns _ _, hruns _ _, hruns _ _, hruns _ _, fun n hn hlow hhigh hlen hoff hwindow => ?_⟩
    subst hn
    obtain ⟨hload, hloadLease⟩ := startCopy_copies 1 w drain.toNat hlow hhigh hlen hoff hwindow
    obtain ⟨hgraft, hgraftLease⟩ := startCopy_copies 2 w drain.toNat hlow hhigh hlen hoff hwindow
    exact ⟨hload, hloadLease, hgraft, hgraftLease⟩
  · have habort : exec (.abort w key) s = .next (abortCommand w key.toNat s) :=
      congrArg Host.Outcome.next (writeAccess_serve hreach _ _)
    rw [habort]
    simp only [abortCommand, hpf, htoken, hkey, Bool.not_true, Bool.false_eq_true, or_self, if_false]
    rfl

end Sys2Proof
end

section
/-! PROOFS. Fault batches, fault timers, invalidation and the fault ring (spec/11 R288-R299). -/
namespace Sys2Proof.Machine

/-! Batches -/

/-- A field shares no bit with one that begins above it. -/
theorem apart_of_above {f g : Field} (h : f.lo + f.width ≤ g.lo) : apart f g = true := by
  rw [apart, decide_eq_true h, Bool.or_true, Bool.true_or]

/-- Fields of FR_STATUS that the ring's refresh does not rewrite. -/
theorem get_refreshRing_status (fn : Nat) (s : State) {g : Field} (hfree : apart (F.mmuFrStatusFree fn) g = true)
    (hwait : apart (F.mmuFrStatusRingWait fn) g = true) : (refreshRing fn s).get g = s.get g := by
  refine State.get_puts_apart s _ g fun f hf => ?_
  simp only [List.mem_cons, List.not_mem_nil, or_false] at hf
  rcases hf with rfl | rfl
  · exact ⟨rfl, hfree⟩
  · exact ⟨rfl, hwait⟩

theorem refreshRing_last (fn : Nat) (s : State) :
    (refreshRing fn s).get (F.mmuFrStatusLastBatch fn) = s.get (F.mmuFrStatusLastBatch fn) :=
  get_refreshRing_status fn s (apart_of_above (by decide : 0 + 12 ≤ 16)) (apart_of_above (by decide : 13 + 1 ≤ 16))

theorem sendMsi_mem_dram (f v : Nat) (s : State) : (sendMsi f v s).mem = s.mem := by
  obtain ⟨h, e⟩ := sendMsi_host f v s
  rw [e]

theorem writeRecords_dram (fn n i : Nat) (rs : List FaultRec) (s : State) :
    (writeRecords fn n i rs s).mem.dram = s.mem.dram := by
  induction rs generalizing i s with
  | nil => rfl
  | cons r rs ih =>
    obtain ⟨hdram, -, -⟩ := hostWrite_mem fn (s.rd64 (R.mmuFrBase fn) + 32 * s.mmu.writePos.getD fn 0)
      (faultBytes r i n (s.get (F.mmuFrStatusPhase fn))) s
    rw [writeRecords, ih]
    split <;> exact hdram

/-- A closed batch that fits is written: LAST_BATCH names it, and it holds its slots (R291). -/
theorem writeBatch_writes {s : State} {fn : Nat} {b : Batch}
    (hfind : s.mmu.batches.find? (fun x => x.fn = fn && x.phase == .closed) = some b) (henabled : s.get (F.mmuFrCfgEnable fn) = 1)
    (hfits : b.records.length ≤ s.freeRun fn (s.ringSlots fn) (s.mmu.writePos.getD fn 0)) :
    (writeBatch fn s).get (F.mmuFrStatusLastBatch fn) = b.number % 2 ^ 16 ∧
    { b with phase := .written, slot := s.mmu.writePos.getD fn 0, holds := true } ∈ (writeBatch fn s).mmu.batches ∧
    (writeBatch fn s).mem.dram = s.mem.dram := by
  let b' : Batch := { b with phase := .written, slot := s.mmu.writePos.getD fn 0, holds := true }
  let u := writeRecords fn b.number 0 b.records (putBatch b' s)
  have hrun : writeBatch fn s = refreshRing fn (sendMsi fn 1 (u.put (F.mmuFrStatusLastBatch fn) b.number)) := by
    rw [writeBatch, hfind]
    exact if_pos ⟨henabled, hfits⟩
  rw [hrun]
  refine ⟨?_, ?_, ?_⟩
  · rw [refreshRing_last, sendMsi_get]
    exact State.get_put_same _ _ _ rfl
  · rw [refreshRing_mmu, sendMsi_mmu]
    show b' ∈ u.mmu.batches
    rw [writeRecords_batches]
    exact mem_putBatch.mpr ⟨b, List.mem_of_find?_eq_some hfind, if_pos ⟨rfl, rfl⟩⟩
  · rw [refreshRing, State.mem_puts, sendMsi_mem_dram]
    exact writeRecords_dram fn b.number 0 b.records (putBatch b' s)

/-! Invalidation -/

/-- R298's first condition that refuses an MMU_INVAL write of PF0. -/
def State.invalResult (s : State) (key : Nat) (range : Bool) : Nat :=
  if key ≠ 0x3A11 then 1 else if s.get F.mmuInvalStatusBusy = 1 then 2
    else if range = true ∧ (s.get F.mmuInvalPagesPages = 0 ∨ 2 ^ 48 ≤ s.rd64 R.mmuInvalVa) then 3 else 0

/-- What an operation's scope is. -/
def State.invalScope (s : State) (op allot : Nat) : Option Nat × Option (Nat × Nat) :=
  if op = 1 then (none, none) else if op = 2 then (some allot, none)
    else (some allot, some (s.rd64 R.mmuInvalVa / 4096 * 4096, s.get F.mmuInvalPagesPages))

/-- The state in which an invalidation is in progress. -/
def State.invalidating (s : State) (scope : Option Nat × Option (Nat × Nat)) : State :=
  let u := invalidate scope ((s.put F.mmuInvalStatusResult 0).put F.mmuInvalStatusBusy 1)
  { u with mmu := { u.mmu with inval := some scope } }

theorem writeInval_eq (key op allot : Nat) (s : State) (hop : op ≠ 0) : writeInval true key op allot s =
    if s.invalResult key (op == 3) ≠ 0 then s.put F.mmuInvalStatusResult (s.invalResult key (op == 3))
    else s.invalidating (s.invalScope op allot) := by
  unfold writeInval State.invalResult
  simp only [Bool.not_true, Bool.false_eq_true, false_or, beq_iff_eq, hop, if_false]
  by_cases hkey : key ≠ 0x3A11
  · simp [hkey]
  by_cases hbusy : s.get F.mmuInvalStatusBusy = 1
  · simp [hkey, hbusy]
  by_cases hrange : op = 3 ∧ (s.get F.mmuInvalPagesPages = 0 ∨ 2 ^ 48 ≤ s.rd64 R.mmuInvalVa)
  · simp only [hkey, hbusy, hrange, if_true, if_false]
    rfl
  · simp only [hkey, hbusy, hrange, if_false, ne_eq, not_true_eq_false]
    rfl

/-- What INVALIDATION_DONE leaves of an invalidation in progress: nothing of the scope, and DONE. -/
theorem invalidating_shows (s : State) (scope : Option Nat × Option (Nat × Nat)) :
    let t := s.invalidating scope
    t.get F.mmuInvalStatusBusy = 1 ∧ t.get F.mmuInvalStatusResult = 0 ∧ t.mem = s.mem ∧
    (∀ x, x ∈ t.mmu.tlb ↔ x ∈ s.mmu.tlb ∧ ¬ x.matchesScope scope = true) ∧ ∃ u, exec .invalidationDone t = .next u ∧
      u.get F.mmuInvalStatusBusy = 0 ∧ u.get F.mmuInvalStatusDone = 1 ∧ u.mmu.tlb = t.mmu.tlb ∧ u.mmu.inval = none := by
  intro t
  have htlb : t.mmu.tlb = s.mmu.tlb.filter (fun x => !x.matchesScope scope) := rfl
  refine ⟨State.get_put_same _ _ _ rfl, ?_, rfl, fun x => ?_, ?_⟩
  · exact (State.get_put_apart (s.put F.mmuInvalStatusResult 0) F.mmuInvalStatusBusy F.mmuInvalStatusResult 1 rfl rfl).trans
      (State.get_put_same _ _ _ rfl)
  · rw [htlb, List.mem_filter, Bool.not_eq_true', Bool.not_eq_true]
  · let u : State := { invalidate scope t with mmu := { (invalidate scope t).mmu with inval := none } }
    refine ⟨u.puts [(F.mmuInvalStatusBusy, 0), (F.mmuInvalStatusDone, 1)], rfl, ?_, ?_, ?_, ?_⟩
    · exact State.get_puts_last u [] [(F.mmuInvalStatusDone, 1)] F.mmuInvalStatusBusy 0 rfl rfl
    · exact State.get_puts_last u [(F.mmuInvalStatusBusy, 0)] [] F.mmuInvalStatusDone 1 rfl rfl
    · rw [State.mmu_puts]
      show t.mmu.tlb.filter (fun x => !x.matchesScope scope) = t.mmu.tlb
      rw [htlb, List.filter_filter]
      simp only [Bool.and_self]
    · rw [State.mmu_puts]

/-! The fault ring -/

/-- R299's conditions for a word whose ENABLE is being set. -/
theorem frCfgOk_enabling (w : Word) (base : Nat) : frCfgOk (setBits w 31 1 1) base = true ↔
    6 ≤ getBits w 0 4 ∧ getBits w 0 4 ≤ 12 ∧ (if getBits w 8 8 = 0 then 256 else getBits w 8 8) ≤ 2 ^ getBits w 0 4 ∧
      1 ≤ getBits w 16 10 ∧ getBits w 16 10 ≤ 1000 ∧ base % 4096 = 0 := by
  have hkeep (lo n : Nat) (h : lo + n ≤ 31) : getBits (setBits w 31 1 1) lo n = getBits w lo n :=
    getBits_setBits_below _ _ _ _ _ _ (by decide) h
  rw [frCfgOk, hkeep 0 4 (by decide), hkeep 8 8 (by decide), hkeep 16 10 (by decide)]
  simp only [Bool.and_eq_true, decide_eq_true_eq, beq_iff_eq, and_assoc]

/-- Setting ENABLE keeps the reserved bits of FR_CFG clear. -/
theorem frCfg_reserved (f : Fin 8) {w : Word} (h : w &&& reservedBits (R.mmuFrCfg f) = 0) :
    setBits w 31 1 1 &&& reservedBits (R.mmuFrCfg f) = 0 := by
  have hmask : ∀ f : Fin 8, reservedBits (R.mmuFrCfg f) = 0x7C0000F0 := by decide
  rw [hmask] at h ⊢
  have hw : (w.toNat &&& 0x7C0000F0) = 0 := congrArg BitVec.toNat h
  have hlow (x : Nat) : x &&& 0x7C0000F0 = x % 2 ^ 31 &&& 0x7C0000F0 := by
    have hlt : x &&& 0x7C0000F0 < 2 ^ 31 := Nat.and_lt_two_pow _ (by decide)
    rw [← Nat.mod_eq_of_lt hlt, Nat.and_mod_two_pow]
  refine BitVec.eq_of_toNat_eq ?_
  show (setBits w 31 1 1).toNat &&& 0x7C0000F0 = 0
  rw [hlow] at hw ⊢
  rw [setBits_toNat _ _ _ _ (by decide)]
  rwa [Nat.add_mul_mod_self_left, Nat.mod_mod]

/-- A field of the ring's word does not change when a write is recorded. -/
theorem noteReserved_frCfg (f : Nat) (v : Word) (s : State) {g : Field} (hg : g.off = R.mmuFrCfg f) :
    (noteReserved (R.mmuFrCfg f) v s).get g = s.get g := by
  unfold noteReserved
  split
  · rfl
  · refine setGlobal_get _ _ _ ?_ ?_
    · rw [hg]
      simp only [R.mmuFrCfg, R.hostqEventCause]
      omega
    · rw [hg]
      simp only [R.mmuFrCfg, F.globalStatusBadAccess, R.globalStatus]
      omega

@[simp] theorem setEvent_mmu (b : Nat) (s : State) : (setEvent b s).mmu = s.mmu := by
  obtain ⟨x, e | e⟩ := setEvent_effect b s <;> rw [e] <;> rfl

theorem noteReserved_mmu_mem (off : Nat) (v : Word) (s : State) :
    (noteReserved off v s).mmu = s.mmu ∧ (noteReserved off v s).mem = s.mem := by
  unfold noteReserved badAccess setGlobal
  split
  · exact ⟨rfl, rfl⟩
  · split
    · exact ⟨rfl, rfl⟩
    · exact ⟨setEvent_mmu _ _, setEvent_mem _ _⟩

/-- What a write of ENABLE to a disabled ring's word leaves of its other fields (R299). -/
def frCfgFields (f : Nat) (v : Word) (s : State) : State :=
  (noteReserved (R.mmuFrCfg f) v s).puts [(F.mmuFrCfgSizeLog2 f, getBits v 0 4), (F.mmuFrCfgBatchMax f, getBits v 8 8),
    (F.mmuFrCfgBatchTimeUs f, getBits v 16 10)]

theorem frCfgFields_enable (f : Nat) (v : Word) (s : State) :
    (frCfgFields f v s).get (F.mmuFrCfgEnable f) = s.get (F.mmuFrCfgEnable f) := by
  refine (State.get_puts_apart _ _ (F.mmuFrCfgEnable f) fun g hg => ?_).trans (noteReserved_frCfg f v s rfl)
  simp only [List.mem_cons, List.not_mem_nil, or_false] at hg
  rcases hg with rfl | rfl | rfl
  · exact ⟨rfl, apart_of_above (by decide : 0 + 4 ≤ 31)⟩
  · exact ⟨rfl, apart_of_above (by decide : 8 + 8 ≤ 31)⟩
  · exact ⟨rfl, apart_of_above (by decide : 16 + 10 ≤ 31)⟩

theorem frCfgFields_keeps (f : Nat) (v : Word) (s : State) :
    (frCfgFields f v s).mmu = s.mmu ∧ (frCfgFields f v s).mem = s.mem := by
  obtain ⟨hmmu, hmem⟩ := noteReserved_mmu_mem (R.mmuFrCfg f) v s
  exact ⟨(State.mmu_puts _ _).trans hmmu, (State.mem_puts _ _).trans hmem⟩

theorem writeFrCfg_eq {f : Nat} {v : Word} {s : State} (hoff : s.get (F.mmuFrCfgEnable f) = 0) (hv : getBits v 31 1 = 1) :
    writeFrCfg f v s = if frCfgOk v (s.rd64 (R.mmuFrBase f)) then startRing f (frCfgFields f v s)
      else hostError 5 (frCfgFields f v s) := by
  simp only [writeFrCfg, hoff, hv, Nat.zero_ne_one, Nat.one_ne_zero, if_false]
  rfl

theorem hostError_shows (f : Nat) (s : State) : ((hostError 5 s).rd R.hostqError).toNat = 5 ∧ (hostError 5 s).mmu = s.mmu ∧
    (hostError 5 s).mem = s.mem ∧ (hostError 5 s).get (F.mmuFrCfgEnable f) = s.get (F.mmuFrCfgEnable f) := by
  refine ⟨congrArg BitVec.toNat (State.rd_wr_same _ _ _), rfl, rfl, State.get_wr_ne _ _ _ (F.mmuFrCfgEnable f) ?_⟩
  simp only [F.mmuFrCfgEnable, R.mmuFrCfg, R.hostqError]
  omega

/-- With no batch waiting, the ring starts at slot 0 with PHASE 1. -/
theorem startRing_shows (f : Nat) {s : State} (hbatches : s.mmu.batches = []) (hf : f < s.mmu.writePos.length) :
    (startRing f s).get (F.mmuFrCfgEnable f) = 1 ∧ (startRing f s).get (F.mmuFrStatusPhase f) = 1 ∧
    (startRing f s).mmu.writePos.getD f 1 = 0 ∧ (startRing f s).mem = s.mem := by
  let u : State := { s with mmu := { s.mmu with writePos := setAt f 0 s.mmu.writePos, batches := [] } }
  have hrun : startRing f s = refreshRing f (u.puts [(F.mmuFrCfgEnable f, 1), (F.mmuFrStatusPhase f, 1)]) := by
    simp only [startRing, hbatches, List.map_nil]
    rw [writeBatch, State.mmu_puts]
    rfl
  have hoff : R.mmuFrStatus f ≠ R.mmuFrCfg f := by
    simp only [R.mmuFrStatus, R.mmuFrCfg]
    omega
  rw [hrun]
  refine ⟨?_, ?_, ?_, ?_⟩
  · rw [get_refreshRing_status f _ (g := F.mmuFrCfgEnable f) (apart_of_off hoff) (apart_of_off hoff)]
    exact State.get_puts_last u [] [(F.mmuFrStatusPhase f, 1)] (F.mmuFrCfgEnable f) 1 rfl
      (by simp only [List.all_cons, List.all_nil, apart_of_off (f := F.mmuFrStatusPhase f) (g := F.mmuFrCfgEnable f) hoff]; rfl)
  · rw [get_refreshRing_status f _ (g := F.mmuFrStatusPhase f) (apart_of_above (by decide : 0 + 12 ≤ 12)) (apart_of_below (by decide : 12 + 1 ≤ 13))]
    exact State.get_puts_last u [(F.mmuFrCfgEnable f, 1)] [] (F.mmuFrStatusPhase f) 1 rfl rfl
  · rw [refreshRing_mmu, State.mmu_puts]
    exact (getD_setAt _ _ _ _ _ hf).trans (if_pos rfl)
  · rw [refreshRing, State.mem_puts, State.mem_puts]

end Sys2Proof.Machine

namespace Sys2Proof
open Sys2Proof.Machine

/-- Settles O40: a batch, a fault timer, an invalidation and a fault ring each act under their own rule's condition. -/
theorem faultsAndInvalidation : Obligations.FaultsAndInvalidation := by
  unfold Obligations.FaultsAndInvalidation
  intro s
  refine ⟨fun f => ⟨fun hnone => ?_, fun b hb => ?_⟩, fun f b hopen hfind hnumber henabled hfits => ?_,
    fun x hx hpower hfind => ?_, fun st hst => ?_, fun key al hreach => ?_, fun hnone => ?_, fun f hreach hoff => ?_⟩
  · show Host.Outcome.next (closeBatch f s) = _
    rw [closeBatch, hnone]
  · show Host.Outcome.next (closeBatch f s) = _
    rw [closeBatch, hb]
  · obtain ⟨hlast, hmem, hdram⟩ := writeBatch_writes hfind henabled hfits
    have hclosed := List.find?_some hfind
    rw [Bool.and_eq_true, decide_eq_true_eq] at hclosed
    obtain ⟨hfn, -⟩ := hclosed
    exact ⟨_, congrArg Host.Outcome.next (if_neg (by simp [hopen])), hlast, ⟨_, hmem, hfn, rfl, rfl, rfl, rfl, rfl⟩, hdram⟩
  · show Host.Outcome.next _ = _
    simp only [hfind, hpower, if_false]
  · have hnone : s.mmu.stalls.find? (fun x => x.stream == st) = none := by
      rw [List.find?_eq_none]
      exact List.any_eq_false.mp hst
    show Host.Outcome.next _ = _
    simp only [hnone]
  · intro va pages r gone
    have hr (range : Bool) : s.invalResult key.toNat range = r range := by
      have hkey : key.toNat ≠ 0x3A11 ↔ key ≠ 0x3A11 := by
        rw [ne_eq, ne_eq, ← BitVec.toNat_inj]
        rfl
      simp only [State.invalResult, hkey, r, va, pages]
    have hserve (op : Nat) (a : Nat) (hop : op ≠ 0) : invalAccess 0 key.toNat op a s =
        if r (op == 3) ≠ 0 then s.put F.mmuInvalStatusResult (r (op == 3)) else s.invalidating (s.invalScope op a) := by
      rw [← hr]
      exact (writeAccess_serve hreach _ _).trans (writeInval_eq key.toNat op a s hop)
    have hgone (op a : Nat) (hop : op ≠ 0) (h0 : r (op == 3) = 0) (c : Instr) (hc : exec c s = .next (invalAccess 0 key.toNat op a s))
        (scope : TlbEntry → Prop) (hscope : ∀ x : TlbEntry, x.matchesScope (s.invalScope op a) = true ↔ scope x) : gone c scope := by
      obtain ⟨hbusy, hresult, hmem, htlb, hdone⟩ := invalidating_shows s (s.invalScope op a)
      refine ⟨_, hc.trans (congrArg _ ((hserve op a hop).trans (if_neg (Classical.not_not.mpr h0)))), hbusy, hresult, hmem, fun x => ?_, hdone⟩
      rw [htlb, hscope]
    refine ⟨fun hne => ⟨?_, ?_⟩, fun hne => ?_, fun h0 => ⟨?_, ?_⟩, fun h0 => ?_⟩
    · exact congrArg Host.Outcome.next ((hserve 1 0 (by decide)).trans (if_pos hne))
    · exact congrArg Host.Outcome.next ((hserve 2 al (by decide)).trans (if_pos hne))
    · exact congrArg Host.Outcome.next ((hserve 3 al (by decide)).trans (if_pos hne))
    · exact hgone 1 0 (by decide) h0 _ rfl _ fun x => by simp [State.invalScope, TlbEntry.matchesScope]
    · exact hgone 2 al (by decide) h0 _ rfl _ fun x => by simp [State.invalScope, TlbEntry.matchesScope]
    · exact hgone 3 al (by decide) h0 _ rfl _ fun x => by simp [State.invalScope, TlbEntry.matchesScope, va, pages]
  · show Host.Outcome.next _ = _
    rw [hnone]
  · intro lg m tu ok
    let v := setBits (s.rd (R.mmuFrCfg f)) 31 1 1
    have hbit : getBits v 31 1 = 1 := getBits_setBits_same _ _ _ _ (by decide)
    have hok : frCfgOk v (s.rd64 (R.mmuFrBase f)) = true ↔ ok := frCfgOk_enabling (s.rd (R.mmuFrCfg f)) _
    have hrun : exec (.faultRingEnable 0 f) s = .next (writeFrCfg f v s) :=
      congrArg Host.Outcome.next (writeAccess_serve hreach _ _)
    rw [hrun, writeFrCfg_eq hoff hbit]
    obtain ⟨hmmu, hmem⟩ := frCfgFields_keeps f v s
    refine ⟨fun hnot => ?_, fun hyes hreserved hbatches hlen => ?_⟩
    · rw [if_neg (mt hok.mp hnot)]
      obtain ⟨herror, hmmu', hmem', henable⟩ := hostError_shows f.val (frCfgFields f v s)
      exact ⟨_, rfl, henable.trans ((frCfgFields_enable f v s).trans hoff), herror, hmmu'.trans hmmu, hmem'.trans hmem⟩
    · rw [if_pos (hok.mpr hyes)]
      obtain ⟨henable, hphase, hpos, hstart⟩ := startRing_shows f.val (s := frCfgFields f v s) (by rw [hmmu, hbatches])
        (by rw [hmmu, hlen]; exact f.isLt)
      exact ⟨_, rfl, henable, hphase, hpos, hstart.trans hmem⟩

end Sys2Proof
end

section
/-! PROOFS. Opening an island, epoch views, tags and timeouts (spec/01 R21-R40). -/
namespace Sys2Proof.Machine

/-- A broadcast epoch becomes the stop's view of the island. -/
theorem view_setView_same (stop n e : Nat) (s : State) : (setView stop n e s).view stop n = e := by
  simp [State.view, setView]

theorem view_setView_ne {stop n st m : Nat} (h : st * 128 + m ≠ stop * 128 + n) (e : Nat) (s : State) :
    (setView stop n e s).view st m = s.view st m := by
  have hhead : ¬ stop * 128 + n = st * 128 + m := fun hk => h hk.symm
  have htail : (fun x : Nat × Nat => decide (decide (x.1 ≠ stop * 128 + n) = true ∧ decide (x.1 = st * 128 + m) = true)) =
      fun x => decide (x.1 = st * 128 + m) := by
    funext x
    by_cases hx : x.1 = st * 128 + m
    · simp [hx, h]
    · simp [hx]
  simp only [State.view, setView]
  rw [List.find?_cons_of_neg (by simpa using hhead), List.find?_filter, htail]

/-- The epoch and the hedge of an island that opens; every other island's stay. -/
theorem opening_shows (n : Nat) (s : State) :
    let s1 := (s.put (F.islandStateEpoch n) (s.epoch n + 1)).put (F.islandStateState n) OPEN
    s1.hedge n = OPEN ∧ s1.epoch n = (s.epoch n + 1) % 256 ∧
      ∀ m, m ≠ n → s1.hedge m = s.hedge m ∧ s1.epoch m = s.epoch m := by
  intro s1
  have hoff (m : Nat) (hm : m ≠ n) : R.islandState m ≠ R.islandState n := by
    simp only [R.islandState]
    omega
  refine ⟨State.get_put_same _ _ _ rfl, ?_, fun m hm => ⟨?_, ?_⟩⟩
  · refine (State.get_put_apart _ (F.islandStateState n) (F.islandStateEpoch n) _ rfl ?_).trans (State.get_put_same _ _ _ rfl)
    exact apart_of_above (by decide : 0 + 3 ≤ 8)
  · exact (State.get_wr_ne _ _ _ (F.islandStateState m) (hoff m hm)).trans (State.get_wr_ne _ _ _ (F.islandStateState m) (hoff m hm))
  · exact (State.get_wr_ne _ _ _ (F.islandStateEpoch m) (hoff m hm)).trans (State.get_wr_ne _ _ _ (F.islandStateEpoch m) (hoff m hm))

end Sys2Proof.Machine

namespace Sys2Proof
open Sys2Proof.Machine

/-- Settles O7: each event completes as its rule says, and a stop's view of one island alone takes the broadcast epoch. -/
theorem hedgeEventsComplete : Obligations.HedgeEventsComplete := by
  unfold Obligations.HedgeEventsComplete
  intro s
  refine ⟨fun n hmay hpower => ?_, fun stop n b hb => ?_, ?_, fun src g c hg hc => ?_, fun src tag x hx hdst => ⟨fun h1 h2 => ?_, ?_⟩⟩
  · obtain ⟨hopen, hepoch, hothers⟩ := opening_shows n s
    have hclosed : s.hedge n = CLOSED := by
      simp only [State.mayOpen, Bool.and_eq_true, beq_iff_eq] at hmay
      obtain ⟨⟨⟨hclosed, -⟩, -⟩, -⟩ := hmay
      exact hclosed
    refine ⟨_, hopen, hepoch, fun m _ hm => hothers m hm, rfl, ?_⟩
    have hrun : exec (.hedgeOpen n) s = .next (if (openIsland n s).power = 1 then stopHedge n (openIsland n s) else openIsland n s) :=
      congrArg Host.Outcome.next (if_pos hmay)
    have hislands : openIsland n s = refreshUrgent (releaseHeld n (openUnits n (clearCtrlBusy n (setClock n (broadcast n (clearTlb n
        ((s.put (F.islandStateEpoch n) (s.epoch n + 1)).put (F.islandStateState n) OPEN))))))) := if_pos hclosed
    rw [← hislands, hrun]
    split
    · exact ⟨_, rfl, .inr rfl⟩
    · exact ⟨_, rfl, .inl rfl⟩
  · have hview (st m : Fin 72) : ∀ bs, State.view { setView stop n b.epoch s with isl := { (setView stop n b.epoch s).isl with broadcasts := bs } } st m =
        (setView stop n b.epoch s).view st m := fun bs => rfl
    have hrun : ∃ bs, exec (.epochViewUpdate stop n) s = .next { setView stop n b.epoch s with
        isl := { (setView stop n b.epoch s).isl with broadcasts := bs } } := by
      let rest := b.stops.filter (fun x => x ≠ stop.val)
      let others := s.isl.broadcasts.filter (fun x => x.island ≠ n.val)
      refine ⟨if rest.isEmpty then others else { b with stops := rest } :: others, ?_⟩
      show Host.Outcome.next _ = _
      rw [hb]
      rfl
    obtain ⟨bs, hrun⟩ := hrun
    refine ⟨_, hrun, (hview stop n bs).trans (view_setView_same _ _ _ _), rfl, rfl, fun st m hne => (hview st m bs).trans (view_setView_ne ?_ _ _)⟩
    intro hk
    have hst : st = stop := Fin.ext (by omega)
    have hm : m = n := Fin.ext (by omega)
    exact hne (by rw [hst, hm])
  · show Host.Outcome.next (s.put _ _) = _
    rw [satAdd_eq_min, Nat.min_comm]
  · show Host.Outcome.next _ = _
    simp only [hg, hc]
  · show Host.Outcome.next _ = _
    simp [hx, hdst, h1, h2]
  · show Host.Outcome.next _ = _
    simp [hx, hdst]

end Sys2Proof
end

section
/-! PROOFS. Accesses to BAR0 and a plain register write (spec/00 R8-R11, spec/24 R555-R557). -/
namespace Sys2Proof.Machine

/-- A verdict of a dark island comes from a shut hedge of the island that serves the offset. -/
theorem judge_dark {s : State} {f : Fin 8} {off size n : Nat} (h : s.judge (.host f) off size = .dark n) :
    s.isShut n = true ∧ n = serveIsland off := by
  simp only [State.judge] at h
  have later : ∀ {p : Prop} [Decidable p] {x y : Verdict}, (if p then x else y) = .dark n → x ≠ .dark n → y = .dark n :=
    fun {p} _ {x y} hd hx => by
      by_cases hp : p
      · exact absurd ((if_pos hp).symm.trans hd) hx
      · exact (if_neg hp).symm.trans hd
  have hlast := later (later (later (later (later h nofun) nofun) nofun) nofun) nofun
  split at hlast
  · next hhere =>
    obtain ⟨-, hshut⟩ := hhere
    injection hlast with hn
    exact ⟨hn ▸ hshut, hn.symm⟩
  · split at hlast
    · exact absurd (later hlast nofun) nofun
    · exact absurd (later (later hlast nofun) nofun) nofun

theorem isShut_iff (s : State) (n : Nat) : s.isShut n = true ↔ s.hedge n = DARK ∨ s.hedge n = CLOSED := by
  simp only [State.isShut, Bool.or_eq_true, beq_iff_eq]

/-- A refused access of a dark island is recorded with the island's number. -/
theorem darkAccess_shows {n : Nat} (hn : n < 128) (s : State) : (darkAccess n s).get F.globalStatusDarkAccess = 1 ∧
    (darkAccess n s).get F.globalDarkIslandIsland = n := by
  refine ⟨?_, (State.get_put_same _ _ _ rfl).trans (Nat.mod_eq_of_lt hn)⟩
  exact (State.get_wr_ne _ _ _ F.globalStatusDarkAccess (by decide)).trans (setGlobal_set _ _ (by decide) rfl rfl)

theorem answerRead_shows (bs : List Byte) (s : State) : (answerRead bs s).host.readData = bs ∧ (answerRead bs s).regs = s.regs ∧
    (answerRead bs s).mem = s.mem := ⟨rfl, rfl, rfl⟩

/-- What is known of a read that a dark island or no register answers. -/
theorem readAccess_turned {s : State} {w : Writer} {off size : Nat} (hp : s.power ≠ 2) :
    (∀ n, s.judge w off size = .dark n → readAccess w off size s = answerRead (List.replicate size 0xFF) (darkAccess n s)) ∧
    (s.judge w off size = .bad → readAccess w off size s = answerRead (List.replicate size 0xFF) (badAccess s)) := by
  refine ⟨fun n h => ?_, fun h => ?_⟩
  · rw [readAccess, touchWake_awake w hp]
    simp only [h]
  · rw [readAccess, touchWake_awake w hp]
    simp only [h]

/-! INTAKE_SW_CFG, a register of one plain 16-bit field -/

theorem intakeSwCfg_masks : reservedBits R.intakeSwCfg = 0xFFFF0000 ∧ halfOf R.intakeSwCfg = none ∧
    ∀ old v : Word, writtenWord R.intakeSwCfg old v = (old &&& 0xFFFF0000) ||| (v &&& 0xFFFF) := by
  refine ⟨by decide, by decide, fun old v => ?_⟩
  show (old &&& 0xFFFF0000 &&& ~~~ (0#32 &&& v)) ||| (v &&& 0xFFFF) = _
  rw [BitVec.zero_and, BitVec.not_zero, BitVec.and_allOnes]

/-- A word of 16 bits sets no reserved bit. -/
theorem and_high_eq_zero {v : Word} (h : v.toNat < 2 ^ 16) : v &&& 0xFFFF0000 = 0 := by
  refine BitVec.eq_of_toNat_eq ?_
  show v.toNat &&& 0xFFFF0000 = 0
  have hlow : (v.toNat &&& 0xFFFF0000) % 2 ^ 16 = 0 := by rw [Nat.and_mod_two_pow, Nat.and_zero]
  have hhigh : (v.toNat &&& 0xFFFF0000) / 2 ^ 16 = 0 := by rw [Nat.and_div_two_pow, Nat.div_eq_of_lt h, Nat.zero_and]
  omega

/-- The low half of a word that takes 16 written bits and keeps the rest. -/
theorem getBits_or_low (a v : Word) : getBits (a &&& 0xFFFF0000 ||| v &&& 0xFFFF) 0 16 = v.toNat % 2 ^ 16 := by
  show ((a.toNat &&& 0xFFFF0000) ||| (v.toNat &&& 0xFFFF)) / 2 ^ 0 % 2 ^ 16 = _
  rw [Nat.pow_zero, Nat.div_one, Nat.or_mod_two_pow, Nat.and_mod_two_pow, Nat.and_mod_two_pow, Nat.and_zero, Nat.zero_or]
  exact Nat.and_two_pow_sub_one_of_lt_two_pow (Nat.mod_lt _ (by decide))

theorem plainReg_intakeSwCfg (w : Writer) {v : Word} (h : v.toNat < 2 ^ 16) (s : State) : ∃ x : Word, getBits x 0 16 = v.toNat ∧
    plainReg w R.intakeSwCfg v s = s.wr R.intakeSwCfg x := by
  obtain ⟨hreserved, hhalf, hword⟩ := intakeSwCfg_masks
  refine ⟨writtenWord R.intakeSwCfg (s.rd R.intakeSwCfg) v, ?_, ?_⟩
  · rw [hword, getBits_or_low, Nat.mod_eq_of_lt h]
  · rw [plainReg, plainWrite, hhalf, noteReserved, hreserved, if_pos (and_high_eq_zero h)]

/-- A write that is neither a VF's token write nor one to FN or RING_OWNER is judged as any other. -/
theorem busWrite_judged {w : Writer} {off : Nat} (htoken : off ≠ R.hostqToken ∨ isPf0 w = true)
    (hblock : off < R.hostqFn 0 ∨ R.hostqRingOwner 64 ≤ off) (v : Word) (s : State) :
    busWrite w off v s = writeAccess w off v.toNat (writeReg w off v) s := by
  have hfirst : ¬ (off = R.hostqToken ∧ (!isPf0 w) = true) := by
    rintro ⟨hoff, hpf⟩
    obtain h | h := htoken
    · exact h hoff
    · simp [h] at hpf
  refine (if_neg hfirst).trans (if_neg ?_)
  simp only [R.hostqFn, R.hostqRingOwner] at *
  omega

end Sys2Proof.Machine

namespace Sys2Proof
open Sys2Proof.Machine

/-- Settles O8: an access that meets a dark island or no register is recorded and answered; a plain write leaves its
value in its own field alone. -/
theorem registerAccesses : Obligations.RegisterAccesses := by
  unfold Obligations.RegisterAccesses
  intro s f off hpower
  refine ⟨fun n hn hdark => ?_, fun size hbad => ?_, fun v hoff => ⟨fun n hdark hf hblock => ?_, fun hzero hblock => ?_⟩,
    fun w v hw hreach hv => ?_⟩
  · obtain ⟨hshut, hserve⟩ := judge_dark hdark
    obtain ⟨hset, hisland⟩ := darkAccess_shows hn s
    obtain ⟨hread, -⟩ := readAccess_turned (w := .host f) (off := barOffset (.host f) off.toNat) (size := 4) hpower
    obtain ⟨hwrite, -, -⟩ := writeAccess_turned (w := .host f) (off := barOffset (.host f) off.toNat) hpower 0 id
    refine ⟨(isShut_iff s n).mp hshut, hserve, ⟨_, congrArg Host.Outcome.next (hread n hdark), rfl, hset, hisland, darkAccess_mem n s⟩,
      ⟨_, congrArg Host.Outcome.next (hwrite n hdark), hset, hisland, darkAccess_mem n s⟩⟩
  · obtain ⟨-, hread⟩ := readAccess_turned (w := .host f) (off := barOffset (.host f) off.toNat) (size := size) hpower
    refine ⟨⟨_, congrArg Host.Outcome.next (hread hbad), rfl, badAccess_set s, badAccess_mem s⟩, ⟨badAccess s, ?_, badAccess_set s, badAccess_mem s⟩⟩
    show Host.Outcome.next _ = _
    simp only [touchWake_awake (.host f) hpower, hbad, Bool.not_true, Bool.false_eq_true, if_false]
  · subst hf
    have ho : barOffset (.host 0) off.toNat = off.toNat := rfl
    rw [ho] at hdark
    have hjudged := busWrite_judged (w := .host 0) (.inr rfl) hblock v s
    obtain ⟨hwrite, -, -⟩ := writeAccess_turned (w := .host 0) (off := off.toNat) hpower v.toNat (writeReg (.host 0) off.toNat v)
    exact congrArg Host.Outcome.next (hjudged.trans (hwrite n hdark))
  · have hjudged := busWrite_judged (w := .host f) (.inl (fun h => hoff (List.mem_singleton.mpr h))) hblock v s
    obtain ⟨-, -, hwrite⟩ := writeAccess_turned (w := .host f) (off := barOffset (.host f) off.toNat) hpower v.toNat
      (writeReg (.host f) (barOffset (.host f) off.toNat) v)
    exact congrArg Host.Outcome.next (hjudged.trans (hwrite (.inr hzero)))
  · obtain ⟨x, hx, hplain⟩ := plainReg_intakeSwCfg w hv s
    have hoff : barOffset w (BitVec.ofNat 24 R.intakeSwCfg).toNat = R.intakeSwCfg := by
      obtain rfl | rfl := hw <;> rfl
    have hrun : exec (.registerWrite w (BitVec.ofNat 24 R.intakeSwCfg) v none) s = .next (s.wr R.intakeSwCfg x) := by
      refine congrArg Host.Outcome.next ?_
      rw [hoff, busWrite_judged (.inl (by decide)) (.inr (by decide)), writeAccess_serve hreach]
      exact hplain
    exact ⟨_, hrun, (congrArg (getBits · 0 16) (State.rd_wr_same _ _ _)).trans hx, rfl, fun o ho => State.rd_wr_ne _ _ _ _ ho⟩

end Sys2Proof
end

section
/-! PROOFS. Reset, the start that follows, and the test access port (spec/04 R101-R104, spec/23 R539, R540). -/
namespace Sys2Proof.Machine

/-- A field is read from the register words alone. -/
theorem State.get_of_regs {s t : State} (h : s.regs = t.regs) (f : Field) : s.get f = t.get f := by
  rw [State.get, State.get, State.rd, State.rd, h]

/-! Reset -/

/-- What reset leaves and what it keeps. -/
theorem holdReset_shows (s : State) : (∀ off, (holdReset s).rd off = coldWord off) ∧ (holdReset s).mem.dram = [] ∧
    (holdReset s).mem.bedMem = [] ∧ (holdReset s).mem.flash = s.mem.flash ∧ (holdReset s).mem.host = s.mem.host ∧
    (holdReset s).boot.fuses = s.boot.fuses ∧ (holdReset s).nand = s.nand ∧ (holdReset s).boot.starting = false ∧
    (holdReset s).pending = s.pending ∧ (holdReset s).board.resetN = s.board.resetN ∧
    (holdReset s).board.fromOff = s.board.fromOff :=
  ⟨fun _ => rfl, rfl, rfl, rfl, rfl, rfl, rfl, rfl, rfl, rfl, rfl⟩

/-- What a cold start that is not forced does to the state in reset. -/
def beginCold (kind : Nat) (u : State) : State :=
  let t := u.puts [(F.bootStatusStep, 1), (F.bootKindStartKind, kind), (F.bootStatusForced, 0)]
  { t with boot := { t.boot with starting := true }, board := { t.board with alerts := [], memEn := true, thermN := true, fromOff := false } }

theorem coldStart_eq (kind : Nat) (s : State) : coldStart kind false s = beginCold kind (holdReset s) := by
  unfold coldStart beginCold
  rfl

/-- POWER_GOOD is next, and the start's kind shows. -/
theorem beginCold_shows {kind : Nat} (hkind : kind < 8) (u : State) :
    (beginCold kind u).get F.bootStatusStep = 1 ∧ (beginCold kind u).get F.bootStatusReady = u.get F.bootStatusReady ∧
    (beginCold kind u).get F.bootKindStartKind = kind ∧ (beginCold kind u).get F.bootStatusForced = 0 ∧
    (beginCold kind u).boot.starting = true ∧ (beginCold kind u).mem = u.mem ∧
    (beginCold kind u).boot.fuses = u.boot.fuses ∧ (beginCold kind u).pending = u.pending := by
  let l : List (Field × Nat) := [(F.bootStatusStep, 1), (F.bootKindStartKind, kind), (F.bootStatusForced, 0)]
  have hregs : (beginCold kind u).regs = (u.puts l).regs := by unfold beginCold; rfl
  have hget (f : Field) : (beginCold kind u).get f = (u.puts l).get f := State.get_of_regs hregs f
  refine ⟨(hget F.bootStatusStep).trans ?_, (hget F.bootStatusReady).trans ?_, (hget F.bootKindStartKind).trans ?_,
    (hget F.bootStatusForced).trans ?_, ?_⟩
  · exact State.get_puts_last u [] [(F.bootKindStartKind, kind), (F.bootStatusForced, 0)] F.bootStatusStep 1 rfl rfl
  · refine State.get_puts_apart u l F.bootStatusReady fun f hf => ?_
    simp only [l, List.mem_cons, List.not_mem_nil, or_false] at hf
    rcases hf with rfl | rfl | rfl <;> exact ⟨rfl, rfl⟩
  · exact (State.get_puts_last u [(F.bootStatusStep, 1)] [(F.bootStatusForced, 0)] F.bootKindStartKind kind rfl rfl).trans
      (Nat.mod_eq_of_lt hkind)
  · exact State.get_puts_last u [(F.bootStatusStep, 1), (F.bootKindStartKind, kind)] [] F.bootStatusForced 0 rfl rfl
  · unfold beginCold
    dsimp only
    rw [State.mem_puts, State.boot_puts, State.pending_puts]
    exact ⟨rfl, rfl, rfl, rfl⟩

theorem holdReset_ready (s : State) : (holdReset s).get F.bootStatusReady = 0 := by
  obtain ⟨hcold, -⟩ := holdReset_shows s
  rw [State.get, hcold]
  decide

/-! The boundary scan -/

/-- Shifting is a queue: what was in the register leaves first. -/
theorem shiftBits_eq (bs : List Bool) {reg : List Bool} (h : reg ≠ []) :
    shiftBits reg bs = ((reg ++ bs).drop bs.length, (reg ++ bs).take bs.length) := by
  induction bs generalizing reg with
  | nil => simp [shiftBits]
  | cons b bs ih =>
    cases reg with
    | nil => cases h rfl
    | cons r rs =>
      have hrest := ih (reg := rs ++ [b]) (by simp)
      simp only [shiftBits, hrest, List.append_assoc, List.cons_append, List.nil_append, List.length_cons,
        List.drop_succ_cons, List.take_succ_cons]

theorem captureBall_cells (t : TapUnit) (n : Nat) (d : BallDrive) (board : Bool) (free : Nat) :
    ∃ b c, captureBall t n d board free = [ballLevel t n d board, b, c] := by
  unfold captureBall
  dsimp only
  split
  · exact ⟨_, _, rfl⟩
  · split <;> exact ⟨_, _, rfl⟩

theorem captureFrom_length (t : TapUnit) (board free n : Nat) (bs : List (String × BallDrive)) :
    (captureFrom t board free n bs).length = 3 * bs.length := by
  induction bs generalizing n with
  | nil => rfl
  | cons b bs ih =>
    obtain ⟨x, y, hcells⟩ := captureBall_cells t n b.2 (bit board n) free
    rw [captureFrom, hcells, List.length_append, ih, List.length_cons]
    simp only [List.length_cons, List.length_nil]
    omega

/-- The first of ball k's three cells is its level. -/
theorem captureFrom_level (t : TapUnit) (board free n k : Nat) (bs : List (String × BallDrive)) :
    (captureFrom t board free n bs)[3 * k]? = (bs[k]?).map (fun b => ballLevel t (n + k) b.2 (bit board (n + k))) := by
  induction bs generalizing n k with
  | nil => rfl
  | cons b bs ih =>
    obtain ⟨x, y, hcells⟩ := captureBall_cells t n b.2 (bit board n) free
    rw [captureFrom, hcells]
    cases k with
    | zero => rfl
    | succ k =>
      have hrest := ih (n + 1) k
      rw [Nat.add_right_comm, Nat.add_assoc] at hrest
      exact hrest

/-- A scan of the whole register: the cells captured leave, the bits that entered are latched. -/
theorem scanBoundary_shows (ins : TapInstr) (board : Nat) {tdi : List Bool} (hlen : tdi.length = 147) (s : State) :
    ∃ cells x, scanBoundary ins board tdi s = { s with tap := { s.tap with instr := ins, cells := tdi, latch := tdi, tdo := cells }, fresh := x } ∧
      cells.length = 147 ∧ ∀ n, cells[3 * n]? =
        (scanBalls[n]?).map (fun b => ballLevel { s.tap with instr := ins } n b.2 (bit board n)) := by
  obtain ⟨free, x, hdraw⟩ : ∃ free x, s.draw = (free, { s with fresh := x }) := ⟨_, _, rfl⟩
  let cells := captureFrom { s.tap with instr := ins } board free 0 scanBalls
  have hcells : cells.length = 147 := captureFrom_length _ _ _ _ _
  have hnil : cells ≠ [] := fun h => by simp [h] at hcells
  refine ⟨cells, x, ?_, hcells, fun n => ?_⟩
  · have hshift : shiftBits cells tdi = (tdi, cells) := by
      rw [shiftBits_eq tdi hnil, hlen, ← hcells, List.drop_left, List.take_left]
    simp only [scanBoundary, hdraw]
    rw [hshift]
  · exact (captureFrom_level _ _ _ 0 n scanBalls).trans (by rw [Nat.zero_add])

/-- The level that the first cell of a ball shows: what EXTEST's update cells drive, or what the device drives in reset,
and else what the board applies. -/
def pinLevel (external : Bool) (latch : List Bool) (balls : BitVec 49) (n : Nat) (d : BallDrive) : Bool :=
  if external = true then
    if cellAt latch n 2 = true then
      (if cellAt latch n 1 = true then (if d = .openDrain then balls.getLsbD n else true) else false)
    else balls.getLsbD n
  else match d with
    | .low => false
    | .high => true
    | .highZ => balls.getLsbD n
    | .openDrain => balls.getLsbD n

theorem bit_toNat (balls : BitVec 49) (n : Nat) : bit balls.toNat n = balls.getLsbD n := by
  rw [bit, BitVec.getLsbD, Nat.testBit_eq_decide_div_mod_eq]

end Sys2Proof.Machine

namespace Sys2Proof
open Sys2Proof.Machine

/-- Settles O12: every reset source leaves Cold values, the last one's end begins a cold start, and the test access port
answers in reset alone. -/
theorem resetPins : Obligations.ResetPins := by
  unfold Obligations.ResetPins
  intro s
  refine ⟨fun c hc => ?_, fun c hc => ?_, fun balls tdi => ⟨fun hquiet => ?_, fun hreset hpower => ⟨?_, fun hlen c i hi => ?_⟩⟩⟩
  · have hshows (u : State) (hrun : exec c s = .next (holdReset u)) (hmem : u.mem = s.mem) (hboot : u.boot = s.boot)
        (hnand : u.nand = s.nand) (hpending : u.pending = s.pending) (hpin : c = .resetNAssert → u.board.resetN = false)
        (hsupply : c ≠ .resetNAssert → u.board.fromOff = true) :
        ∃ t, exec c s = .next t ∧ (∀ off, t.rd off = coldWord off) ∧ t.mem.dram = [] ∧ t.mem.bedMem = [] ∧
          t.mem.flash = s.mem.flash ∧ t.mem.host = s.mem.host ∧ t.boot.fuses = s.boot.fuses ∧ t.nand = s.nand ∧
          t.boot.starting = false ∧ t.pending = s.pending ∧
          (c = .resetNAssert → t.board.resetN = false) ∧ (c ≠ .resetNAssert → t.board.fromOff = true) := by
      obtain ⟨hrd, hdram, hbed, hflash, hhost, hfuses, hstore, hstart, hqueue, hresetN, hfrom⟩ := holdReset_shows u
      rw [hmem] at hflash hhost
      rw [hboot] at hfuses
      exact ⟨_, hrun, hrd, hdram, hbed, hflash, hhost, hfuses, hstore.trans hnand, hstart, hqueue.trans hpending,
        fun h => hresetN.trans (hpin h), fun h => hfrom.trans (hsupply h)⟩
    obtain rfl | rfl | rfl | rfl := hc
    · exact hshows { s with board := { s.board with resetN := false } } rfl rfl rfl rfl rfl (fun _ => rfl) (fun h => absurd rfl h)
    · exact hshows { s with board := { s.board with pwrOk := false, fromOff := true } } rfl rfl rfl rfl rfl (fun h => by cases h)
        (fun _ => rfl)
    · exact hshows { s with board := { s.board with pwrOk := false, fromOff := true } } rfl rfl rfl rfl rfl (fun h => by cases h)
        (fun _ => rfl)
    · exact hshows { s with board := { s.board with detector := true, fromOff := true } } rfl rfl rfl rfl rfl (fun h => by cases h)
        (fun _ => rfl)
  · intro s1 hmoved
    have hrelease : exec c s = .next (releaseReset s1) := by
      obtain rfl | rfl | rfl := hc
      · exact congrArg Host.Outcome.next (if_neg fun h => hmoved (by simp only [s1, if_true]; rw [← h]))
      · exact congrArg Host.Outcome.next (if_neg fun h => hmoved (by simp only [s1]; rw [← h]; rfl))
      · exact congrArg Host.Outcome.next (if_pos (Classical.byContradiction fun h => hmoved (by simp only [s1]; rw [← Bool.eq_false_iff.mpr h]; rfl)))
    have hsame : s1.mem = s.mem ∧ s1.boot = s.boot ∧ s1.pending = s.pending ∧ s1.board.fromOff = s.board.fromOff := by
      obtain rfl | rfl | rfl := hc <;> exact ⟨rfl, rfl, rfl, rfl⟩
    clear_value s1
    obtain ⟨hmem, hboot, hpending, hfrom⟩ := hsame
    have hcond : (s1.board.resetN && s1.board.pwrOk && !s1.board.detector) = true ↔
        s1.board.resetN = true ∧ s1.board.pwrOk = true ∧ s1.board.detector = false := by
      simp only [Bool.and_eq_true, Bool.not_eq_true', and_assoc]
    refine ⟨fun hlast => ?_, fun hheld => hrelease.trans (congrArg _ (if_neg (mt hcond.mp hheld)))⟩
    obtain ⟨hstep, hready, hkind, hforced, hstart, hcoldmem, hcoldfuses, hqueue⟩ :=
      beginCold_shows (kind := if s1.board.fromOff then 0 else 1) (by split <;> decide) (holdReset s1)
    obtain ⟨-, hdram, -, hflash, -, hfuses, -, -, hheldqueue, -⟩ := holdReset_shows s1
    refine ⟨_, hrelease.trans (congrArg _ ((if_pos (hcond.mpr hlast)).trans (coldStart_eq _ s1))), hstep,
      hready.trans (holdReset_ready s1), hkind.trans (by rw [hfrom]), hforced, hstart, ?_, ?_, ?_, hqueue.trans (hheldqueue.trans hpending)⟩
    · rw [hcoldmem, hdram]
    · rw [hcoldmem, hflash, hmem]
    · rw [hcoldfuses, hfuses, hboot]
  · have hdeaf : s.tapResponds = false := by
      obtain h | h := hquiet <;> simp [State.tapResponds, h]
    have hnot := Bool.eq_false_iff.mp hdeaf
    exact ⟨congrArg Host.Outcome.next (if_neg hnot), congrArg Host.Outcome.next (if_neg hnot), congrArg Host.Outcome.next (if_neg hnot)⟩
  · have hanswers : s.tapResponds = true := by simp [State.tapResponds, hreset, hpower]
    have hshift := shiftBits_eq tdi (reg := [false]) (List.cons_ne_nil _ _)
    exact ⟨_, congrArg Host.Outcome.next (if_pos hanswers), rfl, congrArg Prod.snd hshift, rfl⟩
  · have hanswers : s.tapResponds = true := by simp [State.tapResponds, hreset, hpower]
    have hscan (ins : TapInstr) (hrun : exec i s = .next (scanBoundary ins balls.toNat tdi s))
        (hlevel : ∀ n d, ballLevel { s.tap with instr := ins } n d (balls.getLsbD n) = pinLevel c s.tap.latch balls n d) :
        ∃ t, exec i s = .next t ∧ t.tap.latch = tdi ∧ t.tap.tdo.length = 147 ∧ t = { s with tap := t.tap, fresh := t.fresh } ∧
          ∀ n d, (scanBalls[n]?).map (fun b => b.2) = some d → t.tap.tdo[3 * n]? = some (pinLevel c s.tap.latch balls n d) := by
      obtain ⟨cells, x, hstate, hcells, hlevels⟩ := scanBoundary_shows ins balls.toNat hlen s
      refine ⟨_, hrun.trans (congrArg _ hstate), rfl, hcells, rfl, fun n d hd => ?_⟩
      obtain ⟨b, hb, rfl⟩ := Option.map_eq_some_iff.mp hd
      refine (hlevels n).trans ?_
      rw [hb, Option.map_some, bit_toNat, hlevel n b.2]
    simp only [List.mem_cons, Prod.mk.injEq, List.not_mem_nil, or_false] at hi
    obtain ⟨rfl, rfl⟩ | ⟨rfl, rfl⟩ := hi
    · exact hscan .samplePreload (congrArg Host.Outcome.next (if_pos hanswers)) fun n d => by cases d <;> rfl
    · exact hscan .extest (congrArg Host.Outcome.next (if_pos hanswers)) fun n d => rfl

end Sys2Proof
end

section
/-! PROOFS. The start steps (spec/04 R102-R117). -/
namespace Sys2Proof.Machine

/-- When the command of a step is due. -/
theorem atStep_due {k : Nat} {s : State} (hstart : s.boot.starting = true) (hstep : s.get F.bootStatusStep = k) :
    s.atStep k = true := by
  rw [State.atStep, hstart, hstep, decide_eq_true rfl, Bool.and_true]

theorem nextStep_lt (s : State) (k : Nat) : s.nextStep k < 16 := by
  unfold State.nextStep
  cases h : (List.range 16).find? (fun j => k < j && s.runsStep j) with
  | none => decide
  | some j => exact List.mem_range.mp (List.mem_of_find?_eq_some h)

/-- A step that ends records its time and shows the next step. -/
theorem stepDone_shows {k : Nat} (hk : k ≤ 14) (s : State) :
    let s1 := s.wr (R.bootTime (k - 1)) (BitVec.ofNat 32 (s.timeUs - s.boot.stepAt))
    ∃ u : State, u.rd (R.bootTime (k - 1)) = BitVec.ofNat 32 (s.timeUs - s.boot.stepAt) ∧
      u.get F.bootStatusStep = s1.nextStep k ∧ stepDone k s = enterStep (s1.nextStep k) u := by
  intro s1
  let s2 := s1.put F.bootStatusStep (s1.nextStep k)
  have hoff : R.bootTime (k - 1) ≠ R.bootStatus := by
    simp only [R.bootTime, R.bootStatus]
    omega
  refine ⟨{ s2 with boot := { s2.boot with stepAt := s2.timeUs } }, ?_, ?_, rfl⟩
  · exact (State.rd_put_ne s1 F.bootStatusStep _ _ hoff).trans (State.rd_wr_same _ _ _)
  · exact (State.get_put_same s1 F.bootStatusStep _ rfl).trans (Nat.mod_eq_of_lt (Nat.lt_of_lt_of_le (nextStep_lt _ _) (by decide)))

/-- Erasing a range of the boot flash and writing into it. -/
theorem flash_erased_written (a n : Nat) (bs : List Byte) (s : State) : (flashWrite a bs (flashErase a n s)).mem.flash =
    Memory.write flashFill (Memory.fill flashFill s.mem.flash a n 0xFF) a bs := by
  unfold flashWrite flashErase
  rfl

/-- A record goes to the boot flash alone. -/
theorem appendRecord_flash (typ slot step status detail info : Nat) (s : State) :
    ∃ fl, appendRecord typ slot step status detail info s = { s with mem := { s.mem with flash := fl } } := by
  unfold appendRecord
  dsimp only
  split
  · exact ⟨s.mem.flash, rfl⟩
  · split
    · exact ⟨_, rfl⟩
    · exact ⟨_, rfl⟩

theorem sendMsi_ltr (f v : Nat) (s : State) : (sendMsi f v s).host.ltrUs = s.host.ltrUs := by
  unfold sendMsi State.setFn
  dsimp only
  split
  · rfl
  · split <;> rfl

theorem setEvent_ltr (b : Nat) (s : State) : (setEvent b s).host.ltrUs = s.host.ltrUs := by
  unfold setEvent
  split
  · split <;> rfl
  · split
    · rfl
    · dsimp only
      split
      · exact sendMsi_ltr _ _ _
      · rfl

/-- Lease 5 at READY leaves memory, the boot unit, the host's latency report and BOOT_STATUS. -/
theorem grantToken_keeps (s : State) : (grantToken s).mem = s.mem ∧ (grantToken s).boot = s.boot ∧
    (grantToken s).host.ltrUs = s.host.ltrUs ∧ ∀ g : Field, g.off = R.bootStatus → (grantToken s).get g = s.get g := by
  have hmoved (holder how : Nat) : (moveToken holder how s).mem = s.mem ∧ (moveToken holder how s).boot = s.boot ∧
      (moveToken holder how s).host.ltrUs = s.host.ltrUs ∧
      ∀ g : Field, g.off = R.bootStatus → (moveToken holder how s).get g = s.get g := by
    refine ⟨moveToken_mem _ _ _, ?_, ?_, fun g hg => moveToken_get _ _ _ _ (by rw [hg]; decide)⟩
    · rw [moveToken, setEvent_boot, State.boot_puts]
    · rw [moveToken, setEvent_ltr, State.host_puts]
  unfold grantToken
  split
  · exact ⟨rfl, rfl, rfl, fun _ _ => rfl⟩
  · split
    · exact hmoved 0 0
    · exact hmoved 1 3

/-- The registers of READY outside safe mode. -/
def readyRegs (s : State) : State :=
  (((s.wr (R.bootTime 14) (BitVec.ofNat 32 (s.timeUs - s.boot.stepAt))).wr R.bootElapsed
    (BitVec.ofNat 32 (s.timeUs - s.boot.startedAt))).put F.bootStatusReady 1)

theorem readyRegs_shows (s : State) : (readyRegs s).get F.bootStatusReady = 1 ∧
    (readyRegs s).get F.bootStatusStep = s.get F.bootStatusStep ∧ (readyRegs s).get F.bootStatusSafe = s.get F.bootStatusSafe ∧
    (readyRegs s).startKind = s.startKind := by
  let u := (s.wr (R.bootTime 14) (BitVec.ofNat 32 (s.timeUs - s.boot.stepAt))).wr R.bootElapsed
    (BitVec.ofNat 32 (s.timeUs - s.boot.startedAt))
  have hu (g : Field) (htime : g.off ≠ R.bootTime 14) (helapsed : g.off ≠ R.bootElapsed) : u.get g = s.get g :=
    (State.get_wr_ne _ _ _ g helapsed).trans (State.get_wr_ne _ _ _ g htime)
  refine ⟨State.get_put_same u F.bootStatusReady 1 rfl, ?_, ?_, ?_⟩
  · exact (State.get_put_apart u F.bootStatusReady F.bootStatusStep 1 rfl rfl).trans (hu F.bootStatusStep (by decide) (by decide))
  · exact (State.get_put_apart u F.bootStatusReady F.bootStatusSafe 1 rfl rfl).trans (hu F.bootStatusSafe (by decide) (by decide))
  · exact (State.get_put_apart u F.bootStatusReady F.bootKindStartKind 1 rfl rfl).trans
      (hu F.bootKindStartKind (by decide) (by decide))

/-- What READY leaves outside safe mode, before the token is granted; `fl` is the boot flash with the SUCCESS record. -/
def readyState (s : State) (fl : Memory) : State :=
  let u := readyRegs s
  let clear := if u.boot.memCfg.2.1 = 1 then some 0 else none
  { u with
    mem := { u.mem with flash := fl },
    boot := { u.boot with starting := false, heldPower := none, tripMark := none, clearing := clear },
    host := { u.host with ltrUs := 50 } }

/-- READY outside safe mode in a cold start, with the evidence store mounted by its own step and no power request held. -/
theorem ready_runs {s : State} (hstart : s.boot.starting = true) (hstep : s.get F.bootStatusStep = 15) (hkind : s.startKind < 3)
    (hsafe : s.get F.bootStatusSafe = 0) (hheld : s.boot.heldPower = none) (hevid : s.plan.active.evidence.isSome = true) :
    ∃ fl, exec .ready s = .next (grantToken (readyState s fl)) := by
  obtain ⟨fl, hfl⟩ := appendRecord_flash 2 ((readyRegs s).get F.bootSlotRunning) 15 0 0 0 (readyRegs s)
  obtain ⟨-, -, hsafe', hkind'⟩ := readyRegs_shows s
  have hmounts : (readyState s fl).runsStep 13 = true := by
    have hk : (readyState s fl).startKind < 3 := by
      show (readyRegs s).startKind < 3
      rw [hkind']
      exact hkind
    have hs : (readyState s fl).get F.bootStatusSafe = 0 := hsafe'.trans hsafe
    have he : (readyState s fl).plan.active.evidence.isSome = true := hevid
    simp [State.runsStep, hk, hs, he]
  have h3 : s.startKind ≠ 3 := by omega
  have h4 : s.startKind ≠ 4 := by omega
  have h5 : s.startKind ≠ 5 := by omega
  have h3' : ¬ 3 ≤ s.startKind := by omega
  refine ⟨fl, congrArg Host.Outcome.next ((if_pos (atStep_due hstart hstep)).trans ?_)⟩
  have hheld' : (readyRegs s).boot.heldPower = none := hheld
  have hnot : decide (s.get F.bootStatusSafe = 1) = false := by rw [hsafe]; rfl
  have hregs : ((s.wr (R.bootTime 14) (BitVec.ofNat 32 (s.timeUs - s.boot.stepAt))).wr R.bootElapsed
    (BitVec.ofNat 32 (s.timeUs - s.boot.startedAt))).put F.bootStatusReady (b2n true) = readyRegs s := rfl
  simp only [hnot, h3, h4, h5, h3', hkind, Bool.not_false, hregs, hfl, hheld', ne_eq, not_false_eq_true, and_true, true_or, true_and, false_and, or_self, if_true, if_false]
  exact if_pos hmounts

end Sys2Proof.Machine

namespace Sys2Proof
open Sys2Proof.Machine

/-- Settles O13: each step acts when it is due, and ends in the next step, a halt or a failed start. -/
theorem startSteps : Obligations.StartSteps := by
  unfold Obligations.StartSteps
  intro s hstart
  refine ⟨fun k hlow hhigh => stepDone_shows hhigh s, fun hstep hkind => ?_, fun hstep l1 l0 tm => ?_, fun hstep => ⟨?_, ?_⟩,
    fun hstep => ⟨?_, ?_, ?_⟩, fun hstep => ⟨fun e he => ?_, fun i hi => ?_⟩, fun hstep => ?_, fun hkind hstep => ?_,
    fun hstep => ⟨fun hsafe info => ?_, fun identity ranks cap data => ?_⟩, fun hstep identity ranks cap hkind => ⟨?_, ?_⟩,
    fun hstep hkind => ⟨fun e p he b => ?_, fun oks hoks b => ?_⟩, fun hstep => ?_, fun hstep hkind b => ?_,
    fun hstep hkind hsafe => ?_, fun hstep => ?_, fun hstep hopen => ?_, fun hstep hkind hsafe hheld hevid => ?_, fun hstep => ?_,
    fun st d i => ⟨_, rfl, fuses_recordFailure _ _ _ _ _ s⟩⟩
  · refine congrArg Host.Outcome.next ((if_pos (atStep_due hstart hstep)).trans ?_)
    simp only [hkind, if_true]
  · let s1 := openIsland 2 (openIsland 1 { s with board := { s.board with strap0 := l0, strap1 := l1, testMode := tm } })
    refine ⟨s1, rfl, congrArg Host.Outcome.next (if_pos (atStep_due hstart hstep)), fun htm => ?_⟩
    subst htm
    refine ⟨_, ?_, ?_, ?_, congrArg Host.Outcome.next (if_pos (atStep_due hstart hstep))⟩
    · exact State.puts_regs _ _
    · exact State.get_puts_last s1 [_, _] [_, _, _, _, _] F.planKeysFloor s.boot.fuses.planFloor rfl rfl
    · exact State.get_puts_last s1 [_, _, _] [_, _, _, _] F.bootSlotFloor s.boot.fuses.imageFloor rfl rfl
  · exact congrArg Host.Outcome.next ((if_pos (atStep_due hstart hstep)).trans (if_pos rfl))
  · exact congrArg Host.Outcome.next ((if_pos (atStep_due hstart hstep)).trans (if_neg Bool.false_ne_true))
  · exact congrArg Host.Outcome.next (if_pos (atStep_due hstart hstep))
  · exact congrArg Host.Outcome.next (if_pos (atStep_due hstart hstep))
  · exact congrArg Host.Outcome.next (if_pos (atStep_due hstart hstep))
  · refine congrArg Host.Outcome.next ((if_pos (atStep_due hstart hstep)).trans ?_)
    simp only [he]
  · let s0 := (s.puts [(F.bootSlotRunVersion, i.version),
        (F.bootSlotOtherVersion, (s.slotVersion (1 - s.get F.bootSlotRunning)).getD 0x3F)]).wr (R.bootFwVersion 0)
        (BitVec.ofNat 32 i.fwVersion)
    let s1 : State := { s0 with fw := { s0.fw with digests := setAt 0 i.digest s0.fw.digests } }
    refine ⟨s1, ?_, ?_, ?_, congrArg Host.Outcome.next ((if_pos (atStep_due hstart hstep)).trans ?_)⟩
    · rfl
    · refine (State.get_wr_ne _ _ _ F.bootSlotRunVersion (by decide)).trans ?_
      exact State.get_puts_last s [] [_] F.bootSlotRunVersion i.version rfl rfl
    · rfl
    · simp only [hi]
      rfl
  · exact congrArg Host.Outcome.next (if_pos (atStep_due hstart hstep))
  · exact congrArg Host.Outcome.next (if_pos ⟨hstart, .inl ⟨.inl hkind, hstep⟩⟩)
  · refine congrArg Host.Outcome.next ((if_pos (atStep_due hstart hstep)).trans ?_)
    simp only [hsafe, Nat.zero_ne_one, if_false]
  · let s1 := flashWrite 0x30000 (trainBytes s identity data) (flashErase 0x30000 0x10000 (s.put F.bootStatusMemTrained 1))
    let s2 : State := { s1 with fw := { s1.fw with training := some (trainBytes s identity data) } }
    refine ⟨s2, rfl, rfl, State.get_put_same s F.bootStatusMemTrained 1 rfl,
      flash_erased_written 0x30000 0x10000 _ (s.put F.bootStatusMemTrained 1), ?_⟩
    exact congrArg Host.Outcome.next (if_pos (atStep_due hstart hstep))
  · refine congrArg Host.Outcome.next ((if_pos (atStep_due hstart hstep)).trans ?_)
    simp only [hkind, if_true]
  · refine congrArg Host.Outcome.next ((if_pos (atStep_due hstart hstep)).trans ?_)
    simp only [hkind, if_true, Bool.false_eq_true, if_false]
  · refine congrArg Host.Outcome.next ((if_pos (atStep_due hstart hstep)).trans ?_)
    simp only [hkind, true_or, if_true, he]
  · refine congrArg Host.Outcome.next ((if_pos (atStep_due hstart hstep)).trans ?_)
    simp only [hkind, true_or, if_true, hoks]
  · exact congrArg Host.Outcome.next (if_pos (atStep_due hstart hstep))
  · refine congrArg Host.Outcome.next ((if_pos (atStep_due hstart hstep)).trans ?_)
    simp only [show s.startKind ≠ 3 by omega, show s.startKind ≠ 4 by omega, show s.startKind ≠ 5 by omega, if_false, false_and]
  · intro v s1
    refine congrArg Host.Outcome.next ((if_pos (atStep_due hstart hstep)).trans ?_)
    simp only [hsafe, Nat.zero_ne_one, if_false, show s.startKind ≠ 3 by omega]
    rfl
  · exact (if_pos hstart).trans (congrArg Host.Outcome.next (if_pos (atStep_due hstart hstep)))
  · refine congrArg Host.Outcome.next ((if_pos (atStep_due hstart hstep)).trans ?_)
    have hshut : s.isShut 60 = false := by
      simp only [State.isOpen, beq_iff_eq] at hopen
      simp [State.isShut, hopen]
      decide
    simp only [hshut, Bool.false_eq_true, false_and, if_false]
  · obtain ⟨fl, hrun⟩ := ready_runs hstart hstep hkind hsafe hheld hevid
    obtain ⟨hready, hstep', -⟩ := readyRegs_shows s
    obtain ⟨hmem, hboot, hltr, hstatus⟩ := grantToken_keeps (readyState s fl)
    refine ⟨_, hrun, ?_, ?_, ?_, ?_, ?_, ?_⟩
    · rw [hboot]; rfl
    · exact (hstatus F.bootStatusReady rfl).trans hready
    · rw [hltr]; rfl
    · exact (hstatus F.bootStatusStep rfl).trans (hstep'.trans hstep)
    · rw [hmem]; rfl
    · rw [hboot]; rfl
  · exact congrArg Host.Outcome.next (if_pos ⟨hstart, hstep⟩)

end Sys2Proof
end

section
/-! PROOFS. A completion of fewer bytes than an entry's read asked for (spec/08 R209). -/
namespace Sys2Proof.Machine

/-- A read of the 64 bytes at the head of SQ 0. -/
def headRead : HostRead := ⟨0, 0, 0, 64, .entry 0, 0⟩

/-- SQ 0 is ENABLED and the read of its head is outstanding. -/
def readingHead : State :=
  let s := State.reset.put (F.sqStatusState 0) RING_ENABLED
  { s with host := { s.host with reads := [headRead] } }

theorem readingHead_enabled : readingHead.get (F.sqStatusState 0) = RING_ENABLED :=
  State.get_put_same State.reset (F.sqStatusState 0) RING_ENABLED rfl

/-- A completion without a byte for that read changes nothing. -/
theorem hostCompletion_readingHead : exec (.hostCompletion 0 (.data [])) readingHead = .next readingHead := rfl

end Sys2Proof.Machine

namespace Sys2Proof
open Sys2Proof.Machine

/-- Refutes O31: HOST_COMPLETION with fewer bytes than an entry's read asked for leaves the ring ENABLED and the read
outstanding; the model halts the ring at a completion without data, or at COMPLETION_TIMEOUT. -/
theorem not_entryEvents : ¬ Obligations.EntryEvents := by
  unfold Obligations.EntryEvents
  intro h
  obtain ⟨-, -, hread, -⟩ := h readingHead
  have hshort : ∀ bs, HostResult.data [] = .data bs → bs.length ≠ headRead.len := by
    rintro _ ⟨⟩
    decide
  obtain ⟨t, hrun, -, hhalted, -⟩ := hread headRead 0 (.data []) rfl rfl (by decide) readingHead_enabled hshort
  have ht : readingHead = t := Host.Outcome.next.inj (hostCompletion_readingHead.symm.trans hrun)
  rw [← ht, readingHead_enabled] at hhalted
  exact absurd hhalted (by decide)

end Sys2Proof
end

section
/-! PROOFS. MCTP control and PLDM requests (spec/09 R233-R237). -/
namespace Sys2Proof.Machine

/-- The state `t` differs from `s` in one response, whose message begins with `m`. -/
def Answered (s t : State) (who : Requester) (m : List Byte) : Prop :=
  t.mem = s.mem ∧ t.mgmt.partials = s.mgmt.partials ∧ (∀ o, o ≠ R.mgmtCount1 → o ≠ R.mgmtCfg → t.rd o = s.rd o) ∧
    ∃ r, t.mgmt.sent = r :: s.mgmt.sent ∧ r.who = who ∧ r.lost = 0 ∧ m <+: r.msg

/-- A response sent from a state that differs from `s` in its free numbers alone. -/
theorem answered_sendResponse {s u : State} {m msg : List Byte} (who : Requester) (hu : u = { s with fresh := u.fresh })
    (hm : m <+: msg) : Answered s (sendResponse who msg u) who m := by
  have hmem : u.mem = s.mem := by rw [hu]
  have hmgmt : u.mgmt = s.mgmt := by rw [hu]
  have hregs : u.regs = s.regs := by rw [hu]
  let ps := respPackets who (u.get F.mgmtCfgAddr) (u.get F.mgmtCfgEid) 32 0 true msg
  refine ⟨hmem, congrArg (fun x => x.partials) hmgmt, fun o ho _ => ?_, ⟨⟨who, msg, ps, 0⟩, ?_, rfl, rfl, hm⟩⟩
  · refine (State.rd_put_ne _ F.mgmtCount1Messages _ _ ho).trans ?_
    show cellGet coldWord u.regs o = cellGet coldWord s.regs o
    rw [hregs]
  · rw [← hmgmt]
    rfl

section
variable {s : State} {who : Requester} {inst : Byte} {body m : List Byte} (hopen : s.isOpen 2 = true)
  (hwait : s.mgmt.requests = [])
include hopen hwait

theorem takeTurn_serves (msg : List Byte) (act : State → State) : takeTurn who msg act s = act s := by
  simp only [takeTurn, hopen, hwait, Bool.not_true, Bool.false_eq_true, if_false]

/-- A control request of the right length is answered with what its command finds. -/
theorem serveCtl_runs {cmd n : Nat} (hlen : body.length = n) (f : State → (Nat × List Byte) × State) :
    serveCtl who inst cmd body (sized n body f) s = .next (answerCtl who inst cmd (f s).1.1 (f s).1.2 (f s).2) := by
  have hsized : sized n body f s = f s := if_neg (Classical.not_not.mpr hlen)
  rw [serveCtl, takeTurn_serves hopen hwait, hsized]

theorem servePldm_runs {type cmd n : Nat} (hlen : body.length = n) (f : State → (Nat × List Byte) × State) :
    servePldm who inst type cmd body (sized n body f) s = .next (answerPldm who inst type cmd (f s).1.1 (f s).1.2 (f s).2) := by
  have hsized : sized n body f s = f s := if_neg (Classical.not_not.mpr hlen)
  rw [servePldm, takeTurn_serves hopen hwait, hsized]

/-- What a control command answers that finds `cc` and `data` and changes nothing but the free numbers. -/
theorem serveCtl_answers {cmd n cc : Nat} (hlen : body.length = n) (f : State → (Nat × List Byte) × State) {data : List Byte} {u : State}
    (hf : f s = ((cc, data), u)) (hu : u = { s with fresh := u.fresh })
    (hm : m <+: [0x00, byteOf (inst.toNat % 32), byteOf cmd, byteOf cc] ++ data) :
    ∃ t, serveCtl who inst cmd body (sized n body f) s = .next t ∧ Answered s t who m := by
  refine ⟨_, serveCtl_runs hopen hwait hlen f, ?_⟩
  rw [hf]
  exact answered_sendResponse who hu hm

theorem servePldm_answers {type cmd n cc : Nat} (hlen : body.length = n) (f : State → (Nat × List Byte) × State) {data : List Byte}
    {u : State} (hf : f s = ((cc, data), u)) (hu : u = { s with fresh := u.fresh })
    (hm : m <+: [0x01, byteOf (inst.toNat % 32), byteOf type, byteOf cmd, byteOf cc] ++ data) :
    ∃ t, servePldm who inst type cmd body (sized n body f) s = .next t ∧ Answered s t who m := by
  refine ⟨_, servePldm_runs hopen hwait hlen f, ?_⟩
  rw [hf]
  exact answered_sendResponse who hu hm

end

theorem drawBytes_fresh (n : Nat) (s : State) : (drawBytes n s).2 = { s with fresh := (drawBytes n s).2.fresh } := by
  induction n generalizing s with
  | zero => rfl
  | succ n ih => exact ih s.draw.2

/-- The temperature sensors' ids (Table 9.4). -/
theorem sensor_ids : ∀ k : Fin 12, bytesAt [BitVec.ofNat 8 (k + 2), 0x00, 0] 0 2 = k + 2 ∧
    numericSensors.find? (fun e => e.1 = k.val + 2) = some (k.val + 2, 3) := by decide

end Sys2Proof.Machine

namespace Sys2Proof
open Sys2Proof.Machine

/-- Settles O35: with no request waiting, each command's turn has come, and it answers what its table says. -/
theorem controlAndPldmRequests : Obligations.ControlAndPldmRequests := by
  unfold Obligations.ControlAndPldmRequests
  intro s who inst hopen hwait i answers
  refine ⟨fun op eid hop h0 hff => ?_, fun op eid hop => ?_, ?_, ?_, ?_, ?_, ?_, ?_, fun tid h0 hff => ?_, ?_, ?_, ?_, ?_, ?_, ?_,
    fun k hk => ?_, ?_, ?_, fun n => ?_⟩
  · have heid0 : eid.toNat ≠ 0 := fun h => h0 (BitVec.eq_of_toNat_eq h)
    have heidff : eid.toNat ≠ 0xFF := fun h => hff (BitVec.eq_of_toNat_eq h)
    have hgood : ¬ (2 ≤ op.toNat % 4 ∨ eid.toNat = 0 ∨ eid.toNat = 0xFF) := by omega
    let u := s.put F.mgmtCfgEid eid.toNat
    let msg : List Byte := [0x00, i, 0x01, 0x00, 0x00, byteOf eid.toNat, 0x00]
    have hrun : exec (.setEndpointId who inst [op, eid]) s = .next (sendResponse who msg u) := by
      refine (serveCtl_runs hopen hwait rfl _).trans ?_
      simp only [List.getD_cons_zero, List.getD_cons_succ, hgood, if_false]
      rfl
    refine ⟨_, hrun, ?_, rfl, ⟨who, msg, respPackets who (u.get F.mgmtCfgAddr) (u.get F.mgmtCfgEid) 32 0 true msg, 0⟩, rfl, rfl, ?_⟩
    · exact (State.get_wr_ne _ _ _ F.mgmtCfgEid (by decide)).trans
        ((State.get_put_same s F.mgmtCfgEid _ rfl).trans (Nat.mod_eq_of_lt eid.isLt))
    · simp only [msg, byteOf, BitVec.ofNat_toNat, BitVec.setWidth_eq]
  · exact serveCtl_answers hopen hwait rfl _ (if_pos (.inl hop)) rfl ⟨_, rfl⟩
  · exact serveCtl_answers hopen hwait rfl _ rfl rfl ⟨_, rfl⟩
  · exact serveCtl_answers hopen hwait rfl _ rfl rfl ⟨[], List.append_nil _⟩
  · exact serveCtl_answers hopen hwait rfl _ rfl rfl ⟨_, rfl⟩
  · exact serveCtl_answers hopen hwait rfl _ rfl rfl ⟨_, rfl⟩
  · exact serveCtl_answers hopen hwait rfl _ rfl rfl ⟨_, rfl⟩
  · exact serveCtl_answers hopen hwait rfl _ rfl rfl ⟨_, rfl⟩
  · have htid0 : tid.toNat ≠ 0 := fun h => h0 (BitVec.eq_of_toNat_eq h)
    have htidff : tid.toNat ≠ 0xFF := fun h => hff (BitVec.eq_of_toNat_eq h)
    have hgood : ¬ (tid.toNat = 0 ∨ tid.toNat = 0xFF) := by omega
    let u : State := { s with mgmt := { s.mgmt with tid := tid.toNat } }
    let msg : List Byte := [0x01, i, 0x00, 0x01, 0x00]
    have hrun : exec (.setTid who inst [tid]) s = .next (sendResponse who msg u) := by
      refine (servePldm_runs hopen hwait rfl _).trans ?_
      simp only [List.getD_cons_zero, hgood, if_false]
      rfl
    exact ⟨_, hrun, rfl, rfl, ⟨who, msg, respPackets who (u.get F.mgmtCfgAddr) (u.get F.mgmtCfgEid) 32 0 true msg, 0⟩, rfl, rfl, rfl⟩
  · exact servePldm_answers hopen hwait rfl _ rfl rfl ⟨_, rfl⟩
  · exact servePldm_answers hopen hwait rfl _ rfl rfl ⟨_, rfl⟩
  · exact servePldm_answers hopen hwait rfl _ rfl rfl ⟨_, rfl⟩
  · exact servePldm_answers hopen hwait rfl _ rfl rfl ⟨_, rfl⟩
  · exact servePldm_answers hopen hwait rfl _ rfl rfl ⟨_, rfl⟩
  · exact servePldm_answers hopen hwait rfl _ rfl (drawBytes_fresh 3 s) ⟨_, rfl⟩
  · obtain ⟨hid, hfind⟩ := sensor_ids k
    have hlow : k.val + 2 ≠ 1 := by omega
    have hhigh : k.val + 2 ≤ 13 := by omega
    have hreading : s.numericReading (k + 2) = none := by
      simp only [State.numericReading, hlow, hhigh, Nat.add_sub_cancel, hk, if_false, if_true]
    let d := drawBytes 3 s
    let u := drawBytes 2 d.2
    have hfresh : u.2 = { s with fresh := u.2.fresh } :=
      (drawBytes_fresh 2 d.2).trans (congrArg (fun x : State => { x with fresh := u.2.fresh }) (drawBytes_fresh 3 s))
    refine servePldm_answers hopen hwait rfl _ (cc := 0) (data := [byteOf 3, 0x02, 0x00] ++ d.1 ++ u.1) ?_ hfresh ⟨d.1 ++ u.1, rfl⟩
    simp only [hid, hfind, hreading]
    rfl
  · exact servePldm_answers hopen hwait rfl _ rfl (drawBytes_fresh 2 s) ⟨_, rfl⟩
  · let d := drawBytes 1 s
    have hcount : leBytes 4 pdrs.length = [20, 0, 0, 0] := by decide
    refine servePldm_answers hopen hwait rfl _ (cc := 0) (data := [0x00] ++ List.replicate 26 0 ++ leBytes 4 pdrs.length ++
      leBytes 4 pdrSizes.sum ++ leBytes 4 (pdrSizes.foldl max 0) ++ d.1) rfl (drawBytes_fresh 1 s) ?_
    refine ⟨leBytes 4 pdrSizes.sum ++ leBytes 4 (pdrSizes.foldl max 0) ++ d.1, ?_⟩
    rw [hcount]
    simp only [List.append_assoc]
    rfl
  · exact servePldm_answers hopen hwait rfl _ rfl rfl ⟨_, rfl⟩

end Sys2Proof
end

section
/-! PROOFS. What a trip leaves of the boot flash and the queue (spec/06 R151-R153): the operations that it runs - an entry
abandoned, islands powered down and their units closed - write neither. One equation per operation, in the order of the
model's files. -/
namespace Sys2Proof.Machine

/-- The boot flash and the queue of a state. -/
def State.kept (s : State) : Memory × List Instr := (s.mem.flash, s.pending)

/-- The boot flash and the queue of the state that an operation with a result leaves. -/
def keptAfter {α : Type} (x : α × State) : Memory × List Instr := x.2.kept

@[simp] theorem flash_pending (s : State) : (s.mem.flash, s.pending) = s.kept := by rw [State.kept]
@[simp] theorem kept_snd {α : Type} (x : α × State) : x.2.kept = keptAfter x := by rw [keptAfter]
@[simp] theorem keptAfter_mk {α : Type} (a : α) (s : State) : keptAfter (a, s) = s.kept := by rw [keptAfter]
@[simp] theorem kept_mk (regs isl mem mmu host fw plan boot board pwr fence hose bed rake furrow mgmt disp switch intake
    nand evid acou tap timeUs fresh pending) :
    State.kept ⟨regs, isl, mem, mmu, host, fw, plan, boot, board, pwr, fence, hose, bed, rake, furrow, mgmt, disp, switch,
      intake, nand, evid, acou, tap, timeUs, fresh, pending⟩ = (mem.flash, pending) := by rw [State.kept]
@[simp] theorem kept_ite (c : Prop) [Decidable c] (s t : State) :
    (if c then s else t).kept = if c then s.kept else t.kept := apply_ite ..
@[simp] theorem keptAfter_ite {α : Type} (c : Prop) [Decidable c] (x y : α × State) :
    keptAfter (if c then x else y) = if c then keptAfter x else keptAfter y := apply_ite ..
@[simp] theorem kept_each {α : Type} (s : State) (l : List α) (f : α → State → State)
    (h : ∀ a t, (f a t).kept = t.kept) : (s.each l f).kept = s.kept := State.each_keeps State.kept f h l s
@[simp] theorem kept_when (s : State) (c : Bool) (f : State → State)
    (h : ∀ t, (f t).kept = t.kept) : (s.when c f).kept = s.kept := by
  unfold State.when; split <;> simp [h]
@[simp] theorem kept_puts (s : State) (l : List (Field × Nat)) : (s.puts l).kept = s.kept := by
  rw [State.kept, State.mem_puts, State.pending_puts, State.kept]


/-! Machine/Ops -/

@[simp] theorem kept_wr (s : State) (off) (v) : (State.wr s off v).kept = s.kept := by simp [State.wr]
@[simp] theorem kept_put (s : State) (f) (v) : (State.put s f v).kept = s.kept := by simp [State.put]
@[simp] theorem kept_bump (s : State) (f) (n) : (State.bump s f n).kept = s.kept := by simp [State.bump]
@[simp] theorem kept_bump32 (s : State) (off) (n) : (State.bump32 s off n).kept = s.kept := by simp [State.bump32]
@[simp] theorem kept_wrap32 (s : State) (off) (n) : (State.wrap32 s off n).kept = s.kept := by simp [State.wrap32]
@[simp] theorem kept_wr64 (s : State) (off) (v) : (State.wr64 s off v).kept = s.kept := by simp [State.wr64]
@[simp] theorem kept_draw (s : State) : keptAfter (State.draw s) = s.kept := by simp [State.draw]
@[simp] theorem kept_setFn (s : State) (f) (p) : (State.setFn s f p).kept = s.kept := by simp [State.setFn]
@[simp] theorem kept_sendMsi (f) (v) (s : State) : (sendMsi f v s).kept = s.kept := by simp [sendMsi]
@[simp] theorem kept_setEvent (b) (s : State) : (setEvent b s).kept = s.kept := by simp [setEvent]
@[simp] theorem kept_setRingEvent (f) (s : State) : (setRingEvent f s).kept = s.kept := by simp [setRingEvent]
@[simp] theorem kept_setGlobal (f) (s : State) : (setGlobal f s).kept = s.kept := by simp [setGlobal]
@[simp] theorem kept_hostWrite (f) (addr) (bs) (s : State) : (hostWrite f addr bs s).kept = s.kept := by
  simp [hostWrite]

/-! Machine/Phys -/

@[simp] theorem kept_putDramUnit (pa) (k) (poisoned) (d) (s : State) :
    (putDramUnit pa k poisoned d s).kept = s.kept := by
  simp [putDramUnit]
@[simp] theorem kept_urgentReason (uid) (code) (s : State) : (urgentReason uid code s).kept = s.kept := by
  simp [urgentReason]
@[simp] theorem kept_reasonFor (code) (sq) (plot) (s : State) : (reasonFor code sq plot s).kept = s.kept := by
  simp [reasonFor]
@[simp] theorem kept_countUnits (ch) (cls) (n) (s : State) : (countUnits ch cls n s).kept = s.kept := by
  simp [countUnits]
@[simp] theorem kept_refreshDirty (s : State) : (refreshDirty s).kept = s.kept := by simp [refreshDirty]
@[simp] theorem kept_putLine (l) (s : State) : (putLine l s).kept = s.kept := by simp [putLine]
@[simp] theorem kept_dropLine (pa) (s : State) : (dropLine pa s).kept = s.kept := by simp [dropLine]
@[simp] theorem kept_writeBack (l) (s : State) : (writeBack l s).kept = s.kept := by simp [writeBack]
@[simp] theorem kept_evict (l) (s : State) : (evict l s).kept = s.kept := by
  unfold evict
  dsimp only
  split <;> simp
@[simp] theorem kept_allocWay (sl) (set) (s : State) : keptAfter (allocWay sl set s) = s.kept := by
  unfold allocWay
  dsimp only
  (repeat' split) <;> simp
@[simp] theorem kept_placeLine (pa) (s : State) : keptAfter (placeLine pa s) = s.kept := by
  unfold placeLine
  split <;> simp
@[simp] theorem kept_fetchLine (q) (pa) (s : State) : keptAfter (fetchLine q pa s) = s.kept := by simp [fetchLine]
@[simp] theorem kept_refreshLock (sl) (k) (s : State) : (refreshLock sl k s).kept = s.kept := by simp [refreshLock]
@[simp] theorem kept_insertLine (q) (pa) (pre) (d) (s : State) : (insertLine q pa pre d s).kept = s.kept := by
  unfold insertLine
  dsimp only
  (repeat' split) <;> simp
@[simp] theorem kept_prefetchNext (q) (pa) (s : State) : (prefetchNext q pa s).kept = s.kept := by
  simp [prefetchNext]
@[simp] theorem kept_islandReset (n) (s : State) : keptAfter (islandReset n s) = s.kept := by simp [islandReset]
@[simp] theorem kept_lookupLine (q) (pa) (s : State) : keptAfter (lookupLine q pa s) = s.kept := by
  unfold lookupLine
  dsimp only
  (repeat' split) <;> simp
@[simp] theorem kept_giveLine (q) (pa) (d) (s : State) : keptAfter (giveLine q pa d s) = s.kept := by
  simp [giveLine]
@[simp] theorem kept_fillLine (q) (pa) (s : State) : keptAfter (fillLine q pa s) = s.kept := by simp [fillLine]
@[simp] theorem kept_lineFor (q) (whole) (pa) (s : State) : keptAfter (lineFor q whole pa s) = s.kept := by
  unfold lineFor
  dsimp only
  split <;> simp
@[simp] theorem kept_denied (pa) (s : State) : keptAfter (denied pa s) = s.kept := by simp [denied]
@[simp] theorem kept_readFrom (l) (o) (n) (s : State) : keptAfter (readFrom l o n s) = s.kept := by simp [readFrom]
@[simp] theorem kept_writeInto (q) (l) (o) (bs) (s : State) : (writeInto q l o bs s).kept = s.kept := by
  simp [writeInto]
@[simp] theorem kept_answerMem (island) (r) (s : State) : (answerMem island r s).kept = s.kept := by
  simp [answerMem]
@[simp] theorem kept_performFill (f) (s : State) : (performFill f s).kept = s.kept := by
  unfold performFill
  (repeat' split) <;> simp
@[simp] theorem kept_performFills (base) (s : State) : (performFills base s).kept = s.kept := by
  simp [performFills]
@[simp] theorem kept_abortFills (n) (p) (s : State) : (abortFills n p s).kept = s.kept := by simp [abortFills]
@[simp] theorem kept_readInLine (q0) (pa) (n) (s0 : State) : keptAfter (readInLine q0 pa n s0) = s0.kept := by
  unfold readInLine
  dsimp only
  (repeat' split) <;> simp
@[simp] theorem kept_writeInLine (q0) (pa) (bs) (s0 : State) : keptAfter (writeInLine q0 pa bs s0) = s0.kept := by
  unfold writeInLine
  dsimp only
  (repeat' split) <;> simp
@[simp] theorem kept_bedAccess (q) (n) (off) (len) (write) (s : State) :
    keptAfter (bedAccess q n off len write s) = s.kept := by
  simp [bedAccess]
@[simp] theorem kept_readLines (q) (x1) (x2) (x3) (x4 : State) :
    keptAfter (readLines q x1 x2 x3 x4) = x4.kept := by
  fun_induction readLines <;> simp +zetaDelta [*]
@[simp] theorem kept_writeLines (q) (x1) (x2) (x3) (x4 : State) :
    keptAfter (writeLines q x1 x2 x3 x4) = x4.kept := by
  fun_induction writeLines <;> simp +zetaDelta [*]
@[simp] theorem kept_physRead (q) (pa) (n) (s : State) : keptAfter (physRead q pa n s) = s.kept := by
  unfold physRead
  dsimp only
  (repeat' split) <;> simp
@[simp] theorem kept_physWrite (q) (pa) (bs) (s : State) : keptAfter (physWrite q pa bs s) = s.kept := by
  unfold physWrite
  dsimp only
  (repeat' split) <;> simp

/-! Machine/Walk -/

@[simp] theorem kept_tableEntry (q) (fn) (hostSpace) (addr) (s : State) :
    keptAfter (tableEntry q fn hostSpace addr s) = s.kept := by
  unfold tableEntry
  dsimp only
  (repeat' split) <;> simp
@[simp] theorem kept_walkFrom (q fn allot hs va l tb) (s : State) :
    keptAfter (walkFrom q fn allot hs va l tb s) = s.kept := by
  induction l generalizing tb s with
  | zero =>
    rw [walkFrom]
    dsimp only
    (repeat' split) <;> simp
  | succ l ih =>
    rw [walkFrom]
    dsimp only
    (repeat' split) <;> simp [ih]
@[simp] theorem kept_cacheEntry (t) (s : State) : (cacheEntry t s).kept = s.kept := by simp [cacheEntry]
@[simp] theorem kept_translate (q) (fn) (allot) (va) (a) (pinned) (s : State) :
    keptAfter (translate q fn allot va a pinned s) = s.kept := by
  unfold translate
  dsimp only
  (repeat' split) <;> simp
@[simp] theorem kept_vaReadFrom (q fn allot a pinned fuel va n) (s : State) :
    keptAfter (vaReadFrom q fn allot a pinned fuel va n s) = s.kept := by
  induction fuel generalizing va n s with
  | zero => simp [vaReadFrom]
  | succ fuel ih =>
    unfold vaReadFrom
    dsimp only
    (repeat' split) <;> simp [ih]
@[simp] theorem kept_vaRead (q) (fn) (allot) (va) (n) (a) (pinned) (s : State) :
    keptAfter (vaRead q fn allot va n a pinned s) = s.kept := by
  simp [vaRead]
@[simp] theorem kept_vaWriteFrom (q) (fn) (allot) (pinned) (x4) (x5) (x6) (x7 : State) :
    keptAfter (vaWriteFrom q fn allot pinned x4 x5 x6 x7) = x7.kept := by
  fun_induction vaWriteFrom <;> simp +zetaDelta [*]
@[simp] theorem kept_vaWrite (q) (fn) (allot) (va) (bs) (pinned) (s : State) :
    keptAfter (vaWrite q fn allot va bs pinned s) = s.kept := by
  simp [vaWrite]
@[simp] theorem kept_putBatch (b) (s : State) : (putBatch b s).kept = s.kept := by simp [putBatch]
@[simp] theorem kept_refreshRing (fn) (s : State) : (refreshRing fn s).kept = s.kept := by simp [refreshRing]
@[simp] theorem kept_writeRecords (fn number i rs) (s : State) : (writeRecords fn number i rs s).kept = s.kept := by
  induction rs generalizing i s with
  | nil => simp [writeRecords]
  | cons r rs ih => simp [writeRecords, ih]
@[simp] theorem kept_writeBatch (fn) (s : State) : (writeBatch fn s).kept = s.kept := by
  unfold writeBatch
  split <;> simp
@[simp] theorem kept_closeBatch (fn) (s : State) : (closeBatch fn s).kept = s.kept := by
  unfold closeBatch
  split <;> simp
@[simp] theorem kept_joinBatch (fn) (r) (s : State) : (joinBatch fn r s).kept = s.kept := by
  unfold joinBatch
  dsimp only
  (repeat' split) <;> simp
@[simp] theorem kept_reportFault (fn) (r) (s : State) : keptAfter (reportFault fn r s) = s.kept := by
  simp [reportFault]
@[simp] theorem kept_unstall (st) (s : State) : (unstall st s).kept = s.kept := by simp [unstall]

/-! Machine/Complete -/

@[simp] theorem kept_haltCq (r) (reason) (s : State) : (haltCq r reason s).kept = s.kept := by simp [haltCq]
@[simp] theorem kept_disableSq (r) (s : State) : (disableSq r s).kept = s.kept := by simp [disableSq]
@[simp] theorem kept_cqWrite (r) (slot) (bs) (s : State) : keptAfter (cqWrite r slot bs s) = s.kept := by
  simp [cqWrite]
@[simp] theorem kept_signalCq (r) (now) (s : State) : (signalCq r now s).kept = s.kept := by simp [signalCq]
@[simp] theorem kept_countFull (r) (s : State) : (countFull r s).kept = s.kept := by simp [countFull]
@[simp] theorem kept_writeCompletion (c) (s : State) : (writeCompletion c s).kept = s.kept := by
  unfold writeCompletion
  dsimp only
  split <;> simp
@[simp] theorem kept_postCompletion (c) (s : State) : (postCompletion c s).kept = s.kept := by
  simp [postCompletion]
@[simp] theorem kept_settleSq (r) (s : State) : (settleSq r s).kept = s.kept := by simp [settleSq]
@[simp] theorem kept_completeEntry (uid) (r) (s : State) : (completeEntry uid r s).kept = s.kept := by
  unfold completeEntry
  split <;> simp
@[simp] theorem kept_completeHead (sq) (tag) (cls) (irqNow) (r) (s : State) :
    (completeHead sq tag cls irqNow r s).kept = s.kept := by
  simp [completeHead]

/-! Machine/Link -/

@[simp] theorem kept_closeDisplay (s : State) : (closeDisplay s).kept = s.kept := by simp [closeDisplay]

/-! Machine/Close -/

@[simp] theorem kept_resetRegs (kept) (named) (s : State) : (resetRegs kept named s).kept = s.kept := by
  simp [resetRegs]
@[simp] theorem kept_wakeRegs (n) (s : State) : (wakeRegs n s).kept = s.kept := by simp [wakeRegs]
@[simp] theorem kept_recordClose (n) (cause) (s : State) : (recordClose n cause s).kept = s.kept := by
  simp [recordClose]
@[simp] theorem kept_answerError (status) (cause) (t) (s : State) :
    (answerError status cause t s).kept = s.kept := by
  simp [answerError]
@[simp] theorem kept_answerPending (n) (s : State) : (answerPending n s).kept = s.kept := by simp [answerPending]
@[simp] theorem kept_clearBedMem (n) (s : State) : (clearBedMem n s).kept = s.kept := by simp [clearBedMem]
@[simp] theorem kept_loseSlice (sl) (cause) (s : State) : (loseSlice sl cause s).kept = s.kept := by
  simp [loseSlice]
@[simp] theorem kept_freeLease (l) (s : State) : (freeLease l s).kept = s.kept := by simp [freeLease]
@[simp] theorem kept_grantNext (l) (s : State) : (grantNext l s).kept = s.kept := by
  unfold grantNext
  (repeat' split) <;> simp
@[simp] theorem kept_leaseEnded (l) (s : State) : (leaseEnded l s).kept = s.kept := by simp [leaseEnded]
@[simp] theorem kept_forceLeases (n) (s : State) : (forceLeases n s).kept = s.kept := by simp [forceLeases]
@[simp] theorem kept_loseIsland60 (s : State) : (loseIsland60 s).kept = s.kept := by simp [loseIsland60]

/-! Machine/Transfers -/

@[simp] theorem kept_refreshChannel (e) (c) (s : State) : (refreshChannel e c s).kept = s.kept := by
  unfold refreshChannel
  dsimp only
  split <;> simp
@[simp] theorem kept_putTransfer (t) (s : State) : (putTransfer t s).kept = s.kept := by simp [putTransfer]
@[simp] theorem kept_dropTransfer (e) (c) (uid) (s : State) : (dropTransfer e c uid s).kept = s.kept := by
  simp [dropTransfer]
@[simp] theorem kept_startNext (e) (c) (s : State) : (startNext e c s).kept = s.kept := by
  unfold startNext
  split <;> simp
@[simp] theorem kept_endTransfer (e) (c) (r) (s : State) : (endTransfer e c r s).kept = s.kept := by
  unfold endTransfer
  split <;> simp
@[simp] theorem kept_setBed (n) (b) (s : State) : (setBed n b s).kept = s.kept := by simp [setBed]
@[simp] theorem kept_closeHose (e) (s : State) : (closeHose e s).kept = s.kept := by simp [closeHose]

/-! Machine/Waves -/

@[simp] theorem kept_putOrder (o) (s : State) : (putOrder o s).kept = s.kept := by simp [putOrder]
@[simp] theorem kept_refreshBed (n) (s : State) : (refreshBed n s).kept = s.kept := by simp [refreshBed]
@[simp] theorem kept_changeBed (n) (f) (s : State) : (changeBed n f s).kept = s.kept := by simp [changeBed]
@[simp] theorem kept_stopTiles (uid) (s : State) : (stopTiles uid s).kept = s.kept := by simp [stopTiles]
@[simp] theorem kept_clearOrderStall (uid) (s : State) : (clearOrderStall uid s).kept = s.kept := by
  simp [clearOrderStall]
@[simp] theorem kept_recordUrgent (uid) (s : State) : (recordUrgent uid s).kept = s.kept := by
  unfold recordUrgent
  split <;> simp
@[simp] theorem kept_putJob (j) (s : State) : (putJob j s).kept = s.kept := by simp [putJob]
@[simp] theorem kept_refreshRake (s : State) : (refreshRake s).kept = s.kept := by
  unfold refreshRake
  dsimp only
  split <;> simp
@[simp] theorem kept_startBinning (s : State) : (startBinning s).kept = s.kept := by
  fun_cases startBinning <;> simp
@[simp] theorem kept_dropJob (uid) (s : State) : (dropJob uid s).kept = s.kept := by simp [dropJob]
@[simp] theorem kept_endOrder (uid) (word) (s : State) : (endOrder uid word s).kept = s.kept := by
  unfold endOrder
  split <;> simp
@[simp] theorem kept_endAtBoundary (uid) (word) (s : State) : (endAtBoundary uid word s).kept = s.kept := by
  unfold endAtBoundary
  split <;> simp
@[simp] theorem kept_closeBed (n) (s : State) : (closeBed n s).kept = s.kept := by simp [closeBed]

/-! Machine/WorkOrder -/

@[simp] theorem kept_finishEntry (uid) (word) (count) (s : State) :
    (finishEntry uid word count s).kept = s.kept := by
  simp [finishEntry]

/-! Machine/Codec -/

@[simp] theorem kept_compressFrom (fn allot d cap fuel units w) (s : State) :
    keptAfter (compressFrom fn allot d cap fuel units w s).2 = s.kept := by
  induction fuel generalizing units w s with
  | zero => simp [compressFrom]
  | succ fuel ih =>
    rw [compressFrom]
    dsimp only
    split
    · split <;> simp
    · split
      · simp
      · split
        · simp
        · (repeat' split) <;> simp [ih]
@[simp] theorem kept_copyRows (fn) (allot) (d) (dist) (x4) (x5) (x6) (x7 : State) :
    keptAfter (copyRows fn allot d dist x4 x5 x6 x7) = x7.kept := by
  fun_induction copyRows <;> simp +zetaDelta [*]
@[simp] theorem kept_putRaw (fn) (allot) (d) (pos) (bs) (s : State) :
    keptAfter (putRaw fn allot d pos bs s) = s.kept := by
  unfold putRaw
  dsimp only
  split <;> simp
@[simp] theorem kept_decompressFrom (fn allot d chunk fuel units rest w) (s : State) :
    keptAfter (decompressFrom fn allot d chunk fuel units rest w s).2 = s.kept := by
  induction fuel generalizing units rest w s with
  | zero => simp [decompressFrom]
  | succ fuel ih =>
    rw [decompressFrom]
    dsimp only
    split
    all_goals (repeat' split) <;> simp [ih]

/-! Machine/Furrow -/

@[simp] theorem kept_refreshFurrow (s : State) : (refreshFurrow s).kept = s.kept := by simp [refreshFurrow]
@[simp] theorem kept_endFurrow (uid) (word) (count) (s : State) : (endFurrow uid word count s).kept = s.kept := by
  unfold endFurrow
  split <;> simp
@[simp] theorem kept_putFurrowCount (uid) (count) (s : State) : (putFurrowCount uid count s).kept = s.kept := by
  simp [putFurrowCount]
@[simp] theorem kept_failFurrow (j) (e) (a) (count) (s : State) : (failFurrow j e a count s).kept = s.kept := by
  unfold failFurrow
  dsimp only
  (repeat' split) <;> simp
@[simp] theorem kept_closeFurrow (j) (status) (detail) (w) (word) (s : State) :
    (closeFurrow j status detail w word s).kept = s.kept := by
  unfold closeFurrow
  dsimp only
  (repeat' split) <;> simp
@[simp] theorem kept_workFurrow (j) (st) (units) (word) (s : State) :
    (workFurrow j st units word s).kept = s.kept := by
  unfold workFurrow
  dsimp only
  (repeat' split) <;> simp
@[simp] theorem kept_runFurrow (j) (units) (word) (s : State) : (runFurrow j units word s).kept = s.kept := by
  unfold runFurrow
  dsimp only
  (repeat' split) <;> simp
@[simp] theorem kept_closeFurrows (s : State) : (closeFurrows s).kept = s.kept := by
  unfold closeFurrows
  dsimp only
  split <;> simp

/-! Machine/Store -/

@[simp] theorem kept_setBlock (b) (s : State) : (setBlock b s).kept = s.kept := by simp [setBlock]
@[simp] theorem kept_programAt (u) (p) (pages) (s : State) : (programAt u p pages s).kept = s.kept := by
  simp [programAt]
@[simp] theorem kept_checkpoint (s : State) : (checkpoint s).kept = s.kept := by simp [checkpoint]
@[simp] theorem kept_journal (r) (s : State) : (journal r s).kept = s.kept := by simp [journal]
@[simp] theorem kept_onSuper (f) (s : State) : (onSuper f s).kept = s.kept := by simp [onSuper]
@[simp] theorem kept_storeEvent (s : State) : (storeEvent s).kept = s.kept := by simp [storeEvent]
@[simp] theorem kept_showQueue (s : State) : (showQueue s).kept = s.kept := by simp [showQueue]
@[simp] theorem kept_showMedium (b) (s : State) : (showMedium b s).kept = s.kept := by simp [showMedium]
@[simp] theorem kept_showStore (before) (s : State) : (showStore before s).kept = s.kept := by
  unfold showStore
  (repeat' split) <;> simp
@[simp] theorem kept_changeReq (uid) (f) (s : State) : (changeReq uid f s).kept = s.kept := by simp [changeReq]
@[simp] theorem kept_endEvid (uid) (word) (count) (s : State) : (endEvid uid word count s).kept = s.kept := by
  simp [endEvid]
@[simp] theorem kept_endAtUnit (r) (word) (s : State) : (endAtUnit r word s).kept = s.kept := by simp [endAtUnit]
@[simp] theorem kept_failEvid (r) (a) (e) (s : State) : (failEvid r a e s).kept = s.kept := by
  unfold failEvid
  dsimp only
  (repeat' split) <;> simp
@[simp] theorem kept_findHead (r) (s : State) : (findHead r s).kept = s.kept := by
  fun_cases findHead <;> simp

-- The lets are made opaque one after another, so that no check of a proof runs the accesses that they name.
@[simp] theorem kept_copyRecord (r x) (s : State) : (copyRecord r x s).kept = s.kept := by
  generalize hdef : copyRecord = f
  delta copyRecord at hdef
  subst hdef
  dsimp -zeta only
  extract_lets +onlyGivenNames rd
  have hrd : keptAfter rd = s.kept := kept_physRead ..
  clear_value rd
  split
  · simp [hrd]
  · extract_lets +onlyGivenNames pos
    clear_value pos
    extract_lets +onlyGivenNames base
    clear_value base
    extract_lets +onlyGivenNames w
    have hw : keptAfter w = s.kept := by rw [kept_vaWrite, kept_snd, hrd]
    clear_value w
    split <;> simp [hw]
@[simp] theorem kept_copyRecords (uid) (x1) (x2 : State) : (copyRecords uid x1 x2).kept = x2.kept := by
  fun_induction copyRecords <;> simp [*]
@[simp] theorem kept_makeRoom (v) (keep) (x2) (x3 : State) : keptAfter (makeRoom v keep x2 x3) = x3.kept := by
  fun_induction makeRoom <;> simp [*]
@[simp] theorem kept_programUnit (r) (n) (s : State) : (programUnit r n s).kept = s.kept := by
  unfold programUnit
  dsimp only
  (repeat' split) <;> simp
@[simp] theorem kept_goAppendMem (r) (s : State) : (goAppendMem r s).kept = s.kept := by
  unfold goAppendMem
  dsimp only
  (repeat' split) <;> simp
@[simp] theorem kept_goAppendPkt (r0) (s0 : State) : (goAppendPkt r0 s0).kept = s0.kept := by
  unfold goAppendPkt
  dsimp only
  split <;> simp
@[simp] theorem kept_goRead (r) (s : State) : (goRead r s).kept = s.kept := by
  unfold goRead
  dsimp only
  (repeat' split) <;> simp
@[simp] theorem kept_wipeNext (ce) (s : State) : (wipeNext ce s).kept = s.kept := by
  fun_cases wipeNext <;> simp
@[simp] theorem kept_startFormat (r) (s : State) : (startFormat r s).kept = s.kept := by simp [startFormat]
@[simp] theorem kept_doQuery (r) (c) (s : State) : (doQuery r c s).kept = s.kept := by
  unfold doQuery
  dsimp only
  split <;> simp
@[simp] theorem kept_doCreate (r) (s : State) : (doCreate r s).kept = s.kept := by
  unfold doCreate
  dsimp only
  split <;> simp
@[simp] theorem kept_doVolumeDelete (r) (s : State) : (doVolumeDelete r s).kept = s.kept := by
  simp [doVolumeDelete]
@[simp] theorem kept_startAppend (r) (c) (s : State) : (startAppend r c s).kept = s.kept := by simp [startAppend]
@[simp] theorem kept_beginEvid (r) (s : State) : (beginEvid r s).kept = s.kept := by
  fun_cases beginEvid <;> simp
@[simp] theorem kept_goEvid (r) (s : State) : (goEvid r s).kept = s.kept := by
  fun_cases goEvid <;> simp
@[simp] theorem kept_turnEvid (uid) (s : State) : (turnEvid uid s).kept = s.kept := by
  unfold turnEvid
  dsimp only
  (repeat' split) <;> simp
@[simp] theorem kept_turnsEvid (x0) (x1 : State) : (turnsEvid x0 x1).kept = x1.kept := by
  fun_induction turnsEvid <;> simp +zetaDelta [*]
@[simp] theorem kept_workStore (s : State) : (workStore s).kept = s.kept := by simp [workStore]
@[simp] theorem kept_closeSeedkeeper (s : State) : (closeSeedkeeper s).kept = s.kept := by simp [closeSeedkeeper]
@[simp] theorem kept_endPktAppends (n) (s : State) : (endPktAppends n s).kept = s.kept := by simp [endPktAppends]

/-! Machine/Streams -/

@[simp] theorem kept_setSlot (i) (x) (s : State) : (setSlot i x s).kept = s.kept := by simp [setSlot]
@[simp] theorem kept_changeSlot (i) (f) (s : State) : (changeSlot i f s).kept = s.kept := by simp [changeSlot]
@[simp] theorem kept_countSlot (i) (c) (n) (s : State) : (countSlot i c n s).kept = s.kept := by simp [countSlot]
@[simp] theorem kept_slotEvent (i) (s : State) : (slotEvent i s).kept = s.kept := by simp [slotEvent]
@[simp] theorem kept_slotError (i) (status) (detail) (s : State) :
    (slotError i status detail s).kept = s.kept := by
  simp [slotError]
@[simp] theorem kept_slotFails (i) (source) (detail) (a) (e) (s : State) :
    (slotFails i source detail a e s).kept = s.kept := by
  unfold slotFails
  split <;> simp

-- The definition is unfolded as a function: its equation at arguments would run the write.
@[simp] theorem kept_setEngine (e) (x) (s : State) : (setEngine e x s).kept = s.kept := by simp [setEngine]
@[simp] theorem kept_feedDecoder (e) (s : State) : (feedDecoder e s).kept = s.kept := by
  fun_cases feedDecoder <;> simp
@[simp] theorem kept_feedDecoders (s : State) : (feedDecoders s).kept = s.kept := by simp [feedDecoders]
@[simp] theorem kept_storeAu (i) (a) (s : State) : (storeAu i a s).kept = s.kept := by
  unfold storeAu
  dsimp only
  split <;> simp
@[simp] theorem kept_countRate (i) (s : State) : (countRate i s).kept = s.kept := by simp [countRate]
@[simp] theorem kept_endAu (i) (ts) (ns) (locked) (incomplete) (bytes0) (s0 : State) :
    (endAu i ts ns locked incomplete bytes0 s0).kept = s0.kept := by
  simp [endAu]
@[simp] theorem kept_advanceFeed (i) (s : State) : (advanceFeed i s).kept = s.kept := by simp [advanceFeed]
@[simp] theorem kept_skipFeed (i) (s : State) : (skipFeed i s).kept = s.kept := by simp [skipFeed]
@[simp] theorem kept_closeGardener1 (s : State) : (closeGardener1 s).kept = s.kept := by simp [closeGardener1]
@[simp] theorem kept_closeDecoder (e) (s : State) : (closeDecoder e s).kept = s.kept := by simp [closeDecoder]
@[simp] theorem kept_closeIntake (s : State) : (closeIntake s).kept = s.kept := by simp [closeIntake]

/-! Machine/Place -/

@[simp] theorem kept_setGroup (g) (x) (s : State) : (setGroup g x s).kept = s.kept := by simp [setGroup]
@[simp] theorem kept_groupError (g) (s : State) : (groupError g s).kept = s.kept := by simp [groupError]
@[simp] theorem kept_closeGroups (e) (s : State) : (closeGroups e s).kept = s.kept := by simp [closeGroups]

/-! Machine/Work -/

@[simp] theorem kept_endStream (st) (status) (s : State) : (endStream st status s).kept = s.kept := by
  unfold endStream
  dsimp only
  (repeat' split) <;> simp
@[simp] theorem kept_closeGardener0 (s : State) : (closeGardener0 s).kept = s.kept := by simp [closeGardener0]
@[simp] theorem kept_loseSpills (n) (cause) (s : State) : (loseSpills n cause s).kept = s.kept := by
  unfold loseSpills
  split
  · rfl
  · refine kept_each _ _ _ fun b t => ?_
    split <;> simp
@[simp] theorem kept_endStalls (s : State) : (endStalls s).kept = s.kept := by
  unfold endStalls
  dsimp only
  rw [kept_each _ _ _ fun r t => by split <;> simp]
  simp
@[simp] theorem kept_closeRake (s : State) : (closeRake s).kept = s.kept := by simp [closeRake]
@[simp] theorem kept_closeWork (n) (cause) (s : State) : (closeWork n cause s).kept = s.kept := by simp [closeWork]

/-! Machine/Units -/

@[simp] theorem kept_setClock (n) (s : State) : (setClock n s).kept = s.kept := by simp [setClock]
@[simp] theorem kept_finishPlan (status) (detail) (s : State) : (finishPlan status detail s).kept = s.kept := by
  simp [finishPlan]
@[simp] theorem kept_endWriteThrough (s : State) : (endWriteThrough s).kept = s.kept := by simp [endWriteThrough]
@[simp] theorem kept_abandonPlan (n) (s : State) : (abandonPlan n s).kept = s.kept := by simp [abandonPlan]
@[simp] theorem kept_abandonEntry (result) (s : State) : (abandonEntry result s).kept = s.kept := by
  simp [abandonEntry]
@[simp] theorem kept_wdogRecord (p) (kind) (outcome) (s : State) :
    (wdogRecord p kind outcome s).kept = s.kept := by
  simp [wdogRecord]
@[simp] theorem kept_wdogEvent (p) (kind) (outcome) (s : State) : (wdogEvent p kind outcome s).kept = s.kept := by
  simp [wdogEvent]
@[simp] theorem kept_closeProcessor (n) (cause) (s : State) : (closeProcessor n cause s).kept = s.kept := by
  unfold closeProcessor
  split <;> simp
@[simp] theorem kept_closeUnits (n) (cause) (s : State) : (closeUnits n cause s).kept = s.kept := by
  simp [closeUnits]
@[simp] theorem kept_loseFills (n) (s : State) : (loseFills n s).kept = s.kept := by simp [loseFills]
@[simp] theorem kept_closeIsland (n) (cause) (s : State) : (closeIsland n cause s).kept = s.kept := by
  simp [closeIsland]
@[simp] theorem kept_clearCtrlBusy (n) (s : State) : (clearCtrlBusy n s).kept = s.kept := by simp [clearCtrlBusy]
@[simp] theorem kept_powerDown (n) (cause) (s : State) : (powerDown n cause s).kept = s.kept := by simp [powerDown]

/-! Machine/Starts -/

@[simp] theorem kept_loseIslands (s : State) : (loseIslands s).kept = s.kept := by simp [loseIslands]
/-- The state of a trip when every island that loses supply has lost it (R151). -/
def tripDown (cause : Nat) (s : State) : State :=
  let s1 := { s with board := { s.board with thermN := false } }
  let s2 := s1.puts [(F.fenceStateTripLatched, 1), (F.fenceTripTemp, s.get F.fenceTempMaxTemp),
    (F.fenceTripSensor, s.get F.fenceTempMaxSensor), (F.fenceTripCause, cause)]
  loseIslands ((abandonEntry 7 (s2.bump F.fenceTripCount 1)).each (0 :: (List.range 72).drop 3) (fun n t => powerDown n 9 t))

theorem tripDown_kept (cause : Nat) (s : State) : (tripDown cause s).kept = s.kept := by simp [tripDown]

theorem tripDown_fuses (cause : Nat) (s : State) : (tripDown cause s).fuses = s.fuses := by simp [tripDown]

/-- What a trip leaves, of the state `u` in which the islands are down: Frost, with nothing in DRAM. -/
theorem tripSequence_shows (cause : Nat) (s : State) : let t := tripSequence cause s
    t.mem.dram = [] ∧ t.fw.keyStore = [] ∧ t.boot.starting = false ∧ t.host.linkUp = false ∧ t.fence.tripHold = true ∧
    t.fuses = (tripDown cause s).fuses ∧ t.kept = (tripDown cause s).kept ∧
    ∀ f, t.get f = ((tripDown cause s).puts [(F.pwrStatusState, 4), (F.pwrStatusPhase, 0)]).get f := by
  unfold tripSequence
  dsimp only
  have hdown : loseIslands ((abandonEntry 7 ((State.puts { s with board := { s.board with thermN := false } }
      [(F.fenceStateTripLatched, 1), (F.fenceTripTemp, s.get F.fenceTempMaxTemp),
        (F.fenceTripSensor, s.get F.fenceTempMaxSensor), (F.fenceTripCause, cause)]).bump F.fenceTripCount 1)).each
      (0 :: (List.range 72).drop 3) (fun n t => powerDown n 9 t)) = tripDown cause s := by
    unfold tripDown
    rfl
  rw [hdown]
  refine ⟨rfl, rfl, rfl, rfl, rfl, ?_, ?_, fun f => State.get_of_regs rfl f⟩
  · simp
  · simp

end Sys2Proof.Machine

namespace Sys2Proof
open Sys2Proof.Machine

/-- Settles O21: closing the islands writes neither flash, queue nor fuses; the rest is what the sequence's last step sets. -/
theorem tripEndsInFrost : Obligations.TripEndsInFrost := by
  unfold Obligations.TripEndsInFrost
  intro s cause t
  obtain ⟨hdram, hkeys, hstart, hlink, hhold, hfuses, hkept, hget⟩ := tripSequence_shows cause s
  have hflash : t.kept = s.kept := hkept.trans (tripDown_kept cause s)
  rw [State.kept, State.kept, Prod.mk.injEq] at hflash
  obtain ⟨hflash, hpending⟩ := hflash
  refine ⟨hdram, hkeys, hstart, hlink, hhold, hfuses.trans (tripDown_fuses cause s), hflash, hpending, ?_, ?_⟩
  · rw [hget]
    exact State.get_puts_last (tripDown cause s) [] [(F.pwrStatusPhase, 0)] F.pwrStatusState 4 rfl rfl
  · rw [hget]
    exact State.get_puts_last (tripDown cause s) [(F.pwrStatusState, 4)] [] F.pwrStatusPhase 0 rfl rfl

end Sys2Proof
end

section
/-! PROOFS. Stream slots and placement groups: start, stop, keys and doorbells (spec/18 R437, R440, R446, R453, R456, R461). -/
namespace Sys2Proof.Machine

/-- A write that sets no reserved bit is not recorded. -/
theorem noteReserved_clean {off : Nat} {v : Word} (h : v &&& reservedBits off = 0) (s : State) : noteReserved off v s = s := if_pos h

/-! The record of a slot -/

theorem slot_setSlot {i j : Nat} (x : StreamSlot) (s : State) (hi : i < s.intake.slots.length) :
    (setSlot i x s).slot j = if j = i then x else s.slot j := getD_setAt _ _ _ _ _ hi

theorem slot_changeSlot {i : Nat} (f : StreamSlot → StreamSlot) (s : State) (hi : i < s.intake.slots.length) :
    (changeSlot i f s).slot i = f (s.slot i) := (slot_setSlot _ s hi).trans (if_pos rfl)

theorem changeSlot_regs_mem (i : Nat) (f : StreamSlot → StreamSlot) (s : State) :
    (changeSlot i f s).regs = s.regs ∧ (changeSlot i f s).mem = s.mem := ⟨rfl, rfl⟩

/-! SLOT_CFG -/

theorem withRun_toNat (v : Word) (run : Bool) : (withRun v run).toNat = v.toNat / 2 * 2 + b2n run := by
  have hv := v.isLt
  have hrun : b2n run < 2 := by cases run <;> decide
  rw [withRun, BitVec.toNat_ofNat, Nat.mod_eq_of_lt (by omega)]

theorem getBits_withRun_run (v : Word) (run : Bool) : getBits (withRun v run) 0 1 = b2n run := by
  have hrun : b2n run < 2 := by cases run <;> decide
  rw [getBits, withRun_toNat]
  omega

/-- The fields above RUN are the written ones. -/
theorem getBits_withRun (v : Word) (run : Bool) (lo n : Nat) : getBits (withRun v run) (lo + 1) n = getBits v (lo + 1) n := by
  have hrun : b2n run < 2 := by cases run <;> decide
  have hhalf : (v.toNat / 2 * 2 + b2n run) / 2 = v.toNat / 2 := by omega
  rw [getBits, getBits, withRun_toNat, Nat.pow_succ', ← Nat.div_div_eq_div_mul, ← Nat.div_div_eq_div_mul, hhalf]

/-- The fields of SLOT_CFG are in its own word, RUN is not among them. -/
theorem putSlotCfg_rd_ne {i : Nat} {o : Nat} (h : o ≠ R.intakeSlotCfg i) (v : Word) (s : State) : (putSlotCfg i v s).rd o = s.rd o := by
  refine State.rd_puts_ne _ _ _ fun f hf => ?_
  simp only [List.mem_cons, List.not_mem_nil, or_false] at hf
  rcases hf with rfl | rfl | rfl | rfl | rfl | rfl | rfl <;> exact h

theorem putSlotCfg_get_ne {i : Nat} {f : Field} (h : f.off ≠ R.intakeSlotCfg i) (v : Word) (s : State) :
    (putSlotCfg i v s).get f = s.get f := by
  rw [State.get, State.get, putSlotCfg_rd_ne h]

theorem putSlotCfg_mem (i : Nat) (v : Word) (s : State) : (putSlotCfg i v s).mem = s.mem := State.mem_puts _ _
theorem putSlotCfg_plan (i : Nat) (v : Word) (s : State) : (putSlotCfg i v s).plan = s.plan := State.plan_puts _ _
theorem putSlotCfg_intake (i : Nat) (v : Word) (s : State) : (putSlotCfg i v s).intake = s.intake := State.intake_puts _ _

theorem getBits_lt (w : Word) (lo n : Nat) : getBits w lo n < 2 ^ n := Nat.mod_lt _ (Nat.two_pow_pos n)

theorem putSlotCfg_source (i : Nat) (v : Word) (s : State) : (putSlotCfg i v s).get (F.intakeSlotCfgSource i) = getBits v 1 1 := by
  refine (State.get_puts_last s [] [_, _, _, _, _, _] (F.intakeSlotCfgSource i) (getBits v 1 1) rfl ?_).trans
    (Nat.mod_eq_of_lt (getBits_lt v 1 1))
  simp [fits, apart, F.intakeSlotCfgSource, F.intakeSlotCfgIpv6, F.intakeSlotCfgLoss, F.intakeSlotCfgTenbit,
    F.intakeSlotCfgRingMode, F.intakeSlotCfgPt, F.intakeSlotCfgVid]

theorem putSlotCfg_vid (i : Nat) (v : Word) (s : State) : (putSlotCfg i v s).get (F.intakeSlotCfgVid i) = getBits v 16 12 :=
  (State.get_puts_last s [_, _, _, _, _, _] [] (F.intakeSlotCfgVid i) (getBits v 16 12) rfl rfl).trans
    (Nat.mod_eq_of_lt (getBits_lt v 16 12))

/-- R437's first two checks. -/
theorem slotRefusal_invalid {s : State} {i : Nat} (h : (s.slotPlan i).valid = false) : s.slotRefusal i = 1 :=
  if_pos (by rw [h]; rfl)

theorem slotRefusal_noPort {s : State} {i : Nat} (h : (s.slotPlan i).valid = true) (hnet : s.get (F.intakeSlotCfgSource i) = 0)
    (hport : s.get (F.intakeMatchPortsDstUdp i) = 0) : s.slotRefusal i = 2 := by
  unfold State.slotRefusal
  simp only [h, hnet, hport, Bool.not_true, Bool.false_eq_true, beq_self_eq_true, true_and, true_or, if_false, if_true]

section
variable {i : Nat} {v : Word} {s : State} (hclean : v &&& reservedBits (R.intakeSlotCfg i) = 0)
include hclean

/-- A write of SLOT_CFG in IDLE takes the fields, and with RUN starts the slot unless a check of R437 fails. -/
theorem writeSlotCfg_idle (hidle : s.slotState i = 0) : writeSlotCfg i v s =
    if getBits v 0 1 = 0 then putSlotCfg i v s
    else if (putSlotCfg i v s).slotRefusal i = 0 then startSlot i (putSlotCfg i v s)
    else (putSlotCfg i v s).put (F.intakeSlotStateResult i) ((putSlotCfg i v s).slotRefusal i) := by
  rw [writeSlotCfg, noteReserved_clean hclean]
  exact if_pos hidle

theorem writeSlotCfg_busy (hbusy : s.slotState i ≠ 0) : writeSlotCfg i v s =
    if getBits v 0 1 = 0 ∧ s.slotState i ≠ 6 then stopSlot i s else s := by
  rw [writeSlotCfg, noteReserved_clean hclean]
  exact if_neg hbusy

end

/-! Start and stop -/

/-- The fields that a start sets in SLOT_CFG and SLOT_STATE. -/
def startFields (i : Nat) : List (Field × Nat) :=
  [(F.intakeSlotCfgRun i, 1), (F.intakeSlotStateState i, 1), (F.intakeSlotStateResult i, 0),
    (F.intakeSlotStateErrorStatus i, 0), (F.intakeSlotStateDetail i, 0)]

/-- The words that a start clears beside the counters. -/
def startWords (i : Nat) : List Nat :=
  [R.decodeFrames i, R.decodeWritten i, R.decodeReleased i, R.decodeDropped i, R.intakeSsrc i]

/-- The registers of a slot that starts. -/
def startRegs (i : Nat) (s : State) : State :=
  ((s.puts (startFields i)).each (List.range 8) (fun c t => t.wr (R.intakeSlotCount i c) 0)).each (startWords i)
    (fun r t => t.wr r 0)

/-- A stream afresh, under the contexts, key words and feed of the slot. -/
def freshStream (x : StreamSlot) : StreamSlot :=
  { StreamSlot.reset with keyWords := x.keyWords, ctx := x.ctx, prev := x.prev, feedTail := x.feedTail }

theorem startSlot_eq (i : Nat) (s : State) : startSlot i s = changeSlot i freshStream (startRegs i s) := by
  unfold startSlot startRegs
  rfl

theorem startRegs_rd (i : Nat) (s : State) (r : Nat) : (startRegs i s).rd r =
    if r ∈ startWords i then 0 else if r ∈ (List.range 8).map (R.intakeSlotCount i) then 0 else (s.puts (startFields i)).rd r := by
  obtain ⟨hcounts, -⟩ := rd_each_zero (R.intakeSlotCount i) (List.range 8) (s.puts (startFields i))
  obtain ⟨hwords, -⟩ := rd_each_zero id (startWords i)
    ((s.puts (startFields i)).each (List.range 8) (fun c t => t.wr (R.intakeSlotCount i c) 0))
  rw [List.map_id] at hwords
  refine (hwords r).trans ?_
  rw [hcounts]

theorem startRegs_keeps (i : Nat) (s : State) : (startRegs i s).intake = s.intake ∧ (startRegs i s).mem = s.mem := by
  constructor
  · rw [startRegs, State.each_keeps State.intake (fun r t => t.wr r 0) (fun _ _ => rfl),
      State.each_keeps State.intake (fun c t => t.wr (R.intakeSlotCount i c) 0) (fun _ _ => rfl), State.intake_puts]
  · rw [startRegs, State.each_keeps State.mem (fun r t => t.wr r 0) (fun _ _ => rfl),
      State.each_keeps State.mem (fun c t => t.wr (R.intakeSlotCount i c) 0) (fun _ _ => rfl), State.mem_puts]

theorem startSlot_rd (i : Nat) (s : State) (r : Nat) : (startSlot i s).rd r = (startRegs i s).rd r := by
  obtain ⟨hregs, -⟩ := changeSlot_regs_mem i freshStream (startRegs i s)
  rw [startSlot_eq, State.rd, State.rd, hregs]

/-- SLOT_CFG and SLOT_STATE are none of the words that a start clears. -/
theorem startSlot_get {i : Nat} {f : Field} (h : f.off = R.intakeSlotCfg i ∨ f.off = R.intakeSlotState i) (s : State) :
    (startSlot i s).get f = (s.puts (startFields i)).get f := by
  have hwords : f.off ∉ startWords i := by
    simp only [startWords, List.mem_cons, List.not_mem_nil, or_false, R.intakeSlotCfg, R.intakeSlotState, R.decodeFrames,
      R.decodeWritten, R.decodeReleased, R.decodeDropped, R.intakeSsrc] at h ⊢
    omega
  have hcounts : f.off ∉ (List.range 8).map (R.intakeSlotCount i) := by
    simp only [List.mem_map, not_exists, not_and, R.intakeSlotCount]
    simp only [R.intakeSlotCfg, R.intakeSlotState] at h
    omega
  rw [State.get, State.get, startSlot_rd, startRegs_rd, if_neg hwords, if_neg hcounts]

/-- A slot that starts: WAIT_RAP, RUN, every counter 0, and a fresh stream under the context that it had. -/
theorem startSlot_shows (i : Nat) (s : State) (hi : i < s.intake.slots.length) : let t := startSlot i s
    t.slotState i = 1 ∧ t.get (F.intakeSlotCfgRun i) = 1 ∧ t.get (F.intakeSlotStateResult i) = 0 ∧
    (∀ c, c < 8 → t.rd (R.intakeSlotCount i c) = 0) ∧ (∀ r ∈ startWords i, t.rd r = 0) ∧
    t.get (F.intakeSlotCfgVid i) = s.get (F.intakeSlotCfgVid i) ∧
    t.slot i = freshStream (s.slot i) ∧
    t.mem = s.mem := by
  intro t
  have hcfg : R.intakeSlotState i ≠ R.intakeSlotCfg i := by
    simp only [R.intakeSlotState, R.intakeSlotCfg]
    omega
  refine ⟨?_, ?_, ?_, fun c hc => ?_, fun r hr => ?_, ?_, ?_, ?_⟩
  · refine (startSlot_get (f := F.intakeSlotStateState i) (.inr rfl) s).trans ?_
    refine State.get_puts_last s [(F.intakeSlotCfgRun i, 1)] [_, _, _] (F.intakeSlotStateState i) 1 rfl ?_
    simp [fits, apart, F.intakeSlotStateState, F.intakeSlotStateResult, F.intakeSlotStateErrorStatus, F.intakeSlotStateDetail]
  · refine (startSlot_get (f := F.intakeSlotCfgRun i) (.inl rfl) s).trans ?_
    refine State.get_puts_last s [] [_, _, _, _] (F.intakeSlotCfgRun i) 1 rfl ?_
    simp [fits, apart, F.intakeSlotCfgRun, F.intakeSlotStateState, F.intakeSlotStateResult, F.intakeSlotStateErrorStatus,
      F.intakeSlotStateDetail, hcfg]
  · refine (startSlot_get (f := F.intakeSlotStateResult i) (.inr rfl) s).trans ?_
    refine State.get_puts_last s [(F.intakeSlotCfgRun i, 1), (F.intakeSlotStateState i, 1)] [_, _] (F.intakeSlotStateResult i) 0 rfl ?_
    simp [fits, apart, F.intakeSlotStateResult, F.intakeSlotStateErrorStatus, F.intakeSlotStateDetail]
  · rw [startSlot_rd, startRegs_rd]
    split
    · rfl
    · exact if_pos (List.mem_map_of_mem (List.mem_range.mpr hc))
  · rw [startSlot_rd, startRegs_rd, if_pos hr]
  · refine (startSlot_get (f := F.intakeSlotCfgVid i) (.inl rfl) s).trans (State.get_puts_apart s _ (F.intakeSlotCfgVid i) fun f hf => ?_)
    simp only [startFields, List.mem_cons, List.not_mem_nil, or_false] at hf
    rcases hf with rfl | rfl | rfl | rfl | rfl
    · exact ⟨rfl, apart_of_above (by decide : 0 + 1 ≤ 16)⟩
    · exact ⟨rfl, apart_of_off hcfg⟩
    · exact ⟨rfl, apart_of_off hcfg⟩
    · exact ⟨rfl, apart_of_off hcfg⟩
    · exact ⟨rfl, apart_of_off hcfg⟩
  · obtain ⟨hintake, -⟩ := startRegs_keeps i s
    have hslot : (startRegs i s).slot i = s.slot i := by rw [State.slot, State.slot, hintake]
    show (startSlot i s).slot i = _
    rw [startSlot_eq, slot_changeSlot _ _ (by rw [hintake]; exact hi), hslot]
  · obtain ⟨-, hmem⟩ := startRegs_keeps i s
    obtain ⟨-, hchange⟩ := changeSlot_regs_mem i freshStream (startRegs i s)
    show (startSlot i s).mem = _
    rw [startSlot_eq, hchange, hmem]

/-- A slot that stops: STOPPING, and nothing held. -/
theorem stopSlot_shows (i : Nat) (s : State) (hi : i < s.intake.slots.length) : let t := stopSlot i s
    t.slotState i = 6 ∧ t.get (F.intakeSlotCfgRun i) = 0 ∧ t.slot i = { s.slot i with held := [], asm := none, cpb := [] } ∧
    t.intake.engines = s.intake.engines ∧ t.mem = s.mem := by
  intro t
  have hcfg : R.intakeSlotState i ≠ R.intakeSlotCfg i := by
    simp only [R.intakeSlotState, R.intakeSlotCfg]
    omega
  let u := s.puts [(F.intakeSlotCfgRun i, 0), (F.intakeSlotStateState i, 6)]
  have hintake : u.intake = s.intake := State.intake_puts _ _
  refine ⟨?_, ?_, ?_, ?_, ?_⟩
  · exact State.get_puts_last s [(F.intakeSlotCfgRun i, 0)] [] (F.intakeSlotStateState i) 6 rfl rfl
  · refine State.get_puts_last s [] [(F.intakeSlotStateState i, 6)] (F.intakeSlotCfgRun i) 0 rfl ?_
    simp [fits, apart, F.intakeSlotCfgRun, F.intakeSlotStateState, hcfg]
  · refine (slot_changeSlot _ u (by rw [hintake]; exact hi)).trans ?_
    rw [State.slot, hintake]
    rfl
  · show u.intake.engines = _
    rw [hintake]
  · exact State.mem_puts _ _

/-! Keys, doorbells and releases -/

/-- The context that a commit makes of the eight key words (R440, R460). -/
theorem commitKey_shows (i : Nat) (key7 : Word) (s : State) (hi : i < s.intake.slots.length)
    (hwords : (s.slot i).keyWords.length = 8) :
    let bs := ((s.slot i).keyWords.take 7 ++ [key7]).flatMap (fun k => leBytes 4 k.toNat)
    ∃ c, (commitKey i key7 s).get (F.intakeSlotStateKeyed i) = 1 ∧ ((commitKey i key7 s).slot i).ctx = some c ∧
      c.key = bs.take 16 ∧ c.salt = (bs.drop 16).take 14 ∧ c.roc = (s.rd (R.intakeRoc i)).toNat ∧ c.top = none ∧
      c.ctop = none ∧ (∀ o, (s.slot i).ctx = some o → c.gen ≠ o.gen) ∧ ((commitKey i key7 s).slot i).prev = (s.slot i).ctx ∧
      (∀ j, j ≠ i → (commitKey i key7 s).slot j = s.slot j) ∧ (commitKey i key7 s).mem = s.mem := by
  intro bs
  have hset : setAt 7 key7 (s.slot i).keyWords = (s.slot i).keyWords.take 7 ++ [key7] := by
    rw [setAt_eq_set, List.set_eq_take_append_cons_drop, if_pos (by rw [hwords]; decide), List.drop_eq_nil_of_le (Nat.le_of_eq hwords)]
  let c : SrtpCtx := {
    gen := (s.slot i).ctx.elim 1 (fun o => o.gen + 1), key := bs.take 16, salt := (bs.drop 16).take 14,
    roc := (s.rd (R.intakeRoc i)).toNat, top := none, window := 0, ctop := none, cwindow := 0 }
  let x : StreamSlot := { s.slot i with keyWords := (s.slot i).keyWords.take 7 ++ [key7], ctx := some c, prev := (s.slot i).ctx }
  have hrun : commitKey i key7 s = (setSlot i x s).put (F.intakeSlotStateKeyed i) 1 := by
    rw [commitKey, hset]
  have hslot (j : Nat) : (commitKey i key7 s).slot j = if j = i then x else s.slot j := by
    rw [hrun]
    exact slot_setSlot x s hi
  refine ⟨c, ?_, ?_, rfl, rfl, rfl, rfl, rfl, fun o ho => ?_, ?_, fun j hj => ?_, ?_⟩
  · rw [hrun]
    exact State.get_put_same _ _ _ rfl
  · rw [hslot, if_pos rfl]
  · show (s.slot i).ctx.elim 1 (fun o => o.gen + 1) ≠ o.gen
    rw [ho]
    exact Nat.succ_ne_self _
  · rw [hslot, if_pos rfl]
  · rw [hslot, if_neg hj]
  · rw [hrun]
    rfl

/-- A doorbell inside the ring and not behind the last one moves FEED_TAIL alone. -/
theorem writeFeedTail_shows (i tail : Nat) (s : State) (hi : i < s.intake.slots.length) :
    let size := 2 ^ s.get (F.intakeFeedSizeSizeLog2 i)
    let past := fun t => (t + 16 * size - s.get (F.intakeFeedHeadHead i) % size) % size
    let valid := tail < size ∧ past (s.slot i).feedTail ≤ past tail
    (¬ valid → writeFeedTail i tail s = s) ∧ (valid → (writeFeedTail i tail s).slot i = { s.slot i with feedTail := tail } ∧
      (writeFeedTail i tail s).regs = s.regs ∧ (writeFeedTail i tail s).mem = s.mem) := by
  intro size past valid
  refine ⟨fun h => if_neg h, fun h => ?_⟩
  have hrun : writeFeedTail i tail s = changeSlot i (fun x => { x with feedTail := tail }) s := if_pos h
  rw [hrun]
  exact ⟨slot_changeSlot _ _ hi, rfl, rfl⟩

/-- RELEASED rises by ADD, but never past WRITTEN. -/
theorem releaseFrames_rd {i add : Nat} {s : State} (h : (s.rd (R.decodeReleased i)).toNat ≤ (s.rd (R.decodeWritten i)).toNat) :
    ((releaseFrames i add s).rd (R.decodeReleased i)).toNat =
      min ((s.rd (R.decodeReleased i)).toNat + add) (s.rd (R.decodeWritten i)).toNat := by
  have hw := (s.rd (R.decodeWritten i)).isLt
  rw [releaseFrames, State.rd_wr_same, BitVec.toNat_ofNat]
  omega

/-! Placement groups -/

section
variable {g : Nat} {v : Word} {s : State} (hclean : v &&& reservedBits (R.decodeGroupCfg g) = 0)
include hclean

/-- The fields of GROUP_CFG that a write with EN 0 takes. -/
theorem writeGroupCfg_eq : writeGroupCfg g v s =
    if s.get (F.decodeGroupCfgEn g) = 1 then (if getBits v 0 1 = 0 then stopGroup g s else s)
    else if getBits v 0 1 = 1 ∧ (s.puts [(F.decodeGroupCfgAllot g, getBits v 8 6), (F.decodeGroupCfgBands g, getBits v 16 8),
        (F.decodeGroupCfgFormat g, getBits v 24 3)]).groupOk g then
      startGroup g (s.puts [(F.decodeGroupCfgAllot g, getBits v 8 6), (F.decodeGroupCfgBands g, getBits v 16 8),
        (F.decodeGroupCfgFormat g, getBits v 24 3)])
    else s.puts [(F.decodeGroupCfgAllot g, getBits v 8 6), (F.decodeGroupCfgBands g, getBits v 16 8),
        (F.decodeGroupCfgFormat g, getBits v 24 3)] := by
  rw [writeGroupCfg, noteReserved_clean hclean]

end

/-- A channel's shown state is in two words of its engine's block, memory is none of it. -/
theorem get_refreshChannel_decode (e c : Nat) (s : State) {f : Field} (h : 0x0E0000 ≤ f.off) (he : e < 2) (hc : c < 16) :
    (refreshChannel e c s).get f = s.get f := by
  rw [State.get, State.get, rd_refreshChannel_ne]
  · simp only [R.hoseState]
    omega
  · simp only [R.hoseStall]
    omega

theorem refreshChannel_mem (e c : Nat) (s : State) : (refreshChannel e c s).mem = s.mem := by
  rw [refreshChannel_regs]

theorem groupEngine_lt (g : Fin 8) : groupEngine g < 2 ∧ groupChannel g < 16 := by
  simp only [groupEngine, groupChannel]
  omega

theorem stopGroup_shows (g : Fin 8) (s : State) : let t := stopGroup g s
    t.get (F.decodeGroupCfgEn g) = 0 ∧ t.get (F.decodeGroupCfgState g) = 0 ∧
    t.get (F.decodeGroupCfgBands g) = s.get (F.decodeGroupCfgBands g) ∧ t.mem = s.mem := by
  intro t
  obtain ⟨he, hc⟩ := groupEngine_lt g
  let u := s.puts [(F.decodeGroupCfgEn g, 0), (F.decodeGroupCfgState g, 0)]
  have hget (f : Field) (h : f.off = R.decodeGroupCfg g) : t.get f = u.get f :=
    get_refreshChannel_decode _ _ _ (by rw [h, R.decodeGroupCfg]; omega) he hc
  refine ⟨(hget _ rfl).trans ?_, (hget _ rfl).trans ?_, (hget _ rfl).trans ?_, ?_⟩
  · refine State.get_puts_last s [] [(F.decodeGroupCfgState g, 0)] (F.decodeGroupCfgEn g) 0 rfl ?_
    simp [fits, apart, F.decodeGroupCfgEn, F.decodeGroupCfgState]
  · exact State.get_puts_last s [(F.decodeGroupCfgEn g, 0)] [] (F.decodeGroupCfgState g) 0 rfl rfl
  · refine State.get_puts_apart s _ (F.decodeGroupCfgBands g) fun f hf => ?_
    simp only [List.mem_cons, List.not_mem_nil, or_false] at hf
    rcases hf with rfl | rfl
    · exact ⟨rfl, apart_of_above (by decide : 0 + 1 ≤ 16)⟩
    · exact ⟨rfl, apart_of_above (by decide : 1 + 2 ≤ 16)⟩
  · exact (refreshChannel_mem _ _ _).trans (State.mem_puts _ _)

/-- A group that starts: EN 1, STATE 1, slabs from 0. -/
theorem startGroup_shows (g : Fin 8) (s : State) : let t := startGroup g s
    t.get (F.decodeGroupCfgEn g) = 1 ∧ t.get (F.decodeGroupCfgState g) = 1 ∧ t.rd (R.decodeGroupSlabs g) = 0 ∧
    t.rd (R.hoseRelease (groupEngine g) (groupChannel g)) = 0 ∧ t.mem = s.mem := by
  intro t
  obtain ⟨he, hc⟩ := groupEngine_lt g
  let u := s.puts [(F.decodeGroupCfgEn g, 1), (F.decodeGroupCfgState g, 1)]
  let x := ((u.wr (R.decodeGroupSlabs g) 0).wr (R.hoseCursor (groupEngine g) (groupChannel g)) 0).wr
    (R.hoseRelease (groupEngine g) (groupChannel g)) 0
  have hhose : R.hoseCursor (groupEngine g) (groupChannel g) < 0x0E0000 ∧ R.hoseRelease (groupEngine g) (groupChannel g) < 0x0E0000 := by
    simp only [R.hoseCursor, R.hoseRelease]
    omega
  obtain ⟨hcursor, hrelease⟩ := hhose
  have hrun : t = refreshChannel (groupEngine g) (groupChannel g) (setGroup g ⟨[], 0⟩ x) := by
    simp only [t, startGroup]
    rfl
  have hrd (r : Nat) (h1 : r ≠ R.hoseState (groupEngine g) (groupChannel g)) (h2 : r ≠ R.hoseStall (groupEngine g) (groupChannel g)) :
      t.rd r = x.rd r := by
    rw [hrun]
    exact rd_refreshChannel_ne _ h1 h2
  have hcfg (f : Field) (h : f.off = R.decodeGroupCfg g) : t.get f = u.get f := by
    rw [hrun, get_refreshChannel_decode _ _ _ (by rw [h, R.decodeGroupCfg]; omega) he hc]
    show x.get f = u.get f
    have hlow : 0x0E0000 ≤ f.off := by rw [h, R.decodeGroupCfg]; omega
    refine (State.get_wr_ne _ _ _ f (by omega)).trans ((State.get_wr_ne _ _ _ f (by omega)).trans (State.get_wr_ne _ _ _ f ?_))
    rw [h]
    simp only [R.decodeGroupCfg, R.decodeGroupSlabs]
    omega
  refine ⟨(hcfg _ rfl).trans ?_, (hcfg _ rfl).trans ?_, ?_, ?_, ?_⟩
  · refine State.get_puts_last s [] [(F.decodeGroupCfgState g, 1)] (F.decodeGroupCfgEn g) 1 rfl ?_
    simp [fits, apart, F.decodeGroupCfgEn, F.decodeGroupCfgState]
  · exact State.get_puts_last s [(F.decodeGroupCfgEn g, 1)] [] (F.decodeGroupCfgState g) 1 rfl rfl
  · have hslabs : 0x0E0000 ≤ R.decodeGroupSlabs g := by rw [R.decodeGroupSlabs]; omega
    refine (hrd _ (by simp only [R.decodeGroupSlabs, R.hoseState]; omega) (by simp only [R.decodeGroupSlabs, R.hoseStall]; omega)).trans ?_
    exact (State.rd_wr_ne _ _ _ _ (by omega)).trans ((State.rd_wr_ne _ _ _ _ (by omega)).trans (State.rd_wr_same _ _ _))
  · refine (hrd _ (by simp only [R.hoseRelease, R.hoseState]; omega) (by simp only [R.hoseRelease, R.hoseStall]; omega)).trans ?_
    exact State.rd_wr_same _ _ _
  · rw [hrun, refreshChannel_mem]
    exact State.mem_puts _ _

theorem groupOk_owner {s : State} {g : Nat} (h : s.get (F.hoseCfgOwner (groupEngine g) (groupChannel g)) ≠ 2) : s.groupOk g = false := by
  simp only [State.groupOk, beq_eq_false_iff_ne.mpr h, Bool.false_and]

/-- A decoder works for a slot. -/
theorem busy_iff (s : State) (i : Nat) : ((List.range 2).any (fun e => (s.decoding e).elim false (fun x => x.1 == i))) = true ↔
    ∃ e, e < 2 ∧ ∃ a, s.decoding e = some (i, a) := by
  simp only [List.any_eq_true, List.mem_range]
  refine exists_congr fun e => and_congr_right fun _ => ?_
  cases s.decoding e with
  | none => simp
  | some x =>
    obtain ⟨j, a⟩ := x
    simp only [Option.elim_some, beq_iff_eq, Option.some.injEq, Prod.mk.injEq]
    exact ⟨fun h => ⟨a, h, rfl⟩, fun ⟨_, h, _⟩ => h⟩

end Sys2Proof.Machine

namespace Sys2Proof
open Sys2Proof.Machine

/-- Settles O54: each write acts as its slot's or group's state says, and a start or key commit leaves what its rule names. -/
theorem slotControl : Obligations.SlotControl := by
  unfold Obligations.SlotControl
  intro s w i hslots
  have hi : i.val < s.intake.slots.length := by rw [hslots]; exact i.isLt
  refine ⟨fun cfg hreach hclean => ?_, fun cfg hreach hclean => ?_, fun busy hbusy => ⟨fun h => ?_, fun hopen hstop hfree => ?_⟩,
    fun key7 hreach hwords => ?_, fun tail hreach => ?_, fun add hreach => ?_, fun g cfg hreach hclean => ?_⟩
  · intro s2 e
    have hrun : exec (.slotStart w i cfg) s = .next (writeSlotCfg i (withRun cfg true) s) :=
      congrArg Host.Outcome.next (writeAccess_serve hreach _ _)
    have hrunBit : getBits (withRun cfg true) 0 1 = 1 := getBits_withRun_run cfg true
    have hplan : s2.slotPlan i = s.slotPlan i := by
      rw [State.slotPlan, State.slotPlan, putSlotCfg_plan]
    refine ⟨fun hbusy => ?_, fun hidle he => ?_, fun hvalid => slotRefusal_invalid (by rw [hplan, hvalid]), fun hvalid hsource hport => ?_,
      fun hidle he => ?_⟩
    · refine hrun.trans (congrArg _ ((writeSlotCfg_busy hclean hbusy).trans (if_neg fun h => ?_)))
      rw [hrunBit] at h
      exact Nat.one_ne_zero h.1
    · rw [hrun, writeSlotCfg_idle hclean hidle, hrunBit]
      exact congrArg _ ((if_neg Nat.one_ne_zero).trans (if_neg he))
    · refine slotRefusal_noPort (by rw [hplan, hvalid]) ?_ ?_
      · rw [putSlotCfg_source, getBits_withRun cfg true 0 1, hsource]
      · rw [putSlotCfg_get_ne, hport]
        simp only [F.intakeMatchPortsDstUdp, R.intakeMatchPorts, R.intakeSlotCfg]
        omega
    · have hstart : writeSlotCfg i (withRun cfg true) s = startSlot i s2 := by
        rw [writeSlotCfg_idle hclean hidle, hrunBit]
        exact (if_neg Nat.one_ne_zero).trans (if_pos he)
      have hintake : s2.intake = s.intake := putSlotCfg_intake _ _ _
      have hslot : s2.slot i = s.slot i := by rw [State.slot, State.slot, hintake]
      obtain ⟨hstate, hrunning, hresult, hcounts, hwords, hvid, hstream, hmem⟩ := startSlot_shows i s2 (by rw [hintake]; exact hi)
      rw [hslot] at hstream
      refine ⟨_, hrun.trans (congrArg _ hstart), hstate, hrunning, hresult, hcounts, hwords _ (by simp [startWords]), hwords _ (by simp [startWords]),
        hwords _ (by simp [startWords]), hvid.trans ?_, ?_, ?_, ?_, hmem.trans (putSlotCfg_mem _ _ _)⟩
      · rw [putSlotCfg_vid, getBits_withRun cfg true 15 12]
      · rw [hstream]; rfl
      · rw [hstream]; rfl
      · rw [hstream]; rfl
  · have hrun : exec (.slotStop w i cfg) s = .next (writeSlotCfg i (withRun cfg false) s) :=
      congrArg Host.Outcome.next (writeAccess_serve hreach _ _)
    have hrunBit : getBits (withRun cfg false) 0 1 = 0 := getBits_withRun_run cfg false
    refine ⟨fun hidle => ?_, fun hstopping => ?_, fun hidle hstopping => ?_⟩
    · rw [hrun, writeSlotCfg_idle hclean hidle, hrunBit]
      exact congrArg _ (if_pos rfl)
    · rw [hrun, writeSlotCfg_busy hclean (by rw [hstopping]; decide)]
      exact congrArg _ (if_neg fun h => h.2 hstopping)
    · have hstop : writeSlotCfg i (withRun cfg false) s = stopSlot i s := by
        rw [writeSlotCfg_busy hclean hidle, hrunBit]
        exact if_pos ⟨rfl, hstopping⟩
      obtain ⟨hstate, hrunning, hslot, hengines, hmem⟩ := stopSlot_shows i s hi
      refine ⟨_, hrun.trans (congrArg _ hstop), hstate, hrunning, ?_, ?_, ?_, hengines, hmem⟩
      · rw [hslot]
      · rw [hslot]
      · rw [hslot]
  · have hnot : ¬ (s.isOpen 62 = true ∧ s.slotState i = SLOT_STOPPING ∧
        (!(List.range 2).any (fun e => (s.decoding e).elim false (fun x => x.1 == i.val))) = true) := by
      rintro ⟨hopen, hstop, hfree⟩
      obtain h | h | h := h
      · rw [h] at hopen
        cases hopen
      · exact h hstop
      · rw [(busy_iff s i).mpr (hbusy.mp h)] at hfree
        cases hfree
    exact congrArg _ (if_neg hnot)
  · refine congrArg _ (if_pos ⟨hopen, hstop, ?_⟩)
    rw [Bool.not_eq_true', ← Bool.not_eq_true]
    exact fun h => hfree (hbusy.mpr ((busy_iff s i).mp h))
  · intro bs
    have hrun : exec (.srtpKeyCommit w i key7) s = .next (commitKey i key7 s) :=
      congrArg Host.Outcome.next (writeAccess_serve hreach _ _)
    obtain ⟨c, hkeyed, hctx, hc⟩ := commitKey_shows i key7 s hi hwords
    exact ⟨_, c, hrun, hkeyed, hctx, hc⟩
  · intro size past valid
    have hrun : exec (.feedDoorbell w i tail) s = .next (writeFeedTail i tail.toNat s) :=
      congrArg Host.Outcome.next (writeAccess_serve hreach _ _)
    obtain ⟨hstay, hmove⟩ := writeFeedTail_shows i tail.toNat s hi
    exact ⟨fun h => hrun.trans (congrArg _ (hstay h)), fun h => ⟨_, hrun, hmove h⟩⟩
  · intro r n hle
    have hrun : exec (.frameReleaseAdd w i add) s = .next (releaseFrames i add.toNat s) :=
      congrArg Host.Outcome.next (writeAccess_serve hreach _ _)
    exact ⟨_, hrun, releaseFrames_rd hle, rfl, fun off hoff => State.rd_wr_ne _ _ _ _ hoff⟩
  · intro s2 en
    have hrun : exec (.groupEnable w g cfg) s = .next (writeGroupCfg g cfg s) :=
      congrArg Host.Outcome.next (writeAccess_serve hreach _ _)
    have heq := writeGroupCfg_eq (s := s) hclean
    refine ⟨fun hon hen => ?_, fun hon hen => ?_, fun hoff hno => ?_, groupOk_owner, fun hoff hen hok => ?_⟩
    · exact hrun.trans (congrArg _ (heq.trans ((if_pos hon).trans (if_neg (by rw [show getBits cfg 0 1 = 1 from hen]; decide)))))
    · exact ⟨_, hrun.trans (congrArg _ (heq.trans ((if_pos hon).trans (if_pos hen)))), stopGroup_shows g s⟩
    · have hnot : ¬ (en = 1 ∧ s2.groupOk g = true) := by
        rintro ⟨h1, hok⟩
        obtain h | h := hno
        · omega
        · rw [h] at hok
          cases hok
      exact hrun.trans (congrArg _ (heq.trans ((if_neg (by omega)).trans (if_neg hnot))))
    · obtain ⟨hon, hstate, hslabs, hrelease, hmem⟩ := startGroup_shows g s2
      exact ⟨_, hrun.trans (congrArg _ (heq.trans ((if_neg (by omega)).trans (if_pos ⟨hen, hok⟩)))), hon, hstate, hslabs, hrelease,
        hmem.trans (State.mem_puts _ _)⟩

end Sys2Proof
end

section
/-! PROOFS. The display: link, flips, lines, AUX (spec/17 R419-R422, R427). -/
namespace Sys2Proof.Machine

/-! Little-endian words -/

theorem leNat_lt (bs : List Byte) : leNat bs < 256 ^ bs.length := by
  induction bs with
  | nil => exact Nat.one_pos
  | cons b bs ih =>
    rw [leNat, List.length_cons, Nat.pow_succ']
    have := b.isLt
    omega

theorem leBytes_leNat (bs : List Byte) : leBytes bs.length (leNat bs) = bs := by
  induction bs with
  | nil => rfl
  | cons b bs ih =>
    have hb := b.isLt
    have hhead : BitVec.ofNat 8 (b.toNat + 256 * leNat bs) = b := BitVec.eq_of_toNat_eq (by simp; omega)
    rw [List.length_cons, leNat, leBytes, hhead, show (b.toNat + 256 * leNat bs) / 256 = leNat bs by omega, ih]

/-- A word of a byte list, written and read back as its four bytes. -/
theorem leBytes_word {d : List Byte} {off : Nat} (h : off + 4 ≤ d.length) :
    leBytes 4 (BitVec.ofNat 32 (bytesAt d off 4)).toNat = (d.drop off).take 4 := by
  have hlen : ((d.drop off).take 4).length = 4 := by simp; omega
  have hlt := leNat_lt ((d.drop off).take 4)
  rw [hlen] at hlt
  have hback := leBytes_leNat ((d.drop off).take 4)
  rw [hlen] at hback
  rw [BitVec.toNat_ofNat, bytesAt, Nat.mod_eq_of_lt (by simpa using hlt), hback]

theorem rd64_wr64_same {s : State} {o v : Nat} (h : v < 2 ^ 64) : (s.wr64 o v).rd64 o = v := by
  rw [State.rd64, State.wr64, State.rd_wr_same, State.rd_wr_ne _ _ _ _ (by omega), State.rd_wr_same]
  simp only [BitVec.toNat_ofNat]
  omega

theorem rd64_lt (s : State) (o : Nat) : s.rd64 o < 2 ^ 64 := by
  have h0 := (s.rd o).isLt
  have h1 := (s.rd (o + 4)).isLt
  rw [State.rd64]
  omega

theorem rd64_of_rd {s t : State} {o : Nat} (h0 : t.rd o = s.rd o) (h1 : t.rd (o + 4) = s.rd (o + 4)) :
    t.rd64 o = s.rd64 o := by
  rw [State.rd64, State.rd64, h0, h1]

/-! The link -/

theorem trainLink_trains {s : State} {d : DisplayCfg} {k : Sink} (hd : s.plan.active.display = some d)
    (hk : s.disp.sink = some k) :
    match (trainOrder d k).find? (fun c => k.works.contains c && carries d c.1 c.2) with
    | some c => (trainLink s).get F.dispStatusLink = 2 ∧ (trainLink s).get F.dispStatusLanes = c.1 % 8 ∧
        (trainLink s).get F.dispStatusRate = c.2 % 4
    | none => (trainLink s).get F.dispStatusLink = 3 := by
  rw [trainLink, hd, hk]
  dsimp only
  cases (trainOrder d k).find? (fun c => k.works.contains c && carries d c.1 c.2) with
  | none => exact State.get_puts_last s [] [(F.dispStatusLanes, 0), (F.dispStatusRate, 0)] F.dispStatusLink 3 rfl rfl
  | some c =>
    exact ⟨State.get_puts_last s [] [(F.dispStatusLanes, c.1), (F.dispStatusRate, c.2)] F.dispStatusLink 2 rfl rfl,
      State.get_puts_last s [(F.dispStatusLink, 2)] [(F.dispStatusRate, c.2)] F.dispStatusLanes c.1 rfl rfl,
      State.get_puts_last s [(F.dispStatusLink, 2), (F.dispStatusLanes, c.1)] [] F.dispStatusRate c.2 rfl rfl⟩

theorem dropLink_shows (s : State) : (dropLink s).disp = s.disp ∧ (dropLink s).mem = s.mem ∧
    (dropLink s).get F.dispStatusSink = s.get F.dispStatusSink ∧ (dropLink s).get F.dispStatusLink = 0 ∧
    (dropLink s).get F.dispStatusLanes = 0 ∧ (dropLink s).get F.dispStatusRate = 0 := by
  rw [dropLink]
  exact ⟨State.disp_puts _ _, State.mem_puts _ _, State.get_puts_apart _ _ _ (by decide),
    State.get_puts_last s [] [(F.dispStatusLanes, 0), (F.dispStatusRate, 0)] F.dispStatusLink 0 rfl rfl,
    State.get_puts_last s [(F.dispStatusLink, 0)] [(F.dispStatusRate, 0)] F.dispStatusLanes 0 rfl rfl,
    State.get_puts_last s [(F.dispStatusLink, 0), (F.dispStatusLanes, 0)] [] F.dispStatusRate 0 rfl rfl⟩

/-- With a trained link the sink's report decides whether IRQ_HPD trains again. -/
theorem irqHpd_trains {s : State} (k : Sink) (hsink : s.disp.sink ≠ none) (hopen : s.isOpen 71 = true)
    (hlink : s.get F.dispStatusLink = 2) :
    let s1 := { s with disp := { s.disp with sink := some k } }
    execIrqHpd k s = .next (if (s.get F.dispStatusLanes, s.get F.dispStatusRate) ∈ k.works then s1 else trainLink s1) := by
  intro s1
  have hlost : s1.lockLost = !k.works.contains (s.get F.dispStatusLanes, s.get F.dispStatusRate) :=
    congrArg (fun b => b && _) (beq_iff_eq.mpr hlink)
  refine congrArg Host.Outcome.next ((if_neg (by simpa using hsink)).trans ?_)
  by_cases hmem : (s.get F.dispStatusLanes, s.get F.dispStatusRate) ∈ k.works
  · exact (if_neg (fun h => by rw [hlost] at h; simp [hmem] at h)).trans (if_pos hmem).symm
  · exact (if_pos ⟨hopen, hlost.trans (by simp [hmem])⟩).trans (if_neg hmem).symm

theorem writeDispCtrl_retrain (w : Writer) (en : Bool) (s : State) : writeDispCtrl w (dispCtrlValue en) s =
    if isPf0 w then trainLink (s.put F.dispCtrlEnable (if en then 1 else 0)) else s := by
  rw [writeDispCtrl]
  cases isPf0 w <;> cases en <;> rfl

/-! Flips -/

theorem writtenWord_fbNext (old high : Word) (hhigh : high.toNat < 2 ^ 16) :
    writtenWord (R.dispFbNext + 4) old high &&& 0xFFFF = high := by
  have hword : writtenWord (R.dispFbNext + 4) old high =
      (old &&& ~~~ 0xFFFF#32 &&& ~~~ (0#32 &&& high)) ||| (high &&& 0xFFFF#32) := rfl
  have hmask : high &&& 0xFFFF#32 = high := BitVec.eq_of_toNat_eq (by
    rw [BitVec.toNat_and, show (0xFFFF#32).toNat = 2 ^ 16 - 1 from rfl, Nat.and_two_pow_sub_one_eq_mod,
      Nat.mod_eq_of_lt hhigh])
  rw [hword, hmask]
  ext i hi
  have hbit : (high &&& 0xFFFF#32)[i] = high[i] := by rw [hmask]
  rw [BitVec.getElem_and] at hbit
  simp only [BitVec.getElem_and, BitVec.getElem_or, BitVec.getElem_not] at *
  cases hm : (0xFFFF#32)[i] <;> simp_all

/-- The write of the high half keeps the sink, memory and every word but DISP_FB_NEXT's two. -/
theorem plainWrite_fbNext (f : Nat) (high : Word) (s : State) :
    let t := plainWrite f (R.dispFbNext + 4) high s
    (∃ old, t.rd (R.dispFbNext + 4) = writtenWord (R.dispFbNext + 4) old high) ∧
    (∀ o, o ≠ R.dispFbNext → o ≠ R.dispFbNext + 4 → t.rd o = s.rd o) ∧ t.mem = s.mem ∧ t.disp = s.disp := by
  have hhalf : halfOf (R.dispFbNext + 4) = some 1 := rfl
  dsimp only
  rw [plainWrite, hhalf]
  dsimp only
  cases s.host.heldLow.find? (fun e => e.1 = f && e.2.1 = R.dispFbNext + 4 - 4) with
  | none => exact ⟨⟨_, State.rd_wr_same ..⟩, fun o _ hhigh => State.rd_wr_ne _ _ _ _ hhigh, rfl, rfl⟩
  | some e =>
    exact ⟨⟨_, State.rd_wr_same ..⟩, fun o hlow hhigh =>
      (State.rd_wr_ne _ _ _ _ hhigh).trans (State.rd_wr_ne _ _ _ _ hlow), rfl, rfl⟩

theorem flipArm_arms {s : State} {w : Writer} {high : Word} (hhigh : high.toNat < 2 ^ 16) (hpf0 : isPf0 w = true) :
    let t := writeFbNext w (R.dispFbNext + 4) high s
    t.rd (R.dispFbNext + 4) &&& 0xFFFF = high ∧ t.get F.dispStatusFlipPending = 1 ∧
      t.rd64 R.dispFbCur = s.rd64 R.dispFbCur ∧ t.mem = s.mem ∧ t.disp = s.disp := by
  obtain ⟨⟨old, hnew⟩, hother, hmem, hdisp⟩ := plainWrite_fbNext (writerId w) high s
  have harm : writeFbNext w (R.dispFbNext + 4) high s =
      (plainWrite (writerId w) (R.dispFbNext + 4) high s).put F.dispStatusFlipPending 1 := by
    rw [writeFbNext, hpf0]
    exact (if_neg Bool.false_ne_true).trans (if_pos rfl)
  generalize plainWrite (writerId w) (R.dispFbNext + 4) high s = u at hnew hother hmem hdisp harm
  dsimp only
  rw [harm]
  refine ⟨?_, State.get_put_same _ _ _ rfl, rd64_of_rd ?_ ?_, hmem, hdisp⟩
  · rw [State.rd_put_ne _ _ _ _ (by decide), hnew, writtenWord_fbNext _ _ hhigh]
  · exact (State.rd_put_ne _ _ _ _ (by decide)).trans (hother _ (by decide) (by decide))
  · exact (State.rd_put_ne _ _ _ _ (by decide)).trans (hother _ (by decide) (by decide))

theorem execFlipArm_arms {s : State} {w : Writer} {high : Word} (hreach : s.reaches w (R.dispFbNext + 4))
    (hhigh : high.toNat < 2 ^ 16) : execFlipArm w high s = .next (writeFbNext w (R.dispFbNext + 4) high s) := by
  have hclean : high &&& reservedBits (R.dispFbNext + 4) = 0 := by
    rw [show reservedBits (R.dispFbNext + 4) = ~~~ 0xFFFF#32 from rfl, ← writtenWord_fbNext 0 high hhigh]
    ext i hi
    simp only [BitVec.getElem_and, BitVec.getElem_not]
    cases (0xFFFF#32)[i] <;> simp
  exact congrArg Host.Outcome.next ((writeAccess_serve hreach _ _).trans (noteReserved_clean hclean _))

/-- What a flip makes of a state: taken while armed with island 57 not shut. -/
theorem takeFlip_takes (s : State) :
    let flip := s.get F.dispStatusFlipPending = 1 ∧ s.isShut 57 = false
    (takeFlip s).rd R.dispFrame = s.rd R.dispFrame ∧ (takeFlip s).get F.dispStatusVblank = s.get F.dispStatusVblank ∧
    (takeFlip s).disp.line = s.disp.line ∧ (takeFlip s).mem = s.mem ∧
    (flip → (takeFlip s).rd64 R.dispFbCur = s.rd64 R.dispFbNext ∧ (takeFlip s).get F.dispStatusFlipPending = 0 ∧
      (takeFlip s).disp.muted = false) ∧
    (¬ flip → takeFlip s = s) := by
  intro flip
  by_cases hflip : flip
  · have htake : takeFlip s = _ := if_pos (by simpa [flip] using hflip)
    rw [htake]
    refine ⟨?_, ?_, rfl, rfl, fun _ => ⟨?_, ?_, rfl⟩, fun h => absurd hflip h⟩
    · exact (State.rd_put_ne _ _ _ _ (by decide)).trans ((State.rd_wr_ne _ _ _ _ (by decide)).trans (State.rd_wr_ne _ _ _ _ (by decide)))
    · exact (State.get_put_apart _ _ F.dispStatusVblank _ rfl rfl).trans
        ((State.get_wr_ne _ _ _ F.dispStatusVblank (by decide)).trans (State.get_wr_ne _ _ _ F.dispStatusVblank (by decide)))
    · exact (rd64_of_rd (State.rd_put_ne _ _ _ _ (by decide)) (State.rd_put_ne _ _ _ _ (by decide))).trans
        (rd64_wr64_same (rd64_lt _ _))
    · exact State.get_put_same _ _ _ rfl
  · have hkeep : takeFlip s = s := if_neg (by simpa [flip] using hflip)
    rw [hkeep]
    exact ⟨rfl, rfl, rfl, rfl, fun h => absurd h hflip, fun _ => rfl⟩

/-- The state in which a trained link's new frame takes its flip. -/
def newFrame (s : State) : State :=
  let s3 := (s.wrap32 R.dispFrame 1).put F.dispStatusVblank 1
  { s3 with disp := { s3.disp with line := 0 } }

theorem vblankStart_frames {s : State} (hopen : s.isOpen 71 = true) (hidle : s.disp.idle = false)
    (hlink : s.get F.dispStatusLink = 2) : execVblankStart s = .next (takeFlip (newFrame s)) := by
  have hawake : { s with disp := { s.disp with idle := false } } = s := by rw [← hidle]
  refine congrArg Host.Outcome.next ((if_neg (by simp [hopen])).trans ?_)
  dsimp only
  rw [hawake, if_neg (by simp [hidle] : ¬ (s.disp.idle = true ∧ s.lockLost = true)), if_neg (by simp [hlink])]
  rfl

theorem newFrame_shows (s : State) :
    (newFrame s).rd R.dispFrame = s.rd R.dispFrame + 1 ∧ (newFrame s).get F.dispStatusVblank = 1 ∧
    (newFrame s).disp = { s.disp with line := 0 } ∧ (newFrame s).mem = s.mem ∧
    (newFrame s).get F.dispStatusFlipPending = s.get F.dispStatusFlipPending ∧ (newFrame s).isShut 57 = s.isShut 57 ∧
    (newFrame s).rd64 R.dispFbNext = s.rd64 R.dispFbNext ∧ (newFrame s).rd64 R.dispFbCur = s.rd64 R.dispFbCur := by
  have hother : ∀ o, o ≠ R.dispFrame → o ≠ R.dispStatus → (newFrame s).rd o = s.rd o := fun o hframe hstatus =>
    (State.rd_put_ne _ _ _ _ hstatus).trans (State.rd_wr_ne _ _ _ _ hframe)
  refine ⟨?_, State.get_put_same _ _ _ rfl, rfl, rfl, ?_, ?_, ?_, ?_⟩
  · refine (State.rd_put_ne _ _ _ _ (by decide)).trans ((State.rd_wr_same _ _ _).trans ?_)
    exact BitVec.eq_of_toNat_eq (by simp)
  · exact (State.get_put_apart _ _ F.dispStatusFlipPending _ rfl rfl).trans
      (State.get_wr_ne _ _ _ F.dispStatusFlipPending (by decide))
  · have hstate : (newFrame s).hedge 57 = s.hedge 57 :=
      congrArg (fun x => getBits x _ _) (hother _ (by decide) (by decide))
    rw [State.isShut, State.isShut, hstate]
  · exact rd64_of_rd (hother _ (by decide) (by decide)) (hother _ (by decide) (by decide))
  · exact rd64_of_rd (hother _ (by decide) (by decide)) (hother _ (by decide) (by decide))

/-! Lines -/

section
variable {s : State} {d : DisplayCfg} (late : List Nat) (hplan : s.plan.active.display = some d)
  (hopen : s.isOpen 71 = true) (hlink : s.get F.dispStatusLink = 2) (hline : s.disp.line < d.vActive)
include hplan hopen hlink hline

/-- A line is due: it is black, or what its read gives. -/
theorem scanoutLine_sends :
    let s1 := s.put F.dispStatusVblank 0
    let black := List.replicate d.hActive (0, 0, 0)
    execScanoutLine late s = .next (
      if s.get F.dispCtrlEnable = 0 ∨ s.rd64 R.dispFbCur = 0 ∨ s.disp.muted = true then putSent black s1
      else match readLine d s.disp.line s1 with
        | (.error (.fault reason level va), s2) => putSent black (scanFault reason level va s2)
        | (.error (.err _), s2) => putSent black (s2.bump32 R.dispUnderflow 1)
        | (.ok bs, s2) => putSent ((List.range d.hActive).map (fun i => if late.contains i then (0, 0, 0)
            else pixelAt (s.get F.dispFbCfgFormat) (if d.bpc = 0 then 8 else 10) (bytesAt bs (4 * i) 4)))
            (s2.when (late.any (fun i => i < d.hActive)) (fun t => t.bump32 R.dispUnderflow 1))) := by
  intro s1 black
  have henable : s1.get F.dispCtrlEnable = s.get F.dispCtrlEnable := State.get_wr_ne _ _ _ F.dispCtrlEnable (by decide)
  have hformat : s1.get F.dispFbCfgFormat = s.get F.dispFbCfgFormat := State.get_wr_ne _ _ _ F.dispFbCfgFormat (by decide)
  have hcur : s1.rd64 R.dispFbCur = s.rd64 R.dispFbCur :=
    rd64_of_rd (State.rd_put_ne _ _ _ _ (by decide)) (State.rd_put_ne _ _ _ _ (by decide))
  rw [execScanoutLine, hplan]
  refine congrArg Host.Outcome.next ((if_neg (by simp [hopen, hlink, hline])).trans ?_)
  rw [← henable, ← hformat, ← hcur]
  by_cases hblack : s1.get F.dispCtrlEnable = 0 ∨ s1.rd64 R.dispFbCur = 0 ∨ s.disp.muted = true
  · exact (if_pos hblack).trans (if_pos hblack).symm
  · refine (if_neg hblack).trans (Eq.trans ?_ (if_neg hblack).symm)
    dsimp only
    rw [show s1.disp.line = s.disp.line from rfl]
    rcases readLine d s.disp.line s1 with ⟨_ | _, s2⟩
    · cases ‹VaErr› <;> rfl
    · rfl

theorem scanoutLine_black
    (hblack : s.get F.dispCtrlEnable = 0 ∨ s.rd64 R.dispFbCur = 0 ∨ s.disp.muted = true) :
    execScanoutLine late s = .next (putSent (List.replicate d.hActive (0, 0, 0)) (s.put F.dispStatusVblank 0)) :=
  (scanoutLine_sends late hplan hopen hlink hline).trans (congrArg Host.Outcome.next (if_pos hblack))

variable (henable : s.get F.dispCtrlEnable = 1) (hcur : s.rd64 R.dispFbCur ≠ 0) (hmuted : s.disp.muted = false)
include henable hcur hmuted

theorem scanoutLine_pixels {bs : List Byte} {s2 : State}
    (hread : readLine d s.disp.line (s.put F.dispStatusVblank 0) = (.ok bs, s2)) (hdisp : s2.disp = s.disp) :
    ∃ t, execScanoutLine late s = .next t ∧
        t.disp.line = s.disp.line + 1 ∧ t.disp.sent.length = d.hActive ∧
        (∀ i, i < d.hActive → t.disp.sent[i]? = some (if i ∈ late then (0, 0, 0)
          else pixelAt (s.get F.dispFbCfgFormat) (if d.bpc = 0 then 8 else 10) (bytesAt bs (4 * i) 4))) ∧
        (t.rd R.dispUnderflow).toNat = min 0xFFFFFFFF ((s2.rd R.dispUnderflow).toNat +
          if ∃ i ∈ late, i < d.hActive then 1 else 0) := by
  have hshow : ¬ (s.get F.dispCtrlEnable = 0 ∨ s.rd64 R.dispFbCur = 0 ∨ s.disp.muted = true) := by
    simp [henable, hcur, hmuted]
  have hsend := (scanoutLine_sends late hplan hopen hlink hline).trans (congrArg Host.Outcome.next (if_neg hshow))
  rw [hread] at hsend
  have hline : (s2.when (late.any (fun i => i < d.hActive)) (fun t => t.bump32 R.dispUnderflow 1)).disp = s.disp := by
    rw [State.when]
    split <;> exact hdisp
  have hcount : ((s2.when (late.any (fun i => i < d.hActive)) (fun t => t.bump32 R.dispUnderflow 1)).rd
      R.dispUnderflow).toNat = min 0xFFFFFFFF ((s2.rd R.dispUnderflow).toNat +
        if ∃ i ∈ late, i < d.hActive then 1 else 0) := by
    have hlt := (s2.rd R.dispUnderflow).isLt
    by_cases hlate : ∃ i ∈ late, i < d.hActive
    · rw [State.when, if_pos (by simpa using hlate), if_pos hlate, State.rd_bump32_same, satAdd_eq_min, BitVec.toNat_ofNat]
      omega
    · rw [State.when, if_neg (by simpa using hlate), if_neg hlate]
      omega
  refine ⟨_, hsend, congrArg (fun x => x.line + 1) hline, ?_, fun i hi => ?_, hcount⟩
  · simp [putSent]
  · simp [putSent, hi]

theorem scanoutLine_faults {reason level va : Nat} {s2 : State}
    (hread : readLine d s.disp.line (s.put F.dispStatusVblank 0) = (.error (.fault reason level va), s2)) :
    ∃ t, execScanoutLine late s = .next t ∧ t.disp.sent = List.replicate d.hActive (0, 0, 0) ∧ t.disp.muted = true ∧
      t.get F.dispStatusFbError = 1 := by
  have hshow : ¬ (s.get F.dispCtrlEnable = 0 ∨ s.rd64 R.dispFbCur = 0 ∨ s.disp.muted = true) := by
    simp [henable, hcur, hmuted]
  have hsend := (scanoutLine_sends late hplan hopen hlink hline).trans (congrArg Host.Outcome.next (if_neg hshow))
  rw [hread] at hsend
  exact ⟨_, hsend, rfl, rfl, State.get_put_same _ F.dispStatusFbError _ rfl⟩

end

/-! AUX -/

/-- The fields of a DISP_AUX_CMD write are its operands. -/
theorem slice_auxValue {addr len op : Nat} (ha : addr < 2 ^ 20) (hl : len < 16) (ho : op < 4) :
    slice (auxValue addr len op) 0 20 = addr ∧ slice (auxValue addr len op) 20 4 = len ∧
      slice (auxValue addr len op) 24 2 = op := by
  simp only [slice, auxValue]
  omega

/-- The transaction of a DISP_AUX_CMD write, by PF0 with a sink and none running. -/
theorem auxCommand_acts {s : State} {w : Writer} {addr : BitVec 20} {len : BitVec 4} {op : Nat} (hop : op < 3) :
    (isPf0 w = false ∨ s.get F.dispAuxStatusBusy = 1 → auxCommand w (auxValue addr.toNat len.toNat op) s = s) ∧
    (isPf0 w = true → s.get F.dispAuxStatusBusy = 0 → s.disp.sink = none →
      auxCommand w (auxValue addr.toNat len.toNat op) s = s.put F.dispAuxStatusResult 4) ∧
    (isPf0 w = true → s.get F.dispAuxStatusBusy = 0 → s.disp.sink ≠ none →
      auxCommand w (auxValue addr.toNat len.toNat op) s =
      let s1 := s.put F.dispAuxStatusBusy 1
      { s1 with disp := { s.disp with
        aux := some (op, addr.toNat, len.toNat + 1),
        auxOut := if op = 1 then some (addr.toNat, s.auxData.take (len.toNat + 1)) else s.disp.auxOut } }) := by
  obtain ⟨haddr, hlen, hcode⟩ := slice_auxValue (op := op) addr.isLt len.isLt (by omega)
  have hacts : isPf0 w = true → s.get F.dispAuxStatusBusy = 0 → ¬ ((!isPf0 w) = true ∨ s.get F.dispAuxStatusBusy = 1 ∨ op = 3) := by
    intro hpf0 hbusy
    simp [hpf0, hbusy]
    omega
  rw [auxCommand, haddr, hlen, hcode]
  refine ⟨fun h => if_pos ?_, fun hpf0 hbusy hsink => ?_, fun hpf0 hbusy hsink => ?_⟩
  · rcases h with h | h
    · exact .inl (by simp [h])
    · exact .inr (.inl h)
  · exact (if_neg (hacts hpf0 hbusy)).trans (if_pos (by simp [hsink]))
  · exact (if_neg (hacts hpf0 hbusy)).trans (if_neg (by simpa using hsink))

theorem auxData_words {s : State} {d : List Byte} (hlen : d.length = 16)
    (h : ∀ i, i < 4 → s.rd (R.dispAuxData i) = BitVec.ofNat 32 (bytesAt d (4 * i) 4)) : s.auxData = d := by
  have hword : ∀ i, i < 4 → leBytes 4 (s.rd (R.dispAuxData i)).toNat = (d.drop (4 * i)).take 4 := fun i hi =>
    (congrArg (fun x : Word => leBytes 4 x.toNat) (h i hi)).trans (leBytes_word (by omega))
  have htail : ∀ i, (d.drop (4 * i)).take 4 ++ d.drop (4 * (i + 1)) = d.drop (4 * i) := fun i => by
    rw [Nat.mul_add, ← List.drop_drop, List.take_append_drop]
  have hend : d.drop (4 * 4) = [] := List.drop_eq_nil_of_le (by omega)
  calc s.auxData = (d.drop (4 * 0)).take 4 ++ ((d.drop (4 * 1)).take 4 ++ ((d.drop (4 * 2)).take 4 ++
        ((d.drop (4 * 3)).take 4 ++ []))) := by
        rw [← hword 0 (by decide), ← hword 1 (by decide), ← hword 2 (by decide), ← hword 3 (by decide)]
        rfl
    _ = d := by rw [← hend, htail 3, htail 2, htail 1, htail 0, Nat.mul_zero, List.drop_zero]

theorem length_auxData (s : State) : s.auxData.length = 16 := by
  rw [State.auxData, List.length_flatMap]
  simp only [length_leBytes]
  rfl

/-- Sixteen bytes, in four words, read back. -/
theorem auxData_putAuxData {s : State} {bs : List Byte} (hlen : bs.length ≤ 16) :
    (putAuxData bs s).auxData = bs ++ s.auxData.drop bs.length := by
  refine auxData_words (by rw [List.length_append, List.length_drop, length_auxData]; omega) fun i hi => ?_
  generalize hd : bs ++ s.auxData.drop bs.length = d
  have hput : putAuxData bs s = (((s.wr (R.dispAuxData 0) (BitVec.ofNat 32 (bytesAt d (4 * 0) 4))).wr (R.dispAuxData 1)
      (BitVec.ofNat 32 (bytesAt d (4 * 1) 4))).wr (R.dispAuxData 2) (BitVec.ofNat 32 (bytesAt d (4 * 2) 4))).wr
      (R.dispAuxData 3) (BitVec.ofNat 32 (bytesAt d (4 * 3) 4)) := by
    rw [putAuxData, hd]
    rfl
  rw [hput]
  match i, hi with
  | 3, _ => exact State.rd_wr_same ..
  | 2, _ => exact (State.rd_wr_ne _ _ _ _ (by decide)).trans (State.rd_wr_same ..)
  | 1, _ =>
    exact (State.rd_wr_ne _ _ _ _ (by decide)).trans ((State.rd_wr_ne _ _ _ _ (by decide)).trans (State.rd_wr_same ..))
  | 0, _ =>
    exact (State.rd_wr_ne _ _ _ _ (by decide)).trans ((State.rd_wr_ne _ _ _ _ (by decide)).trans
      ((State.rd_wr_ne _ _ _ _ (by decide)).trans (State.rd_wr_same ..)))

theorem putAuxData_disp (bs : List Byte) (s : State) : (putAuxData bs s).disp = s.disp :=
  State.each_keeps State.disp (fun i t => t.wr (R.dispAuxData i) (BitVec.ofNat 32
    (bytesAt (bs ++ s.auxData.drop bs.length) (4 * i) 4))) (fun _ _ => rfl) _ _

/-- The end of a transaction: its RESULT, and BUSY down. -/
def endAux (code : Nat) (s : State) : State := (s.put F.dispAuxStatusResult code).put F.dispAuxStatusBusy 0

theorem endAux_shows (code : Nat) (s : State) : (endAux code s).disp = s.disp ∧
    (endAux code s).get F.dispAuxStatusResult = code % 8 ∧ (endAux code s).get F.dispAuxStatusBusy = 0 ∧
    (endAux code s).auxData = s.auxData := by
  refine ⟨rfl, (State.get_put_apart _ _ F.dispAuxStatusResult _ rfl rfl).trans (State.get_put_same _ _ _ rfl),
    State.get_put_same _ _ _ rfl, ?_⟩
  have hword : ∀ i, (endAux code s).rd (R.dispAuxData i) = s.rd (R.dispAuxData i) := fun i =>
    (State.rd_put_ne _ _ _ _ (by simp only [R.dispAuxData, F.dispAuxStatusBusy, R.dispAuxStatus]; omega)).trans
      (State.rd_put_ne _ _ _ _ (by simp only [R.dispAuxData, F.dispAuxStatusResult, R.dispAuxStatus]; omega))
  simp only [State.auxData, hword]

section
variable {s : State} {op addr n : Nat} (haux : s.disp.aux = some (op, addr, n))
include haux

theorem auxReply_fails {r : AuxReply} {code : Nat} (hr : (r, code) ∈ [(AuxReply.nack, 1), (.deferLimit, 2), (.timeout, 3)]) :
    ∃ t, execAuxReply r s = .next t ∧ t.disp = { s.disp with aux := none } ∧ t.get F.dispAuxStatusResult = code ∧
      t.get F.dispAuxStatusBusy = 0 ∧ t.auxData = s.auxData := by
  have hends : execAuxReply r s = .next (endAux code { s with disp := { s.disp with aux := none } }) ∧ code % 8 = code := by
    rw [execAuxReply, haux]
    simp only [List.mem_cons, Prod.mk.injEq, List.not_mem_nil, or_false] at hr
    obtain ⟨rfl, rfl⟩ | ⟨rfl, rfl⟩ | ⟨rfl, rfl⟩ := hr <;> exact ⟨rfl, rfl⟩
  obtain ⟨hdisp, hresult, hbusy, hdata⟩ := endAux_shows code { s with disp := { s.disp with aux := none } }
  exact ⟨_, hends.1, hdisp, hresult.trans hends.2, hbusy, hdata⟩

theorem auxReply_acks {bs : List Byte} (hlen : bs.length = n) (hn : n ≤ 16) :
    ∃ t, execAuxReply (.ack bs) s = .next t ∧ t.get F.dispAuxStatusResult = 0 ∧ t.get F.dispAuxStatusBusy = 0 ∧
      t.disp = { s.disp with aux := none } ∧ t.auxData = if op = 1 then s.auxData else bs ++ s.auxData.drop n := by
  have hends : execAuxReply (.ack bs) s = .next (endAux 0 (if op = 1 then { s with disp := { s.disp with aux := none } }
      else putAuxData bs { s with disp := { s.disp with aux := none } })) := by
    rw [execAuxReply, haux]
    dsimp only
    rw [List.take_of_length_le (Nat.le_of_eq hlen)]
    rfl
  obtain ⟨hdisp, hresult, hbusy, hdata⟩ := endAux_shows 0 (if op = 1 then { s with disp := { s.disp with aux := none } }
      else putAuxData bs { s with disp := { s.disp with aux := none } })
  refine ⟨_, hends, hresult, hbusy, hdisp.trans ?_, hdata.trans ?_⟩
  · split
    · rfl
    · exact putAuxData_disp ..
  · split
    · rfl
    · exact (auxData_putAuxData (Nat.le_trans (Nat.le_of_eq hlen) hn)).trans (by rw [hlen]; rfl)

end

end Sys2Proof.Machine

namespace Sys2Proof
open Sys2Proof.Machine

/-- Settles O52: the link trains in R420's order, a frame takes an armed flip, and a line is black or what its read gives. -/
theorem displayRules : Obligations.DisplayRules := by
  unfold Obligations.DisplayRules
  intro s
  refine ⟨fun d k hd hk => trainLink_trains hd hk, fun k => ?_, fun hshut => ?_, fun w en hreach => ?_,
    fun w high hreach hhigh => ⟨fun hpf0 => ?_, fun hpf0 => ?_⟩, fun hshut => ?_, fun hopen hidle hlink => ?_,
    fun late hplan => ?_, fun late d hplan hopen hlink hline => ⟨fun hblack => ?_, fun henable hcur hmuted => ⟨?_, ?_⟩⟩,
    fun w addr len op i hi hreach => ?_, fun r haux => ?_, fun op addr n haux => ⟨?_, ?_⟩⟩
  · refine ⟨fun hopen => congrArg Host.Outcome.next (if_pos hopen),
      fun hshut => congrArg Host.Outcome.next (if_neg (Bool.eq_false_iff.mp hshut)),
      fun hsink => congrArg Host.Outcome.next (if_pos (by simp [hsink])), irqHpd_trains k⟩
  · obtain ⟨hdisp, hmem, hsink, hlink, hlanes, -⟩ :=
      dropLink_shows ({ s with disp := { s.disp with sink := none } }.put F.dispStatusSink 0)
    exact ⟨_, congrArg Host.Outcome.next (if_neg (Bool.eq_false_iff.mp hshut)), hdisp,
      hsink.trans (State.get_put_same _ F.dispStatusSink _ rfl), hlink, hlanes, hmem⟩
  · exact congrArg Host.Outcome.next ((writeAccess_serve hreach _ _).trans (writeDispCtrl_retrain w en s))
  · exact (execFlipArm_arms hreach hhigh).trans (congrArg Host.Outcome.next (if_pos (by simp [hpf0])))
  · exact ⟨_, execFlipArm_arms hreach hhigh, flipArm_arms hhigh hpf0⟩
  · exact congrArg Host.Outcome.next (if_pos (by simp [hshut]))
  · obtain ⟨hcount, hvblank, hdisp, hmem, hpending, h57, hnext, hcur⟩ := newFrame_shows s
    obtain ⟨hframe, hstatus, hline, hkept, htaken, hnot⟩ := takeFlip_takes (newFrame s)
    refine ⟨_, vblankStart_frames hopen hidle hlink, hframe.trans hcount, hstatus.trans hvblank,
      hline.trans (congrArg (fun x => x.line) hdisp), hkept.trans hmem, fun hflip => ?_, fun hflip => ?_⟩
    · rw [← hpending, ← h57] at hflip
      obtain ⟨htake, hclear, hmuted⟩ := htaken hflip
      exact ⟨htake.trans hnext, hclear, hmuted⟩
    · rw [← hpending, ← h57] at hflip
      rw [hnot hflip, hpending, hcur, hdisp]
      exact ⟨rfl, rfl, rfl⟩
  · show execScanoutLine late s = .next s
    rw [execScanoutLine, hplan]
  · exact scanoutLine_black late hplan hopen hlink hline hblack
  · exact fun bs s2 hread hdisp => scanoutLine_pixels late hplan hopen hlink hline henable hcur hmuted hread hdisp
  · exact fun reason level va s2 hread _ => scanoutLine_faults late hplan hopen hlink hline henable hcur hmuted hread
  · have hcmd : op < 3 ∧ exec i s = .next (auxCommand w (auxValue addr.toNat len.toNat op) s) := by
      simp only [List.mem_cons, Prod.mk.injEq, List.not_mem_nil, or_false] at hi
      obtain ⟨rfl, rfl⟩ | ⟨rfl, rfl⟩ | ⟨rfl, rfl⟩ := hi <;>
        exact ⟨by decide, congrArg Host.Outcome.next (writeAccess_serve hreach _ _)⟩
    obtain ⟨hkeeps, hnone, hbegins⟩ := auxCommand_acts (s := s) (w := w) (addr := addr) (len := len) hcmd.1
    rw [hcmd.2]
    exact ⟨fun h => congrArg _ (hkeeps h), fun h1 h2 h3 => congrArg _ (hnone h1 h2 h3),
      fun h1 h2 h3 => congrArg _ (hbegins h1 h2 h3)⟩
  · show execAuxReply r s = .next s
    rw [execAuxReply, haux]
  · exact fun r code hr => auxReply_fails haux hr
  · exact fun bs hlen hn => auxReply_acks haux hlen hn

end Sys2Proof
end

section
/-! PROOFS. Tiles: start, completion, preemption and restore (spec/13 R349, spec/15 R381-R383, spec/22 R526, R527). -/
namespace Sys2Proof.Machine

/-! Orders -/

theorem order_uid {s : State} {uid : Nat} {o : Order} (h : s.order uid = some o) : o.uid = uid :=
  of_decide_eq_true (List.find?_some (p := fun o : Order => decide (o.uid = uid)) h)

theorem order_of_orders {s t : State} (h : t.bed.orders = s.bed.orders) (uid : Nat) : t.order uid = s.order uid :=
  congrArg (fun l => l.find? (fun o => o.uid = uid)) h

theorem order_putOrder {s : State} {o x : Order} (h : s.order o.uid = some x) : (putOrder o s).order o.uid = some o := by
  have hsame : ((fun y : Order => decide (y.uid = o.uid)) ∘ fun y => if y.uid = o.uid then o else y) =
      fun y => decide (y.uid = o.uid) := by
    funext y
    by_cases hy : y.uid = o.uid <;> simp [hy]
  have hfound : s.bed.orders.find? (fun y => decide (y.uid = o.uid)) = some x := h
  have hx : x.uid = o.uid := order_uid h
  show (s.bed.orders.map fun y => if y.uid = o.uid then o else y).find? _ = some o
  rw [List.find?_map, hsame, hfound, Option.map_some, if_pos hx]

theorem changeBed_orders (n : Nat) (f : Bed → Bed) (s : State) : (changeBed n f s).bed.orders = s.bed.orders :=
  congrArg (fun b => b.orders) (refreshBed_bed n _)

theorem changeBed_mem (n : Nat) (f : Bed → Bed) (s : State) : (changeBed n f s).mem = s.mem := refreshBed_mem n _

theorem refreshBed_host (n : Nat) (s : State) : (refreshBed n s).host = s.host := by
  unfold refreshBed
  dsimp only
  split <;> rfl

theorem bedAt_of_beds {s t : State} (h : t.bed.beds = s.bed.beds) (n : Nat) : t.bedAt n = s.bedAt n :=
  congrArg (fun l => l.getD n .reset) h

/-! The start of a tile -/

theorem tileBegun_shows {s : State} {n : Nat} {o x : Order} (hn : n < s.bed.beds.length) (ho : s.order o.uid = some x) :
    (tileBegun n o s).bedAt n = { s.bedAt n with gens := (List.range 128).map (seedGen (woSeed o.desc) o.next) } ∧
    (tileBegun n o s).bed.beds.length = s.bed.beds.length ∧
    (tileBegun n o s).order o.uid = some { o with next := o.next + 1 } ∧
    (tileBegun n o s).mem = s.mem ∧ (tileBegun n o s).host = s.host := by
  have hbeds : (tileBegun n o s).bed.beds =
      (setBed n { s.bedAt n with gens := (List.range 128).map (seedGen (woSeed o.desc) o.next) } s).bed.beds := by
    unfold tileBegun
    dsimp only
    split <;> rfl
  refine ⟨(bedAt_of_beds hbeds n).trans (bedAt_setBed hn _), ?_, ?_, ?_, ?_⟩
  · rw [hbeds, setBed, setAt_eq_set, List.length_set]
  · unfold tileBegun
    dsimp only
    split <;> exact order_putOrder (o := { o with next := o.next + 1 }) (x := x) ho
  · unfold tileBegun
    dsimp only
    split <;> rfl
  · unfold tileBegun
    dsimp only
    split <;> rfl

/-- A built-in tile starts behind a draw of how many waves its code uses. -/
theorem startBuiltin_eq (n : Nat) (o : Order) (s : State) : ∃ s0 : State, s0.bed = s.bed ∧ s0.mem = s.mem ∧ s0.host = s.host ∧
    startBuiltin n o s = changeBed n (fun b => { b with built := some ⟨o.uid, o.next, o.cls, false⟩ }) (tileBegun n o s0) := by
  rw [startBuiltin]
  exact ⟨s.draw.2.put (F.bedStatusResident n) (s.draw.1 % 49), rfl, rfl, rfl, rfl⟩

section
variable {s : State} {n : Nat} {o : Order} (hnext : s.nextOrder n = some o) (horder : s.order o.uid = some o)
  (hjob : s.rakeJob o.uid = none)
include hnext hjob

/-- A bed's next order, no rake job: the lowest-numbered bed that can take its tile starts it. -/
theorem startTile_eq : startTile n s =
    if (s.bedsFor o).find? (fun k => s.canTake k o ((s.plotCfg o.plot).elim 0 (fun p => p.waves))) ≠ some n then s
    else if o.isBuiltin then startBuiltin n o s else startProgram n o s := by
  rw [startTile, hnext]
  dsimp only
  rw [hjob]

include horder

theorem startTile_builtin (hn : n < s.bed.beds.length)
    (hlow : (s.bedsFor o).find? (fun k => s.canTake k o ((s.plotCfg o.plot).elim 0 (fun p => p.waves))) = some n)
    (hbuiltin : o.isBuiltin = true) : ∃ t o', startTile n s = t ∧
      (t.bedAt n).built = some ⟨o.uid, o.next, o.cls, false⟩ ∧
      (t.bedAt n).gens = (List.range 128).map (seedGen (woSeed o.desc) o.next) ∧
      (t.bedAt n).waves = (s.bedAt n).waves ∧
      t.order o.uid = some o' ∧ o' = { o with next := o.next + 1 } ∧ t.mem = s.mem ∧ t.host = s.host := by
  obtain ⟨s0, hs0, hmem0, hhost0, hbuilt⟩ := startBuiltin_eq n o s
  have hstart : startTile n s = _ :=
    (startTile_eq hnext hjob).trans ((if_neg (Classical.not_not.mpr hlow)).trans ((if_pos hbuiltin).trans hbuilt))
  have hn0 : n < s0.bed.beds.length := by rw [hs0]; exact hn
  have horder0 : s0.order o.uid = some o := (order_of_orders (congrArg (fun b => b.orders) hs0) _).trans horder
  obtain ⟨hbed, hlen, ho, hmem, hhost⟩ := tileBegun_shows hn0 horder0
  have hbedAt := changeBed_bedAt (Nat.lt_of_lt_of_eq hn0 hlen.symm)
    (fun b => { b with built := some ⟨o.uid, o.next, o.cls, false⟩ })
  rw [hbed, bedAt_of_beds (congrArg (fun b => b.beds) hs0) n] at hbedAt
  refine ⟨_, _, hstart, ?_, ?_, ?_, (order_of_orders (changeBed_orders _ _ _) _).trans ho, rfl,
    (changeBed_mem _ _ _).trans (hmem.trans hmem0), (refreshBed_host _ _).trans (hhost.trans hhost0)⟩
  · exact congrArg (fun b => b.built) hbedAt
  · exact congrArg (fun b => b.gens) hbedAt
  · exact congrArg (fun b => b.waves) hbedAt

theorem startTile_program (hn : n < s.bed.beds.length)
    (hlow : (s.bedsFor o).find? (fun k => s.canTake k o ((s.plotCfg o.plot).elim 0 (fun p => p.waves))) = some n)
    (hbuiltin : o.isBuiltin = false) (hrake : o.isRake = false) (hstall : s.orderStalled o.uid = false)
    (hisland : s.isShut (s.mover o).q.island = false) {bs : List Byte} {s1 : State} {k : Nat} {ws : List Wave}
    (hread : vaRead (s.mover o).q o.fn o.allot (woVa o.desc 1 + 64 * o.next) 64 .read false s = (.ok bs, s1))
    (hgroup : (s1.bedAt n).freeGroup = some k) (hbeds : s1.bed = s.bed)
    (hplace : placeWaves (launched o.uid o.next k (woSize o.desc 3) (woVa o.desc 0)
        ((List.range 16).map (fun i => bytesAt bs (4 * i) 4))) (woSize o.desc 3) (woSize o.desc 2) 0 (s.bedAt n).waves =
        some ws) :
    ∃ t o', startTile n s = t ∧ (t.bedAt n).waves = ws ∧
        (t.bedAt n).groups = (s.bedAt n).groups ++ [(k, ⟨o.uid, o.next, o.cls, false⟩)] ∧
        t.order o.uid = some o' ∧ o'.next = o.next + 1 ∧ t.mem = s1.mem := by
  have hbed : s1.bedAt n = s.bedAt n := bedAt_of_beds (congrArg (fun b => b.beds) hbeds) n
  have ho1 : s1.order o.uid = some o := (order_of_orders (congrArg (fun b => b.orders) hbeds) _).trans horder
  have hn1 : n < s1.bed.beds.length := by rw [hbeds]; exact hn
  let run : TileRun := ⟨o.uid, o.next, o.cls, false⟩
  let s2 := changeBed n (fun x => { x with waves := ws, groups := x.groups ++ [(k, run)] }) s1
  have hlaunch : launchGroup n o (woVa o.desc 0) ((List.range 16).map (fun i => bytesAt bs (4 * i) 4)) s1 =
      tileBegun n o s2 := by
    have hsize : s1.groupOf o = (woSize o.desc 2, woSize o.desc 3) := if_neg (Bool.eq_false_iff.mp hrake)
    rw [launchGroup, hsize]
    dsimp only
    rw [hgroup]
    dsimp only
    rw [hbed, hplace]
  have hstart : startTile n s = tileBegun n o s2 := by
    refine (startTile_eq hnext hjob).trans ((if_neg (Classical.not_not.mpr hlow)).trans
      ((if_neg (Bool.eq_false_iff.mp hbuiltin)).trans ?_))
    rw [startProgram]
    dsimp only
    rw [if_neg (Bool.eq_false_iff.mp hstall), if_neg (Bool.eq_false_iff.mp hisland), hread]
    exact hlaunch
  have hlen : n < s2.bed.beds.length := by
    rw [show s2.bed = _ from refreshBed_bed n _, setBed, setAt_eq_set]
    exact Nat.lt_of_lt_of_eq hn1 (List.length_set ..).symm
  obtain ⟨hbegun, -, ho, hmem, -⟩ := tileBegun_shows (o := o) (x := o) hlen
    ((order_of_orders (changeBed_orders _ _ _) _).trans ho1)
  rw [show s2.bedAt n = _ from changeBed_bedAt hn1 _, hbed] at hbegun
  exact ⟨_, _, hstart, congrArg (fun b => b.waves) hbegun, congrArg (fun b => b.groups) hbegun, ho, rfl,
    hmem.trans (changeBed_mem _ _ _)⟩

end

/-! The end of a built-in tile -/

/-- What the records and counters of a tile's end leave of a state: memory, the beds, and what decides whether the order
goes on. -/
structure State.TileGoesOn (s t : State) (o : Order) : Prop where
  mem : t.mem = s.mem
  beds : t.bed.beds = s.bed.beds
  order : ∀ x, s.order o.uid = some x → ∃ y, t.order o.uid = some y ∧ y.uid = x.uid ∧ y.desc = x.desc ∧ y.total = x.total ∧
    y.prefix_ = x.prefix_ ∧ y.later = x.later ∧ y.ending = x.ending

theorem State.TileGoesOn.trans {s t u : State} {o : Order} (h : s.TileGoesOn t o) (g : t.TileGoesOn u o) : s.TileGoesOn u o := by
  refine ⟨g.mem.trans h.mem, g.beds.trans h.beds, fun x hx => ?_⟩
  obtain ⟨y, hy, h1, h2, h3, h4, h5, h6⟩ := h.order x hx
  obtain ⟨z, hz, g1, g2, g3, g4, g5, g6⟩ := g.order y hy
  exact ⟨z, hz, g1.trans h1, g2.trans h2, g3.trans h3, g4.trans h4, g5.trans h5, g6.trans h6⟩

/-- A change of registers or of the free values alone. -/
theorem State.TileGoesOn.of_eq {s t : State} (o : Order) (hmem : t.mem = s.mem) (hbed : t.bed = s.bed) : s.TileGoesOn t o :=
  ⟨hmem, congrArg (fun b => b.beds) hbed, fun x hx =>
    ⟨x, (order_of_orders (congrArg (fun b => b.orders) hbed) _).trans hx, rfl, rfl, rfl, rfl, rfl, rfl⟩⟩

theorem State.TileGoesOn.refl (s : State) (o : Order) : s.TileGoesOn s o := .of_eq o rfl rfl

/-- A change of the order's flags. -/
theorem State.TileGoesOn.putOrder (s : State) (o : Order) {x y : Order} (hx : s.order o.uid = some x) (huid : y.uid = x.uid)
    (hdesc : y.desc = x.desc) (htotal : y.total = x.total) (hprefix : y.prefix_ = x.prefix_) (hlater : y.later = x.later)
    (hending : y.ending = x.ending) : s.TileGoesOn (putOrder y s) o := by
  refine ⟨rfl, rfl, fun z hz => ?_⟩
  obtain rfl : x = z := Option.some.inj (hx.symm.trans hz)
  have hy : y.uid = o.uid := huid.trans (order_uid hx)
  rw [← hy] at hx ⊢
  exact ⟨y, order_putOrder hx, huid, hdesc, htotal, hprefix, hlater, hending⟩

theorem refreshNumx_mem_bed (s : State) : (refreshNumx s).mem = s.mem ∧ (refreshNumx s).bed = s.bed := ⟨rfl, rfl⟩

theorem goesOn_raiseFlags (n : Nat) (o : Order) (tiller : Bool) (fl : Nat) (s : State) :
    s.TileGoesOn (raiseFlags n o.uid tiller fl s) o := by
  rw [raiseFlags]
  split
  · exact .refl s o
  · next hflags =>
    dsimp only
    generalize hput : s.put (if tiller = true then F.numxFlagsTiller n else F.numxFlagsLanes n) _ = s1
    have hs1 : s.TileGoesOn s1 o := by rw [← hput]; exact .of_eq o rfl rfl
    refine hs1.trans ?_
    cases hx : s1.order o.uid with
    | none => exact .of_eq o (refreshNumx_mem_bed _).1 (refreshNumx_mem_bed _).2
    | some x =>
      exact (State.TileGoesOn.putOrder s1 o (y := { x with flags := Nat.lor x.flags (fl % 256) }) hx rfl rfl rfl rfl rfl rfl).trans
        (.of_eq o (refreshNumx_mem_bed _).1 (refreshNumx_mem_bed _).2)

theorem recordNum_mem_bed (n kind : Nat) (e : NumEvent) (s : State) :
    (recordNum n kind e s).mem = s.mem ∧ (recordNum n kind e s).bed = s.bed := by
  rw [recordNum]
  generalize (if kind = 1 then R.numxGuard n else R.numxNan n) = at_
  dsimp only
  split
  · exact ⟨rfl, rfl⟩
  · generalize numBytes n kind e = bs
    let word := fun (i : Nat) (t : State) => t.wr (at_ i) (BitVec.ofNat 32 (bytesAt bs (4 * i) 4))
    have hmem : (s.each (List.range 8) word).mem = s.mem := State.each_keeps State.mem word (fun _ _ => rfl) _ _
    have hbed : (s.each (List.range 8) word).bed = s.bed := State.each_keeps State.bed word (fun _ _ => rfl) _ _
    generalize s.each (List.range 8) word = s1 at hmem hbed ⊢
    exact ⟨(refreshNumx_mem_bed s1).1.trans hmem, (refreshNumx_mem_bed s1).2.trans hbed⟩

theorem goesOn_guardEvent (n : Nat) (o : Order) (e : NumEvent) (s : State) : s.TileGoesOn (guardEvent n o.uid e s) o := by
  obtain ⟨hmem, hbed⟩ := recordNum_mem_bed n 1 e s
  rw [guardEvent]
  generalize recordNum n 1 e s = s1 at hmem hbed
  refine (State.TileGoesOn.of_eq o hmem hbed).trans ?_
  cases hx : s1.order o.uid with
  | none => exact .refl s1 o
  | some x => exact State.TileGoesOn.putOrder s1 o (y := { x with saturated := true }) hx rfl rfl rfl rfl rfl rfl

theorem tileEvent_mem_bed (o : Order) (t : TileRun) (e : TileEvent) (s : State) :
    (tileEvent o t e s).2.mem = s.mem ∧ (tileEvent o t e s).2.bed = s.bed := ⟨rfl, rfl⟩

theorem goesOn_tileFlags (n : Nat) (o : Order) (t : TileRun) (w : TileOut) (s : State) : s.TileGoesOn (tileFlags n o t w s) o := by
  have hflags := goesOn_raiseFlags n o (woTiller (woOp o.desc)) w.flags s
  rw [tileFlags]
  cases w.guard with
  | none => exact hflags
  | some e =>
    obtain ⟨hmem, hbed⟩ := tileEvent_mem_bed o t e (raiseFlags n o.uid (woTiller (woOp o.desc)) w.flags s)
    exact (hflags.trans (.of_eq o hmem hbed)).trans (goesOn_guardEvent n o _ _)

theorem sieveTile_mem_bed (n : Nat) (d : List Byte) (a b : Fibres) (products : Nat) (s : State) :
    (sieveTile n d a b products s).mem = s.mem ∧ (sieveTile n d a b products s).bed = s.bed := ⟨rfl, rfl⟩

theorem goesOn_counts (n : Nat) (o : Order) (d : List Byte) (w : TileWork) (s : State) : s.TileGoesOn
    (if (woFmtA d ≠ 0 || woFmtB d ≠ 0) = true then sieveTile n d w.a w.b w.out.products s else busy n w.out.clocks s) o := by
  split
  · exact .of_eq o (sieveTile_mem_bed ..).1 (sieveTile_mem_bed ..).2
  · exact .of_eq o rfl rfl

theorem orderTileDone_goesOn {s : State} {o : Order} {uid tile : Nat} (ho : s.order uid = some o) (hending : o.ending = none)
    (htrap : woTrapOvf o.desc = false) (hmore : (advance (o.later.length + 1) o.prefix_ (tile :: o.later)).1 < o.total) :
    orderTileDone uid tile s = putOrder { o with
      prefix_ := (advance (o.later.length + 1) o.prefix_ (tile :: o.later)).1
      later := (advance (o.later.length + 1) o.prefix_ (tile :: o.later)).2 } s := by
  rw [orderTileDone, ho]
  dsimp only
  rw [hending, htrap, Bool.and_false]
  exact (if_neg Bool.false_ne_true).trans (if_neg (by omega))

/-- A bed after its built-in tile, with what stays of it. -/
def Bed.tileDone (b : Bed) (gens : List Nat) : Bed := { b with banks := List.replicate 8 ⟨true, []⟩, gens := gens, built := none }

theorem tileEnds_shows {s : State} {n : Nat} {o : Order} {t : TileRun} (w : TileWork) (hn : n < s.bed.beds.length)
    (ho : s.order o.uid = some o) (hyield : (s.bedAt n).yielding = false) (hending : o.ending = none)
    (htrap : woTrapOvf o.desc = false)
    (hmore : (advance (o.later.length + 1) o.prefix_ (t.tile :: o.later)).1 < o.total) :
    (tileEnds n o t w s).mem = s.mem ∧ (tileEnds n o t w s).bedAt n = (s.bedAt n).tileDone w.out.gens := by
  obtain ⟨hmem, hbeds, hgoes⟩ := (goesOn_tileFlags n o t w.out s).trans (goesOn_counts n o o.desc w _)
  rw [tileEnds]
  generalize hs2 : (if (woFmtA o.desc ≠ 0 || woFmtB o.desc ≠ 0) = true then
      sieveTile n o.desc w.a w.b w.out.products (tileFlags n o t w.out s)
    else busy n w.out.clocks (tileFlags n o t w.out s)) = s2 at hmem hbeds hgoes
  obtain ⟨y, hy, huid, hdesc, htotal, hprefix, hlater, hyending⟩ := hgoes o ho
  have hn2 : n < s2.bed.beds.length := by rw [hbeds]; exact hn
  have hbed3 := changeBed_bedAt hn2 (fun b => b.tileDone w.out.gens)
  rw [bedAt_of_beds hbeds n] at hbed3
  have horder3 := (order_of_orders (changeBed_orders n (fun b => b.tileDone w.out.gens) s2) o.uid).trans hy
  have hmem3 := changeBed_mem n (fun b => b.tileDone w.out.gens) s2
  change (yieldAtEnd n (orderTileDone o.uid t.tile (match (changeBed n (fun b => b.tileDone w.out.gens) s2).order o.uid with
      | some x => putOrder { x with badIndex := x.badIndex || w.bad } (changeBed n (fun b => b.tileDone w.out.gens) s2)
      | none => changeBed n (fun b => b.tileDone w.out.gens) s2))).mem = s.mem ∧
    (yieldAtEnd n (orderTileDone o.uid t.tile (match (changeBed n (fun b => b.tileDone w.out.gens) s2).order o.uid with
      | some x => putOrder { x with badIndex := x.badIndex || w.bad } (changeBed n (fun b => b.tileDone w.out.gens) s2)
      | none => changeBed n (fun b => b.tileDone w.out.gens) s2))).bedAt n = _
  generalize changeBed n (fun b => b.tileDone w.out.gens) s2 = s3 at hbed3 horder3 hmem3
  rw [horder3]
  dsimp only
  have hbad : (putOrder { y with badIndex := y.badIndex || w.bad } s3).order o.uid =
      some { y with badIndex := y.badIndex || w.bad } := by
    rw [← huid] at horder3 ⊢
    exact order_putOrder (o := { y with badIndex := y.badIndex || w.bad }) horder3
  rw [orderTileDone_goesOn hbad (hyending.trans hending) (by rw [← hdesc] at htrap; exact htrap)
    (by rw [← htotal, ← hprefix, ← hlater] at hmore; exact hmore)]
  generalize hs5 : putOrder { y with
      badIndex := y.badIndex || w.bad
      prefix_ := (advance (y.later.length + 1) y.prefix_ (t.tile :: y.later)).1
      later := (advance (y.later.length + 1) y.prefix_ (t.tile :: y.later)).2 }
    (putOrder { y with badIndex := y.badIndex || w.bad } s3) = s5
  have hbed5 : s5.bedAt n = (s.bedAt n).tileDone w.out.gens := by rw [← hs5]; exact hbed3
  have hmem5 : s5.mem = s.mem := by rw [← hs5]; exact hmem3.trans hmem
  have hstay : yieldAtEnd n s5 = s5 := by
    rw [yieldAtEnd, hbed5]
    exact if_neg (Bool.eq_false_iff.mp hyield)
  rw [hstay]
  exact ⟨hmem5, hbed5⟩

theorem completeTile_ends {s s1 s2 : State} {n : Nat} {o : Order} {t : TileRun} {w : TileWork}
    (hstall : s.orderStalled o.uid = false) (hisland : s.isShut (s.mover o).q.island = false)
    (hwork : tileWork (s.mover o) t.tile (s.bedAt n).gens s = (.ok w, s1)) (hnan : w.out.nan = none)
    (hwrite : writePieces (s.mover o) w.pieces s1 = (none, s2)) : completeTile n o t s = tileEnds n o t w s2 := by
  rw [completeTile]
  dsimp only
  rw [if_neg (Bool.eq_false_iff.mp hstall), if_neg (Bool.eq_false_iff.mp hisland), hwork]
  dsimp only
  rw [hnan]
  dsimp only
  rw [hwrite]

/-! Preemption and restore -/

/-- The saved state of a bed with no load in flight and an empty tensor queue. -/
def savedBed (n : Nat) (s : State) : BedSave :=
  ⟨(s.bedAt n).waves, [], (s.bedAt n).banks, (s.bedAt n).gens, (s.bedAt n).built, (s.bedAt n).groups,
    s.mem.bedMem.filter (fun c => bedBase n ≤ c.1 && c.1 < bedBase n + 0x100000)⟩

theorem saveBed_idle {s : State} {n : Nat} (hloads : (s.bedAt n).loads = []) (hqueue : (s.bedAt n).queue = []) :
    saveBed n s = changeBed n (fun x => { x with
      waves := [], loads := [], queue := [], built := none, groups := [], yielding := false,
      saved := some (savedBed n s) }) s := by
  have harrive : s.each (s.bedAt n).loads (fun _ t => arriveLoad n 0 t) = s := by rw [hloads]; rfl
  have hrun : s.each (s.bedAt n).queue (fun _ t => runEntry n t) = s := by rw [hqueue]; rfl
  rw [saveBed, harrive, hrun]
  show changeBed n (fun x => { x with
      waves := [], loads := [], queue := [], built := none, groups := [], yielding := false,
      saved := some ⟨(s.bedAt n).waves, (s.bedAt n).loads, (s.bedAt n).banks, (s.bedAt n).gens, (s.bedAt n).built,
        (s.bedAt n).groups, s.mem.bedMem.filter (fun c => bedBase n ≤ c.1 && c.1 < bedBase n + 0x100000)⟩ }) s = _
  rw [hloads, savedBed]

theorem get_foldl_set_outside (d : Nat → Byte) (l : List Host.Cell) (m : Memory) (a : Nat) (h : ∀ c ∈ l, c.1 ≠ a) :
    Memory.get d (l.foldl (fun m c => Memory.set d m c.1 c.2) m) a = Memory.get d m a := by
  induction l generalizing m with
  | nil => rfl
  | cons c l ih =>
    rw [List.foldl_cons, ih _ fun x hx => h x (List.mem_cons_of_mem c hx)]
    exact Memory.get_set_ne d m _ _ _ (h c List.mem_cons_self).symm

/-- A byte listed once under its address reads as listed. -/
theorem get_foldl_set_listed (d : Nat → Byte) {l : List Host.Cell} (m : Memory) {c : Host.Cell} (hc : c ∈ l)
    (hone : l.filter (fun x => x.1 = c.1) = [c]) :
    Memory.get d (l.foldl (fun m c => Memory.set d m c.1 c.2) m) c.1 = c.2 := by
  obtain ⟨before, after, rfl⟩ := List.append_of_mem hc
  have hafter : after.filter (fun x => x.1 = c.1) = [] := by
    have hlen := congrArg List.length hone
    rw [List.filter_append, List.filter_cons_of_pos (by simp), List.length_append, List.length_cons] at hlen
    exact List.eq_nil_of_length_eq_zero (by simp at hlen; omega)
  rw [List.foldl_append, List.foldl_cons, get_foldl_set_outside]
  · exact Memory.get_set_same ..
  · intro x hx hkey
    exact List.filter_eq_nil_iff.mp hafter x hx (by simp [hkey])

/-- A store without some of its keys reads its default there, and as before elsewhere. -/
theorem cellGet_filter {α : Type} (d : Nat → α) (keep : Nat → Bool) (m : List (Nat × α)) (a : Nat) :
    cellGet d (m.filter (fun c => keep c.1)) a = if keep a then cellGet d m a else d a := by
  induction m with
  | nil => split <;> rfl
  | cons c m ih =>
    rw [List.filter_cons]
    by_cases hc : c.1 = a
    · subst hc
      by_cases hkeep : keep c.1 = true
      · rw [if_pos hkeep, if_pos hkeep, cellGet, cellGet, if_pos rfl, if_pos rfl]
      · rw [if_neg hkeep, ih, if_neg hkeep, if_neg hkeep]
    · have hskip : cellGet d (c :: m) a = cellGet d m a := if_neg hc
      rw [hskip, ← ih]
      split
      · exact if_neg hc
      · rfl

theorem get_fill_zero (m : Memory) (lo n a : Nat) :
    Memory.get ramFill (Memory.fill ramFill m lo n 0) a = if lo ≤ a ∧ a < lo + n then 0 else Memory.get ramFill m a := by
  rw [Memory.fill, if_pos (show (0 : Byte) = ramFill lo from rfl)]
  refine (cellGet_filter ramFill (fun k => k < lo || lo + n ≤ k) m a).trans ?_
  by_cases hin : lo ≤ a ∧ a < lo + n
  · rw [if_pos hin, if_neg (by simp; omega)]
    rfl
  · rw [if_neg hin, if_pos (by simp; omega)]
    rfl

theorem restoreBed_shows {s : State} {n : Nat} (hn : n < s.bed.beds.length) (v : BedSave) :
    (restoreBed n v s).bedAt n = { s.bedAt n with
      waves := v.waves, loads := v.loads, banks := v.banks, gens := v.gens, built := v.built, groups := v.groups,
      saved := none } ∧
    (restoreBed n v s).mem = { s.mem with
      bedMem := v.mem.foldl (fun m c => Memory.set ramFill m c.1 c.2)
        (Memory.fill ramFill s.mem.bedMem (bedBase n) 0x100000 0) } := by
  rw [restoreBed]
  generalize v.mem.foldl (fun m c => Memory.set ramFill m c.1 c.2)
    (Memory.fill ramFill s.mem.bedMem (bedBase n) 0x100000 0) = m
  have hn1 : n < ({ s with mem := { s.mem with bedMem := m } } : State).bed.beds.length := hn
  exact ⟨changeBed_bedAt hn1 _, changeBed_mem _ _ _⟩

end Sys2Proof.Machine

namespace Sys2Proof
open Sys2Proof.Machine

/-- Settles O50: a tile's start, end, saving and restore each change the bed, its order and memory as stated. -/
theorem tiles : Obligations.Tiles := by
  unfold Obligations.Tiles
  intro s n hn b
  refine ⟨fun hnone => ?_, fun o hnext horder hjob => ⟨fun hlow => ?_, fun hlow hbuiltin => ?_, ?_⟩, fun hnone => ?_,
    fun tl o hbuilt horder' hopen hstall hisland hyield hending htrap hmore w s1 s2 hwork hnan hwrite hbed => ?_,
    fun hyield => ?_, fun hyield hopen hloads hqueue => ?_, fun hnone => ?_,
    fun v hsaved => ⟨fun hrefuse => ?_, fun hidle hurgent hopen => ?_⟩⟩
  · show Host.Outcome.next (startTile n s) = .next s
    rw [startTile, hnone]
  · exact congrArg Host.Outcome.next ((startTile_eq hnext hjob).trans (if_pos hlow))
  · obtain ⟨t, o', hstart, hshows⟩ := startTile_builtin hnext horder hjob hn hlow hbuiltin
    exact ⟨t, o', congrArg Host.Outcome.next hstart, hshows⟩
  · intro hlow hbuiltin hrake hstall hisland bs s1 k ws hread hgroup hbeds hplace
    obtain ⟨t, o', hstart, hshows⟩ := startTile_program hnext horder hjob hn hlow hbuiltin hrake hstall hisland hread hgroup
      hbeds hplace
    exact ⟨t, o', congrArg Host.Outcome.next hstart, hshows⟩
  · show execTileComplete n s = .next s
    rw [execTileComplete, show (s.bedAt n).built = none from hnone]
  · have horder : s.order o.uid = some o := by rw [order_uid horder']; exact horder'
    have hexec : execTileComplete n s = .next (tileEnds n o tl w s2) := by
      rw [execTileComplete, show (s.bedAt n).built = some tl from hbuilt]
      dsimp only
      rw [← order_uid horder', horder]
      exact congrArg Host.Outcome.next ((if_pos hopen).trans (completeTile_ends hstall hisland hwork hnan hwrite))
    have hbedAt : s2.bedAt n = s.bedAt n := bedAt_of_beds (congrArg (fun b => b.beds) hbed) n
    obtain ⟨hmem, hdone⟩ := tileEnds_shows (n := n) (t := tl) w (by rw [hbed]; exact hn)
      ((order_of_orders (congrArg (fun b => b.orders) hbed) _).trans horder) (by rw [hbedAt]; exact hyield) hending htrap hmore
    rw [hbedAt] at hdone
    exact ⟨_, hexec, hmem, congrArg (fun x => x.built) hdone, congrArg (fun x => x.banks) hdone,
      congrArg (fun x => x.waves) hdone⟩
  · exact congrArg Host.Outcome.next (if_neg (by simp [show (s.bedAt n).yielding = false from hyield]))
  · have hsave : execMaxTileTimeExpiry n s = _ := congrArg Host.Outcome.next
      ((if_pos (by simp [show (s.bedAt n).yielding = true from hyield, hopen])).trans (saveBed_idle hloads hqueue))
    have hbedAt := changeBed_bedAt hn (fun x => { x with
      waves := [], loads := [], queue := [], built := none, groups := [], yielding := false,
      saved := some (savedBed n s) })
    exact ⟨_, savedBed n s, hsave, congrArg (fun x => x.saved) hbedAt, rfl, rfl, rfl, rfl, rfl, rfl,
      congrArg Bed.idle hbedAt, congrArg (fun x => x.waves) hbedAt, congrArg (fun x => x.yielding) hbedAt, changeBed_mem ..⟩
  · show execBedRestore n s = .next s
    rw [execBedRestore, show (s.bedAt n).saved = none from hnone]
  · show execBedRestore n s = .next s
    rw [execBedRestore, show (s.bedAt n).saved = some v from hsaved]
    refine congrArg Host.Outcome.next (if_neg fun h => ?_)
    simp only [Bool.and_eq_true, Bool.not_eq_true'] at h
    obtain ⟨⟨hidle, hurgent⟩, hopen⟩ := h
    rcases hrefuse with h | h | h
    · exact Bool.false_ne_true (h.symm.trans hidle)
    · exact Bool.false_ne_true (hurgent.symm.trans h)
    · exact Bool.false_ne_true (h.symm.trans hopen)
  · have hrestore : execBedRestore n s = .next (restoreBed n v s) := by
      rw [execBedRestore, show (s.bedAt n).saved = some v from hsaved]
      exact congrArg Host.Outcome.next (if_pos (by simp [show (s.bedAt n).idle = true from hidle, hurgent, hopen]))
    obtain ⟨hbedAt, hmem⟩ := restoreBed_shows hn v
    refine ⟨_, hrestore, congrArg (fun x => x.waves) hbedAt, congrArg (fun x => x.banks) hbedAt,
      congrArg (fun x => x.gens) hbedAt, congrArg (fun x => x.built) hbedAt, congrArg (fun x => x.groups) hbedAt,
      congrArg (fun x => x.saved) hbedAt, congrArg (fun x => x.dram) hmem, fun a ha => ?_, fun c hc hone => ?_⟩
    · rw [hmem]
      exact (get_foldl_set_outside ramFill v.mem _ a ha).trans (get_fill_zero ..)
    · rw [hmem]
      exact get_foldl_set_listed ramFill _ hc hone

end Sys2Proof
end

section
/-! PROOFS. Rake jobs: checks, binning, resolves (spec/17 R403-R414, R423). -/
namespace Sys2Proof.Machine

/-! What a read through a translation leaves: the rake's jobs, the plan and the intake. One equation per operation on the
way, in the order of the model's files. -/

/-- The rake, the plan and the intake of a state. -/
def State.units (s : State) : RakeUnit × PlanUnit × IntakeUnit := (s.rake, s.plan, s.intake)

/-- The rake, the plan and the intake of the state that an operation with a result leaves. -/
def unitsAfter {α : Type} (x : α × State) : RakeUnit × PlanUnit × IntakeUnit := x.2.units

@[simp] theorem units_snd {α : Type} (x : α × State) : x.2.units = unitsAfter x := by rw [unitsAfter]
@[simp] theorem unitsAfter_mk {α : Type} (a : α) (s : State) : unitsAfter (a, s) = s.units := by rw [unitsAfter]
@[simp] theorem rake_plan_intake (s : State) : (s.rake, s.plan, s.intake) = s.units := by rw [State.units]
@[simp] theorem units_mk (regs isl mem mmu host fw plan boot board pwr fence hose bed rake furrow mgmt disp switch intake
    nand evid acou tap timeUs fresh pending) :
    State.units ⟨regs, isl, mem, mmu, host, fw, plan, boot, board, pwr, fence, hose, bed, rake, furrow, mgmt, disp, switch,
      intake, nand, evid, acou, tap, timeUs, fresh, pending⟩ = (rake, plan, intake) := by rw [State.units]
@[simp] theorem units_ite (c : Prop) [Decidable c] (s t : State) :
    (if c then s else t).units = if c then s.units else t.units := apply_ite ..
@[simp] theorem unitsAfter_ite {α : Type} (c : Prop) [Decidable c] (x y : α × State) :
    unitsAfter (if c then x else y) = if c then unitsAfter x else unitsAfter y := apply_ite ..
@[simp] theorem units_each {α : Type} (s : State) (l : List α) (f : α → State → State)
    (h : ∀ a t, (f a t).units = t.units) : (s.each l f).units = s.units := State.each_keeps State.units f h l s
@[simp] theorem units_when (s : State) (c : Bool) (f : State → State)
    (h : ∀ t, (f t).units = t.units) : (s.when c f).units = s.units := by
  unfold State.when; split <;> simp [h]
@[simp] theorem units_puts (s : State) (l : List (Field × Nat)) : (s.puts l).units = s.units := by
  rw [State.units, State.rake_puts, State.plan_puts, State.intake_puts, State.units]
@[simp] theorem units_wr (s : State) (off) (v) : (State.wr s off v).units = s.units := by simp [State.wr]
@[simp] theorem units_put (s : State) (f) (v) : (State.put s f v).units = s.units := by simp [State.put]
@[simp] theorem units_bump (s : State) (f) (n) : (State.bump s f n).units = s.units := by simp [State.bump]
@[simp] theorem units_bump32 (s : State) (off) (n) : (State.bump32 s off n).units = s.units := by simp [State.bump32]
@[simp] theorem units_wrap32 (s : State) (off) (n) : (State.wrap32 s off n).units = s.units := by simp [State.wrap32]
@[simp] theorem units_wr64 (s : State) (off) (v) : (State.wr64 s off v).units = s.units := by simp [State.wr64]
@[simp] theorem units_draw (s : State) : unitsAfter (State.draw s) = s.units := by simp [State.draw]
@[simp] theorem units_putDramUnit (pa) (k) (poisoned) (d) (s : State) :
    (putDramUnit pa k poisoned d s).units = s.units := by
  simp [putDramUnit]
@[simp] theorem units_urgentReason (uid) (code) (s : State) : (urgentReason uid code s).units = s.units := by
  simp [urgentReason]
@[simp] theorem units_reasonFor (code) (sq) (plot) (s : State) : (reasonFor code sq plot s).units = s.units := by
  simp [reasonFor]
@[simp] theorem units_countUnits (ch) (cls) (n) (s : State) : (countUnits ch cls n s).units = s.units := by
  simp [countUnits]
@[simp] theorem units_refreshDirty (s : State) : (refreshDirty s).units = s.units := by simp [refreshDirty]
@[simp] theorem units_putLine (l) (s : State) : (putLine l s).units = s.units := by simp [putLine]
@[simp] theorem units_dropLine (pa) (s : State) : (dropLine pa s).units = s.units := by simp [dropLine]
@[simp] theorem units_writeBack (l) (s : State) : (writeBack l s).units = s.units := by simp [writeBack]
@[simp] theorem units_evict (l) (s : State) : (evict l s).units = s.units := by
  unfold evict
  dsimp only
  split <;> simp
@[simp] theorem units_allocWay (sl) (set) (s : State) : unitsAfter (allocWay sl set s) = s.units := by
  unfold allocWay
  dsimp only
  (repeat' split) <;> simp
@[simp] theorem units_placeLine (pa) (s : State) : unitsAfter (placeLine pa s) = s.units := by
  unfold placeLine
  split <;> simp
@[simp] theorem units_fetchLine (q) (pa) (s : State) : unitsAfter (fetchLine q pa s) = s.units := by simp [fetchLine]
@[simp] theorem units_refreshLock (sl) (k) (s : State) : (refreshLock sl k s).units = s.units := by simp [refreshLock]
@[simp] theorem units_insertLine (q) (pa) (pre) (d) (s : State) : (insertLine q pa pre d s).units = s.units := by
  unfold insertLine
  dsimp only
  (repeat' split) <;> simp
@[simp] theorem units_prefetchNext (q) (pa) (s : State) : (prefetchNext q pa s).units = s.units := by
  simp [prefetchNext]
@[simp] theorem units_islandReset (n) (s : State) : unitsAfter (islandReset n s) = s.units := by simp [islandReset]
@[simp] theorem units_lookupLine (q) (pa) (s : State) : unitsAfter (lookupLine q pa s) = s.units := by
  unfold lookupLine
  dsimp only
  (repeat' split) <;> simp
@[simp] theorem units_giveLine (q) (pa) (d) (s : State) : unitsAfter (giveLine q pa d s) = s.units := by
  simp [giveLine]
@[simp] theorem units_fillLine (q) (pa) (s : State) : unitsAfter (fillLine q pa s) = s.units := by simp [fillLine]
@[simp] theorem units_lineFor (q) (whole) (pa) (s : State) : unitsAfter (lineFor q whole pa s) = s.units := by
  unfold lineFor
  dsimp only
  split <;> simp
@[simp] theorem units_denied (pa) (s : State) : unitsAfter (denied pa s) = s.units := by simp [denied]
@[simp] theorem units_readFrom (l) (o) (n) (s : State) : unitsAfter (readFrom l o n s) = s.units := by simp [readFrom]
@[simp] theorem units_writeInto (q) (l) (o) (bs) (s : State) : (writeInto q l o bs s).units = s.units := by
  simp [writeInto]
@[simp] theorem units_answerMem (island) (r) (s : State) : (answerMem island r s).units = s.units := by
  simp [answerMem]
@[simp] theorem units_performFill (f) (s : State) : (performFill f s).units = s.units := by
  unfold performFill
  (repeat' split) <;> simp
@[simp] theorem units_performFills (base) (s : State) : (performFills base s).units = s.units := by
  simp [performFills]
@[simp] theorem units_readInLine (q0) (pa) (n) (s0 : State) : unitsAfter (readInLine q0 pa n s0) = s0.units := by
  unfold readInLine
  dsimp only
  (repeat' split) <;> simp
@[simp] theorem units_bedAccess (q) (n) (off) (len) (write) (s : State) :
    unitsAfter (bedAccess q n off len write s) = s.units := by
  simp [bedAccess]
@[simp] theorem units_readLines (q) (x1) (x2) (x3) (x4 : State) :
    unitsAfter (readLines q x1 x2 x3 x4) = x4.units := by
  fun_induction readLines <;> simp +zetaDelta [*]
@[simp] theorem units_physRead (q) (pa) (n) (s : State) : unitsAfter (physRead q pa n s) = s.units := by
  unfold physRead
  dsimp only
  (repeat' split) <;> simp
@[simp] theorem units_tableEntry (q) (fn) (hostSpace) (addr) (s : State) :
    unitsAfter (tableEntry q fn hostSpace addr s) = s.units := by
  unfold tableEntry
  dsimp only
  (repeat' split) <;> simp
@[simp] theorem units_walkFrom (q fn allot hs va l tb) (s : State) :
    unitsAfter (walkFrom q fn allot hs va l tb s) = s.units := by
  induction l generalizing tb s with
  | zero =>
    rw [walkFrom]
    dsimp only
    (repeat' split) <;> simp
  | succ l ih =>
    rw [walkFrom]
    dsimp only
    (repeat' split) <;> simp [ih]
@[simp] theorem units_cacheEntry (t) (s : State) : (cacheEntry t s).units = s.units := by simp [cacheEntry]
@[simp] theorem units_translate (q) (fn) (allot) (va) (a) (pinned) (s : State) :
    unitsAfter (translate q fn allot va a pinned s) = s.units := by
  unfold translate
  dsimp only
  (repeat' split) <;> simp
@[simp] theorem units_vaReadFrom (q fn allot a pinned fuel va n) (s : State) :
    unitsAfter (vaReadFrom q fn allot a pinned fuel va n s) = s.units := by
  induction fuel generalizing va n s with
  | zero => simp [vaReadFrom]
  | succ fuel ih =>
    unfold vaReadFrom
    dsimp only
    (repeat' split) <;> simp [ih]
@[simp] theorem units_vaRead (q) (fn) (allot) (va) (n) (a) (pinned) (s : State) :
    unitsAfter (vaRead q fn allot va n a pinned s) = s.units := by
  simp [vaRead]

theorem rake_vaRead {q : Req} {fn allot va n : Nat} {a : Access} {pinned : Bool} {s t : State} {r : Except VaErr (List Byte)}
    (h : vaRead q fn allot va n a pinned s = (r, t)) : t.rake = s.rake := by
  have hunits := units_vaRead q fn allot va n a pinned s
  rw [h, unitsAfter_mk, State.units, State.units] at hunits
  exact congrArg (fun x => x.1) hunits

/-! The rake's jobs -/

theorem refreshRake_shows (s : State) : (refreshRake s).bed = s.bed ∧ (refreshRake s).rake = s.rake ∧
    (refreshRake s).mem = s.mem ∧ (refreshRake s).host = s.host ∧ (refreshRake s).rd R.rakeEntries = s.rd R.rakeEntries := by
  have hputs : ∀ a b, (s.puts [(F.rakeStatusPhase, a), (F.rakeStatusJobs, b)]).rd R.rakeEntries = s.rd R.rakeEntries :=
    fun a b => State.rd_puts_ne _ _ _ (by simp [F.rakeStatusPhase, F.rakeStatusJobs, R.rakeEntries, R.rakeStatus])
  rw [refreshRake]
  dsimp only
  split
  · exact ⟨rfl, rfl, rfl, rfl, (State.rd_wr_ne _ _ _ _ (by decide)).trans (hputs _ _)⟩
  · exact ⟨rfl, rfl, rfl, rfl, hputs _ _⟩

theorem mem_putJob {s : State} {j : RakeJob} (h : ∃ k ∈ s.rake.jobs, k.uid = j.uid) : j ∈ (putJob j s).rake.jobs := by
  obtain ⟨k, hk, huid⟩ := h
  exact List.mem_map.mpr ⟨k, hk, if_pos huid⟩

theorem mem_putJob_other {s : State} {j k : RakeJob} (h : k ∈ s.rake.jobs) (huid : k.uid ≠ j.uid) :
    k ∈ (putJob j s).rake.jobs := List.mem_map.mpr ⟨k, h, if_neg huid⟩

/-- Choosing the job to bin changes the phase of one job alone: a job of its own entry keeps its descriptor, edge, targets,
table and all but that phase. -/
theorem startBinning_shows (s : State) : (startBinning s).bed = s.bed ∧ (startBinning s).mem = s.mem ∧
    (startBinning s).host = s.host ∧ (startBinning s).rd R.rakeEntries = s.rd R.rakeEntries ∧
    ∀ j ∈ s.rake.jobs, (∀ k ∈ s.rake.jobs, k.uid = j.uid → k = j) →
      (j ∈ (startBinning s).rake.jobs ∨ j.phase = 0 ∧ { j with phase := 1 } ∈ (startBinning s).rake.jobs) := by
  have hkeep : ∀ t, startBinning s = refreshRake t → t.bed = s.bed → t.mem = s.mem → t.host = s.host →
      t.regs = s.regs → (startBinning s).bed = s.bed ∧ (startBinning s).mem = s.mem ∧ (startBinning s).host = s.host ∧
        (startBinning s).rd R.rakeEntries = s.rd R.rakeEntries ∧ (startBinning s).rake = t.rake := by
    intro t hstart hbed hmem hhost hregs
    obtain ⟨hb, hr, hm, hh, hrd⟩ := refreshRake_shows t
    rw [hstart]
    exact ⟨hb.trans hbed, hm.trans hmem, hh.trans hhost, hrd.trans (by rw [State.rd, hregs, State.rd]), hr⟩
  have hsame : startBinning s = refreshRake s → _ := fun h => hkeep s h rfl rfl rfl rfl
  by_cases hbinning : s.rake.jobs.any (fun j => j.phase == 1) = true
  · obtain ⟨hbed, hmem, hhost, hrd, hrake⟩ := hsame (if_pos hbinning)
    exact ⟨hbed, hmem, hhost, hrd, fun j hj _ => .inl (by rw [hrake]; exact hj)⟩
  · have hstart : startBinning s = _ := if_neg hbinning
    dsimp only at hstart
    split at hstart
    · next k hfind =>
      obtain ⟨hbed, hmem, hhost, hrd, hrake⟩ := hkeep _ hstart rfl rfl rfl rfl
      obtain ⟨hk, hphase⟩ := List.mem_filter.mp (List.mem_of_find?_eq_some hfind)
      refine ⟨hbed, hmem, hhost, hrd, fun j hj hone => ?_⟩
      rw [hrake]
      by_cases huid : k.uid = j.uid
      · obtain rfl := hone k hk huid
        exact .inr ⟨beq_iff_eq.mp hphase, mem_putJob (j := { k with phase := 1 }) ⟨k, hk, rfl⟩⟩
      · exact .inl (mem_putJob_other hj (Ne.symm huid))
    · obtain ⟨hbed, hmem, hhost, hrd, hrake⟩ := hsame hstart
      exact ⟨hbed, hmem, hhost, hrd, fun j hj _ => .inl (by rw [hrake]; exact hj)⟩

/-! The checks of a job -/

/-- A check that fails is the first; with none failing there is none. -/
theorem rakeCheck_first (s : State) (p : PlotCfg) (d : List Byte) (ts : List (List Byte)) (edge : Nat) :
    let beds := s.eligible p (rkMask d)
    let c1 := targetsOk d ts = true
    let c2 := p.role = 0 ∨ p.role = 3
    let c3 := beds ≠ []
    let c4 := ∀ b ∈ beds, edge * edge * (ts.map tgBytes).foldl (· + ·) 0 ≤ s.get (F.bedSplitTile b) * 0x8000
    let c5 := groupFits (slice (rkGroup d) 0 5) (slice (rkGroup d) 8 9) p.waves = true
    (¬ c1 → s.rakeCheck p d ts edge = some (dw1 0xF0 0xC0 0)) ∧
    (c1 → ¬ c2 → s.rakeCheck p d ts edge = some (dw1 0x41 0xC1 0)) ∧
    (c1 → c2 → ¬ c3 → s.rakeCheck p d ts edge = some (dw1 0x41 0xB3 0)) ∧
    (c1 → c2 → c3 → ¬ c4 → s.rakeCheck p d ts edge = some (dw1 0xF0 0xC2 0)) ∧
    (c1 → c2 → c3 → c4 → ¬ c5 → s.rakeCheck p d ts edge = some (dw1 0xF0 0xB5 0)) ∧
    (c1 → c2 → c3 → c4 → c5 → s.rakeCheck p d ts edge = none) := by
  intro beds c1 c2 c3 c4 c5
  have h1 : c1 → ¬ (!targetsOk d ts) = true := fun h => by simp [show targetsOk d ts = true from h]
  have h2 : c2 → ¬ (p.role ≠ 0 ∧ p.role ≠ 3) := fun h => by
    rcases h with h | h <;> simp [h]
  have h3 : c3 → ¬ beds.isEmpty = true := fun h => by simpa using h
  have h4 : c4 ↔ ¬ beds.any (fun b => s.get (F.bedSplitTile b) * 0x8000 < edge * edge * (ts.map tgBytes).foldl (· + ·) 0) = true := by
    simp [c4]
  have h5 : c5 → ¬ (!groupFits (slice (rkGroup d) 0 5) (slice (rkGroup d) 8 9) p.waves) = true := fun h => by
    simp [show groupFits (slice (rkGroup d) 0 5) (slice (rkGroup d) 8 9) p.waves = true from h]
  rw [State.rakeCheck]
  refine ⟨fun hc => if_pos (by simpa [c1] using hc), fun hc1 hc => (if_neg (h1 hc1)).trans (if_pos (not_or.mp hc)),
    fun hc1 hc2 hc => ?_, fun hc1 hc2 hc3 hc => ?_, fun hc1 hc2 hc3 hc4 hc => ?_, fun hc1 hc2 hc3 hc4 hc5 => ?_⟩
  · exact (if_neg (h1 hc1)).trans ((if_neg (h2 hc2)).trans (if_pos (by simpa [c3] using hc)))
  · exact (if_neg (h1 hc1)).trans ((if_neg (h2 hc2)).trans ((if_neg (h3 hc3)).trans (if_pos (Classical.not_not.mp (mt h4.mpr hc)))))
  · exact (if_neg (h1 hc1)).trans ((if_neg (h2 hc2)).trans ((if_neg (h3 hc3)).trans ((if_neg (h4.mp hc4)).trans
      (if_pos (by simpa [c5] using hc)))))
  · exact (if_neg (h1 hc1)).trans ((if_neg (h2 hc2)).trans ((if_neg (h3 hc3)).trans ((if_neg (h4.mp hc4)).trans
      (if_neg (h5 hc5)))))

/-- A RAKE entry of its MODE is taken. -/
theorem rakeRow_takes {s : State} {uid : Nat} {e : Entry} {d : List Byte} (he : s.entry uid = some e) (hd : e.desc = some d)
    (hop : e.opcode = 3) (hopen : s.isOpen 56 = true) (hnew : s.order uid = none) :
    rakeRow (rkFusion d) uid s = .next (takeJob e d s) := by
  rw [rakeRow, he]
  dsimp only
  rw [hd]
  exact congrArg Host.Outcome.next (if_pos ⟨hop, rfl, hopen, by rw [hnew]; rfl⟩)

section
variable {s : State} {e : Entry} {d : List Byte} {p : PlotCfg} (hopen : s.isOpen 65 = true)
  (hstall : s.isStalled (.rake e.uid) = false) (hplot : s.plotCfg e.plot = some p)
include hopen hstall hplot

theorem takeJob_checks : takeJob e d s =
    if !rkDescOk d (tileEdge p.tile) then finishEntry e.uid (dw1 0xF0 0xC0 0) 0 s
    else
      let r := vaRead s.rakeReq (s.sqFn e.sq) (s.get (F.sqCfgAllot e.sq)) (rkTargetsVa d) (32 * rkTargets d) .read false s
      match r.1 with
      | .error x => stallEntry e x r.2
      | .ok bs =>
        match r.2.rakeCheck p d (splitTargets (rkTargets d) bs) (tileEdge p.tile) with
        | some w => finishEntry e.uid w 0 r.2
        | none => acceptJob e d (tileEdge p.tile) (splitTargets (rkTargets d) bs) r.2 := by
  have hshut : s.isShut 65 = false := by
    have hstate : s.hedge 65 = OPEN := beq_iff_eq.mp hopen
    rw [State.isShut, hstate]
    rfl
  rw [takeJob, if_neg (Bool.eq_false_iff.mp hshut), hstall, hopen, hplot]
  rfl

theorem takeJob_reads (hdesc : rkDescOk d (tileEdge p.tile) = true) {bs : List Byte} {s1 : State}
    (hread : vaRead s.rakeReq (s.sqFn e.sq) (s.get (F.sqCfgAllot e.sq)) (rkTargetsVa d) (32 * rkTargets d) .read false s =
      (.ok bs, s1)) :
    (∀ w, s1.rakeCheck p d (splitTargets (rkTargets d) bs) (tileEdge p.tile) = some w →
      takeJob e d s = finishEntry e.uid w 0 s1) ∧
    (s1.rakeCheck p d (splitTargets (rkTargets d) bs) (tileEdge p.tile) = none →
      takeJob e d s = acceptJob e d (tileEdge p.tile) (splitTargets (rkTargets d) bs) s1) := by
  rw [takeJob_checks hopen hstall hplot, hdesc, hread]
  refine ⟨fun w hw => ?_, fun hw => ?_⟩ <;> (dsimp only; rw [hw]) <;> rfl

end

/-- An accepted job is the newest order and a job, in binning at once where nothing else is binned. -/
theorem acceptJob_becomes {e : Entry} {d : List Byte} {edge : Nat} {ts : List (List Byte)} {s : State}
    (hstart : rkStart d ≠ rkT d edge) (hjob : ∀ k ∈ s.rake.jobs, k.uid ≠ e.uid) : ∃ o j,
    (acceptJob e d edge ts s).bed.orders = s.bed.orders ++ [o] ∧ o.uid = e.uid ∧ o.total = rkT d edge ∧ o.next = rkStart d ∧
    o.prefix_ = rkStart d ∧ j ∈ (acceptJob e d edge ts s).rake.jobs ∧ j.uid = e.uid ∧ j.desc = d ∧ j.edge = edge ∧
    j.targets = ts ∧ (acceptJob e d edge ts s).mem = s.mem ∧ (acceptJob e d edge ts s).host = s.host := by
  have haccept : acceptJob e d edge ts s = _ := if_neg hstart
  rw [haccept]
  generalize hs1 : ({ s with
      bed := { s.bed with orders := s.bed.orders ++ [_] }
      rake := { s.rake with jobs := s.rake.jobs ++ [_] } } : State) = s1
  obtain ⟨hbed, hmem, hhost, -, hjobs⟩ := startBinning_shows s1
  subst hs1
  have hlast : ∀ k ∈ s.rake.jobs ++ [⟨e.uid, d, ts, edge, 0, [], []⟩], k.uid = e.uid → k = ⟨e.uid, d, ts, edge, 0, [], []⟩ := by
    intro k hk huid
    rcases List.mem_append.mp hk with hold | hnew
    · exact absurd huid (hjob k hold)
    · exact List.mem_singleton.mp hnew
  rcases hjobs ⟨e.uid, d, ts, edge, 0, [], []⟩ (List.mem_append_right _ (List.mem_singleton.mpr rfl)) hlast with hj | ⟨-, hj⟩
  · exact ⟨_, _, congrArg (fun b => b.orders) hbed, rfl, rfl, rfl, rfl, hj, rfl, rfl, rfl, rfl, hmem, hhost⟩
  · exact ⟨_, _, congrArg (fun b => b.orders) hbed, rfl, rfl, rfl, rfl, hj, rfl, rfl, rfl, rfl, hmem, hhost⟩

/-! Binning -/

theorem countBinning_shows (entries : Nat) (bs : List Binned) (s : State) :
    (countBinning entries bs s).rd R.rakeEntries = BitVec.ofNat 32 entries ∧ (countBinning entries bs s).mem = s.mem ∧
    (countBinning entries bs s).host = s.host ∧ (countBinning entries bs s).bed = s.bed ∧
    (countBinning entries bs s).rake = s.rake := by
  refine ⟨?_, rfl, rfl, rfl, rfl⟩
  rw [countBinning]
  exact (State.rd_put_ne _ _ _ _ (by decide)).trans ((State.rd_put_ne _ _ _ _ (by decide)).trans
    ((State.rd_put_ne _ _ _ _ (by decide)).trans ((State.rd_put_ne _ _ _ _ (by decide)).trans
      ((State.rd_put_ne _ _ _ _ (by decide)).trans (State.rd_wr_same _ _ _)))))

/-- A state without an order. -/
def withoutOrder (uid : Nat) (s : State) : State :=
  { s with bed := { s.bed with orders := s.bed.orders.filter (fun x => x.uid ≠ uid) } }

theorem length_tileLists (t : Nat) (bs : List Binned) : (tileLists t bs).length = t := by simp [tileLists]

theorem execBinningDone_reads {s : State} {j : RakeJob} {o : Order}
    (hfind : s.rake.jobs.find? (fun j => j.phase == 1) = some j) (horder : s.order j.uid = some o)
    (hopen : s.isOpen 65 = true) (hstall : s.orderStalled j.uid = false) :
    execBinningDone s = .next (finishBinning j o s) := by
  rw [execBinningDone, hfind]
  dsimp only
  rw [horder]
  exact congrArg Host.Outcome.next (if_neg (by simp [hopen, hstall]))

section
variable {s s1 : State} {j : RakeJob} {o : Order} {bs : List Binned}
  (hread : binRecords j o (rkPrims j.desc) 0 s = (.ok bs, s1))
include hread

theorem finishBinning_overflows {entries need : Nat} (hentries : entries = ((tileLists o.total bs).map List.length).foldl (· + ·) 0)
    (hneed : need = 8 * o.total + 4 * entries) (hfull : rkBinBytes j.desc < need) :
    ∃ u, u.mem = s1.mem ∧ u.host = s1.host ∧ u.bed.orders = s1.bed.orders.filter (fun x => x.uid ≠ j.uid) ∧
      u.rd R.rakeEntries = BitVec.ofNat 32 entries ∧
      finishBinning j o s = dropJob j.uid (completeEntry j.uid ⟨0x70, 0, o.flags % 256, need⟩ u) := by
  subst hentries hneed
  have hfinish : finishBinning j o s = dropJob j.uid (completeEntry j.uid ⟨0x70, 0, o.flags % 256,
      8 * o.total + 4 * ((tileLists o.total bs).map List.length).foldl (· + ·) 0⟩ (withoutOrder j.uid
        (countBinning (((tileLists o.total bs).map List.length).foldl (· + ·) 0) bs s1))) := by
    rw [finishBinning, hread]
    exact if_pos hfull
  obtain ⟨hrd, hmem, hhost, hbed, -⟩ := countBinning_shows (((tileLists o.total bs).map List.length).foldl (· + ·) 0) bs s1
  generalize countBinning (((tileLists o.total bs).map List.length).foldl (· + ·) 0) bs s1 = u at hrd hmem hhost hbed hfinish
  exact ⟨withoutOrder j.uid u, hmem, hhost, congrArg (fun b => b.orders.filter (fun x => x.uid ≠ j.uid)) hbed, hrd, hfinish⟩

theorem finishBinning_lists {entries : Nat} (hentries : entries = ((tileLists o.total bs).map List.length).foldl (· + ·) 0)
    (hfits : 8 * o.total + 4 * entries ≤ rkBinBytes j.desc) {s2 : State}
    (hwrite : writeBins j o bs (tileLists o.total bs) s1 = (none, s2)) (hj : j ∈ s2.rake.jobs) :
    ∃ j', j' ∈ (finishBinning j o s).rake.jobs ∧ j'.uid = j.uid ∧ j'.phase = 2 ∧
        j'.table = listTable (8 * o.total) (tileLists o.total bs) ∧
        (finishBinning j o s).rd R.rakeEntries = BitVec.ofNat 32 entries ∧ (finishBinning j o s).mem = s2.mem ∧
        (finishBinning j o s).bed = s2.bed := by
  subst hentries
  let shading : RakeJob := { j with phase := 2, table := listTable (8 * o.total) (tileLists o.total bs) }
  have hfinish : finishBinning j o s = startBinning (putJob shading
      (countBinning (((tileLists o.total bs).map List.length).foldl (· + ·) 0) bs s2)) := by
    rw [finishBinning, hread]
    refine (if_neg (Nat.not_lt.mpr hfits)).trans ?_
    dsimp only
    rw [hwrite, length_tileLists]
  obtain ⟨hrd, hmem, -, hbed, hrake⟩ := countBinning_shows (((tileLists o.total bs).map List.length).foldl (· + ·) 0) bs s2
  generalize countBinning (((tileLists o.total bs).map List.length).foldl (· + ·) 0) bs s2 = u at hrd hmem hbed hrake hfinish
  rw [← hrake] at hj
  obtain ⟨hbed2, hmem2, -, hrd2, hjobs⟩ := startBinning_shows (putJob shading u)
  have hone : ∀ k ∈ (putJob shading u).rake.jobs, k.uid = shading.uid → k = shading := by
    intro k hk huid
    obtain ⟨x, -, rfl⟩ := List.mem_map.mp hk
    by_cases hx : x.uid = shading.uid
    · exact if_pos hx
    · rw [if_neg hx] at huid
      exact absurd huid hx
  rw [hfinish]
  rcases hjobs shading (mem_putJob ⟨j, hj, rfl⟩) hone with hin | ⟨hphase, -⟩
  · exact ⟨shading, hin, rfl, rfl, rfl, hrd2.trans hrd, hmem2.trans hmem, hbed2.trans hbed⟩
  · exact absurd hphase (by decide : (2 : Nat) ≠ 0)

end

/-! Resolves -/

theorem orderTileDone_counts {s : State} {o : Order} {uid : Nat} (ho : s.order uid = some o) (hlater : o.later = [])
    (hending : o.ending = none) (htrap : woTrapOvf o.desc = false) (hmore : o.prefix_ + 1 < o.total) :
    orderTileDone uid o.prefix_ s = putOrder { o with prefix_ := o.prefix_ + 1, later := [] } s := by
  have hadvance : advance (o.later.length + 1) o.prefix_ (o.prefix_ :: o.later) = (o.prefix_ + 1, []) := by
    rw [hlater, List.length_nil, advance, if_pos (by simp)]
    simp [advance]
  rw [orderTileDone_goesOn ho hending htrap (by rw [hadvance]; exact hmore), hadvance]

/-- The bed of a resolved tile is free of it; a tile with an empty list had none. -/
def freeTile (n uid tile : Nat) (s : State) : State :=
  if n = 48 then s
  else changeBed n (fun b => { b with groups := b.groups.filter (fun g => !(g.2.uid = uid && g.2.tile = tile)) }) s

theorem freeTile_shows {s : State} {n : Nat} (hn : n ≠ 48 → n < s.bed.beds.length) (uid tile : Nat) :
    (freeTile n uid tile s).mem = s.mem ∧ (freeTile n uid tile s).bed.orders = s.bed.orders ∧
    (n ≠ 48 → ((freeTile n uid tile s).bedAt n).yielding = (s.bedAt n).yielding) := by
  rw [freeTile]
  split
  · next hnone => exact ⟨rfl, rfl, fun h => absurd hnone h⟩
  · next hbed => exact ⟨changeBed_mem .., changeBed_orders .., fun _ =>
      congrArg (fun b => b.yielding) (changeBed_bedAt (hn hbed) _)⟩

section
variable {s s1 : State} {uid n : Nat} {j : RakeJob} {o : Order} (huid : j.uid = uid) (ho : s.order uid = some o)
  (hholds : s.holdsTile n uid o.prefix_ = true) (hyield : (s.bedAt n).yielding = false)
  (hlater : o.later = []) (hending : o.ending = none) (htrap : woTrapOvf o.desc = false) (hmore : o.prefix_ + 1 < o.total)
  (hwrite : resolveTargets j o o.prefix_ n 0 j.targets s = (none, s1)) (hbed : s1.bed = s.bed)
include huid ho hholds hyield hlater hending htrap hmore hwrite hbed

theorem resolveTile_resolves : ∃ o', (resolveTile j o n s).mem = s1.mem ∧ (resolveTile j o n s).order uid = some o' ∧
    o'.prefix_ = o.prefix_ + 1 ∧ o'.next = o.next := by
  subst huid
  have hn : n ≠ 48 → n < s.bed.beds.length := by
    intro h48
    refine Classical.byContradiction fun hout => ?_
    have hreset : s.bedAt n = .reset := State.bedAt_outside (Nat.not_lt.mp hout)
    rw [State.holdsTile, hreset] at hholds
    have hnone : Bed.reset.groups = [] := rfl
    simp [h48, hnone] at hholds
  let free := freeTile n j.uid o.prefix_ (putJob { j with shaded := j.shaded.filter (fun x => x.1 ≠ o.prefix_) } s1)
  have hresolve : resolveTile j o n s = if n = 48 then refreshRake (orderTileDone j.uid o.prefix_ free)
      else yieldAtEnd n (refreshRake (orderTileDone j.uid o.prefix_ free)) := by
    rw [resolveTile]
    dsimp only
    rw [hwrite]
    rfl
  obtain ⟨hmem, horders, hyields⟩ := freeTile_shows (n := n)
    (s := putJob { j with shaded := j.shaded.filter (fun x => x.1 ≠ o.prefix_) } s1)
    (fun h => by rw [show (putJob _ s1).bed = s.bed from hbed]; exact hn h) j.uid o.prefix_
  have hfree : free.order j.uid = some o :=
    (order_of_orders (horders.trans (congrArg (fun b => b.orders) hbed)) j.uid).trans ho
  have hbedAt : n ≠ 48 → (free.bedAt n).yielding = false := fun h =>
    (hyields h).trans ((congrArg (fun b => (b.beds.getD n .reset).yielding) hbed).trans hyield)
  rw [hresolve, orderTileDone_counts hfree hlater hending htrap hmore]
  have hput : (putOrder { o with prefix_ := o.prefix_ + 1, later := [] } free).order j.uid =
      some { o with prefix_ := o.prefix_ + 1, later := [] } := by
    have hsame := order_uid hfree
    rw [← hsame] at hfree ⊢
    exact order_putOrder (o := { o with prefix_ := o.prefix_ + 1, later := [] }) hfree
  obtain ⟨hbed4, -, hmem4, -, -⟩ := refreshRake_shows (putOrder { o with prefix_ := o.prefix_ + 1, later := [] } free)
  have hstay : n ≠ 48 → yieldAtEnd n (refreshRake (putOrder { o with prefix_ := o.prefix_ + 1, later := [] } free)) =
      refreshRake (putOrder { o with prefix_ := o.prefix_ + 1, later := [] } free) := fun h => by
    rw [yieldAtEnd]
    refine if_neg (Bool.eq_false_iff.mp ?_)
    exact (congrArg (fun b => (b.beds.getD n .reset).yielding) hbed4).trans (hbedAt h)
  have hsame : (if n = 48 then refreshRake (putOrder { o with prefix_ := o.prefix_ + 1, later := [] } free)
      else yieldAtEnd n (refreshRake (putOrder { o with prefix_ := o.prefix_ + 1, later := [] } free))) =
      refreshRake (putOrder { o with prefix_ := o.prefix_ + 1, later := [] } free) := by
    split
    · rfl
    · next h => exact hstay h
  rw [hsame]
  exact ⟨{ o with prefix_ := o.prefix_ + 1, later := [] }, hmem4.trans hmem,
    (order_of_orders (congrArg (fun b => b.orders) hbed4) _).trans hput, rfl, rfl⟩

end

end Sys2Proof.Machine

namespace Sys2Proof
open Sys2Proof.Machine

/-- Settles O51: a job ends with the first check that fails or becomes the newest order; binning and resolves follow. -/
theorem rakeJobs : Obligations.RakeJobs := by
  unfold Obligations.RakeJobs
  intro s
  refine ⟨?_, fun hnone => ?_, fun j o hfind horder hopen hstall bs s1 hread hrake => ⟨fun hfull => ?_, ?_⟩, fun uid hnone => ?_,
    fun uid j o hjob horder => ⟨fun hshaded => ?_, ?_⟩⟩
  · intro uid e d p m i hi he huid hd hop hmode hopen hnew hjob hopen65 hstall hplot edge
    subst huid
    have hexec : exec i s = .next (takeJob e d s) := by
      simp only [List.mem_cons, Prod.mk.injEq, List.not_mem_nil, or_false] at hi
      obtain ⟨rfl, rfl⟩ | ⟨rfl, rfl⟩ := hi
      · exact (congrArg (fun m => rakeRow m e.uid s) hmode.symm).trans (rakeRow_takes he hd hop hopen hnew)
      · exact (congrArg (fun m => rakeRow m e.uid s) hmode.symm).trans (rakeRow_takes he hd hop hopen hnew)
    refine ⟨fun hbad => ?_, fun hdesc bs s1 hread => ?_⟩
    · rw [hexec, takeJob_checks hopen65 hstall hplot]
      exact congrArg Host.Outcome.next (if_pos (by simp [show rkDescOk d (tileEdge p.tile) = false from hbad]))
    · obtain ⟨hfails, haccepts⟩ := takeJob_reads hopen65 hstall hplot hdesc hread
      obtain ⟨f1, f2, f3, f4, f5, f6⟩ := rakeCheck_first s1 p d (splitTargets (rkTargets d) bs) edge
      have hend : ∀ w, s1.rakeCheck p d (splitTargets (rkTargets d) bs) edge = some w → exec i s = .next (finishEntry e.uid w 0 s1) :=
        fun w hw => hexec.trans (congrArg Host.Outcome.next (hfails w hw))
      refine ⟨fun h => hend _ (f1 h), fun h1 h => hend _ (f2 h1 h), fun h1 h2 h => hend _ (f3 h1 h2 h),
        fun h1 h2 h3 h => hend _ (f4 h1 h2 h3 h), fun h1 h2 h3 h4 h => hend _ (f5 h1 h2 h3 h4 h),
        fun h1 h2 h3 h4 h5 hstart => ?_, fun h1 h2 h3 h4 h5 hstart => ?_⟩
      · exact hexec.trans (congrArg Host.Outcome.next ((haccepts (f6 h1 h2 h3 h4 h5)).trans (if_pos hstart)))
      · have hold : ∀ k ∈ s1.rake.jobs, k.uid ≠ e.uid := by
          rw [rake_vaRead hread]
          exact fun k hk => of_decide_eq_false (Bool.eq_false_iff.mpr (List.find?_eq_none.mp hjob k hk))
        obtain ⟨o, j, hshows⟩ := acceptJob_becomes (e := e) (ts := splitTargets (rkTargets d) bs) hstart hold
        exact ⟨_, o, j, hexec.trans (congrArg Host.Outcome.next (haccepts (f6 h1 h2 h3 h4 h5))), hshows⟩
  · have hfind : s.rake.jobs.find? (fun j => j.phase == 1) = none :=
      List.find?_eq_none.mpr fun j hj => by simpa using hnone j hj
    show execBinningDone s = .next s
    rw [execBinningDone, hfind]
  · have hfinish := execBinningDone_reads hfind horder hopen hstall
    obtain ⟨u, hmem, hhost, horders, hrd, hends⟩ := finishBinning_overflows hread rfl rfl hfull
    exact ⟨u, hmem, hhost, horders, hrd, hfinish.trans (congrArg Host.Outcome.next hends)⟩
  · intro hfits s2 hwrite hrake2
    have hfinish := execBinningDone_reads hfind horder hopen hstall
    obtain ⟨j', hshows⟩ := finishBinning_lists hread rfl hfits hwrite (by rw [hrake2]; exact List.mem_of_find?_eq_some hfind)
    exact ⟨_, j', hfinish, hshows⟩
  · show execResolveDone uid s = .next s
    rw [execResolveDone, hnone]
  · have hfind : j.shaded.find? (fun x => x.1 = o.prefix_) = none :=
      List.find?_eq_none.mpr fun x hx => by simpa using hshaded x hx
    show execResolveDone uid s = .next s
    rw [execResolveDone, hjob, horder]
    dsimp only
    rw [hfind]
  · intro n hfind hopen hstall hholds hyield hlater hending htrap hmore s1 hwrite hbed _
    have huid : j.uid = uid := of_decide_eq_true (List.find?_some (p := fun j : RakeJob => decide (j.uid = uid)) hjob)
    have hexec : execResolveDone uid s = .next (resolveTile j o n s) := by
      rw [execResolveDone, hjob, horder]
      dsimp only
      rw [hfind]
      exact congrArg Host.Outcome.next (if_pos (by simp [hopen, hstall, hholds]))
    obtain ⟨o', hshows⟩ := resolveTile_resolves huid horder hholds hyield hlater hending htrap hmore hwrite hbed
    exact ⟨_, o', hexec, hshows⟩

end Sys2Proof
end

section
/-! PROOFS. The switch: forwarding, queues, the virtual NIC, time (spec/18 R428-R435, Table 18.2). -/
namespace Sys2Proof.Machine

theorem drainShade_none {s : State} (hopen : s.isOpen 61 = true) (hpower : s.power ≠ 1) (hframes : s.pwr.frames = []) :
    drainShade s = s := by
  have hkeep : ({ s with pwr := { s.pwr with frames := [] } } : State) = s := by rw [← hframes]
  rw [drainShade, if_neg (by simp [hpower, hopen]), hkeep, hframes]
  rfl

/-! A frame received (Table 18.2) -/

/-- A datagram that no running slot matches, or that meets a shut intake, is no hit. -/
theorem noHit {s : State} {p : Nat} {f : EthFrame}
    (h : s.isShut 62 = true ∨ ∀ u, parseUdp f.body = some u → s.matchSlot p f.vid u = none) :
    (if s.isShut 62 then none else (parseUdp f.body).bind (fun u => (s.matchSlot p f.vid u).map (fun m => (u, m)))) =
      (none : Option (Udp × Nat × Bool)) := by
  rcases h with hshut | hnone
  · exact if_pos hshut
  · split
    · rfl
    · cases hu : parseUdp f.body with
      | none => rfl
      | some u => rw [Option.bind_some, hnone u hu, Option.map_none]

section
variable {s : State} {v p src ns : Nat} {f : EthFrame}

/-- Step 6: what a running slot matches goes to the intake. -/
theorem forward_matched {u : Udp} {m : Nat × Bool} (hshut : s.isShut 62 = false) (hudp : parseUdp f.body = some u)
    (hmatch : s.matchSlot p f.vid u = some m) (hgroup : isGroup f.dst = false) :
    forward v p src ns f s = toIntake m.1 m.2 src ns f u s := by
  rw [forward, if_neg (Bool.eq_false_iff.mp hshut), hudp, Option.bind_some, hmatch]
  exact if_neg (Bool.eq_false_iff.mp hgroup)

theorem forward_unmatched (h : s.isShut 62 = true ∨ ∀ u, parseUdp f.body = some u → s.matchSlot p f.vid u = none) :
    forward v p src ns f s =
      if f.dst = s.rd64 R.intakeMac then enqueue I1 src ns f s else bridge v src ns false f s := by
  rw [forward, noHit h]

theorem bridge_known {e : MacEntry} (h : s.switch.macs.find? (fun e => e.vid = f.vid && e.mac = f.dst) = some e) :
    bridge v src ns false f s = if e.port = src then s else enqueue e.port src ns f s := by
  rw [bridge, h]
  rfl

theorem bridge_unknown (h : s.switch.macs.find? (fun e => e.vid = f.vid && e.mac = f.dst) = none) :
    bridge v src ns false f s = s.each (s.floodTo v src) (fun d t => enqueue d src ns f t) := by
  rw [bridge, h]

end

section
variable {s : State} {p sub : Fin 4} {frame : List Byte}

theorem receive_elsewhere (h : ¬ (sub.val < s.subPorts p ∧ bit (s.get (F.intakePortStatusLink p)) sub = true)) :
    receive p sub frame s = s := by
  refine if_pos ?_
  rw [Decidable.not_and_iff_or_not, Nat.not_lt, Bool.not_eq_true] at h
  rwa [Bool.not_eq_true']

variable (hhere : sub.val < s.subPorts p ∧ bit (s.get (F.intakePortStatusLink p)) sub = true)
include hhere

theorem receive_bad (h : ¬ (64 ≤ frame.length ∧ frame.length ≤ 9216 ∧
    frame.drop (frame.length - 4) = fcsOf (frame.take (frame.length - 4)))) : receive p sub frame s = countPort p 1 s := by
  refine (if_neg ?_).trans (if_pos ?_)
  · simp [hhere]
  · rw [Decidable.not_and_iff_or_not, Decidable.not_and_iff_or_not, Nat.not_le, Nat.not_le] at h
    exact h

variable (hgood : 64 ≤ frame.length ∧ frame.length ≤ 9216 ∧
    frame.drop (frame.length - 4) = fcsOf (frame.take (frame.length - 4)))
include hgood

/-- Steps 2 to 4 for a good frame. -/
theorem receive_good : receive p sub frame s =
    let ns := s.rd64 R.intakeTimeNow / 4 * 4
    let s1 := countPort p 0 s
    let f := parseFrame (s.get (F.intakePortCfgPvid p)) (frame.take (frame.length - 4))
    if be16 f.body 0 = 0x8808 then countPort p 5 s1
    else if s1.isTime f then { s1 with switch := { s1.switch with ptp := s1.switch.ptp ++ [(4 * p.val + sub.val, f, ns)] } }
    else match s1.vlanOf f.vid with
      | none => countPort p 2 s1
      | some v =>
        if !bit (s1.get (F.intakeVlanMember v)) p then countPort p 2 s1
        else forward v p (4 * p.val + sub.val) ns f (learn f.vid f.src (4 * p.val + sub.val) s1) := by
  obtain ⟨hshort, hlong, hfcs⟩ := hgood
  refine (if_neg ?_).trans ((if_neg ?_).trans rfl)
  · simp [hhere]
  · simp [hfcs]
    omega

end

theorem countPort_isShut (p j : Nat) (s : State) : (countPort p j s).isShut 62 = s.isShut 62 := by
  have hstate : (countPort p j s).hedge 62 = s.hedge 62 := State.get_wr_ne _ _ _ (F.islandStateState 62) (by
    simp only [F.islandStateState, R.islandState, R.intakePortCount]; omega)
  rw [State.isShut, State.isShut, hstate]

theorem learn_shows (vid mac port : Nat) (s : State) : (learn vid mac port s).isShut 62 = s.isShut 62 ∧
    (learn vid mac port s).intake = s.intake := by
  rw [learn]
  dsimp only
  split
  · exact ⟨rfl, rfl⟩
  · have hstate : (s.bump32 R.intakeMacFull 1).hedge 62 = s.hedge 62 :=
      State.get_wr_ne _ _ _ (F.islandStateState 62) (by decide)
    exact ⟨by rw [State.isShut, State.isShut, hstate], rfl⟩

/-! Transmission -/

/-- The highest number below a bound that a test picks. -/
theorem find_reverse_range {P : Nat → Bool} {n q : Nat} (hq : q < n) (hP : P q = true) (habove : ∀ k, q < k → P k = false) :
    (List.range n).reverse.find? P = some q := by
  induction n with
  | zero => omega
  | succ n ih =>
    rw [List.range_succ, List.reverse_append, List.reverse_singleton, List.singleton_append, List.find?_cons]
    by_cases hn : q = n
    · rw [← hn, hP]
    · rw [habove n (by omega)]
      exact ih (by omega)

theorem eraseIdx_findIdx {α : Type} {l : List α} {P : α → Bool} {x : α} (h : l.find? P = some x) :
    l.eraseIdx (l.findIdx P) = l.eraseP P := by
  have hlt : l.findIdx P < l.length := List.findIdx_lt_length_of_exists ⟨x, List.mem_of_find?_eq_some h, List.find?_some h⟩
  rw [List.eraseP_eq_eraseIdx, List.findIdx?_eq_some_iff_findIdx_eq.mpr ⟨hlt, rfl⟩]

section
variable {s : State} (hdrain : drainShade s = s)
include hdrain

theorem frameTransmit_idle {dest : Fin 17} (h : s.mayTransmit dest = false ∨ s.servedQueue dest = none) :
    execFrameTransmit dest s = .next s := by
  rw [execFrameTransmit, hdrain]
  refine congrArg Host.Outcome.next ?_
  rcases h with h | h
  · exact if_pos (by simp [h])
  · split
    · rfl
    · rw [h]

/-- The oldest frame of the served queue leaves. -/
theorem frameTransmit_sends (hopen : s.isOpen 61 = true) {dest : Fin 17} {q : Nat} {x : Queued} (hmay : s.mayTransmit dest = true)
    (hserved : s.servedQueue dest = some q) (hshaped : s.shaped dest q = false)
    (hfind : s.switch.queues.find? (fun y => y.dest = dest.val && y.queue = q) = some x) :
    execFrameTransmit dest s = .next (sendFrame x { s with switch := { s.switch with
      queues := s.switch.queues.eraseP (fun y => y.dest = dest.val && y.queue = q) } }) := by
  rw [execFrameTransmit, hdrain]
  refine congrArg Host.Outcome.next ((if_neg (by simp [hopen, hmay])).trans ?_)
  rw [hserved]
  dsimp only
  rw [hfind]
  dsimp only
  rw [if_neg (Bool.eq_false_iff.mp hshaped), eraseIdx_findIdx hfind]

end

/-- A destination's served queue is its highest that holds a frame, where none is shaped. -/
theorem servedQueue_highest {s : State} {dest q : Nat} {x : Queued} (hq : q < 8) (hshaped : ∀ k, s.shaped dest k = false)
    (hfind : s.switch.queues.find? (fun y => y.dest = dest && y.queue = q) = some x)
    (hhighest : ∀ y ∈ s.switch.queues, y.dest = dest → y.queue ≤ q) : s.servedQueue dest = some q := by
  refine find_reverse_range hq ?_ fun k hk => ?_
  · have hheld : s.switch.queues.any (fun x => x.dest = dest && x.queue = q) = true :=
      List.any_eq_true.mpr ⟨x, List.mem_of_find?_eq_some hfind,
        List.find?_some (p := fun y : Queued => y.dest = dest && y.queue = q) hfind⟩
    simp only [hheld, hshaped, Bool.not_false, Bool.true_or, Bool.and_self]
  · have hnone : s.switch.queues.any (fun x => x.dest = dest && x.queue = k) = false := by
      rw [List.any_eq_false]
      intro y hy hyk
      simp only [Bool.and_eq_true, decide_eq_true_eq] at hyk
      have := hhighest y hy hyk.1
      omega
    simp only [hnone, Bool.false_and]

/-- The frame leaves untagged exactly where its VLAN entry says so for the destination. -/
def State.tagsFrame (s : State) (q : Queued) : Bool :=
  !(s.vlanOf q.frame.vid).elim false (fun v => bit (s.get (F.intakeVlanUntag v)) (memberBit q.dest))

theorem tagsFrame_false {s : State} {q : Queued} (hdest : q.dest ≠ I1) : s.tagsFrame q = false ↔
    ∃ v, s.vlanOf q.frame.vid = some v ∧ bit (s.get (F.intakeVlanUntag v)) (q.dest / 4) = true := by
  rw [State.tagsFrame, memberBit, if_neg hdest]
  cases s.vlanOf q.frame.vid <;> simp

theorem sendFrame_external {s : State} {q : Queued} (hdest : q.dest ≠ I1) : sendFrame q s =
    let bs := frameBytes q.frame (s.tagsFrame q)
    countPort (q.dest / 4) 3 { s with switch := { s.switch with
      sent := (q.dest, bs ++ fcsOf bs, s.rd64 R.intakeTimeNow / 4 * 4) :: s.switch.sent } } := if_neg hdest

theorem countPort_counts (p j : Nat) (s : State) : ((countPort p j s).rd (R.intakePortCount p j)).toNat =
    min 0xFFFFFFFF ((s.rd (R.intakePortCount p j)).toNat + 1) := by
  rw [countPort, State.rd_bump32_same, satAdd_eq_min, BitVec.toNat_ofNat]
  omega

/-! Links -/

theorem bit_mod_sixteen {x k : Nat} (hk : k < 4) : bit (x % 2 ^ 4) k = bit x k := by
  have hpow : 2 ^ 4 = 2 ^ k * 2 ^ (4 - k) := by rw [← Nat.pow_add]; congr 1; omega
  have heven : 2 ∣ 2 ^ (4 - k) := Nat.pow_dvd_pow 2 (show 1 ≤ 4 - k by omega)
  rw [bit, bit, hpow, Nat.mod_mul_right_div_self, Nat.mod_mod_of_dvd _ heven]

theorem linkChange_shows {s : State} {p sub : Fin 4} {up : Bool} :
    let m := (maskList 4 (s.get (F.intakePortStatusLink p))).filter (fun x => x ≠ sub.val)
    let t := s.put (F.intakePortStatusLink p) (listMask (if up then sub.val :: m else m))
    (∀ k, k < 4 → bit (t.get (F.intakePortStatusLink p)) k = if k = sub.val then up else bit (s.get (F.intakePortStatusLink p)) k) ∧
      ∀ g : Field, g.off ≠ (F.intakePortStatusLink p).off → t.get g = s.get g := by
  refine ⟨fun k hk => ?_, fun g hg => State.get_wr_ne _ _ _ g hg⟩
  rw [State.get_put_same _ _ _ rfl]
  refine (bit_mod_sixteen hk).trans ?_
  rw [Bool.eq_iff_iff, bit_listMask]
  by_cases hsub : k = sub.val
  · cases up <;> simp [hsub]
  · cases up <;> simp [hsub, maskList, hk]

/-! The virtual NIC -/

theorem vnicTail_acts (w : Writer) (tail : Nat) (act : State → State) (s : State) :
    vnicTail w tail act s = if isPf0 w = false ∨ s.get F.intakeVnicCfgEn = 0 ∨ s.vnicSize ≤ tail then s else act s := by
  rw [vnicTail]
  simp only [Bool.not_eq_true']

theorem drainTx_end {base tail fuel : Nat} {acc : List Nat × List Byte} {s : State} :
    drainTx base tail fuel tail acc s = s := by
  cases fuel with
  | zero => rfl
  | succ fuel => exact if_pos rfl

/-- A frame in one descriptor: it is sent, then its DONE bit is set, then the head advances. -/
theorem drainTx_one {base tail fuel n : Nat} {d bs : List Byte} {s : State} (hn : n ≠ tail) (htail : tail = (n + 1) % s.vnicSize)
    (hd : hostRead 0 (vnicDesc base s.vnicSize n) 16 s = some d) (hlast : bit (bytesAt d 0xA 2) 1 = true)
    (hbs : hostRead 0 (bytesAt d 0 8) (bytesAt d 8 2) s = some bs) :
    drainTx base tail (fuel + 1) n ([], []) s =
      let a := vnicDesc base s.vnicSize n
      let s2 := fromHost bs s
      let s3 := hostWrite 0 (a + 0xA) (leBytes 2 ((hostRead 0 (a + 0xA) 2 s2).elim 0 leNat / 2 * 2 + 1)) s2
      { s3 with switch := { s3.switch with txHead := tail } } := by
  rw [drainTx, if_neg hn]
  dsimp only
  rw [hd]
  dsimp only
  rw [if_pos hlast, hbs, ← htail, drainTx_end]
  rfl

/-! Time -/

theorem ofInt_lt (width : Nat) (i : Int) : ofInt width i < 2 ^ width := by
  have hpos : (0 : Int) < 2 ^ width := Int.pow_pos (by decide)
  have hhi := Int.emod_lt_of_pos i hpos
  rw [ofInt, Int.toNat_lt (Int.emod_nonneg i (Int.ne_of_gt hpos)), Int.natCast_pow]
  exact hhi

/-- The STATE that a Sync of an offset leaves (R435). -/
def syncState (st good : Nat) (o : Int) : Nat :=
  if st = 2 then (if o < -2000 ∨ 2000 < o then 1 else 2) else if -500 < o ∧ o < 500 ∧ 15 ≤ good then 2 else 1

theorem syncState_lt (st good : Nat) (o : Int) : syncState st good o < 4 := by
  rw [syncState]
  split <;> split <;> decide

/-- The registers that show a Sync, before its offset steps or slews the time. -/
def showSync (o : Int) (s : State) : State :=
  s.puts [(F.intakeTimeStatusState, syncState (s.get F.intakeTimeStatusState) s.switch.good o),
    (F.intakeTimeStatusOffsetNs, ofInt 16 (clampInt 16 o))]

theorem showSync_shows (s : State) (o : Int) :
    (showSync o s).get F.intakeTimeStatusState = syncState (s.get F.intakeTimeStatusState) s.switch.good o ∧
    (showSync o s).get F.intakeTimeStatusOffsetNs = ofInt 16 (clampInt 16 o) ∧
    (showSync o s).rd64 R.intakeTimeNow = s.rd64 R.intakeTimeNow := by
  have hother : ∀ off, off ≠ R.intakeTimeStatus → (showSync o s).rd off = s.rd off := fun off hoff =>
    State.rd_puts_ne _ _ _ (by simp [F.intakeTimeStatusState, F.intakeTimeStatusOffsetNs, hoff])
  refine ⟨?_, ?_, rd64_of_rd (hother _ (by decide)) (hother _ (by decide))⟩
  · exact (State.get_puts_last s [] [_] F.intakeTimeStatusState _ rfl rfl).trans (Nat.mod_eq_of_lt (syncState_lt ..))
  · exact (State.get_puts_last s [_] [] F.intakeTimeStatusOffsetNs _ rfl rfl).trans (Nat.mod_eq_of_lt (ofInt_lt 16 _))

theorem takeSync_eq (s : State) (o : Int) : takeSync o s =
    let s1 := showSync o s
    let s2 := if o < -1000000 ∨ 1000000 < o then s1.wr64 R.intakeTimeNow (ofInt 64 ((s1.rd64 R.intakeTimeNow : Int) - o)) else s1
    { s2 with switch := { s2.switch with
      heard := true
      good := if -500 < o ∧ o < 500 then s.switch.good + 1 else 0
      slew := if o < -1000000 ∨ 1000000 < o then 0 else -o } } := by
  have hstate : (if s.get F.intakeTimeStatusState = 2 then (if o < -2000 ∨ 2000 < o then 1 else 2)
      else if 16 ≤ (if -500 < o ∧ o < 500 then s.switch.good + 1 else 0) then 2 else 1) =
      syncState (s.get F.intakeTimeStatusState) s.switch.good o := by
    rw [syncState]
    by_cases hsmall : -500 < o ∧ o < 500
    · simp [hsmall]
    · simp only [if_neg hsmall, ← and_assoc, hsmall, false_and]
      rfl
  rw [takeSync, hstate]
  rfl

/-- The state and time that a Sync of an offset leaves. -/
theorem takeSync_shows (s : State) (o : Int) :
    (takeSync o s).get F.intakeTimeStatusState = syncState (s.get F.intakeTimeStatusState) s.switch.good o ∧
        (takeSync o s).switch.good = (if -500 < o ∧ o < 500 then s.switch.good + 1 else 0) ∧
        (takeSync o s).get F.intakeTimeStatusOffsetNs = ofInt 16 (clampInt 16 o) ∧
        (o < -1000000 ∨ 1000000 < o → (takeSync o s).rd64 R.intakeTimeNow = ofInt 64 ((s.rd64 R.intakeTimeNow : Int) - o)) ∧
        (-1000000 ≤ o → o ≤ 1000000 → (takeSync o s).rd64 R.intakeTimeNow = s.rd64 R.intakeTimeNow ∧
          (takeSync o s).switch.slew = -o) := by
  obtain ⟨hstate, hoffset, hnow⟩ := showSync_shows s o
  rw [takeSync_eq]
  generalize showSync o s = s1 at hstate hoffset hnow
  by_cases hjump : o < -1000000 ∨ 1000000 < o
  · simp only [if_pos hjump]
    refine ⟨?_, trivial, ?_, fun _ => ?_, fun _ _ => by omega⟩
    · exact ((State.get_wr_ne _ _ _ F.intakeTimeStatusState (by decide)).trans
        (State.get_wr_ne _ _ _ F.intakeTimeStatusState (by decide))).trans hstate
    · exact ((State.get_wr_ne _ _ _ F.intakeTimeStatusOffsetNs (by decide)).trans
        (State.get_wr_ne _ _ _ F.intakeTimeStatusOffsetNs (by decide))).trans hoffset
    · rw [hnow]
      exact rd64_wr64_same (ofInt_lt 64 _)
  · simp only [if_neg hjump]
    exact ⟨hstate, trivial, hoffset, fun h => absurd h hjump, fun _ _ => ⟨hnow, trivial⟩⟩

theorem announce_shows {s : State} {st : Nat} (hst : st = s.get F.intakeTimeStatusState) :
    (s.put F.intakeTimeStatusState (if st = 0 ∨ st = 3 then 1 else st)).get F.intakeTimeStatusState =
      (if st = 0 ∨ st = 3 then 1 else st) ∧
    (s.put F.intakeTimeStatusState (if st = 0 ∨ st = 3 then 1 else st)).rd64 R.intakeTimeNow = s.rd64 R.intakeTimeNow := by
  have hlt : st < 4 := hst ▸ State.get_lt s F.intakeTimeStatusState
  refine ⟨(State.get_put_same _ _ _ rfl).trans (Nat.mod_eq_of_lt ?_),
    rd64_of_rd (State.rd_put_ne _ _ _ _ (by decide)) (State.rd_put_ne _ _ _ _ (by decide))⟩
  show _ < 4
  split <;> omega

/-- The time engine handles the oldest time frame where it runs. -/
theorem execPtpMessage_runs {s : State} (m : TimeMsg) (h61 : s.isShut 61 = false) :
    let s1 := { s with switch := { s.switch with ptp := s.switch.ptp.drop 1 } }
    (s.isOpen 57 = false ∨ s.plan.active.intake = none ∨ m = .other → execPtpMessage m s = .next s1) ∧
    (∀ k, s.plan.active.intake = some k → k.timeSrc = 2 → execPtpMessage m s = .next s1) ∧
    (∀ k, s.plan.active.intake = some k → s.isOpen 57 = true → k.timeSrc ≠ 2 →
      (∀ o, m = .sync o → execPtpMessage m s = .next (takeSync o s1)) ∧
      (m = .announce → execPtpMessage m s = .next (
        let st := s1.get F.intakeTimeStatusState
        { s1.put F.intakeTimeStatusState (if st = 0 ∨ st = 3 then 1 else st) with
          switch := { s1.switch with heard := true } }))) := by
  intro s1
  have hstart : execPtpMessage m s = .next (if !s.isOpen 57 ∨ s.plan.active.intake.elim true (fun k => k.timeSrc == 2) then s1
      else match m with
        | .sync offset => takeSync offset s1
        | .announce =>
          let st := s1.get F.intakeTimeStatusState
          { s1.put F.intakeTimeStatusState (if st = 0 ∨ st = 3 then 1 else st) with switch := { s1.switch with heard := true } }
        | .other => s1) := congrArg Host.Outcome.next (if_neg (Bool.eq_false_iff.mp h61))
  rw [hstart]
  refine ⟨fun h => ?_, fun k hk hsrc => ?_, fun k hk hopen hsrc => ⟨fun o hm => ?_, fun hm => ?_⟩⟩
  · rcases h with h | h | rfl
    · exact congrArg Host.Outcome.next (if_pos (by simp [h]))
    · exact congrArg Host.Outcome.next (if_pos (by simp [h]))
    · exact congrArg Host.Outcome.next (ite_self _)
  · exact congrArg Host.Outcome.next (if_pos (by simp [hk, hsrc]))
  · subst hm
    exact congrArg Host.Outcome.next (if_neg (by simp [hk, hopen, hsrc]))
  · subst hm
    exact congrArg Host.Outcome.next (if_neg (by simp [hk, hopen, hsrc]))

end Sys2Proof.Machine

namespace Sys2Proof
open Sys2Proof.Machine

/-- Settles O53: a frame goes where Table 18.2 sends it, and each other command does what its rule says where it applies. -/
theorem switchRules : Obligations.SwitchRules := by
  unfold Obligations.SwitchRules
  intro s
  refine ⟨fun hopen hpower hframes => ?_, fun vid mac => ⟨fun h => ?_, fun hshut hage => ?_⟩, fun p sub up hshut => ⟨?_, ?_⟩,
    fun w tail => ⟨fun hreach => ?_, fun hreach hbad => ?_, fun hreach hgood => ⟨fun htail => ?_, ?_⟩⟩, fun hshut => ?_, fun hst => ?_,
    fun hshut hst => ?_⟩
  · have hdrain := drainShade_none hopen hpower hframes
    refine ⟨?_, fun dest h => frameTransmit_idle hdrain h, ?_, ?_⟩
    · intro p sub frame here data good src ns s1 f route
      have hexec : exec (.frameReceive p sub frame) s = .next (receive p sub frame s) := by
        show execFrameReceive p sub frame s = _
        rw [execFrameReceive, hdrain]
        exact congrArg Host.Outcome.next (if_pos hopen)
      rw [hexec]
      refine ⟨fun h => congrArg _ (receive_elsewhere h), fun h hbad => congrArg _ (receive_bad h hbad), fun h hgood hpause => ?_,
        fun h hgood hpause htime => ?_, fun h hgood hpause htime => ⟨fun hvlan => ?_, fun v hvlan => ⟨fun hmember => ?_,
          fun hmember => ?_⟩⟩⟩
      · rw [receive_good h hgood]
        exact congrArg Host.Outcome.next (if_pos hpause)
      · rw [receive_good h hgood]
        exact congrArg Host.Outcome.next ((if_neg hpause).trans (if_pos htime))
      · rw [receive_good h hgood]
        refine congrArg Host.Outcome.next ((if_neg hpause).trans ((if_neg (Bool.eq_false_iff.mp htime)).trans ?_))
        rw [hvlan]
      · rw [receive_good h hgood]
        refine congrArg Host.Outcome.next ((if_neg hpause).trans ((if_neg (Bool.eq_false_iff.mp htime)).trans ?_))
        rw [hvlan]
        exact if_pos (congrArg Bool.not hmember)
      · have hforward : receive p sub frame s = forward v p src ns f (learn f.vid f.src src s1) := by
          refine (receive_good h hgood).trans ((if_neg hpause).trans
            ((if_neg (Bool.eq_false_iff.mp htime)).trans ?_))
          rw [hvlan]
          exact if_neg (Bool.eq_false_iff.mp (congrArg Bool.not hmember))
        rw [hforward]
        obtain ⟨hshuts, hintake⟩ := learn_shows f.vid f.src src s1
        rw [countPort_isShut] at hshuts
        intro s2
        refine ⟨fun u m hshut hudp hmatch hgroup => ?_, fun hnone => ?_⟩
        · refine ⟨_, _, congrArg _ (forward_matched (hshuts.trans hshut) hudp hmatch hgroup),
            congrArg (fun x => x.i0 ++ _) hintake, rfl, rfl, rfl, rfl, rfl, rfl, rfl⟩
        · rw [forward_unmatched (by rw [hshuts]; exact hnone)]
          refine ⟨fun hmac => congrArg _ (if_pos hmac), fun hmac => ?_⟩
          rw [if_neg hmac]
          exact ⟨fun e hfound => congrArg _ (bridge_known hfound), fun hlost => congrArg _ (bridge_unknown hlost)⟩
    · intro dest q x hdest hq hmay hshaped hfind hhighest
      have hserved := servedQueue_highest hq hshaped hfind hhighest
      have hx : x.dest = dest.val ∧ x.queue = q := by
        simpa using List.find?_some (p := fun y : Queued => y.dest = dest.val && y.queue = q) hfind
      have hnic : x.dest ≠ I1 := by rw [hx.1, I1]; omega
      have hsend := frameTransmit_sends hdrain hopen hmay hserved (hshaped q) hfind
      rw [sendFrame_external hnic] at hsend
      refine ⟨_, s.tagsFrame x, hsend, rfl, ?_, ?_, ?_⟩
      · rw [← hx.1]
        rfl
      · rw [← hx.1]
        exact tagsFrame_false hnic
      · rw [← hx.1]
        exact countPort_counts ..
    · intro x hqueues hdest hq hoff
      have hfind : s.switch.queues.find? (fun y => y.dest = 16 && y.queue = x.queue) = some x := by
        rw [hqueues]
        exact List.find?_cons_of_pos (by simp [hdest])
      have hserved : s.servedQueue 16 = some x.queue := by
        refine servedQueue_highest hq (fun _ => rfl) hfind fun y hy _ => ?_
        rw [hqueues, List.mem_singleton] at hy
        exact Nat.le_of_eq (congrArg Queued.queue hy)
      have hempty : s.switch.queues.eraseP (fun y => y.dest = 16 && y.queue = x.queue) = [] := by
        rw [hqueues]
        exact List.eraseP_cons_of_pos (by simp [hdest])
      refine (frameTransmit_sends hdrain hopen (dest := 16) rfl hserved rfl hfind).trans ?_
      exact congrArg Host.Outcome.next ((if_pos hdest).trans ((if_pos (.inl hoff)).trans
        (congrArg (fun l => ({ s with switch := { s.switch with queues := l } } : State).bump32 R.intakeVnicDrop 1) hempty)))
  · exact congrArg Host.Outcome.next (if_pos (by simpa using h))
  · exact congrArg Host.Outcome.next (if_neg (by simp [hshut, hage]))
  · exact fun hup hsub => congrArg Host.Outcome.next (if_pos (.inr ⟨hup, hsub⟩))
  · exact fun h => ⟨_, congrArg Host.Outcome.next (if_neg (by simp [hshut]; rcases h with h | h <;> simp [h])), linkChange_shows⟩
  · refine congrArg Host.Outcome.next ((writeAccess_serve hreach _ _).trans ?_)
    exact vnicTail_acts ..
  · refine congrArg Host.Outcome.next ((writeAccess_serve hreach _ _).trans ?_)
    exact (vnicTail_acts ..).trans (if_pos hbad)
  · refine congrArg Host.Outcome.next ((writeAccess_serve hreach _ _).trans ((vnicTail_acts ..).trans ((if_neg hgood).trans ?_)))
    rw [htail]
    exact drainTx_end
  · intro hne hnext d bs hd hlast hbs
    refine congrArg Host.Outcome.next ((writeAccess_serve hreach _ _).trans ((vnicTail_acts ..).trans ((if_neg hgood).trans ?_)))
    have hone := drainTx_one (base := s.rd64 R.intakeVnicTxBase) (fuel := s.vnicSize - 1)
      (s := { s with switch := { s.switch with txTail := tail.toNat } }) hne.symm hnext hd hlast hbs
    have hsize : s.vnicSize - 1 + 1 = s.vnicSize := Nat.sub_add_cancel (Nat.two_pow_pos _)
    rw [hsize] at hone
    exact hone
  · refine ⟨fun m h => (execPtpMessage_runs m hshut).1 h, fun k hk hopen => ⟨fun m hsrc => (execPtpMessage_runs m hshut).2.1 k hk hsrc,
      fun hsrc => ?_, fun o hsrc => ?_⟩⟩
    · obtain ⟨hstate, hnow⟩ := announce_shows (s := { s with switch := { s.switch with ptp := s.switch.ptp.drop 1 } }) rfl
      exact ⟨_, ((execPtpMessage_runs .announce hshut).2.2 k hk hopen hsrc).2 rfl, hstate, hnow⟩
    · exact ⟨_, ((execPtpMessage_runs (.sync o) hshut).2.2 k hk hopen hsrc).1 o rfl, takeSync_shows _ o⟩
  · exact congrArg Host.Outcome.next (if_pos (.inr hst))
  · refine ⟨_, congrArg Host.Outcome.next (if_neg (by simp [hshut, hst])), State.get_put_same _ F.intakeTimeStatusState _ rfl, ?_, rfl⟩
    exact rd64_of_rd (State.rd_put_ne _ _ _ _ (by decide)) (State.rd_put_ne _ _ _ _ (by decide))

end Sys2Proof
end

section
/-! PROOFS. A packet far ahead of the next expected number, of a slot in UNSUPPORTED (spec/18 R441). -/
namespace Sys2Proof.Machine

/-- An RTP packet of number 10,000 for slot 0, with one H.265 NAL unit. -/
def aheadPacket : Datagram := {
  slot := 0, rtcp := false, src := 0, frame := ⟨0, 0, 0, 0, []⟩, ns := 0, locked := false, gen := 0
  pay := [0x80, 0, 0x27, 0x10, 0, 0, 0, 0, 0, 0, 0, 0, 2, 1, 0] }

/-- The intake is open with that packet; slot 0 is UNSUPPORTED and expects number 0. -/
def unsupportedSlot : State :=
  let s := setSlot 0 { StreamSlot.reset with next := some 0 }
    ((State.reset.put (F.islandStateState 62) OPEN).put (F.intakeSlotStateState 0) SLOT_UNSUPPORTED)
  { s with intake := { s.intake with i0 := [aheadPacket] } }

/-- STATE of slot 0 in the next state of an outcome. -/
def slotAfter (o : Out) : Option Nat :=
  match o with
  | .next t => some (t.slotState 0)
  | _ => none

/-- The model takes a slot in UNSUPPORTED to WAIT_RAP at a restart. -/
theorem rtpPacket_restarts : slotAfter (exec .rtpPacket unsupportedSlot) = some SLOT_WAIT_RAP := by decide

/-- The state that the statement puts there before the last step: the packet released and the restart counted. -/
def releasedAhead : State :=
  let k := rtpPacket aheadPacket aheadPacket.pay
  let x := unsupportedSlot.slot 0
  let s1 := { unsupportedSlot with intake := { unsupportedSlot.intake with
    i0 := unsupportedSlot.intake.i0.eraseP (fun d => d.rtcp == false) } }
  let y := { x with ssrcLocked := true, other := none }
  let s2 := (setSlot 0 y s1).wr (R.intakeSsrc 0) (BitVec.ofNat 32 k.ssrc)
  countSlot 0 C_RESYNCS 1 (releasePkt 0 k (setSlot 0 { y with next := some ((k.seq + 1) % 65536) } s2))

/-- The statement leaves the slot in UNSUPPORTED. -/
theorem releasedAhead_unsupported : slotAfter (.next (workStore (if releasedAhead.slotState 0 = 2
    then releasedAhead.put (F.intakeSlotStateState 0) 1 else releasedAhead))) = some SLOT_UNSUPPORTED := by decide

end Sys2Proof.Machine

namespace Sys2Proof
open Sys2Proof.Machine

/-- Refutes O55: a packet more than 3,000 ahead takes a slot in UNSUPPORTED to WAIT_RAP, as it does every slot that is not
in ERROR (log entry 65); the statement lets only a slot in DECODING change. -/
theorem not_streamPackets : ¬ Obligations.StreamPackets := by
  unfold Obligations.StreamPackets
  intro h
  obtain ⟨-, hpacket, -⟩ := h unsupportedSlot rfl
  obtain ⟨-, hruns⟩ := hpacket aheadPacket (by decide) rfl (by decide)
  obtain ⟨-, hplain⟩ := hruns (by decide) (by decide)
  obtain ⟨-, -, -, hgood⟩ := hplain (by decide)
  obtain ⟨-, -, -, hahead⟩ := hgood (by decide) (by decide) (by decide)
  have hrun : exec .rtpPacket unsupportedSlot = .next (workStore (if releasedAhead.slotState 0 = 2
      then releasedAhead.put (F.intakeSlotStateState 0) 1 else releasedAhead)) := hahead (by decide) (by decide) rfl
  have hafter := (congrArg slotAfter hrun).symm.trans rtpPacket_restarts
  rw [releasedAhead_unsupported] at hafter
  exact absurd hafter (by decide)

end Sys2Proof
end
